-- ==== Sys2Proof/Word.lean ====
section
/-!
DEFINITION. The words of the machine: bytes, registers and the wider words (R9).
-/
namespace Sys2Proof

abbrev Byte := BitVec 8
abbrev Word32 := BitVec 32
abbrev Word64 := BitVec 64
/-- One Sirtin instruction word or extension word (R194). -/
abbrev Word128 := BitVec 128

end Sys2Proof
end

