-- ==== Sys2Proof/Syntax.lean ====
section
/-!
DEFINITION. The commands of the block: one constructor per row of spec/opcode_table.json. Each carries what the outside world or the
physical part gives the event: who acts, the number of the unit, the value written, the sensor-domain time in ns at which it falls; `mem`
lists the words and granules that the memory reads of the command find faulty (R131, R140, R141).
-/
namespace Sys2Proof

/-- Who makes a register access, and to what (R10, R513, R514): the physical function, a virtual function, the active Computus pair, or
the management port, to the register blocks; the host to the PCIe configuration space of a function (R97 to R99), to its MSI-X table
(R96, R504), or to a doorbell page of its BAR4 (R110). -/
inductive Who where
  | pf
  | vf (n : Nat)
  | computus
  | mgmt
  | cfg (fn : Nat)
  | msix (fn : Nat)
  | bell (fn page : Nat)
  deriving DecidableEq, Repr

/-- What the owner of a Span window answers to one piece of a commit (R245, R356, R440, R443). -/
inductive PieceReply where
  | ack
  | refused (epochDrop : Bool)
  | again
  | dropped
  deriving DecidableEq, Repr

/-- A physical upset of the array while one long instruction runs (R334, R335, R336, R340): on the `visit`-th tile of an MM the
accumulator of array row `row` and array column `col`, or on the `visit`-th block of 256 elements of an EW the element on bypass lane
`col`, has the bits of `flip` inverted. -/
structure Upset where
  visit : Nat
  row : Nat
  col : Nat
  flip : Nat
  deriving DecidableEq, Repr

/-- One access that a prep core, or the region DMA engine, makes for a command that executes (R23, R31, R127, R129), with addresses of
the 64-bit map of R127: a load, a store of the bytes that the prep core's program has computed, or a move. `vec` tells a vector access
from a scalar one (Table 3 of R157). -/
inductive Xact where
  | load (vec : Bool) (a n : Nat)
  | store (vec : Bool) (a : Nat) (bytes : List Nat)
  | move (src dst n : Nat)
  deriving DecidableEq, Repr

/-- What a detecting unit reports to the fault collector (R359, R360): source, master, address and access type. -/
structure Detection where
  src : Nat
  master : Nat
  addr : Nat
  acc : Nat
  deriving DecidableEq, Repr

/-- One word or granule of memory found faulty by the access: its address, and whether it could be corrected (R131, R140, R141). -/
structure MemErr where
  hbm : Bool
  addr : Nat
  correctable : Bool
  deriving DecidableEq, Repr

/-- The bus side of an access of the management port (R522): the address on the bus, whether it is an I3C access, and the dynamic address that
the I3C controller has assigned to this part since the last access, if any. -/
structure MgmtBus where
  addr : Nat
  i3c : Bool
  assign : Option Nat
  deriving DecidableEq, Repr

/-- A flit that a League port receives (R432, R434): its sequence number, the number below which the peer has every flit, the number from
which the peer asks for flits again, the package it is for, and its content. -/
structure Flit where
  seq : Nat
  ack : Nat
  again : Option Nat
  dst : Nat
  bytes : List Nat
  deriving DecidableEq, Repr

/-- What a message of a vehicle domain says of itself (R420): the MAC it comes through, UDP or IEEE 802.3, peer-to-peer or end-to-end delay, its
domain number and its grandmaster. -/
structure PtpMsg where
  mac : Nat
  udp : Bool
  p2p : Bool
  num : Nat
  gm : Nat
  deriving DecidableEq, Repr

/-- The commands. -/
inductive Instr where
  /-- PORST_N_ASSERT (R524). A low level on PORST_N held for 10 µs or more starts a cold reset and drives every signal to its cold-reset state. -/
  | porstNAssert (ns : Nat)
  /-- MASK_ROM_BOOT (R486). When PORST_N is deasserted, Computus pair 0 starts from mask ROM, then reads, checks and starts the flash image. -/
  | maskRomBoot (bootsel mgmtAddr : Nat) (refclk : Bool) (devs : List Nat)
  /-- REFCLK_DETECT (R42). When the 100 MHz reference appears after a cold reset that lacked it, the compute dies and the host link start. -/
  | refclkDetect
  /-- WARM (R500). A write of HIF_RST_CTRL.WARM starts a warm reset, which keeps HBM if WARM_KEEP is 1. -/
  | warm
  /-- CHIP_RESET_START (R369). 20 µs after a CHIP_RESET reaction, a warm reset starts and overrides block resets in progress. -/
  | chipResetStart (t : Nat)
  /-- WARM_RESET_RESTART (R487). At the end of a warm reset, Computus checks the running area against SEC_RUN_DIGEST and restarts the firmware from it, or enters boot-over-link on a mismatch. -/
  | warmResetRestart
  /-- HBM_AVAILABLE (R503). Once each controller has written zero with valid check bits to every granule of its stack, HBM serves requests again. -/
  | hbmAvailable (mem : List MemErr)
  /-- LINK_RESET (R504). A PCIe hot reset, a link down or PERST_N low resets the PCIe and HIF_FN state, kills ring commands without records and destroys unpinned contexts. -/
  | linkReset
  /-- FUNCTION_RESET (R505). An FLR of function f kills the commands of partition f, destroys its contexts, modules, descriptors, pages and windows, and resets its HIF_FN registers. -/
  | functionReset (fn : Nat)
  /-- BLOCK_RESET_COMPLETE (R34). A block reset completes within its bound, and the killed command becomes ready for its re-run. -/
  | blockResetComplete (unit : Nat)
  /-- DOZE (R506). A write of PWR_LP_CTRL.DOZE is refused or starts entry to Doze. -/
  | doze
  /-- KEEP (R506). A write of PWR_LP_CTRL.KEEP is refused or starts entry to Keep. -/
  | keep
  /-- LOW_POWER_ENTERED (R506). Entry to Doze or Keep completes, and the domains switch off. -/
  | lowPowerEntered
  /-- WAKE (R507). WAKE, by a register write or over the management port, leaves Doze with Leap restored and Ember run on every unit, or leaves Keep by a warm reset. -/
  | wake (who : Who) (mem : List MemErr)
  /-- KEEP_WAKE_TIME (R507). When sensor time reaches PWR_LP_WAKE, the part leaves Keep. -/
  | keepWakeTime (t : Nat)
  /-- THERMAL_SHUTDOWN (R478). A junction at 125 °C switches off every compute-die domain, kills every command and enters Doze with THERMAL set. -/
  | thermalShutdown (t : Nat)
  /-- FAULT_EVENT (R363). An event reaching the collector is counted in its window, classified minor or severe, and reacted to. -/
  | faultEvent (evs : List Detection) (t : Nat)
  /-- SEVERE_CLEAR (R363). A write of one to a set SEVERE bit clears it and returns the source's count to 0 with no window open. -/
  | severeClear (i mask : Nat)
  /-- PENDING_CLEAR (R371). A write of one to a PENDING bit clears it together with the source's ERR latch. -/
  | pendingClear (i mask : Nat)
  /-- VALID_CLEAR (R370). A write of one to FLT_FIRST_INFO.VALID clears the first-error record and the merge state. -/
  | validClear
  /-- FLT_SRC_CFG_WRITE (R365). A write to FLT_SRC_CFG or FLT_SRC_WIN changes the selected source's configuration and resets its count, or is refused with BAD_CFG. -/
  | fltSrcCfgWrite (who : Who) (win : Bool) (value : Nat)
  /-- LOCK (R376). Setting FLT_CTRL.LOCK locks the host out of the fault collector and safety configuration until cold reset. -/
  | lock
  /-- INJECT (R375). FLT_INJECT.GO makes one event of the named source with master ID 0x80FF. -/
  | inject (who : Who) (src t : Nat)
  /-- FIRST_RECORD_SNAPSHOT (R375). A read of FLT_FIRST_ADDR bits 31:0 takes a snapshot of the whole first-error record for the requester. -/
  | firstRecordSnapshot (who : Who)
  /-- ERR_IN_EDGE (R374). A falling edge of the filtered ERR_IN_N level, held for 1 µs, raises one event of source ERR_IN while ERR_IN_EN is 1. -/
  | errInEdge (t : Nat)
  /-- SAFE_STATE_ENTRY (R380). When Computus takes an NMI, it selects a safe state from scope and MODE, sets the ERR latch and records the entry. -/
  | safeStateEntry (t : Nat)
  /-- B_PART_CLEAR (R384). A write of one to a B_PART bit requests a release of the partition at the next tick. -/
  | bPartClear (mask : Nat)
  /-- A_WINDOW_EXPIRY (R385). A_COUNT returns to 0 when A_WINDOW_S has passed since the first entry of its window. -/
  | aWindowExpiry (t : Nat)
  /-- RESTART_REPLAY (R386). Once HBM is available after the warm reset, Computus starts replaying the restart manifest at SAF_RESTART_ADDR. -/
  | restartReplay (mem : List MemErr)
  /-- MANIFEST_ENTRY (R386). When the previous entry completes, the next manifest entry is executed, and a failure stops the replay. -/
  | manifestEntry (mem : List MemErr)
  /-- LOCKSTEP_MISMATCH (R388). A lockstep mismatch in the active Computus pair hands control to the standby pair, or, with no standby, puts every partition in safe state B. -/
  | lockstepMismatch (pair t : Nat)
  /-- KALENDS_TICK (R44). At each tick, the current frame ends and the next starts: banks activate, a variant is selected, the roster is frozen and staged settings take effect. -/
  | kalendsTick (mem : List MemErr)
  /-- KAL_APPLY (R46). ALM_KAL_CTRL.APPLY checks the staged period, phase and Vigil offset, then refuses them or sets them pending for the next tick. -/
  | kalApply
  /-- FRAME_LO_READ (R45). A read of ALM_KAL_FRAME_LO returns the low frame bits and latches FRAME_HI. -/
  | frameLoRead
  /-- VIGIL (R63). At tick plus OFFSET_NS, the hub kills and withdraws the frame's commands, judges and writes the result records, writes the Vigil completion records and unpins rosters. -/
  | vigil
  /-- ROSTER_RECEIVE (R52). A roster-group member receives the leader's roster and returns its digest. -/
  | rosterReceive (bytes : List Nat)
  /-- ROSTER_DIGEST_RETURN (R52). The leader receives a member's digest, and agreement ends once every digest matches. -/
  | rosterDigestReturn (member digest : Nat)
  /-- ROSTER_AGREEMENT_TIMEOUT (R52). When SCH_ROSTER_TMO expires, agreement ends, and members without a matching digest have a disagreed roster. -/
  | rosterAgreementTimeout
  /-- PHASE_START (R59). A phase starts at the later of its START_NS and the end of the previous phase or of roster agreement. -/
  | phaseStart (t : Nat)
  /-- BUDGET_OVERRUN (R62). When a task's charge reaches BUDGET_NS, its running command is killed with BUDGET_OVERRUN and the task ends. -/
  | budgetOverrun (run t : Nat)
  /-- SWITCH (R57). SCH_ORDO_CTRL.SWITCH starts validation and copy of the Ordo image. -/
  | ordoSwitch (mem : List MemErr)
  /-- ORDO_COPY_DONE (R53). The validated image has been copied into the inactive bank, and PENDING sets. -/
  | ordoCopyDone (mem : List MemErr)
  /-- LAM_PORT_CFG_WRITE (R69). A write to LAM_PORT_CFG enables or disables a CSI-2 port, and PHY settings take effect when EN goes from 0 to 1. -/
  | lamPortCfgWrite (p value : Nat)
  /-- FRAME_START (R76). A CSI-2 frame start on a stream counts SEQ and opens a frame in a free ring buffer, or drops it when every buffer is pinned. -/
  | frameStart (p vc : Nat) (ecc : Bool) (t : Nat)
  /-- LINE (R77). A CSI-2 long packet is stamped, checked and processed into the stream's buffer. -/
  | line (p vc dt : Nat) (ecc crcOk : Bool) (hdrOk : Bool) (payload : List Nat) (t : Nat)
  /-- FRAME_END (R90). A CSI-2 frame end completes the frame's checks, and the buffer header is then written. -/
  | frameEnd (p vc : Nat) (ecc : Bool) (t : Nat)
  /-- FRAME_HEADER_WRITTEN (R78). A frame or sweep becomes eligible for a roster in the fc cycle in which its header write completes. -/
  | frameHeaderWritten (s t : Nat)
  /-- LINE_TIMEOUT (R91). The line timer of a camera frame expires, and the frame fails with LINE_TIMEOUT. -/
  | lineTimeout (s t : Nat)
  /-- FRAME_TIMEOUT (R91). The frame timer expires before FE, and the frame fails with FRAME_TIMEOUT. -/
  | frameTimeout (s t : Nat)
  /-- STR_APPLY (R70). LAM_STR_CFG.APPLY checks the staged camera stream values, then refuses them or sets them pending for the next frame start. -/
  | strApply (s : Nat)
  /-- STREAM_DISABLE (R73). Clearing LAM_STR_CFG.EN takes effect at once and discards a frame in progress. -/
  | streamDisable (s : Nat)
  /-- LID_APPLY (R84). LAM_LID_CFG.APPLY checks the staged lidar link values, then refuses them or sets them pending for the next sweep start. -/
  | lidApply (l : Nat)
  /-- ETHERNET_FRAME (R83). An Ethernet frame received on a MAC is checked, passed to Almanac or to the lidar parser, or discarded. -/
  | ethernetFrame (mac : Nat) (bytes : List Nat) (fcsOk : Bool) (t : Nat)
  /-- GAP_TIMEOUT (R90). The gap timer of a lidar link expires, and the sweep fails with LINE_TIMEOUT. -/
  | gapTimeout (l t : Nat)
  /-- SWEEP_TIMEOUT (R90). The sweep duration timer expires, and the sweep fails with FRAME_TIMEOUT. -/
  | sweepTimeout (l t : Nat)
  /-- READ_CLEAR (R10). A read of an RC counter returns its value and clears it. -/
  | readClear (who : Who) (addr : Nat)
  /-- CREATE (R106). HIF_FN_CTX_CMD with OP CREATE checks the set-up block and creates a resident context. -/
  | create (fn ctx : Nat)
  /-- DESTROY (R107). OP DESTROY kills the context's running command, discards its descriptors and frees the context number. -/
  | destroy (fn ctx : Nat)
  /-- ABORT (R107). OP ABORT kills the running command and completes every descriptor up to the tail with KILLED, in ring order. -/
  | abort (fn ctx : Nat)
  /-- SQ_TAIL (R111). A doorbell write of SQ_TAIL makes a context fetch its new descriptors, or is refused with DB_ERR. -/
  | sqTail (fn page off width value : Nat) (mem : List MemErr)
  /-- CQ_HEAD (R111). A doorbell write of CQ_HEAD frees completion records, or is refused. -/
  | cqHead (fn page off width value : Nat) (mem : List MemErr)
  /-- HELD_DOORBELL_RESUME (R109). At the first tick with an idle resident slot, a swapped-out context's held doorbells are acted on. -/
  | heldDoorbellResume (fn ctx : Nat) (mem : List MemErr)
  /-- DESCRIPTOR_FETCH (R113). The hub fetches a ring descriptor when the completion ring has two free records, and reserves a record for it. -/
  | descriptorFetch (fn ctx : Nat)
  /-- COAL_TIMER (R120). When COAL_US passes since the oldest unsignalled record, the context's MSI-X vector is signalled. -/
  | coalTimer (fn ctx t : Nat)
  /-- PCIE_LANE_FAIL (R98). A failed PCIe lane makes the link retrain at a narrower width and raises HIF_LINK_DEGRADED. -/
  | pcieLaneFail (width : Nat)
  /-- BAR2_READ (R100). A host read through BAR2 returns HBM data, zero, or a poisoned TLP. -/
  | bar2Read (addr len : Nat) (mem : List MemErr)
  /-- BAR2_WRITE (R100). A host write through BAR2 updates HBM, merging narrow writes by read–modify–write, or is ignored. -/
  | bar2Write (addr : Nat) (bytes : List Nat) (mem : List MemErr)
  /-- NOP (R113). A NOP descriptor completes in ring order with no effect. -/
  | ringNop (fn ctx : Nat)
  /-- RUN (R114). A RUN descriptor becomes a candidate to run an entry on a gang. -/
  | ringRun (fn ctx : Nat)
  /-- COPY (R115). A COPY descriptor starts a hub DMA copy between HBM and host memory. -/
  | ringCopy (fn ctx : Nat)
  /-- COPY_DONE (R115). The COPY transfer finishes, and the command completes. -/
  | copyDone (fn ctx t : Nat) (mem : List MemErr)
  /-- SIGNAL (R235). A SIGNAL descriptor adds ADD to its flag at dispatch. -/
  | ringSignal (fn ctx : Nat)
  /-- WAIT (R238). A WAIT descriptor stalls its context's dispatch until its flag reaches VALUE. -/
  | ringWait (fn ctx t : Nat)
  /-- WAIT_RELEASE (R238). The flag reaches VALUE, and the waiting descriptor completes. -/
  | waitRelease (fn ctx : Nat)
  /-- WAIT_EXPIRED (R239). The deadline of a WAIT descriptor passes, and it completes with WAIT_EXPIRED. -/
  | waitExpired (fn ctx t : Nat)
  /-- MODULE_LOAD (R219). MODULE_LOAD checks, measures, verifies and translates a module, and assigns it an identifier. -/
  | moduleLoad (fn ctx : Nat) (mem : List MemErr)
  /-- MODULE_UNLOAD (R222). MODULE_UNLOAD takes effect at dispatch and allows no new dispatch of the module. -/
  | moduleUnload (fn ctx : Nat)
  /-- UNLOAD_COMPLETE (R222). After the commit of the module's last running command, the unload completes and frees the native range. -/
  | unloadComplete (fn ctx : Nat)
  /-- TDT_WRITE (R160). TDT_WRITE checks COUNT source entries and makes them all visible together, or writes none. -/
  | tdtWrite (fn ctx : Nat) (mem : List MemErr)
  /-- POOL_GRANT (R295). A KV POOL_GRANT adds an HBM range to the partition's pool. -/
  | poolGrant (fn ctx : Nat)
  /-- POOL_RECLAIM (R295). A KV POOL_RECLAIM removes wholly free storage from the pool. -/
  | poolReclaim (fn ctx : Nat)
  /-- CACHE_CREATE (R291). A KV CACHE_CREATE creates a cache with its head shape and SPREAD. -/
  | cacheCreate (fn ctx : Nat)
  /-- CACHE_DESTROY (R295). A KV CACHE_DESTROY removes a cache that holds no valid entry. -/
  | cacheDestroy (fn ctx : Nat)
  /-- PAGE_ALLOC (R296). A KV PAGE_ALLOC takes a Bushel entry and buddy storage, and sets REFS to 1. -/
  | pageAlloc (fn ctx : Nat)
  /-- PAGE_SHARE (R296). A KV PAGE_SHARE adds one reference to a page. -/
  | pageShare (fn ctx : Nat)
  /-- PAGE_FREE (R296). A KV PAGE_FREE removes one reference from a page. -/
  | pageFree (fn ctx : Nat)
  /-- PAGE_COW (R296). A KV PAGE_COW returns the same page, or allocates a new one, moves the writer's reference and starts a pinned copy. -/
  | pageCow (fn ctx : Nat)
  /-- COW_COPY_DONE (R296). The PAGE_COW copy finishes, its pin is dropped, and the new ref is returned. -/
  | cowCopyDone (fn ctx : Nat) (mem : List MemErr)
  /-- KVU_ENTRY_READ (R304). A read of KVU_ENTRY_DATA0 takes a consistent snapshot of the selected Bushel entry. -/
  | kvuEntryRead
  /-- OPEN (R437). A SPAN OPEN opens a window into own HBM and advances its epoch. -/
  | spanOpen (fn ctx : Nat)
  /-- CLOSE (R438). A SPAN CLOSE closes a window and advances its epoch. -/
  | spanClose (fn ctx : Nat)
  /-- ADVANCE (R438). A SPAN ADVANCE advances an open window's epoch. -/
  | spanAdvance (fn ctx : Nat)
  /-- MAP (R436). A SPAN MAP writes or clears a local map entry that names a remote window and epoch. -/
  | spanMap (fn ctx : Nat)
  /-- PULL (R442). A SPAN PULL starts a read from a remote read–write window into local HBM. -/
  | spanPull (fn ctx : Nat)
  /-- PULL_DONE (R442). The PULL copy finishes, or is refused by the owner. -/
  | pullDone (fn ctx status : Nat) (bytes : List Nat)
  /-- PIECE_ARRIVAL (R440). The owner checks an arriving commit piece's CRC, window and epoch, then writes it whole or refuses it. -/
  | pieceArrival (p sender seq win epoch off crc : Nat) (again : Bool) (bytes : List Nat) (t : Nat)
  /-- ARRIVAL_MARK (R441). The owner checks an arrival mark and adds 1 to the window's ARRIVE_FLAG when FLAG_EN is set. -/
  | arrivalMark (p sender seq win epoch t : Nat)
  /-- PIECE_ACK (R245). The sender receives the owner's acknowledgement or refusal of a remote piece. -/
  | pieceAck (run idx : Nat) (reply : PieceReply) (t : Nat)
  /-- LNK_CTRL_WRITE (R433). Setting LNK_CTRL.EN starts training on the enabled ports of dimensions larger than 1. -/
  | lnkCtrlWrite (value : Nat)
  /-- PORT_TRAINED (R430). League training ends, and the port comes up if the peer is the expected neighbour or raises LNK_DOWN if not. -/
  | portTrained (p peer t : Nat)
  /-- LANE_FAIL (R431). A failed League lane is replaced by the spare, or takes the port down. -/
  | laneFail (p lane t : Nat)
  /-- FLIT_RECEIVE (R432). A received flit is delivered in order, or dropped and requested again on a CRC failure. -/
  | flitReceive (p : Nat) (f : Flit) (crcOk : Bool)
  /-- PORT_DOWN (R435). A port that goes down reroutes its traffic the other way round the ring, and unacknowledged pieces are sent again. -/
  | portDown (p t : Nat)
  /-- MIRROR_RECEIVE (R444). A roster-group member receives a mirrored Lammas write at the same HBM address and acknowledges it. -/
  | mirrorReceive (addr : Nat) (bytes : List Nat)
  /-- MIRROR_ACK (R444). The leader receives a member's acknowledgement of mirrored lines. -/
  | mirrorAck (member : Nat)
  /-- DISPATCH (R313). A ranked candidate whose named resources are bound and free dispatches, or completes with UNIT_ABSENT. -/
  | dispatch (id t : Nat) (mem : List MemErr)
  /-- SLICE_EXPIRY (R318). When a context's slice reaches 0, the context moves to the tail of its queue with a full slice. -/
  | sliceExpiry (fn ctx t : Nat)
  /-- PART_APPLY (R306). SCH_PART_CTRL.APPLY checks the staged cluster, attention-unit and SAFETY assignment, then refuses it or sets it pending. -/
  | partApply
  /-- SCH_CTX_SCHED_WRITE (R310). A write to SCH_CTX_SCHED sets a context's priority and slice from its next refill, or is refused. -/
  | schCtxSchedWrite (value : Nat)
  /-- FLAG_CLEAR (R237). SCH_FLAG_CLR.GO zeroes a flag range, or is refused while a wait is outstanding on it. -/
  | flagClear
  /-- MATMUL (R173). An MM instruction multiplies A by B in tiles in fixed order, with optional accumulate, negation, epilogue and conversion. -/
  | matmul (run g t : Nat)
  /-- CVT (R187). The EW CVT operation converts a. -/
  | ewCvt (run g t : Nat)
  /-- ADD (R187). The EW ADD operation computes a + b. -/
  | ewAdd (run g t : Nat)
  /-- SUB (R187). The EW SUB operation computes a − b. -/
  | ewSub (run g t : Nat)
  /-- MUL (R187). The EW MUL operation computes a × b. -/
  | ewMul (run g t : Nat)
  /-- FMA (R187). The EW FMA operation computes a × b + c with one rounding. -/
  | ewFma (run g t : Nat)
  /-- MAX (R187). The EW MAX operation takes the larger of a and b. -/
  | ewMax (run g t : Nat)
  /-- MIN (R187). The EW MIN operation takes the smaller of a and b. -/
  | ewMin (run g t : Nat)
  /-- ABS (R187). The EW ABS operation computes |a|. -/
  | ewAbs (run g t : Nat)
  /-- NEG (R187). The EW NEG operation computes −a. -/
  | ewNeg (run g t : Nat)
  /-- RELU (R187). The EW RELU operation passes positive a, and gives +0 otherwise. -/
  | ewRelu (run g t : Nat)
  /-- CLAMP (R187). The EW CLAMP operation clamps a to s0 to s1. -/
  | ewClamp (run g t : Nat)
  /-- AFFINE (R187). The EW AFFINE operation computes a × s0 + s1 with one rounding. -/
  | ewAffine (run g t : Nat)
  /-- EXP (R187). The EW EXP operation computes e^a, correctly rounded. -/
  | ewExp (run g t : Nat)
  /-- RECIP (R187). The EW RECIP operation computes 1 / a, correctly rounded. -/
  | ewRecip (run g t : Nat)
  /-- SQRT (R187). The EW SQRT operation computes √a, correctly rounded. -/
  | ewSqrt (run g t : Nat)
  /-- RSQRT (R187). The EW RSQRT operation computes 1 / √a, correctly rounded. -/
  | ewRsqrt (run g t : Nat)
  /-- RELU_GRAD (R187). The EW RELU_GRAD operation passes b where a > 0, and gives +0 otherwise. -/
  | ewReluGrad (run g t : Nat)
  /-- REQUANT (R532). The EW REQUANT operation requantises INT32 values with Q, S and Z. -/
  | ewRequant (run g t : Nat)
  /-- REDUCE_SUM (R191). The EW REDUCE_SUM operation sums along an axis in ascending order. -/
  | reduceSum (run g t : Nat)
  /-- REDUCE_MAX (R191). The EW REDUCE_MAX operation takes the maximum along an axis. -/
  | reduceMax (run g t : Nat)
  /-- SGD_MOM (R192). The EW SGD_MOM operation updates weights and momentum in place. -/
  | sgdMom (run g t : Nat)
  /-- ADAMW (R193). The EW ADAMW operation updates w, m and v in place. -/
  | adamw (run g t : Nat)
  /-- MOVE (R209). An MV MOVE copies SRC into on-chip DST. -/
  | mvMove (run g t : Nat)
  /-- PUBLISH (R210). An MV PUBLISH adds a source and destination pair to the commit list after a bound check. -/
  | mvPublish (run g t : Nat)
  /-- REBOLT (R190). A CV REBOLT copies a tensor between layouts, with optional transposition. -/
  | rebolt (run g t : Nat)
  /-- WINDOW (R254). A CV WINDOW copies convolution windows into an expanded buffer. -/
  | window (run g t : Nat)
  /-- GATHER (R269). A GT GATHER writes VALS slices from the DATA slices that the indices select. -/
  | gather (run g t : Nat)
  /-- SCATTER (R269). A GT SCATTER writes DATA slices from VALS in ascending index order. -/
  | scatter (run g t : Nat)
  /-- SCATTER_ADD (R272). A GT SCATTER_ADD adds VALS slices into DATA, with a rounding at each step. -/
  | scatterAdd (run g t : Nat)
  /-- ATTEND (R279). An AT ATTEND computes masked attention over paged keys and values on the region's attention unit. -/
  | attend (run g t : Nat)
  /-- SY_SIGNAL (R235). An SY SIGNAL adds VALUE to the command's deferred-signal list. -/
  | sySignal (run g t : Nat)
  /-- SY_WAIT (R238). An SY WAIT proceeds when its flag is at or above VALUE, or stalls the engine. -/
  | syWait (run g t : Nat)
  /-- SY_WAIT_RELEASE (R238). The awaited flag reaches VALUE, and the stalled engine issues again. -/
  | syWaitRelease (run g t : Nat)
  /-- SY_WAIT_EXPIRED (R239). An SY WAIT's deadline passes, and its command ends with WAIT_EXPIRED. -/
  | syWaitExpired (run g t : Nat)
  /-- BARRIER (R243). A BARRIER drains the engine and waits for every gang member. -/
  | barrier (run g t : Nat)
  /-- BARRIER_RELEASE (R243). Once the last member arrives, all members leave the barrier together. -/
  | barrierRelease (run : Nat)
  /-- LOOP_BEGIN (R231). A LOOP_BEGIN latches its count and starts or skips the loop body. -/
  | loopBegin (run g t : Nat)
  /-- LOOP_END (R231). A LOOP_END increments the iteration counter and branches back or falls through. -/
  | loopEnd (run g t : Nat)
  /-- SETCOUNT (R214). A SETCOUNT writes VALUE to a count register. -/
  | setcount (run g t : Nat)
  /-- CT_NOP (R226). A CT NOP instruction takes 1 ac with no effect. -/
  | ctNop (run g t : Nat)
  /-- END (R245). An END drains the engine and marks the member ready for commit. -/
  | ctEnd (run g t : Nat)
  /-- RDFLAGS (R230). An RDFLAGS drains and writes the arithmetic flags ANDed with MASK to a count register. -/
  | rdflags (run g t : Nat)
  /-- LDARG (R218). An LDARG writes an argument word to a count register. -/
  | ldarg (run g t : Nat)
  /-- INSTRUCTION_START (R227). A queued long instruction starts execution once it heads its queue and the scoreboard allows it. Queues 4
  and 5 stand for the work beside the engines: with `x`, prep core `g` of the command, or the region DMA engine, makes an access. -/
  | instructionStart (run g queue t : Nat) (mem : List MemErr) (ups : List Upset) (x : Option Xact)
  /-- INSTRUCTION_COMPLETE (R228). A long instruction completes after exactly T cycles and frees its scoreboard entries. -/
  | instructionComplete (run g queue t : Nat) (mem : List MemErr)
  /-- COMMIT_START (R245). When every member has drained at END and any check has accepted the result, the commit copies the PUBLISH pieces. -/
  | commitStart (run t : Nat) (mem : List MemErr)
  /-- COMMIT_END (R245). The commit applies deferred signals, reaches the Leap boundary, drops pins and writes the completion record. -/
  | commitEnd (run t : Nat)
  /-- HOLD_COPY_DONE (R345). Run 1's sources have been copied to hold slot A, and run 2 is dispatched on the Octave binding. -/
  | holdCopyDone (run t : Nat) (mem : List MemErr)
  /-- COMPARE_PASS_DONE (R346). Run 2's record is compared with slot A, and the command commits or arbitration starts. -/
  | comparePassDone (run t : Nat) (mem : List MemErr)
  /-- SLOT_B_COPY_DONE (R349). The slot B copy ends, and Troy kernels start on every unit used. -/
  | slotBCopyDone (run t : Nat) (mem : List MemErr)
  /-- TROY_KERNELS_DONE (R349). Troy kernels finish, failing units are fenced, and run 3 is dispatched or the command ends with UNIT_ABSENT. -/
  | troyKernelsDone (run : Nat) (failing : List Nat) (t : Nat)
  /-- VERDICT (R350). After run 3 and the final compare, Table 2 accepts or rejects the command. -/
  | verdict (run t : Nat) (mem : List MemErr)
  /-- MARCH_TEST_DONE (R132). A march test on a failing row ends, and the command re-runs after any row repair or fencing; `row` is the key
  of the row's first byte. -/
  | marchTestDone (row : Nat) (hard : Bool) (t : Nat)
  /-- SCRUB_READ (R134). The scrubber reads the next on-chip word and writes back a corrected single-bit error. -/
  | scrubRead (mem off flips t : Nat)
  /-- ROW_REPAIR_APPLY (R135). A due redundant-row repair takes effect when the cluster or region is free after a Vigil. -/
  | rowRepairApply (mem : Nat)
  /-- PATROL_READ (R142). HBM patrol reads a granule and corrects or poisons it. -/
  | patrolRead (addr flips t : Nat)
  /-- HBM_LANE_REPAIR (R143). A failing DQ lane is moved to a spare during a maintenance pause; `marginal`: the lane failed retraining. -/
  | hbmLaneRepair (stack lane : Nat) (marginal : Bool) (t : Nat)
  /-- HBM_ROW_REPAIR (R143). Soft post-package repair moves a failing row to a spare during a maintenance pause. -/
  | hbmRowRepair (stack row t : Nat)
  /-- RSV_APPLY (R147). MEM_RSV_CTRL.APPLY checks the staged RATE and BURST values, then refuses them or sets them pending for the next tick. -/
  | rsvApply
  /-- ROTATION_DUE (R395). ROT_MS after the previous rotation, Leap chooses the in-service unit with the oldest pass. -/
  | rotationDue (k : Nat) (pc : Bool) (t : Nat)
  /-- LEAP_ROTATION (R395). At the chosen unit's command boundary, its logical number binds to the spare, and the unit goes under test. -/
  | leapRotation (k : Nat) (pc : Bool) (t : Nat)
  /-- EMBER_TEST_DONE (R399). A unit's Ember test ends, and the unit becomes spare or is fenced; `rows` are the rows of its memory that
  failed the march test (R135). -/
  | emberTestDone (unit : Nat) (pass : Bool) (rows : List Nat) (t : Nat)
  /-- SEQUENCER_SWITCHOVER (R19). After the active sequencer is fenced, the standby becomes active, and the command in flight re-runs. -/
  | sequencerSwitchover (k t : Nat)
  /-- EMBER_SLICE_START (R401). An evaluation finds that a free unit's slack allows it, and an Ember slice starts. -/
  | emberSliceStart (unit t : Nat)
  /-- EMBER_SLICE_END (R402). An Ember slice ends, and the unit passes, continues or is fenced; `rows` as in EMBER_TEST_DONE. -/
  | emberSliceEnd (unit : Nat) (pass : Bool) (rows : List Nat) (t : Nat)
  /-- EMBER_DEFERRED (R403). A unit's untested time reaches a multiple of INTERVAL_MS and raises EMBER_DEFERRED. -/
  | emberDeferred (unit t : Nat)
  /-- LOAN_BEGIN (R405). At the deferred engine's command boundary, its logical number binds to a lender's spare. -/
  | loanBegin (k t : Nat)
  /-- LOAN_END (R405). At a boundary after the test and ROT_MS, the logical number returns to the deferred engine or is left unbound. -/
  | loanEnd (k t : Nat)
  /-- STANDBY_SEQ_TEST (R398). Every 100 ms the standby sequencer is tested against a stored trace. -/
  | standbySeqTest (k : Nat) (pass : Bool) (t : Nat)
  /-- STANDBY_COMPUTUS_TEST (R398). Every INTERVAL_MS the standby Computus pair runs its self-test. -/
  | standbyComputusTest (pass : Bool) (t : Nat)
  /-- WEAR_JOURNAL (R408). The wear counters are journalled to flash every hour and at every fencing. -/
  | wearJournal (t : Nat)
  /-- WEAR_READ (R407). A read of SAF_WEAR_DATA0 takes a snapshot of the selected unit's wear record. -/
  | wearRead (who : Who)
  /-- SENSOR_DOMAIN_START (R414). Almanac starts the sensor domain at 0 as grandmaster. -/
  | sensorDomainStart
  /-- FOLLOWER_SYNC (R417). A follower takes sync from its grandmaster over League, stepping once before start and then correcting by rate. -/
  | followerSync (origin : Nat) (rate : Int) (t : Nat)
  /-- FOLLOWER_FREE_START (R417). With no valid sync within 5 s, a follower starts free, sets FREE_START and raises ALM_DOMAIN_LOST. -/
  | followerFreeStart
  /-- FOLLOWER_SYNC_LOSS (R417). A locked follower that loses sync holds its rate and raises ALM_DOMAIN_LOST. -/
  | followerSyncLoss (t : Nat)
  /-- GPTP_SYNC_TRANSMIT (R416). Each sync interval, the part sends Sync and Follow_Up on each gPTP port; `mac` 4 to 9 are
  the League ports (R417). -/
  | gptpSyncTransmit (mac t : Nat)
  /-- PDELAY_REQ (R416). A received Pdelay_Req is answered. -/
  | pdelayReq (mac seq t : Nat)
  /-- PDELAY_REQ_TRANSMIT (R416). The part sends Pdelay_Req at its interval. -/
  | pdelayReqTransmit (mac t : Nat)
  /-- VEHICLE_SYNC_SAMPLE (R421). A valid sync of a vehicle domain gives a sample that the tracker acts on according to its state. -/
  | vehicleSyncSample (d : Nat) (seconds nanos : Nat) (delay : Int) (m : PtpMsg) (t : Nat)
  /-- DOMAIN_LOSS (R421). With no valid sample for LOSS_MS, a LOCKED tracker enters HOLDOVER. -/
  | domainLoss (d t : Nat)
  /-- REACQ (R421). ALM_DOM_CFG.REACQ forces the tracker to ACQUIRE. -/
  | reacq (d : Nat)
  /-- DOMAIN_CFG_WRITE (R429). A change to a domain's PORT, TRANSPORT, DELAY, DOMAIN_NUM or GM takes it to ACQUIRE, and an out-of-range write is refused. -/
  | domainCfgWrite (d : Nat) (gm : Bool) (value t : Nat)
  /-- SWITCH_SLEW_DONE (R423). The switch residual E reaches 0, and SWITCHING clears. -/
  | switchSlewDone (t : Nat)
  /-- STEER_UPDATE (R419). Once per ms the sensor rate is moved toward the selected domain's rate, within its limits. -/
  | steerUpdate (t : Nat)
  /-- SNAPSHOT (R424). ALM_SNAP_CTRL.GO latches sensor time, vehicle time and both domains at one instant. -/
  | snapshot (t : Nat)
  /-- TIO_APPLY (R426). ALM_TIO_CFG.APPLY checks the staged TIO settings, then applies them or refuses them. -/
  | tioApply (p t : Nat)
  /-- TIO_PULSE (R425). At a programmed instant a TIO pin emits its pulse, or sets MISSED. -/
  | tioPulse (p t : Nat)
  /-- TIO_EDGE (R428). A selected edge on a capture pin is stamped into the FIFO, or dropped when it is full; `ns`: how long the
  level after it holds. -/
  | tioEdge (p : Nat) (rising : Bool) (ns t : Nat)
  /-- CAP_POP (R428). A read of ALM_TIO_CAP_HI pops the oldest capture entry. -/
  | capPop (p : Nat)
  /-- START (R448). RPL_CTRL.START validates the replay session and starts it, latching the flag bases. -/
  | rplStart (t : Nat)
  /-- STOP (R452). RPL_CTRL.STOP abandons every lane of the session. -/
  | rplStop
  /-- LANE_SAMPLE_START (R449). When a lane and a slot are free under the consumer flag, the lane takes the next position and starts its sample. -/
  | laneSampleStart (lane t : Nat) (mem : List MemErr)
  /-- EMISSION (R451). A decoded sample's header is written and OUT_FLAG rises in emission order. -/
  | emission (lane t : Nat)
  /-- LATE (R457). A sample's decode budget expires, and a LATE placeholder is emitted. -/
  | late (lane t : Nat)
  /-- ALLOCATION (R470). At a tick, a phase start, a request change or every 1 ms, Tithe allocates region operating points within the cap. -/
  | allocation (t : Nat)
  /-- OVER_CAP_STEP (R471). When the 1 ms PMBus mean exceeds the effective cap, one region is lowered one step. -/
  | overCapStep (t : Nat)
  /-- PMBUS_POLL (R523). Every 100 µs the part reads READ_POUT from each regulator of the telemetry set. -/
  | pmbusPoll (mw : Option (List (Option Nat))) (mon : List (Nat × Nat)) (t : Nat)
  /-- OPP_CHANGE_DONE (R467). A region's voltage and frequency change completes, and any waiting change is applied. -/
  | oppChangeDone (region t : Nat)
  /-- DROOP (R476). A supply below the droop threshold stretches its clock to half and raises DROOP. -/
  | droop (domain t : Nat)
  /-- STRETCH_END (R476). 1 µs after the supply recovers, the clock stretch ends. -/
  | stretchEnd (domain t : Nat)
  /-- THERMAL_WARN (R477). A sensor at or above its warning level sets THERM_WARN and raises THERMAL_WARN. -/
  | thermalWarn (junction : List Int) (hbm : List Int) (t : Nat)
  /-- THERM_CAP_STEP (R477). Every 10 ms the effective cap falls or rises by 5 % of CAP_W according to the thermal warning. -/
  | thermCapStep (junction : List Int) (hbm : List Int) (t : Nat)
  /-- PWR_ALERT (R478). PWR_ALERT_N going low forces every region to OPP7 and raises PWR_ALERT. -/
  | pwrAlert (t : Nat)
  /-- THERMAL_TRIP (R478). A junction at 115 °C or an HBM stack at 105 °C forces every region to OPP7 and raises THERMAL_TRIP. -/
  | thermalTrip (junction : List Int) (hbm : List Int) (t : Nat)
  /-- FORCING_HOLD_EXPIRY (R478). ALERT_HOLD_MS after a forcing's cause ends, the forcing ends, and Tithe resumes. -/
  | forcingHoldExpiry (trip : Bool) (t : Nat)
  /-- PWR_PART_CFG_WRITE (R473). A write to PWR_PART_CFG sets a partition's request, floor and weight, or is refused for a safety floor. -/
  | pwrPartCfgWrite (who : Who) (f value : Nat)
  /-- VERIFY (R494). SEC_UPD_CTRL.VERIFY copies an image into the staging area and checks it. -/
  | verify (mem : List MemErr)
  /-- VERIFY_DONE (R494). Verification ends in VERIFIED, or in IDLE with FAILED. -/
  | verifyDone
  /-- WRITE (R494). SEC_UPD_CTRL.WRITE erases the flash image slot and programs the staged image. -/
  | updWrite
  /-- WRITE_DONE (R494). Programming and readback end in WRITTEN, or with FAILED FLASH. -/
  | writeDone (ok : Bool)
  /-- ACTIVATE (R495). SEC_UPD_CTRL.ACTIVATE starts the staged image on the standby pair, or is refused. -/
  | activate
  /-- HANDOVER (R495). At the first tick after the standby is ready, it takes over, and the staged image becomes the running image. -/
  | handover (t : Nat)
  /-- COMMIT (R488). SEC_SVN.COMMIT starts blowing SVN_FUSE up to the running image's SVN. -/
  | svnCommit
  /-- SVN_BLOW_DONE (R488). The anti-rollback fuse blow completes, and BUSY clears. -/
  | svnBlowDone
  /-- FUSE_GO (R482). SEC_FUSE_PROG.GO starts blowing the selected integrator fuse field while PROVISIONED is 0. -/
  | fuseGo
  /-- FUSE_BLOW_DONE (R482). The fuse blow completes, and BUSY clears. -/
  | fuseBlowDone
  /-- ATTEST (R491). SEC_ATT_CTRL.GO snapshots the loaded modules and starts writing the attestation report. -/
  | attest
  /-- ATTEST_DONE (R491). The report is signed with the identity key, and BUSY clears with its status. -/
  | attestDone
  /-- SIGREQ_WRITE (R493). A write to SEC_SIGREQ sets signature requirements, or is refused. -/
  | sigreqWrite (who : Who) (value : Nat)
  /-- REGISTER_WRITE (R13). A write to a register with no row of its own updates its fields, or is ignored as a whole when a value is out of range. -/
  | registerWrite (who : Who) (addr width value t : Nat)
  /-- LOW_HALF_READ (R512, R513). A 32-bit read of bits 31:0 of a 64-bit RO register latches bits 63:32 for that requester; `width` is the
  number of bytes read. -/
  | lowHalfRead (who : Who) (addr width : Nat)
  /-- MGMT_ACCESS (R517). A management-port access reads the listed registers, or writes WAKE, and reads zero otherwise. -/
  | mgmtAccess (bus : MgmtBus) (write : Bool) (addr value : Nat)
  /-- JTAG_ACCESS (R525). A JTAG access answers IDCODE and BYPASS, and more only before PROVISIONED. -/
  | jtagAccess (ir : Nat) (dr : List Bool)
  /-- CSI2_LINK_TRAINED (R69). A CSI-2 port's link comes up (TRAINED sets) or goes down when the camera starts or stops driving it. -/
  | csi2LinkTrained (p : Nat) (up : Bool)
  /-- HOST_LINK_TRAINED (R96). The PCIe link finishes training and comes up at its negotiated width and rate, 1 to 5 for 2.5, 5, 8,
  16 and 32 GT/s. -/
  | hostLinkTrained (width rate : Nat)
  /-- ERR_IN_RISE (R373). The filtered ERR_IN_N level returns high after being held high for 1 µs, clearing FLT_PIN.ERR_IN. -/
  | errInRise (t : Nat)
  /-- PWR_ALERT_RELEASE (R478). PWR_ALERT_N returns high, ending the alert's cause and starting its ALERT_HOLD_MS hold. -/
  | pwrAlertRelease (t : Nat)
  /-- TRIP_CAUSE_END (R478). Every junction sensor falls below 115 °C and every HBM stack below 105 °C, ending the thermal forcing's cause and starting its hold. -/
  | tripCauseEnd (junction : List Int) (hbm : List Int) (t : Nat)
  /-- THERM_WARN_CLEAR (R477). Every sensor falls below its warning level and THERM_WARN clears, so a later rise raises THERMAL_WARN again. -/
  | thermWarnClear (junction : List Int) (hbm : List Int) (t : Nat)
  /-- DIE_LOST (R33). A compute die is lost on a failed HBM controller, interposer link or supply, losing half the package until a warm reset and raising DIE_LOST. -/
  | dieLost (die t : Nat)
  /-- PULL_REQUEST_ARRIVAL (R442). The owner receives a PULL request, checks its window, mode and epoch, and returns the data or a refusal. -/
  | pullRequestArrival (p sender win epoch off len t : Nat) (mem : List MemErr)
  /-- ANNOUNCE_TRANSMIT (R416). At each logAnnounceInterval the part sends an Announce message on each gPTP port. -/
  | announceTransmit (mac t : Nat)
  deriving DecidableEq, Repr

end Sys2Proof
end

