-- ==== Sys2Proof/WellFormed.lean ====
section
/-!
DEFINITION. Well-formed commands: every operand lies in the range that the spec gives the thing it names.
-/
namespace Sys2Proof

/-- A virtual function is numbered 1 to 15 (R101). -/
def Who.wf : Who → Bool
  | .vf n => 1 ≤ n && n < 16
  | .cfg fn => fn < 16
  | .msix fn => fn < 16
  | .bell fn page => fn < 16 && page < 4096
  | _ => true

/-- Every element is a byte. -/
def bytesWf (l : List Nat) : Bool := l.all (fun b => decide (b < 256))
/-- A function and a context number (R101). -/
def ctxWf (fn ctx : Nat) : Bool := decide (fn < 16) && decide (ctx < 4096)
/-- Sensor-domain time is a 64-bit number of ns (R414). -/
def timeWf (t : Nat) : Bool := decide (t < 2 ^ 64)
/-- A member of a gang of at most 16 engines (R20). -/
def memberWf (g t : Nat) : Bool := decide (g < 16) && timeWf t

/-- The widths of an event (R359). -/
def Detection.wf (e : Detection) : Bool := decide (e.src < 512) && decide (e.master < 65536) && decide (e.addr < 2 ^ 64) && decide (e.acc < 8)
/-- Is the command well formed? -/
def Instr.wf : Instr → Bool
  | .porstNAssert _ => true
  | .maskRomBoot bootsel _ _ devs => decide (bootsel < 2) && devs.all (fun i => decide (i < 8))
  | .functionReset fn => decide (fn < 16)
  | .keepWakeTime t => timeWf t
  | .wake who _ => who.wf
  | .faultEvent evs t => evs.all Detection.wf && timeWf t
  | .severeClear i mask => decide (i < 16) && decide (mask < 2 ^ 32)
  | .pendingClear i mask => decide (i < 16) && decide (mask < 2 ^ 32)
  | .fltSrcCfgWrite who _ value => who.wf && decide (value < 2 ^ 32)
  | .inject who src t => who.wf && decide (src < 512) && timeWf t
  | .firstRecordSnapshot who => who.wf
  | .bPartClear mask => decide (mask < 65536)
  | .rosterReceive bytes => bytesWf bytes
  | .rosterDigestReturn member digest => decide (member < 32768) && decide (digest < 2 ^ 64)
  | .lamPortCfgWrite p value => decide (p < 16) && decide (value < 2 ^ 32)
  | .frameStart p vc _ t => decide (p < 16) && decide (vc < 16) && timeWf t
  | .line p vc dt _ _ _ payload t => decide (p < 16) && decide (vc < 16) && decide (dt < 64) && bytesWf payload && timeWf t
  | .frameEnd p vc _ t => decide (p < 16) && decide (vc < 16) && timeWf t
  | .frameHeaderWritten s t => decide (s < 36) && timeWf t
  | .lineTimeout s t => decide (s < 32) && timeWf t
  | .frameTimeout s t => decide (s < 32) && timeWf t
  | .strApply s => decide (s < 32)
  | .streamDisable s => decide (s < 36)
  | .lidApply l => decide (l < 4)
  | .ethernetFrame mac bytes _ t => decide (mac < 4) && bytesWf bytes && timeWf t
  | .gapTimeout l t => decide (l < 4) && timeWf t
  | .sweepTimeout l t => decide (l < 4) && timeWf t
  | .readClear who addr => who.wf && decide (addr < 0x3000000)
  | .create fn ctx => ctxWf fn ctx
  | .destroy fn ctx => ctxWf fn ctx
  | .abort fn ctx => ctxWf fn ctx
  | .sqTail fn page _ _ value _ => ctxWf fn page && decide (value < 2 ^ 64)
  | .cqHead fn page _ _ value _ => ctxWf fn page && decide (value < 2 ^ 64)
  | .heldDoorbellResume fn ctx _ => ctxWf fn ctx
  | .descriptorFetch fn ctx => ctxWf fn ctx
  | .coalTimer fn ctx t => ctxWf fn ctx && timeWf t
  | .bar2Write _ bytes _ => bytesWf bytes
  | .ringNop fn ctx => ctxWf fn ctx
  | .ringRun fn ctx => ctxWf fn ctx
  | .ringCopy fn ctx => ctxWf fn ctx
  | .copyDone fn ctx t _ => ctxWf fn ctx && timeWf t
  | .ringSignal fn ctx => ctxWf fn ctx
  | .ringWait fn ctx t => ctxWf fn ctx && timeWf t
  | .waitRelease fn ctx => ctxWf fn ctx
  | .waitExpired fn ctx t => ctxWf fn ctx && timeWf t
  | .moduleLoad fn ctx _ => ctxWf fn ctx
  | .moduleUnload fn ctx => ctxWf fn ctx
  | .unloadComplete fn ctx => ctxWf fn ctx
  | .tdtWrite fn ctx _ => ctxWf fn ctx
  | .poolGrant fn ctx => ctxWf fn ctx
  | .poolReclaim fn ctx => ctxWf fn ctx
  | .cacheCreate fn ctx => ctxWf fn ctx
  | .cacheDestroy fn ctx => ctxWf fn ctx
  | .pageAlloc fn ctx => ctxWf fn ctx
  | .pageShare fn ctx => ctxWf fn ctx
  | .pageFree fn ctx => ctxWf fn ctx
  | .pageCow fn ctx => ctxWf fn ctx
  | .cowCopyDone fn ctx _ => ctxWf fn ctx
  | .spanOpen fn ctx => ctxWf fn ctx
  | .spanClose fn ctx => ctxWf fn ctx
  | .spanAdvance fn ctx => ctxWf fn ctx
  | .spanMap fn ctx => ctxWf fn ctx
  | .spanPull fn ctx => ctxWf fn ctx
  | .pullDone fn ctx status bytes => ctxWf fn ctx && decide (status < 256) && bytesWf bytes
  | .pieceArrival p _ _ win epoch _ _ _ bytes t =>
    decide (p < 6) && decide (win < 1024) && decide (epoch < 65536) && bytesWf bytes && timeWf t
  | .arrivalMark p _ _ win epoch t => decide (p < 6) && decide (win < 1024) && decide (epoch < 65536) && timeWf t
  | .lnkCtrlWrite value => decide (value < 2 ^ 32)
  | .portTrained p peer t => decide (p < 6) && decide (peer < 32768) && timeWf t
  | .laneFail p lane t => decide (p < 6) && decide (lane < 5) && timeWf t
  | .flitReceive p f _ => decide (p < 6) && decide (f.dst < 32768) && decide (f.bytes.length ≤ 256)
  | .portDown p t => decide (p < 6) && timeWf t
  | .mirrorReceive _ bytes => bytesWf bytes
  | .sliceExpiry fn ctx t => ctxWf fn ctx && timeWf t
  | .schCtxSchedWrite value => decide (value < 2 ^ 32)
  | .matmul _ g t => memberWf g t
  | .ewCvt _ g t => memberWf g t
  | .ewAdd _ g t => memberWf g t
  | .ewSub _ g t => memberWf g t
  | .ewMul _ g t => memberWf g t
  | .ewFma _ g t => memberWf g t
  | .ewMax _ g t => memberWf g t
  | .ewMin _ g t => memberWf g t
  | .ewAbs _ g t => memberWf g t
  | .ewNeg _ g t => memberWf g t
  | .ewRelu _ g t => memberWf g t
  | .ewClamp _ g t => memberWf g t
  | .ewAffine _ g t => memberWf g t
  | .ewExp _ g t => memberWf g t
  | .ewRecip _ g t => memberWf g t
  | .ewSqrt _ g t => memberWf g t
  | .ewRsqrt _ g t => memberWf g t
  | .ewReluGrad _ g t => memberWf g t
  | .ewRequant _ g t => memberWf g t
  | .reduceSum _ g t => memberWf g t
  | .reduceMax _ g t => memberWf g t
  | .sgdMom _ g t => memberWf g t
  | .adamw _ g t => memberWf g t
  | .mvMove _ g t => memberWf g t
  | .mvPublish _ g t => memberWf g t
  | .rebolt _ g t => memberWf g t
  | .window _ g t => memberWf g t
  | .gather _ g t => memberWf g t
  | .scatter _ g t => memberWf g t
  | .scatterAdd _ g t => memberWf g t
  | .attend _ g t => memberWf g t
  | .sySignal _ g t => memberWf g t
  | .syWait _ g t => memberWf g t
  | .syWaitRelease _ g t => memberWf g t
  | .syWaitExpired _ g t => memberWf g t
  | .barrier _ g t => memberWf g t
  | .loopBegin _ g t => memberWf g t
  | .loopEnd _ g t => memberWf g t
  | .setcount _ g t => memberWf g t
  | .ctNop _ g t => memberWf g t
  | .ctEnd _ g t => memberWf g t
  | .rdflags _ g t => memberWf g t
  | .ldarg _ g t => memberWf g t
  | .instructionStart _ g queue t _ _ x => memberWf g t && decide (queue < 6) &&
    (match x with
     | some (.store _ _ bytes) => bytesWf bytes
     | _ => true)
  | .instructionComplete _ g queue t _ => memberWf g t && decide (queue < 6)
  | .rotationDue k _ t => decide (k < 24) && timeWf t
  | .leapRotation k _ t => decide (k < 24) && timeWf t
  | .emberTestDone unit _ _ t => decide (unit < 65536) && timeWf t
  | .sequencerSwitchover k t => decide (k < 24) && timeWf t
  | .emberSliceStart unit t => decide (unit < 65536) && timeWf t
  | .emberSliceEnd unit _ _ t => decide (unit < 65536) && timeWf t
  | .emberDeferred unit t => decide (unit < 65536) && timeWf t
  | .loanBegin k t => decide (k < 24) && timeWf t
  | .loanEnd k t => decide (k < 24) && timeWf t
  | .standbySeqTest k _ t => decide (k < 24) && timeWf t
  | .wearRead who => who.wf
  | .gptpSyncTransmit mac t => decide (mac < 10) && timeWf t
  | .pdelayReq mac _ t => decide (mac < 10) && timeWf t
  | .pdelayReqTransmit mac t => decide (mac < 10) && timeWf t
  | .vehicleSyncSample d _ nanos _ m t =>
    decide (d < 2) && decide (nanos < 1000000000) && decide (m.mac < 4) && decide (m.num < 256) && decide (m.gm < 2 ^ 64) && timeWf t
  | .domainLoss d t => decide (d < 2) && timeWf t
  | .reacq d => decide (d < 2)
  | .domainCfgWrite d _ value t => decide (d < 2) && decide (value < 2 ^ 64) && timeWf t
  | .tioApply p t => decide (p < 8) && timeWf t
  | .tioPulse p t => decide (p < 8) && timeWf t
  | .tioEdge p _ _ t => decide (p < 8) && timeWf t
  | .capPop p => decide (p < 8)
  | .laneSampleStart lane t _ => decide (lane < 4) && timeWf t
  | .emission lane t => decide (lane < 4) && timeWf t
  | .late lane t => decide (lane < 4) && timeWf t
  | .oppChangeDone region t => decide (region < 6) && timeWf t
  | .droop domain t => decide (domain < 8) && timeWf t
  | .stretchEnd domain t => decide (domain < 8) && timeWf t
  | .pwrPartCfgWrite who f value => who.wf && decide (f < 16) && decide (value < 2 ^ 32)
  | .sigreqWrite who value => who.wf && decide (value < 2 ^ 32)
  | .registerWrite who addr width value t =>
    who.wf && decide (addr < 0x4000000) && decide (width ≤ 8) && decide (value < 2 ^ (8 * width)) && timeWf t
  | .lowHalfRead who addr width => who.wf && decide (addr < 0x4000000) && [1, 2, 4, 8].contains width
  | .jtagAccess ir _ => decide (ir < 16)
  | .csi2LinkTrained p _ => decide (p < 16)
  | .hostLinkTrained width rate => [1, 2, 4, 8].contains width && decide (0 < rate) && decide (rate ≤ 5)
  | .dieLost die t => decide (die < 2) && timeWf t
  | .pullRequestArrival p _ win epoch _ _ t _ => decide (p < 6) && decide (win < 1024) && decide (epoch < 65536) && timeWf t
  | .announceTransmit mac t => decide (mac < 4) && timeWf t
  | .refclkDetect => true
  | .warm => true
  | .chipResetStart t => timeWf t
  | .warmResetRestart => true
  | .hbmAvailable _ => true
  | .linkReset => true
  | .blockResetComplete _ => true
  | .doze => true
  | .keep => true
  | .lowPowerEntered => true
  | .thermalShutdown t => timeWf t
  | .validClear => true
  | .lock => true
  | .errInEdge t => timeWf t
  | .safeStateEntry t => timeWf t
  | .aWindowExpiry t => timeWf t
  | .restartReplay _ => true
  | .manifestEntry _ => true
  | .lockstepMismatch pair t => decide (pair < 2) && timeWf t
  | .kalendsTick _ => true
  | .kalApply => true
  | .frameLoRead => true
  | .vigil => true
  | .rosterAgreementTimeout => true
  | .phaseStart t => timeWf t
  | .budgetOverrun _ t => timeWf t
  | .ordoSwitch _ => true
  | .ordoCopyDone _ => true
  | .pcieLaneFail width => [1, 2, 4].contains width
  | .bar2Read _ _ _ => true
  | .kvuEntryRead => true
  | .pieceAck _ _ _ t => timeWf t
  | .mirrorAck member => decide (member < 32768)
  | .dispatch _ t _ => timeWf t
  | .partApply => true
  | .flagClear => true
  | .barrierRelease _ => true
  | .commitStart _ t _ => timeWf t
  | .commitEnd _ t => timeWf t
  | .holdCopyDone _ t _ => timeWf t
  | .comparePassDone _ t _ => timeWf t
  | .slotBCopyDone _ t _ => timeWf t
  | .troyKernelsDone _ _ t => timeWf t
  | .verdict _ t _ => timeWf t
  | .marchTestDone _ _ t => timeWf t
  | .scrubRead _ _ _ t => timeWf t
  | .rowRepairApply _ => true
  | .patrolRead _ _ t => timeWf t
  | .hbmLaneRepair stack lane _ t => decide (stack < 2) && decide (lane < 1024) && timeWf t
  | .hbmRowRepair stack _ t => decide (stack < 2) && timeWf t
  | .rsvApply => true
  | .standbyComputusTest _ t => timeWf t
  | .wearJournal t => timeWf t
  | .sensorDomainStart => true
  | .followerSync origin _ t => timeWf origin && timeWf t
  | .followerFreeStart => true
  | .followerSyncLoss t => timeWf t
  | .switchSlewDone t => timeWf t
  | .steerUpdate t => timeWf t
  | .snapshot t => timeWf t
  | .rplStart t => timeWf t
  | .rplStop => true
  | .allocation t => timeWf t
  | .overCapStep t => timeWf t
  | .pmbusPoll mw mon t => mw.all (fun l => decide (l.length = 8)) && decide (mon.length = 6) && timeWf t
  | .thermalWarn junction hbm t => decide (junction.length = 8) && decide (hbm.length = 2) && timeWf t
  | .thermCapStep junction hbm t => decide (junction.length = 8) && decide (hbm.length = 2) && timeWf t
  | .pwrAlert t => timeWf t
  | .thermalTrip junction hbm t => decide (junction.length = 8) && decide (hbm.length = 2) && timeWf t
  | .forcingHoldExpiry _ t => timeWf t
  | .verify _ => true
  | .verifyDone => true
  | .updWrite => true
  | .writeDone _ => true
  | .activate => true
  | .handover t => timeWf t
  | .svnCommit => true
  | .svnBlowDone => true
  | .fuseGo => true
  | .fuseBlowDone => true
  | .attest => true
  | .attestDone => true
  | .mgmtAccess bus _ _ _ => decide (bus.addr < 128) && (bus.assign.map (fun a => decide (a < 128))).getD true
  | .errInRise t => timeWf t
  | .pwrAlertRelease t => timeWf t
  | .tripCauseEnd junction hbm t => decide (junction.length = 8) && decide (hbm.length = 2) && timeWf t
  | .thermWarnClear junction hbm t => decide (junction.length = 8) && decide (hbm.length = 2) && timeWf t

end Sys2Proof
end

