-- ==== Sys2Proof/Config.lean ====
section
/-!
DEFINITION. The free values: what the spec leaves open, as constants without a body. Nothing can evaluate them, and a statement that
holds of the model holds for every value of them.
-/
namespace Sys2Proof

/-- The content of byte `addr` of a range that the spec calls undefined. The first argument tells one such range from the next
(scratchpads at dispatch and after a kill, R123, R249; the native image of a module, R220; an image area nothing has described).
DESIGN CHOICE: log entry 9. -/
opaque Config.freeByte : Nat → Nat → Byte

/-- A choice the spec leaves open: whether a pulse of PORST_N between 100 ns and 10 µs resets the part (R524); which granules of a
killed COPY hold the new bytes (R115, R442). The argument is the free-value counter of State. DEDUCED: log entry 165. -/
opaque Config.freeBool : Nat → Bool

/-- A number the spec does not state. The first argument is the free-value counter of State, the second tells values of one command
apart (a field of a roster entry of an ABSENT stream, R48; a roster digest over such entries, R49). DESIGN CHOICE: log entries 10, 151. -/
opaque Config.freeNat : Nat → Nat → Nat

/-- Byte `i` of the signature that the identity key of the part makes over a report (R491): the key is in no register. -/
opaque Config.identitySignature : List Byte → Nat → Byte

/-- The row of HBM that holds a device address (R136, R143): software cannot observe the order of rows. DEDUCED: log entry 182. -/
opaque Config.hbmRow : Nat → Nat

/-- The vendor identifier in the configuration header (R97), which the spec gives no number. PRESUMED: log entry 184. -/
opaque Config.vendorId : Nat
/-- A register of the configuration space of a function that the spec does not describe, by function and offset. PRESUMED: log entry 184. -/
opaque Config.cfgDword : Nat → Nat → Nat

/-- A result value the spec does not state for these operands: which operation, and the operand bits. -/
opaque Config.freeResult : Nat → List Nat → Nat

end Sys2Proof
end

