-- ==== Sys2Proof/Machine/State.lean ====
section
/-!
DEFINITION. The state of the block: every register, memory, queue, counter and mode that spec/ gives the GV-9600, as plain data, and
the state right after a cold reset that ended with a boot from flash (R486).

Sparse tables are lists of key and value with rising keys in which no entry equals the value an unlisted key reads as.
-/
namespace Sys2Proof.Machine

/-- Why the block could stop. No command of spec/opcode_table.json stops it: the constructor is here because the outcome of a step
has a fault. Nobody raises it; stopping is safe. -/
inductive Fault where
  /-- Raised by no command. Safe: a stop proves nothing about the part. -/
  | none
  deriving DecidableEq, Repr

/-- Why a command could be refused by the model. -/
inductive Refusal where
  /-- Raised by an arm of `exec` for a command that has no meaning yet. Safe: a refusal proves nothing about the part. -/
  | notModelled (mnemonic : String)
  deriving DecidableEq, Repr

/-- A memory: the listed bytes, keys rising, and the ranges whose content the spec calls undefined, as first byte, byte after the
last, and the number that names the range's content. A byte that is neither listed nor in such a range is 0. -/
structure Mem where
  cells : List Host.Cell
  undef : List (Nat × Nat × Nat)
  deriving DecidableEq, Repr

/-- The registers, sparse over BAR0 offsets: `cur` is the value software reads, `pend` the staged values an APPLY has set pending,
`live` the staged values in force, `latch` the upper halves latched for the physical function, Computus and the management port
(R513), `lastC` the last write by Computus: its time, the register, the first bit, the bit after the last, and the value (R515). -/
structure Regs where
  cur : List (Nat × BitVec 64)
  pend : List (Nat × BitVec 64)
  live : List (Nat × BitVec 64)
  latch : List (Nat × BitVec 64)
  lastC : Option (Nat × Nat × Nat × Nat × Nat)
  deriving DecidableEq, Repr

/-- The fuses (R4, R482): identity, the vendor and integrator fields, and the anti-rollback count. -/
structure Fuses where
  partCode : Nat
  stepping : Nat
  grade : Nat
  dieId : Nat
  vendorKeyHash : List Nat
  intKeyHash : List Nat
  intKeyEn : Bool
  intRequire : Bool
  svn : Nat
  provisioned : Bool
  cert : List Nat
  deriving DecidableEq, Repr

/-! ## Fault collection (R359 to R376) -/

/-- One event as the collector receives it (R359). -/
structure FaultEv where
  src : Nat
  master : Nat
  addr : Nat
  acc : Nat
  t : Nat
  deriving DecidableEq, Repr

/-- The first-error record (R370). -/
structure FirstRec where
  ev : FaultEv
  severe : Bool
  deriving DecidableEq, Repr

/-- What a requester's snapshot of the record holds (R375). -/
structure Snap where
  first : Option FirstRec
  mergeCnt : Nat
  merged : BitVec 512
  deriving DecidableEq, Repr

/-- Configuration and counter of one source (R363, R365, R375). -/
structure SrcSt where
  thresh : Nat
  minor : Nat
  severe : Nat
  windowMs : Nat
  count : Nat
  winEnd : Option Nat
  total : Nat
  deriving DecidableEq, Repr

/-- The fault collector (R363 to R375): PENDING, SEVERE, ERR latches and merge state, the first-error record with its snapshots, the NMIs
that Computus has not yet taken, each with the partitions in its scope, and the blocks in reset, each by the identifier that names it (R368). -/
structure Coll where
  srcs : List (Nat × SrcSt)
  pending : BitVec 512
  severe : BitVec 512
  latch : BitVec 512
  merged : BitVec 512
  first : Option FirstRec
  mergeCnt : Nat
  snapPf : Option Snap
  snapC : Option Snap
  ready : Bool
  nmi : List (FaultEv × Nat)
  blockResets : List Nat
  deriving DecidableEq, Repr

/-- Safe states (R377 to R389): pending clears of B_PART bits, the partitions held during any part of the frame, the first entry of
the window of safe state A, the next entry of a restart replay, whether the replay waits for a command or a switch, the status with
which its command ended, whether the next boot replays the manifest, the active Computus pair, whether the other pair stands by, and
the time of the last test of that pair (R398). -/
structure Safe where
  bClear : BitVec 16
  bFrame : BitVec 16
  aFirst : Option Nat
  replay : Option Nat
  replayWait : Bool
  replayStatus : Option Nat
  replayDue : Bool
  pair : Nat
  standby : Bool
  pairTest : Nat
  deriving DecidableEq, Repr

/-! ## Tensors and instruction operands -/

/-- A tensor descriptor entry or operand table entry (Table 4 of R159). -/
structure TDesc where
  base : Nat
  dtype : Nat
  layout : Nat
  space : Nat
  readonly : Bool
  gen : Nat
  valid : Bool
  blockLog2 : Nat
  part : Nat
  dims : List Nat
  strides : List Nat
  ownerCount : Nat
  deriving DecidableEq, Repr

/-- One entry of an owner table (Table 5 of R164). -/
structure Owner where
  pkg : Nat
  win : Nat
  off : Nat
  deriving DecidableEq, Repr

/-- A Span window of this package (R436 to R438). -/
structure Window where
  opened : Bool
  part : Nat
  ctx : Nat
  addr : Nat
  log2 : Nat
  rw : Bool
  flagEn : Bool
  arrive : Nat
  any : Bool
  senders : Nat
  epoch : Nat
  deriving DecidableEq, Repr

/-- A local map entry that names a remote window (R436, R439). -/
structure MapEnt where
  set_ : Bool
  part : Nat
  pkg : Nat
  win : Nat
  epoch : Nat
  log2 : Nat
  deriving DecidableEq, Repr

/-! ## Modules (R216 to R222) -/

/-- One entry of a module (Table 9 of R217). -/
structure Entry where
  first : Nat
  words : Nat
  gangSize : Nat
  region : Bool
  pcCount : Nat
  argWords : Nat
  hasWcet : Bool
  wcetAc : Nat
  wcetNs : Nat
  prepEntry : Nat
  deriving DecidableEq, Repr

/-- A loaded module: what the translator keeps of it. -/
structure Module where
  part : Nat
  handle : Bool
  entries : List Entry
  code : List Nat
  operands : List TDesc
  prep : List Nat
  rate0 : Nat
  rate1 : Nat
  nativeAddr : Nat
  nativeSize : Nat
  digest : List Nat
  signed : Bool
  slot : Nat
  unloading : Bool
  deriving DecidableEq, Repr

/-! ## Commands that hold engines (R223 to R251, R313 to R323, R339 to R353) -/

/-- A region a long instruction holds: address space (0 scratchpad, 1 device), first byte, byte after the last (R196, R227). -/
structure Extent where
  dev : Bool
  lo : Nat
  hi : Nat
  deriving DecidableEq, Repr

/-- A long instruction in its queue (R223): issue order, time of issue, the index of its base word, and the loop and count registers as
they stood at issue, which form its operands (R201, R268); the start, the duration in ac where the spec fixes it, how much of it had
passed at `since`, in two-thousandths of an ac (R40, R467, R476), the regions it holds, what it reads and writes, and the outcomes of
its Scruple checks. -/
structure LongIns where
  ord : Nat
  at_ : Nat
  idx : Nat
  iters : List Nat
  loops : List Nat
  counts : List Nat
  started : Option Nat
  ac : Option Nat
  done : Nat
  since : Nat
  reads : List Extent
  write : Option Extent
  touched : List Extent
  chk : List Nat
  deriving DecidableEq, Repr

/-- An access of a prep core, or of the region DMA engine, that has started (R129): the queue number of INSTRUCTION_START, the prep
core's index, its duration in fc where the spec fixes it, how much of it had passed at `since`, in two-thousandths of an fc, what
it reads, and the words that it writes in part (R130). -/
structure Xfer where
  queue : Nat
  g : Nat
  fc : Option Nat
  done : Nat
  since : Nat
  touched : List Extent
  rmw : List Extent
  deriving DecidableEq, Repr

/-- An SY WAIT that stalls an engine (R238). -/
structure WaitSt where
  flag : Nat
  value : Nat
  deadline : Nat
  deriving DecidableEq, Repr

/-- What holds back the issue of a member (R224, R243, R245). -/
inductive Stall where
  | none
  | wait (w : WaitSt)
  | barrier
  | ended
  deriving DecidableEq, Repr

/-- One member of a gang: its logical engine `4 × cluster + e`, the physical engine that runs it, and the engine's state
(R223, R228, R230, R231). -/
structure Member where
  le : Nat
  phys : Nat
  pc : Nat
  counts : List Nat
  iters : List Nat
  latched : List Nat
  loops : List Nat
  aflags : Nat
  issued : Nat
  queues : List (List LongIns)
  stall : Stall
  barriers : Nat
  sent : List Nat
  deriving DecidableEq, Repr

/-- A tensor placed at an effective base (R201). -/
structure Operand where
  desc : TDesc
  base : Nat
  owners : List Owner
  deriving DecidableEq, Repr

/-- One page of a page list as a command has snapshotted it (R288, R299): its device address, format, positions per page, positions
used and first position. -/
structure PageSnap where
  addr : Nat
  fmt : Nat
  room : Nat
  fill : Nat
  pos : Nat
  deriving DecidableEq, Repr

/-- The page list of one ATTEND, with the head shape and spread of its cache. -/
structure PageList where
  headDim : Nat
  kvHeads : Nat
  spread : Nat
  pages : List PageSnap
  deriving DecidableEq, Repr

/-- One PUBLISH of the commit list (R210): member, source and destination. -/
structure Piece where
  g : Nat
  src : Operand
  dst : Operand
  deriving DecidableEq, Repr

/-- A remote piece of commit step 2 (R355, R356): package, window, epoch, sequence number, offset, bytes, how often it was sent, the status
of its refusal, and whether it has been settled. A piece without bytes is the arrival mark that follows a window's pieces (R441). -/
structure Remote where
  pkg : Nat
  win : Nat
  epoch : Nat
  seq : Nat
  off : Nat
  bytes : List Nat
  crc : Nat
  tries : Nat
  st : Nat
  settled : Bool
  deriving DecidableEq, Repr

/-- What the hub keeps of the record of one run beside the hold slot (R344); `data` is what the sources held at END, run by run of each
piece (R245). -/
structure RunRec where
  pieces : List Piece
  data : List (List (List Nat))
  lens : List Nat
  signals : List (Nat × Nat)
  flags : Nat
  indexRange : Bool
  clean : Bool
  deriving DecidableEq, Repr

/-- Where a command stands. `cand`: it waits for dispatch, at first or for a re-run. `run n`: run `n` executes; `accepted`: its
commit phase has begun; the others are the stages of R345 to R353, of the march test of R132 and of a block reset (R368). -/
inductive RunPhase where
  | cand
  | run (n : Nat)
  | hold
  | compare
  | slotB
  | troy
  | final
  | accepted
  | commit
  | march (word : MemErr)
  | blockReset (unit : Nat)
  deriving DecidableEq, Repr

/-- Where a commit reads from (R350, R351). -/
inductive CommitSrc where
  | scratch
  | slotA
  | slotB
  deriving DecidableEq, Repr

/-- A RUN, from a ring or from a task list of frame `frame`. `prepAt` is the image offset at which its prep cores started (R218), and
`keep` lists the units whose binding stays until its re-run after a march test (R132), `wrote` what it has written in cluster
scratchpads and region memory (R249), and `undo` the granules that its commit has written, as they stood before, each with its address and
whether it was poisoned (R137, R502). -/
structure Run where
  part : Nat
  ctx : Nat
  ordo : Bool
  frame : Nat
  task : Nat
  cmdIdx : Nat
  place : Nat
  pcMask : Nat
  engMask : Nat
  modId : Nat
  entry : Nat
  argAddr : Nat
  safety : Bool
  phase : RunPhase
  dispatched : Bool
  members : List Member
  prep : List (Nat × Nat)
  prepAt : Option Nat
  xfers : List Xfer
  keep : List Nat
  wrote : List Extent
  undo : List (Nat × List Nat × Bool)
  attn : Option Nat
  args : List Nat
  snap : List (Nat × Operand)
  maps : List (Nat × MapEnt)
  pins : List Nat
  pages : List (Nat × PageList)
  pieces : List Piece
  signals : List (Nat × Nat)
  indexRange : Bool
  scrFail : Bool
  scrUnits : List Nat
  runPhys : List (Nat × List Nat)
  recs : List (Nat × RunRec)
  agree12 : Option Bool
  troyFailed : Bool
  qmRerun : Bool
  rerun : Bool
  octave : Bool
  guarded : Bool
  slicePre : Bool
  src : CommitSrc
  remotes : List Remote
  status : Nat
  endKill : Option Nat
  dispatchedAt : Nat
  excluded : Nat
  exFrom : Option Nat
  chargeFrom : Option Nat
  banked : Nat
  freq : Nat
  deriving DecidableEq, Repr

/-! ## Contexts and rings (R101 to R120) -/

/-- What a fetched ring descriptor is doing. -/
inductive CmdSt where
  | fetched
  | failed (status : Nat)
  | running (run : Nat)
  | copying
  | waiting (flag value deadline : Nat)
  | unloading (modId : Nat)
  | cow (ref : Nat)
  | pulling
  deriving DecidableEq, Repr

/-- A fetched ring descriptor (R113): its ring index, its 64 bytes, what it is doing, and the HBM range of its partition at its
validation, first byte and byte after the last (R146). -/
structure RingCmd where
  idx : Nat
  bytes : List Nat
  st : CmdSt
  range : Nat × Nat
  deriving DecidableEq, Repr

/-- A context (R105 to R120, R309, R310, R330). -/
structure Ctx where
  sqBase : Nat
  cqBase : Nat
  sqLog2 : Nat
  cqLog2 : Nat
  vector : Nat
  coalCount : Nat
  coalUs : Nat
  safety : Bool
  ordoCpl : Bool
  fetch : Nat
  tail : Nat
  cqHead : Nat
  written : Nat
  unread : Nat
  unsig : Nat
  unsigSince : Option Nat
  attached : Bool
  resident : Bool
  heldTail : Option Nat
  heldHead : Option Nat
  lastFetch : Nat
  prio : Nat
  slice : Nat
  prioNext : Nat
  sliceNext : Nat
  sliceUsed : Nat
  last : Nat
  peak : Nat
  frSum : Nat
  frCount : Nat
  frAvg : Nat
  frCnt : Nat
  preempts : Nat
  cmds : List RingCmd
  ending : Option (Bool × Nat)
  deriving DecidableEq, Repr

/-! ## Frames (R44 to R67) -/

/-- A roster entry (Table 2 of R49). `state` 0 FRESH, 1 REPEATED, 2 ABSENT. -/
structure RosterEntry where
  firstTs : Nat
  addr : Nat
  digest : Nat
  length : Nat
  state : Nat
  age : Nat
  seq : Nat
  deriving DecidableEq, Repr

/-- A phase entry of a plan variant (Table 4 of R55). -/
structure PhaseEntry where
  startNs : Nat
  firstTask : Nat
  taskCount : Nat
  opp : Nat
  deriving DecidableEq, Repr

/-- A task slot (Table 5 of R56), with the device address of its task list and the entries as SWITCH read them (R311, R312). -/
structure Slot where
  part : Nat
  ctx : Nat
  safety : Bool
  skip : Bool
  budget : Nat
  modId : Nat
  entry : Nat
  upstream : List Nat
  upValid : Nat
  roster : Nat
  maxAge : Nat
  outputs : Nat
  tlist : Nat
  list : List (List Nat)
  deriving DecidableEq, Repr

/-- A valid plan variant in a bank (R54). -/
structure Variant where
  clusterReq : Nat
  attnReq : Nat
  phases : List PhaseEntry
  slots : List Slot
  deriving DecidableEq, Repr

/-- One output of a task (R65). -/
structure OutRec where
  addr : Nat
  crc : Nat
  length : Nat
  deriving DecidableEq, Repr

/-- A task of the frame (R59 to R64): whether it has been released and has ended, its next command, its charge, the invalid reasons
its commands have given, its outputs. -/
structure Task where
  slot : Nat
  released : Bool
  ended : Bool
  skipped : Option Nat
  next : Nat
  charge : Nat
  reasons : List Nat
  endedAt : Nat
  outs : List OutRec
  deriving DecidableEq, Repr

/-- The frame state; `rosterFrame` and `rosterTick` stand in the header of the roster (R49), `prevTick` is the tick before the present one, and `late` holds the contexts and SLOWDOWN values of commands that
ended at the instant of the tick to come (R328). -/
structure Frame where
  frameNo : Nat
  started : Bool
  prevTick : Option Nat
  tick : Nat
  nextTick : Nat
  vigilDone : Bool
  hiLatch : Nat
  roster : List RosterEntry
  rosterDigest : Nat
  rosterFrame : Nat
  rosterTick : Nat
  received : Option (List Nat)
  agreed : List Nat
  agreeDone : Bool
  disagreed : Bool
  banks : List (List (Nat × Variant))
  copying : Option (List (Nat × Variant))
  switchWait : Bool
  variant : Option Nat
  phase : Option Nat
  tasks : List Task
  partSlow : List (Nat × List Nat)
  late : List (Nat × Nat)
  deriving DecidableEq, Repr

/-! ## Leap, Ember and wear (R14 to R24, R35 to R39, R394 to R411) -/

/-- A loan to a cluster (R405): its logical engine, the lending cluster of the region, the lender's physical engine, the start, and
the result of the deferred engine's test once it has ended. -/
structure Loan where
  le : Nat
  own : Nat
  lender : Nat
  phys : Nat
  began : Nat
  tested : Option Bool
  deriving DecidableEq, Repr

/-- The binding of one cluster (Table 7 of R35, Table 6 of R411) and its rotations (R395): `engDue`, `pcDue` hold the physical unit
chosen by a rotation that waits for its boundary, `seqTest` the time of the last test of the standby sequencer (R398). -/
structure Clu where
  le : List Nat
  spare : Nat
  engFenced : List Nat
  pc : List Nat
  pcSpare : Nat
  pcFenced : List Nat
  seqActive : Nat
  seqFenced : List Nat
  fenced : Bool
  engPrev : Nat
  pcPrev : Nat
  engDue : Option Nat
  pcDue : Option Nat
  loan : Option Loan
  loanAsk : Option Nat
  lent : Bool
  seqTest : Nat
  deriving DecidableEq, Repr

/-- Test and wear state of one physical unit (R399, R400, R403, R407): time in service before `inSince`, when it last entered service;
`deferred` is the untested time at the last EMBER_DEFERRED, `slices` counts the cycles of a test in slices that have been run, and `turn`
says that a slice has just ended, so that a ring candidate comes next (R401). -/
structure UnitSt where
  serviceNs : Nat
  inSince : Nat
  passes : Nat
  ce : Nat
  rowsUsed : Nat
  lastPass : Nat
  deferred : Nat
  slices : Nat
  slicing : Bool
  testing : Bool
  turn : Bool
  deriving DecidableEq, Repr

/-- Leap. `journal` and `wearJournal` are what the flash journal holds (R39, R408); `oldCode` lists the units that still run the
microcode from before an activation (R496). -/
structure Leap where
  clus : List Clu
  units : List (Nat × UnitSt)
  attnFenced : List Nat
  regFenced : List Nat
  dieLost : List Nat
  macroUsed : List (Nat × Nat)
  wornAt : Nat
  wearSnap : List Nat
  journal : List Clu
  wearJournal : List (Nat × UnitSt)
  oldCode : List Nat
  deriving DecidableEq, Repr

/-! ## Memory (R122 to R147) -/

/-- The memories. `sram` is keyed by the identifier of the owning unit times 2^24 plus the byte offset; `poison` holds the poisoned
granules of HBM, rising; `rowEvents` counts the single-bit events of each on-chip row, by the key of its first byte, within one scrub
pass (R135), and `sramRepairDue` lists the rows due for repair, `rowsReady` those of them that were due at the last Vigil; `marches` lists
the rows in a march test (R132), `scrubAt` the next word of each memory's scrub pass, by its owner (R134), `withheld` the cluster
scratchpads and region memories in repair with the end of the repair (R135). `hbmLanes` and `hbmRows` count the corrected errors of each
DQ lane and the events of each row of HBM since `patrolFrom`, the start of the patrol period, `lanesSpare` is what each channel of the
stacks and `rowsSpare` what each stack has left (R143). -/
structure MemSt where
  hbm : Mem
  sram : Mem
  host : Mem
  poison : List Nat
  rowEvents : List (Nat × Nat)
  sramRepairDue : List Nat
  rowsReady : List Nat
  marches : List Nat
  scrubAt : List (Nat × Nat)
  withheld : List (Nat × Nat)
  hbmLanes : List (Nat × Nat)
  hbmRows : List (Nat × Nat)
  patrolFrom : Nat
  lanesSpare : List Nat
  rowsSpare : List Nat
  deriving DecidableEq, Repr

/-! ## What the block drives -/

/-- A message the block sends. `flit` is flit `i` of message `m`, replayed (R432), `forward` a flit on its way to another package (R434), and
`train` the package number that a side sends at training (R430); MACs 4 to 9 of `eth` stand for the six League ports. -/
inductive Tx where
  | msix (fn vec : Nat)
  | roster (pkg : Nat) (bytes : List Nat)
  | rosterDigest (pkg digest : Nat)
  | piece (pkg seq win epoch off crc : Nat) (bytes : List Nat)
  | mark (pkg seq win epoch : Nat)
  | reply (pkg : Nat) (r : PieceReply)
  | mirror (pkg addr : Nat) (bytes : List Nat)
  | mirrorAck (pkg : Nat)
  | pull (pkg win epoch off len : Nat)
  | pullReply (pkg status : Nat) (bytes : List Nat)
  | flitAgain (port seq : Nat)
  | flit (port seq : Nat) (m : Tx) (i : Nat)
  | forward (port : Nat) (f : Flit)
  | train (port pkg : Nat)
  | eth (mac kind : Nat) (fields : List Int)
  | pulse (pin at_ width : Nat) (high : Bool)
  deriving DecidableEq, Repr

/-- The signals of Table 1 of R519, row by row; those of one row that differ during a cold reset have a name each. -/
inductive Signal where
  | csi | pcie | refclk | eth | league | xspiClk | xspiCsN | xspiDqs | xspiDq | xspiResetN | mgmt | mgmtAddr | pmb | pwrAlertN | tdo | porstN
  | perstN | bootsel | errOutN | errInN | osc25 | tio | vsense
  deriving DecidableEq, Repr
/-- What a signal does: what its pin drives, or how the part takes it. -/
inductive Level where
  | low | high | highZ | pullDown | idle | ignored | sampled | input | connected
  deriving DecidableEq, Repr

/-- What the last access returned and what the block has sent, oldest first. -/
structure Out where
  rdata : List Nat
  poisoned : Bool
  tx : List Tx
  deriving DecidableEq, Repr

/-! ## Power (R464 to R479) -/

/-- The power controller: operating point of each region, changes in progress and waiting (R467), the polls of the last ms (package
power in mW, then monitor and estimate of each region in mW), the learned powers of R469 as the values of the last 16 frames, the
normalised energies of the phase
and the energies of the frame by estimate and by monitor, in mW · ns, the telemetry set (R523; none: not probed yet), by how many mW the effective cap
lies below CAP_W (R477) and the times of its last step (R477) and of the last reaction to a package over its cap (R471), the time of the
last poll, the forcings of R478 and the last sensor readings. -/
structure Pwr where
  opp : List Nat
  changing : List (Option Nat)
  waiting : List (Option Nat)
  polls : List Nat
  samples : List (Nat × List (Nat × Nat))
  learned : List (Nat × List Rat)
  phaseEnergy : List Rat
  phaseFrom : Option Nat
  frameE : Nat
  frameM : Nat
  apart : Nat
  together : Nat
  telemetry : Option (List Nat)
  capCut : Nat
  capStepAt : Nat
  overCapAt : Nat
  energyAt : Nat
  alertCause : Bool
  tripCause : Bool
  alertHold : Option Nat
  tripHold : Option Nat
  stretched : List Nat
  junction : List Int
  hbmTemp : List Int
  deriving DecidableEq, Repr

/-! ## The Bushel table (R286 to R304) -/

/-- A Bushel entry (Table 2 of R289). -/
structure Bushel where
  frame : Nat
  size : Nat
  fmt : Nat
  valid : Bool
  foreign : Bool
  refs : Nat
  pins : Nat
  package : Nat
  part : Nat
  cache : Nat
  epoch : Nat
  deriving DecidableEq, Repr

/-- A cache (R291). -/
structure Cache where
  part : Nat
  headDim : Nat
  kvHeads : Nat
  spread : Nat
  deriving DecidableEq, Repr

/-- The KV logic: entries, the lowest index never used, the free indices by age of release (R290), the granted ranges as partition,
first byte and byte after the last, the free blocks of each partition as 4 KiB unit and order, the caches, and the snapshot of the
selected entry (R304); `ending` lists the partitions whose entries, caches and pools go once the commits that a function reset found have
ended (R300). -/
structure Kv where
  entries : List (Nat × Bushel)
  unused : Nat
  freeQ : List Nat
  pools : List (Nat × Nat × Nat)
  free : List (Nat × List (Nat × Nat))
  caches : List (Nat × Cache)
  snap : List Nat
  ending : List Nat
  deriving DecidableEq, Repr

/-! ## League (R429 to R446) -/

/-- League: windows, map entries, and for each port the sequence number of the next flit in order (R432), how often in succession a flit has
failed, and the count of mirrored writes, with the count that each member has acknowledged (R444), and the sequence number of the
next piece or mark of each sender (R432), with the sender and number of each piece that has been asked for once more (R356). For each port `txSeq` is the number of the
next flit to send and `txBuf` the replay buffer: number, message and place in it of each flit not yet acknowledged (R432); `pieceSeq` is the
number of the next piece or mark for each package. -/
structure Lnk where
  windows : List (Nat × Window)
  maps : List (Nat × MapEnt)
  rxSeq : List Nat
  rxFails : List Nat
  mirrorSent : Nat
  mirrorAcked : List (Nat × Nat)
  nextPiece : List (Nat × Nat)
  asked : List (Nat × Nat)
  txSeq : List Nat
  txBuf : List (List (Nat × Tx × Nat))
  pieceSeq : List (Nat × Nat)
  deriving DecidableEq, Repr

/-! ## Lammas (R68 to R95) -/

/-- A buffer that passed every filter: ring index, address, first time, digest, length, sequence number, and the count of mirrored writes
that every member must have acknowledged before it counts as written (R444). -/
structure LamBuf where
  idx : Nat
  addr : Nat
  firstTs : Nat
  digest : Nat
  length : Nat
  seq : Nat
  mirror : Nat
  deriving DecidableEq, Repr

/-- A camera frame in progress: its buffer, sequence number, times of FS and of the last line header, lines received, data type, the
first and last line stamps, and the last two raw rows that a demosaic needs. -/
structure CamFrame where
  idx : Nat
  addr : Nat
  seq : Nat
  startT : Nat
  lastT : Nat
  lines : Nat
  dt : Nat
  firstTs : Nat
  lastTs : Nat
  rows : List (List Nat)
  deriving DecidableEq, Repr

/-- A lidar sweep in progress: its buffer, sequence number, times of the opening and of the latest packet, the first and last stored
times, records stored, bytes of data, packets accepted and lost, points parsed and dropped. -/
structure Sweep where
  idx : Nat
  addr : Nat
  seq : Nat
  startT : Nat
  lastT : Nat
  firstTs : Option Nat
  lastTs : Nat
  count : Nat
  used : Nat
  packets : Nat
  lost : Nat
  parsed : Nat
  dropped : Nat
  deriving DecidableEq, Repr

/-- One stream: the frame or sweep in progress, whether a lidar link waits for the next sweep start, the last azimuth code, the next
sequence number, the buffers whose header write is pending, the latest eligible buffer, one that became eligible at the instant of the
tick to come (R48), and its place in the rosters. -/
structure Stream where
  frame : Option CamFrame
  sweep : Option Sweep
  skip : Bool
  prevAz : Option Nat
  nextSeq : Nat
  hdr : List LamBuf
  last : Option LamBuf
  late : Option LamBuf
  rostered : Bool
  age : Nat
  deriving DecidableEq, Repr

/-! ## Almanac (R412 to R428) -/

/-- A vehicle-domain tracker (R421): V = S + `ofs` + `rate` × (S − `ref`) / 10^9, the integrator i of the servo, the last sample and
its time, the count of consecutive samples within LOCK_NS, and the time of the last valid sample. -/
structure Tracker where
  ofs : Rat
  ref : Nat
  rate : Rat
  integ : Int
  lastO : Option (Int × Nat)
  good : Nat
  validAt : Nat
  deriving DecidableEq, Repr

/-- A TIO pin (R425 to R428): when the values in force took effect, whether the pulse of ONCE mode has been dealt with, the end of the pulse in
progress, MODE and EDGE before the values in force (R428), and the captured edges, oldest first. -/
structure Tio where
  armedAt : Nat
  done : Bool
  pulseEnd : Option Nat
  old : Option (Nat × Nat)
  fifo : List (Nat × Bool)
  deriving DecidableEq, Repr

/-- Almanac: the two trackers, the switch residual E and the time at which it was set (R423), the time of the last steering update,
the pins, and the sequence number of the next message and the time of the last one, by MAC and kind (R416). -/
structure Alm where
  doms : List Tracker
  resid : Rat
  residAt : Nat
  steerAt : Nat
  tio : List Tio
  seqs : List (Nat × Nat)
  sent : List (Nat × Nat)
  deriving DecidableEq, Repr

/-! ## The replay decoder (R447 to R463) -/

/-- A lane at work (R450, R456, R457): emission, position, epoch and sample, its table entry, and the start and budget of its decoding. -/
structure Lane where
  q : Nat
  pos : Nat
  epoch : Nat
  sample : Nat
  entry : List Nat
  started : Nat
  budget : Nat
  deriving DecidableEq, Repr

/-- A session (R448, R449): the latched flag values, the next emission to start, its position, the emissions flagged, the lanes, and the
emissions whose slot is written while an earlier one is still to be flagged: status, kind and decode time. -/
structure Rpl where
  o0 : Nat
  c0 : Nat
  next : Nat
  pos : Nat
  flagged : Nat
  lanes : List (Option Lane)
  ready : List (Nat × (Nat × Nat × Nat))
  deriving DecidableEq, Repr

/-! ## Boot, identity and update (R480 to R498) -/

/-- Boot and update: the flash image slot and the running area of the image RAM (none: the image the part was delivered with, whose
bytes the spec does not give), the staging area, the state to which an abandoned activation returns, boot-over-link, the attestation
report in progress with its destination, the fuse blow in progress as field and nonce, and the target of the anti-rollback blow. -/
structure Sec where
  flash : Option (List Nat)
  running : Option (List Nat)
  staging : List Nat
  from_ : Nat
  overLink : Bool
  att : Option (List Nat × Nat)
  fuse : Option (Nat × List Nat)
  svn : Option Nat
  deriving DecidableEq, Repr

/-! ## The block -/

/-- Resets and low-power states in progress (R499 to R509): `chipAt`, the time at which a CHIP_RESET reaction starts its warm reset
(R369); `warm`, a warm reset in progress; `hbmReady`; the low-power state being entered (1 Doze, 2 Keep) and
the one in force; the straps as sampled (R480, R522); `i3c`, the dynamic address of the management port (R522); whether the warm reset in progress keeps HBM. `linkRate` is 1 to 5 for 2.5, 5, 8, 16 and 32 GT/s. -/
structure Rst where
  held : Bool
  warm : Bool
  chipAt : Option Nat
  hbmReady : Bool
  linkUp : Bool
  linkWidth : Nat
  linkRate : Nat
  refclk : Bool
  entering : Nat
  low : Nat
  bootsel : Nat
  mgmtAddr : Nat
  i3c : Option Nat
  keepHbm : Bool
  deriving DecidableEq, Repr

/-- The PCIe configuration space of one function (R96 to R99): the bases of its BARs, whether it is in D3hot, and the words of
its MSI-X table that differ from their reset values. -/
structure CfgFn where
  bar0 : Nat
  bar2 : Nat
  bar4 : Nat
  d3hot : Bool
  msix : List (Nat × Nat)
  deriving DecidableEq, Repr

/-- The block without its command queue. `now` is sensor-domain time in ns, `running` says that the sensor domain has started (R414),
`fresh` counts the free values taken, `lam` holds the streams of Lammas. -/
structure Dev where
  now : Nat
  running : Bool
  fresh : Nat
  fuses : Fuses
  rst : Rst
  cfg : List (Nat × CfgFn)
  regs : Regs
  mem : MemSt
  coll : Coll
  safe : Safe
  frame : Frame
  ctxs : List (Nat × Ctx)
  runs : List (Nat × Run)
  nextRun : Nat
  turns : List Nat
  flags : List (Nat × Nat)
  mods : List (Nat × Module)
  tdt : List (Nat × TDesc)
  kv : Kv
  lnk : Lnk
  leap : Leap
  pwr : Pwr
  lam : List (Nat × Stream)
  alm : Alm
  rpl : Rpl
  sec : Sec
  out : Out
  deriving DecidableEq, Repr

/-- The state of the model: the commands that wait, first in first out, and the block. -/
structure State where
  pending : List Instr
  dev : Dev
  deriving DecidableEq, Repr

/-! ## The block right after reset -/

/-- The binding of a cluster after a cold reset of a new part (R35): the identity, with engine 4 and prep core 2 spare. DEDUCED: log entry 12. -/
def cluReset : Clu := ⟨[0, 1, 2, 3], 4, [], [0, 1], 2, [], 0, [], false, 0, 0, none, none, none, none, false, 0⟩

/-- The fuses of the modelled part: a GV-9600 of stepping 1 and grade -AQ that no integrator has provisioned. -/
def fusesReset : Fuses :=
  { partCode := 0x9600, stepping := 1, grade := 0, dieId := 0, vendorKeyHash := List.replicate 32 0, intKeyHash := List.replicate 32 0, intKeyEn := false,
    intRequire := false, svn := 0, provisioned := false, cert := [] }

/-- The block right after a cold reset that ended with a boot from flash. DESIGN CHOICE: log entries 6, 7, 11. -/
def Dev.reset : Dev :=
  { now := 0, running := false, fresh := 0, fuses := fusesReset,
    rst := { held := false, warm := false, chipAt := none, hbmReady := true, linkUp := true, linkWidth := 8, linkRate := 5,
             refclk := true, entering := 0, low := 0,
             bootsel := 0, mgmtAddr := 0, i3c := none, keepHbm := false },
    cfg := [],
    regs := { cur := [], pend := [], live := [], latch := [], lastC := none },
    mem := { hbm := ⟨[], []⟩, sram := ⟨[], []⟩, host := ⟨[], []⟩, poison := [], rowEvents := [],
             sramRepairDue := [], rowsReady := [], marches := [], scrubAt := [], withheld := [], hbmLanes := [], hbmRows := [],
             patrolFrom := 0, lanesSpare := List.replicate 32 1, rowsSpare := [16, 16] },
    coll := { srcs := [], pending := 0, severe := 0, latch := 0, merged := 0, first := none, mergeCnt := 0, snapPf := none,
              snapC := none, ready := true, nmi := [], blockResets := [] },
    safe := { bClear := 0, bFrame := 0, aFirst := none, replay := none, replayWait := false, replayStatus := none,
              replayDue := false, pair := 0, standby := true, pairTest := 0 },
    frame := { frameNo := 0, started := false, prevTick := none, tick := 0, nextTick := 0, vigilDone := false, hiLatch := 0, roster := [],
               rosterDigest := 0, rosterFrame := 0, rosterTick := 0, received := none, agreed := [], agreeDone := true, disagreed := false, banks := [[], []],
               copying := none, switchWait := false, variant := none, phase := none, tasks := [], partSlow := [], late := [] },
    ctxs := [], runs := [], nextRun := 0, turns := [], flags := [], mods := [], tdt := [],
    kv := { entries := [], unused := 1, freeQ := [], pools := [], free := [], caches := [], snap := [], ending := [] },
    lnk := { windows := [], maps := [], rxSeq := List.replicate 6 0, rxFails := List.replicate 6 0, mirrorSent := 0, mirrorAcked := [],
             nextPiece := [], asked := [], txSeq := List.replicate 6 0, txBuf := List.replicate 6 [], pieceSeq := [] },
    leap := { clus := List.replicate 24 cluReset, units := [], attnFenced := [], regFenced := [], dieLost := [], macroUsed := [],
              wornAt := 0, wearSnap := [], journal := List.replicate 24 cluReset, wearJournal := [], oldCode := [] },
    pwr := { opp := List.replicate 6 0, changing := List.replicate 6 none, waiting := List.replicate 6 none, polls := [],
             learned := [], phaseEnergy := [], phaseFrom := none, samples := [], frameE := 0, frameM := 0, apart := 0, together := 0,
             telemetry := none, capCut := 0, capStepAt := 0, overCapAt := 0, energyAt := 0, alertCause := false, tripCause := false, alertHold := none, tripHold := none,
             stretched := [], junction := [], hbmTemp := [] },
    lam := [],
    alm := { doms := List.replicate 2 ⟨0, 0, 0, 0, none, 0, 0⟩, resid := 0, residAt := 0, steerAt := 0,
             tio := List.replicate 8 ⟨0, false, none, none, []⟩, seqs := [], sent := [] },
    rpl := { o0 := 0, c0 := 0, next := 0, pos := 0, flagged := 0, lanes := List.replicate 4 none, ready := [] },
    sec := { flash := none, running := none, staging := [], from_ := 0, overLink := false, att := none, fuse := none, svn := none },
    out := { rdata := [], poisoned := false, tx := [] } }

/-- The state of the model right after reset: no command waits. DESIGN CHOICE: log entry 6. -/
def State.reset : State := { pending := [], dev := Dev.reset }

end Sys2Proof.Machine
end

