-- ==== Sys2Proof/Machine/Maps.lean ====
section
/-!
DEFINITION. Sparse tables with rising keys, little-endian byte strings (R9) and the byte operations of a memory.
-/
namespace Sys2Proof.Machine

/-! ## Sparse tables -/

/-- The value of key `k`; `d` is what an unlisted key reads as. -/
def mget {α : Type} (d : α) : List (Nat × α) → Nat → α
  | [], _ => d
  | (j, v) :: m, k => if j = k then v else mget d m k

/-- The listed value of key `k`, if any. -/
def mfind {α : Type} : List (Nat × α) → Nat → Option α
  | [], _ => none
  | (j, v) :: m, k => if j = k then some v else mfind m k

/-- List `k` with value `v`, at its place in the order. -/
def mset {α : Type} : List (Nat × α) → Nat → α → List (Nat × α)
  | [], k, v => [(k, v)]
  | (j, w) :: m, k, v =>
    if k < j then (k, v) :: (j, w) :: m
    else if k = j then (k, v) :: m
    else (j, w) :: mset m k v

/-- Unlist `k`. -/
def merase {α : Type} (m : List (Nat × α)) (k : Nat) : List (Nat × α) := m.filter (fun p => p.1 != k)

/-- Give `k` the value `v`; a value equal to what an unlisted key reads as is not listed. -/
def mput {α : Type} [DecidableEq α] (d : α) (m : List (Nat × α)) (k : Nat) (v : α) : List (Nat × α) :=
  if v = d then merase m k else mset m k v

/-- Change the listed value of `k`; an unlisted key stays unlisted. -/
def mmod {α : Type} (m : List (Nat × α)) (k : Nat) (f : α → α) : List (Nat × α) :=
  m.map (fun p => if p.1 = k then (p.1, f p.2) else p)

/-- Insert a number into a rising list without repeats. -/
def insNat : List Nat → Nat → List Nat
  | [], k => [k]
  | j :: m, k => if k < j then k :: j :: m else if k = j then j :: m else j :: insNat m k

/-- A list in ascending order of a key. -/
def sortBy {α : Type} (key : α → Nat) : List α → List α
  | [] => []
  | x :: l =>
    let s := sortBy key l
    s.filter (fun y => decide (key y < key x)) ++ x :: s.filter (fun y => decide (key x ≤ key y))

/-- Replace element `i` of a list. -/
def setAt {α : Type} (l : List α) (i : Nat) (v : α) : List α := l.set i v

/-- The sum of a list. -/
def sumNat (l : List Nat) : Nat := l.foldl (· + ·) 0

/-! ## Bytes (R9) -/

/-- The number that little-endian bytes spell. -/
def leNat : List Nat → Nat
  | [] => 0
  | b :: bs => b + 256 * leNat bs

/-- `n` little-endian bytes of a number. -/
def leBytes : Nat → Nat → List Nat
  | 0, _ => []
  | n + 1, v => v % 256 :: leBytes n (v / 256)

/-- Bytes `lo` to `lo + n − 1` of a byte string, as a number. Bytes beyond its end read as 0. -/
def bfield (l : List Nat) (lo n : Nat) : Nat := leNat ((l.drop lo).take n)

/-- Bits `hi:lo` of a number (R9). -/
def bits (v hi lo : Nat) : Nat := v / 2 ^ lo % 2 ^ (hi + 1 - lo)

/-- One bit of a number. -/
def bitOf (v i : Nat) : Bool := v / 2 ^ i % 2 == 1

/-- 1 for true. -/
def b2n (b : Bool) : Nat := if b then 1 else 0

/-- The signed value of an `n`-bit two's complement number. -/
def toSigned (n v : Nat) : Int := if v % 2 ^ n < 2 ^ (n - 1) then (v % 2 ^ n : Nat) else (v % 2 ^ n : Nat) - (2 ^ n : Nat)

/-- The `n`-bit two's complement number of a signed value. -/
def ofSigned (n : Nat) (v : Int) : Nat := (v % ((2 ^ n : Nat) : Int)).toNat

/-- Bytes read as a big-endian number. -/
def beNat (l : List Nat) : Nat := l.foldl (fun a b => a * 256 + b) 0

/-- `n` big-endian bytes of a number. -/
def beBytes (n v : Nat) : List Nat := (leBytes n v).reverse

/-- The ceiling of a quotient. -/
def ceilDiv (a b : Nat) : Nat := (a + b - 1) / b

/-- Does a mask of bits hold bit `i`? -/
def maskHas (m i : Nat) : Bool := m.testBit i

/-- The indices below `n` whose bit is set, rising. -/
def maskList (m n : Nat) : List Nat := (List.range n).filter (fun i => m.testBit i)

/-! ## Memories -/

/-- The listed byte of address `a`, if any. -/
def findCell : List Host.Cell → Nat → Option Byte
  | [], _ => none
  | (j, v) :: m, a => if j = a then some v else findCell m a

/-- The range of undefined content that holds `a`, if any: the number that names its content. -/
def findUndef : List (Nat × Nat × Nat) → Nat → Option Nat
  | [], _ => none
  | (lo, hi, id) :: m, a => if lo ≤ a ∧ a < hi then some id else findUndef m a

/-- What an unlisted address reads as: 0 (R503), or the free content of a range the spec calls undefined. DESIGN CHOICE: log entry 8. -/
def Mem.blank (m : Mem) (a : Nat) : Byte :=
  match findUndef m.undef a with
  | some id => Config.freeByte id a
  | none => 0

/-- One byte of memory. DESIGN CHOICE: log entry 8. -/
def Mem.read (m : Mem) (a : Nat) : Byte :=
  match findCell m.cells a with
  | some v => v
  | none => m.blank a

/-- List a byte at its place in the order. -/
def setCell : List Host.Cell → Nat → Byte → List Host.Cell
  | [], a, v => [(a, v)]
  | (j, w) :: m, a, v =>
    if a < j then (a, v) :: (j, w) :: m
    else if a = j then (a, v) :: m
    else (j, w) :: setCell m a v

/-- Unlist a byte. -/
def eraseCell (m : List Host.Cell) (a : Nat) : List Host.Cell := m.filter (fun c => c.1 != a)

/-- Write one byte. A 0 outside every undefined range is what an unlisted address reads as, so it is not listed. -/
def Mem.write (m : Mem) (a : Nat) (v : Byte) : Mem :=
  if v = 0 ∧ findUndef m.undef a = none then { m with cells := eraseCell m.cells a }
  else { m with cells := setCell m.cells a v }

/-- Write a byte string from address `a` on. -/
def Mem.writeBytes (m : Mem) : Nat → List Nat → Mem
  | _, [] => m
  | a, b :: bs => (m.write a (BitVec.ofNat 8 b)).writeBytes (a + 1) bs

/-- `n` bytes from address `a` on. -/
def Mem.readBytes (m : Mem) (a n : Nat) : List Nat := (List.range n).map (fun i => (m.read (a + i)).toNat)

/-- A range less the bytes from `lo` to `hi − 1`. -/
def cutRange (lo hi : Nat) (r : Nat × Nat × Nat) : List (Nat × Nat × Nat) :=
  if hi ≤ r.1 ∨ r.2.1 ≤ lo then [r] else
  (if r.1 < lo then [(r.1, lo, r.2.2)] else []) ++ (if hi < r.2.1 then [(hi, r.2.1, r.2.2)] else [])

/-- Insert a range by its first byte. -/
def insRange : List (Nat × Nat × Nat) → Nat × Nat × Nat → List (Nat × Nat × Nat)
  | [], r => [r]
  | q :: m, r => if r.1 ≤ q.1 then r :: q :: m else q :: insRange m r

/-- The content of bytes `lo` to `hi − 1` becomes undefined; `id` names it. DESIGN CHOICE: log entry 9. -/
def Mem.forget (m : Mem) (lo hi id : Nat) : Mem :=
  if lo < hi then
    { cells := m.cells.filter (fun c => !(decide (lo ≤ c.1) && decide (c.1 < hi))),
      undef := insRange (m.undef.flatMap (cutRange lo hi)) (lo, hi, id) }
  else m

/-- Bytes `lo` to `hi − 1` become 0. -/
def Mem.zero (m : Mem) (lo hi : Nat) : Mem :=
  { cells := m.cells.filter (fun c => !(decide (lo ≤ c.1) && decide (c.1 < hi))),
    undef := m.undef.flatMap (cutRange lo hi) }

/-- A memory in which every byte is 0 (R503). -/
def Mem.empty : Mem := { cells := [], undef := [] }

/-- The keys of a table rise strictly. -/
def keysRise {α : Type} : List (Nat × α) → Bool
  | [] => true
  | [_] => true
  | a :: b :: m => decide (a.1 < b.1) && keysRise (b :: m)

/-- The canonical form of a memory: addresses rise strictly, and no listed byte equals what an unlisted address reads as. -/
def Mem.wf (m : Mem) : Bool :=
  keysRise m.cells && m.cells.all (fun c => decide (c.2 ≠ 0) || (findUndef m.undef c.1).isSome)

end Sys2Proof.Machine
end

