-- ==== Sys2Proof/Machine/RegTable.lean ====
section
/-!
DEFINITION. The register map of BAR0: the address of every register, its fields, and the table of access types, reset
values and ranges, written from the register tables of spec/ (R4, R45, R58, R69 to R72, R84, R103, R147, R236, R304, R309, R357,
R375, R381, R410, R411, R413, R429, R446, R462, R479, R498, R500, R506, R510, R511).
-/
namespace Sys2Proof.Machine

/-- The access types of R10. -/
inductive Acc where
  | rw | ro | w1c | w1s | rc
  deriving DecidableEq, Repr

/-- Bits `hi:lo` of the register at BAR0 offset `off` (R9). The offset of a function register carries the function number in
bits 35:32 (R103). -/
structure Fld where
  off : Nat
  hi : Nat
  lo : Nat
  deriving DecidableEq, Repr

/-- One field of a register: its place, its access type and the range its table states (R13). -/
structure FieldDesc where
  hi : Nat
  lo : Nat
  acc : Acc
  min : Nat
  max : Nat
  deriving DecidableEq, Repr

/-- One register, or one array of `n1` by `n2` registers at strides `s1` and `s2`. `align` is the number of low address bits
that must be zero (0: no alignment stated); a wide register has 64 bits (R513). -/
structure RegDesc where
  addr : Nat
  n1 : Nat
  s1 : Nat
  n2 : Nat
  s2 : Nat
  wide : Bool
  align : Nat
  rst : Nat
  fields : List FieldDesc
  deriving DecidableEq, Repr

/-- HIF_ID (00_scope). -/
def R.HIF_ID : Nat := 0x0
def F.HIF_ID.PART_CODE : Fld := ⟨R.HIF_ID, 15, 0⟩
def F.HIF_ID.STEPPING : Fld := ⟨R.HIF_ID, 19, 16⟩
def F.HIF_ID.GRADE : Fld := ⟨R.HIF_ID, 21, 20⟩
/-- HIF_CAP (00_scope). -/
def R.HIF_CAP : Nat := 0x10
def F.HIF_CAP.CDIE_COUNT : Fld := ⟨R.HIF_CAP, 1, 0⟩
def F.HIF_CAP.HBM_STACKS : Fld := ⟨R.HIF_CAP, 3, 2⟩
def F.HIF_CAP.ATTN : Fld := ⟨R.HIF_CAP, 4, 4⟩
def F.HIF_CAP.TDT : Fld := ⟨R.HIF_CAP, 5, 5⟩
def F.HIF_CAP.REPLAY : Fld := ⟨R.HIF_CAP, 6, 6⟩
def F.HIF_CAP.LEAGUE_PORTS : Fld := ⟨R.HIF_CAP, 9, 7⟩
def F.HIF_CAP.REGIONS : Fld := ⟨R.HIF_CAP, 13, 10⟩
/-- HIF_FN_CTX_ADDR (04_host_rings). -/
def R.HIF_FN_CTX_ADDR (fn : Nat) : Nat := 0x1000 + fn * 4294967296
def F.HIF_FN_CTX_ADDR.ADDR (fn : Nat) : Fld := ⟨R.HIF_FN_CTX_ADDR fn, 63, 0⟩
/-- HIF_FN_CTX_CMD (04_host_rings). -/
def R.HIF_FN_CTX_CMD (fn : Nat) : Nat := 0x1008 + fn * 4294967296
def F.HIF_FN_CTX_CMD.CTX (fn : Nat) : Fld := ⟨R.HIF_FN_CTX_CMD fn, 11, 0⟩
def F.HIF_FN_CTX_CMD.OP (fn : Nat) : Fld := ⟨R.HIF_FN_CTX_CMD fn, 13, 12⟩
def F.HIF_FN_CTX_CMD.GO (fn : Nat) : Fld := ⟨R.HIF_FN_CTX_CMD fn, 14, 14⟩
def F.HIF_FN_CTX_CMD.BUSY (fn : Nat) : Fld := ⟨R.HIF_FN_CTX_CMD fn, 15, 15⟩
def F.HIF_FN_CTX_CMD.STATUS (fn : Nat) : Fld := ⟨R.HIF_FN_CTX_CMD fn, 23, 16⟩
/-- HIF_FN_EVENT (04_host_rings). -/
def R.HIF_FN_EVENT (fn : Nat) : Nat := 0x1010 + fn * 4294967296
def F.HIF_FN_EVENT.CQ_OVERFLOW (fn : Nat) : Fld := ⟨R.HIF_FN_EVENT fn, 0, 0⟩
def F.HIF_FN_EVENT.DB_ERR (fn : Nat) : Fld := ⟨R.HIF_FN_EVENT fn, 1, 1⟩
def F.HIF_FN_EVENT.SWAP_WAIT (fn : Nat) : Fld := ⟨R.HIF_FN_EVENT fn, 2, 2⟩
def F.HIF_FN_EVENT.OP_DONE (fn : Nat) : Fld := ⟨R.HIF_FN_EVENT fn, 3, 3⟩
/-- HIF_FN_EVENT_MASK (04_host_rings). -/
def R.HIF_FN_EVENT_MASK (fn : Nat) : Nat := 0x1014 + fn * 4294967296
def F.HIF_FN_EVENT_MASK.MASK (fn : Nat) : Fld := ⟨R.HIF_FN_EVENT_MASK fn, 3, 0⟩
/-- HIF_FN_EVENT_CTX (04_host_rings). -/
def R.HIF_FN_EVENT_CTX (fn : Nat) : Nat := 0x1018 + fn * 4294967296
def F.HIF_FN_EVENT_CTX.CTX (fn : Nat) : Fld := ⟨R.HIF_FN_EVENT_CTX fn, 11, 0⟩
/-- HIF_FN_RES_BASE (04_host_rings). -/
def R.HIF_FN_RES_BASE (fn : Nat) : Nat := 0x1020 + fn * 4294967296
def F.HIF_FN_RES_BASE.ADDR (fn : Nat) : Fld := ⟨R.HIF_FN_RES_BASE fn, 63, 0⟩
/-- HIF_FN_RES_CFG (04_host_rings). -/
def R.HIF_FN_RES_CFG (fn : Nat) : Nat := 0x1028 + fn * 4294967296
def F.HIF_FN_RES_CFG.LOG2 (fn : Nat) : Fld := ⟨R.HIF_FN_RES_CFG fn, 4, 0⟩
/-- HIF_FN_RES_PROD (04_host_rings). -/
def R.HIF_FN_RES_PROD (fn : Nat) : Nat := 0x102c + fn * 4294967296
def F.HIF_FN_RES_PROD.INDEX (fn : Nat) : Fld := ⟨R.HIF_FN_RES_PROD fn, 15, 0⟩
/-- HIF_FN_RES_CONS (04_host_rings). -/
def R.HIF_FN_RES_CONS (fn : Nat) : Nat := 0x1030 + fn * 4294967296
def F.HIF_FN_RES_CONS.INDEX (fn : Nat) : Fld := ⟨R.HIF_FN_RES_CONS fn, 15, 0⟩
/-- HIF_FN_RES_LOST (04_host_rings). -/
def R.HIF_FN_RES_LOST (fn : Nat) : Nat := 0x1034 + fn * 4294967296
def F.HIF_FN_RES_LOST.COUNT (fn : Nat) : Fld := ⟨R.HIF_FN_RES_LOST fn, 31, 0⟩
/-- HIF_PF_FN_FLAGS (04_host_rings). -/
def R.HIF_PF_FN_FLAGS (i : Nat) : Nat := 0x2000 + i * 16
def F.HIF_PF_FN_FLAGS.BASE (i : Nat) : Fld := ⟨R.HIF_PF_FN_FLAGS i, 13, 0⟩
def F.HIF_PF_FN_FLAGS.COUNT (i : Nat) : Fld := ⟨R.HIF_PF_FN_FLAGS i, 28, 14⟩
/-- HIF_RST_CTRL (22_resets_retention). -/
def R.HIF_RST_CTRL : Nat := 0x3000
def F.HIF_RST_CTRL.WARM : Fld := ⟨R.HIF_RST_CTRL, 0, 0⟩
/-- HIF_RST_CAUSE (22_resets_retention). -/
def R.HIF_RST_CAUSE : Nat := 0x3004
def F.HIF_RST_CAUSE.CAUSE : Fld := ⟨R.HIF_RST_CAUSE, 2, 0⟩
def F.HIF_RST_CAUSE.HBM_KEPT : Fld := ⟨R.HIF_RST_CAUSE, 3, 3⟩
def F.HIF_RST_CAUSE.WARM_COUNT : Fld := ⟨R.HIF_RST_CAUSE, 31, 16⟩
/-- FLT_CTRL (14_fault_collection). -/
def R.FLT_CTRL : Nat := 0x100000
def F.FLT_CTRL.VECTOR : Fld := ⟨R.FLT_CTRL, 6, 0⟩
def F.FLT_CTRL.IRQ_EN : Fld := ⟨R.FLT_CTRL, 7, 7⟩
def F.FLT_CTRL.LOCK : Fld := ⟨R.FLT_CTRL, 8, 8⟩
def F.FLT_CTRL.BAD_CFG : Fld := ⟨R.FLT_CTRL, 9, 9⟩
/-- FLT_SRC_SEL (14_fault_collection). -/
def R.FLT_SRC_SEL : Nat := 0x100010
def F.FLT_SRC_SEL.ID : Fld := ⟨R.FLT_SRC_SEL, 8, 0⟩
/-- FLT_SRC_CFG (14_fault_collection). -/
def R.FLT_SRC_CFG : Nat := 0x100014
def F.FLT_SRC_CFG.THRESH : Fld := ⟨R.FLT_SRC_CFG, 7, 0⟩
def F.FLT_SRC_CFG.MINOR : Fld := ⟨R.FLT_SRC_CFG, 12, 8⟩
def F.FLT_SRC_CFG.SEVERE : Fld := ⟨R.FLT_SRC_CFG, 17, 13⟩
/-- FLT_SRC_WIN (14_fault_collection). -/
def R.FLT_SRC_WIN : Nat := 0x100018
def F.FLT_SRC_WIN.WINDOW_MS : Fld := ⟨R.FLT_SRC_WIN, 21, 0⟩
/-- FLT_SRC_CNT (14_fault_collection). -/
def R.FLT_SRC_CNT : Nat := 0x10001c
def F.FLT_SRC_CNT.COUNT : Fld := ⟨R.FLT_SRC_CNT, 7, 0⟩
def F.FLT_SRC_CNT.TOTAL : Fld := ⟨R.FLT_SRC_CNT, 31, 8⟩
/-- FLT_PENDING (14_fault_collection). -/
def R.FLT_PENDING (i : Nat) : Nat := 0x100100 + i * 4
def F.FLT_PENDING.PENDING (i : Nat) : Fld := ⟨R.FLT_PENDING i, 31, 0⟩
/-- FLT_SEVERE (14_fault_collection). -/
def R.FLT_SEVERE (i : Nat) : Nat := 0x100140 + i * 4
def F.FLT_SEVERE.SEVERE (i : Nat) : Fld := ⟨R.FLT_SEVERE i, 31, 0⟩
/-- FLT_ERRLATCH (14_fault_collection). -/
def R.FLT_ERRLATCH (i : Nat) : Nat := 0x100180 + i * 4
def F.FLT_ERRLATCH.LATCH (i : Nat) : Fld := ⟨R.FLT_ERRLATCH i, 31, 0⟩
/-- FLT_FIRST_ADDR (14_fault_collection). -/
def R.FLT_FIRST_ADDR : Nat := 0x100200
def F.FLT_FIRST_ADDR.ADDR : Fld := ⟨R.FLT_FIRST_ADDR, 63, 0⟩
/-- FLT_FIRST_INFO (14_fault_collection). -/
def R.FLT_FIRST_INFO : Nat := 0x100208
def F.FLT_FIRST_INFO.MASTER : Fld := ⟨R.FLT_FIRST_INFO, 15, 0⟩
def F.FLT_FIRST_INFO.SOURCE : Fld := ⟨R.FLT_FIRST_INFO, 24, 16⟩
def F.FLT_FIRST_INFO.ACCESS : Fld := ⟨R.FLT_FIRST_INFO, 27, 25⟩
def F.FLT_FIRST_INFO.SEVERE : Fld := ⟨R.FLT_FIRST_INFO, 28, 28⟩
def F.FLT_FIRST_INFO.VALID : Fld := ⟨R.FLT_FIRST_INFO, 31, 31⟩
/-- FLT_FIRST_TS (14_fault_collection). -/
def R.FLT_FIRST_TS : Nat := 0x100210
def F.FLT_FIRST_TS.TS : Fld := ⟨R.FLT_FIRST_TS, 63, 0⟩
/-- FLT_MERGE_CNT (14_fault_collection). -/
def R.FLT_MERGE_CNT : Nat := 0x100218
def F.FLT_MERGE_CNT.COUNT : Fld := ⟨R.FLT_MERGE_CNT, 15, 0⟩
/-- FLT_MERGED (14_fault_collection). -/
def R.FLT_MERGED (i : Nat) : Nat := 0x100240 + i * 4
def F.FLT_MERGED.MERGED (i : Nat) : Fld := ⟨R.FLT_MERGED i, 31, 0⟩
/-- FLT_PIN (14_fault_collection). -/
def R.FLT_PIN : Nat := 0x100300
def F.FLT_PIN.ERR_OUT : Fld := ⟨R.FLT_PIN, 0, 0⟩
def F.FLT_PIN.ERR_IN : Fld := ⟨R.FLT_PIN, 1, 1⟩
def F.FLT_PIN.ERR_IN_EN : Fld := ⟨R.FLT_PIN, 2, 2⟩
/-- FLT_INJECT (14_fault_collection). -/
def R.FLT_INJECT : Nat := 0x100310
def F.FLT_INJECT.SOURCE : Fld := ⟨R.FLT_INJECT, 8, 0⟩
def F.FLT_INJECT.GO : Fld := ⟨R.FLT_INJECT, 31, 31⟩
/-- SAF_SAFE_CFG (15_functional_safety). -/
def R.SAF_SAFE_CFG : Nat := 0x200000
def F.SAF_SAFE_CFG.MODE : Fld := ⟨R.SAF_SAFE_CFG, 1, 0⟩
def F.SAF_SAFE_CFG.A_MAX : Fld := ⟨R.SAF_SAFE_CFG, 11, 8⟩
def F.SAF_SAFE_CFG.A_WINDOW_S : Fld := ⟨R.SAF_SAFE_CFG, 27, 12⟩
def F.SAF_SAFE_CFG.BAD_CFG : Fld := ⟨R.SAF_SAFE_CFG, 31, 31⟩
/-- SAF_SAFE_STAT (15_functional_safety). -/
def R.SAF_SAFE_STAT : Nat := 0x200004
def F.SAF_SAFE_STAT.B_PART : Fld := ⟨R.SAF_SAFE_STAT, 15, 0⟩
def F.SAF_SAFE_STAT.A_COUNT : Fld := ⟨R.SAF_SAFE_STAT, 19, 16⟩
def F.SAF_SAFE_STAT.A_EXHAUSTED : Fld := ⟨R.SAF_SAFE_STAT, 20, 20⟩
def F.SAF_SAFE_STAT.NO_COMPUTUS : Fld := ⟨R.SAF_SAFE_STAT, 21, 21⟩
/-- SAF_SAFE_LAST (15_functional_safety). -/
def R.SAF_SAFE_LAST : Nat := 0x200008
def F.SAF_SAFE_LAST.SOURCE : Fld := ⟨R.SAF_SAFE_LAST, 8, 0⟩
def F.SAF_SAFE_LAST.MASTER : Fld := ⟨R.SAF_SAFE_LAST, 24, 9⟩
def F.SAF_SAFE_LAST.KIND : Fld := ⟨R.SAF_SAFE_LAST, 26, 25⟩
def F.SAF_SAFE_LAST.VALID : Fld := ⟨R.SAF_SAFE_LAST, 31, 31⟩
/-- SAF_SAFE_TS (15_functional_safety). -/
def R.SAF_SAFE_TS : Nat := 0x200010
def F.SAF_SAFE_TS.TS : Fld := ⟨R.SAF_SAFE_TS, 63, 0⟩
/-- SAF_WARM (15_functional_safety). -/
def R.SAF_WARM : Nat := 0x200018
def F.SAF_WARM.WARM_KEEP : Fld := ⟨R.SAF_WARM, 0, 0⟩
/-- SAF_RESTART_ADDR (15_functional_safety). -/
def R.SAF_RESTART_ADDR : Nat := 0x200020
def F.SAF_RESTART_ADDR.ADDR : Fld := ⟨R.SAF_RESTART_ADDR, 63, 0⟩
/-- SAF_RESTART_STAT (15_functional_safety). -/
def R.SAF_RESTART_STAT : Nat := 0x200028
def F.SAF_RESTART_STAT.INDEX : Fld := ⟨R.SAF_RESTART_STAT, 11, 0⟩
def F.SAF_RESTART_STAT.STATUS : Fld := ⟨R.SAF_RESTART_STAT, 19, 12⟩
def F.SAF_RESTART_STAT.DONE : Fld := ⟨R.SAF_RESTART_STAT, 20, 20⟩
def F.SAF_RESTART_STAT.FAILED : Fld := ⟨R.SAF_RESTART_STAT, 21, 21⟩
/-- SAF_OCT_HOLD (13_octave_scruple). -/
def R.SAF_OCT_HOLD (i : Nat) : Nat := 0x202000 + i * 8
def F.SAF_OCT_HOLD.ADDR (i : Nat) : Fld := ⟨R.SAF_OCT_HOLD i, 63, 25⟩
/-- SAF_OCT_RUNS (13_octave_scruple). -/
def R.SAF_OCT_RUNS : Nat := 0x202100
def F.SAF_OCT_RUNS.COUNT : Fld := ⟨R.SAF_OCT_RUNS, 31, 0⟩
/-- SAF_OCT_DISAGREE (13_octave_scruple). -/
def R.SAF_OCT_DISAGREE : Nat := 0x202104
def F.SAF_OCT_DISAGREE.COUNT : Fld := ⟨R.SAF_OCT_DISAGREE, 31, 0⟩
/-- SAF_SCR_MISMATCH (13_octave_scruple). -/
def R.SAF_SCR_MISMATCH : Nat := 0x202108
def F.SAF_SCR_MISMATCH.COUNT : Fld := ⟨R.SAF_SCR_MISMATCH, 31, 0⟩
/-- SAF_SCR_SKIPPED (13_octave_scruple). -/
def R.SAF_SCR_SKIPPED : Nat := 0x20210c
def F.SAF_SCR_SKIPPED.COUNT : Fld := ⟨R.SAF_SCR_SKIPPED, 31, 0⟩
/-- SAF_ARB_RESOLVED (13_octave_scruple). -/
def R.SAF_ARB_RESOLVED : Nat := 0x202110
def F.SAF_ARB_RESOLVED.COUNT : Fld := ⟨R.SAF_ARB_RESOLVED, 31, 0⟩
/-- SAF_ARB_REJECTED (13_octave_scruple). -/
def R.SAF_ARB_REJECTED : Nat := 0x202114
def F.SAF_ARB_REJECTED.COUNT : Fld := ⟨R.SAF_ARB_REJECTED, 31, 0⟩
/-- SAF_OCT_SAME_ENGINE (13_octave_scruple). -/
def R.SAF_OCT_SAME_ENGINE : Nat := 0x202118
def F.SAF_OCT_SAME_ENGINE.COUNT : Fld := ⟨R.SAF_OCT_SAME_ENGINE, 31, 0⟩
/-- SAF_CRC_RETRY (13_octave_scruple). -/
def R.SAF_CRC_RETRY : Nat := 0x20211c
def F.SAF_CRC_RETRY.COUNT : Fld := ⟨R.SAF_CRC_RETRY, 31, 0⟩
/-- SAF_ARB_LAST (13_octave_scruple). -/
def R.SAF_ARB_LAST : Nat := 0x202200
def F.SAF_ARB_LAST.PART : Fld := ⟨R.SAF_ARB_LAST, 3, 0⟩
def F.SAF_ARB_LAST.CTX : Fld := ⟨R.SAF_ARB_LAST, 15, 4⟩
def F.SAF_ARB_LAST.ORDO : Fld := ⟨R.SAF_ARB_LAST, 16, 16⟩
def F.SAF_ARB_LAST.SLOT : Fld := ⟨R.SAF_ARB_LAST, 26, 17⟩
def F.SAF_ARB_LAST.VERDICT : Fld := ⟨R.SAF_ARB_LAST, 29, 27⟩
def F.SAF_ARB_LAST.TROY_FAIL : Fld := ⟨R.SAF_ARB_LAST, 30, 30⟩
def F.SAF_ARB_LAST.VALID : Fld := ⟨R.SAF_ARB_LAST, 31, 31⟩
/-- SAF_ARB_FRAME (13_octave_scruple). -/
def R.SAF_ARB_FRAME : Nat := 0x202204
def F.SAF_ARB_FRAME.FRAME : Fld := ⟨R.SAF_ARB_FRAME, 31, 0⟩
/-- SAF_EMB_CFG (16_ember_leap). -/
def R.SAF_EMB_CFG : Nat := 0x203000
def F.SAF_EMB_CFG.ROT_MS : Fld := ⟨R.SAF_EMB_CFG, 7, 0⟩
def F.SAF_EMB_CFG.INTERVAL_MS : Fld := ⟨R.SAF_EMB_CFG, 21, 8⟩
def F.SAF_EMB_CFG.LOAN_EN : Fld := ⟨R.SAF_EMB_CFG, 22, 22⟩
def F.SAF_EMB_CFG.BAD_CFG : Fld := ⟨R.SAF_EMB_CFG, 31, 31⟩
/-- SAF_SPARE_INV (16_ember_leap). -/
def R.SAF_SPARE_INV : Nat := 0x203010
def F.SAF_SPARE_INV.ENG_SPARE : Fld := ⟨R.SAF_SPARE_INV, 5, 0⟩
def F.SAF_SPARE_INV.PC_SPARE : Fld := ⟨R.SAF_SPARE_INV, 11, 6⟩
def F.SAF_SPARE_INV.SEQ_STANDBY : Fld := ⟨R.SAF_SPARE_INV, 17, 12⟩
def F.SAF_SPARE_INV.CLU_FENCED : Fld := ⟨R.SAF_SPARE_INV, 22, 18⟩
def F.SAF_SPARE_INV.REG_FENCED : Fld := ⟨R.SAF_SPARE_INV, 25, 23⟩
def F.SAF_SPARE_INV.ATTN_FENCED : Fld := ⟨R.SAF_SPARE_INV, 28, 26⟩
def F.SAF_SPARE_INV.COMPUTUS_STANDBY : Fld := ⟨R.SAF_SPARE_INV, 29, 29⟩
/-- SAF_EMB_DEFER (16_ember_leap). -/
def R.SAF_EMB_DEFER : Nat := 0x203014
def F.SAF_EMB_DEFER.COUNT : Fld := ⟨R.SAF_EMB_DEFER, 31, 0⟩
/-- SAF_EMB_PASS (16_ember_leap). -/
def R.SAF_EMB_PASS : Nat := 0x203018
def F.SAF_EMB_PASS.COUNT : Fld := ⟨R.SAF_EMB_PASS, 31, 0⟩
/-- SAF_EMB_OLDEST (16_ember_leap). -/
def R.SAF_EMB_OLDEST : Nat := 0x20301c
def F.SAF_EMB_OLDEST.UNIT : Fld := ⟨R.SAF_EMB_OLDEST, 15, 0⟩
def F.SAF_EMB_OLDEST.AGE_MS : Fld := ⟨R.SAF_EMB_OLDEST, 29, 16⟩
/-- SAF_WEAR_SEL (16_ember_leap). -/
def R.SAF_WEAR_SEL : Nat := 0x203100
def F.SAF_WEAR_SEL.UNIT : Fld := ⟨R.SAF_WEAR_SEL, 15, 0⟩
def F.SAF_WEAR_SEL.ABSENT : Fld := ⟨R.SAF_WEAR_SEL, 16, 16⟩
/-- SAF_WEAR_DATA (16_ember_leap). -/
def R.SAF_WEAR_DATA (i : Nat) : Nat := 0x203110 + i * 4
def F.SAF_WEAR_DATA.DATA (i : Nat) : Fld := ⟨R.SAF_WEAR_DATA i, 31, 0⟩
/-- ALM_CFG (17_almanac_time). -/
def R.ALM_CFG : Nat := 0x300000
def F.ALM_CFG.ROLE : Fld := ⟨R.ALM_CFG, 0, 0⟩
def F.ALM_CFG.FOLLOW_PORT : Fld := ⟨R.ALM_CFG, 3, 1⟩
def F.ALM_CFG.STEER : Fld := ⟨R.ALM_CFG, 4, 4⟩
def F.ALM_CFG.PREFER : Fld := ⟨R.ALM_CFG, 5, 5⟩
def F.ALM_CFG.REVERT : Fld := ⟨R.ALM_CFG, 6, 6⟩
def F.ALM_CFG.GPTP_PORTS : Fld := ⟨R.ALM_CFG, 11, 8⟩
def F.ALM_CFG.GPTP_DOMAIN : Fld := ⟨R.ALM_CFG, 18, 12⟩
def F.ALM_CFG.SYNC_LOG : Fld := ⟨R.ALM_CFG, 22, 19⟩
def F.ALM_CFG.BAD_CFG : Fld := ⟨R.ALM_CFG, 31, 31⟩
/-- ALM_STEER (17_almanac_time). -/
def R.ALM_STEER : Nat := 0x300004
def F.ALM_STEER.LIMIT_PPB : Fld := ⟨R.ALM_STEER, 16, 0⟩
/-- ALM_SLEW (17_almanac_time). -/
def R.ALM_SLEW : Nat := 0x300008
def F.ALM_SLEW.SLEW_PPB : Fld := ⟨R.ALM_SLEW, 16, 0⟩
/-- ALM_STAT (17_almanac_time). -/
def R.ALM_STAT : Nat := 0x300010
def F.ALM_STAT.SEN_STATE : Fld := ⟨R.ALM_STAT, 1, 0⟩
def F.ALM_STAT.A_STATE : Fld := ⟨R.ALM_STAT, 4, 2⟩
def F.ALM_STAT.B_STATE : Fld := ⟨R.ALM_STAT, 7, 5⟩
def F.ALM_STAT.SELECTED : Fld := ⟨R.ALM_STAT, 8, 8⟩
def F.ALM_STAT.VT_VALID : Fld := ⟨R.ALM_STAT, 9, 9⟩
def F.ALM_STAT.SWITCHING : Fld := ⟨R.ALM_STAT, 10, 10⟩
def F.ALM_STAT.FREE_START : Fld := ⟨R.ALM_STAT, 11, 11⟩
/-- ALM_SEN_RATE (17_almanac_time). -/
def R.ALM_SEN_RATE : Nat := 0x300014
def F.ALM_SEN_RATE.RATE : Fld := ⟨R.ALM_SEN_RATE, 31, 0⟩
/-- ALM_SNAP_CTRL (17_almanac_time). -/
def R.ALM_SNAP_CTRL : Nat := 0x300020
def F.ALM_SNAP_CTRL.GO : Fld := ⟨R.ALM_SNAP_CTRL, 0, 0⟩
def F.ALM_SNAP_CTRL.DONE : Fld := ⟨R.ALM_SNAP_CTRL, 1, 1⟩
/-- ALM_SNAP (17_almanac_time). -/
def R.ALM_SNAP (i : Nat) : Nat := 0x300028 + i * 8
def F.ALM_SNAP.TIME (i : Nat) : Fld := ⟨R.ALM_SNAP i, 63, 0⟩
/-- ALM_KAL_PERIOD (02_frame_model). -/
def R.ALM_KAL_PERIOD : Nat := 0x300100
def F.ALM_KAL_PERIOD.PERIOD_NS : Fld := ⟨R.ALM_KAL_PERIOD, 31, 0⟩
/-- ALM_KAL_PHASE (02_frame_model). -/
def R.ALM_KAL_PHASE : Nat := 0x300104
def F.ALM_KAL_PHASE.PHASE_NS : Fld := ⟨R.ALM_KAL_PHASE, 31, 0⟩
/-- ALM_VIGIL_OFFSET (02_frame_model). -/
def R.ALM_VIGIL_OFFSET : Nat := 0x300108
def F.ALM_VIGIL_OFFSET.OFFSET_NS : Fld := ⟨R.ALM_VIGIL_OFFSET, 31, 0⟩
/-- ALM_KAL_CTRL (02_frame_model). -/
def R.ALM_KAL_CTRL : Nat := 0x30010c
def F.ALM_KAL_CTRL.APPLY : Fld := ⟨R.ALM_KAL_CTRL, 0, 0⟩
def F.ALM_KAL_CTRL.PENDING : Fld := ⟨R.ALM_KAL_CTRL, 1, 1⟩
def F.ALM_KAL_CTRL.BAD_CFG : Fld := ⟨R.ALM_KAL_CTRL, 2, 2⟩
/-- ALM_KAL_FRAME_LO (02_frame_model). -/
def R.ALM_KAL_FRAME_LO : Nat := 0x300110
def F.ALM_KAL_FRAME_LO.FRAME_LO : Fld := ⟨R.ALM_KAL_FRAME_LO, 31, 0⟩
/-- ALM_KAL_FRAME_HI (02_frame_model). -/
def R.ALM_KAL_FRAME_HI : Nat := 0x300114
def F.ALM_KAL_FRAME_HI.FRAME_HI : Fld := ⟨R.ALM_KAL_FRAME_HI, 31, 0⟩
/-- ALM_DOM_CFG (17_almanac_time). -/
def R.ALM_DOM_CFG (i : Nat) : Nat := 0x300200 + i * 64
def F.ALM_DOM_CFG.EN (i : Nat) : Fld := ⟨R.ALM_DOM_CFG i, 0, 0⟩
def F.ALM_DOM_CFG.PORT (i : Nat) : Fld := ⟨R.ALM_DOM_CFG i, 2, 1⟩
def F.ALM_DOM_CFG.TRANSPORT (i : Nat) : Fld := ⟨R.ALM_DOM_CFG i, 3, 3⟩
def F.ALM_DOM_CFG.DELAY (i : Nat) : Fld := ⟨R.ALM_DOM_CFG i, 4, 4⟩
def F.ALM_DOM_CFG.DOMAIN_NUM (i : Nat) : Fld := ⟨R.ALM_DOM_CFG i, 12, 5⟩
def F.ALM_DOM_CFG.REACQ (i : Nat) : Fld := ⟨R.ALM_DOM_CFG i, 13, 13⟩
/-- ALM_DOM_GM (17_almanac_time). -/
def R.ALM_DOM_GM (i : Nat) : Nat := 0x300208 + i * 64
def F.ALM_DOM_GM.GM (i : Nat) : Fld := ⟨R.ALM_DOM_GM i, 63, 0⟩
/-- ALM_DOM_SERVO (17_almanac_time). -/
def R.ALM_DOM_SERVO (i : Nat) : Nat := 0x300210 + i * 64
def F.ALM_DOM_SERVO.KP (i : Nat) : Fld := ⟨R.ALM_DOM_SERVO i, 15, 0⟩
def F.ALM_DOM_SERVO.KI (i : Nat) : Fld := ⟨R.ALM_DOM_SERVO i, 31, 16⟩
/-- ALM_DOM_LIM (17_almanac_time). -/
def R.ALM_DOM_LIM (i : Nat) : Nat := 0x300214 + i * 64
def F.ALM_DOM_LIM.LOCK_NS (i : Nat) : Fld := ⟨R.ALM_DOM_LIM i, 15, 0⟩
def F.ALM_DOM_LIM.LOSS_MS (i : Nat) : Fld := ⟨R.ALM_DOM_LIM i, 31, 16⟩
/-- ALM_DOM_REACQ (17_almanac_time). -/
def R.ALM_DOM_REACQ (i : Nat) : Nat := 0x300218 + i * 64
def F.ALM_DOM_REACQ.REACQ_NS (i : Nat) : Fld := ⟨R.ALM_DOM_REACQ i, 31, 0⟩
/-- ALM_DOM_OFS (17_almanac_time). -/
def R.ALM_DOM_OFS (i : Nat) : Nat := 0x300220 + i * 64
def F.ALM_DOM_OFS.OFFSET (i : Nat) : Fld := ⟨R.ALM_DOM_OFS i, 31, 0⟩
/-- ALM_DOM_RATE (17_almanac_time). -/
def R.ALM_DOM_RATE (i : Nat) : Nat := 0x300224 + i * 64
def F.ALM_DOM_RATE.RATE (i : Nat) : Fld := ⟨R.ALM_DOM_RATE i, 31, 0⟩
/-- ALM_DOM_STEPS (17_almanac_time). -/
def R.ALM_DOM_STEPS (i : Nat) : Nat := 0x300228 + i * 64
def F.ALM_DOM_STEPS.COUNT (i : Nat) : Fld := ⟨R.ALM_DOM_STEPS i, 31, 0⟩
/-- ALM_TIO_CFG (17_almanac_time). -/
def R.ALM_TIO_CFG (i : Nat) : Nat := 0x300400 + i * 64
def F.ALM_TIO_CFG.MODE (i : Nat) : Fld := ⟨R.ALM_TIO_CFG i, 2, 0⟩
def F.ALM_TIO_CFG.POL (i : Nat) : Fld := ⟨R.ALM_TIO_CFG i, 3, 3⟩
def F.ALM_TIO_CFG.EDGE (i : Nat) : Fld := ⟨R.ALM_TIO_CFG i, 5, 4⟩
def F.ALM_TIO_CFG.TIMEBASE (i : Nat) : Fld := ⟨R.ALM_TIO_CFG i, 6, 6⟩
def F.ALM_TIO_CFG.APPLY (i : Nat) : Fld := ⟨R.ALM_TIO_CFG i, 7, 7⟩
def F.ALM_TIO_CFG.PENDING (i : Nat) : Fld := ⟨R.ALM_TIO_CFG i, 8, 8⟩
def F.ALM_TIO_CFG.BAD_CFG (i : Nat) : Fld := ⟨R.ALM_TIO_CFG i, 9, 9⟩
def F.ALM_TIO_CFG.MISSED (i : Nat) : Fld := ⟨R.ALM_TIO_CFG i, 10, 10⟩
/-- ALM_TIO_START (17_almanac_time). -/
def R.ALM_TIO_START (i : Nat) : Nat := 0x300408 + i * 64
def F.ALM_TIO_START.NS (i : Nat) : Fld := ⟨R.ALM_TIO_START i, 63, 0⟩
/-- ALM_TIO_START_HI (17_almanac_time). -/
def R.ALM_TIO_START_HI (i : Nat) : Nat := 0x300410 + i * 64
def F.ALM_TIO_START_HI.SEC_HI (i : Nat) : Fld := ⟨R.ALM_TIO_START_HI i, 15, 0⟩
/-- ALM_TIO_PERIOD (17_almanac_time). -/
def R.ALM_TIO_PERIOD (i : Nat) : Nat := 0x300414 + i * 64
def F.ALM_TIO_PERIOD.PERIOD (i : Nat) : Fld := ⟨R.ALM_TIO_PERIOD i, 31, 0⟩
/-- ALM_TIO_WIDTH (17_almanac_time). -/
def R.ALM_TIO_WIDTH (i : Nat) : Nat := 0x300418 + i * 64
def F.ALM_TIO_WIDTH.WIDTH (i : Nat) : Fld := ⟨R.ALM_TIO_WIDTH i, 31, 0⟩
/-- ALM_TIO_TICKOFS (17_almanac_time). -/
def R.ALM_TIO_TICKOFS (i : Nat) : Nat := 0x30041c + i * 64
def F.ALM_TIO_TICKOFS.TICKOFS (i : Nat) : Fld := ⟨R.ALM_TIO_TICKOFS i, 31, 0⟩
/-- ALM_TIO_CAP (17_almanac_time). -/
def R.ALM_TIO_CAP (i : Nat) : Nat := 0x300420 + i * 64
def F.ALM_TIO_CAP.NS (i : Nat) : Fld := ⟨R.ALM_TIO_CAP i, 63, 0⟩
/-- ALM_TIO_CAP_HI (17_almanac_time). -/
def R.ALM_TIO_CAP_HI (i : Nat) : Nat := 0x300428 + i * 64
def F.ALM_TIO_CAP_HI.SEC_HI (i : Nat) : Fld := ⟨R.ALM_TIO_CAP_HI i, 15, 0⟩
def F.ALM_TIO_CAP_HI.RISE (i : Nat) : Fld := ⟨R.ALM_TIO_CAP_HI i, 16, 16⟩
def F.ALM_TIO_CAP_HI.VALID (i : Nat) : Fld := ⟨R.ALM_TIO_CAP_HI i, 17, 17⟩
def F.ALM_TIO_CAP_HI.LEFT (i : Nat) : Fld := ⟨R.ALM_TIO_CAP_HI i, 22, 18⟩
/-- ALM_TIO_CAP_LOST (17_almanac_time). -/
def R.ALM_TIO_CAP_LOST (i : Nat) : Nat := 0x300430 + i * 64
def F.ALM_TIO_CAP_LOST.COUNT (i : Nat) : Fld := ⟨R.ALM_TIO_CAP_LOST i, 31, 0⟩
/-- LAM_PORT_CFG (03_lammas_sensor_input). -/
def R.LAM_PORT_CFG (i : Nat) : Nat := 0x401000 + i * 64
def F.LAM_PORT_CFG.EN (i : Nat) : Fld := ⟨R.LAM_PORT_CFG i, 0, 0⟩
def F.LAM_PORT_CFG.PHY (i : Nat) : Fld := ⟨R.LAM_PORT_CFG i, 1, 1⟩
def F.LAM_PORT_CFG.LANES (i : Nat) : Fld := ⟨R.LAM_PORT_CFG i, 4, 2⟩
def F.LAM_PORT_CFG.MAXRATE (i : Nat) : Fld := ⟨R.LAM_PORT_CFG i, 15, 8⟩
/-- LAM_PORT_LAT (03_lammas_sensor_input). -/
def R.LAM_PORT_LAT (i : Nat) : Nat := 0x401004 + i * 64
def F.LAM_PORT_LAT.LAT_NS (i : Nat) : Fld := ⟨R.LAM_PORT_LAT i, 15, 0⟩
/-- LAM_PORT_STAT (03_lammas_sensor_input). -/
def R.LAM_PORT_STAT (i : Nat) : Nat := 0x401008 + i * 64
def F.LAM_PORT_STAT.TRAINED (i : Nat) : Fld := ⟨R.LAM_PORT_STAT i, 0, 0⟩
/-- LAM_PORT_ECC_CORR (03_lammas_sensor_input). -/
def R.LAM_PORT_ECC_CORR (i : Nat) : Nat := 0x40100c + i * 64
def F.LAM_PORT_ECC_CORR.COUNT (i : Nat) : Fld := ⟨R.LAM_PORT_ECC_CORR i, 31, 0⟩
/-- LAM_PORT_HDR_ERR (03_lammas_sensor_input). -/
def R.LAM_PORT_HDR_ERR (i : Nat) : Nat := 0x401010 + i * 64
def F.LAM_PORT_HDR_ERR.COUNT (i : Nat) : Fld := ⟨R.LAM_PORT_HDR_ERR i, 31, 0⟩
/-- LAM_PORT_CRC_ERR (03_lammas_sensor_input). -/
def R.LAM_PORT_CRC_ERR (i : Nat) : Nat := 0x401014 + i * 64
def F.LAM_PORT_CRC_ERR.COUNT (i : Nat) : Fld := ⟨R.LAM_PORT_CRC_ERR i, 31, 0⟩
/-- LAM_STR_CFG (03_lammas_sensor_input). -/
def R.LAM_STR_CFG (i : Nat) : Nat := 0x404000 + i * 256
def F.LAM_STR_CFG.EN (i : Nat) : Fld := ⟨R.LAM_STR_CFG i, 0, 0⟩
def F.LAM_STR_CFG.APPLY (i : Nat) : Fld := ⟨R.LAM_STR_CFG i, 1, 1⟩
def F.LAM_STR_CFG.PENDING (i : Nat) : Fld := ⟨R.LAM_STR_CFG i, 2, 2⟩
def F.LAM_STR_CFG.BAD_CFG (i : Nat) : Fld := ⟨R.LAM_STR_CFG i, 3, 3⟩
def F.LAM_STR_CFG.PORT (i : Nat) : Fld := ⟨R.LAM_STR_CFG i, 7, 4⟩
def F.LAM_STR_CFG.VC (i : Nat) : Fld := ⟨R.LAM_STR_CFG i, 9, 8⟩
def F.LAM_STR_CFG.DT (i : Nat) : Fld := ⟨R.LAM_STR_CFG i, 15, 10⟩
def F.LAM_STR_CFG.DT_ANY (i : Nat) : Fld := ⟨R.LAM_STR_CFG i, 16, 16⟩
def F.LAM_STR_CFG.PATH (i : Nat) : Fld := ⟨R.LAM_STR_CFG i, 18, 17⟩
def F.LAM_STR_CFG.CFA (i : Nat) : Fld := ⟨R.LAM_STR_CFG i, 20, 19⟩
def F.LAM_STR_CFG.MATRIX_EN (i : Nat) : Fld := ⟨R.LAM_STR_CFG i, 21, 21⟩
def F.LAM_STR_CFG.OUT_FMT (i : Nat) : Fld := ⟨R.LAM_STR_CFG i, 24, 22⟩
def F.LAM_STR_CFG.PLANAR (i : Nat) : Fld := ⟨R.LAM_STR_CFG i, 25, 25⟩
/-- LAM_STR_DIM (03_lammas_sensor_input). -/
def R.LAM_STR_DIM (i : Nat) : Nat := 0x404004 + i * 256
def F.LAM_STR_DIM.WIDTH (i : Nat) : Fld := ⟨R.LAM_STR_DIM i, 15, 0⟩
def F.LAM_STR_DIM.HEIGHT (i : Nat) : Fld := ⟨R.LAM_STR_DIM i, 31, 16⟩
/-- LAM_STR_TMO (03_lammas_sensor_input). -/
def R.LAM_STR_TMO (i : Nat) : Nat := 0x404008 + i * 256
def F.LAM_STR_TMO.LINE_TMO (i : Nat) : Fld := ⟨R.LAM_STR_TMO i, 15, 0⟩
def F.LAM_STR_TMO.FRAME_TMO (i : Nat) : Fld := ⟨R.LAM_STR_TMO i, 31, 16⟩
/-- LAM_STR_RING (03_lammas_sensor_input). -/
def R.LAM_STR_RING (i : Nat) : Nat := 0x404010 + i * 256
def F.LAM_STR_RING.ADDR (i : Nat) : Fld := ⟨R.LAM_STR_RING i, 63, 0⟩
/-- LAM_STR_BUFS (03_lammas_sensor_input). -/
def R.LAM_STR_BUFS (i : Nat) : Nat := 0x404018 + i * 256
def F.LAM_STR_BUFS.COUNT (i : Nat) : Fld := ⟨R.LAM_STR_BUFS i, 4, 0⟩
def F.LAM_STR_BUFS.UNITS (i : Nat) : Fld := ⟨R.LAM_STR_BUFS i, 31, 16⟩
/-- LAM_STR_CM (03_lammas_sensor_input). -/
def R.LAM_STR_CM (i j : Nat) : Nat := 0x404020 + i * 256 + j * 4
def F.LAM_STR_CM.C (i j : Nat) : Fld := ⟨R.LAM_STR_CM i j, 31, 0⟩
/-- LAM_STR_OFS (03_lammas_sensor_input). -/
def R.LAM_STR_OFS (i j : Nat) : Nat := 0x404034 + i * 256 + j * 4
def F.LAM_STR_OFS.OFF (i j : Nat) : Fld := ⟨R.LAM_STR_OFS i j, 31, 0⟩
/-- LAM_STR_MEAN (03_lammas_sensor_input). -/
def R.LAM_STR_MEAN (i j : Nat) : Nat := 0x404040 + i * 256 + j * 4
def F.LAM_STR_MEAN.MEAN (i j : Nat) : Fld := ⟨R.LAM_STR_MEAN i j, 31, 0⟩
/-- LAM_STR_SCALE (03_lammas_sensor_input). -/
def R.LAM_STR_SCALE (i j : Nat) : Nat := 0x40404c + i * 256 + j * 4
def F.LAM_STR_SCALE.SCALE (i j : Nat) : Fld := ⟨R.LAM_STR_SCALE i j, 31, 0⟩
/-- LAM_STR_STAT (03_lammas_sensor_input). -/
def R.LAM_STR_STAT (i : Nat) : Nat := 0x404058 + i * 256
def F.LAM_STR_STAT.LAST_BUF (i : Nat) : Fld := ⟨R.LAM_STR_STAT i, 3, 0⟩
def F.LAM_STR_STAT.LAST_ERR (i : Nat) : Fld := ⟨R.LAM_STR_STAT i, 7, 4⟩
def F.LAM_STR_STAT.VALID (i : Nat) : Fld := ⟨R.LAM_STR_STAT i, 8, 8⟩
/-- LAM_STR_SEQ (03_lammas_sensor_input). -/
def R.LAM_STR_SEQ (i : Nat) : Nat := 0x40405c + i * 256
def F.LAM_STR_SEQ.SEQ (i : Nat) : Fld := ⟨R.LAM_STR_SEQ i, 31, 0⟩
/-- LAM_STR_FAIL (03_lammas_sensor_input). -/
def R.LAM_STR_FAIL (i : Nat) : Nat := 0x404060 + i * 256
def F.LAM_STR_FAIL.COUNT (i : Nat) : Fld := ⟨R.LAM_STR_FAIL i, 31, 0⟩
/-- LAM_STR_DROP (03_lammas_sensor_input). -/
def R.LAM_STR_DROP (i : Nat) : Nat := 0x404064 + i * 256
def F.LAM_STR_DROP.COUNT (i : Nat) : Fld := ⟨R.LAM_STR_DROP i, 31, 0⟩
/-- LAM_LID_CFG (03_lammas_sensor_input). -/
def R.LAM_LID_CFG (i : Nat) : Nat := 0x408000 + i * 1024
def F.LAM_LID_CFG.EN (i : Nat) : Fld := ⟨R.LAM_LID_CFG i, 0, 0⟩
def F.LAM_LID_CFG.APPLY (i : Nat) : Fld := ⟨R.LAM_LID_CFG i, 1, 1⟩
def F.LAM_LID_CFG.PENDING (i : Nat) : Fld := ⟨R.LAM_LID_CFG i, 2, 2⟩
def F.LAM_LID_CFG.BAD_CFG (i : Nat) : Fld := ⟨R.LAM_LID_CFG i, 3, 3⟩
def F.LAM_LID_CFG.PATH (i : Nat) : Fld := ⟨R.LAM_LID_CFG i, 4, 4⟩
def F.LAM_LID_CFG.GEOM (i : Nat) : Fld := ⟨R.LAM_LID_CFG i, 5, 5⟩
def F.LAM_LID_CFG.SPLIT (i : Nat) : Fld := ⟨R.LAM_LID_CFG i, 7, 6⟩
def F.LAM_LID_CFG.PKT_LOSS_MAX (i : Nat) : Fld := ⟨R.LAM_LID_CFG i, 15, 8⟩
def F.LAM_LID_CFG.DROP_PCT (i : Nat) : Fld := ⟨R.LAM_LID_CFG i, 22, 16⟩
/-- LAM_LID_UDP (03_lammas_sensor_input). -/
def R.LAM_LID_UDP (i : Nat) : Nat := 0x408004 + i * 1024
def F.LAM_LID_UDP.DST_PORT (i : Nat) : Fld := ⟨R.LAM_LID_UDP i, 15, 0⟩
/-- LAM_LID_SRC_IP (03_lammas_sensor_input). -/
def R.LAM_LID_SRC_IP (i : Nat) : Nat := 0x408008 + i * 1024
def F.LAM_LID_SRC_IP.SRC_IP (i : Nat) : Fld := ⟨R.LAM_LID_SRC_IP i, 31, 0⟩
/-- LAM_LID_MAXPTS (03_lammas_sensor_input). -/
def R.LAM_LID_MAXPTS (i : Nat) : Nat := 0x40800c + i * 1024
def F.LAM_LID_MAXPTS.MAX_POINTS (i : Nat) : Fld := ⟨R.LAM_LID_MAXPTS i, 21, 0⟩
/-- LAM_LID_CAP (03_lammas_sensor_input). -/
def R.LAM_LID_CAP (i : Nat) : Nat := 0x408010 + i * 1024
def F.LAM_LID_CAP.CAP (i : Nat) : Fld := ⟨R.LAM_LID_CAP i, 15, 0⟩
/-- LAM_LID_LAYOUT0 (03_lammas_sensor_input). -/
def R.LAM_LID_LAYOUT0 (i : Nat) : Nat := 0x408014 + i * 1024
def F.LAM_LID_LAYOUT0.HDR_LEN (i : Nat) : Fld := ⟨R.LAM_LID_LAYOUT0 i, 15, 0⟩
def F.LAM_LID_LAYOUT0.BLOCKS (i : Nat) : Fld := ⟨R.LAM_LID_LAYOUT0 i, 23, 16⟩
def F.LAM_LID_LAYOUT0.PPB (i : Nat) : Fld := ⟨R.LAM_LID_LAYOUT0 i, 31, 24⟩
/-- LAM_LID_LAYOUT1 (03_lammas_sensor_input). -/
def R.LAM_LID_LAYOUT1 (i : Nat) : Nat := 0x408018 + i * 1024
def F.LAM_LID_LAYOUT1.BLOCK_LEN (i : Nat) : Fld := ⟨R.LAM_LID_LAYOUT1 i, 15, 0⟩
def F.LAM_LID_LAYOUT1.BLOCK_HDR (i : Nat) : Fld := ⟨R.LAM_LID_LAYOUT1 i, 31, 16⟩
/-- LAM_LID_LAYOUT2 (03_lammas_sensor_input). -/
def R.LAM_LID_LAYOUT2 (i : Nat) : Nat := 0x40801c + i * 1024
def F.LAM_LID_LAYOUT2.POINT_LEN (i : Nat) : Fld := ⟨R.LAM_LID_LAYOUT2 i, 15, 0⟩
def F.LAM_LID_LAYOUT2.SPLIT_AZ (i : Nat) : Fld := ⟨R.LAM_LID_LAYOUT2 i, 31, 16⟩
/-- LAM_LID_LIMIT (03_lammas_sensor_input). -/
def R.LAM_LID_LIMIT (i : Nat) : Nat := 0x408020 + i * 1024
def F.LAM_LID_LIMIT.LIMIT (i : Nat) : Fld := ⟨R.LAM_LID_LIMIT i, 31, 0⟩
/-- LAM_LID_TIMEWIN (03_lammas_sensor_input). -/
def R.LAM_LID_TIMEWIN (i : Nat) : Nat := 0x408024 + i * 1024
def F.LAM_LID_TIMEWIN.TIME_WIN (i : Nat) : Fld := ⟨R.LAM_LID_TIMEWIN i, 31, 0⟩
/-- LAM_LID_TMO (03_lammas_sensor_input). -/
def R.LAM_LID_TMO (i : Nat) : Nat := 0x408028 + i * 1024
def F.LAM_LID_TMO.GAP_TMO (i : Nat) : Fld := ⟨R.LAM_LID_TMO i, 15, 0⟩
def F.LAM_LID_TMO.SWEEP_TMO (i : Nat) : Fld := ⟨R.LAM_LID_TMO i, 31, 16⟩
/-- LAM_LID_LAT (03_lammas_sensor_input). -/
def R.LAM_LID_LAT (i : Nat) : Nat := 0x40802c + i * 1024
def F.LAM_LID_LAT.LAT_NS (i : Nat) : Fld := ⟨R.LAM_LID_LAT i, 15, 0⟩
/-- LAM_LID_RING (03_lammas_sensor_input). -/
def R.LAM_LID_RING (i : Nat) : Nat := 0x408030 + i * 1024
def F.LAM_LID_RING.ADDR (i : Nat) : Fld := ⟨R.LAM_LID_RING i, 63, 0⟩
/-- LAM_LID_BUFS (03_lammas_sensor_input). -/
def R.LAM_LID_BUFS (i : Nat) : Nat := 0x408038 + i * 1024
def F.LAM_LID_BUFS.COUNT (i : Nat) : Fld := ⟨R.LAM_LID_BUFS i, 4, 0⟩
def F.LAM_LID_BUFS.UNITS (i : Nat) : Fld := ⟨R.LAM_LID_BUFS i, 31, 16⟩
/-- LAM_LID_STAT (03_lammas_sensor_input). -/
def R.LAM_LID_STAT (i : Nat) : Nat := 0x408058 + i * 1024
def F.LAM_LID_STAT.LAST_BUF (i : Nat) : Fld := ⟨R.LAM_LID_STAT i, 3, 0⟩
def F.LAM_LID_STAT.LAST_ERR (i : Nat) : Fld := ⟨R.LAM_LID_STAT i, 7, 4⟩
def F.LAM_LID_STAT.VALID (i : Nat) : Fld := ⟨R.LAM_LID_STAT i, 8, 8⟩
/-- LAM_LID_SEQ (03_lammas_sensor_input). -/
def R.LAM_LID_SEQ (i : Nat) : Nat := 0x40805c + i * 1024
def F.LAM_LID_SEQ.SEQ (i : Nat) : Fld := ⟨R.LAM_LID_SEQ i, 31, 0⟩
/-- LAM_LID_FAIL (03_lammas_sensor_input). -/
def R.LAM_LID_FAIL (i : Nat) : Nat := 0x408060 + i * 1024
def F.LAM_LID_FAIL.COUNT (i : Nat) : Fld := ⟨R.LAM_LID_FAIL i, 31, 0⟩
/-- LAM_LID_DROP (03_lammas_sensor_input). -/
def R.LAM_LID_DROP (i : Nat) : Nat := 0x408064 + i * 1024
def F.LAM_LID_DROP.COUNT (i : Nat) : Fld := ⟨R.LAM_LID_DROP i, 31, 0⟩
/-- LAM_LID_FIELD (03_lammas_sensor_input). -/
def R.LAM_LID_FIELD (i j : Nat) : Nat := 0x408100 + i * 1024 + j * 16
def F.LAM_LID_FIELD.FIELD (i j : Nat) : Fld := ⟨R.LAM_LID_FIELD i j, 63, 0⟩
/-- LAM_LID_ELEV (03_lammas_sensor_input). -/
def R.LAM_LID_ELEV (i j : Nat) : Nat := 0x40a000 + i * 2048 + j * 4
def F.LAM_LID_ELEV.DATA (i j : Nat) : Fld := ⟨R.LAM_LID_ELEV i j, 31, 0⟩
/-- RPL_CTRL (19_replay_training). -/
def R.RPL_CTRL : Nat := 0x410000
def F.RPL_CTRL.START : Fld := ⟨R.RPL_CTRL, 0, 0⟩
def F.RPL_CTRL.STOP : Fld := ⟨R.RPL_CTRL, 1, 1⟩
def F.RPL_CTRL.BUSY : Fld := ⟨R.RPL_CTRL, 2, 2⟩
def F.RPL_CTRL.MODE : Fld := ⟨R.RPL_CTRL, 3, 3⟩
def F.RPL_CTRL.LOOP : Fld := ⟨R.RPL_CTRL, 4, 4⟩
def F.RPL_CTRL.BAD_CFG : Fld := ⟨R.RPL_CTRL, 5, 5⟩
def F.RPL_CTRL.ERR_CODE : Fld := ⟨R.RPL_CTRL, 13, 6⟩
def F.RPL_CTRL.PART : Fld := ⟨R.RPL_CTRL, 17, 14⟩
/-- RPL_TABLE (19_replay_training). -/
def R.RPL_TABLE : Nat := 0x410008
def F.RPL_TABLE.ADDR : Fld := ⟨R.RPL_TABLE, 63, 0⟩
/-- RPL_COUNT (19_replay_training). -/
def R.RPL_COUNT : Nat := 0x410010
def F.RPL_COUNT.N : Fld := ⟨R.RPL_COUNT, 31, 0⟩
/-- RPL_FIRST (19_replay_training). -/
def R.RPL_FIRST : Nat := 0x410014
def F.RPL_FIRST.FIRST : Fld := ⟨R.RPL_FIRST, 31, 0⟩
/-- RPL_SEED (19_replay_training). -/
def R.RPL_SEED : Nat := 0x410018
def F.RPL_SEED.SEED : Fld := ⟨R.RPL_SEED, 63, 0⟩
/-- RPL_EPOCH (19_replay_training). -/
def R.RPL_EPOCH : Nat := 0x410020
def F.RPL_EPOCH.EPOCH : Fld := ⟨R.RPL_EPOCH, 31, 0⟩
/-- RPL_OUT (19_replay_training). -/
def R.RPL_OUT : Nat := 0x410028
def F.RPL_OUT.ADDR : Fld := ⟨R.RPL_OUT, 63, 0⟩
/-- RPL_SLOTS (19_replay_training). -/
def R.RPL_SLOTS : Nat := 0x410030
def F.RPL_SLOTS.COUNT : Fld := ⟨R.RPL_SLOTS, 10, 0⟩
def F.RPL_SLOTS.UNITS : Fld := ⟨R.RPL_SLOTS, 31, 16⟩
/-- RPL_FLAG (19_replay_training). -/
def R.RPL_FLAG : Nat := 0x410034
def F.RPL_FLAG.OUT_FLAG : Fld := ⟨R.RPL_FLAG, 13, 0⟩
def F.RPL_FLAG.CONS_FLAG : Fld := ⟨R.RPL_FLAG, 27, 14⟩
/-- RPL_MAX (19_replay_training). -/
def R.RPL_MAX : Nat := 0x410038
def F.RPL_MAX.MAX_W : Fld := ⟨R.RPL_MAX, 15, 0⟩
def F.RPL_MAX.MAX_H : Fld := ⟨R.RPL_MAX, 31, 16⟩
/-- RPL_MAXPTS (19_replay_training). -/
def R.RPL_MAXPTS : Nat := 0x41003c
def F.RPL_MAXPTS.MAX_POINTS : Fld := ⟨R.RPL_MAXPTS, 21, 0⟩
/-- RPL_CROP (19_replay_training). -/
def R.RPL_CROP : Nat := 0x410040
def F.RPL_CROP.CROP_W : Fld := ⟨R.RPL_CROP, 15, 0⟩
def F.RPL_CROP.CROP_H : Fld := ⟨R.RPL_CROP, 31, 16⟩
/-- RPL_FMT (19_replay_training). -/
def R.RPL_FMT : Nat := 0x410044
def F.RPL_FMT.OUT_FMT : Fld := ⟨R.RPL_FMT, 2, 0⟩
def F.RPL_FMT.PLANAR : Fld := ⟨R.RPL_FMT, 3, 3⟩
/-- RPL_MEAN (19_replay_training). -/
def R.RPL_MEAN (i : Nat) : Nat := 0x410048 + i * 4
def F.RPL_MEAN.MEAN (i : Nat) : Fld := ⟨R.RPL_MEAN i, 31, 0⟩
/-- RPL_SCALE (19_replay_training). -/
def R.RPL_SCALE (i : Nat) : Nat := 0x410054 + i * 4
def F.RPL_SCALE.SCALE (i : Nat) : Fld := ⟨R.RPL_SCALE i, 31, 0⟩
/-- RPL_JITTER_M (19_replay_training). -/
def R.RPL_JITTER_M : Nat := 0x410060
def F.RPL_JITTER_M.JM : Fld := ⟨R.RPL_JITTER_M, 31, 0⟩
/-- RPL_JITTER_S (19_replay_training). -/
def R.RPL_JITTER_S : Nat := 0x410064
def F.RPL_JITTER_S.JS : Fld := ⟨R.RPL_JITTER_S, 31, 0⟩
/-- RPL_BUDGET (19_replay_training). -/
def R.RPL_BUDGET : Nat := 0x410068
def F.RPL_BUDGET.MULT : Fld := ⟨R.RPL_BUDGET, 7, 0⟩
def F.RPL_BUDGET.CEIL_MS : Fld := ⟨R.RPL_BUDGET, 23, 8⟩
/-- RPL_INIT (19_replay_training). -/
def R.RPL_INIT : Nat := 0x41006c
def F.RPL_INIT.INIT_NS : Fld := ⟨R.RPL_INIT, 31, 0⟩
/-- RPL_POS (19_replay_training). -/
def R.RPL_POS : Nat := 0x410070
def F.RPL_POS.NEXT : Fld := ⟨R.RPL_POS, 31, 0⟩
/-- RPL_AVG (19_replay_training). -/
def R.RPL_AVG (i : Nat) : Nat := 0x410074 + i * 4
def F.RPL_AVG.AVG_NS (i : Nat) : Fld := ⟨R.RPL_AVG i, 31, 0⟩
/-- RPL_LATE (19_replay_training). -/
def R.RPL_LATE : Nat := 0x41007c
def F.RPL_LATE.COUNT : Fld := ⟨R.RPL_LATE, 31, 0⟩
/-- RPL_IMPL (19_replay_training). -/
def R.RPL_IMPL : Nat := 0x410080
def F.RPL_IMPL.COUNT : Fld := ⟨R.RPL_IMPL, 31, 0⟩
/-- RPL_ERR (19_replay_training). -/
def R.RPL_ERR : Nat := 0x410084
def F.RPL_ERR.COUNT : Fld := ⟨R.RPL_ERR, 31, 0⟩
/-- PWR_CTRL (20_tithe_power). -/
def R.PWR_CTRL : Nat := 0x500000
def F.PWR_CTRL.CAP_W : Fld := ⟨R.PWR_CTRL, 8, 0⟩
def F.PWR_CTRL.BAD_CFG : Fld := ⟨R.PWR_CTRL, 9, 9⟩
def F.PWR_CTRL.CONS_OPP : Fld := ⟨R.PWR_CTRL, 12, 10⟩
def F.PWR_CTRL.ALERT_HOLD_MS : Fld := ⟨R.PWR_CTRL, 22, 13⟩
/-- PWR_THERM (20_tithe_power). -/
def R.PWR_THERM : Nat := 0x500004
def F.PWR_THERM.WARN_J : Fld := ⟨R.PWR_THERM, 7, 0⟩
def F.PWR_THERM.WARN_HBM : Fld := ⟨R.PWR_THERM, 15, 8⟩
/-- PWR_PART_CFG (20_tithe_power). -/
def R.PWR_PART_CFG (i : Nat) : Nat := 0x500100 + i * 4
def F.PWR_PART_CFG.RING_OPP (i : Nat) : Fld := ⟨R.PWR_PART_CFG i, 2, 0⟩
def F.PWR_PART_CFG.FLOOR (i : Nat) : Fld := ⟨R.PWR_PART_CFG i, 5, 3⟩
def F.PWR_PART_CFG.WEIGHT (i : Nat) : Fld := ⟨R.PWR_PART_CFG i, 13, 6⟩
/-- PWR_REG_STAT (20_tithe_power). -/
def R.PWR_REG_STAT (i : Nat) : Nat := 0x500200 + i * 16
def F.PWR_REG_STAT.OPP (i : Nat) : Fld := ⟨R.PWR_REG_STAT i, 2, 0⟩
def F.PWR_REG_STAT.REQ (i : Nat) : Fld := ⟨R.PWR_REG_STAT i, 5, 3⟩
def F.PWR_REG_STAT.FLOOR (i : Nat) : Fld := ⟨R.PWR_REG_STAT i, 8, 6⟩
def F.PWR_REG_STAT.STRETCH (i : Nat) : Fld := ⟨R.PWR_REG_STAT i, 9, 9⟩
def F.PWR_REG_STAT.TEMP_C (i : Nat) : Fld := ⟨R.PWR_REG_STAT i, 23, 16⟩
/-- PWR_REG_POWER (20_tithe_power). -/
def R.PWR_REG_POWER (i : Nat) : Nat := 0x500204 + i * 16
def F.PWR_REG_POWER.MW (i : Nat) : Fld := ⟨R.PWR_REG_POWER i, 31, 0⟩
/-- PWR_REG_EST (20_tithe_power). -/
def R.PWR_REG_EST (i : Nat) : Nat := 0x500208 + i * 16
def F.PWR_REG_EST.MW (i : Nat) : Fld := ⟨R.PWR_REG_EST i, 31, 0⟩
/-- PWR_STAT (20_tithe_power). -/
def R.PWR_STAT : Nat := 0x500300
def F.PWR_STAT.EFF_CAP_W : Fld := ⟨R.PWR_STAT, 8, 0⟩
def F.PWR_STAT.DIVERGED : Fld := ⟨R.PWR_STAT, 9, 9⟩
def F.PWR_STAT.FLOOR_LIMITED : Fld := ⟨R.PWR_STAT, 10, 10⟩
def F.PWR_STAT.ALERT : Fld := ⟨R.PWR_STAT, 11, 11⟩
def F.PWR_STAT.TRIP : Fld := ⟨R.PWR_STAT, 12, 12⟩
def F.PWR_STAT.THERM_WARN : Fld := ⟨R.PWR_STAT, 13, 13⟩
/-- PWR_PKG_POWER (20_tithe_power). -/
def R.PWR_PKG_POWER : Nat := 0x500304
def F.PWR_PKG_POWER.MW : Fld := ⟨R.PWR_PKG_POWER, 31, 0⟩
/-- PWR_HBM_TEMP (20_tithe_power). -/
def R.PWR_HBM_TEMP : Nat := 0x500308
def F.PWR_HBM_TEMP.STACK0 : Fld := ⟨R.PWR_HBM_TEMP, 7, 0⟩
def F.PWR_HBM_TEMP.STACK1 : Fld := ⟨R.PWR_HBM_TEMP, 15, 8⟩
/-- PWR_DROOP (20_tithe_power). -/
def R.PWR_DROOP : Nat := 0x500310
def F.PWR_DROOP.COUNT : Fld := ⟨R.PWR_DROOP, 31, 0⟩
/-- PWR_DOM_STAT (20_tithe_power). -/
def R.PWR_DOM_STAT (i : Nat) : Nat := 0x500400 + i * 4
def F.PWR_DOM_STAT.ON (i : Nat) : Fld := ⟨R.PWR_DOM_STAT i, 31, 0⟩
/-- PWR_LP_CTRL (22_resets_retention). -/
def R.PWR_LP_CTRL : Nat := 0x500500
def F.PWR_LP_CTRL.DOZE : Fld := ⟨R.PWR_LP_CTRL, 0, 0⟩
def F.PWR_LP_CTRL.KEEP : Fld := ⟨R.PWR_LP_CTRL, 1, 1⟩
def F.PWR_LP_CTRL.WAKE : Fld := ⟨R.PWR_LP_CTRL, 2, 2⟩
def F.PWR_LP_CTRL.STATE : Fld := ⟨R.PWR_LP_CTRL, 4, 3⟩
def F.PWR_LP_CTRL.REFUSED : Fld := ⟨R.PWR_LP_CTRL, 5, 5⟩
def F.PWR_LP_CTRL.THERMAL : Fld := ⟨R.PWR_LP_CTRL, 6, 6⟩
/-- PWR_LP_WAKE (22_resets_retention). -/
def R.PWR_LP_WAKE : Nat := 0x500508
def F.PWR_LP_WAKE.TIME : Fld := ⟨R.PWR_LP_WAKE, 63, 0⟩
/-- LNK_TOPO (18_league_links). -/
def R.LNK_TOPO : Nat := 0x600000
def F.LNK_TOPO.X : Fld := ⟨R.LNK_TOPO, 4, 0⟩
def F.LNK_TOPO.Y : Fld := ⟨R.LNK_TOPO, 9, 5⟩
def F.LNK_TOPO.Z : Fld := ⟨R.LNK_TOPO, 14, 10⟩
def F.LNK_TOPO.SIZE_X : Fld := ⟨R.LNK_TOPO, 19, 15⟩
def F.LNK_TOPO.SIZE_Y : Fld := ⟨R.LNK_TOPO, 24, 20⟩
def F.LNK_TOPO.SIZE_Z : Fld := ⟨R.LNK_TOPO, 29, 25⟩
/-- LNK_CTRL (18_league_links). -/
def R.LNK_CTRL : Nat := 0x600004
def F.LNK_CTRL.PORT_EN : Fld := ⟨R.LNK_CTRL, 5, 0⟩
def F.LNK_CTRL.EN : Fld := ⟨R.LNK_CTRL, 6, 6⟩
def F.LNK_CTRL.BAD_CFG : Fld := ⟨R.LNK_CTRL, 7, 7⟩
/-- LNK_PORT_STAT (18_league_links). -/
def R.LNK_PORT_STAT (i : Nat) : Nat := 0x600100 + i * 32
def F.LNK_PORT_STAT.STATE (i : Nat) : Fld := ⟨R.LNK_PORT_STAT i, 1, 0⟩
def F.LNK_PORT_STAT.LANE_FAIL (i : Nat) : Fld := ⟨R.LNK_PORT_STAT i, 6, 2⟩
def F.LNK_PORT_STAT.SPARE_USED (i : Nat) : Fld := ⟨R.LNK_PORT_STAT i, 7, 7⟩
def F.LNK_PORT_STAT.PEER (i : Nat) : Fld := ⟨R.LNK_PORT_STAT i, 22, 8⟩
/-- LNK_PORT_RETRY (18_league_links). -/
def R.LNK_PORT_RETRY (i : Nat) : Nat := 0x600104 + i * 32
def F.LNK_PORT_RETRY.COUNT (i : Nat) : Fld := ⟨R.LNK_PORT_RETRY i, 31, 0⟩
/-- LNK_PORT_DOWNS (18_league_links). -/
def R.LNK_PORT_DOWNS (i : Nat) : Nat := 0x600108 + i * 32
def F.LNK_PORT_DOWNS.COUNT (i : Nat) : Fld := ⟨R.LNK_PORT_DOWNS i, 31, 0⟩
/-- LNK_GROUP (18_league_links). -/
def R.LNK_GROUP : Nat := 0x600200
def F.LNK_GROUP.EN : Fld := ⟨R.LNK_GROUP, 0, 0⟩
def F.LNK_GROUP.LEADER : Fld := ⟨R.LNK_GROUP, 1, 1⟩
/-- LNK_GROUP_MEM (18_league_links). -/
def R.LNK_GROUP_MEM : Nat := 0x600208
def F.LNK_GROUP_MEM.PKG : Fld := ⟨R.LNK_GROUP_MEM, 59, 0⟩
def F.LNK_GROUP_MEM.VALID : Fld := ⟨R.LNK_GROUP_MEM, 63, 60⟩
/-- LNK_WIN_SEL (18_league_links). -/
def R.LNK_WIN_SEL : Nat := 0x600300
def F.LNK_WIN_SEL.WINDOW : Fld := ⟨R.LNK_WIN_SEL, 9, 0⟩
/-- LNK_WIN_STAT (18_league_links). -/
def R.LNK_WIN_STAT : Nat := 0x600304
def F.LNK_WIN_STAT.OPEN : Fld := ⟨R.LNK_WIN_STAT, 0, 0⟩
def F.LNK_WIN_STAT.MODE : Fld := ⟨R.LNK_WIN_STAT, 1, 1⟩
def F.LNK_WIN_STAT.PART : Fld := ⟨R.LNK_WIN_STAT, 5, 2⟩
def F.LNK_WIN_STAT.EPOCH : Fld := ⟨R.LNK_WIN_STAT, 31, 16⟩
/-- LNK_EPOCH_DROP (18_league_links). -/
def R.LNK_EPOCH_DROP : Nat := 0x600310
def F.LNK_EPOCH_DROP.COUNT : Fld := ⟨R.LNK_EPOCH_DROP, 31, 0⟩
/-- LNK_DENIED (18_league_links). -/
def R.LNK_DENIED : Nat := 0x600314
def F.LNK_DENIED.COUNT : Fld := ⟨R.LNK_DENIED, 31, 0⟩
/-- KVU_POOL_TOTAL (11_attention_kv). -/
def R.KVU_POOL_TOTAL (i : Nat) : Nat := 0x700000 + i * 16
def F.KVU_POOL_TOTAL.UNITS (i : Nat) : Fld := ⟨R.KVU_POOL_TOTAL i, 31, 0⟩
/-- KVU_POOL_FREE (11_attention_kv). -/
def R.KVU_POOL_FREE (i : Nat) : Nat := 0x700004 + i * 16
def F.KVU_POOL_FREE.UNITS (i : Nat) : Fld := ⟨R.KVU_POOL_FREE i, 31, 0⟩
/-- KVU_POOL_LARGEST (11_attention_kv). -/
def R.KVU_POOL_LARGEST (i : Nat) : Nat := 0x700008 + i * 16
def F.KVU_POOL_LARGEST.CODE (i : Nat) : Fld := ⟨R.KVU_POOL_LARGEST i, 3, 0⟩
/-- KVU_BUSHEL_USED (11_attention_kv). -/
def R.KVU_BUSHEL_USED : Nat := 0x700100
def F.KVU_BUSHEL_USED.COUNT : Fld := ⟨R.KVU_BUSHEL_USED, 17, 0⟩
/-- KVU_ALLOC_FAIL (11_attention_kv). -/
def R.KVU_ALLOC_FAIL : Nat := 0x700104
def F.KVU_ALLOC_FAIL.COUNT : Fld := ⟨R.KVU_ALLOC_FAIL, 31, 0⟩
/-- KVU_COW (11_attention_kv). -/
def R.KVU_COW : Nat := 0x700108
def F.KVU_COW.COUNT : Fld := ⟨R.KVU_COW, 31, 0⟩
/-- KVU_STALE (11_attention_kv). -/
def R.KVU_STALE : Nat := 0x70010c
def F.KVU_STALE.COUNT : Fld := ⟨R.KVU_STALE, 31, 0⟩
/-- KVU_UNIT (11_attention_kv). -/
def R.KVU_UNIT : Nat := 0x700200
def F.KVU_UNIT.FENCED : Fld := ⟨R.KVU_UNIT, 5, 0⟩
def F.KVU_UNIT.BUSY : Fld := ⟨R.KVU_UNIT, 11, 6⟩
/-- KVU_ENTRY_SEL (11_attention_kv). -/
def R.KVU_ENTRY_SEL : Nat := 0x700300
def F.KVU_ENTRY_SEL.INDEX : Fld := ⟨R.KVU_ENTRY_SEL, 17, 0⟩
/-- KVU_ENTRY_DATA (11_attention_kv). -/
def R.KVU_ENTRY_DATA (i : Nat) : Nat := 0x700310 + i * 4
def F.KVU_ENTRY_DATA.DATA (i : Nat) : Fld := ⟨R.KVU_ENTRY_DATA i, 31, 0⟩
/-- MEM_PART_RANGE (05_memory). -/
def R.MEM_PART_RANGE (i : Nat) : Nat := 0x800000 + i * 16
def F.MEM_PART_RANGE.BASE (i : Nat) : Fld := ⟨R.MEM_PART_RANGE i, 9, 0⟩
def F.MEM_PART_RANGE.SIZE (i : Nat) : Fld := ⟨R.MEM_PART_RANGE i, 25, 16⟩
/-- MEM_RSV (05_memory). -/
def R.MEM_RSV (i j : Nat) : Nat := 0x800100 + i * 16 + j * 8
def F.MEM_RSV.RATE (i j : Nat) : Fld := ⟨R.MEM_RSV i j, 12, 0⟩
def F.MEM_RSV.BURST (i j : Nat) : Fld := ⟨R.MEM_RSV i j, 31, 16⟩
/-- MEM_RSV_CTRL (05_memory). -/
def R.MEM_RSV_CTRL : Nat := 0x800300
def F.MEM_RSV_CTRL.APPLY : Fld := ⟨R.MEM_RSV_CTRL, 0, 0⟩
def F.MEM_RSV_CTRL.PENDING : Fld := ⟨R.MEM_RSV_CTRL, 1, 1⟩
def F.MEM_RSV_CTRL.BAD_CFG : Fld := ⟨R.MEM_RSV_CTRL, 2, 2⟩
/-- MEM_PATROL (05_memory). -/
def R.MEM_PATROL : Nat := 0x800310
def F.MEM_PATROL.EN : Fld := ⟨R.MEM_PATROL, 0, 0⟩
def F.MEM_PATROL.HOURS : Fld := ⟨R.MEM_PATROL, 15, 8⟩
/-- MEM_SRAM_CE (05_memory). -/
def R.MEM_SRAM_CE : Nat := 0x800400
def F.MEM_SRAM_CE.COUNT : Fld := ⟨R.MEM_SRAM_CE, 31, 0⟩
/-- MEM_SRAM_UE (05_memory). -/
def R.MEM_SRAM_UE : Nat := 0x800404
def F.MEM_SRAM_UE.COUNT : Fld := ⟨R.MEM_SRAM_UE, 31, 0⟩
/-- MEM_HBM_CE (05_memory). -/
def R.MEM_HBM_CE (i : Nat) : Nat := 0x800410 + i * 8
def F.MEM_HBM_CE.COUNT (i : Nat) : Fld := ⟨R.MEM_HBM_CE i, 31, 0⟩
/-- MEM_HBM_UE (05_memory). -/
def R.MEM_HBM_UE (i : Nat) : Nat := 0x800414 + i * 8
def F.MEM_HBM_UE.COUNT (i : Nat) : Fld := ⟨R.MEM_HBM_UE i, 31, 0⟩
/-- MEM_POISONED (05_memory). -/
def R.MEM_POISONED (i : Nat) : Nat := 0x800420 + i * 4
def F.MEM_POISONED.COUNT (i : Nat) : Fld := ⟨R.MEM_POISONED i, 31, 0⟩
/-- MEM_HBM_REPAIR (05_memory). -/
def R.MEM_HBM_REPAIR (i : Nat) : Nat := 0x800500 + i * 16
def F.MEM_HBM_REPAIR.LANES_USED (i : Nat) : Fld := ⟨R.MEM_HBM_REPAIR i, 7, 0⟩
def F.MEM_HBM_REPAIR.LANES_LEFT (i : Nat) : Fld := ⟨R.MEM_HBM_REPAIR i, 15, 8⟩
def F.MEM_HBM_REPAIR.ROWS_USED (i : Nat) : Fld := ⟨R.MEM_HBM_REPAIR i, 23, 16⟩
def F.MEM_HBM_REPAIR.ROWS_LEFT (i : Nat) : Fld := ⟨R.MEM_HBM_REPAIR i, 31, 24⟩
/-- SEC_STAT (21_boot_security_update). -/
def R.SEC_STAT : Nat := 0x900000
def F.SEC_STAT.BOOT_SRC : Fld := ⟨R.SEC_STAT, 1, 0⟩
def F.SEC_STAT.SVN_FUSE : Fld := ⟨R.SEC_STAT, 8, 2⟩
def F.SEC_STAT.RUN_SVN : Fld := ⟨R.SEC_STAT, 15, 9⟩
def F.SEC_STAT.RUN_ABI : Fld := ⟨R.SEC_STAT, 23, 16⟩
def F.SEC_STAT.PROVISIONED : Fld := ⟨R.SEC_STAT, 24, 24⟩
def F.SEC_STAT.INT_KEY_EN : Fld := ⟨R.SEC_STAT, 25, 25⟩
def F.SEC_STAT.INT_REQUIRE : Fld := ⟨R.SEC_STAT, 26, 26⟩
/-- SEC_DIE_ID (21_boot_security_update). -/
def R.SEC_DIE_ID : Nat := 0x900008
def F.SEC_DIE_ID.ID : Fld := ⟨R.SEC_DIE_ID, 63, 0⟩
/-- SEC_RUN_DIGEST (21_boot_security_update). -/
def R.SEC_RUN_DIGEST (i : Nat) : Nat := 0x900010 + i * 4
def F.SEC_RUN_DIGEST.DIGEST (i : Nat) : Fld := ⟨R.SEC_RUN_DIGEST i, 31, 0⟩
/-- SEC_UPD_SRC (21_boot_security_update). -/
def R.SEC_UPD_SRC : Nat := 0x900100
def F.SEC_UPD_SRC.ADDR : Fld := ⟨R.SEC_UPD_SRC, 63, 0⟩
/-- SEC_UPD_LEN (21_boot_security_update). -/
def R.SEC_UPD_LEN : Nat := 0x900108
def F.SEC_UPD_LEN.LENGTH : Fld := ⟨R.SEC_UPD_LEN, 22, 0⟩
/-- SEC_UPD_CTRL (21_boot_security_update). -/
def R.SEC_UPD_CTRL : Nat := 0x90010c
def F.SEC_UPD_CTRL.VERIFY : Fld := ⟨R.SEC_UPD_CTRL, 0, 0⟩
def F.SEC_UPD_CTRL.WRITE : Fld := ⟨R.SEC_UPD_CTRL, 1, 1⟩
def F.SEC_UPD_CTRL.ACTIVATE : Fld := ⟨R.SEC_UPD_CTRL, 2, 2⟩
def F.SEC_UPD_CTRL.BUSY : Fld := ⟨R.SEC_UPD_CTRL, 3, 3⟩
/-- SEC_UPD_STAT (21_boot_security_update). -/
def R.SEC_UPD_STAT : Nat := 0x900110
def F.SEC_UPD_STAT.STATE : Fld := ⟨R.SEC_UPD_STAT, 2, 0⟩
def F.SEC_UPD_STAT.ERR : Fld := ⟨R.SEC_UPD_STAT, 7, 3⟩
def F.SEC_UPD_STAT.FAILED : Fld := ⟨R.SEC_UPD_STAT, 8, 8⟩
def F.SEC_UPD_STAT.UNITS_OLD : Fld := ⟨R.SEC_UPD_STAT, 31, 16⟩
/-- SEC_SVN (21_boot_security_update). -/
def R.SEC_SVN : Nat := 0x900120
def F.SEC_SVN.COMMIT : Fld := ⟨R.SEC_SVN, 0, 0⟩
def F.SEC_SVN.BUSY : Fld := ⟨R.SEC_SVN, 1, 1⟩
/-- SEC_FUSE_PROG (21_boot_security_update). -/
def R.SEC_FUSE_PROG : Nat := 0x900130
def F.SEC_FUSE_PROG.FIELD : Fld := ⟨R.SEC_FUSE_PROG, 1, 0⟩
def F.SEC_FUSE_PROG.GO : Fld := ⟨R.SEC_FUSE_PROG, 2, 2⟩
def F.SEC_FUSE_PROG.BUSY : Fld := ⟨R.SEC_FUSE_PROG, 3, 3⟩
/-- SEC_ATT_NONCE (21_boot_security_update). -/
def R.SEC_ATT_NONCE (i : Nat) : Nat := 0x900200 + i * 4
def F.SEC_ATT_NONCE.NONCE (i : Nat) : Fld := ⟨R.SEC_ATT_NONCE i, 31, 0⟩
/-- SEC_ATT_DST (21_boot_security_update). -/
def R.SEC_ATT_DST : Nat := 0x900220
def F.SEC_ATT_DST.ADDR : Fld := ⟨R.SEC_ATT_DST, 63, 0⟩
/-- SEC_ATT_CTRL (21_boot_security_update). -/
def R.SEC_ATT_CTRL : Nat := 0x900228
def F.SEC_ATT_CTRL.GO : Fld := ⟨R.SEC_ATT_CTRL, 0, 0⟩
def F.SEC_ATT_CTRL.BUSY : Fld := ⟨R.SEC_ATT_CTRL, 1, 1⟩
def F.SEC_ATT_CTRL.STATUS : Fld := ⟨R.SEC_ATT_CTRL, 9, 2⟩
def F.SEC_ATT_CTRL.PART_MASK : Fld := ⟨R.SEC_ATT_CTRL, 31, 16⟩
/-- SEC_SIGREQ (21_boot_security_update). -/
def R.SEC_SIGREQ : Nat := 0x900300
def F.SEC_SIGREQ.REQ : Fld := ⟨R.SEC_SIGREQ, 15, 0⟩
def F.SEC_SIGREQ.BAD_CFG : Fld := ⟨R.SEC_SIGREQ, 16, 16⟩
/-- SEC_CERT (21_boot_security_update). -/
def R.SEC_CERT (i : Nat) : Nat := 0x901000 + i * 4
def F.SEC_CERT.DATA (i : Nat) : Fld := ⟨R.SEC_CERT i, 31, 0⟩
/-- SCH_ORDO_CTRL (02_frame_model). -/
def R.SCH_ORDO_CTRL : Nat := 0xa00000
def F.SCH_ORDO_CTRL.SWITCH : Fld := ⟨R.SCH_ORDO_CTRL, 0, 0⟩
def F.SCH_ORDO_CTRL.BUSY : Fld := ⟨R.SCH_ORDO_CTRL, 1, 1⟩
def F.SCH_ORDO_CTRL.PENDING : Fld := ⟨R.SCH_ORDO_CTRL, 2, 2⟩
def F.SCH_ORDO_CTRL.BANK : Fld := ⟨R.SCH_ORDO_CTRL, 3, 3⟩
def F.SCH_ORDO_CTRL.VARIANT : Fld := ⟨R.SCH_ORDO_CTRL, 5, 4⟩
def F.SCH_ORDO_CTRL.NO_PLAN : Fld := ⟨R.SCH_ORDO_CTRL, 6, 6⟩
/-- SCH_ORDO_STATUS (02_frame_model). -/
def R.SCH_ORDO_STATUS : Nat := 0xa00004
def F.SCH_ORDO_STATUS.ERR_CODE : Fld := ⟨R.SCH_ORDO_STATUS, 7, 0⟩
def F.SCH_ORDO_STATUS.ERR_INDEX : Fld := ⟨R.SCH_ORDO_STATUS, 17, 8⟩
def F.SCH_ORDO_STATUS.REFUSED : Fld := ⟨R.SCH_ORDO_STATUS, 18, 18⟩
def F.SCH_ORDO_STATUS.ERR_VARIANT : Fld := ⟨R.SCH_ORDO_STATUS, 20, 19⟩
def F.SCH_ORDO_STATUS.ERR_ITEM : Fld := ⟨R.SCH_ORDO_STATUS, 22, 21⟩
/-- SCH_ORDO_SRC (02_frame_model). -/
def R.SCH_ORDO_SRC : Nat := 0xa00008
def F.SCH_ORDO_SRC.ADDR : Fld := ⟨R.SCH_ORDO_SRC, 63, 0⟩
/-- SCH_ROSTER_BASE (02_frame_model). -/
def R.SCH_ROSTER_BASE : Nat := 0xa00010
def F.SCH_ROSTER_BASE.ADDR : Fld := ⟨R.SCH_ROSTER_BASE, 63, 0⟩
/-- SCH_ROSTER_TMO (02_frame_model). -/
def R.SCH_ROSTER_TMO : Nat := 0xa00018
def F.SCH_ROSTER_TMO.TMO_US : Fld := ⟨R.SCH_ROSTER_TMO, 9, 0⟩
/-- SCH_MUTUAL_A (09_sirtin_execution). -/
def R.SCH_MUTUAL_A : Nat := 0xa00100
def F.SCH_MUTUAL_A.CTX : Fld := ⟨R.SCH_MUTUAL_A, 11, 0⟩
def F.SCH_MUTUAL_A.PART : Fld := ⟨R.SCH_MUTUAL_A, 15, 12⟩
def F.SCH_MUTUAL_A.FLAG : Fld := ⟨R.SCH_MUTUAL_A, 29, 16⟩
def F.SCH_MUTUAL_A.RING : Fld := ⟨R.SCH_MUTUAL_A, 30, 30⟩
/-- SCH_MUTUAL_B (09_sirtin_execution). -/
def R.SCH_MUTUAL_B : Nat := 0xa00104
def F.SCH_MUTUAL_B.CTX : Fld := ⟨R.SCH_MUTUAL_B, 11, 0⟩
def F.SCH_MUTUAL_B.PART : Fld := ⟨R.SCH_MUTUAL_B, 15, 12⟩
def F.SCH_MUTUAL_B.FLAG : Fld := ⟨R.SCH_MUTUAL_B, 29, 16⟩
def F.SCH_MUTUAL_B.RING : Fld := ⟨R.SCH_MUTUAL_B, 30, 30⟩
/-- SCH_MUTUAL_STAT (09_sirtin_execution). -/
def R.SCH_MUTUAL_STAT : Nat := 0xa00108
def F.SCH_MUTUAL_STAT.VALID : Fld := ⟨R.SCH_MUTUAL_STAT, 0, 0⟩
def F.SCH_MUTUAL_STAT.MERGED : Fld := ⟨R.SCH_MUTUAL_STAT, 15, 8⟩
/-- SCH_MUTUAL_FRAME (09_sirtin_execution). -/
def R.SCH_MUTUAL_FRAME : Nat := 0xa0010c
def F.SCH_MUTUAL_FRAME.FRAME : Fld := ⟨R.SCH_MUTUAL_FRAME, 31, 0⟩
/-- SCH_FLAG_CLR (09_sirtin_execution). -/
def R.SCH_FLAG_CLR : Nat := 0xa00120
def F.SCH_FLAG_CLR.FIRST : Fld := ⟨R.SCH_FLAG_CLR, 13, 0⟩
def F.SCH_FLAG_CLR.COUNT : Fld := ⟨R.SCH_FLAG_CLR, 28, 14⟩
def F.SCH_FLAG_CLR.GO : Fld := ⟨R.SCH_FLAG_CLR, 29, 29⟩
def F.SCH_FLAG_CLR.BUSY : Fld := ⟨R.SCH_FLAG_CLR, 30, 30⟩
def F.SCH_FLAG_CLR.REFUSED : Fld := ⟨R.SCH_FLAG_CLR, 31, 31⟩
/-- SCH_CLU_PART (12_scheduling). -/
def R.SCH_CLU_PART (i : Nat) : Nat := 0xa00400 + i * 4
def F.SCH_CLU_PART.PART (i : Nat) : Fld := ⟨R.SCH_CLU_PART i, 31, 0⟩
/-- SCH_ATTN_PART (12_scheduling). -/
def R.SCH_ATTN_PART : Nat := 0xa0040c
def F.SCH_ATTN_PART.PART : Fld := ⟨R.SCH_ATTN_PART, 23, 0⟩
/-- SCH_PART_CTRL (12_scheduling). -/
def R.SCH_PART_CTRL : Nat := 0xa00410
def F.SCH_PART_CTRL.APPLY : Fld := ⟨R.SCH_PART_CTRL, 0, 0⟩
def F.SCH_PART_CTRL.PENDING : Fld := ⟨R.SCH_PART_CTRL, 1, 1⟩
def F.SCH_PART_CTRL.BAD_CFG : Fld := ⟨R.SCH_PART_CTRL, 2, 2⟩
/-- SCH_SWAP_BASE (12_scheduling). -/
def R.SCH_SWAP_BASE : Nat := 0xa00420
def F.SCH_SWAP_BASE.ADDR : Fld := ⟨R.SCH_SWAP_BASE, 63, 0⟩
/-- SCH_PART_CFG (12_scheduling). -/
def R.SCH_PART_CFG (i : Nat) : Nat := 0xa00500 + i * 16
def F.SCH_PART_CFG.SAFETY (i : Nat) : Fld := ⟨R.SCH_PART_CFG i, 0, 0⟩
/-- SCH_PART_TLIST (12_scheduling). -/
def R.SCH_PART_TLIST (i : Nat) : Nat := 0xa00508 + i * 16
def F.SCH_PART_TLIST.ADDR (i : Nat) : Fld := ⟨R.SCH_PART_TLIST i, 63, 0⟩
/-- SCH_PART_SLOW (12_scheduling). -/
def R.SCH_PART_SLOW (i : Nat) : Nat := 0xa00600 + i * 4
def F.SCH_PART_SLOW.PEAK (i : Nat) : Fld := ⟨R.SCH_PART_SLOW i, 15, 0⟩
def F.SCH_PART_SLOW.AVG (i : Nat) : Fld := ⟨R.SCH_PART_SLOW i, 31, 16⟩
/-- SCH_CTX_SEL (12_scheduling). -/
def R.SCH_CTX_SEL : Nat := 0xa00800
def F.SCH_CTX_SEL.CTX : Fld := ⟨R.SCH_CTX_SEL, 11, 0⟩
def F.SCH_CTX_SEL.PART : Fld := ⟨R.SCH_CTX_SEL, 15, 12⟩
def F.SCH_CTX_SEL.REFUSED : Fld := ⟨R.SCH_CTX_SEL, 16, 16⟩
/-- SCH_CTX_SCHED (12_scheduling). -/
def R.SCH_CTX_SCHED : Nat := 0xa00804
def F.SCH_CTX_SCHED.PRIORITY : Fld := ⟨R.SCH_CTX_SCHED, 1, 0⟩
def F.SCH_CTX_SCHED.SLICE : Fld := ⟨R.SCH_CTX_SCHED, 9, 2⟩
/-- SCH_CTX_STATE (12_scheduling). -/
def R.SCH_CTX_STATE : Nat := 0xa00808
def F.SCH_CTX_STATE.EXISTS : Fld := ⟨R.SCH_CTX_STATE, 0, 0⟩
def F.SCH_CTX_STATE.RESIDENT : Fld := ⟨R.SCH_CTX_STATE, 1, 1⟩
def F.SCH_CTX_STATE.PINNED : Fld := ⟨R.SCH_CTX_STATE, 2, 2⟩
def F.SCH_CTX_STATE.RUNNING : Fld := ⟨R.SCH_CTX_STATE, 3, 3⟩
/-- SCH_CTX_LAST (12_scheduling). -/
def R.SCH_CTX_LAST : Nat := 0xa00810
def F.SCH_CTX_LAST.LAST : Fld := ⟨R.SCH_CTX_LAST, 15, 0⟩
/-- SCH_CTX_PEAK (12_scheduling). -/
def R.SCH_CTX_PEAK : Nat := 0xa00814
def F.SCH_CTX_PEAK.PEAK : Fld := ⟨R.SCH_CTX_PEAK, 15, 0⟩
/-- SCH_CTX_FRAME (12_scheduling). -/
def R.SCH_CTX_FRAME : Nat := 0xa00818
def F.SCH_CTX_FRAME.AVG : Fld := ⟨R.SCH_CTX_FRAME, 15, 0⟩
def F.SCH_CTX_FRAME.COUNT : Fld := ⟨R.SCH_CTX_FRAME, 31, 16⟩
/-- SCH_CTX_PREEMPT (12_scheduling). -/
def R.SCH_CTX_PREEMPT : Nat := 0xa0081c
def F.SCH_CTX_PREEMPT.COUNT : Fld := ⟨R.SCH_CTX_PREEMPT, 31, 0⟩
/-- SCH_FLAG_VAL (09_sirtin_execution). -/
def R.SCH_FLAG_VAL (i : Nat) : Nat := 0xa10000 + i * 4
def F.SCH_FLAG_VAL.VALUE (i : Nat) : Fld := ⟨R.SCH_FLAG_VAL i, 31, 0⟩
/-- CD0_CLU_LEAP (01_hierarchy). -/
def R.CD0_CLU_LEAP (i : Nat) : Nat := 0x1010000 + i * 256
/-- CD0_CLU_LOAN (16_ember_leap). -/
def R.CD0_CLU_LOAN (i : Nat) : Nat := 0x1010004 + i * 256
/-- CD1_CLU_LEAP (01_hierarchy). -/
def R.CD1_CLU_LEAP (i : Nat) : Nat := 0x2010000 + i * 256
/-- CD1_CLU_LOAN (16_ember_leap). -/
def R.CD1_CLU_LOAN (i : Nat) : Nat := 0x2010004 + i * 256
/-- Registers of one block (R510). -/
def regsHif : List RegDesc := [
  ⟨0x0, 1, 8, 1, 8, false, 0, 0x0, [⟨15, 0, .ro, 0, 65535⟩, ⟨19, 16, .ro, 0, 15⟩, ⟨21, 20, .ro, 0, 3⟩]⟩ /- HIF_ID -/,
  ⟨0x10, 1, 8, 1, 8, false, 0, 0x0, [⟨1, 0, .ro, 0, 3⟩, ⟨3, 2, .ro, 0, 3⟩, ⟨4, 4, .ro, 0, 1⟩, ⟨5, 5, .ro, 0, 1⟩, ⟨6, 6, .ro, 0, 1⟩, ⟨9, 7, .ro, 0, 7⟩, ⟨13, 10, .ro, 0, 15⟩]⟩ /- HIF_CAP -/,
  ⟨0x1000, 1, 8, 1, 8, true, 6, 0x0, [⟨63, 0, .rw, 0, 18446744073709551615⟩]⟩ /- HIF_FN_CTX_ADDR -/,
  ⟨0x1008, 1, 8, 1, 8, false, 0, 0x0, [⟨11, 0, .rw, 0, 4095⟩, ⟨13, 12, .rw, 0, 2⟩, ⟨14, 14, .w1s, 0, 1⟩, ⟨15, 15, .ro, 0, 1⟩, ⟨23, 16, .ro, 0, 255⟩]⟩ /- HIF_FN_CTX_CMD -/,
  ⟨0x1010, 1, 8, 1, 8, false, 0, 0x0, [⟨0, 0, .w1c, 0, 1⟩, ⟨1, 1, .w1c, 0, 1⟩, ⟨2, 2, .w1c, 0, 1⟩, ⟨3, 3, .w1c, 0, 1⟩]⟩ /- HIF_FN_EVENT -/,
  ⟨0x1014, 1, 8, 1, 8, false, 0, 0xf, [⟨3, 0, .rw, 0, 15⟩]⟩ /- HIF_FN_EVENT_MASK -/,
  ⟨0x1018, 1, 8, 1, 8, false, 0, 0x0, [⟨11, 0, .ro, 0, 4095⟩]⟩ /- HIF_FN_EVENT_CTX -/,
  ⟨0x1020, 1, 8, 1, 8, true, 6, 0x0, [⟨63, 0, .rw, 0, 18446744073709551615⟩]⟩ /- HIF_FN_RES_BASE -/,
  ⟨0x1028, 1, 8, 1, 8, false, 0, 0xa, [⟨4, 0, .rw, 6, 16⟩]⟩ /- HIF_FN_RES_CFG -/,
  ⟨0x102c, 1, 8, 1, 8, false, 0, 0x0, [⟨15, 0, .ro, 0, 65535⟩]⟩ /- HIF_FN_RES_PROD -/,
  ⟨0x1030, 1, 8, 1, 8, false, 0, 0x0, [⟨15, 0, .rw, 0, 65535⟩]⟩ /- HIF_FN_RES_CONS -/,
  ⟨0x1034, 1, 8, 1, 8, false, 0, 0x0, [⟨31, 0, .rc, 0, 4294967295⟩]⟩ /- HIF_FN_RES_LOST -/,
  ⟨0x2000, 16, 16, 1, 8, false, 0, 0x0, [⟨13, 0, .rw, 0, 16383⟩, ⟨28, 14, .rw, 0, 32767⟩]⟩ /- HIF_PF_FN_FLAGS -/,
  ⟨0x3000, 1, 8, 1, 8, false, 0, 0x0, [⟨0, 0, .w1s, 0, 1⟩]⟩ /- HIF_RST_CTRL -/,
  ⟨0x3004, 1, 8, 1, 8, false, 0, 0x0, [⟨2, 0, .ro, 0, 7⟩, ⟨3, 3, .ro, 0, 1⟩, ⟨31, 16, .ro, 0, 65535⟩]⟩ /- HIF_RST_CAUSE -/]
/-- Registers of one block (R510). -/
def regsFlt : List RegDesc := [
  ⟨0x100000, 1, 8, 1, 8, false, 0, 0x80, [⟨6, 0, .rw, 0, 127⟩, ⟨7, 7, .rw, 0, 1⟩, ⟨8, 8, .w1s, 0, 1⟩, ⟨9, 9, .w1c, 0, 1⟩]⟩ /- FLT_CTRL -/,
  ⟨0x100010, 1, 8, 1, 8, false, 0, 0x0, [⟨8, 0, .rw, 0, 511⟩]⟩ /- FLT_SRC_SEL -/,
  ⟨0x100014, 1, 8, 1, 8, false, 0, 0x0, [⟨7, 0, .rw, 1, 255⟩, ⟨12, 8, .rw, 0, 31⟩, ⟨17, 13, .rw, 0, 31⟩]⟩ /- FLT_SRC_CFG -/,
  ⟨0x100018, 1, 8, 1, 8, false, 0, 0x0, [⟨21, 0, .rw, 1, 3600000⟩]⟩ /- FLT_SRC_WIN -/,
  ⟨0x10001c, 1, 8, 1, 8, false, 0, 0x0, [⟨7, 0, .ro, 0, 255⟩, ⟨31, 8, .ro, 0, 16777215⟩]⟩ /- FLT_SRC_CNT -/,
  ⟨0x100100, 16, 4, 1, 8, false, 0, 0x0, [⟨31, 0, .w1c, 0, 4294967295⟩]⟩ /- FLT_PENDING -/,
  ⟨0x100140, 16, 4, 1, 8, false, 0, 0x0, [⟨31, 0, .w1c, 0, 4294967295⟩]⟩ /- FLT_SEVERE -/,
  ⟨0x100180, 16, 4, 1, 8, false, 0, 0x0, [⟨31, 0, .ro, 0, 4294967295⟩]⟩ /- FLT_ERRLATCH -/,
  ⟨0x100200, 1, 8, 1, 8, true, 0, 0x0, [⟨63, 0, .ro, 0, 18446744073709551615⟩]⟩ /- FLT_FIRST_ADDR -/,
  ⟨0x100208, 1, 8, 1, 8, false, 0, 0x0, [⟨15, 0, .ro, 0, 65535⟩, ⟨24, 16, .ro, 0, 511⟩, ⟨27, 25, .ro, 0, 7⟩, ⟨28, 28, .ro, 0, 1⟩, ⟨31, 31, .w1c, 0, 1⟩]⟩ /- FLT_FIRST_INFO -/,
  ⟨0x100210, 1, 8, 1, 8, true, 0, 0x0, [⟨63, 0, .ro, 0, 18446744073709551615⟩]⟩ /- FLT_FIRST_TS -/,
  ⟨0x100218, 1, 8, 1, 8, false, 0, 0x0, [⟨15, 0, .ro, 0, 65535⟩]⟩ /- FLT_MERGE_CNT -/,
  ⟨0x100240, 16, 4, 1, 8, false, 0, 0x0, [⟨31, 0, .ro, 0, 4294967295⟩]⟩ /- FLT_MERGED -/,
  ⟨0x100300, 1, 8, 1, 8, false, 0, 0x4, [⟨0, 0, .ro, 0, 1⟩, ⟨1, 1, .ro, 0, 1⟩, ⟨2, 2, .rw, 0, 1⟩]⟩ /- FLT_PIN -/,
  ⟨0x100310, 1, 8, 1, 8, false, 0, 0x0, [⟨8, 0, .rw, 0, 511⟩, ⟨31, 31, .w1s, 0, 1⟩]⟩ /- FLT_INJECT -/]
/-- Registers of one block (R510). -/
def regsSaf0 : List RegDesc := [
  ⟨0x200000, 1, 8, 1, 8, false, 0, 0x258300, [⟨1, 0, .rw, 0, 2⟩, ⟨11, 8, .rw, 1, 15⟩, ⟨27, 12, .rw, 1, 65535⟩, ⟨31, 31, .w1c, 0, 1⟩]⟩ /- SAF_SAFE_CFG -/,
  ⟨0x200004, 1, 8, 1, 8, false, 0, 0x0, [⟨15, 0, .w1c, 0, 65535⟩, ⟨19, 16, .ro, 0, 15⟩, ⟨20, 20, .ro, 0, 1⟩, ⟨21, 21, .ro, 0, 1⟩]⟩ /- SAF_SAFE_STAT -/,
  ⟨0x200008, 1, 8, 1, 8, false, 0, 0x0, [⟨8, 0, .ro, 0, 511⟩, ⟨24, 9, .ro, 0, 65535⟩, ⟨26, 25, .ro, 0, 3⟩, ⟨31, 31, .w1c, 0, 1⟩]⟩ /- SAF_SAFE_LAST -/,
  ⟨0x200010, 1, 8, 1, 8, true, 0, 0x0, [⟨63, 0, .ro, 0, 18446744073709551615⟩]⟩ /- SAF_SAFE_TS -/,
  ⟨0x200018, 1, 8, 1, 8, false, 0, 0x0, [⟨0, 0, .rw, 0, 1⟩]⟩ /- SAF_WARM -/,
  ⟨0x200020, 1, 8, 1, 8, true, 12, 0x0, [⟨63, 0, .rw, 0, 18446744073709551615⟩]⟩ /- SAF_RESTART_ADDR -/,
  ⟨0x200028, 1, 8, 1, 8, false, 0, 0x0, [⟨11, 0, .ro, 0, 4095⟩, ⟨19, 12, .ro, 0, 255⟩, ⟨20, 20, .ro, 0, 1⟩, ⟨21, 21, .w1c, 0, 1⟩]⟩ /- SAF_RESTART_STAT -/,
  ⟨0x202000, 16, 8, 1, 8, true, 0, 0x0, [⟨63, 25, .rw, 0, 549755813887⟩]⟩ /- SAF_OCT_HOLD -/,
  ⟨0x202100, 1, 8, 1, 8, false, 0, 0x0, [⟨31, 0, .rc, 0, 4294967295⟩]⟩ /- SAF_OCT_RUNS -/,
  ⟨0x202104, 1, 8, 1, 8, false, 0, 0x0, [⟨31, 0, .rc, 0, 4294967295⟩]⟩ /- SAF_OCT_DISAGREE -/,
  ⟨0x202108, 1, 8, 1, 8, false, 0, 0x0, [⟨31, 0, .rc, 0, 4294967295⟩]⟩ /- SAF_SCR_MISMATCH -/,
  ⟨0x20210c, 1, 8, 1, 8, false, 0, 0x0, [⟨31, 0, .rc, 0, 4294967295⟩]⟩ /- SAF_SCR_SKIPPED -/,
  ⟨0x202110, 1, 8, 1, 8, false, 0, 0x0, [⟨31, 0, .rc, 0, 4294967295⟩]⟩ /- SAF_ARB_RESOLVED -/,
  ⟨0x202114, 1, 8, 1, 8, false, 0, 0x0, [⟨31, 0, .rc, 0, 4294967295⟩]⟩ /- SAF_ARB_REJECTED -/,
  ⟨0x202118, 1, 8, 1, 8, false, 0, 0x0, [⟨31, 0, .rc, 0, 4294967295⟩]⟩ /- SAF_OCT_SAME_ENGINE -/,
  ⟨0x20211c, 1, 8, 1, 8, false, 0, 0x0, [⟨31, 0, .rc, 0, 4294967295⟩]⟩ /- SAF_CRC_RETRY -/,
  ⟨0x202200, 1, 8, 1, 8, false, 0, 0x0, [⟨3, 0, .ro, 0, 15⟩, ⟨15, 4, .ro, 0, 4095⟩, ⟨16, 16, .ro, 0, 1⟩, ⟨26, 17, .ro, 0, 1023⟩, ⟨29, 27, .ro, 0, 7⟩, ⟨30, 30, .ro, 0, 1⟩, ⟨31, 31, .w1c, 0, 1⟩]⟩ /- SAF_ARB_LAST -/,
  ⟨0x202204, 1, 8, 1, 8, false, 0, 0x0, [⟨31, 0, .ro, 0, 4294967295⟩]⟩ /- SAF_ARB_FRAME -/,
  ⟨0x203000, 1, 8, 1, 8, false, 0, 0x43e802, [⟨7, 0, .rw, 2, 200⟩, ⟨21, 8, .rw, 50, 10000⟩, ⟨22, 22, .rw, 0, 1⟩, ⟨31, 31, .w1c, 0, 1⟩]⟩ /- SAF_EMB_CFG -/,
  ⟨0x203010, 1, 8, 1, 8, false, 0, 0x20000000, [⟨5, 0, .ro, 0, 63⟩, ⟨11, 6, .ro, 0, 63⟩, ⟨17, 12, .ro, 0, 63⟩, ⟨22, 18, .ro, 0, 31⟩, ⟨25, 23, .ro, 0, 7⟩, ⟨28, 26, .ro, 0, 7⟩, ⟨29, 29, .ro, 0, 1⟩]⟩ /- SAF_SPARE_INV -/]
/-- Registers of one block (R510). -/
def regsSaf1 : List RegDesc := [
  ⟨0x203014, 1, 8, 1, 8, false, 0, 0x0, [⟨31, 0, .rc, 0, 4294967295⟩]⟩ /- SAF_EMB_DEFER -/,
  ⟨0x203018, 1, 8, 1, 8, false, 0, 0x0, [⟨31, 0, .rc, 0, 4294967295⟩]⟩ /- SAF_EMB_PASS -/,
  ⟨0x20301c, 1, 8, 1, 8, false, 0, 0x0, [⟨15, 0, .ro, 0, 65535⟩, ⟨29, 16, .ro, 0, 16383⟩]⟩ /- SAF_EMB_OLDEST -/,
  ⟨0x203100, 1, 8, 1, 8, false, 0, 0x0, [⟨15, 0, .rw, 0, 65535⟩, ⟨16, 16, .ro, 0, 1⟩]⟩ /- SAF_WEAR_SEL -/,
  ⟨0x203110, 4, 4, 1, 8, false, 0, 0x0, [⟨31, 0, .ro, 0, 4294967295⟩]⟩ /- SAF_WEAR_DATA -/]
/-- Registers of one block (R510). -/
def regsAlm0 : List RegDesc := [
  ⟨0x300000, 1, 8, 1, 8, false, 0, 0x680f00, [⟨0, 0, .ro, 0, 1⟩, ⟨3, 1, .ro, 0, 7⟩, ⟨4, 4, .rw, 0, 1⟩, ⟨5, 5, .rw, 0, 1⟩, ⟨6, 6, .rw, 0, 1⟩, ⟨11, 8, .rw, 0, 15⟩, ⟨18, 12, .rw, 0, 127⟩, ⟨22, 19, .rw, 0, 15⟩, ⟨31, 31, .w1c, 0, 1⟩]⟩ /- ALM_CFG -/,
  ⟨0x300004, 1, 8, 1, 8, false, 0, 0x2710, [⟨16, 0, .rw, 0, 100000⟩]⟩ /- ALM_STEER -/,
  ⟨0x300008, 1, 8, 1, 8, false, 0, 0x2710, [⟨16, 0, .rw, 1, 100000⟩]⟩ /- ALM_SLEW -/,
  ⟨0x300010, 1, 8, 1, 8, false, 0, 0x0, [⟨1, 0, .ro, 0, 3⟩, ⟨4, 2, .ro, 0, 7⟩, ⟨7, 5, .ro, 0, 7⟩, ⟨8, 8, .ro, 0, 1⟩, ⟨9, 9, .ro, 0, 1⟩, ⟨10, 10, .ro, 0, 1⟩, ⟨11, 11, .ro, 0, 1⟩]⟩ /- ALM_STAT -/,
  ⟨0x300014, 1, 8, 1, 8, false, 0, 0x0, [⟨31, 0, .ro, 0, 4294967295⟩]⟩ /- ALM_SEN_RATE -/,
  ⟨0x300020, 1, 8, 1, 8, false, 0, 0x0, [⟨0, 0, .w1s, 0, 1⟩, ⟨1, 1, .ro, 0, 1⟩]⟩ /- ALM_SNAP_CTRL -/,
  ⟨0x300028, 4, 8, 1, 8, true, 0, 0x0, [⟨63, 0, .ro, 0, 18446744073709551615⟩]⟩ /- ALM_SNAP -/,
  ⟨0x300100, 1, 8, 1, 8, false, 0, 0x1fca055, [⟨31, 0, .rw, 0, 4294967295⟩]⟩ /- ALM_KAL_PERIOD -/,
  ⟨0x300104, 1, 8, 1, 8, false, 0, 0x0, [⟨31, 0, .rw, 0, 4294967295⟩]⟩ /- ALM_KAL_PHASE -/,
  ⟨0x300108, 1, 8, 1, 8, false, 0, 0x1e84800, [⟨31, 0, .rw, 0, 4294967295⟩]⟩ /- ALM_VIGIL_OFFSET -/,
  ⟨0x30010c, 1, 8, 1, 8, false, 0, 0x0, [⟨0, 0, .w1s, 0, 1⟩, ⟨1, 1, .ro, 0, 1⟩, ⟨2, 2, .w1c, 0, 1⟩]⟩ /- ALM_KAL_CTRL -/,
  ⟨0x300110, 1, 8, 1, 8, false, 0, 0x0, [⟨31, 0, .ro, 0, 4294967295⟩]⟩ /- ALM_KAL_FRAME_LO -/,
  ⟨0x300114, 1, 8, 1, 8, false, 0, 0x0, [⟨31, 0, .ro, 0, 4294967295⟩]⟩ /- ALM_KAL_FRAME_HI -/,
  ⟨0x300200, 2, 64, 1, 8, false, 0, 0x0, [⟨0, 0, .rw, 0, 1⟩, ⟨2, 1, .rw, 0, 3⟩, ⟨3, 3, .rw, 0, 1⟩, ⟨4, 4, .rw, 0, 1⟩, ⟨12, 5, .rw, 0, 239⟩, ⟨13, 13, .w1s, 0, 1⟩]⟩ /- ALM_DOM_CFG -/,
  ⟨0x300208, 2, 64, 1, 8, true, 0, 0x0, [⟨63, 0, .rw, 0, 18446744073709551615⟩]⟩ /- ALM_DOM_GM -/,
  ⟨0x300210, 2, 64, 1, 8, false, 0, 0x1001000, [⟨15, 0, .rw, 1, 65535⟩, ⟨31, 16, .rw, 0, 65535⟩]⟩ /- ALM_DOM_SERVO -/,
  ⟨0x300214, 2, 64, 1, 8, false, 0, 0x1f40064, [⟨15, 0, .rw, 1, 65535⟩, ⟨31, 16, .rw, 10, 65535⟩]⟩ /- ALM_DOM_LIM -/,
  ⟨0x300218, 2, 64, 1, 8, false, 0, 0x3e8, [⟨31, 0, .rw, 0, 4294967295⟩]⟩ /- ALM_DOM_REACQ -/,
  ⟨0x300220, 2, 64, 1, 8, false, 0, 0x0, [⟨31, 0, .ro, 0, 4294967295⟩]⟩ /- ALM_DOM_OFS -/,
  ⟨0x300224, 2, 64, 1, 8, false, 0, 0x0, [⟨31, 0, .ro, 0, 4294967295⟩]⟩ /- ALM_DOM_RATE -/]
/-- Registers of one block (R510). -/
def regsAlm1 : List RegDesc := [
  ⟨0x300228, 2, 64, 1, 8, false, 0, 0x0, [⟨31, 0, .rc, 0, 4294967295⟩]⟩ /- ALM_DOM_STEPS -/,
  ⟨0x300400, 8, 64, 1, 8, false, 0, 0x10, [⟨2, 0, .rw, 0, 7⟩, ⟨3, 3, .rw, 0, 1⟩, ⟨5, 4, .rw, 0, 3⟩, ⟨6, 6, .rw, 0, 1⟩, ⟨7, 7, .w1s, 0, 1⟩, ⟨8, 8, .ro, 0, 1⟩, ⟨9, 9, .w1c, 0, 1⟩, ⟨10, 10, .w1c, 0, 1⟩]⟩ /- ALM_TIO_CFG -/,
  ⟨0x300408, 8, 64, 1, 8, true, 0, 0x0, [⟨63, 0, .rw, 0, 18446744073709551615⟩]⟩ /- ALM_TIO_START -/,
  ⟨0x300410, 8, 64, 1, 8, false, 0, 0x0, [⟨15, 0, .rw, 0, 65535⟩]⟩ /- ALM_TIO_START_HI -/,
  ⟨0x300414, 8, 64, 1, 8, false, 0, 0x3b9aca00, [⟨31, 0, .rw, 0, 4294967295⟩]⟩ /- ALM_TIO_PERIOD -/,
  ⟨0x300418, 8, 64, 1, 8, false, 0, 0x0, [⟨31, 0, .rw, 0, 4294967295⟩]⟩ /- ALM_TIO_WIDTH -/,
  ⟨0x30041c, 8, 64, 1, 8, false, 0, 0x0, [⟨31, 0, .rw, 0, 4294967295⟩]⟩ /- ALM_TIO_TICKOFS -/,
  ⟨0x300420, 8, 64, 1, 8, true, 0, 0x0, [⟨63, 0, .ro, 0, 18446744073709551615⟩]⟩ /- ALM_TIO_CAP -/,
  ⟨0x300428, 8, 64, 1, 8, false, 0, 0x0, [⟨15, 0, .ro, 0, 65535⟩, ⟨16, 16, .ro, 0, 1⟩, ⟨17, 17, .ro, 0, 1⟩, ⟨22, 18, .ro, 0, 31⟩]⟩ /- ALM_TIO_CAP_HI -/,
  ⟨0x300430, 8, 64, 1, 8, false, 0, 0x0, [⟨31, 0, .rc, 0, 4294967295⟩]⟩ /- ALM_TIO_CAP_LOST -/]
/-- Registers of one block (R510). -/
def regsLam0 : List RegDesc := [
  ⟨0x401000, 16, 64, 1, 8, false, 0, 0x2d11, [⟨0, 0, .rw, 0, 1⟩, ⟨1, 1, .rw, 0, 1⟩, ⟨4, 2, .rw, 0, 7⟩, ⟨15, 8, .rw, 0, 255⟩]⟩ /- LAM_PORT_CFG -/,
  ⟨0x401004, 16, 64, 1, 8, false, 0, 0x0, [⟨15, 0, .rw, 0, 65535⟩]⟩ /- LAM_PORT_LAT -/,
  ⟨0x401008, 16, 64, 1, 8, false, 0, 0x0, [⟨0, 0, .ro, 0, 1⟩]⟩ /- LAM_PORT_STAT -/,
  ⟨0x40100c, 16, 64, 1, 8, false, 0, 0x0, [⟨31, 0, .rc, 0, 4294967295⟩]⟩ /- LAM_PORT_ECC_CORR -/,
  ⟨0x401010, 16, 64, 1, 8, false, 0, 0x0, [⟨31, 0, .rc, 0, 4294967295⟩]⟩ /- LAM_PORT_HDR_ERR -/,
  ⟨0x401014, 16, 64, 1, 8, false, 0, 0x0, [⟨31, 0, .rc, 0, 4294967295⟩]⟩ /- LAM_PORT_CRC_ERR -/,
  ⟨0x404000, 32, 256, 1, 8, false, 0, 0x10001, [⟨0, 0, .rw, 0, 1⟩, ⟨1, 1, .w1s, 0, 1⟩, ⟨2, 2, .ro, 0, 1⟩, ⟨3, 3, .w1c, 0, 1⟩, ⟨7, 4, .rw, 0, 15⟩, ⟨9, 8, .rw, 0, 3⟩, ⟨15, 10, .rw, 0, 63⟩, ⟨16, 16, .rw, 0, 1⟩, ⟨18, 17, .rw, 0, 3⟩, ⟨20, 19, .rw, 0, 3⟩, ⟨21, 21, .rw, 0, 1⟩, ⟨24, 22, .rw, 0, 7⟩, ⟨25, 25, .rw, 0, 1⟩]⟩ /- LAM_STR_CFG -/,
  ⟨0x404004, 32, 256, 1, 8, false, 0, 0xfa04000, [⟨15, 0, .rw, 0, 65535⟩, ⟨31, 16, .rw, 0, 65535⟩]⟩ /- LAM_STR_DIM -/,
  ⟨0x404008, 32, 256, 1, 8, false, 0, 0x1f403e8, [⟨15, 0, .rw, 0, 65535⟩, ⟨31, 16, .rw, 0, 65535⟩]⟩ /- LAM_STR_TMO -/,
  ⟨0x404010, 32, 256, 1, 8, true, 0, 0x0, [⟨63, 0, .rw, 0, 18446744073709551615⟩]⟩ /- LAM_STR_RING -/,
  ⟨0x404018, 32, 256, 1, 8, false, 0, 0x3e90003, [⟨4, 0, .rw, 0, 31⟩, ⟨31, 16, .ro, 0, 65535⟩]⟩ /- LAM_STR_BUFS -/,
  ⟨0x404020, 32, 256, 4, 4, false, 0, 0x0, [⟨31, 0, .rw, 0, 4294967295⟩]⟩ /- LAM_STR_CM -/,
  ⟨0x404030, 32, 256, 1, 8, false, 0, 0x4000, [⟨15, 0, .rw, 0, 65535⟩]⟩ /- LAM_STR_CM4 -/,
  ⟨0x404034, 32, 256, 3, 4, false, 0, 0x0, [⟨31, 0, .rw, 0, 4294967295⟩]⟩ /- LAM_STR_OFS -/,
  ⟨0x404040, 32, 256, 3, 4, false, 0, 0x0, [⟨31, 0, .rw, 0, 4294967295⟩]⟩ /- LAM_STR_MEAN -/,
  ⟨0x40404c, 32, 256, 3, 4, false, 0, 0x3f800000, [⟨31, 0, .rw, 0, 4294967295⟩]⟩ /- LAM_STR_SCALE -/,
  ⟨0x404058, 32, 256, 1, 8, false, 0, 0x0, [⟨3, 0, .ro, 0, 15⟩, ⟨7, 4, .ro, 0, 15⟩, ⟨8, 8, .ro, 0, 1⟩]⟩ /- LAM_STR_STAT -/,
  ⟨0x40405c, 32, 256, 1, 8, false, 0, 0x0, [⟨31, 0, .ro, 0, 4294967295⟩]⟩ /- LAM_STR_SEQ -/,
  ⟨0x404060, 32, 256, 1, 8, false, 0, 0x0, [⟨31, 0, .rc, 0, 4294967295⟩]⟩ /- LAM_STR_FAIL -/,
  ⟨0x404064, 32, 256, 1, 8, false, 0, 0x0, [⟨31, 0, .rc, 0, 4294967295⟩]⟩ /- LAM_STR_DROP -/,
  ⟨0x408000, 4, 1024, 1, 8, false, 0, 0xa0081, [⟨0, 0, .rw, 0, 1⟩, ⟨1, 1, .w1s, 0, 1⟩, ⟨2, 2, .ro, 0, 1⟩, ⟨3, 3, .w1c, 0, 1⟩, ⟨4, 4, .rw, 0, 1⟩, ⟨5, 5, .rw, 0, 1⟩, ⟨7, 6, .rw, 0, 3⟩, ⟨15, 8, .rw, 0, 255⟩, ⟨22, 16, .rw, 0, 127⟩]⟩ /- LAM_LID_CFG -/]
/-- Registers of one block (R510). -/
def regsLam1 : List RegDesc := [
  ⟨0x408004, 4, 1024, 1, 8, false, 0, 0x0, [⟨15, 0, .rw, 0, 65535⟩]⟩ /- LAM_LID_UDP -/,
  ⟨0x408008, 4, 1024, 1, 8, false, 0, 0x0, [⟨31, 0, .rw, 0, 4294967295⟩]⟩ /- LAM_LID_SRC_IP -/,
  ⟨0x40800c, 4, 1024, 1, 8, false, 0, 0x200000, [⟨21, 0, .rw, 0, 4194303⟩]⟩ /- LAM_LID_MAXPTS -/,
  ⟨0x408010, 4, 1024, 1, 8, false, 0, 0x3e8, [⟨15, 0, .rw, 0, 65535⟩]⟩ /- LAM_LID_CAP -/,
  ⟨0x408014, 4, 1024, 1, 8, false, 0, 0x1010000, [⟨15, 0, .rw, 0, 65535⟩, ⟨23, 16, .rw, 0, 255⟩, ⟨31, 24, .rw, 0, 255⟩]⟩ /- LAM_LID_LAYOUT0 -/,
  ⟨0x408018, 4, 1024, 1, 8, false, 0, 0x0, [⟨15, 0, .rw, 0, 65535⟩, ⟨31, 16, .rw, 0, 65535⟩]⟩ /- LAM_LID_LAYOUT1 -/,
  ⟨0x40801c, 4, 1024, 1, 8, false, 0, 0x0, [⟨15, 0, .rw, 0, 65535⟩, ⟨31, 16, .rw, 0, 65535⟩]⟩ /- LAM_LID_LAYOUT2 -/,
  ⟨0x408020, 4, 1024, 1, 8, false, 0, 0x43960000, [⟨31, 0, .rw, 0, 4294967295⟩]⟩ /- LAM_LID_LIMIT -/,
  ⟨0x408024, 4, 1024, 1, 8, false, 0, 0x1e8480, [⟨31, 0, .rw, 0, 4294967295⟩]⟩ /- LAM_LID_TIMEWIN -/,
  ⟨0x408028, 4, 1024, 1, 8, false, 0, 0x7d01388, [⟨15, 0, .rw, 0, 65535⟩, ⟨31, 16, .rw, 0, 65535⟩]⟩ /- LAM_LID_TMO -/,
  ⟨0x40802c, 4, 1024, 1, 8, false, 0, 0x0, [⟨15, 0, .rw, 0, 65535⟩]⟩ /- LAM_LID_LAT -/,
  ⟨0x408030, 4, 1024, 1, 8, true, 0, 0x0, [⟨63, 0, .rw, 0, 18446744073709551615⟩]⟩ /- LAM_LID_RING -/,
  ⟨0x408038, 4, 1024, 1, 8, false, 0, 0x3e90003, [⟨4, 0, .rw, 0, 31⟩, ⟨31, 16, .ro, 0, 65535⟩]⟩ /- LAM_LID_BUFS -/,
  ⟨0x408058, 4, 1024, 1, 8, false, 0, 0x0, [⟨3, 0, .ro, 0, 15⟩, ⟨7, 4, .ro, 0, 15⟩, ⟨8, 8, .ro, 0, 1⟩]⟩ /- LAM_LID_STAT -/,
  ⟨0x40805c, 4, 1024, 1, 8, false, 0, 0x0, [⟨31, 0, .ro, 0, 4294967295⟩]⟩ /- LAM_LID_SEQ -/,
  ⟨0x408060, 4, 1024, 1, 8, false, 0, 0x0, [⟨31, 0, .rc, 0, 4294967295⟩]⟩ /- LAM_LID_FAIL -/,
  ⟨0x408064, 4, 1024, 1, 8, false, 0, 0x0, [⟨31, 0, .rc, 0, 4294967295⟩]⟩ /- LAM_LID_DROP -/,
  ⟨0x408100, 4, 1024, 16, 16, true, 0, 0x0, [⟨63, 0, .rw, 0, 18446744073709551615⟩]⟩ /- LAM_LID_FIELD -/,
  ⟨0x40a000, 4, 2048, 512, 4, false, 0, 0x0, [⟨31, 0, .rw, 0, 4294967295⟩]⟩ /- LAM_LID_ELEV -/,
  ⟨0x410000, 1, 8, 1, 8, false, 0, 0x0, [⟨0, 0, .w1s, 0, 1⟩, ⟨1, 1, .w1s, 0, 1⟩, ⟨2, 2, .ro, 0, 1⟩, ⟨3, 3, .rw, 0, 1⟩, ⟨4, 4, .rw, 0, 1⟩, ⟨5, 5, .w1c, 0, 1⟩, ⟨13, 6, .ro, 0, 255⟩, ⟨17, 14, .rw, 0, 15⟩]⟩ /- RPL_CTRL -/]
/-- Registers of one block (R510). -/
def regsLam2 : List RegDesc := [
  ⟨0x410008, 1, 8, 1, 8, true, 0, 0x0, [⟨63, 0, .rw, 0, 18446744073709551615⟩]⟩ /- RPL_TABLE -/,
  ⟨0x410010, 1, 8, 1, 8, false, 0, 0x0, [⟨31, 0, .rw, 0, 4294967295⟩]⟩ /- RPL_COUNT -/,
  ⟨0x410014, 1, 8, 1, 8, false, 0, 0x0, [⟨31, 0, .rw, 0, 4294967295⟩]⟩ /- RPL_FIRST -/,
  ⟨0x410018, 1, 8, 1, 8, true, 0, 0x0, [⟨63, 0, .rw, 0, 18446744073709551615⟩]⟩ /- RPL_SEED -/,
  ⟨0x410020, 1, 8, 1, 8, false, 0, 0x0, [⟨31, 0, .rw, 0, 4294967295⟩]⟩ /- RPL_EPOCH -/,
  ⟨0x410028, 1, 8, 1, 8, true, 0, 0x0, [⟨63, 0, .rw, 0, 18446744073709551615⟩]⟩ /- RPL_OUT -/,
  ⟨0x410030, 1, 8, 1, 8, false, 0, 0x400004, [⟨10, 0, .rw, 0, 2047⟩, ⟨31, 16, .rw, 0, 65535⟩]⟩ /- RPL_SLOTS -/,
  ⟨0x410034, 1, 8, 1, 8, false, 0, 0x4000, [⟨13, 0, .rw, 0, 16383⟩, ⟨27, 14, .rw, 0, 16383⟩]⟩ /- RPL_FLAG -/,
  ⟨0x410038, 1, 8, 1, 8, false, 0, 0x20002000, [⟨15, 0, .rw, 0, 65535⟩, ⟨31, 16, .rw, 0, 65535⟩]⟩ /- RPL_MAX -/,
  ⟨0x41003c, 1, 8, 1, 8, false, 0, 0x200000, [⟨21, 0, .rw, 0, 4194303⟩]⟩ /- RPL_MAXPTS -/,
  ⟨0x410040, 1, 8, 1, 8, false, 0, 0x0, [⟨15, 0, .rw, 0, 65535⟩, ⟨31, 16, .rw, 0, 65535⟩]⟩ /- RPL_CROP -/,
  ⟨0x410044, 1, 8, 1, 8, false, 0, 0x0, [⟨2, 0, .rw, 0, 7⟩, ⟨3, 3, .rw, 0, 1⟩]⟩ /- RPL_FMT -/,
  ⟨0x410048, 3, 4, 1, 8, false, 0, 0x0, [⟨31, 0, .rw, 0, 4294967295⟩]⟩ /- RPL_MEAN -/,
  ⟨0x410054, 3, 4, 1, 8, false, 0, 0x3f800000, [⟨31, 0, .rw, 0, 4294967295⟩]⟩ /- RPL_SCALE -/,
  ⟨0x410060, 1, 8, 1, 8, false, 0, 0x0, [⟨31, 0, .rw, 0, 4294967295⟩]⟩ /- RPL_JITTER_M -/,
  ⟨0x410064, 1, 8, 1, 8, false, 0, 0x0, [⟨31, 0, .rw, 0, 4294967295⟩]⟩ /- RPL_JITTER_S -/,
  ⟨0x410068, 1, 8, 1, 8, false, 0, 0x3208, [⟨7, 0, .rw, 0, 255⟩, ⟨23, 8, .rw, 0, 65535⟩]⟩ /- RPL_BUDGET -/,
  ⟨0x41006c, 1, 8, 1, 8, false, 0, 0x1e8480, [⟨31, 0, .rw, 0, 4294967295⟩]⟩ /- RPL_INIT -/,
  ⟨0x410070, 1, 8, 1, 8, false, 0, 0x0, [⟨31, 0, .ro, 0, 4294967295⟩]⟩ /- RPL_POS -/,
  ⟨0x410074, 2, 4, 1, 8, false, 0, 0x0, [⟨31, 0, .ro, 0, 4294967295⟩]⟩ /- RPL_AVG -/]
/-- Registers of one block (R510). -/
def regsLam3 : List RegDesc := [
  ⟨0x41007c, 1, 8, 1, 8, false, 0, 0x0, [⟨31, 0, .rc, 0, 4294967295⟩]⟩ /- RPL_LATE -/,
  ⟨0x410080, 1, 8, 1, 8, false, 0, 0x0, [⟨31, 0, .rc, 0, 4294967295⟩]⟩ /- RPL_IMPL -/,
  ⟨0x410084, 1, 8, 1, 8, false, 0, 0x0, [⟨31, 0, .rc, 0, 4294967295⟩]⟩ /- RPL_ERR -/]
/-- Registers of one block (R510). -/
def regsPwr : List RegDesc := [
  ⟨0x500000, 1, 8, 1, 8, false, 0, 0x14c00, [⟨8, 0, .rw, 0, 511⟩, ⟨9, 9, .w1c, 0, 1⟩, ⟨12, 10, .rw, 0, 7⟩, ⟨22, 13, .rw, 1, 1000⟩]⟩ /- PWR_CTRL -/,
  ⟨0x500004, 1, 8, 1, 8, false, 0, 0x5f69, [⟨7, 0, .rw, 60, 114⟩, ⟨15, 8, .rw, 60, 104⟩]⟩ /- PWR_THERM -/,
  ⟨0x500100, 16, 4, 1, 8, false, 0, 0x438, [⟨2, 0, .rw, 0, 7⟩, ⟨5, 3, .rw, 0, 7⟩, ⟨13, 6, .rw, 1, 255⟩]⟩ /- PWR_PART_CFG -/,
  ⟨0x500200, 6, 16, 1, 8, false, 0, 0x1c0, [⟨2, 0, .ro, 0, 7⟩, ⟨5, 3, .ro, 0, 7⟩, ⟨8, 6, .ro, 0, 7⟩, ⟨9, 9, .ro, 0, 1⟩, ⟨23, 16, .ro, 0, 255⟩]⟩ /- PWR_REG_STAT -/,
  ⟨0x500204, 6, 16, 1, 8, false, 0, 0x0, [⟨31, 0, .ro, 0, 4294967295⟩]⟩ /- PWR_REG_POWER -/,
  ⟨0x500208, 6, 16, 1, 8, false, 0, 0x0, [⟨31, 0, .ro, 0, 4294967295⟩]⟩ /- PWR_REG_EST -/,
  ⟨0x500300, 1, 8, 1, 8, false, 0, 0x0, [⟨8, 0, .ro, 0, 511⟩, ⟨9, 9, .ro, 0, 1⟩, ⟨10, 10, .ro, 0, 1⟩, ⟨11, 11, .ro, 0, 1⟩, ⟨12, 12, .ro, 0, 1⟩, ⟨13, 13, .ro, 0, 1⟩]⟩ /- PWR_STAT -/,
  ⟨0x500304, 1, 8, 1, 8, false, 0, 0x0, [⟨31, 0, .ro, 0, 4294967295⟩]⟩ /- PWR_PKG_POWER -/,
  ⟨0x500308, 1, 8, 1, 8, false, 0, 0x0, [⟨7, 0, .ro, 0, 255⟩, ⟨15, 8, .ro, 0, 255⟩]⟩ /- PWR_HBM_TEMP -/,
  ⟨0x500310, 1, 8, 1, 8, false, 0, 0x0, [⟨31, 0, .rc, 0, 4294967295⟩]⟩ /- PWR_DROOP -/,
  ⟨0x500400, 8, 4, 1, 8, false, 0, 0x0, [⟨31, 0, .ro, 0, 4294967295⟩]⟩ /- PWR_DOM_STAT -/,
  ⟨0x500500, 1, 8, 1, 8, false, 0, 0x0, [⟨0, 0, .w1s, 0, 1⟩, ⟨1, 1, .w1s, 0, 1⟩, ⟨2, 2, .w1s, 0, 1⟩, ⟨4, 3, .ro, 0, 3⟩, ⟨5, 5, .w1c, 0, 1⟩, ⟨6, 6, .ro, 0, 1⟩]⟩ /- PWR_LP_CTRL -/,
  ⟨0x500508, 1, 8, 1, 8, true, 0, 0x0, [⟨63, 0, .rw, 0, 18446744073709551615⟩]⟩ /- PWR_LP_WAKE -/]
/-- Registers of one block (R510). -/
def regsLnk : List RegDesc := [
  ⟨0x600000, 1, 8, 1, 8, false, 0, 0x0, [⟨4, 0, .rw, 0, 31⟩, ⟨9, 5, .rw, 0, 31⟩, ⟨14, 10, .rw, 0, 31⟩, ⟨19, 15, .rw, 0, 31⟩, ⟨24, 20, .rw, 0, 31⟩, ⟨29, 25, .rw, 0, 31⟩]⟩ /- LNK_TOPO -/,
  ⟨0x600004, 1, 8, 1, 8, false, 0, 0x3f, [⟨5, 0, .rw, 0, 63⟩, ⟨6, 6, .rw, 0, 1⟩, ⟨7, 7, .w1c, 0, 1⟩]⟩ /- LNK_CTRL -/,
  ⟨0x600100, 6, 32, 1, 8, false, 0, 0x0, [⟨1, 0, .ro, 0, 3⟩, ⟨6, 2, .ro, 0, 31⟩, ⟨7, 7, .ro, 0, 1⟩, ⟨22, 8, .ro, 0, 32767⟩]⟩ /- LNK_PORT_STAT -/,
  ⟨0x600104, 6, 32, 1, 8, false, 0, 0x0, [⟨31, 0, .rc, 0, 4294967295⟩]⟩ /- LNK_PORT_RETRY -/,
  ⟨0x600108, 6, 32, 1, 8, false, 0, 0x0, [⟨31, 0, .rc, 0, 4294967295⟩]⟩ /- LNK_PORT_DOWNS -/,
  ⟨0x600200, 1, 8, 1, 8, false, 0, 0x0, [⟨0, 0, .rw, 0, 1⟩, ⟨1, 1, .rw, 0, 1⟩]⟩ /- LNK_GROUP -/,
  ⟨0x600208, 1, 8, 1, 8, true, 0, 0x0, [⟨59, 0, .rw, 0, 1152921504606846975⟩, ⟨63, 60, .rw, 0, 15⟩]⟩ /- LNK_GROUP_MEM -/,
  ⟨0x600300, 1, 8, 1, 8, false, 0, 0x0, [⟨9, 0, .rw, 0, 1023⟩]⟩ /- LNK_WIN_SEL -/,
  ⟨0x600304, 1, 8, 1, 8, false, 0, 0x0, [⟨0, 0, .ro, 0, 1⟩, ⟨1, 1, .ro, 0, 1⟩, ⟨5, 2, .ro, 0, 15⟩, ⟨31, 16, .ro, 0, 65535⟩]⟩ /- LNK_WIN_STAT -/,
  ⟨0x600310, 1, 8, 1, 8, false, 0, 0x0, [⟨31, 0, .rc, 0, 4294967295⟩]⟩ /- LNK_EPOCH_DROP -/,
  ⟨0x600314, 1, 8, 1, 8, false, 0, 0x0, [⟨31, 0, .rc, 0, 4294967295⟩]⟩ /- LNK_DENIED -/]
/-- Registers of one block (R510). -/
def regsKvu : List RegDesc := [
  ⟨0x700000, 16, 16, 1, 8, false, 0, 0x0, [⟨31, 0, .ro, 0, 4294967295⟩]⟩ /- KVU_POOL_TOTAL -/,
  ⟨0x700004, 16, 16, 1, 8, false, 0, 0x0, [⟨31, 0, .ro, 0, 4294967295⟩]⟩ /- KVU_POOL_FREE -/,
  ⟨0x700008, 16, 16, 1, 8, false, 0, 0x0, [⟨3, 0, .ro, 0, 15⟩]⟩ /- KVU_POOL_LARGEST -/,
  ⟨0x700100, 1, 8, 1, 8, false, 0, 0x0, [⟨17, 0, .ro, 0, 262143⟩]⟩ /- KVU_BUSHEL_USED -/,
  ⟨0x700104, 1, 8, 1, 8, false, 0, 0x0, [⟨31, 0, .rc, 0, 4294967295⟩]⟩ /- KVU_ALLOC_FAIL -/,
  ⟨0x700108, 1, 8, 1, 8, false, 0, 0x0, [⟨31, 0, .rc, 0, 4294967295⟩]⟩ /- KVU_COW -/,
  ⟨0x70010c, 1, 8, 1, 8, false, 0, 0x0, [⟨31, 0, .rc, 0, 4294967295⟩]⟩ /- KVU_STALE -/,
  ⟨0x700200, 1, 8, 1, 8, false, 0, 0x0, [⟨5, 0, .ro, 0, 63⟩, ⟨11, 6, .ro, 0, 63⟩]⟩ /- KVU_UNIT -/,
  ⟨0x700300, 1, 8, 1, 8, false, 0, 0x0, [⟨17, 0, .rw, 0, 262143⟩]⟩ /- KVU_ENTRY_SEL -/,
  ⟨0x700310, 4, 4, 1, 8, false, 0, 0x0, [⟨31, 0, .ro, 0, 4294967295⟩]⟩ /- KVU_ENTRY_DATA -/]
/-- Registers of one block (R510). -/
def regsMem : List RegDesc := [
  ⟨0x800000, 16, 16, 1, 8, false, 0, 0x0, [⟨9, 0, .rw, 0, 767⟩, ⟨25, 16, .rw, 0, 768⟩]⟩ /- MEM_PART_RANGE -/,
  ⟨0x800100, 17, 16, 2, 8, false, 0, 0x4000000, [⟨12, 0, .rw, 0, 8191⟩, ⟨31, 16, .rw, 0, 65535⟩]⟩ /- MEM_RSV -/,
  ⟨0x800300, 1, 8, 1, 8, false, 0, 0x0, [⟨0, 0, .w1s, 0, 1⟩, ⟨1, 1, .ro, 0, 1⟩, ⟨2, 2, .w1c, 0, 1⟩]⟩ /- MEM_RSV_CTRL -/,
  ⟨0x800310, 1, 8, 1, 8, false, 0, 0x1801, [⟨0, 0, .rw, 0, 1⟩, ⟨15, 8, .rw, 1, 168⟩]⟩ /- MEM_PATROL -/,
  ⟨0x800400, 1, 8, 1, 8, false, 0, 0x0, [⟨31, 0, .rc, 0, 4294967295⟩]⟩ /- MEM_SRAM_CE -/,
  ⟨0x800404, 1, 8, 1, 8, false, 0, 0x0, [⟨31, 0, .rc, 0, 4294967295⟩]⟩ /- MEM_SRAM_UE -/,
  ⟨0x800410, 2, 8, 1, 8, false, 0, 0x0, [⟨31, 0, .rc, 0, 4294967295⟩]⟩ /- MEM_HBM_CE -/,
  ⟨0x800414, 2, 8, 1, 8, false, 0, 0x0, [⟨31, 0, .rc, 0, 4294967295⟩]⟩ /- MEM_HBM_UE -/,
  ⟨0x800420, 2, 4, 1, 8, false, 0, 0x0, [⟨31, 0, .ro, 0, 4294967295⟩]⟩ /- MEM_POISONED -/,
  ⟨0x800500, 2, 16, 1, 8, false, 0, 0x0, [⟨7, 0, .ro, 0, 255⟩, ⟨15, 8, .ro, 0, 255⟩, ⟨23, 16, .ro, 0, 255⟩, ⟨31, 24, .ro, 0, 255⟩]⟩ /- MEM_HBM_REPAIR -/]
/-- Registers of one block (R510). -/
def regsSec : List RegDesc := [
  ⟨0x900000, 1, 8, 1, 8, false, 0, 0x0, [⟨1, 0, .ro, 0, 3⟩, ⟨8, 2, .ro, 0, 127⟩, ⟨15, 9, .ro, 0, 127⟩, ⟨23, 16, .ro, 0, 255⟩, ⟨24, 24, .ro, 0, 1⟩, ⟨25, 25, .ro, 0, 1⟩, ⟨26, 26, .ro, 0, 1⟩]⟩ /- SEC_STAT -/,
  ⟨0x900008, 1, 8, 1, 8, true, 0, 0x0, [⟨63, 0, .ro, 0, 18446744073709551615⟩]⟩ /- SEC_DIE_ID -/,
  ⟨0x900010, 8, 4, 1, 8, false, 0, 0x0, [⟨31, 0, .ro, 0, 4294967295⟩]⟩ /- SEC_RUN_DIGEST -/,
  ⟨0x900100, 1, 8, 1, 8, true, 6, 0x0, [⟨63, 0, .rw, 0, 18446744073709551615⟩]⟩ /- SEC_UPD_SRC -/,
  ⟨0x900108, 1, 8, 1, 8, false, 0, 0x0, [⟨22, 0, .rw, 2048, 4194304⟩]⟩ /- SEC_UPD_LEN -/,
  ⟨0x90010c, 1, 8, 1, 8, false, 0, 0x0, [⟨0, 0, .w1s, 0, 1⟩, ⟨1, 1, .w1s, 0, 1⟩, ⟨2, 2, .w1s, 0, 1⟩, ⟨3, 3, .ro, 0, 1⟩]⟩ /- SEC_UPD_CTRL -/,
  ⟨0x900110, 1, 8, 1, 8, false, 0, 0x0, [⟨2, 0, .ro, 0, 7⟩, ⟨7, 3, .ro, 0, 31⟩, ⟨8, 8, .w1c, 0, 1⟩, ⟨31, 16, .ro, 0, 65535⟩]⟩ /- SEC_UPD_STAT -/,
  ⟨0x900120, 1, 8, 1, 8, false, 0, 0x0, [⟨0, 0, .w1s, 0, 1⟩, ⟨1, 1, .ro, 0, 1⟩]⟩ /- SEC_SVN -/,
  ⟨0x900130, 1, 8, 1, 8, false, 0, 0x0, [⟨1, 0, .rw, 0, 3⟩, ⟨2, 2, .w1s, 0, 1⟩, ⟨3, 3, .ro, 0, 1⟩]⟩ /- SEC_FUSE_PROG -/,
  ⟨0x900200, 8, 4, 1, 8, false, 0, 0x0, [⟨31, 0, .rw, 0, 4294967295⟩]⟩ /- SEC_ATT_NONCE -/,
  ⟨0x900220, 1, 8, 1, 8, true, 0, 0x0, [⟨63, 0, .rw, 0, 18446744073709551615⟩]⟩ /- SEC_ATT_DST -/,
  ⟨0x900228, 1, 8, 1, 8, false, 0, 0xffff0000, [⟨0, 0, .w1s, 0, 1⟩, ⟨1, 1, .ro, 0, 1⟩, ⟨9, 2, .ro, 0, 255⟩, ⟨31, 16, .rw, 0, 65535⟩]⟩ /- SEC_ATT_CTRL -/,
  ⟨0x900300, 1, 8, 1, 8, false, 0, 0x0, [⟨15, 0, .rw, 0, 65535⟩, ⟨16, 16, .w1c, 0, 1⟩]⟩ /- SEC_SIGREQ -/,
  ⟨0x901000, 512, 4, 1, 8, false, 0, 0x0, [⟨31, 0, .ro, 0, 4294967295⟩]⟩ /- SEC_CERT -/]
/-- Registers of one block (R510). -/
def regsSch0 : List RegDesc := [
  ⟨0xa00000, 1, 8, 1, 8, false, 0, 0x0, [⟨0, 0, .w1s, 0, 1⟩, ⟨1, 1, .ro, 0, 1⟩, ⟨2, 2, .ro, 0, 1⟩, ⟨3, 3, .ro, 0, 1⟩, ⟨5, 4, .ro, 0, 3⟩, ⟨6, 6, .ro, 0, 1⟩]⟩ /- SCH_ORDO_CTRL -/,
  ⟨0xa00004, 1, 8, 1, 8, false, 0, 0x0, [⟨7, 0, .ro, 0, 255⟩, ⟨17, 8, .ro, 0, 1023⟩, ⟨18, 18, .w1c, 0, 1⟩, ⟨20, 19, .ro, 0, 3⟩, ⟨22, 21, .ro, 0, 3⟩]⟩ /- SCH_ORDO_STATUS -/,
  ⟨0xa00008, 1, 8, 1, 8, true, 6, 0x0, [⟨63, 0, .rw, 0, 18446744073709551615⟩]⟩ /- SCH_ORDO_SRC -/,
  ⟨0xa00010, 1, 8, 1, 8, true, 6, 0x0, [⟨63, 0, .rw, 0, 18446744073709551615⟩]⟩ /- SCH_ROSTER_BASE -/,
  ⟨0xa00018, 1, 8, 1, 8, false, 0, 0xc8, [⟨9, 0, .rw, 50, 1000⟩]⟩ /- SCH_ROSTER_TMO -/,
  ⟨0xa00100, 1, 8, 1, 8, false, 0, 0x0, [⟨11, 0, .ro, 0, 4095⟩, ⟨15, 12, .ro, 0, 15⟩, ⟨29, 16, .ro, 0, 16383⟩, ⟨30, 30, .ro, 0, 1⟩]⟩ /- SCH_MUTUAL_A -/,
  ⟨0xa00104, 1, 8, 1, 8, false, 0, 0x0, [⟨11, 0, .ro, 0, 4095⟩, ⟨15, 12, .ro, 0, 15⟩, ⟨29, 16, .ro, 0, 16383⟩, ⟨30, 30, .ro, 0, 1⟩]⟩ /- SCH_MUTUAL_B -/,
  ⟨0xa00108, 1, 8, 1, 8, false, 0, 0x0, [⟨0, 0, .w1c, 0, 1⟩, ⟨15, 8, .ro, 0, 255⟩]⟩ /- SCH_MUTUAL_STAT -/,
  ⟨0xa0010c, 1, 8, 1, 8, false, 0, 0x0, [⟨31, 0, .ro, 0, 4294967295⟩]⟩ /- SCH_MUTUAL_FRAME -/,
  ⟨0xa00120, 1, 8, 1, 8, false, 0, 0x0, [⟨13, 0, .rw, 0, 16383⟩, ⟨28, 14, .rw, 0, 32767⟩, ⟨29, 29, .w1s, 0, 1⟩, ⟨30, 30, .ro, 0, 1⟩, ⟨31, 31, .w1c, 0, 1⟩]⟩ /- SCH_FLAG_CLR -/,
  ⟨0xa00400, 3, 4, 1, 8, false, 0, 0x0, [⟨31, 0, .rw, 0, 4294967295⟩]⟩ /- SCH_CLU_PART -/,
  ⟨0xa0040c, 1, 8, 1, 8, false, 0, 0x0, [⟨23, 0, .rw, 0, 16777215⟩]⟩ /- SCH_ATTN_PART -/,
  ⟨0xa00410, 1, 8, 1, 8, false, 0, 0x0, [⟨0, 0, .w1s, 0, 1⟩, ⟨1, 1, .ro, 0, 1⟩, ⟨2, 2, .w1c, 0, 1⟩]⟩ /- SCH_PART_CTRL -/,
  ⟨0xa00420, 1, 8, 1, 8, true, 22, 0x5b0000000, [⟨63, 0, .rw, 0, 18446744073709551615⟩]⟩ /- SCH_SWAP_BASE -/,
  ⟨0xa00500, 16, 16, 1, 8, false, 0, 0x0, [⟨0, 0, .rw, 0, 1⟩]⟩ /- SCH_PART_CFG -/,
  ⟨0xa00508, 16, 16, 1, 8, true, 12, 0x0, [⟨63, 0, .rw, 0, 18446744073709551615⟩]⟩ /- SCH_PART_TLIST -/,
  ⟨0xa00600, 16, 4, 1, 8, false, 0, 0x0, [⟨15, 0, .ro, 0, 65535⟩, ⟨31, 16, .ro, 0, 65535⟩]⟩ /- SCH_PART_SLOW -/,
  ⟨0xa00800, 1, 8, 1, 8, false, 0, 0x0, [⟨11, 0, .rw, 0, 4095⟩, ⟨15, 12, .rw, 0, 15⟩, ⟨16, 16, .w1c, 0, 1⟩]⟩ /- SCH_CTX_SEL -/,
  ⟨0xa00804, 1, 8, 1, 8, false, 0, 0x5, [⟨1, 0, .rw, 0, 3⟩, ⟨9, 2, .rw, 1, 255⟩]⟩ /- SCH_CTX_SCHED -/,
  ⟨0xa00808, 1, 8, 1, 8, false, 0, 0x0, [⟨0, 0, .ro, 0, 1⟩, ⟨1, 1, .ro, 0, 1⟩, ⟨2, 2, .ro, 0, 1⟩, ⟨3, 3, .ro, 0, 1⟩]⟩ /- SCH_CTX_STATE -/]
/-- Registers of one block (R510). -/
def regsSch1 : List RegDesc := [
  ⟨0xa00810, 1, 8, 1, 8, false, 0, 0x0, [⟨15, 0, .ro, 0, 65535⟩]⟩ /- SCH_CTX_LAST -/,
  ⟨0xa00814, 1, 8, 1, 8, false, 0, 0x0, [⟨15, 0, .rc, 0, 65535⟩]⟩ /- SCH_CTX_PEAK -/,
  ⟨0xa00818, 1, 8, 1, 8, false, 0, 0x0, [⟨15, 0, .ro, 0, 65535⟩, ⟨31, 16, .ro, 0, 65535⟩]⟩ /- SCH_CTX_FRAME -/,
  ⟨0xa0081c, 1, 8, 1, 8, false, 0, 0x0, [⟨31, 0, .rc, 0, 4294967295⟩]⟩ /- SCH_CTX_PREEMPT -/,
  ⟨0xa10000, 16384, 4, 1, 8, false, 0, 0x0, [⟨31, 0, .ro, 0, 4294967295⟩]⟩ /- SCH_FLAG_VAL -/]
/-- Registers of one block (R510). -/
def regsCd : List RegDesc := [
  ⟨0x1010000, 12, 256, 1, 8, false, 0, 0x0, [⟨31, 0, .ro, 0, 4294967295⟩]⟩ /- CD0_CLU_LEAP -/,
  ⟨0x1010004, 12, 256, 1, 8, false, 0, 0x7, [⟨31, 0, .ro, 0, 4294967295⟩]⟩ /- CD0_CLU_LOAN -/,
  ⟨0x2010000, 12, 256, 1, 8, false, 0, 0x0, [⟨31, 0, .ro, 0, 4294967295⟩]⟩ /- CD1_CLU_LEAP -/,
  ⟨0x2010004, 12, 256, 1, 8, false, 0, 0x7, [⟨31, 0, .ro, 0, 4294967295⟩]⟩ /- CD1_CLU_LOAN -/]

/-- The table of the block that an offset lies in (Table 1 of R510). -/
def regBlock (b : Nat) : List RegDesc :=
  match b with
  | 0 => regsHif
  | 1 => regsFlt
  | 2 => regsSaf0 ++ regsSaf1
  | 3 => regsAlm0 ++ regsAlm1
  | 4 => regsLam0 ++ regsLam1 ++ regsLam2 ++ regsLam3
  | 5 => regsPwr
  | 6 => regsLnk
  | 7 => regsKvu
  | 8 => regsMem
  | 9 => regsSec
  | 10 => regsSch0 ++ regsSch1
  | _ => if b / 16 = 1 ∨ b / 16 = 2 then regsCd else []

/-- Does offset `o` lie in the register array `r`? The answer is the two indices and the byte within the register. -/
def RegDesc.hit (r : RegDesc) (o : Nat) : Option (Nat × Nat × Nat) :=
  if o < r.addr then none else
  let x := o - r.addr
  let i := x / r.s1
  let y := if r.n1 = 1 then x else x % r.s1
  let i := if r.n1 = 1 then 0 else i
  let j := if r.n2 = 1 then 0 else y / r.s2
  let z := if r.n2 = 1 then y else y % r.s2
  if i < r.n1 ∧ j < r.n2 ∧ z < (if r.wide then 8 else 4) then some (i, j, z) else none

/-- The first register of a list that holds offset `o`. -/
def findReg (o : Nat) : List RegDesc → Option (RegDesc × Nat × Nat × Nat)
  | [] => none
  | r :: rs =>
    match r.hit o with
    | some (i, j, z) => some (r, i, j, z)
    | none => findReg o rs

/-- The register that holds BAR0 offset `o`, if any (R511). -/
def lookupReg (o : Nat) : Option (RegDesc × Nat × Nat × Nat) := findReg o (regBlock (o / 0x100000))

/-- The reset value of element `i`, `j` of a register array, where it depends on the variant or on the index (Tables of R4, R69 to
R72, R93, R103, R146, R147, R427, R429, R472). `one` says that the part has one compute die. -/
def regResetAt (one : Bool) (tdp : Nat) (r : RegDesc) (i j : Nat) : Nat :=
  if r.addr = 0x2000 then (if i = 0 then 16384 * 2 ^ 14 else 0)
  else if r.addr = 0x300200 then i * 2 ^ 5
  else if r.addr = 0x300400 then r.rst + (if i < 4 then 3 else if i = 7 then 2 else 0)
  else if r.addr = 0x300418 then (if i < 4 then 100000 else if i = 7 then 100000000 else 10)
  else if r.addr = 0x404000 then r.rst + (i / 2) * 2 ^ 4 + (i % 2) * 2 ^ 8
  else if r.addr = 0x404010 then 0x400000000 + i * 0xC000000
  else if r.addr = 0x408030 then 0x400000000 + (32 + i) * 0xC000000
  else if r.addr = 0x404020 then (if j = 0 ∨ j = 2 then 0x4000 else 0)
  else if r.addr = 0x500000 then r.rst + tdp
  else if r.addr = 0x500300 then r.rst + tdp
  else if r.addr = 0x800000 then (if i = 0 then (if one then 384 else 768) * 2 ^ 16 else 0)
  else if r.addr = 0x800100 then r.rst + (if i = 16 then (if j = 0 then 600 else if one then 0 else 100) else 0)
  else r.rst

end Sys2Proof.Machine
end

