-- ==== Sys2Proof/Machine/Ops.lean ====
section
/-!
DEFINITION. The shared operations: register fields, physical unit identifiers, memory access by device address, free values, messages,
and the fault collector's handling of an event (R363 to R372).
-/
namespace Sys2Proof.Machine

/-! ## The variant (R2, R4) -/

/-- One compute die only. -/
def Dev.oneDie (d : Dev) : Bool := d.fuses.partCode != 0x9600
/-- Attention units, tensor descriptor table, replay decoder and League ports are present (Table 1 of R2). -/
def Dev.full (d : Dev) : Bool := d.fuses.partCode != 0x9200
/-- HIF_CAP (Table 4 of R4). -/
def Dev.cap (d : Dev) : Nat := if d.fuses.partCode = 0x9600 then 0x1B7A else if d.fuses.partCode = 0x9400 then 0x0F75 else 0x0C05
/-- HIF_ID (Table 2 of R4). -/
def Dev.idReg (d : Dev) : Nat := d.fuses.partCode % 65536 + d.fuses.stepping % 16 * 65536 + d.fuses.grade % 4 * 2 ^ 20
/-- The package power at TDP and the range of CAP_W (Table 3 of R472). -/
def Dev.tdp (d : Dev) : Nat := if d.fuses.partCode = 0x9600 then 175 else if d.fuses.partCode = 0x9400 then 95 else 88
def Dev.capMin (d : Dev) : Nat := if d.oneDie then 30 else 40
def Dev.capMax (d : Dev) : Nat := if d.oneDie then 120 else 220
/-- Clusters, regions and HBM stacks present (Table 1 of chapter 01). -/
def Dev.nClus (d : Dev) : Nat := if d.oneDie then 12 else 24
def Dev.nReg (d : Dev) : Nat := if d.oneDie then 3 else 6
def Dev.nStacks (d : Dev) : Nat := if d.oneDie then 1 else 2
/-- Installed HBM in bytes: 24 GiB a stack (R136). -/
def Dev.hbmSize (d : Dev) : Nat := d.nStacks * 0x600000000

/-! ## Registers -/

/-- What a register reads as while nothing has written it. DEDUCED: log entry 71. -/
def Dev.rst0 (d : Dev) (off : Nat) : BitVec 64 :=
  match lookupReg (off % 4294967296) with
  | some (r, i, j, _) => BitVec.ofNat 64 (regResetAt d.oneDie d.tdp r i j)
  | none => 0

/-- The whole register at offset `off`. -/
def Dev.reg (d : Dev) (off : Nat) : BitVec 64 := mget (d.rst0 off) d.regs.cur off
/-- Set the whole register. -/
def Dev.setReg (d : Dev) (off : Nat) (v : BitVec 64) : Dev :=
  { d with regs := { d.regs with cur := mput (d.rst0 off) d.regs.cur off v } }
/-- Bits of a register value. -/
def getFld (x : Fld) (v : BitVec 64) : Nat := v.toNat / 2 ^ x.lo % 2 ^ (x.hi + 1 - x.lo)
/-- A register value with one field replaced. DEDUCED: log entry 19. -/
def putFld (x : Fld) (v : BitVec 64) (n : Nat) : BitVec 64 :=
  BitVec.ofNat 64 (v.toNat - getFld x v * 2 ^ x.lo + n % 2 ^ (x.hi + 1 - x.lo) * 2 ^ x.lo)
/-- The value of a field. -/
def Dev.f (d : Dev) (x : Fld) : Nat := getFld x (d.reg x.off)
/-- Is a one-bit field set? -/
def Dev.on (d : Dev) (x : Fld) : Bool := d.f x != 0
/-- Set a field. -/
def Dev.set (d : Dev) (x : Fld) (n : Nat) : Dev := d.setReg x.off (putFld x (d.reg x.off) n)
/-- Add to a counter field; it saturates at the largest value the field holds (R90, R357, R403, R446). -/
def Dev.addSat (d : Dev) (x : Fld) (n : Nat) : Dev := d.set x (Nat.min (d.f x + n) (2 ^ (x.hi + 1 - x.lo) - 1))
/-- The value of a staged field in force. -/
def Dev.live (d : Dev) (x : Fld) : Nat := getFld x (mget (d.rst0 x.off) d.regs.live x.off)
/-- The value of a staged field that is pending. -/
def Dev.pend (d : Dev) (x : Fld) : Nat := getFld x (mget (d.rst0 x.off) d.regs.pend x.off)
/-- The staged values of the registers between two offsets become pending. -/
def Dev.stage (d : Dev) (lo hi : Nat) : Dev :=
  { d with regs := { d.regs with
      pend := (d.regs.pend.filter (fun p => p.1 < lo ∨ hi ≤ p.1)).foldl (fun m p => mset m p.1 p.2)
        (d.regs.cur.filter (fun p => lo ≤ p.1 ∧ p.1 < hi)) } }
/-- The pending values of the registers between two offsets come into force. -/
def Dev.enforce (d : Dev) (lo hi : Nat) : Dev :=
  { d with regs := { d.regs with
      live := (d.regs.live.filter (fun p => p.1 < lo ∨ hi ≤ p.1)).foldl (fun m p => mset m p.1 p.2)
        (d.regs.pend.filter (fun p => lo ≤ p.1 ∧ p.1 < hi)) } }
/-- A number as a signed 32-bit value. -/
def s32 (v : Nat) : Int := toSigned 32 v

/-- An effect on the block, as a transition of the model: the queue is left alone. DESIGN CHOICE: log entry 166. -/
def State.updAlways (s : State) (f : Dev → Dev) : State := { s with dev := f s.dev }
/-- An effect that the block can show while it is out of cold reset: from a recognised PORST_N to its boot it shows none (R524).
DESIGN CHOICE: log entry 166. -/
def State.upd (s : State) (f : Dev → Dev) : State := if s.dev.rst.held then s else s.updAlways f
/-- The outcome of a command. -/
abbrev Res := Host.Outcome State Fault Refusal

/-- May the requester reach the FLT, SAF, PWR and SEC blocks (Table 1 of R510)? -/
def pfOrC : Who → Bool
  | .pf => true
  | .computus => true
  | _ => false

/-! ## Free values and messages -/

/-- Take one free-value number. DESIGN CHOICE: log entry 10. -/
def Dev.take (d : Dev) : Dev := { d with fresh := d.fresh + 1 }
/-- Send a message. DESIGN CHOICE: log entries 83, 175. -/
def Dev.send (d : Dev) (m : Tx) : Dev := { d with out := { d.out with tx := d.out.tx ++ [m] } }
/-- Return data to the requester. -/
def Dev.ret (d : Dev) (l : List Nat) : Dev := { d with out := { d.out with rdata := l, poisoned := false } }
/-- Time does not run backwards: an event at `t` falls at `t` or now, whichever is later. DESIGN CHOICE: log entries 3, 174. -/
def Dev.at_ (d : Dev) (t : Nat) : Dev := { d with now := Nat.max d.now t }

/-! ## Physical unit identifiers (R15, R305) -/

def unitId (kind die reg clu idx : Nat) : Nat := kind * 4096 + die * 2048 + reg * 512 + clu * 64 + idx * 8
/-- The identifier of a unit of cluster `k = 12 × die + 4 × region + cluster`. -/
def cluUnit (kind k idx : Nat) : Nat := unitId kind (k / 12) (k / 4 % 3) (k % 4) idx
def engUnit (k e : Nat) : Nat := cluUnit 0 k e
def pcUnit (k p : Nat) : Nat := cluUnit 1 k p
def seqUnit (k s : Nat) : Nat := cluUnit 2 k s
def cspUnit (k : Nat) : Nat := cluUnit 3 k 0
/-- The identifier of a unit of region `r = 3 × die + region`. -/
def regUnit (kind r : Nat) : Nat := unitId kind (r / 3) (r % 3) 7 0
def hbmUnit (s : Nat) : Nat := unitId 7 s 0 7 0
def hubUnit (n : Nat) : Nat := 0x8000 + n
def unitKind (u : Nat) : Nat := u / 4096
def unitDie (u : Nat) : Nat := u / 2048 % 2
def unitRegion (u : Nat) : Nat := unitDie u * 3 + u / 512 % 4
def unitClu (u : Nat) : Nat := unitDie u * 12 + u / 512 % 4 * 4 + u / 64 % 8
def unitIdx (u : Nat) : Nat := u / 8 % 8

/-- Does the identifier name a unit that exists in the part? -/
def Dev.unitExists (d : Dev) (u : Nat) : Bool :=
  let okDie := u % 8 == 0 && (unitDie u == 0 || !d.oneDie)
  match unitKind u with
  | 0 => okDie && u / 512 % 4 < 3 && u / 64 % 8 < 4 && unitIdx u < 5
  | 1 => okDie && u / 512 % 4 < 3 && u / 64 % 8 < 4 && unitIdx u < 3
  | 2 => okDie && u / 512 % 4 < 3 && u / 64 % 8 < 4 && unitIdx u < 2
  | 3 => okDie && u / 512 % 4 < 3 && u / 64 % 8 < 4 && unitIdx u == 0
  | 4 => okDie && u / 512 % 4 < 3 && u / 64 % 8 == 7 && unitIdx u == 0
  | 5 => okDie && u / 512 % 4 < 3 && u / 64 % 8 == 7 && unitIdx u == 0
  | 6 => okDie && u / 512 % 4 < 3 && u / 64 % 8 == 7 && unitIdx u == 0 && d.full
  | 7 => okDie && u / 512 % 4 == 0 && u / 64 % 8 == 7 && unitIdx u == 0
  | _ => false

/-! ## Device addresses (R138) and the bytes of HBM -/

/-- Does the range lie in installed HBM? -/
def Dev.inHbm (d : Dev) (a n : Nat) : Bool := a + n ≤ d.hbmSize
/-- The stack that holds a device address (R136). -/
def stackOf (a : Nat) : Nat := a / 0x600000000
/-- The granules that a range of bytes touches. -/
def granules (a n : Nat) : List Nat := if n = 0 then [] else
  (List.range ((a + n - 1) / 64 + 1 - a / 64)).map (fun i => (a / 64 + i) * 64)
/-- The poisoned granules in a range. -/
def Dev.poisonIn (d : Dev) (a n : Nat) : List Nat := d.mem.poison.filter (fun g => a / 64 * 64 ≤ g ∧ g < a + n)
/-- Is the stack of a device address gone with its die (Table 5 of R33)? -/
def Dev.stackLost (d : Dev) (a : Nat) : Bool := d.leap.dieLost.contains (stackOf a)
/-- Bytes of HBM. -/
def Dev.rdHbm (d : Dev) (a n : Nat) : List Nat := d.mem.hbm.readBytes a n
/-- The number of poisoned granules of each stack (MEM_POISONED, R146). -/
def Dev.countPoison (d : Dev) : Dev :=
  (d.set (F.MEM_POISONED.COUNT 0) (d.mem.poison.filter (fun g => g < 0x600000000)).length).set
    (F.MEM_POISONED.COUNT 1) (d.mem.poison.filter (fun g => 0x600000000 ≤ g)).length
/-- Mark a granule poisoned, or no longer. -/
def Dev.setPoison (d : Dev) (l : List Nat) : Dev := Dev.countPoison { d with mem := { d.mem with poison := l } }
/-- A write of whole granules, or of bytes merged into granules (R137). A granule wholly written loses its poison; a write that
covers a poisoned granule only in part leaves that granule as it is (R141). A stack that is lost keeps nothing. DEDUCED: log entry 36. -/
def Dev.wrHbm (d : Dev) (a : Nat) (bs : List Nat) : Dev :=
  let ps := d.poisonIn a bs.length
  if d.stackLost a then d else
  if ps = [] then { d with mem := { d.mem with hbm := d.mem.hbm.writeBytes a bs } } else
  let whole := ps.filter (fun g => a ≤ g ∧ g + 64 ≤ a + bs.length)
  let part := ps.filter (fun g => !(decide (a ≤ g) && decide (g + 64 ≤ a + bs.length)))
  let m := (List.range bs.length).foldl (fun (m : Mem) i =>
    if part.contains ((a + i) / 64 * 64) then m else m.write (a + i) (BitVec.ofNat 8 (bs.getD i 0))) d.mem.hbm
  Dev.setPoison { d with mem := { d.mem with hbm := m } } (d.mem.poison.filter (fun g => !whole.contains g))
/-- Bytes of host memory, over PCIe; the write is dropped while the host link is down (R386, R504). -/
def Dev.rdHost (d : Dev) (a n : Nat) : List Nat := d.mem.host.readBytes a n
def Dev.wrHost (d : Dev) (a : Nat) (bs : List Nat) : Dev :=
  if d.rst.linkUp then { d with mem := { d.mem with host := d.mem.host.writeBytes a bs } } else d

/-! ## CRC-64 (R355) -/

/-- One bit of the CRC-64 of R355: polynomial 0x42F0_E1EB_A9EA_3693, not reflected. -/
def crcBit (c : Nat) : Nat := if c / 2 ^ 63 = 1 then (2 * c % 2 ^ 64) ^^^ 0x42F0E1EBA9EA3693 else 2 * c
def crcByte (c b : Nat) : Nat :=
  let x := c ^^^ (b * 2 ^ 56)
  crcBit (crcBit (crcBit (crcBit (crcBit (crcBit (crcBit (crcBit x)))))))
/-- The CRC-64 (ECMA-182) of a byte string. -/
def crc64 (l : List Nat) : Nat := l.foldl crcByte 0

/-! ## The assignment in force (R305) -/

/-- The partition of cluster `k`, in force. -/
def Dev.cluPart (d : Dev) (k : Nat) : Nat := d.live (F.SCH_CLU_PART.PART (k / 8)) / 2 ^ (4 * (k % 8)) % 16
/-- The partition of attention unit `u = 3 × die + region`, in force. -/
def Dev.attnPart (d : Dev) (u : Nat) : Nat := d.live F.SCH_ATTN_PART.PART / 2 ^ (4 * u) % 16

/-! ## The fault collector (R359 to R372) -/

/-- The sources of Table 1 of R361, with their default profile: 0 Q, 1 M, 2 S. -/
def faultSources : List (Nat × Nat) :=
  [(0x000, 0), (0x001, 1), (0x002, 2), (0x003, 0), (0x004, 2), (0x005, 1), (0x040, 1), (0x041, 1), (0x042, 0), (0x043, 2),
   (0x044, 1), (0x045, 1), (0x046, 1), (0x080, 1), (0x081, 1), (0x082, 1), (0x083, 2), (0x084, 1), (0x085, 2), (0x086, 1)] ++
  [(0x0C0, 1), (0x0C1, 2), (0x0C2, 1), (0x0C3, 0), (0x0C4, 1), (0x0C5, 1), (0x100, 1), (0x101, 0), (0x102, 0), (0x140, 0),
   (0x141, 0), (0x180, 1), (0x181, 1), (0x1C0, 1), (0x1C1, 1), (0x1C2, 0), (0x1E0, 1), (0x1E1, 2), (0x1E2, 0), (0x1E3, 1),
   (0x1E4, 2), (0x1F0, 2), (0x1F1, 1), (0x1F8, 1)]
/-- Is the source ID one of Table 1 (R361)? -/
def sourceKnown (id : Nat) : Bool := (mfind faultSources id).isSome
/-- The default configuration of a source (Table 2 of R365). A reserved source has none. -/
def srcDefault (id : Nat) : SrcSt :=
  match mfind faultSources id with
  | some 0 => ⟨255, 0, 1, 3600000, 0, none, 0⟩
  | some 1 => ⟨8, 1, 3, 1000, 0, none, 0⟩
  | some _ => ⟨1, 0, 19, 1, 0, none, 0⟩
  | none => ⟨0, 0, 0, 0, 0, none, 0⟩
def Coll.src (c : Coll) (id : Nat) : SrcSt := mget (srcDefault id) c.srcs id
def Coll.setSrc (c : Coll) (id : Nat) (s : SrcSt) : Coll := { c with srcs := mput (srcDefault id) c.srcs id s }
/-- A bit of a 512-bit status. -/
def setBit512 (v : BitVec 512) (i : Nat) : BitVec 512 := v ||| BitVec.ofNat 512 (2 ^ i)
def clrBit512 (v : BitVec 512) (i : Nat) : BitVec 512 := v &&& ~~~ BitVec.ofNat 512 (2 ^ i)

/-- Count one event of a source (R363): the source's state afterwards, and whether the event is severe. -/
def countEvent (s : SrcSt) (severe : Bool) (t : Nat) : SrcSt × Bool :=
  let s := { s with total := Nat.min (s.total + 1) (2 ^ 24 - 1) }
  if severe then (s, true) else
  let c := match s.winEnd with
    | some e => if t < e then (s.count + 1, e) else (1, t + s.windowMs * 1000000)
    | none => (1, t + s.windowMs * 1000000)
  if s.thresh ≤ c.1 then ({ s with count := s.thresh, winEnd := none }, true)
  else ({ s with count := c.1, winEnd := some c.2 }, false)

/-- Does an event arrive in the cycle of another one, and come before it by source and then by master (R370)? -/
def FaultEv.before (e f : FaultEv) : Bool := e.t == f.t && (decide (e.src < f.src) || (e.src == f.src && decide (e.master < f.master)))
/-- Capture an event in the first-error record, or merge it; of events of one cycle the first by source and master is the one captured
(R370). DEDUCED: log entry 121. -/
def Coll.record (c : Coll) (e : FaultEv) (severe : Bool) : Coll :=
  let merge := fun (c : Coll) (f : FaultEv) =>
    { c with mergeCnt := Nat.min (c.mergeCnt + 1) 65535, merged := setBit512 c.merged f.src }
  match c.first with
  | none => { c with first := some ⟨e, severe⟩ }
  | some f => if e.before f.ev then merge { c with first := some ⟨e, severe⟩ } f.ev else merge c e

/-- Does block `b` of a block reset hold unit `u` (R368)? -/
def blockHolds (b u : Nat) : Bool :=
  match unitKind b with
  | 0 => u == b
  | 1 => u == b
  | 2 => unitKind u < 4 && unitClu u == unitClu b
  | 3 => unitKind u < 4 && unitClu u == unitClu b
  | 4 => unitKind u < 7 && unitRegion u == unitRegion b
  | 5 => unitKind u < 7 && unitRegion u == unitRegion b
  | 6 => unitKind u < 7 && unitRegion u == unitRegion b
  | _ => false

/-- The physical units that a command holds now: its engines, its prep cores and its attention unit. -/
def Run.units (r : Run) : List Nat :=
  r.members.map Member.phys ++ r.prep.map Prod.snd ++ (match r.attn with | some u => [regUnit 6 u] | none => [])

/-- Does the command hold engines: from dispatch until its commit has ended (R61, R339)? -/
def Run.holds (r : Run) : Bool :=
  match r.phase with
  | .cand => false
  | .march _ => false
  | .blockReset _ => false
  | _ => true

/-- The run that executes, if any. -/
def Run.runNo (r : Run) : Option Nat :=
  match r.phase with
  | .run n => some n
  | _ => none

/-- Is the command in its commit phase (R247)? DEDUCED: log entry 52. -/
def Run.inCommit (r : Run) : Bool :=
  match r.phase with
  | .commit => true
  | .accepted => true
  | _ => false

/-- A command after a kill that a re-run follows (R250, Table 5 of R249): its runs and lists are discarded, its snapshot, argument
block, page lists and pins are kept; `ph` says what it waits for. -/
def Run.requeue (r : Run) (ph : RunPhase) : Run :=
  { r with phase := ph, members := [], prep := [], prepAt := none, xfers := [], keep := [], wrote := [], undo := [], attn := none, pieces := [], signals := [], indexRange := false,
           scrFail := false, scrUnits := [], runPhys := [], recs := [], agree12 := none, troyFailed := false, qmRerun := false,
           octave := false, src := .scratch, remotes := [], endKill := none, chargeFrom := none, excluded := 0,
           banked := 0, exFrom := none, rerun := true }

/-- The on-chip memories of a command are undefined after it is killed and before the next command writes them (R123, R249). -/
def Dev.forgetUnits (d : Dev) (us : List Nat) : Dev :=
  us.foldl (fun d u =>
    if unitKind u = 0 ∨ unitKind u = 1 then
      let n := if unitKind u = 0 then 0x100000 else 0x40000
      Dev.take { d with mem := { d.mem with sram := d.mem.sram.forget (u * 0x1000000) (u * 0x1000000 + n) d.fresh } }
    else d) d

/-- What a command leaves undefined on chip when it ends: its units' memories, and what it wrote in those it shares (R123, R249). -/
def Dev.forgetRun (d : Dev) (r : Run) : Dev :=
  r.wrote.foldl (fun d x => Dev.take { d with mem := { d.mem with sram := d.mem.sram.forget x.lo x.hi d.fresh } }) (d.forgetUnits r.units)

/-- Charge the time a command has held its engines since the last charge to its task or to its context's slice (R61, R318). `task`
says whether it is charged: a run killed by fencing or a block reset is not. `banked` is what the present attempt has been charged. -/
def Dev.charge (d : Dev) (id : Nat) (task : Bool) : Dev :=
  match mfind d.runs id with
  | none => d
  | some r =>
    match r.chargeFrom with
    | none => d
    | some t0 =>
      let dt := d.now - t0
      let d := { d with runs := mmod d.runs id (fun r =>
        { r with chargeFrom := some d.now, banked := r.banked + (if task then dt else 0) }) }
      if r.ordo then
        (if task && r.frame == d.frame.frameNo then { d with frame := { d.frame with tasks := d.frame.tasks.map (fun k =>
          if k.slot = r.task then { k with charge := k.charge + dt } else k) } } else d)
      else if task then { d with ctxs := mmod d.ctxs (r.part * 4096 + r.ctx) (fun c => { c with sliceUsed := c.sliceUsed + dt }) }
      else d

/-- What an attempt has been charged is taken back: a kill by fencing or a block reset discards both runs of Octave, whenever it comes
(R61, R347). DEDUCED: log entry 201. -/
def Dev.uncharge (d : Dev) (r : Run) : Dev :=
  if r.ordo then
    (if r.frame == d.frame.frameNo then { d with frame := { d.frame with tasks := d.frame.tasks.map (fun k =>
      if k.slot = r.task then { k with charge := k.charge - r.banked } else k) } } else d)
  else { d with ctxs := mmod d.ctxs (r.part * 4096 + r.ctx) (fun c => { c with sliceUsed := c.sliceUsed - r.banked }) }
/-- Stop a command for a re-run, whatever it is doing. -/
def Dev.stopRerun (d : Dev) (id : Nat) (ph : RunPhase) (task : Bool) : Dev :=
  match mfind d.runs id with
  | none => d
  | some r =>
    let d := if task then d.charge id true else (d.charge id false).uncharge r
    let d := d.forgetRun r
    { d with runs := mmod d.runs id (fun r => r.requeue ph) }
/-- Kill a command for a re-run (R249, R250). A command in its commit phase is not stopped (R247). DEDUCED: log entry 123. -/
def Dev.killRerun (d : Dev) (id : Nat) (ph : RunPhase) (task : Bool) : Dev :=
  match mfind d.runs id with
  | none => d
  | some r => if r.inCommit || !r.holds then d else d.stopRerun id ph task

/-- An entry to a low-power state is abandoned (R501). -/
def Dev.abandonEntry (d : Dev) : Dev :=
  if d.rst.entering = 0 then d else
  (Dev.set { d with rst := { d.rst with entering := 0 } } F.PWR_LP_CTRL.STATE 0).set F.PWR_LP_CTRL.THERMAL 0

/-- A test of a unit in block `m` is abandoned: it starts again from its beginning (R399). -/
def Dev.restartTests (d : Dev) (m : Nat) : Dev :=
  { d with leap := { d.leap with units := d.leap.units.map (fun p =>
      if blockHolds m p.1 then (p.1, { p.2 with slicing := false, slices := 0 }) else p) } }

/-- Is a link or function reset in progress: a commit that it found has not ended (Table 4 of R499)? DEDUCED: log entry 162. -/
def Dev.resetting (d : Dev) : Bool := d.runs.any (fun q => q.2.inCommit && bitOf q.2.ctx 20)
/-- Is it a link reset? -/
def Dev.linkResetting (d : Dev) : Bool := d.runs.any (fun q => q.2.inCommit && bitOf q.2.ctx 23)
/-- Start the block reset of R368 on the block that `m` names; a block already inside one in reset joins it, and the request joins a wider
reset in progress (R501). DEDUCED: log entry 123. -/
def Dev.startBlockReset (d : Dev) (m : Nat) : Dev :=
  if d.rst.warm || d.rst.low != 0 || d.resetting || d.coll.blockResets.any (fun b => blockHolds b m || b == m) then d else
  let d := d.abandonEntry.restartTests m
  let d := { d with coll := { d.coll with blockResets := d.coll.blockResets ++ [m] } }
  (d.runs.filter (fun p => p.2.holds && p.2.units.any (blockHolds m))).foldl
    (fun d p => d.killRerun p.1 (.blockReset m) false) d

/-- The scope of an event (R378): the mask of its partitions. DEDUCED: log entry 122. -/
def Dev.scopeOf (d : Dev) (m : Nat) : Nat :=
  match unitKind m with
  | 0 => 2 ^ d.cluPart (unitClu m)
  | 1 => 2 ^ d.cluPart (unitClu m)
  | 2 => 2 ^ d.cluPart (unitClu m)
  | 3 => 2 ^ d.cluPart (unitClu m)
  | 4 => [0, 1, 2, 3].foldl (fun a c => a ||| 2 ^ d.cluPart (4 * unitRegion m + c)) 0
  | 5 => [0, 1, 2, 3].foldl (fun a c => a ||| 2 ^ d.cluPart (4 * unitRegion m + c)) 0
  | 6 => 2 ^ d.attnPart (unitRegion m)
  | _ => 65535

/-- The reactions of one event, in the order of R367. -/
def Dev.react (d : Dev) (e : FaultEv) (rs : Nat) : Dev :=
  let noBlock := unitKind e.master ≥ 7
  let nmi := maskHas rs 1 || (maskHas rs 2 && noBlock)
  let d := { d with coll := { d.coll with
    pending := setBit512 d.coll.pending e.src,
    latch := if maskHas rs 4 then setBit512 d.coll.latch e.src else d.coll.latch,
    nmi := if nmi then d.coll.nmi ++ [(e, d.scopeOf e.master)] else d.coll.nmi } }
  let d := if maskHas rs 0 && d.on F.FLT_CTRL.IRQ_EN then d.send (.msix 0 (d.f F.FLT_CTRL.VECTOR)) else d
  let d := if maskHas rs 2 && !noBlock then d.startBlockReset e.master else d
  if maskHas rs 3 && d.rst.chipAt.isNone && !d.rst.warm then
    Dev.abandonEntry { d with rst := { d.rst with chipAt := some (e.t + 20000) } } else d

/-- The collector after it has counted, classified and recorded an event; and whether the event was severe (R363, R370). -/
def Coll.isSevere (c : Coll) (e : FaultEv) : Bool := (countEvent (c.src e.src) (c.severe.getLsbD e.src) e.t).2
/-- DEDUCED: log entries 121, 122. -/
def Coll.receive (c : Coll) (e : FaultEv) : Coll :=
  let c1 := c.setSrc e.src (countEvent (c.src e.src) (c.severe.getLsbD e.src) e.t).1
  Coll.record (if c.isSevere e then { c1 with severe := setBit512 c1.severe e.src } else c1) e (c.isSevere e)

/-- The hub unit numbers of Table 4 of R516. -/
def hubUnits : List Nat :=
  [0x000, 0x001, 0x002] ++ (List.range 16).map (0x010 + ·) ++ (List.range 6).map (0x020 + ·) ++ [0x030, 0x031] ++
  (List.range 6).map (0x040 + ·) ++ [0x050, 0x060, 0x070, 0x071, 0x080, 0x081, 0x082, 0x090, 0x091, 0x092, 0x0A0, 0x0B0, 0x0B1, 0x0FF]
/-- May a master ID be reported: a hub unit of Table 4 (R516), or no hub unit? -/
def masterKnown (m : Nat) : Bool := decide (unitKind m < 8) || (decide (unitKind m = 8) && hubUnits.contains (m % 4096))
/-- The collector receives an event (R363, R366, R370). One of an unlisted hub unit is never reported (R516). An event of a reserved source is never raised (R361), and a collector that has
not started receives none (R497). DEDUCED: log entry 121. -/
def Dev.event (d : Dev) (e : FaultEv) : Dev :=
  if !sourceKnown e.src || !masterKnown e.master || !d.coll.ready then d else
  Dev.react { d with coll := d.coll.receive e } e (if d.coll.isSevere e then (d.coll.src e.src).severe else (d.coll.src e.src).minor)

/-- Raise a source at the present time. -/
def Dev.raise (d : Dev) (src master addr acc : Nat) : Dev := d.event ⟨src, master, addr, acc, d.now⟩

/-! ## Flags (R233) -/

def Dev.flag (d : Dev) (n : Nat) : Nat := mget 0 d.flags n
/-- Add to a hardware flag. A sum beyond 0xFFFF_FFFF saturates and raises FLAG_SATURATED. -/
def Dev.flagAdd (d : Dev) (n v : Nat) : Dev :=
  let x := d.flag n + v
  if x ≤ 0xFFFFFFFF then { d with flags := mput 0 d.flags n x }
  else Dev.raise { d with flags := mput 0 d.flags n 0xFFFFFFFF } 0x0C4 0x8070 0 0

/-! ## Function events (R102, R103) -/

/-- Set an event bit of HIF_FN_EVENT: 0 CQ_OVERFLOW, 1 DB_ERR, 2 SWAP_WAIT, 3 OP_DONE. An event that is not masked signals
vector 0 of the function. -/
def Dev.fnEvent (d : Dev) (fn ev : Nat) : Dev :=
  let d := d.set ⟨R.HIF_FN_EVENT fn, ev, ev⟩ 1
  if maskHas (d.f (F.HIF_FN_EVENT_MASK.MASK fn)) ev then d else d.send (.msix fn 0)

end Sys2Proof.Machine
end

