-- ==== Sys2Proof/Machine/Bind.lean ====
section
/-!
DEFINITION. What belongs to whom: partitions, clusters and attention units (R305 to R308), the Leap binding (R35 to R38, R405), HBM
allocations (R146), reach (R31), scratchpad addresses (R124 to R126) and device addresses (R138).
-/
namespace Sys2Proof.Machine

/-! ## Assignment (R305, R306) -/

def Dev.cluPartPend (d : Dev) (k : Nat) : Nat := d.pend (F.SCH_CLU_PART.PART (k / 8)) / 2 ^ (4 * (k % 8)) % 16
def Dev.attnPartPend (d : Dev) (u : Nat) : Nat := d.pend F.SCH_ATTN_PART.PART / 2 ^ (4 * u) % 16
/-- Is partition `f` a safety partition, in force; in force or pending? -/
def Dev.safetyPart (d : Dev) (f : Nat) : Bool := d.live (F.SCH_PART_CFG.SAFETY f) != 0
def Dev.partPending (d : Dev) : Bool := d.on F.SCH_PART_CTRL.PENDING
def Dev.safetyAny (d : Dev) (f : Nat) : Bool := d.safetyPart f || (d.partPending && d.pend (F.SCH_PART_CFG.SAFETY f) != 0)
/-- Is partition `f` held by safe state B (R382)? -/
def Dev.held (d : Dev) (f : Nat) : Bool := maskHas (d.f F.SAF_SAFE_STAT.B_PART) f
/-- The hardware flag of a partition-relative index, if the index lies in the partition's range (R103, R234). -/
def Dev.hwFlag (d : Dev) (f i : Nat) : Option Nat :=
  if i < d.f (F.HIF_PF_FN_FLAGS.COUNT f) then some (d.f (F.HIF_PF_FN_FLAGS.BASE f) + i) else none
/-- The HBM allocation of partition `f`, first byte and byte after the last (R146). -/
def Dev.partRange (d : Dev) (f : Nat) : Nat × Nat :=
  let lo := d.f (F.MEM_PART_RANGE.BASE f) * 0x4000000
  (lo, Nat.min (lo + d.f (F.MEM_PART_RANGE.SIZE f) * 0x4000000) d.hbmSize)
/-- Do `n` bytes at `a` lie in a range? -/
def inRange (r : Nat × Nat) (a n : Nat) : Bool := decide (r.1 ≤ a) && decide (a + n ≤ r.2)
/-- Does the range lie in the HBM allocation of partition `f` (R146)? -/
def Dev.inPart (d : Dev) (f a n : Nat) : Bool := inRange (d.partRange f) a n
/-- RATE and BURST in force for bucket `b` on stack `s`, in 100 MB/s and granules (R144, R147). -/
def Dev.rate (d : Dev) (b s : Nat) : Nat := d.live (F.MEM_RSV.RATE b s)

/-! ## Leap (R35 to R38) -/

/-- A cluster in the identity binding (R35). DEDUCED: log entry 12. -/
def cluInit : Clu := ⟨[0, 1, 2, 3], 4, [], [0, 1], 2, [], 0, [], false, 0, 0, none, none, none, none, false, 0⟩
def Dev.clu (d : Dev) (k : Nat) : Clu := d.leap.clus.getD k cluInit
def Dev.setClu (d : Dev) (k : Nat) (c : Clu) : Dev := { d with leap := { d.leap with clus := d.leap.clus.set k c } }
def Dev.modClu (d : Dev) (k : Nat) (f : Clu → Clu) : Dev := d.setClu k (f (d.clu k))
/-- Is cluster `k` out of service: absent, fenced (R21), in a fenced region (R24) or on a lost die (R33)? -/
def Dev.cluOut (d : Dev) (k : Nat) : Bool :=
  d.nClus ≤ k || (d.clu k).fenced || d.leap.regFenced.contains (k / 4) || d.leap.dieLost.contains (k / 12)
/-- Is region `r` fenced or lost? DEDUCED: log entry 35. -/
def Dev.regOut (d : Dev) (r : Nat) : Bool := d.nReg ≤ r || d.leap.regFenced.contains r || d.leap.dieLost.contains (r / 3)
/-- The physical engine bound to logical engine `e` of cluster `k`: through the Leap map, or through a loan (R405). -/
def Dev.engOf (d : Dev) (k e : Nat) : Option Nat :=
  if d.cluOut k || 3 < e then none else
  match (d.clu k).loan with
  | some l => if l.le = e then some (engUnit (k / 4 * 4 + l.lender) l.phys) else
      (if (d.clu k).le.getD e 7 = 7 then none else some (engUnit k ((d.clu k).le.getD e 7)))
  | none => if (d.clu k).le.getD e 7 = 7 then none else some (engUnit k ((d.clu k).le.getD e 7))
/-- The physical prep core bound to logical prep core `p` of cluster `k`. -/
def Dev.pcOf (d : Dev) (k p : Nat) : Option Nat :=
  if d.cluOut k || 1 < p || (d.clu k).pc.getD p 3 = 3 then none else some (pcUnit k ((d.clu k).pc.getD p 3))
/-- Is attention unit `u` in service? -/
def Dev.attnOk (d : Dev) (u : Nat) : Bool := d.full && !d.regOut u && !d.leap.attnFenced.contains u
/-- The attention unit that serves an ATTEND of partition `f` in region `r`: the region's own, or, when that is fenced, one of
another region of the die that belongs to the partition (R24, R308), the lowest-numbered of two. DESIGN CHOICE: log entry 179. -/
def Dev.attnFor (d : Dev) (f r : Nat) : Option Nat :=
  if d.attnOk r then (if d.attnPart r = f then some r else none) else
  ([r / 3 * 3, r / 3 * 3 + 1, r / 3 * 3 + 2].filter (fun u => u != r && d.attnOk u && d.attnPart u == f)).head?
/-- Wear and test state of a unit. -/
def unitInit : UnitSt := ⟨0, 0, 0, 0, 0, 0, 0, 0, false, false, false⟩
def Dev.unitSt (d : Dev) (u : Nat) : UnitSt := mget unitInit d.leap.units u
def Dev.modUnit (d : Dev) (u : Nat) (f : UnitSt → UnitSt) : Dev :=
  { d with leap := { d.leap with units := mput unitInit d.leap.units u (f (d.unitSt u)) } }
/-- Do the present Leap maps and attention units satisfy a variant's requirements (R66)? -/
def Dev.feasible (d : Dev) (v : Variant) : Bool :=
  (maskList v.clusterReq 24).all (fun k => [0, 1, 2, 3].all (fun e => (d.engOf k e).isSome)) &&
  (maskList v.attnReq 6).all d.attnOk

/-! ## Span windows (R437, R438) -/

/-- The own package number (R29, R433). -/
def Dev.pkg (d : Dev) : Nat := d.f F.LNK_TOPO.X + 32 * d.f F.LNK_TOPO.Y + 1024 * d.f F.LNK_TOPO.Z
def windowClosed : Window := ⟨false, 0, 0, 0, 0, false, false, 0, false, 0, 0⟩
def mapClear : MapEnt := ⟨false, 0, 0, 0, 0, 0⟩
def Dev.window (d : Dev) (n : Nat) : Window := mget windowClosed d.lnk.windows n
def Dev.setWindow (d : Dev) (n : Nat) (w : Window) : Dev :=
  { d with lnk := { d.lnk with windows := mput windowClosed d.lnk.windows n w } }
def Dev.mapEnt (d : Dev) (n : Nat) : MapEnt := mget mapClear d.lnk.maps n
def Dev.setMap (d : Dev) (n : Nat) (m : MapEnt) : Dev := { d with lnk := { d.lnk with maps := mput mapClear d.lnk.maps n m } }
/-- A closed window keeps only its epoch, one higher (R438). -/
def closeWindow (w : Window) : Window := { windowClosed with epoch := (w.epoch + 1) % 65536 }
/-- Close every open window that a predicate selects. -/
def Dev.closeWhere (d : Dev) (p : Window → Bool) : Dev :=
  (d.lnk.windows.filter (fun q => q.2.opened && p q.2)).foldl (fun d q => d.setWindow q.1 (closeWindow q.2)) d

/-! ## Operating points (Table 2 of R466) -/

def oppMHz (k : Nat) : Nat := [600, 540, 480, 420, 360, 300, 210, 150].getD k 150
/-- The relative power factor of R466, in ten-thousandths. -/
def oppS (k : Nat) : Nat := [10000, 8188, 6591, 5383, 4296, 3324, 2071, 1363].getD k 1363
/-- The frequency of region `r` now. -/
def Dev.regMHz (d : Dev) (r : Nat) : Nat := oppMHz (d.pwr.opp.getD r 0)

/-! ## Progress in cycles (R40, R129, R467, R476) -/

/-- Two-thousandths of a cycle that the ac clock of region `r` makes in a ns; a stretched clock runs at half its frequency (R476). -/
def Dev.acRate (d : Dev) (r : Nat) : Nat := if d.pwr.stretched.contains r then d.regMHz r else 2 * d.regMHz r
/-- The same of the fc clock of a die, of 1.2 GHz; its stretch domain is 6 + die. -/
def Dev.fcRate (d : Dev) (die : Nat) : Nat := if d.pwr.stretched.contains (6 + die) then 1200 else 2400
/-- What has been done by `t`, of work that had done `done` at `since`. -/
def doneBy (done since rate t : Nat) : Nat := done + (t - since) * rate
/-- Does the work of `n` cycles end within a ns of `t`? -/
def endsAt (n done since rate t : Nat) : Bool :=
  decide (since ≤ t) && decide (2000 * n < doneBy done since rate t + rate) && decide (doneBy done since rate t < 2000 * n + rate)
/-- A started instruction at a change of its clock: what has been done is kept. -/
def LongIns.settle (rate now : Nat) (l : LongIns) : LongIns :=
  if l.started.isSome then { l with done := doneBy l.done l.since rate now, since := now } else l
def Xfer.settle (rate now : Nat) (x : Xfer) : Xfer := { x with done := doneBy x.done x.since rate now, since := now }
/-- The die on which a command runs (R113). -/
def Run.die (r : Run) : Nat := r.place % 2
/-- Every instruction and access in progress is brought up to now: what a change of a clock does to none of them (R40). -/
def Dev.settle (d : Dev) : Dev :=
  { d with runs := d.runs.map (fun p => (p.1, { p.2 with
      members := p.2.members.map (fun m => { m with
        queues := m.queues.map (fun q => q.map (LongIns.settle (d.acRate (unitRegion m.phys)) d.now)) }),
      xfers := p.2.xfers.map (Xfer.settle (d.fcRate p.2.die) d.now) })) }

/-! ## On-chip memories (R122 to R127) -/

/-- A place on chip: the memory's owner and the byte offset in it. -/
structure Place where
  unit : Nat
  off : Nat
  deriving DecidableEq, Repr

/-- DESIGN CHOICE: log entry 13. -/
def Place.key (p : Place) : Nat := p.unit * 0x1000000 + p.off
/-- The size of the memory that a unit owns (Table 1 of R122). DESIGN CHOICE: log entry 13. -/
def memSize (u : Nat) : Nat :=
  match unitKind u with
  | 0 => 0x100000
  | 1 => 0x40000
  | 3 => 0x200000
  | 4 => 0x800000
  | _ => if u = 0x8050 then 0x1000000 else 0

/-- What a scratchpad address selects (Table 2 of R124): a logical engine of a cluster, a cluster scratchpad or a region memory, with
the offset; none where the fields hold a BOUNDS value. -/
inductive Sel where
  | eng (k e off : Nat)
  | clu (k off : Nat)
  | reg (r off : Nat)
  deriving DecidableEq, Repr

def spDecode (a : Nat) : Option Sel :=
  let die := a / 2 ^ 31 % 2
  let rg := a / 2 ^ 29 % 4
  let cl := a / 2 ^ 26 % 8
  let sl := a / 2 ^ 23 % 8
  let off := a % 2 ^ 23
  if 2 ^ 32 ≤ a ∨ rg = 3 then none
  else if cl = 7 then (if sl = 0 then some (.reg (die * 3 + rg) off) else none)
  else if 3 < cl then none
  else if sl < 4 then (if off < 0x100000 then some (.eng (die * 12 + rg * 4 + cl) sl off) else none)
  else if sl = 5 then (if off < 0x200000 then some (.clu (die * 12 + rg * 4 + cl) off) else none)
  else none

/-- The bytes left in the selected memory from the offset on (R125). -/
def Sel.room : Sel → Nat
  | .eng _ _ o => 0x100000 - o
  | .clu _ o => 0x200000 - o
  | .reg _ o => 0x800000 - o

/-- The physical engine that a run of the command binds to a logical engine, if a member holds it (R32, R126). -/
def Run.physOf (r : Run) (k e : Nat) : Option Nat :=
  (r.members.find? (fun m => m.le = 4 * k + e)).map Member.phys

/-- The place at scratchpad address `a` for `n` bytes, as an engine instruction of a member of cluster `k`, logical engine `e`, may name it.
`any` admits every engine scratchpad of the member's region held by the command (R31, R32). -/
def Dev.placeAt (d : Dev) (r : Run) (k e a n : Nat) (any : Bool) : Option Place :=
  match spDecode a with
  | none => none
  | some s =>
    if s.room < n then none else
    match s with
    | .eng k' e' o => if (k' = k ∧ e' = e) ∨ (any ∧ k' / 4 = k / 4) then (r.physOf k' e').map (fun p => ⟨p, o⟩) else none
    | .clu k' o => if d.nClus ≤ k' then none else some ⟨cspUnit k', o⟩
    | .reg r' o => if d.nReg ≤ r' then none else some ⟨regUnit 4 r', o⟩
/-- Is a cluster scratchpad or region memory switched off, with its fenced cluster or region or its lost die (R21, R24, R33, R465)? -/
def Dev.memOff (d : Dev) (u : Nat) : Bool :=
  match unitKind u with
  | 3 => d.cluOut (unitClu u)
  | 4 => d.regOut (unitRegion u)
  | _ => false
/-- The place that an engine instruction reaches; none is BOUNDS. A memory that is switched off is out of reach.
DESIGN CHOICE: log entry 189. -/
def Dev.reach (d : Dev) (r : Run) (k e a n : Nat) (any : Bool) : Option Place :=
  (d.placeAt r k e a n any).filter (fun p => !d.memOff p.unit)

/-- Bytes of an on-chip memory. -/
def Dev.rdSram (d : Dev) (p : Place) (n : Nat) : List Nat := d.mem.sram.readBytes p.key n
def Dev.wrSram (d : Dev) (p : Place) (bs : List Nat) : Dev :=
  { d with mem := { d.mem with sram := d.mem.sram.writeBytes p.key bs } }

/-- Is the device address one of Span window space (Table 7 of R138)? -/
def isSpan (a : Nat) : Bool := 0x10000000000 ≤ a && a < 0x20000000000

end Sys2Proof.Machine
end

