-- ==== Sys2Proof/Machine/Cfg.lean ====
section
/-!
DEFINITION. The PCI Express configuration space of each function (R96 to R99, R497, R504), and its MSI-X table. The offsets are those of
the PCI Express base specification, which the spec names; registers it does not mention read as free values. PRESUMED: log entry 184.
-/
namespace Sys2Proof.Machine

/-- A function as a reset of the link leaves it: its BARs hold no address, it is in D0, and its MSI-X vectors are masked. -/
def cfgInit : CfgFn := ⟨0, 0, 0, false, []⟩
def Dev.cfgOf (d : Dev) (fn : Nat) : CfgFn := mget cfgInit d.cfg fn
def Dev.modCfg (d : Dev) (fn : Nat) (f : CfgFn → CfgFn) : Dev := { d with cfg := mput cfgInit d.cfg fn (f (d.cfgOf fn)) }
/-- Configuration space as a reset leaves it. -/
def Dev.resetCfg (d : Dev) : Dev := { d with cfg := [] }

/-- Is there a function `fn`: in boot-over-link the physical one only (R497)? -/
def Dev.hasFn (d : Dev) (fn : Nat) : Bool := fn == 0 || (decide (fn < 16) && !d.sec.overLink)
/-- The device identifier (R97, R497). -/
def Dev.deviceId (d : Dev) (fn : Nat) : Nat :=
  (d.fuses.partCode + (if fn ≠ 0 then 1 else if d.sec.overLink then 15 else 0)) % 65536
/-- The size of a BAR of a function in bytes, and whether it is prefetchable (Table 2 of R99); a size of 0 says that there is none, as
BAR4 in boot-over-link (R497). -/
def Dev.barSize (d : Dev) (fn bar : Nat) : Nat × Bool :=
  match bar with
  | 0 => (if fn = 0 then 0x4000000 else 0x100000, false)
  | 2 => (if fn = 0 then 0x1000000000 else 0, true)
  | 4 => (if d.sec.overLink then 0 else 0x1000000, false)
  | _ => (0, false)
def CfgFn.bar (c : CfgFn) (bar : Nat) : Nat := if bar = 0 then c.bar0 else if bar = 2 then c.bar2 else c.bar4
/-- A BAR as it reads: a 64-bit memory BAR with its address in the bits above its size. -/
def Dev.barWord (d : Dev) (fn bar : Nat) : Nat :=
  let s := d.barSize fn bar
  if s.1 = 0 then 0 else (d.cfgOf fn).bar bar / s.1 * s.1 + 4 + 8 * b2n s.2
/-- The code of a link width in the Link Status register is the width, that of a rate its place in 2.5, 5, 8, 16 and 32 GT/s. -/
def Dev.linkStatus (d : Dev) : Nat := d.rst.linkRate % 16 + d.rst.linkWidth % 64 * 16

/-- The 32 bits at an aligned offset of the configuration space of a function. -/
def Dev.cfgWord (d : Dev) (fn off : Nat) : Nat :=
  let other := Config.cfgDword fn off % 2 ^ 32
  match off with
  | 0x00 => Config.vendorId % 65536 + d.deviceId fn * 65536
  | 0x08 => other % 256 + 0x120000 * 256
  | 0x10 => d.barWord fn 0 % 2 ^ 32
  | 0x14 => d.barWord fn 0 / 2 ^ 32 % 2 ^ 32
  | 0x18 => d.barWord fn 2 % 2 ^ 32
  | 0x1C => d.barWord fn 2 / 2 ^ 32 % 2 ^ 32
  | 0x20 => d.barWord fn 4 % 2 ^ 32
  | 0x24 => d.barWord fn 4 / 2 ^ 32 % 2 ^ 32
  | 0x44 => other / 4 * 4 + 3 * b2n (d.cfgOf fn).d3hot
  | 0x80 => other % 65536 + d.linkStatus * 65536
  | _ => other
/-- A host access reaches configuration space while the link is up. -/
def Dev.cfgOpen (d : Dev) (fn off : Nat) : Bool := d.rst.linkUp && !d.rst.warm && d.hasFn fn && decide (off % 4 = 0) && decide (off < 4096)
/-- A read of configuration space; nothing answers where no function is. -/
def Dev.cfgRead (d : Dev) (fn off : Nat) : Dev := if d.cfgOpen fn off then d.ret (leBytes 4 (d.cfgWord fn off)) else d
/-- Half `n` of a 64-bit address replaced. -/
def putHalf (a n v : Nat) : Nat := if n = 0 then a / 2 ^ 32 * 2 ^ 32 + v % 2 ^ 32 else a % 2 ^ 32 + v % 2 ^ 32 * 2 ^ 32
/-- Half `n` of a BAR is written. -/
def Dev.barWrite (d : Dev) (fn bar n v : Nat) : Dev :=
  let s := (d.barSize fn bar).1
  if s = 0 then d else
  let a := putHalf ((d.cfgOf fn).bar bar) n v / s * s
  d.modCfg fn (fun c => if bar = 0 then { c with bar0 := a } else if bar = 2 then { c with bar2 := a } else { c with bar4 := a })
/-- A write to configuration space: the BARs, and the power state in PMCSR, where D1 and D2 are not supported. -/
def Dev.cfgWrite (d : Dev) (fn off v : Nat) : Dev :=
  if !d.cfgOpen fn off then d else
  match off with
  | 0x10 => d.barWrite fn 0 0 v
  | 0x14 => d.barWrite fn 0 1 v
  | 0x18 => d.barWrite fn 2 0 v
  | 0x1C => d.barWrite fn 2 1 v
  | 0x20 => d.barWrite fn 4 0 v
  | 0x24 => d.barWrite fn 4 1 v
  | 0x44 => if v % 4 = 0 ∨ v % 4 = 3 then d.modCfg fn (fun c => { c with d3hot := v % 4 == 3 }) else d
  | _ => d
/-- Do the BARs of a function answer: not in D3hot? -/
def Dev.barsOpen (d : Dev) (fn : Nat) : Bool := !(d.cfgOf fn).d3hot

/-! ## MSI-X tables (R96: 128 vectors for each function; R504) -/

/-- A 32-bit word of an MSI-X table as a reset leaves it: message address and data 0, and the mask bit of every vector set. -/
def msixInit (n : Nat) : Nat := if n % 4 = 3 then 1 else 0
/-- Word `n` of the MSI-X table: four words for each of 128 vectors. -/
def CfgFn.msixWord (c : CfgFn) (n : Nat) : Nat := mget (msixInit n) c.msix n
/-- A host access reaches an MSI-X table: the spec does not say in which BAR it lies. -/
def Dev.msixOpen (d : Dev) (fn off : Nat) : Bool :=
  d.rst.linkUp && !d.rst.warm && d.hasFn fn && d.barsOpen fn && decide (off % 4 = 0) && decide (off < 2048)
def Dev.msixRead (d : Dev) (fn off : Nat) : Dev := if d.msixOpen fn off then d.ret (leBytes 4 ((d.cfgOf fn).msixWord (off / 4))) else d
/-- A write to an MSI-X table: the two low bits of a message address are 0, and of the control word there is the mask bit only. -/
def Dev.msixWrite (d : Dev) (fn off v : Nat) : Dev :=
  if !d.msixOpen fn off then d else
  let n := off / 4
  let w := match n % 4 with
    | 0 => v % 2 ^ 32 / 4 * 4
    | 3 => v % 2
    | _ => v % 2 ^ 32
  d.modCfg fn (fun c => { c with msix := mput (msixInit n) c.msix n w })

end Sys2Proof.Machine
end

