-- ==== Sys2Proof/Machine/KvOps.lean ====
section
/-!
DEFINITION. The Bushel table: entries, pages, buddy storage and reader pins (R286 to R301).
-/
namespace Sys2Proof.Machine

def bushelFree : Bushel := ⟨0, 0, 0, false, false, 0, 0, 0, 0, 0, 0⟩
def Dev.bent (d : Dev) (i : Nat) : Bushel := mget bushelFree d.kv.entries i
def Dev.setBent (d : Dev) (i : Nat) (b : Bushel) : Dev :=
  { d with kv := { d.kv with entries := mput bushelFree d.kv.entries i b } }
/-- The reference that names an entry (R288). -/
def refOf (i epoch : Nat) : Nat := i + epoch % 2 ^ 14 * 2 ^ 18
def refIdx (ref : Nat) : Nat := ref % 2 ^ 18
/-- Does a reference resolve: index not 0, entry valid, epoch bits equal, REFS above 0 (R295)? -/
def Dev.refLive (d : Dev) (ref : Nat) : Bool :=
  let b := d.bent (refIdx ref)
  refIdx ref != 0 && b.valid && b.epoch % 2 ^ 14 == ref / 2 ^ 18 && b.refs != 0
/-- The device address of a page and its length in bytes (R286). -/
def Bushel.addr (b : Bushel) : Nat := b.frame * 4096
def Bushel.bytes (b : Bushel) : Nat := 2 ^ (b.size + 11)
/-- Element size of a page format. -/
def fmtBytes (fmt : Nat) : Nat := if fmt = 2 then 2 else 1
/-- The sizes of R287: row bytes, scale bytes, positions per page. -/
def rowB (hd fmt : Nat) : Nat := ceilDiv (hd * fmtBytes fmt) 64 * 64
def scaleB (heads : Nat) : Nat := ceilDiv (4 * heads) 64 * 64
def pageT (size fmt heads hd : Nat) : Nat :=
  Nat.min 65535 ((2 ^ (size + 11) - scaleB heads) / (2 * heads * rowB hd fmt))

/-! ## Buddy storage (R290): blocks are a 4 KiB unit and an order, the SIZE code less 1 -/

def Dev.freeBlocks (d : Dev) (f : Nat) : List (Nat × Nat) := mget [] d.kv.free f
def Dev.setFree (d : Dev) (f : Nat) (l : List (Nat × Nat)) : Dev :=
  { d with kv := { d.kv with free := mput [] d.kv.free f l } }
/-- Insert a block in address order. -/
def insBlock : List (Nat × Nat) → Nat × Nat → List (Nat × Nat)
  | [], b => [b]
  | c :: l, b => if b.1 < c.1 then b :: c :: l else c :: insBlock l b
/-- Split the block at `a` of order `hi` down to order `lo`: the upper halves become free. -/
def splitBlock (a lo : Nat) : Nat → List (Nat × Nat) → List (Nat × Nat)
  | 0, l => l
  | hi + 1, l => if hi + 1 ≤ lo then l else splitBlock a lo hi (insBlock l (a + 2 ^ hi, hi))
/-- Take a block of an order: the lowest free one of the size, otherwise the lowest larger one, split. -/
def takeBlock (l : List (Nat × Nat)) (o : Nat) : Option (Nat × List (Nat × Nat)) :=
  match l.find? (fun b => b.2 = o) with
  | some b => some (b.1, l.filter (fun c => c != b))
  | none =>
    match l.find? (fun b => o < b.2) with
    | some b => some (b.1, splitBlock b.1 o b.2 (l.filter (fun c => c != b)))
    | none => none
/-- Give a block back; it merges with its free buddy, up to 2 MiB. -/
def giveBlock : Nat → List (Nat × Nat) → Nat → Nat → List (Nat × Nat)
  | 0, l, a, o => insBlock l (a, o)
  | n + 1, l, a, o =>
    let buddy := if a / 2 ^ o % 2 = 0 then a + 2 ^ o else a - 2 ^ o
    if o < 9 ∧ l.contains (buddy, o) then giveBlock n (l.filter (fun c => c != (buddy, o))) (Nat.min a buddy) (o + 1)
    else insBlock l (a, o)

/-- Release an entry whose REFS and PINS are both 0 (R301). -/
def Dev.settleEntry (d : Dev) (i : Nat) : Dev :=
  let b := d.bent i
  if b.valid && b.refs == 0 && b.pins == 0 then
    let d := d.setFree b.part (giveBlock 10 (d.freeBlocks b.part) b.frame (b.size - 1))
    let d := d.setBent i { b with valid := false, epoch := (b.epoch + 1) % 2 ^ 32 }
    { d with kv := { d.kv with freeQ := d.kv.freeQ ++ [i] } }
  else d
/-- Drop one reader pin. -/
def Dev.unpin (d : Dev) (i : Nat) : Dev :=
  let b := d.bent i
  Dev.settleEntry (d.setBent i { b with pins := b.pins - 1 }) i
/-- Drop the pins of a command (R300). -/
def Dev.unpinAll (d : Dev) (l : List Nat) : Dev := l.foldl Dev.unpin d
def Dev.pin (d : Dev) (i : Nat) : Dev := let b := d.bent i; d.setBent i { b with pins := b.pins + 1 }

/-- The index the next allocation takes (R290): the lowest unused index, then the one whose release is the oldest. -/
def Dev.nextIndex (d : Dev) : Option Nat :=
  if d.kv.unused < 262144 then some d.kv.unused else d.kv.freeQ.head?

/-- Allocate an entry and its storage (R290, R296): none when either is wanting, which counts in KVU_ALLOC_FAIL. -/
def Dev.allocPage (d : Dev) (part cache size fmt : Nat) (foreign : Bool) (package : Nat) : Dev × Option Nat :=
  match d.nextIndex, takeBlock (d.freeBlocks part) (size - 1) with
  | some i, some (a, l) =>
    let b := d.bent i
    let d := (d.setFree part l).setBent i ⟨a, size, fmt, true, foreign, 1, 0, package, part, cache, b.epoch⟩
    let kv := if i = d.kv.unused ∧ d.kv.unused < 262144 then { d.kv with unused := i + 1 } else { d.kv with freeQ := d.kv.freeQ.drop 1 }
    ({ d with kv := kv }, some i)
  | _, _ => (d.addSat F.KVU_ALLOC_FAIL.COUNT 1, none)

/-- The 16-byte result of R294. -/
def Dev.kvResult (d : Dev) (i ref : Nat) : List Nat :=
  let b := d.bent i
  leBytes 4 ref ++ leBytes 2 b.refs ++ leBytes 2 b.pins ++ leBytes 8 (if b.valid then b.addr else 0)

/-- The 128 bits of an entry (Table 2 of R289). -/
def Bushel.word (b : Bushel) : Nat :=
  b.frame + b.size * 2 ^ 24 + b.fmt * 2 ^ 28 + b2n b.valid * 2 ^ 30 + b2n b.foreign * 2 ^ 31 + b.refs * 2 ^ 32 + b.pins * 2 ^ 48 +
  b.package * 2 ^ 64 + b.part * 2 ^ 80 + b.cache * 2 ^ 84 + b.epoch * 2 ^ 96

/-- Function reset: every entry, cache and pool of the partition goes (R300). -/
def Dev.kvReset (d : Dev) (f : Nat) : Dev :=
  let gone := (d.kv.entries.filter (fun p => p.2.valid && p.2.part == f)).map Prod.fst
  let d := gone.foldl (fun d i => let b := d.bent i
    let d := d.setBent i { b with valid := false, refs := 0, pins := 0, epoch := (b.epoch + 1) % 2 ^ 32 }
    { d with kv := { d.kv with freeQ := d.kv.freeQ ++ [i] } }) d
  { d with kv := { d.kv with
      caches := d.kv.caches.filter (fun p => p.2.part != f),
      pools := d.kv.pools.filter (fun p => p.1 != f),
      free := merase d.kv.free f } }

end Sys2Proof.Machine
end

