-- ==== Sys2Proof/Machine/Learn.lean ====
section
/-!
DEFINITION. The energies of the regions and what Tithe learns from them (R466, R469, R474).
-/
namespace Sys2Proof.Machine

/-- The regions in service. -/
def Dev.regions (d : Dev) : List Nat := (List.range d.nReg).filter (fun r => !d.regOut r)
/-- The mean of a list. -/
def meanRat (l : List Rat) : Rat := if l = [] then 0 else l.foldl (· + ·) 0 / l.length
/-- S_k of R466. -/
def sK (k : Nat) : Rat := oppS k / 10000
/-- The key of what is learned of a region: in the phase in progress, or over whole frames of ring work without a plan. -/
def Dev.learnKey (d : Dev) (r : Nat) : Nat :=
  6 * (match d.frame.variant, d.frame.phase with
    | some v, some n => 1 + 64 * v + n
    | _, _ => 0) + r
/-- The energy since it was last added up, at given readings of each region, monitor and estimate: it counts for the frame (R474), and, at
the operating points in use, for the phase (R469); while the model diverges the monitors stand in for the estimate (R475). -/
def Dev.addEnergy (d : Dev) (mon : List (Nat × Nat)) : Dev :=
  let dt := d.now - d.pwr.energyAt
  let used := mon.map (fun p => if d.on F.PWR_STAT.DIVERGED then p.1 else p.2)
  { d with pwr := { d.pwr with
    energyAt := d.now,
    phaseEnergy := (List.range 6).map (fun r => d.pwr.phaseEnergy.getD r 0 + (used.getD r 0 : Rat) * dt / sK (d.pwr.opp.getD r 0)),
    frameE := d.pwr.frameE + sumNat (mon.map Prod.snd) * dt, frameM := d.pwr.frameM + sumNat (mon.map Prod.fst) * dt } }
/-- The energy up to now, at the last samples: before a phase or a frame ends, or a region changes its point. DESIGN CHOICE: log entry 152. -/
def Dev.energyNow (d : Dev) : Dev := d.addEnergy (((d.pwr.samples.getLast?).map Prod.snd).getD [])
/-- A phase starts, or a frame without a plan, which counts as one. -/
def Dev.openPhase (d : Dev) : Dev := let d := d.energyNow; { d with pwr := { d.pwr with phaseEnergy := [], phaseFrom := some d.now } }
/-- A phase ends, or a frame without a plan: what it taught is kept over the last 16 frames. DEDUCED: log entry 152. -/
def Dev.closePhase (d : Dev) : Dev :=
  let d := d.energyNow
  match d.pwr.phaseFrom with
  | none => d
  | some t0 =>
    let l := if t0 < d.now then d.regions.foldl (fun (m : List (Nat × List Rat)) r =>
      mset m (d.learnKey r) (((mget [] m (d.learnKey r)) ++ [d.pwr.phaseEnergy.getD r 0 / ((d.now - t0 : Nat) : Rat)]).reverse.take 16).reverse)
      d.pwr.learned else d.pwr.learned
    { d with pwr := { d.pwr with learned := l, phaseEnergy := [], phaseFrom := none } }

end Sys2Proof.Machine
end

