-- ==== Sys2Proof/Machine/Cmd.lean ====
section
/-!
DEFINITION. The life of a command: completion records and interrupts (R113, R117 to R120), the end of ring and Ordo commands (R60, R64,
R107, R250), kills with a final status, and the candidates of tasks (R59, R60, R311).
-/
namespace Sys2Proof.Machine

/-! ## Status codes (Table 10 of R121) -/

def stOk : Nat := 0x00
def stAlign : Nat := 0x01
def stUnitAbsent : Nat := 0x02
def stCtxExhausted : Nat := 0x03
def stWaitExpired : Nat := 0x04
def stKilled : Nat := 0x05
def stBudget : Nat := 0x06
def stIndexRange : Nat := 0x07
def stFormat : Nat := 0x08
def stDim : Nat := 0x09
def stLate : Nat := 0x0A
def stBounds : Nat := 0x0B
def stStale : Nat := 0x0C
def stDenied : Nat := 0x0D
def stResolved : Nat := 0x0E
def stInvalidated : Nat := 0x0F
def stReserved : Nat := 0x10
def stZero : Nat := 0x11

/-! ## Contexts -/

/-- The key of context `n` of partition `f` (R101). -/
def ckey (f n : Nat) : Nat := f * 4096 + n
def Dev.ctx (d : Dev) (key : Nat) : Option Ctx := mfind d.ctxs key
def Dev.modCtx (d : Dev) (key : Nat) (f : Ctx → Ctx) : Dev := { d with ctxs := mmod d.ctxs key f }
/-- Records of the completion ring, and those that are neither unread nor reserved (R113). -/
def Ctx.size (c : Ctx) : Nat := 2 ^ c.cqLog2
def Ctx.freeRecs (c : Ctx) : Nat := c.size - c.unread - (c.cmds.filter (fun k => k.idx < 65536)).length
/-- Is the context named by a valid variant of the active or pending bank (R108)? -/
def Dev.bankNames (d : Dev) (p : Slot → Bool) : Bool :=
  let active := d.frame.banks.getD (d.f F.SCH_ORDO_CTRL.BANK) []
  let pend := if d.on F.SCH_ORDO_CTRL.PENDING then d.frame.banks.getD (1 - d.f F.SCH_ORDO_CTRL.BANK) [] else []
  (active ++ pend).any (fun v => v.2.slots.any p)
def Dev.pinned (d : Dev) (key : Nat) : Bool := d.bankNames (fun s => ckey s.part s.ctx == key)
/-- Does the context have a command whose record is still to be written (R108)? -/
def Dev.ctxBusy (d : Dev) (key : Nat) : Bool :=
  d.runs.any (fun p => ckey p.2.part p.2.ctx == key) || ((d.ctx key).map (fun c => !c.cmds.isEmpty || c.ending.isSome)).getD false

/-- What the interrupt of a context's record does (R120): the vector is signalled when COAL_COUNT unsignalled records have been
written, or at once for a record with IRQ, a status other than OK or KIND 2. -/
def Dev.signalRec (d : Dev) (key : Nat) (atOnce : Bool) : Dev :=
  match d.ctx key with
  | none => d
  | some c =>
    if c.vector = 0 then d else
    if atOnce || Nat.max 1 c.coalCount ≤ c.unsig + 1 then
      Dev.send (d.modCtx key (fun c => { c with unsig := 0, unsigSince := none })) (.msix (key / 4096) c.vector)
    else d.modCtx key (fun c => { c with unsig := c.unsig + 1, unsigSince := c.unsigSince.or (some d.now) })

/-- The fields of a completion record (Table 9 of R117). -/
structure Rec where
  kind : Nat
  tag : Nat
  sqIdx : Nat
  status : Nat
  detail : Nat
  slow : Nat
  info : Nat
  irq : Bool
  deriving DecidableEq, Repr

/-- The 32 bytes of a record. -/
def Dev.recBytes (d : Dev) (r : Rec) (phase : Bool) : List Nat :=
  leBytes 8 r.tag ++ leBytes 2 r.sqIdx ++ [r.status % 256, r.kind % 256] ++ leBytes 4 r.detail ++ leBytes 8 d.now ++
  leBytes 2 r.slow ++ leBytes 2 d.frame.frameNo ++ [r.info % 256, 0, 0, if phase then 0x80 else 0]

/-- Write a record to the context's completion ring (R117). Record `k` has phase 1 on the first pass through the ring. -/
def Dev.emit (d : Dev) (key : Nat) (r : Rec) : Dev :=
  match d.ctx key with
  | none => d
  | some c =>
    if !c.attached then d else
    let d := d.wrHost (c.cqBase + 32 * (c.written % c.size)) (d.recBytes r (c.written / c.size % 2 == 0))
    let d := d.modCtx key (fun c => { c with written := c.written + 1, unread := c.unread + 1 })
    d.signalRec key (r.irq || r.status != 0 || r.kind == 2)

/-- A record of KIND 1 or 2 uses a free record, or is dropped with CQ_OVERFLOW (R119), as every one is before the link is up (R386). A context left without rings by a link or
function reset drops it silently (R504). -/
def Dev.emitFree (d : Dev) (key : Nat) (r : Rec) : Dev :=
  match d.ctx key with
  | none => d
  | some c =>
    if !c.attached then d else
    if d.rst.linkUp && decide (0 < c.freeRecs) then d.emit key r else
    let d := d.set (F.HIF_FN_EVENT_CTX.CTX (key / 4096)) (key % 4096)
    Dev.raise (d.fnEvent (key / 4096) 0) 0x102 0x8000 0 6

/-! ## Ring commands -/

/-- Is it a command of the restart manifest (R386)? Its ring index is 65,536. DEDUCED: log entry 127. -/
def RingCmd.replays (k : RingCmd) : Bool := decide (65536 ≤ k.idx)
/-- The record of the oldest ring command, and its end. Under QUIET an OK writes none (R118); a context being destroyed writes none
(R107); a command of the restart manifest, which carries the ring index 65,536, writes none and answers its status to the replay
(R386). -/
def Dev.endHead (d : Dev) (key status detail slow info : Nat) : Dev :=
  match d.ctx key with
  | none => d
  | some c =>
    match c.cmds with
    | [] => d
    | k :: ks =>
      let fl := k.bytes.getD 1 0
      let d := d.modCtx key (fun c => { c with cmds := ks })
      let gone := (match c.ending with | some (true, _) => true | _ => false)
      if k.replays then { d with safe := { d.safe with replayStatus := some (if gone then stKilled else status) } } else
      if (maskHas fl 1 && status == 0) || gone then d
      else d.emit key ⟨0, bfield k.bytes 8 8, k.idx, status, detail, slow, info, maskHas fl 0⟩

/-- Set what the oldest ring command is doing. -/
def Dev.setHead (d : Dev) (key : Nat) (st : CmdSt) : Dev :=
  d.modCtx key (fun c => match c.cmds with
    | [] => c
    | k :: ks => { c with cmds := { k with st := st } :: ks })

/-- May ABORT or DESTROY end the oldest ring command now? A commit, a dispatched MODULE_UNLOAD and a dispatched KV copy finish first
(R107, R247, R297). DEDUCED: log entry 74. -/
def Dev.endable (d : Dev) (k : RingCmd) : Bool :=
  match k.st with
  | .running id => (match mfind d.runs id with | some r => !r.inCommit | none => true)
  | .unloading _ => false
  | .cow _ => false
  | _ => true

/-- The entries, caches and pools of a partition go, unless a command of it is still in its commit (R300). -/
def Dev.kvSettle (d : Dev) (f : Nat) : Dev :=
  if d.kv.ending.contains f && !d.runs.any (fun q => q.2.part == f && q.2.inCommit) then
    Dev.kvReset { d with kv := { d.kv with ending := d.kv.ending.filter (fun x => x != f) } } f
  else d
/-- What a function reset does to the Bushel table: it ends the commands of the partition first (R300). -/
def Dev.kvEnd (d : Dev) (f : Nat) : Dev := Dev.kvSettle { d with kv := { d.kv with ending := insNat d.kv.ending f } } f
/-- Take a command away without a record: its pins drop, its memories become undefined, its run ends (R249). -/
def Dev.dropRun (d : Dev) (id : Nat) : Dev :=
  match mfind d.runs id with
  | none => d
  | some r =>
    let d := d.charge id true
    let d := (d.unpinAll r.pins).forgetRun r
    Dev.kvSettle { d with runs := merase d.runs id } r.part

/-- A transfer of `n` granules that is cut short: `go` brings granule `i`, and each has come or has not, a free choice (R115, R137, R442,
R502). DEDUCED: log entry 75. -/
def Dev.someGranules (d : Dev) (n : Nat) (go : Dev → Nat → Dev) : Dev :=
  (List.range n).foldl (fun (e : Dev) i => if Config.freeBool (d.fresh + i) then go e i else e) { d with fresh := d.fresh + n }
/-- The granules of HBM at `a` after a transfer of these bytes that is cut short. -/
def Dev.mixHbm (d : Dev) (a : Nat) (new : List Nat) : Dev :=
  d.someGranules (ceilDiv new.length 64) (fun e i => e.wrHbm (a + 64 * i) ((new.drop (64 * i)).take 64))

/-- What a killed COPY leaves in its destination. The fields are those of Table 8. DEDUCED: log entry 75. -/
def Dev.copyMix (d : Dev) (bs : List Nat) : Dev :=
  let src := bfield bs 16 8
  let dst := bfield bs 24 8
  let n := bfield bs 32 4
  let sp := bs.getD 36 0
  let new := if maskHas sp 0 then d.rdHost src n else d.rdHbm src n
  if maskHas sp 1 then
    d.someGranules (ceilDiv n 64) (fun e i => e.wrHost (dst + 64 * i) ((new.drop (64 * i)).take 64))
  else d.mixHbm dst new

/-- A killed PULL: a granule that has come holds what its owner sent, which is not known here. DEDUCED: log entry 76. -/
def Dev.pullMix (d : Dev) (bs : List Nat) : Dev :=
  let dst := bfield bs 24 8
  d.someGranules (ceilDiv (bfield bs 32 4) 64) (fun e i =>
    let g := dst + 64 * i
    Dev.take (Dev.setPoison { e with mem := { e.mem with hbm := e.mem.hbm.forget g (g + 64) e.fresh } }
      (e.mem.poison.filter (fun p => p != g))))

/-- Stop what the oldest ring command is doing, without a record. DEDUCED: log entry 76. -/
def Dev.stopHead (d : Dev) (k : RingCmd) : Dev :=
  match k.st with
  | .running id => d.dropRun id
  | .copying => d.copyMix k.bytes
  | .pulling => d.pullMix k.bytes
  | _ => d

/-- The entry that a command runs. -/
def Dev.entryNow (d : Dev) (r : Run) : Option Entry := (mfind d.mods r.modId).bind (fun m => m.entries[r.entry]?)

/-- SLOWDOWN of a command that holds its engines (R327): from the dispatch of its final run to now, less what is excluded, over its WCET
at the frequency of that dispatch, doubled for an Octave run; none without a WCET. DEDUCED: log entry 54. -/
def Dev.slowdown (d : Dev) (r : Run) : Option Nat :=
  match d.entryNow r with
  | none => none
  | some e =>
    if !e.hasWcet || !r.holds then none else
    let ex := r.excluded + (match r.exFrom with
      | some t => d.now - t
      | none => 0)
    let ref := (e.wcetAc * 1000 + e.wcetNs * r.freq) * (if r.octave then 2 else 1)
    some (if ref = 0 then 65535 else Nat.min 65535 (256 * (d.now - r.dispatchedAt - ex) * r.freq / ref))

/-- A SLOWDOWN enters the statistics of the frame (R328). -/
def Dev.countSlow (d : Dev) (key x : Nat) : Dev :=
  let d := d.modCtx key (fun c => { c with frSum := c.frSum + x, frCount := c.frCount + 1 })
  let f := key / 4096 % 16
  { d with frame := { d.frame with partSlow := mset d.frame.partSlow f (mget [] d.frame.partSlow f ++ [x]) } }
/-- The context in whose statistics a command counts; one whose context a link or function reset has removed counts in those of its
partition alone. DESIGN CHOICE: log entry 168. -/
def Run.statKey (r : Run) : Nat := ckey r.part (r.ctx % 4096) + (if bitOf r.ctx 22 then 0x10000 else 0)
/-- The statistics of R328: of the context, and of the frame; a command that ends at the instant of the next tick belongs to the frame that
the tick starts. DEDUCED: log entry 54. -/
def Dev.noteSlow (d : Dev) (r : Run) (v : Option Nat) : Dev :=
  match v with
  | none => d
  | some x =>
    let key := r.statKey
    let d := d.modCtx key (fun c => { c with last := x, peak := Nat.max c.peak x })
    if d.running && decide (d.frame.nextTick ≤ d.now) then { d with frame := { d.frame with late := d.frame.late ++ [(key, x)] } }
    else d.countSlow key x

/-- Bits 1:0 of INFO (Table 9). -/
def Run.info (r : Run) : Nat := b2n r.rerun + 2 * b2n r.octave
/-- The oldest ring command ends with a status before its time: what it is doing stops, and its record is that of a RUN, with SLOWDOWN
and INFO (R116, R117, R328). DETAIL is 0, for a WAIT too. DESIGN CHOICE: log entry 194. -/
def Dev.cutHead (d : Dev) (key : Nat) (k : RingCmd) (status : Nat) : Dev :=
  match (match k.st with
    | .running id => mfind d.runs id
    | _ => none) with
  | some r => ((d.stopHead k).noteSlow r (d.slowdown r)).endHead key status 0 ((d.slowdown r).getD 0) r.info
  | none => (d.stopHead k).endHead key status 0 0 0

/-- A context is no more: its number is free. -/
def Dev.dropCtx (d : Dev) (key : Nat) : Dev := { d with ctxs := merase d.ctxs key, turns := d.turns.filter (fun k => k != key) }
/-- DESTROY a context (R107): its windows close (R437). -/
def Dev.freeCtx (d : Dev) (key : Nat) : Dev := (d.closeWhere (fun w => ckey w.part w.ctx == key)).dropCtx key

/-- A HIF_FN_CTX_CMD operation ends: STATUS, BUSY and OP_DONE (Table 3 of R103). -/
def Dev.opDone (d : Dev) (fn status : Nat) : Dev :=
  Dev.fnEvent ((d.set (F.HIF_FN_CTX_CMD.STATUS fn) status).set (F.HIF_FN_CTX_CMD.BUSY fn) 0) fn 3

/-- Carry on with the oldest ring commands of a context: a descriptor that failed its check completes in its turn (R113, R114); an
ABORT writes its KILLED records in ring order, the unfetched ones only into free records, and then ends; a DESTROY frees the context
(R107). -/
def Dev.pump (d : Dev) (key : Nat) : Nat → Dev
  | 0 => d
  | n + 1 =>
    match d.ctx key with
    | none => d
    | some c =>
      match c.ending, c.cmds with
      | none, k :: _ =>
        (match k.st with
        | .failed s => Dev.pump (d.endHead key s 0 0 0) key n
        | _ => d)
      | none, [] => d
      | some (true, _), k :: _ =>
        if d.endable k then Dev.pump (d.cutHead key k stKilled) key n else d
      | some (true, _), [] => (d.freeCtx key).opDone (key / 4096) stOk
      | some (false, _), k :: _ =>
        if d.endable k then Dev.pump (d.cutHead key k stKilled) key n else d
      | some (false, t), [] =>
        if c.fetch = t then
          (d.modCtx key (fun c => { c with ending := none })).opDone (key / 4096) stOk
        else if 0 < c.freeRecs then
          let b := d.rdHost (c.sqBase + 64 * c.fetch) 16
          let d := d.modCtx key (fun c => { c with fetch := (c.fetch + 1) % 2 ^ c.sqLog2 })
          Dev.pump (d.emit key ⟨0, bfield b 8 8, c.fetch, stKilled, 0, 0, 0, maskHas (b.getD 1 0) 0⟩) key n
        else d

/-- A context that is left without a candidate at a command boundary leaves its queue (R318): a fetched command of any kind is one (R313). -/
def Dev.leaveTurn (d : Dev) (key : Nat) : Dev :=
  let stays := match (d.ctx key).bind (fun c => c.cmds.head?) with
    | some k => (match k.st with
      | .fetched => true
      | .running _ => true
      | _ => false)
    | none => false
  if stays then d else { d with turns := d.turns.filter (fun k => k != key) }

/-- The number of ring commands and ring entries bounds the work of `pump`. -/
def Dev.pumpCtx (d : Dev) (key : Nat) : Dev :=
  match d.ctx key with
  | none => d
  | some c => (d.pump key (c.cmds.length + 2 ^ c.sqLog2 + 2)).leaveTurn key

/-- The oldest ring command completes, and the ring goes on. -/
def Dev.complete (d : Dev) (key status detail slow info : Nat) : Dev :=
  (d.endHead key status detail slow info).pumpCtx key

/-! ## Ordo commands -/

/-- The reason a final status counts toward (R64); `cause` is the reason of an INVALIDATED. -/
def reasonOf (status cause : Nat) : Option Nat :=
  if status = stOk ∨ status = stResolved then none
  else if status = stBudget then some 7
  else if status = stInvalidated then some cause
  else some 5

def Dev.modTask (d : Dev) (slot : Nat) (f : Task → Task) : Dev :=
  { d with frame := { d.frame with tasks := d.frame.tasks.map (fun k => if k.slot = slot then f k else k) } }
def Dev.task (d : Dev) (slot : Nat) : Option Task := d.frame.tasks.find? (fun k => k.slot = slot)
/-- The plan variant in use this frame (R66). -/
def Dev.plan (d : Dev) : Option Variant :=
  match d.frame.variant with
  | none => none
  | some v => mfind (d.frame.banks.getD (d.f F.SCH_ORDO_CTRL.BANK) []) v
def Dev.slotOf (d : Dev) (slot : Nat) : Option Slot := d.plan.bind (fun v => v.slots[slot]?)

/-- A command that has not run, from the bytes of its RUN descriptor (Table 8). -/
def mkRun (part ctx : Nat) (ordo : Bool) (task idx : Nat) (bs : List Nat) (safety : Bool) : Run :=
  { part := part, ctx := ctx, ordo := ordo, frame := 0, task := task, cmdIdx := idx, place := bs.getD 20 0, pcMask := bs.getD 21 0,
    engMask := bfield bs 22 2, modId := bfield bs 16 2, entry := bfield bs 18 2, argAddr := bfield bs 24 8, safety := safety,
    phase := .cand, dispatched := false, members := [], prep := [], prepAt := none, xfers := [], keep := [], wrote := [], undo := [], attn := none, args := [], snap := [], maps := [], pins := [], pages := [],
    pieces := [], signals := [], indexRange := false, scrFail := false, scrUnits := [], runPhys := [], recs := [],
    agree12 := none, troyFailed := false, qmRerun := false, rerun := false, octave := false, guarded := false, slicePre := false,
    src := .scratch, remotes := [], status := 0, endKill := none, dispatchedAt := 0, excluded := 0, exFrom := none,
    chargeFrom := none, banked := 0, freq := 600 }

def Dev.addRun (d : Dev) (r : Run) : Dev := { d with runs := mset d.runs d.nextRun r, nextRun := d.nextRun + 1 }
def Dev.modRun (d : Dev) (id : Nat) (f : Run → Run) : Dev := { d with runs := mmod d.runs id f }

/-- The next command of a released task becomes a candidate (R60, R313). -/
def Dev.pushTask (d : Dev) (slot : Nat) : Dev :=
  match d.task slot, d.slotOf slot with
  | some k, some s =>
    if k.released && !k.ended && !d.frame.vigilDone then
      match s.list[k.next]? with
      | some bs => d.addRun { mkRun s.part s.ctx true slot k.next bs s.safety with frame := d.frame.frameNo }
      | none => d
    else d
  | _, _ => d

/-- The phase in progress ends with its last task (R59, R469). -/
def Dev.phaseDone (d : Dev) : Dev :=
  match d.plan, d.frame.phase with
  | some v, some n =>
    if ((v.phases[n]?).any (fun p => (List.range p.taskCount).all (fun i => ((d.task (p.firstTask + i)).map Task.ended).getD true))) then
      d.closePhase else d
  | _, _ => d
/-- A command of a task ends (R60, R62, R118): its record under ORDO_CPL, and the task goes on, or ends, if its frame still runs. -/
def Dev.endTaskCmd (d : Dev) (r : Run) (status cause slow : Nat) : Dev :=
  let key := ckey r.part r.ctx
  let d := match d.ctx key with
    | some c => if c.ordoCpl then d.emitFree key ⟨1, r.task + r.cmdIdx * 2 ^ 16 + r.frame % 2 ^ 32 * 2 ^ 32, 0, status, 0, slow,
        r.info, false⟩ else d
    | none => d
  if r.frame ≠ d.frame.frameNo then d else
  let n := ((d.slotOf r.task).map (fun s => s.list.length)).getD 0
  let goes := (status == stOk || status == stResolved || status == stIndexRange) && r.endKill.isNone
  let d := d.modTask r.task (fun k =>
    let k := { k with reasons := k.reasons ++ (reasonOf status cause).toList ++ r.endKill.toList, next := k.next + 1 }
    if goes && k.next < n then k else { k with ended := true, endedAt := d.now })
  (if goes then d.pushTask r.task else d).phaseDone

/-- A command ends with its final status (R250): its pins drop, its engines are free, its record is written. One of the restart manifest
that a reset has left without its context still answers the replay (R386). -/
def Dev.finish (d : Dev) (id status cause : Nat) : Dev :=
  match mfind d.runs id with
  | none => d
  | some r =>
    let sl := d.slowdown r
    let slow := sl.getD 0
    let d := (d.dropRun id).noteSlow r sl
    if r.ordo then d.endTaskCmd r status cause slow
    else if bitOf r.ctx 21 then { d with safe := { d.safe with replayStatus := some status } }
    else d.complete (ckey r.part r.ctx) status 0 slow r.info

/-- Kill a command with a final status (R249, R250); one in its commit phase finishes its commit (R247). -/
def Dev.killFinal (d : Dev) (id status cause : Nat) : Dev :=
  match mfind d.runs id with
  | none => d
  | some r => if r.inCommit then d else d.finish id status cause

/-- Kill what the oldest ring commands that hold no engine are doing: copies, pulls and waits. -/
def Dev.killHeads (d : Dev) (p : Nat → Bool) (status : Nat) : Dev :=
  (d.ctxs.filter (fun q => p q.1)).foldl (fun d q =>
    match (d.ctx q.1).bind (fun c => c.cmds.head?) with
    | none => d
    | some k =>
      match k.st with
      | .copying => (d.stopHead k).complete q.1 status 0 0 0
      | .pulling => (d.stopHead k).complete q.1 status 0 0 0
      | .waiting _ _ _ => d.complete q.1 status 0 0 0
      | _ => d) d

/-- Kill every command that a predicate selects. DEDUCED: log entry 156. -/
def Dev.killWhere (d : Dev) (p : Run → Bool) (status cause : Nat) : Dev :=
  (d.runs.filter (fun q => p q.2)).foldl (fun d q => d.killFinal q.1 status cause) d

end Sys2Proof.Machine
end

