-- ==== Sys2Proof/Machine/Sirtin.lean ====
section
/-!
DEFINITION. Sirtin words (R194 to R215): the fields of the base word and the extension words, the structure of an entry, and the checks
a module load makes on them.
-/
namespace Sys2Proof.Machine

/-! ## Fields of the base word (Table 1 of R195) -/

def iCls (w : Nat) : Nat := bits w 3 0
def iOp (w : Nat) : Nat := bits w 9 4
def iExt (w : Nat) : Nat := bits w 11 10
def iRd0 (w : Nat) : Nat := bits w 14 12
def iRd1 (w : Nat) : Nat := bits w 17 15
def iWr (w : Nat) : Nat := bits w 20 18
def iSelf (w n : Nat) : Bool := bitOf w (21 + n)
def iGang (w n : Nat) : Bool := bitOf w (25 + n)
def iLstep (w : Nat) : Bool := bitOf w 29
def iGstride (w : Nat) : Nat := bits w 47 32
/-- Operand slot 0 to 2. -/
def iSlot (w n : Nat) : Nat := bits w (71 + 24 * n) (48 + 24 * n)
/-- The class bits 127:120. -/
def iClassBits (w : Nat) : Nat := bits w 127 120

/-- An instruction: the index of its base word in the code section, the base word and its extension words. -/
structure Ins where
  idx : Nat
  w : Nat
  ext : List Nat
  deriving DecidableEq, Repr

def Ins.cls (i : Ins) : Nat := iCls i.w
def Ins.op (i : Ins) : Nat := iOp i.w
/-- Extension word `n`. -/
def Ins.x (i : Ins) (n : Nat) : Nat := i.ext.getD n 0
/-- Words of the instruction. -/
def Ins.len (i : Ins) : Nat := 1 + i.ext.length
/-- Operand slot `n`; slot 3 lies in the first extension word (R203). -/
def Ins.slot (i : Ins) (n : Nat) : Nat := if n = 3 then bits (i.x 0) 23 0 else iSlot i.w n
def Ins.long (i : Ins) : Bool := i.cls < 6

/-- The instruction at word `p` of a code section. -/
def insAt (code : List Nat) (p : Nat) : Option Ins :=
  match code[p]? with
  | none => none
  | some w => some ⟨p, w, (code.drop (p + 1)).take (iExt w)⟩

/-- The instructions from word `p` on, to word `e`. -/
def insFrom (code : List Nat) (e : Nat) : Nat → Nat → List Ins
  | 0, _ => []
  | n + 1, p =>
    if e ≤ p then [] else
    match insAt code p with
    | none => []
    | some i => i :: insFrom code e n (p + i.len)

/-- The instructions of an entry (R217). -/
def Module.insOf (m : Module) (e : Entry) : List Ins := insFrom m.code (e.first + e.words) e.words e.first

/-! ## What each operation admits (Table 2 of R203) -/

/-- The EXT values an operation admits; none for an undefined OP. -/
def extAllowed (cls op : Nat) : Option (List Nat) :=
  match cls with
  | 0 => if op = 0 then some [1] else none
  | 1 => if op ≤ 0x14 then some [1] else if op = 0x15 then some [3] else none
  | 2 => if op ≤ 1 then some [0] else none
  | 3 => if op = 0 then some [0] else if op = 1 then some [1] else none
  | 4 => if op ≤ 2 then some [0] else none
  | 5 => if op = 0 then some [1] else none
  | 6 => if op = 1 then some [0, 1] else if op = 0 ∨ op = 2 then some [0] else none
  | 7 => if op = 0 then some [0, 1] else if op ≤ 2 then some [0] else none
  | 8 => if op ≤ 3 then some [0] else none
  | _ => none

/-- The operand slots an instruction uses (R203, R208): a slot it does not use must be zero (R197). -/
def Ins.used (i : Ins) : List Nat :=
  match i.cls with
  | 0 => [0, 1, 2] ++ (if bitOf i.w 120 then [3] else [])
  | 1 =>
    if i.op = 0x04 then [0, 1, 2, 3]
    else if i.op = 0x15 then [0, 1, 2, 3]
    else if i.op = 0x14 then [0, 1, 2]
    else if [0x01, 0x02, 0x03, 0x05, 0x06, 0x10].contains i.op then [0, 1, 2]
    else [0, 2]
  | 2 => [0, 1]
  | 3 => [0, 1]
  | 4 => [0, 1, 2]
  | 5 => [0, 1] ++ (if bitOf (i.x 0) 77 then [2] else []) ++ [3]
  | _ => []

/-! ## Load checks (R194 to R215): category and byte offset of each failing item; categories are numbered in the order of R219 -/

def catReserved : Nat := 0
def catFormat : Nat := 1
def catZero : Nat := 2
def catAbsent : Nat := 3
def catBounds : Nat := 4
def catAlign : Nat := 5
/-- The status code of a category. -/
def catStatus (c : Nat) : Nat := [0x10, 0x08, 0x11, 0x02, 0x0B, 0x01].getD c 0x08

/-- A failing item, when a condition holds. -/
def failIf (c : Bool) (cat off : Nat) : List (Nat × Nat) := if c then [(cat, off)] else []

/-- The instruction as one number: the base word, then its extension words (R194). -/
def Ins.v (i : Ins) : Nat := i.w + 2 ^ 128 * (i.x 0 + 2 ^ 128 * (i.x 1 + 2 ^ 128 * i.x 2))
/-- The lowest set bit of bits `hi:lo` of a number. -/
def lowBit (v hi lo : Nat) : Option Nat := (List.range (hi + 1 - lo)).findSome? (fun k => if bitOf v (lo + k) then some (lo + k) else none)
/-- A reserved range of bits of `v`, which starts at byte `o`: it fails at the byte of its lowest set bit. -/
def resvIn (v o hi lo : Nat) : List (Nat × Nat) :=
  match lowBit v hi lo with
  | some k => [(catReserved, o + k / 8)]
  | none => []
/-- A field of `v` that admits 1 to `top`: zero is ZERO_RESERVED, a value above it BOUNDS. -/
def rangeIn (v o hi lo top : Nat) : List (Nat × Nat) :=
  failIf (bits v hi lo = 0) catZero (o + lo / 8) ++ failIf (top < bits v hi lo) catBounds (o + lo / 8)

/-- Checks of the class bits, the extension words and the short-instruction fields of one instruction at byte offset `o`. Each failing
field is given the byte offset at which it starts. DEDUCED: log entry 91. -/
def Ins.checkClass (i : Ins) (o : Nat) (attn : Bool) : List (Nat × Nat) :=
  let v := i.v
  let rv := resvIn v o
  let fm := fun (c : Bool) (b : Nat) => failIf c catFormat (o + b / 8)
  match i.cls with
  | 0 =>
    fm (2 ≤ bits v 124 123) 123 ++ fm (bits v 127 126 == 3) 126 ++
    (if bitOf v 120 then [] else rv 151 128) ++ (if bitOf v 253 then [] else rv 175 152) ++ (if bitOf v 254 then [] else rv 199 176) ++
    rv 255 255 ++ rangeIn v o 212 200 4096 ++ rangeIn v o 225 213 4096 ++ rangeIn v o 238 226 4096
  | 1 =>
    rv 127 125 ++ fm (2 ≤ bits v 122 121) 121 ++
    fm (if bitOf v 120 then [0x0C, 0x0D, 0x0E, 0x0F, 0x14, 0x15].contains i.op else i.op == 0x11) 120 ++
    (if i.op = 0x15 then rv 159 152 ++ rv 511 448 else rv 255 230 ++ (if i.op = 0x04 then [] else rv 151 128))
  | 2 => rv 127 120
  | 3 =>
    if i.op = 0 then rv 127 121 else
    rv 127 120 ++ rv 255 255 ++ (if bitOf v 254 then [] else rv 119 96) ++
    [(140, 128), (153, 141), (166, 154), (179, 167), (192, 180), (205, 193)].flatMap (fun p => rangeIn v o p.1 p.2 4096)
  | 4 => rv 127 127 ++ (if bitOf v 124 then [] else rv 126 125) ++ fm (bits v 121 120 == 3) 120
  | 5 =>
    rv 127 120 ++ rv 255 238 ++ rangeIn v o 192 184 256 ++ rangeIn v o 204 193 2048 ++
    fm (iSelf i.w 3) 24 ++ fm (iGang i.w 3) 28 ++ failIf (!attn) catAbsent o
  | 6 => if i.op = 2 then rv 127 48 ++ rv 47 32 ++ rv 28 25 else
    rv 127 94 ++ (if iGang i.w 0 then [] else rv 47 32) ++ rv 28 26 ++ rv 255 192
  | 7 =>
    rv 47 32 ++ rv 28 25 ++
    (if i.op = 0 then rv 127 83 else if i.op = 1 then rv 127 50 else rv 127 83 ++ rv 50 50)
  | 8 => rv 47 32 ++ rv 28 25 ++ (if i.op = 2 then rv 127 58 else if i.op = 3 then rv 127 56 else rv 127 48)
  | _ => []

/-- An operand slot of the absolute form, at bit `lo` of the instruction (R197). -/
def slotFails (v o lo operands : Nat) : List (Nat × Nat) :=
  resvIn v o (lo + 23) (lo + 16) ++ failIf (operands ≤ bits v (lo + 15) lo) catBounds (o + lo / 8)

/-- The bits that every operation of a class reserves in its base word (R207, R209, R211 to R214): they are checked where OP is undefined. -/
def Ins.classReserved (i : Ins) (o : Nat) : List (Nat × Nat) :=
  match i.cls with
  | 1 => resvIn i.v o 127 125
  | 2 => resvIn i.v o 127 120
  | 3 => resvIn i.v o 127 121
  | 4 => resvIn i.v o 127 127
  | 5 => resvIn i.v o 127 120
  | 6 => resvIn i.v o 29 12 ++ resvIn i.v o 47 32
  | 7 => resvIn i.v o 29 12 ++ resvIn i.v o 47 32
  | 8 => resvIn i.v o 29 12 ++ resvIn i.v o 47 32
  | _ => []
/-- An AT or a WINDOW without its extension word does not tell whether it uses slot 2: the bit that says so counts as set. -/
def Ins.filled (i : Ins) : Ins :=
  if i.ext = [] then (if i.cls = 5 then { i with ext := [2 ^ 77] } else if i.cls = 3 ∧ i.op = 1 then { i with ext := [2 ^ 126] } else i) else i
/-- Every check a load makes on one instruction word and its extension words. `abs` says that the module has the absolute form. An
undefined OP leaves the bits that its class reserves to be checked. DEDUCED: log entry 91. -/
def Ins.check (i : Ins) (codeOfs : Nat) (abs : Bool) (operands : Nat) (attn : Bool) : List (Nat × Nat) :=
  let i := i.filled
  let o := codeOfs + 16 * i.idx
  let v := i.v
  match extAllowed i.cls i.op with
  | none =>
    resvIn v o 31 30 ++ [(catFormat, o)] ++ i.classReserved o
  | some es =>
    failIf (!es.contains (iExt i.w)) catFormat (o + 1) ++ resvIn v o 31 30 ++
    (if i.long then
      failIf (4 < iRd0 i.w) catFormat (o + 1) ++ failIf (4 < iRd1 i.w) catFormat (o + 1) ++ failIf (4 < iWr i.w) catFormat (o + 2) ++
      [(iRd0 i.w, 1), (iRd1 i.w, 1), (iWr i.w, 2)].flatMap (fun s =>
        failIf (0 < s.1 && s.1 ≤ 4 && !i.used.contains (s.1 - 1)) catBounds (o + s.2)) ++
      [0, 1, 2].flatMap (fun n => if i.used.contains n || (i.cls == 3 && i.op == 1 && n == 2) then [] else
        resvIn v o (71 + 24 * n) (48 + 24 * n)) ++
      (if abs then
        i.used.flatMap (fun n => slotFails v o (if n = 3 then 128 else 48 + 24 * n) operands) ++
        (if i.cls = 0 ∧ bitOf v 253 then slotFails v o 152 operands else []) ++
        (if i.cls = 0 ∧ bitOf v 254 then slotFails v o 176 operands else [])
       else [])
    else resvIn v o 24 12 ++ resvIn v o 29 29) ++
    i.checkClass o attn

/-- The failing items of an entry's structure (R215, R218, R276) with the code section at `co`: `open_` holds the LOOP_BEGIN offset and
the STEP3 of the open loops, `args` is ARG_WORDS. Every LOOP_BEGIN has its LOOP_END, levels equal the number of enclosing loops, and
there is one END, last and outside every loop. DEDUCED: log entry 92. -/
def entryShape (co args : Nat) : List Ins → List (Nat × Nat) → List (Nat × Nat)
  | [], open_ => open_.map (fun p => (catFormat, p.1))
  | i :: is, open_ =>
    let o := co + 16 * i.idx
    if i.cls = 7 ∧ i.op = 0 then
      failIf (bits i.w 49 48 != open_.length) catFormat (o + 6) ++ entryShape co args is ((o, bits (i.x 0) 127 96) :: open_)
    else if i.cls = 7 ∧ i.op = 1 then
      match open_ with
      | [] => (catFormat, o + 6) :: entryShape co args is []
      | _ :: rest => failIf (bits i.w 49 48 != rest.length || is.isEmpty) catFormat (o + 6) ++ entryShape co args is rest
    else
      failIf ((i.cls == 8 && i.op == 1) != is.isEmpty) catFormat o ++
      failIf (i.cls == 8 && i.op == 1 && !open_.isEmpty) catFormat o ++
      failIf (i.cls == 8 && i.op == 3 && args ≤ bits i.w 55 50) catBounds (o + 6) ++
      failIf (i.cls == 5 && iLstep i.w && open_.any (fun s => s.2 != 0)) catFormat (o + 3) ++
      entryShape co args is open_

/-- Does an entry contain an ATTEND (R302, R306)? -/
def Module.hasAttend (m : Module) (e : Entry) : Bool := (m.insOf e).any (fun i => i.cls == 5)
/-- The word after the LOOP_END that matches the LOOP_BEGIN at word `p` of level `l` (R231). DEDUCED: log entry 92. -/
def loopExit (is : List Ins) (p l : Nat) : Nat :=
  match (is.filter (fun i => p < i.idx && i.cls == 7 && i.op == 1 && bits i.w 49 48 == l)).head? with
  | some i => i.idx + i.len
  | none => p

end Sys2Proof.Machine
end

