-- ==== Sys2Proof/Machine/Waits.lean ====
section
/-!
DEFINITION. Waits on flags: the deadline of a wait (R238, R239), and the diagnosis of mutual waits (R241, R242).
-/
namespace Sys2Proof.Machine

/-- The Vigil of the current frame (R47). -/
def Dev.vigilTime (d : Dev) : Nat := Nat.min (d.frame.tick + d.live F.ALM_VIGIL_OFFSET.OFFSET_NS) d.frame.nextTick
/-- Has a deadline passed by `t`? One of 0 passes at the first Vigil after the wait begins, which sets it (R238). -/
def duePast (dl t : Nat) : Bool := dl != 0 && decide (dl ≤ t)

/-- A wait in progress: who waits, on which flag, the pending-signal set of R241, and its deadline, 0 until its Vigil. -/
structure Waiting where
  part : Nat
  ctx : Nat
  ring : Bool
  flag : Nat
  pend : List Nat
  unit : Nat
  dl : Nat
  deriving DecidableEq, Repr

/-- The hardware flag an SY instruction of gang index `g` names (R234). -/
def Dev.syFlag (d : Dev) (part g w : Nat) : Option Nat :=
  d.hwFlag part (bits w 61 48 + if iGang w 0 then g * iGstride w else 0)

/-- The flags of SIGNAL descriptors fetched behind the oldest command of a ring (R241). -/
def Dev.signalsBehind (d : Dev) (key : Nat) : List Nat :=
  match d.ctx key with
  | none => []
  | some c => (c.cmds.drop 1).filterMap (fun k =>
      if k.bytes.getD 0 0 = 3 then d.hwFlag (key / 4096) (bfield k.bytes 16 2) else none)

/-- The flags of the SY SIGNALs of a command's entry that have not yet issued on some member, those of a loop that was skipped among
them. DEDUCED: log entry 107. -/
def Dev.signalsAhead (d : Dev) (r : Run) : List Nat :=
  match mfind d.mods r.modId with
  | none => []
  | some m =>
    match m.entries[r.entry]? with
    | none => []
    | some e =>
      let sig := (m.insOf e).filter (fun i => i.cls == 6 && i.op == 0)
      (List.range r.members.length).flatMap (fun g =>
        let pc := ((r.members[g]?).map Member.pc).getD 0
        let sent := ((r.members[g]?).map Member.sent).getD []
        (sig.filter (fun i => decide (pc ≤ i.idx) || !sent.contains i.idx)).filterMap (fun i => d.syFlag r.part g i.w))

/-- Every wait in progress. -/
def Dev.waits (d : Dev) : List Waiting :=
  (d.runs.flatMap (fun p =>
    let r := p.2
    let key := ckey r.part r.ctx
    let u := ((r.members[0]?).map Member.phys).getD 0
    if r.runNo.isNone then [] else r.members.filterMap (fun m => match m.stall with
      | .wait w => some ⟨r.part, r.ctx, false, w.flag,
          r.signals.map Prod.fst ++ d.signalsAhead r ++ (if r.ordo then [] else d.signalsBehind key), u, w.deadline⟩
      | _ => none))) ++
  (d.ctxs.flatMap (fun q => q.2.cmds.filterMap (fun k => match k.st with
    | .waiting f _ t => some ⟨q.1 / 4096, q.1 % 4096, true, f, d.signalsBehind q.1, 0x8070, t⟩
    | _ => none)))

/-- Is a WAIT outstanding on a flag of the range (R237)? -/
def Dev.waitedOn (d : Dev) (first count : Nat) : Bool :=
  d.waits.any (fun w => first ≤ w.flag && w.flag < first + count)

/-- Of two waits that expire together, X is that of the lower partition, then of the lower context number, and an SY WAIT comes before
a WAIT descriptor (R241). DEDUCED: log entry 107. -/
def Waiting.before (y x : Waiting) : Bool :=
  ckey y.part y.ctx < ckey x.part x.ctx || (ckey y.part y.ctx == ckey x.part x.ctx && !y.ring && x.ring)

/-- The wait `x` expires: look for a context that waits for a flag `x` would have raised while `x` waits for one it would raise
(R241). The first diagnosis is kept; later ones count in MERGED (R242). DEDUCED: log entry 107. -/
def Dev.diagnose (d : Dev) (x : Waiting) : Dev :=
  match d.waits.find? (fun y => ckey y.part y.ctx != ckey x.part x.ctx && x.pend.contains y.flag && y.pend.contains x.flag) with
  | none => d
  | some y =>
    let a := if y.dl = x.dl ∧ y.before x then y else x
    let b := if y.dl = x.dl ∧ y.before x then x else y
    let put := fun (d : Dev) (off : Nat) (w : Waiting) =>
      d.setReg off (BitVec.ofNat 64 (w.ctx + w.part * 2 ^ 12 + w.flag * 2 ^ 16 + b2n w.ring * 2 ^ 30))
    let d := if d.on F.SCH_MUTUAL_STAT.VALID then d.addSat F.SCH_MUTUAL_STAT.MERGED 1
      else ((put (put d R.SCH_MUTUAL_A a) R.SCH_MUTUAL_B b).set F.SCH_MUTUAL_FRAME.FRAME d.frame.frameNo).set F.SCH_MUTUAL_STAT.VALID 1
    d.raise 0x0C3 a.unit (a.flag + a.ctx * 2 ^ 16 + a.part * 2 ^ 28) 0

end Sys2Proof.Machine
end

