-- ==== Sys2Proof/Machine/Validate.lean ====
section
/-!
DEFINITION. The validation of a descriptor at fetch (R114, R293, R294, R306, R307, R311, R436, R437).
-/
namespace Sys2Proof.Machine

/-- Are all bytes `lo` to `hi − 1` of a descriptor zero? -/
def zeroBytes (bs : List Nat) (lo hi : Nat) : Bool := ((bs.drop lo).take (hi - lo)).all (fun b => b == 0)

/-! ## The placement of a RUN (Table 8) -/

/-- Region `3 × die + region` of a PLACE. -/
def placeReg (p : Nat) : Nat := p % 2 * 3 + p / 2 % 4
/-- Its CLUSTER field: 0 to 3, or 7 for a region gang. -/
def placeClu (p : Nat) : Nat := p / 8 % 8
/-- The logical engines of a gang, as cluster and engine, by gang index. -/
def gangOf (place engMask : Nat) : List (Nat × Nat) :=
  if placeClu place = 7 then (maskList engMask 16).map (fun i => (placeReg place * 4 + i / 4, i % 4))
  else (maskList engMask 4).map (fun e => (placeReg place * 4 + placeClu place, e))
/-- The logical prep cores it names. DEDUCED: log entry 173. -/
def prepOf (place pcMask : Nat) : List (Nat × Nat) :=
  if placeClu place = 7 then (maskList pcMask 8).map (fun i => (placeReg place * 4 + i / 2, i % 2))
  else (maskList pcMask 2).map (fun p => (placeReg place * 4 + placeClu place, p))
/-- Its clusters. -/
def clustersOf (place engMask pcMask : Nat) : List Nat :=
  ((gangOf place engMask).map Prod.fst ++ (prepOf place pcMask).map Prod.fst).eraseDups

/-- A loaded module of a partition that still admits new dispatches (R221, R222). -/
def Dev.modOf (d : Dev) (part id : Nat) : Option Module :=
  (mfind d.mods id).bind (fun m => if m.part = part ∧ ¬ m.unloading then some m else none)
def Dev.entryOf (d : Dev) (part id e : Nat) : Option (Module × Entry) :=
  (d.modOf part id).bind (fun m => (m.entries[e]?).map (fun x => (m, x)))

/-- Does an assignment, given by the partition of each cluster and attention unit, grant a RUN its resources (R307, R308)? The
attention unit of the region, or one that can stand in for it, must be the partition's. -/
def Dev.assigned (d : Dev) (part place engMask pcMask : Nat) (att : Bool) (clu : Nat → Nat) (attn : Nat → Nat) : Bool :=
  (clustersOf place engMask pcMask).all (fun k => clu k == part) &&
  (!att || !d.attnOk (placeReg place) || attn (placeReg place) == part)

/-- The checks of R114 on a RUN, from UNIT_ABSENT on; `pend` also checks the pending assignment (R312). -/
def Dev.checkRun (d : Dev) (part : Nat) (bs : List Nat) (pend : Bool) : Nat :=
  let place := bs.getD 20 0
  let pcMask := bs.getD 21 0
  let engMask := bfield bs 22 2
  let arg := bfield bs 24 8
  let r := placeReg place
  let c := placeClu place
  let badPlace := (4 ≤ c && c ≤ 6) || place / 2 % 4 == 3 || (c != 7 && (15 < engMask || 3 < pcMask))
  if d.oneDie && place % 2 == 1 then stUnitAbsent else
  if place / 2 % 4 != 3 && (d.regOut r || ((c < 4 || c == 7) && ((gangOf place engMask).any (fun q => (d.engOf q.1 q.2).isNone) ||
      (prepOf place pcMask).any (fun q => (d.pcOf q.1 q.2).isNone)))) then stUnitAbsent else
  match d.entryOf part (bfield bs 16 2) (bfield bs 18 2) with
  | none => stBounds
  | some (m, e) =>
    let att := m.hasAttend e
    if badPlace || (maskList engMask 16).length != e.gangSize || (c == 7) != e.region ||
      (d.safetyPart part && !e.hasWcet) ||
      !d.assigned part place engMask pcMask att d.cluPart d.attnPart ||
      (pend && d.partPending && !d.assigned part place engMask pcMask att d.cluPartPend d.attnPartPend) ||
      (arg != 0 && e.argWords != 0 && !d.inPart part arg (4 * e.argWords)) then stBounds
    else if arg % 64 != 0 then stAlign else stOk

/-- RESERVED_FIELD of a payload, by opcode (Table 8 of R114, Table 4 of R293, Table 1 of R436). -/
def reservedPayload (bs : List Nat) : Bool :=
  let sub := bs.getD 16 0
  let obj := bfield bs 20 4
  let addr := bfield bs 24 8
  let size := bfield bs 32 4
  let arg := bfield bs 36 8
  match bs.getD 0 0 with
  | 0 => !zeroBytes bs 16 64
  | 1 => 64 ≤ bs.getD 20 0 || !zeroBytes bs 32 64
  | 2 => !zeroBytes bs 37 64
  | 3 => !zeroBytes bs 18 20 || !zeroBytes bs 24 64
  | 4 => !zeroBytes bs 18 20 || !zeroBytes bs 32 64
  | 5 => !zeroBytes bs 28 64
  | 6 => !zeroBytes bs 18 64
  | 7 => !zeroBytes bs 18 20 || !zeroBytes bs 32 64
  | 8 => !zeroBytes bs 17 20 || !zeroBytes bs 44 64 ||
    (match sub with
     | 0 => obj != 0 || arg != 0
     | 1 => obj != 0 || arg != 0
     | 2 => addr != 0 || size != 0 || 2 ^ 23 ≤ arg
     | 3 => addr != 0 || size != 0 || arg != 0
     | 4 => size != 0 || 2 ^ 22 ≤ arg || (!bitOf arg 6 && bits arg 21 7 != 0)
     | 5 => size != 0 || arg != 0
     | 6 => size != 0 || arg != 0
     | 7 => size != 0 || arg != 0
     | _ => false)
  | 9 => !zeroBytes bs 17 20 || !zeroBytes bs 44 64 || 1024 ≤ obj ||
    (match sub with
     | 0 => 2 ^ 22 ≤ size
     | 1 => addr != 0 || size != 0 || arg != 0
     | 2 => addr != 0 || size != 0 || arg != 0
     | 3 => addr != 0 || size != 0 || 2 ^ 46 ≤ arg
     | 4 => 2 ^ 40 ≤ arg
     | _ => false)
  | _ => false

/-- FORMAT: an unknown OPCODE, or an undefined SUBOP, SPACE, FMT or SPREAD. -/
def badFormat (bs : List Nat) : Bool :=
  let sub := bs.getD 16 0
  let arg := bfield bs 36 8
  match bs.getD 0 0 with
  | 2 => 4 ≤ bs.getD 36 0
  | 8 => 8 ≤ sub || (sub == 2 && bits arg 22 21 == 3) || (sub == 4 && bits arg 5 4 == 3)
  | 9 => 5 ≤ sub
  | n => 9 < n

/-- ZERO_RESERVED: a zero in a field where zero has no meaning. -/
def badZero (bs : List Nat) : Bool :=
  let sub := bs.getD 16 0
  let addr := bfield bs 24 8
  let arg := bfield bs 36 8
  match bs.getD 0 0 with
  | 1 => bfield bs 22 2 == 0
  | 5 => bfield bs 24 4 == 0
  | 8 => (sub == 2 && (bits arg 8 0 == 0 || bits arg 20 9 == 0)) || (sub == 4 && (bits arg 3 0 == 0 || addr == 0)) ||
    (sub == 7 && addr == 0)
  | 9 => sub == 0 && bits (bfield bs 32 4) 4 0 == 0
  | _ => false

/-- Is the module used by the active or pending bank (R114)? -/
def Dev.modInBank (d : Dev) (id : Nat) : Bool := d.bankNames (fun s => s.modId == id)

/-- The checks of a descriptor at fetch, in the order of R114: the status of the first that fails, OK otherwise. -/
def Dev.validate (d : Dev) (part : Nat) (bs : List Nat) : Nat :=
  let op := bs.getD 0 0
  let sub := bs.getD 16 0
  let addr := bfield bs 24 8
  let size := bfield bs 32 4
  let arg := bfield bs 36 8
  if 4 ≤ bs.getD 1 0 || !zeroBytes bs 2 8 || reservedPayload bs then stReserved else
  if badFormat bs then stFormat else
  if badZero bs then stZero else
  match op with
  | 1 => d.checkRun part bs false
  | 2 =>
    let src := bfield bs 16 8
    let n := size
    let sp := bs.getD 36 0
    if n != 0 && ((!maskHas sp 0 && !d.inPart part src n) || (!maskHas sp 1 && !d.inPart part addr n)) then stBounds
    else if src % 64 != 0 || addr % 64 != 0 || n % 64 != 0 then stAlign else stOk
  | 3 => if (d.hwFlag part (bfield bs 16 2)).isNone then stBounds else stOk
  | 4 => if (d.hwFlag part (bfield bs 16 2)).isNone then stBounds else stOk
  | 5 =>
    if !d.inPart part (bfield bs 16 8) (bfield bs 24 4) then stBounds
    else if bfield bs 16 8 % 64 != 0 || bfield bs 24 4 % 64 != 0 then stAlign else stOk
  | 6 => if (d.modOf part (bfield bs 16 2)).isNone || d.modInBank (bfield bs 16 2) then stBounds else stOk
  | 7 =>
    let cnt := bfield bs 20 4
    if !d.full then stUnitAbsent
    else if cnt != 0 && (65536 < bfield bs 16 2 + cnt || !d.inPart part addr (64 * cnt)) then stBounds
    else if addr % 64 != 0 then stAlign else stOk
  | 8 =>
    if !d.full then stUnitAbsent
    else if sub = 2 ∧ (4095 < bfield bs 20 4 ∨ 256 < bits arg 8 0 ∨ 2048 < bits arg 20 9) then stBounds
    else if (sub = 3 ∨ sub = 4) ∧ 4095 < bfield bs 20 4 then stBounds
    else if 4 ≤ sub && addr != 0 && addr % 2 == 0 && !d.inPart part addr 16 then stBounds
    else if 4 ≤ sub && addr / 2 % 32 != 0 then stAlign else stOk
  | 9 =>
    if !d.full then stUnitAbsent
    else if sub = 4 ∧ size ≠ 0 ∧ ¬ d.inPart part addr size then stBounds
    else if sub = 0 ∧ addr % 2 ^ (bits size 4 0) ≠ 0 then stAlign
    else if sub = 4 ∧ (addr % 64 ≠ 0 ∨ size % 64 ≠ 0 ∨ bits arg 39 0 % 64 ≠ 0) then stAlign else stOk
  | _ => stOk

end Sys2Proof.Machine
end

