-- ==== Sys2Proof/Machine/Cand.lean ====
section
/-!
DEFINITION. Candidates for dispatch: what a command names (R307, R308), which commands share a resource, and their rank (R313 to R315).
-/
namespace Sys2Proof.Machine

/-! ## What a command names -/

def Run.key (r : Run) : Nat := ckey r.part r.ctx
/-- Its logical engines `4 × cluster + engine`, by gang index, and its logical prep cores `2 × cluster + core`. -/
def Run.gang (r : Run) : List Nat := (gangOf r.place r.engMask).map (fun q => 4 * q.1 + q.2)
/-- DEDUCED: log entry 173. -/
def Run.cores (r : Run) : List Nat := (prepOf r.place r.pcMask).map (fun q => 2 * q.1 + q.2)
/-- Its clusters. -/
def Run.clusters (r : Run) : List Nat := clustersOf r.place r.engMask r.pcMask
/-- The entry it runs, whatever has become of the module's admission. -/
def Dev.runEntry (d : Dev) (r : Run) : Option (Module × Entry) :=
  (mfind d.mods r.modId).bind (fun m => if m.part = r.part then (m.entries[r.entry]?).map (fun e => (m, e)) else none)
/-- Does its entry contain an ATTEND? -/
def Dev.needsAttn (d : Dev) (r : Run) : Bool :=
  match d.runEntry r with
  | some (m, e) => m.hasAttend e
  | none => false
/-- The attention unit that its ATTENDs would use (R302, R308). -/
def Dev.attnWanted (d : Dev) (r : Run) : Option Nat := if d.needsAttn r then d.attnFor r.part (placeReg r.place) else none
/-- The physical units it would run on now. -/
def Dev.unitsWanted (d : Dev) (r : Run) : List Nat :=
  (r.gang.filterMap (fun l => d.engOf (l / 4) (l % 4))) ++ (r.cores.filterMap (fun l => d.pcOf (l / 2) (l % 2))) ++
  (match d.attnWanted r with
    | some u => [regUnit 6 u]
    | none => [])
/-- Are its engines and prep cores bound, in a region that is not fenced (R38)? -/
def Dev.unitsBound (d : Dev) (r : Run) : Bool :=
  !d.regOut (placeReg r.place) && r.gang.all (fun l => (d.engOf (l / 4) (l % 4)).isSome) &&
  r.cores.all (fun l => (d.pcOf (l / 2) (l % 2)).isSome)
/-- Is everything it names bound, with an attention unit in service for its ATTENDs (R24, R38, R308)? -/
def Dev.bound (d : Dev) (r : Run) : Bool := d.unitsBound r && (!d.needsAttn r || (d.attnWanted r).isSome)

/-! ## Candidates and the commands that hold -/

/-- Do two commands name a resource in common? -/
def Dev.shares (d : Dev) (a b : Run) : Bool :=
  a.gang.any (fun l => b.gang.contains l) || a.cores.any (fun l => b.cores.contains l) ||
  (match d.attnWanted a, d.attnWanted b with
    | some u, some v => u == v
    | _, _ => false)
/-- Does candidate `r` name a resource that command `h` holds? -/
def Dev.blocks (d : Dev) (h r : Run) : Bool :=
  h.members.any (fun m => r.gang.contains m.le) || h.prep.any (fun q => r.cores.contains q.1) ||
  (match h.attn, d.attnWanted r with
    | some u, some v => u == v
    | _, _ => false)
/-- Is the command a candidate (R313)? -/
def Dev.isCand (d : Dev) (r : Run) : Bool :=
  decide (r.phase = .cand) && ((d.ctx r.key).map Ctx.resident).getD false
/-- Does a logical engine belong to a command that holds? -/
def Dev.leHeld (d : Dev) (l : Nat) : Bool := d.runs.any (fun q => q.2.holds && q.2.members.any (fun m => m.le == l))
def Dev.coreHeld (d : Dev) (l : Nat) : Bool := d.runs.any (fun q => q.2.holds && q.2.prep.any (fun p => p.1 == l))
/-- Does a command hold physical unit `u`? -/
def Dev.unitHeld (d : Dev) (u : Nat) : Bool := d.runs.any (fun q => q.2.holds && q.2.units.contains u)

/-- Does the binding of unit `u` stay for a command that waits for its re-run (R132)? -/
def Dev.unitKept (d : Dev) (u : Nat) : Bool := d.runs.any (fun q => q.2.keep.contains u)
/-- Do the compute dies run (R42, R499)? A junction at 125 °C switches them off at once (R478). -/
def Dev.diesOn (d : Dev) : Bool := d.rst.refclk && d.rst.low == 0 && !d.rst.warm && !d.on F.PWR_LP_CTRL.THERMAL

/-- The rank of a candidate in its partition, lowest first (R314): Ordo candidates by slot, since one phase is released at a time; ring
candidates by PRIORITY and turn order. -/
def Dev.rank (d : Dev) (r : Run) : Nat :=
  if r.ordo then r.task else 1024 + (3 - ((d.ctx r.key).map Ctx.prio).getD 0) * 65536 + d.turns.idxOf r.key

/-- The content of an on-chip memory is undefined (R123). -/
def Dev.forgetMem (d : Dev) (u : Nat) : Dev :=
  Dev.take { d with mem := { d.mem with sram := d.mem.sram.forget (u * 0x1000000) (u * 0x1000000 + memSize u) d.fresh } }

/-! ## Kills that units cause (R18, R249) -/

/-- Kill for a re-run, uncharged, every command that holds a unit a predicate selects, but for command `but`. -/
def Dev.killOn (d : Dev) (p : Nat → Bool) (but : Option Nat) : Dev :=
  (d.runs.filter (fun q => q.2.holds && some q.1 != but && q.2.units.any p)).foldl (fun d q => d.killRerun q.1 .cand false) d
/-- Does a command run on cluster `k`? -/
def Run.onClu (r : Run) (k : Nat) : Bool :=
  r.members.any (fun m => m.le / 4 == k) || r.prep.any (fun q => q.1 / 2 == k) || r.units.any (blockHolds (cspUnit k))
/-- Kill for a re-run what runs on cluster `k`. -/
def Dev.killClu (d : Dev) (k : Nat) : Dev :=
  (d.runs.filter (fun q => q.2.holds && q.2.onClu k)).foldl (fun d q => d.killRerun q.1 .cand false) d

/-! ## On-chip memories that a reset empties (R508) -/

/-- Does a command use the memory of owner `u`: that of its units, of its clusters, or of its region? -/
def Run.usesMem (r : Run) (u : Nat) : Bool :=
  match unitKind u with
  | 3 => r.onClu (unitClu u)
  | 4 => [0, 1, 2, 3].any (fun j => r.onClu (unitRegion u * 4 + j))
  | _ => r.units.contains u
/-- The scratchpads and local memories of clusters and regions, but for those that a command uses, are in an empty state: what they held is
undefined (Table 5 of R508, R123). DEDUCED: log entry 196. -/
def Dev.emptyMems (d : Dev) (us : List Nat) : Dev :=
  (us.filter (fun u => !d.runs.any (fun q => q.2.holds && q.2.usesMem u))).foldl Dev.forgetMem d
/-- The owners of the on-chip memories of clusters; of regions. -/
def cluMems (ks : List Nat) : List Nat :=
  ks.flatMap (fun k => (List.range 5).map (engUnit k) ++ (List.range 3).map (pcUnit k) ++ [cspUnit k])
def regMems (rs : List Nat) : List Nat := rs.map (regUnit 4)

end Sys2Proof.Machine
end

