-- ==== Sys2Proof/Machine/Crypto.lean ====
section
/-!
DEFINITION. The signatures of the part (R483): SHA-256 (FIPS 180-4), MGF1 and RSASSA-PSS (PKCS #1) with an RSA-3072 key.
-/
namespace Sys2Proof.Machine

/-! ## SHA-256 -/

/-- The `n` 32-bit words that a number holds, the first in its highest bits. -/
def wordsIn (n v : Nat) : List Nat := (List.range n).map (fun i => v / 2 ^ (32 * (n - 1 - i)) % 2 ^ 32)
/-- The constants of the 64 rounds of SHA-256, sixteen to a number. -/
def shaK : List Nat :=
  [0x428a2f9871374491b5c0fbcfe9b5dba53956c25b59f111f1923f82a4ab1c5ed5d807aa9812835b01243185be550c7dc372be5d7480deb1fe9bdc06a7c19bf174,
   0xe49b69c1efbe47860fc19dc6240ca1cc2de92c6f4a7484aa5cb0a9dc76f988da983e5152a831c66db00327c8bf597fc7c6e00bf3d5a7914706ca635114292967,
   0x27b70a852e1b21384d2c6dfc53380d13650a7354766a0abb81c2c92e92722c85a2bfe8a1a81a664bc24b8b70c76c51a3d192e819d6990624f40e3585106aa070,
   0x19a4c1161e376c082748774c34b0bcb5391c0cb34ed8aa4a5b9cca4f682e6ff3748f82ee78a5636f84c878148cc7020890befffaa4506cebbef9a3f7c67178f2].flatMap (wordsIn 16)
/-- The initial hash value of SHA-256. -/
def shaInit : List Nat := wordsIn 8 0x6a09e667bb67ae853c6ef372a54ff53a510e527f9b05688c1f83d9ab5be0cd19

/-- A 32-bit word written twice in 64 bits: its low half after a shift by `n` is the word turned right by `n` bits. -/
def twice32 (x : Nat) : Nat := x * (2 ^ 32 + 1)
/-- The exclusive or of three turns of a word. -/
def turns32 (x i j k : Nat) : Nat := (twice32 x / 2 ^ i ^^^ twice32 x / 2 ^ j ^^^ twice32 x / 2 ^ k) % 2 ^ 32
/-- The exclusive or of two turns of a word and of the word shifted right by `k` bits. -/
def turnsOff32 (x i j k : Nat) : Nat := (twice32 x / 2 ^ i ^^^ twice32 x / 2 ^ j ^^^ x / 2 ^ k) % 2 ^ 32
/-- The message schedule, latest word first: `n` further words, each from the words 2, 7, 15 and 16 places back. -/
def shaSched : Nat → List Nat → List Nat
  | 0, w => w
  | n + 1, w =>
    let back := fun i => (w.drop (i - 1)).headD 0
    shaSched n ((turnsOff32 (back 2) 17 19 10 + back 7 + turnsOff32 (back 15) 7 18 3 + back 16) % 2 ^ 32 :: w)
/-- One round: the eight working variables, in two groups of four, move up by one, and the first of each group takes a new value. -/
def shaRound (v : List Nat) (kw : Nat) : List Nat :=
  match v with
  | [p, p1, p2, p3, q, q1, q2, q3] =>
    let up := kw + q3 + (q2 ^^^ q &&& (q1 ^^^ q2)) + turns32 q 6 11 25
    let new := up + (p &&& (p1 ||| p2) ||| p1 &&& p2) + turns32 p 2 13 22
    [new % 2 ^ 32, p, p1, p2, (p3 + up) % 2 ^ 32, q, q1, q2]
  | _ => v
/-- One block of 16 words. -/
def shaBlock (h : List Nat) (ws : List Nat) : List Nat :=
  let v := (List.zipWith (· + ·) shaK (shaSched 48 ws.reverse).reverse).foldl shaRound h
  List.zipWith (fun a b => (a + b) % 2 ^ 32) h v
/-- The big-endian 32-bit words of a byte string. -/
def shaWords : List Nat → List Nat
  | a :: b :: c :: d :: l => (((a * 256 + b) * 256 + c) * 256 + d) :: shaWords l
  | _ => []
/-- The blocks of a list of words. -/
def shaBlocks (h : List Nat) : Nat → List Nat → List Nat
  | 0, _ => h
  | n + 1, ws => shaBlocks (shaBlock h (ws.take 16)) n (ws.drop 16)
/-- SHA-256 of a byte string, as 32 bytes. -/
def sha256 (l : List Nat) : List Nat :=
  let n := l.length
  let m := l ++ [0x80] ++ List.replicate ((119 - n % 64) % 64) 0 ++ beBytes 8 (8 * n)
  (shaBlocks shaInit (m.length / 64) (shaWords m)).flatMap (beBytes 4)

/-! ## RSASSA-PSS -/

/-- A power modulo `m`, by the bits of the exponent from the least on. -/
def powMod (m : Nat) : Nat → Nat → Nat → Nat → Nat
  | 0, _, _, acc => acc
  | n + 1, b, e, acc => powMod m n (b * b % m) (e / 2) (if e % 2 = 1 then acc * b % m else acc)
/-- MGF1 with SHA-256: `n` bytes of mask. -/
def mgf1 (seed : List Nat) (n : Nat) : List Nat :=
  ((List.range (ceilDiv n 32)).flatMap (fun c => sha256 (seed ++ beBytes 4 c))).take n
/-- The hash of a public key (R483): modulus as 384 big-endian bytes, then the exponent as 4. DEDUCED: log entry 94. -/
def keyHash (modulus exponent : Nat) : List Nat := sha256 (beBytes 384 modulus ++ beBytes 4 exponent)
/-- Does a signature over `msg` verify (R483): exponent 65,537, SHA-256, MGF1 with SHA-256, a salt of 32 bytes, trailer 0xBC? A key of
RSA-3072 has a modulus of 3,072 bits, so the encoded message has 3,071 bits in 384 bytes. DEDUCED: log entry 94. -/
def pssVerify (modulus exponent sig : Nat) (msg : List Nat) : Bool :=
  if exponent ≠ 65537 ∨ modulus / 2 ^ 3071 ≠ 1 ∨ modulus ≤ sig then false else
  let em := beBytes 384 (powMod modulus 17 sig exponent 1)
  let maskedDb := em.take 351
  let h := (em.drop 351).take 32
  let db := List.zipWith (fun a b => a ^^^ b) maskedDb (mgf1 h 351)
  let db := (db.headD 0 % 128) :: db.tail
  let ps := db.take 318
  let salt := db.drop 319
  em.getD 383 0 == 0xBC && maskedDb.headD 0 / 128 == 0 && ps.all (fun b => b == 0) && db.getD 318 0 == 1 &&
  sha256 (List.replicate 8 0 ++ sha256 msg ++ salt) == h

end Sys2Proof.Machine
end

