-- ==== Sys2Proof/Machine/Sec.lean ====
section
/-!
DEFINITION. Images and their checks (R484, R485), fuses (R482), anti-rollback (R488), attestation (R491), module keys (R492), signature
requirements (R493) and the update (R494 to R496).
-/
namespace Sys2Proof.Machine

/-! ## Images -/

/-- The configuration block of an image (Table 4 of R484). The image the part was delivered with is taken as one whose block is
zero: grandmaster, no module keys. -/
def cfgBlock (img : Option (List Nat)) : List Nat :=
  match img with
  | none => List.replicate 256 0
  | some b => (b.drop (bfield b 24 4)).take 256
/-- Security version and native interface version of an image. DESIGN CHOICE: log entry 7. -/
def imgSvn (img : Option (List Nat)) : Nat := (img.map (fun b => b.getD 7 0)).getD 0
def imgAbi (img : Option (List Nat)) : Nat := (img.map (fun b => b.getD 12 0)).getD 0

/-- Are bytes `lo` to `hi − 1` of an image zero? -/
def zeroIn (b : List Nat) (lo hi : Nat) : Bool := ((b.drop lo).take (hi - lo)).all (fun x => x == 0)

/-- Check 1 of Table 5 of R485 on an image within `room` bytes. DEDUCED: log entry 157. -/
def imgHeaderOk (b : List Nat) : Bool :=
  let len := bfield b 8 4
  let sect := fun o n => bfield b o 4 % 64 == 0 && 1024 ≤ bfield b o 4 && bfield b o 4 + bfield b n 4 ≤ len - 768
  let co := bfield b 16 4
  let cl := bfield b 20 4
  let fo := bfield b 24 4
  let c := cfgBlock (some b)
  bfield b 0 4 == 0x57464743 && bfield b 4 2 == 1 && 2048 ≤ len && len ≤ 4194304 && len % 64 == 0 && len ≤ b.length &&
  b.getD 6 0 < 2 && b.getD 7 0 ≤ 64 && b.getD 13 0 < 8 && zeroIn b 14 16 && zeroIn b 32 64 && zeroIn b 452 512 && zeroIn b 900 1024 &&
  (b.getD 6 0 == 1 || (zeroIn b 512 900 && zeroIn b (len - 384) len)) &&
  sect 16 20 && sect 24 28 && bfield b 28 4 == 256 && (co + cl ≤ fo || fo + 256 ≤ co) &&
  c.getD 0 0 < 16 && c.getD 0 0 / 2 ≤ 5 && c.getD 1 0 ≤ 4 && zeroIn c 2 32 && zeroIn c 160 256 && zeroIn c (32 + 32 * c.getD 1 0) 160

/-- The bit of VARIANTS that this part answers to. -/
def Dev.variantBit (d : Dev) : Nat := if d.fuses.partCode = 0x9600 then 0 else if d.fuses.partCode = 0x9400 then 1 else 2
/-- Must images carry an integrator signature (R482)? -/
def Dev.needInt (d : Dev) : Bool := d.fuses.intKeyEn && d.fuses.intRequire

/-- The reason for which an image is not accepted (Table 5 of R485); 0 when it is. `b` starts with the image. DEDUCED: log entry 157. -/
def Dev.imageErr (d : Dev) (b : List Nat) : Nat :=
  let len := bfield b 8 4
  let vm := bfield b 64 384
  let ve := bfield b 448 4
  let im := bfield b 512 384
  let ie := bfield b 896 4
  if !imgHeaderOk b then 1
  else if !maskHas (b.getD 13 0) d.variantBit then 2
  else if keyHash vm ve ≠ d.fuses.vendorKeyHash then 3
  else if !pssVerify vm ve (bfield b (len - 768) 384) (b.take (len - 768)) then 4
  else if d.needInt ∧ (b.getD 6 0 ≠ 1 ∨ keyHash im ie ≠ d.fuses.intKeyHash) then 5
  else if d.needInt ∧ ¬ pssVerify im ie (bfield b (len - 384) 384) (b.take (len - 384)) then 6
  else if b.getD 7 0 < d.fuses.svn then 7 else 0

/-- An image becomes the running image: the running area holds it and SEC_RUN_DIGEST its SHA-256 (R486); that of the
image the part was delivered with, whose bytes the spec does not give, is a free value. -/
def Dev.runImage (d : Dev) (img : Option (List Nat)) : Dev :=
  let dg := match img with
    | some b => sha256 b
    | none => (List.range 32).map (fun i => Config.freeNat d.fresh i % 256)
  let d := Dev.take { d with sec := { d.sec with running := img } }
  (List.range 8).foldl (fun d i => d.set (F.SEC_RUN_DIGEST.DIGEST i) (bfield dg (4 * i) 4)) d
/-- SEC_RUN_DIGEST. -/
def Dev.runDigest (d : Dev) : List Nat := (List.range 8).flatMap (fun i => leBytes 4 (d.f (F.SEC_RUN_DIGEST.DIGEST i)))
/-- Does the running area match SEC_RUN_DIGEST (R487)? -/
def Dev.runIntact (d : Dev) : Bool :=
  match d.sec.running with
  | some b => decide (sha256 b = d.runDigest)
  | none => true

/-- The role of the sensor domain, as the firmware read it at its start (R415): is the part a follower? -/
def Dev.follower (d : Dev) : Bool := d.on F.ALM_CFG.ROLE
/-- The League port of a follower. -/
def Dev.followPort (d : Dev) : Nat := d.f F.ALM_CFG.FOLLOW_PORT
/-- Read the role from the configuration block of the running image. -/
def Dev.readRole (d : Dev) : Dev :=
  let b := (cfgBlock d.sec.running).getD 0 0
  (d.set F.ALM_CFG.ROLE (b2n (d.full && bitOf b 0))).set F.ALM_CFG.FOLLOW_PORT (bits b 3 1)

/-! ## Module keys and signatures (R492, R493) -/

/-- The key hash that a slot holds, if it holds one. -/
def Dev.keySlot (d : Dev) (n : Nat) : Option (List Nat) :=
  let c := cfgBlock d.sec.running
  if n = 0 then (if d.fuses.intKeyEn then some d.fuses.intKeyHash else none)
  else if n ≤ c.getD 1 0 then some ((c.drop (32 * n)).take 32) else none
/-- Is the signature block at `so` of a container good? `b` has NATIVE_ADDR as zero. -/
def Dev.moduleSigOk (d : Dev) (b : List Nat) (so : Nat) : Bool :=
  let k := (b.drop so).take 1024
  let m := bfield k 64 384
  let e := bfield k 448 4
  so + 1024 == b.length && bfield k 0 4 == 0x47534D53 && zeroIn k 5 64 && zeroIn k 452 512 && zeroIn k 896 1024 &&
  (match d.keySlot (k.getD 4 0) with
    | some h => decide (keyHash m e = h) && pssVerify m e (bfield k 512 384) (b.take so)
    | none => false)

/-- SIGREQ_WRITE (R493, R376). -/
def Dev.sigreqWrite (d : Dev) (who : Who) (value : Nat) : Dev :=
  if !pfOrC who then d else
  let req := value % 65536
  let old := d.f F.SEC_SIGREQ.REQ
  let clears := bitOf value 16 && req == old
  if (d.on F.FLT_CTRL.LOCK && decide (who ≠ .computus) && !clears) ||
      d.mods.any (fun m => !m.2.signed && maskHas req m.2.part && !maskHas old m.2.part) then d.set F.SEC_SIGREQ.BAD_CFG 1
  else (if bitOf value 16 then d.set F.SEC_SIGREQ.BAD_CFG 0 else d).set F.SEC_SIGREQ.REQ req
def execSigreqWrite (who : Who) (value : Nat) (s : State) : Res := .next (s.upd (fun d => d.sigreqWrite who value))

/-! ## Fuses and anti-rollback (R482, R488) -/

/-- FUSE_GO. SEC_FUSE_PROG ignores every write once PROVISIONED is blown. -/
def Dev.fuseGo (d : Dev) : Dev :=
  if d.fuses.provisioned || d.on F.SEC_FUSE_PROG.BUSY then d else
  Dev.set { d with sec := { d.sec with fuse := some (d.f F.SEC_FUSE_PROG.FIELD,
    (List.range 8).flatMap (fun i => leBytes 4 (d.f (F.SEC_ATT_NONCE.NONCE i)))) } } F.SEC_FUSE_PROG.BUSY 1
def execFuseGo (s : State) : Res := .next (s.upd Dev.fuseGo)

/-- The fuses after a field has been blown: a bit once blown stays. -/
def Fuses.blow (f : Fuses) (field : Nat) (nonce : List Nat) : Fuses :=
  match field with
  | 0 => { f with intKeyHash := List.zipWith (fun a b => a ||| b) f.intKeyHash nonce }
  | 1 => { f with intKeyEn := true }
  | 2 => { f with intRequire := true }
  | _ => { f with provisioned := true }
/-- FUSE_BLOW_DONE. -/
def Dev.fuseDone (d : Dev) : Dev :=
  match d.sec.fuse with
  | none => d
  | some p => Dev.set { d with fuses := d.fuses.blow p.1 p.2, sec := { d.sec with fuse := none } } F.SEC_FUSE_PROG.BUSY 0
def execFuseBlowDone (s : State) : Res := .next (s.upd Dev.fuseDone)

/-- COMMIT of SEC_SVN (R488): SVN_FUSE is to be raised to the SVN of the running image, never lowered. -/
def Dev.svnCommit (d : Dev) : Dev :=
  if d.on F.SEC_SVN.BUSY || imgSvn d.sec.running ≤ d.fuses.svn then d else
  Dev.set { d with sec := { d.sec with svn := some (imgSvn d.sec.running) } } F.SEC_SVN.BUSY 1
def execSvnCommit (s : State) : Res := .next (s.upd Dev.svnCommit)
/-- SVN_BLOW_DONE. -/
def Dev.svnDone (d : Dev) : Dev :=
  match d.sec.svn with
  | none => d
  | some n => Dev.set { d with fuses := { d.fuses with svn := Nat.max d.fuses.svn n }, sec := { d.sec with svn := none } } F.SEC_SVN.BUSY 0
def execSvnBlowDone (s : State) : Res := .next (s.upd Dev.svnDone)

/-! ## Attestation (R491) -/

/-- Table 7 up to the signature, as of now: the modules of the partitions in PART_MASK, by partition and then identifier. -/
def Dev.report (d : Dev) : List Nat :=
  let ms := (List.range 16).flatMap (fun f => if maskHas (d.f F.SEC_ATT_CTRL.PART_MASK) f then d.mods.filter (fun m => m.2.part == f) else [])
  leBytes 4 0x54415447 ++ leBytes 4 ms.length ++ leBytes 8 d.fuses.dieId ++ leBytes 4 d.idReg ++
  [d.fuses.svn, imgSvn d.sec.running, imgAbi d.sec.running, 0] ++ leBytes 8 d.now ++
  (List.range 8).flatMap (fun i => leBytes 4 (d.f (F.SEC_ATT_NONCE.NONCE i))) ++ d.runDigest ++ sha256 (cfgBlock d.sec.running) ++
  ms.flatMap (fun m => leBytes 2 m.1 ++ [m.2.part, b2n m.2.signed + 2 * m.2.slot] ++ List.replicate 12 0 ++ m.2.digest)
/-- ATTEST. DEDUCED: log entry 161. -/
def Dev.attest (d : Dev) : Dev :=
  if d.on F.SEC_ATT_CTRL.BUSY then d else
  Dev.set { d with sec := { d.sec with att := some (d.report, d.f F.SEC_ATT_DST.ADDR) } } F.SEC_ATT_CTRL.BUSY 1
def execAttest (s : State) : Res := .next (s.upd Dev.attest)
/-- ATTEST_DONE: the signature is made with the identity key, which no register holds. DEDUCED: log entry 161. -/
def Dev.attestDone (d : Dev) : Dev :=
  match d.sec.att with
  | none => d
  | some (body, dst) =>
    if !d.rst.hbmReady then d else
    let d := Dev.set { d with sec := { d.sec with att := none } } F.SEC_ATT_CTRL.BUSY 0
    if dst % 64 ≠ 0 then d.set F.SEC_ATT_CTRL.STATUS stAlign
    else if !d.inPart 0 dst (body.length + 384) then d.set F.SEC_ATT_CTRL.STATUS stBounds
    else
      let key := body.map (BitVec.ofNat 8)
      let sig := (List.range 384).map (fun i => (Config.identitySignature key i).toNat)
      (d.wrHbm dst (body ++ sig)).set F.SEC_ATT_CTRL.STATUS stOk
def execAttestDone (s : State) : Res := .next (s.upd Dev.attestDone)

/-! ## The update (R494 to R496) -/

def Dev.updState (d : Dev) (n : Nat) : Dev := d.set F.SEC_UPD_STAT.STATE n
/-- A command failed, for a reason of Tables 5 and 8. -/
def Dev.updFail (d : Dev) (reason : Nat) : Dev := (d.set F.SEC_UPD_STAT.FAILED 1).set F.SEC_UPD_STAT.ERR reason
/-- A command is ignored while BUSY is 1, and refused with STATE in a state that does not list it (Table 8). -/
def Dev.updCmd (d : Dev) (states : List Nat) (go : Dev → Dev) : Dev :=
  if d.on F.SEC_UPD_CTRL.BUSY then d
  else if states.contains (d.f F.SEC_UPD_STAT.STATE) then go d else d.updFail 0x0C
/-- The bytes of the staged image. -/
def Dev.staged (d : Dev) : List Nat := d.sec.staging.take (bfield d.sec.staging 8 4)

/-- VERIFY_DONE. -/
def Dev.verifyDone (d : Dev) : Dev :=
  if d.f F.SEC_UPD_STAT.STATE ≠ 1 then d else
  let e := d.imageErr d.sec.staging
  let d := d.set F.SEC_UPD_CTRL.BUSY 0
  if e = 0 then d.updState 2 else (d.updState 0).updFail e
def execVerifyDone (s : State) : Res := .next (s.upd Dev.verifyDone)
/-- WRITE: the image slot is erased and programmed. Until it has been read back, a cold reset finds no valid image there. DEDUCED: log entry 158. -/
def Dev.updWrite (d : Dev) : Dev :=
  d.updCmd [2] (fun d => Dev.set (Dev.updState { d with sec := { d.sec with flash := some [] } } 3) F.SEC_UPD_CTRL.BUSY 1)
def execUpdWrite (s : State) : Res := .next (s.upd Dev.updWrite)
/-- WRITE_DONE: the readback was equal, or not. DEDUCED: log entry 158. -/
def Dev.writeDone (d : Dev) (ok : Bool) : Dev :=
  if d.f F.SEC_UPD_STAT.STATE ≠ 3 then d else
  let d := d.set F.SEC_UPD_CTRL.BUSY 0
  if ok then Dev.updState { d with sec := { d.sec with flash := some d.staged } } 4 else (d.updState 2).updFail 0x09
def execWriteDone (ok : Bool) (s : State) : Res := .next (s.upd (fun d => d.writeDone ok))

/-- An activation is abandoned: the state returns to the one ACTIVATE was given in, and FAILED sets with NO_STANDBY (R495). -/
def Dev.abandonAct (d : Dev) : Dev :=
  if d.f F.SEC_UPD_STAT.STATE = 5 then ((d.updState d.sec.from_).updFail 0x0B).set F.SEC_UPD_CTRL.BUSY 0 else d

/-- What a start of the firmware brings up in boot-over-link or after a cold reset: the collector, the sensor domain's role, and the full
PCIe function, for which the link trains anew (R415, R486, R497). -/
def Dev.startFirmware (d : Dev) : Dev :=
  Dev.readRole { d with
    coll := { d.coll with ready := true }, sec := { d.sec with overLink := false },
    rst := { d.rst with linkUp := false } }

/-- ACTIVATE (R495). In boot-over-link Computus starts the image as at cold boot, and no standby is needed (R497). DEDUCED: log entry 160. -/
def Dev.activate (d : Dev) : Dev :=
  d.updCmd [2, 4] (fun d =>
    if d.sec.overLink then ((d.runImage (some d.staged)).startFirmware).updState 0
    else if !d.safe.standby then d.updFail 0x0B
    else if imgAbi (some d.staged) ≠ imgAbi d.sec.running ∧ d.mods ≠ [] then d.updFail 0x0A
    else Dev.set (Dev.updState { d with sec := { d.sec with from_ := d.f F.SEC_UPD_STAT.STATE } } 5) F.SEC_UPD_CTRL.BUSY 1)
def execActivate (s : State) : Res := .next (s.upd Dev.activate)

/-- The engines, prep cores and sequencers of the part that are not fenced. -/
def Dev.liveUnits (d : Dev) : List Nat :=
  (List.range d.nClus).flatMap (fun k =>
    let c := d.clu k
    ((List.range 5).filter (fun e => !c.engFenced.contains e)).map (engUnit k) ++
    ((List.range 3).filter (fun p => !c.pcFenced.contains p)).map (pcUnit k) ++
    ((List.range 2).filter (fun q => !c.seqFenced.contains q)).map (seqUnit k))

/-- Is this the instant of a tick (R44)? -/
def Dev.tickNow (d : Dev) : Bool := d.frame.started && (d.now == d.frame.tick || d.now == d.frame.nextTick)
/-- HANDOVER, at a tick: the standby pair takes over with the staged image; every unit is on the old microcode until it migrates (R496).
DEDUCED: log entry 160. -/
def Dev.handover (d : Dev) (t : Nat) : Dev :=
  if d.f F.SEC_UPD_STAT.STATE ≠ 5 || !d.safe.standby || !(d.at_ t).tickNow then d else
  let d := ((d.at_ t).runImage (some d.staged)).set F.SEC_UPD_CTRL.BUSY 0
  Dev.updState { d with safe := { d.safe with pair := 1 - d.safe.pair }, leap := { d.leap with oldCode := d.liveUnits } } 6
def execHandover (t : Nat) (s : State) : Res := .next (s.upd (fun d => d.handover t))

end Sys2Proof.Machine
end

