-- ==== Sys2Proof/Machine/Leap.lean ====
section
/-!
DEFINITION. Fencing (R16 to R24), the Leap maps (R35 to R39), rotation, Ember tests, slices, loans and wear (R394 to R408).
-/
namespace Sys2Proof.Machine

/-! ## Unit states (Table 3 of R17, Table 3 of R407) -/

/-- Is the unit in a cluster, region or die that is out of service? -/
def Dev.unitOut (d : Dev) (u : Nat) : Bool := if unitKind u < 4 then d.cluOut (unitClu u) else d.regOut (unitRegion u)
/-- 0 in service, 1 spare, 2 under test, 3 fenced. -/
def Dev.unitState (d : Dev) (u : Nat) : Nat :=
  let c := d.clu (unitClu u)
  let i := unitIdx u
  let free := if (d.unitSt u).testing then 2 else 1
  if d.unitOut u then 3 else
  match unitKind u with
  | 0 => if c.engFenced.contains i then 3 else if c.spare = i then (if c.lent then 0 else free)
         else match c.loan with
           | some l => if l.own = i then free else 0
           | none => 0
  | 1 => if c.pcFenced.contains i then 3 else if c.pcSpare = i then free else 0
  | 2 => if c.seqFenced.contains i then 3 else if c.seqActive = i then 0 else 1
  | 6 => if d.leap.attnFenced.contains (unitRegion u) then 3 else 0
  | _ => 0
/-- Time in the In service state, in ns. -/
def Dev.serviceAt (d : Dev) (u : Nat) : Nat :=
  (d.unitSt u).serviceNs + (if d.unitState u = 0 then d.now - (d.unitSt u).inSince else 0)
/-- Account for units that enter or leave service from `d` to `e`. -/
def Dev.track (d : Dev) (us : List Nat) (e : Dev) : Dev :=
  us.foldl (fun x u =>
    let a := d.unitState u == 0
    let b := e.unitState u == 0
    if a && !b then x.modUnit u (fun s => { s with serviceNs := s.serviceNs + (d.now - s.inSince) })
    else if !a && b then x.modUnit u (fun s => { s with inSince := d.now }) else x) e

/-- The units of a cluster, and all units that keep a wear record (R407). -/
def cluUnits (k : Nat) : List Nat :=
  (List.range 5).map (engUnit k) ++ (List.range 3).map (pcUnit k) ++ (List.range 2).map (seqUnit k)
def Dev.wearUnits (d : Dev) : List Nat :=
  (List.range d.nClus).flatMap cluUnits ++ (if d.full then (List.range d.nReg).map (regUnit 6) else [])

/-! ## The journal (R39, R408) -/

def Dev.journalLeap (d : Dev) : Dev := { d with leap := { d.leap with journal := d.leap.clus } }
/-- SERVICE_H, PASSES, CE and ROWS_USED of every unit, as they go to flash. DEDUCED: log entry 37. -/
def Dev.journalWear (d : Dev) : Dev :=
  { d with leap := { d.leap with wearJournal := d.wearUnits.map (fun u =>
      (u, { unitInit with serviceNs := d.serviceAt u, passes := (d.unitSt u).passes, ce := (d.unitSt u).ce, rowsUsed := (d.unitSt u).rowsUsed })) } }

/-! ## Rows (R135) -/

/-- The unit whose memory a key names, and the macro of the key. -/
def keyUnit (key : Nat) : Nat := key / 0x1000000
def keyMacro (key : Nat) : Nat := key / 0x10000
/-- Redundant rows left in the macro of a key (R122). -/
def Dev.rowsLeft (d : Dev) (key : Nat) : Nat := 8 - mget 0 d.leap.macroUsed (keyMacro key)
/-- Fewest redundant rows left in any macro of a unit. -/
def Dev.unitRowsLeft (d : Dev) (u : Nat) : Nat :=
  (List.range (memSize u / 0x10000)).foldl (fun n i => Nat.min n (d.rowsLeft (u * 0x1000000 + i * 0x10000))) 8
/-- A row becomes due for repair, when its macro has a redundant row that no due row takes (R135). -/
def Dev.rowDue (d : Dev) (key : Nat) : Dev :=
  let row := key / 64 * 64
  if d.mem.sramRepairDue.contains row ∨ d.rowsLeft key ≤ (d.mem.sramRepairDue.filter (fun r => keyMacro r == keyMacro key)).length then d
  else { d with mem := { d.mem with sramRepairDue := insNat d.mem.sramRepairDue row } }
/-- Apply the due row repairs that a predicate on their keys selects. -/
def Dev.applyRows (d : Dev) (p : Nat → Bool) : Dev :=
  let due := d.mem.sramRepairDue.filter (fun key => p key)
  let d := due.foldl (fun d key =>
    let d := { d with leap := { d.leap with macroUsed := mset d.leap.macroUsed (keyMacro key) (mget 0 d.leap.macroUsed (keyMacro key) + 1) } }
    d.modUnit (keyUnit key) (fun s => { s with rowsUsed := Nat.min 255 (s.rowsUsed + 1) })) d
  { d with mem := { d.mem with
      sramRepairDue := d.mem.sramRepairDue.filter (fun key => !p key),
      rowsReady := d.mem.rowsReady.filter (fun key => !p key) } }

/-! ## Fencing -/

/-- A test of the unit is abandoned: it starts again from its beginning (R399). -/
def Dev.abandon (d : Dev) (u : Nat) : Dev := d.modUnit u (fun s => { s with testing := false, slicing := false, slices := 0 })
/-- What follows a change of the maps by fencing. DEDUCED: log entry 34. -/
def Dev.fenced (d : Dev) (k : Nat) (e : Dev) (src master : Nat) : Dev :=
  ((d.track (cluUnits k) e).journalLeap.journalWear).raise src master 0 0

/-- A spare that comes back to its cluster takes the lowest logical number that is unbound (R38, R394). DEDUCED: log entry 32. -/
def Clu.bringIn (c : Clu) : Clu :=
  if c.spare != 7 && c.le.contains 7 then { c with le := c.le.set (c.le.idxOf 7) c.spare, spare := 7, engDue := none } else c

/-- The loan of a cluster ends early: the lent engine or a cluster of the loan is gone. The deferred engine takes its number back, and
its test is abandoned. DEDUCED: log entry 32. -/
def Dev.dropLoan (d : Dev) (k : Nat) : Dev :=
  match (d.clu k).loan with
  | none => d
  | some l =>
    let d := (d.abandon (engUnit k l.own)).modClu k (fun c => { c with loan := none })
    d.modClu (k / 4 * 4 + l.lender) (fun c => Clu.bringIn { c with lent := false, engPrev := d.now })
/-- The cluster of the region that borrows the spare of cluster `k`. -/
def Dev.borrower (d : Dev) (k : Nat) : Option Nat :=
  ([0, 1, 2, 3].map (fun j => k / 4 * 4 + j)).find? (fun j => match (d.clu j).loan with
    | some l => l.lender == k % 4
    | none => false)

/-- Fence a matrix engine (R18, R38): the command it runs is killed for a re-run, and the spare takes its logical number, if there is
one. A test of that spare is abandoned, and a run 2 of another command that it serves is killed for a re-run. DEDUCED: log entry 34. -/
def Dev.fenceEng (d : Dev) (k p : Nat) (but : Option Nat) : Dev :=
  let c := d.clu k
  if c.engFenced.contains p || d.cluOut k then d else
  let e := (d.killOn (fun u => u == engUnit k p) but).abandon (engUnit k p)
  let e := if c.spare = p ∧ c.lent then (match e.borrower k with
    | some j => e.dropLoan j
    | none => e) else e
  let e := if c.le.contains p && c.spare != 7 && !c.lent then (e.killOn (fun u => u == engUnit k c.spare) but).abandon (engUnit k c.spare) else e
  let e := e.modClu k (fun c =>
    let c := { c with engFenced := insNat c.engFenced p, loanAsk := if c.loanAsk = some p then none else c.loanAsk,
                      loan := c.loan.map (fun (l : Loan) => if l.own = p then { l with tested := some false } else l) }
    if c.spare = p then { c with spare := 7, lent := false, engDue := none }
    else if c.le.contains p && c.spare != 7 && !c.lent then
      { c with le := c.le.map (fun x => if x = p then c.spare else x), spare := 7, engDue := none }
    else { c with le := c.le.map (fun x => if x = p then 7 else x), engDue := if c.engDue = some p then none else c.engDue })
  d.fenced k e 0x080 (engUnit k p)
/-- Fence a prep core. -/
def Dev.fencePc (d : Dev) (k p : Nat) (but : Option Nat) : Dev :=
  let c := d.clu k
  if c.pcFenced.contains p || d.cluOut k then d else
  let e := (d.killOn (fun u => u == pcUnit k p) but).abandon (pcUnit k p)
  let e := if c.pc.contains p && c.pcSpare != 3 then (e.killOn (fun u => u == pcUnit k c.pcSpare) but).abandon (pcUnit k c.pcSpare) else e
  let e := e.modClu k (fun c =>
    let c := { c with pcFenced := insNat c.pcFenced p }
    if c.pcSpare = p then { c with pcSpare := 3, pcDue := none }
    else { c with pc := c.pc.map (fun x => if x = p then c.pcSpare else x), pcSpare := if c.pc.contains p then 3 else c.pcSpare,
                  pcDue := none })
  d.fenced k e 0x080 (pcUnit k p)
/-- Fence a cluster (R21): its scratchpad is switched off and loses its content (R465). -/
def Dev.fenceClu (d : Dev) (k : Nat) : Dev :=
  if d.cluOut k then d else
  let e := (d.killClu k).dropLoan k
  let e := match e.borrower k with
    | some j => e.dropLoan j
    | none => e
  let e := (cluUnits k).foldl Dev.abandon e
  let e := (e.forgetMem (cspUnit k)).modClu k (fun c => { c with fenced := true, engDue := none, pcDue := none, loanAsk := none })
  d.fenced k e 0x082 (cspUnit k)
/-- Fence a sequencer (R19): the cluster is fenced with its last sequencer; else the standby becomes active, later, or the cluster loses its
standby. -/
def Dev.fenceSeq (d : Dev) (k s : Nat) : Dev :=
  let c := d.clu k
  if c.seqFenced.contains s || d.cluOut k then d else
  let mark := fun (d : Dev) => d.modClu k (fun c => { c with seqFenced := insNat c.seqFenced s })
  if c.seqFenced.contains (1 - s) then Dev.fenceClu (mark d) k
  else if s = c.seqActive then
    let e := mark (d.killClu k)
    (d.track (cluUnits k) e).journalLeap.journalWear
  else d.fenced k (mark d) 0x081 (seqUnit k c.seqActive)
/-- Fence a region (R24); `master` is the region memory or the region DMA engine that failed. DEDUCED: log entry 35. -/
def Dev.fenceReg (d : Dev) (r master : Nat) : Dev :=
  if d.regOut r then d else
  let cs := [0, 1, 2, 3].map (fun j => 4 * r + j)
  let e := (cs.foldl Dev.killClu d).killOn (fun u => u == regUnit 6 r) none
  let e := cs.foldl (fun e k => (cluUnits k).foldl Dev.abandon (e.dropLoan k)) (e.abandon (regUnit 6 r))
  let e := (cs.map cspUnit).foldl Dev.forgetMem (e.forgetMem (regUnit 4 r))
  let e := { e with leap := { e.leap with regFenced := insNat e.leap.regFenced r } }
  ((d.track (regUnit 6 r :: cs.flatMap cluUnits) e).journalLeap.journalWear).raise 0x083 master 0 0
/-- Fence an attention unit (R24). -/
def Dev.fenceAttn (d : Dev) (r : Nat) (but : Option Nat) : Dev :=
  if !d.attnOk r then d else
  let e := (d.killOn (fun u => u == regUnit 6 r) but).abandon (regUnit 6 r)
  let e := { e with leap := { e.leap with attnFenced := insNat e.leap.attnFenced r } }
  ((d.track [regUnit 6 r] e).journalLeap.journalWear).raise 0x084 (regUnit 6 r) 0 0
/-- Fence whatever an identifier names (R16, R19, R21, R24). DEDUCED: log entry 32. -/
def Dev.fence (d : Dev) (u : Nat) (but : Option Nat) : Dev :=
  if !d.unitExists u then d else
  match unitKind u with
  | 0 => d.fenceEng (unitClu u) (unitIdx u) but
  | 1 => d.fencePc (unitClu u) (unitIdx u) but
  | 2 => d.fenceSeq (unitClu u) (unitIdx u)
  | 3 => d.fenceClu (unitClu u)
  | 4 => d.fenceReg (unitRegion u) u
  | 5 => d.fenceReg (unitRegion u) u
  | 6 => d.fenceAttn (unitRegion u) but
  | _ => d

/-- The unit whose fencing an event of the fault collector reports (R19, R21, R24, R362, R399): SEQ_NO_STANDBY names the sequencer that
remains. DEDUCED: log entry 180. -/
def fencedBy (src master : Nat) : Option Nat :=
  match src with
  | 0x045 => some master
  | 0x080 => if unitKind master < 2 then some master else none
  | 0x081 => if unitKind master = 2 then some (seqUnit (unitClu master) (1 - unitIdx master)) else none
  | 0x082 => if unitKind master = 3 then some master else none
  | 0x083 => if unitKind master = 4 ∨ unitKind master = 5 then some master else none
  | 0x084 => if unitKind master = 6 then some master else none
  | _ => none
/-- The collector receives an event of a detecting unit. A unit that is reported fenced is fenced by it, and the fencing reports itself. -/
def Dev.faultEvent (d : Dev) (src master addr acc t : Nat) : Dev :=
  let d := d.at_ t
  let ev : FaultEv := ⟨src, master, addr, acc, t⟩
  match fencedBy src master with
  | none => d.event ev
  | some u =>
    if src = 0x045 then (d.event ev).fence u none else
    let e := d.fence u none
    if e.leap = d.leap then d.event ev else e
/-- FAULT_EVENT (R363 to R370): the events of one fc cycle, in ascending order of source and then of master (R364, R370). DEDUCED: log entry 202. -/
def Dev.faultEvents (d : Dev) (evs : List Detection) (t : Nat) : Dev :=
  (sortBy (fun (e : Detection) => e.src * 65536 + e.master) evs).foldl (fun d e => d.faultEvent e.src e.master e.addr e.acc t) d
def execFaultEvent (evs : List Detection) (t : Nat) (s : State) : Res := .next (s.upd (fun d => d.faultEvents evs t))

/-- Does a cluster's standby sequencer have the new microcode while the active one runs the old, at a command boundary of the cluster
(R496)? -/
def Dev.codeTurn (d : Dev) (k : Nat) : Bool :=
  let c := d.clu k
  d.leap.oldCode.contains (seqUnit k c.seqActive) && !d.leap.oldCode.contains (seqUnit k (1 - c.seqActive)) &&
  !d.runs.any (fun q => q.2.holds && q.2.onClu k)
/-- SEQUENCER_SWITCHOVER: the standby becomes active, when the active one is fenced (R19) or the sequencers change roles for new microcode
(R496). DEDUCED: log entry 160. -/
def Dev.switchover (d : Dev) (k t : Nat) : Dev :=
  let c := d.clu k
  let s := 1 - c.seqActive
  let lost := c.seqFenced.contains c.seqActive
  if d.cluOut k || c.seqFenced.contains s || !(lost || d.codeTurn k) then d else
  let d := d.at_ t
  let e := (d.track (cluUnits k) (d.modClu k (fun c => { c with seqActive := s }))).journalLeap
  if lost then e.raise 0x081 (seqUnit k s) 0 0 else e
def execSequencerSwitchover (k t : Nat) (s : State) : Res := .next (s.upd (fun d => d.switchover k t))

/-! ## Rotation (R395 to R397) -/

/-- A unit whose test is the older: by its last full pass, then by its number. -/
def Dev.oldest (d : Dev) (unit : Nat → Nat) : List Nat → Option Nat
  | [] => none
  | p :: l =>
    match Dev.oldest d unit l with
    | none => some p
    | some q =>
      let a := (d.unitSt (unit p)).lastPass
      let b := (d.unitSt (unit q)).lastPass
      some (if a < b ∨ (a = b ∧ p < q) then p else q)
/-- ROT_MS and INTERVAL_MS in ns, in force. -/
def Dev.rotNs (d : Dev) : Nat := d.live F.SAF_EMB_CFG.ROT_MS * 1000000
def Dev.intervalNs (d : Dev) : Nat := d.live F.SAF_EMB_CFG.INTERVAL_MS * 1000000

/-- ROTATION_DUE: the choice of the unit that leaves service. -/
def Dev.rotationDue (d : Dev) (k : Nat) (pc : Bool) (t : Nat) : Dev :=
  let c := d.clu k
  let d := d.at_ t
  if d.cluOut k || !d.diesOn then d else
  if pc then
    if c.pcSpare = 3 ∨ c.pcDue.isSome ∨ t < c.pcPrev + d.rotNs then d
    else d.modClu k (fun c => { c with pcDue := d.oldest (pcUnit k) (c.pc.filter (fun p => p != 3)) })
  else
    if c.spare = 7 ∨ c.lent ∨ c.engDue.isSome ∨ t < c.engPrev + d.rotNs then d
    else d.modClu k (fun c => { c with engDue := d.oldest (engUnit k) (c.le.filter (fun p => p != 7)) })
def execRotationDue (k : Nat) (pc : Bool) (t : Nat) (s : State) : Res := .next (s.upd (fun d => d.rotationDue k pc t))

/-- A unit loads the microcode of the running image (R496). -/
def Dev.newCode (d : Dev) (u : Nat) : Dev := { d with leap := { d.leap with oldCode := d.leap.oldCode.filter (fun x => x != u) } }
/-- A unit leaves service by rotation: due row repairs are applied, new microcode is loaded (R496), and its test starts. -/
def Dev.underTest (d : Dev) (u : Nat) : Dev :=
  let d := d.applyRows (fun key => keyUnit key == u)
  (d.newCode u).modUnit u (fun s => { s with testing := true, slicing := false, slices := 0 })

/-- LEAP_ROTATION: at the boundary of the chosen unit, its logical number binds to the spare. -/
def Dev.rotate (d : Dev) (k : Nat) (pc : Bool) (t : Nat) : Dev :=
  let c := d.clu k
  let d := d.at_ t
  if d.cluOut k || !d.diesOn then d else
  if pc then
    match c.pcDue with
    | none => d
    | some p =>
      if c.pcSpare = 3 ∨ (d.unitSt (pcUnit k c.pcSpare)).testing ∨ ¬ c.pc.contains p ∨ d.coreHeld (2 * k + c.pc.idxOf p) ∨
        d.unitHeld (pcUnit k p) ∨ d.unitKept (pcUnit k p) ∨ d.unitHeld (pcUnit k c.pcSpare) then d else
      let e := d.modClu k (fun c =>
        { c with pc := c.pc.map (fun x => if x = p then c.pcSpare else x), pcSpare := p, pcDue := none, pcPrev := t })
      ((d.track (cluUnits k) e).underTest (pcUnit k p)).journalLeap
  else
    match c.engDue with
    | none => d
    | some p =>
      if c.spare = 7 ∨ c.lent ∨ (d.unitSt (engUnit k c.spare)).testing ∨ ¬ c.le.contains p ∨ d.leHeld (4 * k + c.le.idxOf p) ∨
        d.unitHeld (engUnit k p) ∨ d.unitKept (engUnit k p) ∨ d.unitHeld (engUnit k c.spare) then d else
      let e := d.modClu k (fun c =>
        { c with le := c.le.map (fun x => if x = p then c.spare else x), spare := p, engDue := none, engPrev := t })
      ((d.track (cluUnits k) e).underTest (engUnit k p)).journalLeap
def execLeapRotation (k : Nat) (pc : Bool) (t : Nat) (s : State) : Res := .next (s.upd (fun d => d.rotate k pc t))

/-! ## Tests (R398 to R403) -/

/-- A full pass (R399, R403): the untested time starts again. -/
def Dev.passed (d : Dev) (u : Nat) : Dev :=
  Dev.addSat (d.modUnit u (fun s => { s with testing := false, turn := s.slicing, slicing := false, slices := 0, lastPass := d.now,
                                              deferred := 0,
                                              passes := Nat.min (s.passes + 1) 0xFFFFFFFF })) F.SAF_EMB_PASS.COUNT 1
/-- A failed step: TROY_FAIL, and the unit is fenced at that step. -/
def Dev.failed (d : Dev) (u : Nat) : Dev := (d.raise 0x045 u 0 5).fence u none

/-- The end of a step of a test: rows on which March C− failed become due for repair (R135), and a unit that fails is fenced (R399). -/
def Dev.rowsFailed (d : Dev) (u : Nat) (rows : List Nat) : Dev :=
  (rows.filter (fun o => decide (o < memSize u))).foldl (fun d o => d.rowDue (u * 0x1000000 + o)) d
/-- EMBER_TEST_DONE: the end of a test after rotation or under a loan. -/
def Dev.testDone (d : Dev) (u : Nat) (pass : Bool) (rows : List Nat) (t : Nat) : Dev :=
  if !(d.unitSt u).testing || !d.diesOn then d else
  let d := d.at_ t
  if !pass || !rows.isEmpty then (d.rowsFailed u rows).failed u else
  let d := d.passed u
  if unitKind u != 0 then d else
  d.modClu (unitClu u) (fun c => { c with loan := c.loan.map (fun (l : Loan) => if l.own = unitIdx u then { l with tested := some true } else l) })
def execEmberTestDone (unit : Nat) (pass : Bool) (rows : List Nat) (t : Nat) (s : State) : Res :=
  .next (s.upd (fun d => d.testDone unit pass rows t))

/-- Is the unit tested in slices (R400)? -/
def Dev.sliced (d : Dev) (u : Nat) : Bool :=
  let c := d.clu (unitClu u)
  d.unitExists u && d.unitState u == 0 &&
  (match unitKind u with
   | 0 => (c.spare == 7 || c.lent) && c.le.contains (unitIdx u)
   | 1 => c.pcSpare == 3 && c.pc.contains (unitIdx u)
   | 6 => true
   | _ => false)
/-- The clock of a unit in MHz, and the length of its full test in cycles (Table 2 of R398). -/
def Dev.unitMHz (d : Dev) (u : Nat) : Nat := if unitKind u = 1 then 1200 else d.regMHz (unitRegion u)
def testCycles (u : Nat) : Nat := if unitKind u = 0 then 240000 else if unitKind u = 1 then 360000 else 120000
/-- The cycles of the unit's next slice. -/
def Dev.sliceCycles (d : Dev) (u : Nat) : Nat := Nat.min (40 * d.unitMHz u) (testCycles u - (d.unitSt u).slices)
/-- Does a command name the unit? -/
def Dev.namesUnit (d : Dev) (r : Run) (u : Nat) : Bool := (d.unitsWanted r).contains u
/-- Does a task of the plan name the unit? -/
def Dev.slotNames (d : Dev) (s : Slot) (u : Nat) : Bool := s.list.any (fun bs => d.namesUnit (mkRun s.part s.ctx true 0 0 bs s.safety) u)
/-- B of R401: the instant up to which the slack is counted. -/
def Dev.slackEnd (d : Dev) : Nat :=
  match d.plan with
  | none => d.frame.nextTick
  | some v =>
    if d.frame.vigilDone then d.frame.nextTick else
    let n := match d.frame.phase with
      | some p => p + 1
      | none => 0
    match v.phases[n]? with
    | some ph => Nat.max d.now (d.frame.tick + ph.startNs)
    | none => d.vigilTime
/-- What task `k` has been charged by now, with what its running command has held since (R61). -/
def Dev.chargeNow (d : Dev) (k : Task) : Nat :=
  k.charge + sumNat (d.runs.map (fun q => if q.2.ordo && q.2.frame == d.frame.frameNo && q.2.task == k.slot then
    (match q.2.chargeFrom with
     | some t => d.now - t
     | none => 0) else 0))
/-- D of R401: what is left of the budgets of the current phase's tasks that have not ended and name the unit. -/
def Dev.slackTaken (d : Dev) (u : Nat) : Nat :=
  match d.plan, d.frame.phase with
  | some v, some p =>
    (match v.phases[p]? with
     | some ph => sumNat (d.frame.tasks.map (fun k =>
         match v.slots[k.slot]? with
         | some s => if !k.ended && ph.firstTask ≤ k.slot && k.slot < ph.firstTask + ph.taskCount && d.slotNames s u then s.budget - d.chargeNow k else 0
         | none => 0))
     | none => 0)
  | _, _ => 0
/-- Does a ring candidate name the unit? -/
def Dev.ringNames (d : Dev) (u : Nat) : Bool := d.runs.any (fun q => !q.2.ordo && d.isCand q.2 && d.namesUnit q.2 u)
/-- May a slice start on the unit now (R401)? A ring candidate comes between two slices. DEDUCED: log entry 181. -/
def Dev.mayslice (d : Dev) (u : Nat) : Bool :=
  d.diesOn && d.sliced u && !(d.unitSt u).slicing && !(d.unitSt u).testing && !d.unitHeld u &&
  !((d.unitSt u).turn && d.ringNames u) && !d.runs.any (fun q => q.2.ordo && decide (q.2.phase = .cand) && d.namesUnit q.2 u) &&
  decide (d.sliceCycles u * 1000 + (d.now + d.slackTaken u) * d.unitMHz u ≤ d.slackEnd * d.unitMHz u)

/-- EMBER_SLICE_START. In a cluster without a spare a unit loads new microcode here (R496). DEDUCED: log entry 160. -/
def Dev.sliceStart (d : Dev) (u t : Nat) : Dev :=
  let d := d.at_ t
  if d.mayslice u then (d.modUnit u (fun s => { s with slicing := true, turn := false })).newCode u else d
def execEmberSliceStart (unit t : Nat) (s : State) : Res := .next (s.upd (fun d => d.sliceStart unit t))

/-- EMBER_SLICE_END: the test is complete at its last slice. -/
def Dev.sliceEnd (d : Dev) (u : Nat) (pass : Bool) (rows : List Nat) (t : Nat) : Dev :=
  if !(d.unitSt u).slicing || !d.diesOn then d else
  let d := d.at_ t
  if !pass || !rows.isEmpty then (d.rowsFailed u rows).failed u else
  let n := (d.unitSt u).slices + d.sliceCycles u
  if testCycles u ≤ n then d.passed u else d.modUnit u (fun s => { s with slicing := false, slices := n, turn := true })
def execEmberSliceEnd (unit : Nat) (pass : Bool) (rows : List Nat) (t : Nat) (s : State) : Res :=
  .next (s.upd (fun d => d.sliceEnd unit pass rows t))

/-- The lender of a loan to cluster `k` (R404). DEDUCED: log entry 33. -/
def Dev.lender (d : Dev) (k : Nat) : Option Nat :=
  ([0, 1, 2, 3].map (fun j => k / 4 * 4 + j)).find? (fun j => decide (j ≠ k) && !d.cluOut j && d.cluPart j == d.cluPart k &&
    (d.clu j).spare != 7 && !(d.clu j).lent && (d.clu j).loan.isNone && !(d.unitSt (engUnit j (d.clu j).spare)).testing &&
    !d.unitHeld (engUnit j (d.clu j).spare))
/-- EMBER_DEFERRED (R403, R404): the untested time at `t` is a multiple of INTERVAL_MS that has not been reported. -/
def Dev.deferredTest (d : Dev) (u t : Nat) : Dev :=
  let x := t - (d.unitSt u).lastPass
  if !(d.unitExists u) || d.unitState u == 3 || !([0, 1, 6].contains (unitKind u)) || x % d.intervalNs != 0 || decide (x ≤ (d.unitSt u).deferred)
  then d else
  let d := (d.at_ t).modUnit u (fun s => { s with deferred := x })
  let d := (d.addSat F.SAF_EMB_DEFER.COUNT 1).raise 0x086 u 0 0
  let k := unitClu u
  let c := d.clu k
  if unitKind u = 0 ∧ c.spare = 7 ∧ c.loan.isNone ∧ c.loanAsk.isNone ∧ c.le.contains (unitIdx u) ∧ d.live F.SAF_EMB_CFG.LOAN_EN = 1 ∧ (d.lender k).isSome
  then d.modClu k (fun c => { c with loanAsk := some (unitIdx u) }) else d
def execEmberDeferred (unit t : Nat) (s : State) : Res := .next (s.upd (fun d => d.deferredTest unit t))

/-! ## Loans (R404 to R406) -/

/-- LOAN_BEGIN: at a boundary of the deferred engine's number, which binds to the lender's spare. DEDUCED: log entry 33. -/
def Dev.loanBegin (d : Dev) (k t : Nat) : Dev :=
  let c := d.clu k
  match c.loanAsk with
  | none => d
  | some p =>
    let e := c.le.idxOf p
    if d.cluOut k || !d.diesOn || !c.le.contains p || c.loan.isSome || d.leHeld (4 * k + e) || d.unitKept (engUnit k p) || (d.unitSt (engUnit k p)).slicing then d else
    match d.lender k with
    | none => d.modClu k (fun c => { c with loanAsk := none })
    | some j =>
      let d := d.at_ t
      let s := (d.clu j).spare
      let x := d.modClu j (fun c => { c with lent := true, engDue := none })
      let x := x.modClu k (fun c => { c with loan := some ⟨e, p, j % 4, s, t, none⟩, loanAsk := none })
      (d.track [engUnit k p, engUnit j s] x).modUnit (engUnit k p) (fun s => { s with testing := true, slices := 0 })
def execLoanBegin (k t : Nat) (s : State) : Res := .next (s.upd (fun d => d.loanBegin k t))

/-- LOAN_END: at the first boundary of the number after the test and after ROT_MS. -/
def Dev.loanEnd (d : Dev) (k t : Nat) : Dev :=
  match (d.clu k).loan with
  | none => d
  | some l =>
    let j := k / 4 * 4 + l.lender
    if !d.diesOn || l.tested.isNone || decide (t < l.began + d.rotNs) || d.leHeld (4 * k + l.le) || d.unitKept (engUnit j l.phys) then d else
    let d := d.at_ t
    let x := d.modClu k (fun c => { c with loan := none })
    let x := x.modClu j (fun c => Clu.bringIn { c with lent := false, engPrev := t })
    (d.track (cluUnits k ++ cluUnits j) x).journalLeap
def execLoanEnd (k t : Nat) (s : State) : Res := .next (s.upd (fun d => d.loanEnd k t))

/-! ## Standby units (R398) -/

/-- STANDBY_SEQ_TEST: every 100 ms; a standby on old microcode loads the new one with it (R496). DEDUCED: log entries 40, 160. -/
def Dev.standbySeqTest (d : Dev) (k : Nat) (pass : Bool) (t : Nat) : Dev :=
  let c := d.clu k
  let s := 1 - c.seqActive
  if d.cluOut k || !d.diesOn || c.seqFenced.contains s || decide (t < c.seqTest + 100000000) then d else
  let d := (d.at_ t).modClu k (fun c => { c with seqTest := t })
  if pass then (d.passed (seqUnit k s)).newCode (seqUnit k s) else d.failed (seqUnit k s)
def execStandbySeqTest (k : Nat) (pass : Bool) (t : Nat) (s : State) : Res := .next (s.upd (fun d => d.standbySeqTest k pass t))

/-- STANDBY_COMPUTUS_TEST: every INTERVAL_MS; a pair that fails is fenced, and no pair stands by. -/
def Dev.standbyComputusTest (d : Dev) (pass : Bool) (t : Nat) : Dev :=
  if !d.safe.standby || decide (t < d.safe.pairTest + d.intervalNs) then d else
  let d := d.at_ t
  let d := { d with safe := { d.safe with pairTest := t } }
  if pass then d.addSat F.SAF_EMB_PASS.COUNT 1
  else Dev.raise (Dev.abandonAct { d with safe := { d.safe with standby := false } }) 0x045 (hubUnit (0x90 + (1 - d.safe.pair))) 0 5
def execStandbyComputusTest (pass : Bool) (t : Nat) (s : State) : Res := .next (s.upd (fun d => d.standbyComputusTest pass t))

/-! ## Wear (R407, R408) -/

/-- WEAR_JOURNAL: once per hour. DEDUCED: log entry 37. -/
def Dev.wearJournal (d : Dev) (t : Nat) : Dev :=
  if t < d.leap.wornAt + 3600000000000 then d else
  let d := (d.at_ t).journalWear
  { d with leap := { d.leap with wornAt := t } }
def execWearJournal (t : Nat) (s : State) : Res := .next (s.upd (fun d => d.wearJournal t))

/-- AGE_MS of a unit. -/
def Dev.ageMs (d : Dev) (u : Nat) : Nat := if [0, 1, 6].contains (unitKind u) then Nat.min 16383 ((d.now - (d.unitSt u).lastPass) / 1000000) else 0
/-- The wear record of a unit (Table 3), as words; zero for an identifier that names none. -/
def Dev.wearRecord (d : Dev) (u : Nat) : List Nat :=
  if !(d.unitExists u && [0, 1, 2, 6].contains (unitKind u)) then [0, 0, 0, 0] else
  let s := d.unitSt u
  let own := unitKind u ≤ 1
  [Nat.min 0xFFFFFFFF (d.serviceAt u / 3600000000000), s.passes, if own then s.ce else 0,
   (if own then s.rowsUsed + d.unitRowsLeft u * 2 ^ 8 else 0) + d.unitState u * 2 ^ 16 + d.ageMs u * 2 ^ 18]
/-- WEAR_READ: a read of SAF_WEAR_DATA0 takes a snapshot. -/
def Dev.wearRead (d : Dev) (who : Who) : Dev :=
  if !pfOrC who then d.ret [0, 0, 0, 0] else
  let l := d.wearRecord (d.f F.SAF_WEAR_SEL.UNIT)
  Dev.ret { d with leap := { d.leap with wearSnap := l } } (leBytes 4 (l.getD 0 0))
def execWearRead (who : Who) (s : State) : Res := .next (s.upd (fun d => d.wearRead who))

end Sys2Proof.Machine
end

