-- ==== Sys2Proof/Machine/Memory.lean ====
section
/-!
DEFINITION. Memory errors and their outcomes on chip (R131 to R135) and in HBM (R140 to R143), repairs, and the reservations of R147.
-/
namespace Sys2Proof.Machine

/-! ## On chip (R131, R135, R360) -/

/-- The logical engine through which a scratchpad address names physical engine `p` of cluster `k`: that of the command that holds it,
else the one it is bound to; for an unbound engine the spec gives no address, and the slot is a free value. DEDUCED: log entry 171. -/
def Dev.slotFor (d : Dev) (k p : Nat) : Nat :=
  match (d.runs.flatMap (fun q => if q.2.holds then q.2.members else [])).find? (fun m => m.phys == engUnit k p) with
  | some m => m.le % 4
  | none => if (d.clu k).le.contains p then (d.clu k).le.idxOf p else Config.freeNat d.fresh p % 4
/-- The address field of an on-chip memory event (R360): that of the failing 64-bit word. DEDUCED: log entry 171. -/
def Dev.wordAddr (d : Dev) (key : Nat) : Nat :=
  let u := keyUnit key
  let o := key % 0x1000000 / 8 * 8
  let base := unitDie u * 2 ^ 31 + u / 512 % 4 * 2 ^ 29
  match unitKind u with
  | 0 => base + u / 64 % 8 * 2 ^ 26 + d.slotFor (unitClu u) (unitIdx u) * 2 ^ 23 + o
  | 3 => base + u / 64 % 8 * 2 ^ 26 + 5 * 2 ^ 23 + o
  | 4 => base + 7 * 2 ^ 26 + o
  | _ => o

/-- The access types of R360 that a read may have: data, a word that is written in part, or a descriptor, a module, a list or a table that
the hub reads. -/
def accRead : Nat := 1
def accRmw : Nat := 3
def accFetch : Nat := 4

/-- A corrected word: counted, reported with the access type of its reader, and the row is due at its fourth event within a scrub pass. -/
def Dev.sramCe (d : Dev) (key acc : Nat) : Dev :=
  let u := keyUnit key
  let row := key / 64 * 64
  let d := (d.addSat F.MEM_SRAM_CE.COUNT 1).modUnit u (fun s => if unitKind u ≤ 1 then { s with ce := Nat.min (s.ce + 1) 0xFFFFFFFF } else s)
  let n := mget 0 d.mem.rowEvents row + 1
  let d := { d with mem := { d.mem with rowEvents := mset d.mem.rowEvents row n } }
  let d := d.raise 0x000 u (d.wordAddr key) acc
  if 4 ≤ n then d.rowDue key else d
/-- The owner of hub memory (R15). -/
def hubMem : Nat := hubUnit 0x50
/-- An uncorrectable word, as it is counted and reported; in a command-scoped memory the march test of its row starts (R132).
DEDUCED: log entry 85. -/
def Dev.sramUe (d : Dev) (key acc : Nat) : Dev :=
  let u := keyUnit key
  if u = hubMem then d.raise 0x002 u (d.wordAddr key) acc
  else
    let d := { d with mem := { d.mem with marches := insNat d.mem.marches (key / 64 * 64) } }
    (d.addSat F.MEM_SRAM_UE.COUNT 1).raise 0x001 u (d.wordAddr key) acc

/-! ## HBM (R140, R141, R143) -/

/-- A patrol period ends, and the counts of R143 start again. -/
def Dev.patrolTurn (d : Dev) : Dev :=
  let ended := decide (d.mem.patrolFrom + d.f F.MEM_PATROL.HOURS * 3600000000000 ≤ d.now)
  { d with mem := { d.mem with
      hbmLanes := if ended then [] else d.mem.hbmLanes, hbmRows := if ended then [] else d.mem.hbmRows,
      patrolFrom := if ended then d.now else d.mem.patrolFrom } }
/-- The number of the DQ lane of an error at device address `a`: stack, pseudo-channel (R136), and the lane among its 32, which the
spec does not tell: a free value. DEDUCED: log entry 182. -/
def Dev.laneOf (d : Dev) (a : Nat) : Nat :=
  let o := a % 0x600000000
  stackOf a * 1024 + ((o / 256 % 32) ^^^ (o / 8192 % 32)) * 32 + Config.freeNat d.fresh 0 % 32
/-- The key of the row that holds a device address. DEDUCED: log entry 182. -/
def rowKey (a : Nat) : Nat := stackOf a + 2 * Config.hbmRow a
/-- Count `n` events of the row of an address within the patrol period. -/
def Dev.rowSeen (d : Dev) (a n : Nat) : Dev :=
  { d with mem := { d.mem with hbmRows := mset d.mem.hbmRows (rowKey a) (mget 0 d.mem.hbmRows (rowKey a) + n) } }
/-- A word corrected by the controller. -/
def Dev.hbmCe (d : Dev) (a acc : Nat) : Dev :=
  let d := (d.patrolTurn.rowSeen a 1).addSat (F.MEM_HBM_CE.COUNT (stackOf a)) 1
  let d := Dev.take { d with mem := { d.mem with hbmLanes := mset d.mem.hbmLanes (d.laneOf a) (mget 0 d.mem.hbmLanes (d.laneOf a) + 1) } }
  d.raise 0x003 (hbmUnit (stackOf a)) (a / 64 * 64) acc
/-- A granule is poisoned. -/
def Dev.poisonAt (d : Dev) (a : Nat) : Dev :=
  if d.mem.poison.contains (a / 64 * 64) then d else d.setPoison (insNat d.mem.poison (a / 64 * 64))
/-- An uncorrectable granule is poisoned, counted and reported with the access type of its reader; its row is due for repair (R143). -/
def Dev.hbmUeAt (d : Dev) (a acc : Nat) : Dev :=
  let g := a / 64 * 64
  ((d.patrolTurn.poisonAt g).rowSeen g 3 |>.addSat (F.MEM_HBM_UE.COUNT (stackOf g)) 1).raise 0x004 (hbmUnit (stackOf g)) g acc

/-! ## Errors that an instruction meets -/

/-- A command read an uncorrectable granule: it is killed without a re-run (R141). DEDUCED: log entry 86. -/
def Dev.killUe (d : Dev) (id a acc : Nat) : Dev := (d.hbmUeAt a acc).killFinal id stInvalidated 10
/-- A command stops until the march test of a row has ended, charged to its task; its binding stays for the re-run (R132). -/
def Dev.stopMarch (d : Dev) (id : Nat) (e : MemErr) : Dev :=
  match mfind d.runs id with
  | none => d
  | some r => (d.stopRerun id (.march e) true).modRun id (fun x => { x with keep := r.units })
/-- One error of a command's access. A correctable one only counts; an uncorrectable on-chip word kills the command until the march test
of its row has ended (R132), and one of hub memory ends it. `acc` is the access type of an on-chip read. DEDUCED: log entries 84, 183. -/
def Dev.memErr (d : Dev) (id acc : Nat) (e : MemErr) : Dev :=
  if e.hbm then (if e.correctable then d.hbmCe e.addr accRead else d.killUe id e.addr accRead)
  else if e.correctable then d.sramCe e.addr acc
  else if keyUnit e.addr = hubMem then (d.sramUe e.addr acc).killFinal id stInvalidated 10
  else
    let d := d.sramUe e.addr acc
    if ((mfind d.runs id).map (fun r => r.holds && !r.inCommit)).getD false then d.stopMarch id e else d
/-- Does an error lie in a list of extents? -/
def errIn (l : List Extent) (e : MemErr) : Bool := l.any (fun x => x.dev == e.hbm && decide (x.lo ≤ e.addr) && decide (e.addr < x.hi))
/-- The source and the master of the event of an error, as one number (R361). -/
def errKey (e : MemErr) : Nat :=
  if e.hbm then (if e.correctable then 3 else 4) * 65536 + hbmUnit (stackOf e.addr)
  else (if e.correctable then 0 else 1) * 65536 + keyUnit e.addr
/-- Errors met in one cycle, in ascending order of source and master (R364). -/
def errSort (l : List MemErr) : List MemErr := sortBy errKey l
/-- The errors that lie in what an instruction touches, all met in one cycle. Words of `rmw` are read because they are written in part
(R130). -/
def Dev.memErrs (d : Dev) (id : Nat) (touched : List Extent) (es : List MemErr) (rmw : List Extent := []) : Dev :=
  (errSort (es.filter (errIn (touched ++ rmw)))).foldl (fun d e => d.memErr id (if errIn touched e then accRead else accRmw) e) d

/-- An access of the hub that reads the given ranges of HBM, each first byte and length, and hub memory, meets errors: corrected words
count, uncorrectable granules are poisoned for `go` to find, and an uncorrectable word of hub memory stops the operation (R131, R140,
R141). DEDUCED: log entry 183. -/
def Dev.met (d : Dev) (acc : Nat) (ranges : List (Nat × Nat)) (es : List MemErr) (go : Dev → Dev) : Dev :=
  let inside := fun (e : MemErr) => if e.hbm then ranges.any (fun r => decide (r.1 / 64 * 64 ≤ e.addr) && decide (e.addr < r.1 + r.2))
    else keyUnit e.addr == hubMem
  let es := errSort (es.filter inside)
  let d := es.foldl (fun (d : Dev) (e : MemErr) =>
    if e.hbm then (if !e.correctable then d.poisonAt e.addr else if d.mem.poison.contains (e.addr / 64 * 64) then d else d.hbmCe e.addr acc)
    else if e.correctable then d.sramCe e.addr acc else d.sramUe e.addr acc) d
  if es.any (fun e => !e.hbm && !e.correctable) then d else go d

/-- A command that waits for the march test of a row becomes a candidate again. -/
def Run.marched (row : Nat) (r : Run) : Run :=
  match r.phase with
  | .march w => if w.addr / 64 * 64 = row then { r with phase := .cand } else r
  | _ => r
/-- MARCH_TEST_DONE (R132): a row that passes was hit by a transient; a row that fails is due for repair, or its owner is fenced.
DEDUCED: log entry 86. -/
def Dev.marchDone (d : Dev) (key : Nat) (hard : Bool) (t : Nat) : Dev :=
  let row := key / 64 * 64
  if !d.mem.marches.contains row then d else
  let d := d.at_ t
  let d := { d with mem := { d.mem with marches := d.mem.marches.filter (fun x => x != row) } }
  let d := { d with runs := d.runs.map (fun p => (p.1, p.2.marched row)) }
  if !hard then d else
  let d := { d with runs := d.runs.map (fun (p : Nat × Run) => (p.1, if p.2.keep.contains (keyUnit row) then { p.2 with keep := [] } else p.2)) }
  let used : Nat := (d.mem.sramRepairDue.filter (fun (x : Nat) => keyMacro x == keyMacro row && x != row)).length
  if used < d.rowsLeft row then d.rowDue row else d.fence (keyUnit row) none
def execMarchTestDone (row : Nat) (hard : Bool) (t : Nat) (s : State) : Res := .next (s.upd (fun d => d.marchDone row hard t))

/-! ## Scrubbing and patrol (R134, R142) -/

/-- Does the memory of an owner exist and work? -/
def Dev.memOn (d : Dev) (mem : Nat) : Bool :=
  decide (0 < memSize mem) && (mem == hubMem || (d.unitExists mem && d.unitState mem != 3 && d.diesOn))
/-- SCRUB_READ: the scrubber reads the next word of an on-chip memory, in ascending address order. DEDUCED: log entries 85, 88. -/
def Dev.scrubRead (d : Dev) (mem off flips t : Nat) : Dev :=
  if !d.memOn mem || off != mget 0 d.mem.scrubAt mem then d else
  let d := d.at_ t
  let key := mem * 0x1000000 + off
  let d := if off = 0 then { d with mem := { d.mem with rowEvents := d.mem.rowEvents.filter (fun p => keyUnit p.1 != mem) } } else d
  let d := { d with mem := { d.mem with scrubAt := mput 0 d.mem.scrubAt mem ((off + 8) % memSize mem) } }
  if flips = 0 then d else if flips = 1 then d.sramCe key accRead else d.sramUe key accRead
def execScrubRead (mem off flips t : Nat) (s : State) : Res := .next (s.upd (fun d => d.scrubRead mem off flips t))

/-- PATROL_READ: patrol scrubbing reads a granule, while it is on. DEDUCED: log entry 88. -/
def Dev.patrolRead (d : Dev) (addr flips t : Nat) : Dev :=
  if !d.on F.MEM_PATROL.EN || !d.inHbm addr 1 || d.stackLost addr then d else
  let d := d.at_ t
  if d.mem.poison.contains (addr / 64 * 64) then d.hbmUeAt addr accRead
  else if flips = 0 then d else if flips = 1 then d.hbmCe addr accRead else d.hbmUeAt addr accRead
def execPatrolRead (addr flips t : Nat) (s : State) : Res := .next (s.upd (fun d => d.patrolRead addr flips t))

/-! ## Repairs (R135, R143) -/

/-- ROW_REPAIR_APPLY: the rows of a cluster scratchpad or region memory that were due at the last Vigil are replaced when no command
holds an engine there, and for 2 µs nothing is dispatched there; those of units wait for a rotation, those of hub memory for a reset.
DEDUCED: log entry 41. -/
def Dev.rowRepair (d : Dev) (mem : Nat) : Dev :=
  let busy := !(unitKind mem == 3 || unitKind mem == 4) || d.runs.any (fun q => q.2.holds && q.2.usesMem mem)
  if busy || !d.diesOn || !d.mem.rowsReady.any (fun key => keyUnit key == mem) then d else
  let d := d.applyRows (fun key => keyUnit key == mem && d.mem.rowsReady.contains key)
  { d with mem := { d.mem with withheld := mset d.mem.withheld mem (d.now + 2000) } }
def execRowRepairApply (mem : Nat) (s : State) : Res := .next (s.upd (fun d => d.rowRepair mem))
/-- Is dispatch to the command's clusters or region withheld for a repair (R135)? -/
def Dev.repairing (d : Dev) (r : Run) : Bool :=
  d.mem.withheld.any (fun q => decide (d.now < q.2) &&
    (if unitKind q.1 = 3 then r.clusters.contains (unitClu q.1) else placeReg r.place == unitRegion q.1))

/-- No spare is left on the stack. -/
def Dev.exhausted (d : Dev) (s : Nat) : Dev := d.raise 0x005 (hbmUnit s) 0 0
/-- HBM_LANE_REPAIR: a lane with 16 corrected errors in the patrol period, or one that training finds marginal, moves to a spare lane of
its channel. -/
def Dev.laneRepair (d : Dev) (s lane : Nat) (marginal : Bool) (t : Nat) : Dev :=
  if decide (d.nStacks ≤ s) || decide (1024 ≤ lane) || d.leap.dieLost.contains s then d else
  let d := (d.at_ t).patrolTurn
  let key := s * 1024 + lane
  if !marginal && decide (mget 0 d.mem.hbmLanes key < 16) then d else
  let d := { d with mem := { d.mem with hbmLanes := merase d.mem.hbmLanes key } }
  let ch := key / 64
  if d.mem.lanesSpare.getD ch 0 = 0 then d.exhausted s else
  let d := { d with mem := { d.mem with lanesSpare := d.mem.lanesSpare.set ch (d.mem.lanesSpare.getD ch 0 - 1) } }
  d.addSat (F.MEM_HBM_REPAIR.LANES_USED s) 1
def execHbmLaneRepair (stack lane : Nat) (marginal : Bool) (t : Nat) (s : State) : Res :=
  .next (s.upd (fun d => d.laneRepair stack lane marginal t))
/-- HBM_ROW_REPAIR: soft post-package repair of a row with three events in the patrol period; no data is lost, and poisoned granules stay
poisoned. DEDUCED: log entry 41. -/
def Dev.hbmRowRepair (d : Dev) (s row t : Nat) : Dev :=
  if decide (d.nStacks ≤ s) || d.leap.dieLost.contains s then d else
  let d := (d.at_ t).patrolTurn
  let key := s + 2 * row
  if mget 0 d.mem.hbmRows key < 3 then d else
  let d := { d with mem := { d.mem with hbmRows := merase d.mem.hbmRows key } }
  if d.mem.rowsSpare.getD s 0 = 0 then d.exhausted s else
  let d := { d with mem := { d.mem with rowsSpare := d.mem.rowsSpare.set s (d.mem.rowsSpare.getD s 0 - 1) } }
  d.addSat (F.MEM_HBM_REPAIR.ROWS_USED s) 1
def execHbmRowRepair (stack row t : Nat) (s : State) : Res := .next (s.upd (fun d => d.hbmRowRepair stack row t))

/-! ## Reservations (R147) -/

/-- A staged RATE or BURST. -/
def Dev.stagedRate (d : Dev) (b s : Nat) : Nat := d.f (F.MEM_RSV.RATE b s)
/-- Does APPLY refuse the staged values? DEDUCED: log entry 87. -/
def Dev.rsvBad (d : Dev) : Bool :=
  [0, 1].any (fun s => 7372 < sumNat ((List.range 17).map (fun b => d.stagedRate b s))) ||
  (d.oneDie && (List.range 17).any (fun b => d.stagedRate b 1 != 0)) ||
  (List.range 17).any (fun b => d.f (F.MEM_RSV.BURST b 0) == 0 || d.f (F.MEM_RSV.BURST b 1) == 0) ||
  d.mods.any (fun q => d.stagedRate q.2.part 0 < q.2.rate0 || d.stagedRate q.2.part 1 < q.2.rate1)
/-- RSV_APPLY: the staged values wait for the next tick, or are refused. DEDUCED: log entry 87. -/
def Dev.rsvApply (d : Dev) : Dev :=
  if d.rsvBad then d.set F.MEM_RSV_CTRL.BAD_CFG 1
  else (d.stage (R.MEM_RSV 0 0) (R.MEM_RSV 17 0)).set F.MEM_RSV_CTRL.PENDING 1
def execRsvApply (s : State) : Res := .next (s.upd Dev.rsvApply)

end Sys2Proof.Machine
end

