-- ==== Sys2Proof/Machine/Host.lean ====
section
/-!
DEFINITION. The host link (R96 to R121): contexts and their residence, doorbells, descriptor fetch, the ring commands that need no
engine, BAR2, and the dispatch of SIGNAL and WAIT descriptors (R235, R238, R239).
-/
namespace Sys2Proof.Machine

/-! ## Residence (R108, R109, R330, R331) -/

/-- The resident contexts that may be swapped out. -/
def Dev.idleRes (d : Dev) : List (Nat × Ctx) := d.ctxs.filter (fun p => p.2.resident && !d.pinned p.1 && !d.ctxBusy p.1)
def Dev.residents (d : Dev) : Nat := (d.ctxs.filter (fun p => p.2.resident)).length
/-- The one whose last fetch is the oldest; keys rise, so the first of a tie is the lower partition and context. -/
def oldestFetch : List (Nat × Ctx) → Option (Nat × Ctx)
  | [] => none
  | p :: l =>
    match oldestFetch l with
    | none => some p
    | some q => if p.2.lastFetch ≤ q.2.lastFetch then some p else some q
/-- The address of a swap record. -/
def Dev.swapAddr (d : Dev) (key : Nat) : Nat := d.f F.SCH_SWAP_BASE.ADDR + 64 * key
/-- Swap a context out: a held interrupt is sent first. The bytes of the record are the hub's own. DEDUCED: log entry 170. -/
def Dev.swapOut (d : Dev) (key : Nat) : Dev :=
  match d.ctx key with
  | none => d
  | some c =>
    let d := if c.vector != 0 && c.unsig != 0 then d.send (.msix (key / 4096) c.vector) else d
    let d := d.modCtx key (fun c => { c with resident := false, unsig := 0, unsigSince := none })
    if d.inHbm (d.swapAddr key) 64 then
      Dev.take (Dev.setPoison { d with mem := { d.mem with hbm := d.mem.hbm.forget (d.swapAddr key) (d.swapAddr key + 64) d.fresh } }
        (d.mem.poison.filter (fun g => g != d.swapAddr key)))
    else d
/-- Make room for one more resident context: none when every resident context is pinned. -/
def Dev.makeRoom (d : Dev) : Option Dev :=
  if d.residents < 4096 then some d else
  match oldestFetch d.idleRes with
  | some p => some (d.swapOut p.1)
  | none => none
/-- The record of a context has been read: a full slice, everything else as it was; an uncorrectable record destroys it. DEDUCED: log
entry 170. -/
def Dev.swapTake (d : Dev) (key : Nat) : Dev :=
  if d.mem.poison.contains (d.swapAddr key) then
    Dev.raise ((d.hbmUeAt (d.swapAddr key) accFetch).freeCtx key) 0x0C5 0x8070 (d.swapAddr key) accFetch
  else d.modCtx key (fun c => { c with resident := true, sliceUsed := 0 })
/-- Swap a context in: the hub reads its record in HBM, with the errors it meets there (R140, R141, R331). -/
def Dev.swapIn (d : Dev) (key : Nat) (mem : List MemErr) : Dev :=
  d.met accFetch [(d.swapAddr key, 64)] (mem.filter MemErr.hbm) (fun d => d.swapTake key)
/-- Act on the doorbells held for a context. -/
def Dev.heldBells (d : Dev) (key : Nat) : Dev :=
  (d.modCtx key (fun c => { c with
    tail := c.heldTail.getD c.tail, heldTail := none,
    cqHead := c.heldHead.getD c.cqHead,
    unread := (match c.heldHead with
      | some v => (c.written + c.size - v) % c.size
      | none => c.unread),
    heldHead := none })).pumpCtx key

/-! ## Creating and ending contexts (R105 to R108) -/

/-- The status of the checks of a set-up block. -/
def setupStatus (b : List Nat) (inUse : Bool) : Nat :=
  if 4 ≤ b.getD 21 0 || !zeroBytes b 22 64 then stReserved
  else if b.getD 16 0 == 0 || b.getD 17 0 == 0 then stZero
  else if 16 < b.getD 16 0 || 16 < b.getD 17 0 || 127 < b.getD 18 0 || inUse then stBounds
  else if bfield b 0 8 % 4096 != 0 || bfield b 8 8 % 4096 != 0 then stAlign else stOk

/-- The context that a set-up block describes. -/
def ctxOf (b : List Nat) (now : Nat) : Ctx :=
  { sqBase := bfield b 0 8, cqBase := bfield b 8 8, sqLog2 := b.getD 16 0, cqLog2 := b.getD 17 0, vector := b.getD 18 0,
    coalCount := Nat.max 1 (b.getD 19 0), coalUs := b.getD 20 0, safety := maskHas (b.getD 21 0) 0, ordoCpl := maskHas (b.getD 21 0) 1,
    fetch := 0, tail := 0, cqHead := 0, written := 0, unread := 0, unsig := 0, unsigSince := none, attached := true, resident := true,
    heldTail := none, heldHead := none, lastFetch := now, prio := 1, slice := 1, prioNext := 1, sliceNext := 1, sliceUsed := 0,
    last := 0, peak := 0, frSum := 0, frCount := 0, frAvg := 0, frCnt := 0, preempts := 0, cmds := [], ending := none }

/-- Start a HIF_FN_CTX_CMD operation: the fields are written; GO is ignored while BUSY is 1 (Table 3 of R103). No context exists before
the firmware runs (R487, R497). DEDUCED: log entry 73. -/
def Dev.ctxCmd (d : Dev) (fn ctx op : Nat) (go : Dev → Dev) : Dev :=
  if d.rst.warm || d.sec.overLink then d else
  let d1 := (d.set (F.HIF_FN_CTX_CMD.CTX fn) ctx).set (F.HIF_FN_CTX_CMD.OP fn) op
  if d.on (F.HIF_FN_CTX_CMD.BUSY fn) then d1 else go d1

/-- Create the context that a set-up block describes, and the status (R106): one left without rings is attached again (R504). Every CREATE
sets the defaults and clears the statistics of R310. DEDUCED: log entry 73. -/
def Dev.createCtx (d : Dev) (key : Nat) (b : List Nat) : Dev × Nat :=
  let old := d.ctx key
  let st := setupStatus b ((old.map Ctx.attached).getD false)
  if st != stOk then (d, st) else
  match (if (old.map Ctx.resident).getD false then some d else d.makeRoom) with
  | none => (d, stCtxExhausted)
  | some d => ({ d with ctxs := mset d.ctxs key (ctxOf b d.now) }, stOk)

def Dev.create (d : Dev) (fn ctx : Nat) : Dev :=
  let r := d.createCtx (ckey fn ctx) (d.rdHost (d.f (F.HIF_FN_CTX_ADDR.ADDR fn)) 64)
  r.1.opDone fn r.2

/-- CREATE (R106). -/
def execCreate (fn ctx : Nat) (s : State) : Res :=
  .next (s.upd (fun d => d.ctxCmd fn ctx 0 (fun d => d.create fn ctx)))

/-- An operation on a context that ends what it runs (R107): it stays BUSY until everything has ended. -/
def Dev.endCtx (d : Dev) (fn key : Nat) (destroy : Bool) : Dev :=
  match d.ctx key with
  | none => d.opDone fn stBounds
  | some _ =>
    if destroy && d.pinned key then d.opDone fn stBounds else
    Dev.pumpCtx ((d.set (F.HIF_FN_CTX_CMD.BUSY fn) 1).modCtx key (fun c => { c with
      ending := some (destroy, c.heldTail.getD c.tail), tail := c.heldTail.getD c.tail, heldTail := none })) key

/-- DESTROY (R107). -/
def execDestroy (fn ctx : Nat) (s : State) : Res :=
  .next (s.upd (fun d => d.ctxCmd fn ctx 1 (fun d => d.endCtx fn (ckey fn ctx) true)))
/-- ABORT (R107). -/
def execAbort (fn ctx : Nat) (s : State) : Res :=
  .next (s.upd (fun d => d.ctxCmd fn ctx 2 (fun d => d.endCtx fn (ckey fn ctx) false)))

/-! ## Doorbells (R110, R111) -/

/-- Is there a doorbell aperture of a function: not in boot-over-link, nor during a warm reset (R497), nor in D3hot? -/
def Dev.bar4 (d : Dev) (fn : Nat) : Bool := !d.sec.overLink && !d.rst.warm && d.barsOpen fn
/-- A refused doorbell write. -/
def Dev.dbErr (d : Dev) (fn page : Nat) : Dev :=
  Dev.raise (Dev.fnEvent (d.set (F.HIF_FN_EVENT_CTX.CTX fn) page) fn 1) 0x101 0x8000 0 6

/-- Act on the doorbells held for a context, when it is resident or there is room for it; without room they stay held, and SWAP_WAIT sets
where the doorbells are first looked at (R109). -/
def Dev.bellAct (d : Dev) (key : Nat) (mem : List MemErr) (first : Bool) : Dev :=
  match d.ctx key with
  | none => d
  | some c =>
    if d.rst.low != 0 || (c.heldTail.isNone && c.heldHead.isNone) then d else
    if c.resident then d.heldBells key else
    match d.makeRoom with
    | some d => (d.swapIn key mem).heldBells key
    | none => if first then d.fnEvent (key / 4096) 2 else d
/-- A doorbell write that passed its checks: acted on at once, after a swap-in, or held (R109, R506). -/
def Dev.ringBell (d : Dev) (key : Nat) (mem : List MemErr) (hold : Ctx → Ctx) : Dev := (d.modCtx key hold).bellAct key mem true

/-- SQ_TAIL (R111). A page whose context a link or function reset has left without rings is treated like one of no context (R504).
DESIGN CHOICE: log entry 195. -/
def Dev.sqTail (d : Dev) (fn page off width value : Nat) (mem : List MemErr) : Dev :=
  match d.ctx (ckey fn page) with
  | none => d.dbErr fn page
  | some c =>
    if width != 4 || off != 0 || 65536 ≤ value || 2 ^ c.sqLog2 ≤ value || !c.attached then d.dbErr fn page
    else d.ringBell (ckey fn page) mem (fun c => { c with heldTail := some value })
def execSqTail (fn page off width value : Nat) (mem : List MemErr) (s : State) : Res :=
  .next (s.upd (fun d => if d.bar4 fn then d.sqTail fn page off width value mem else d))

/-- The unread records of a context, counting a head that is still held. -/
def Ctx.unreadNow (c : Ctx) : Nat :=
  match c.heldHead with
  | some v => (c.written + c.size - v) % c.size
  | none => c.unread
def Ctx.headNow (c : Ctx) : Nat := c.heldHead.getD c.cqHead

/-- CQ_HEAD (R111): refused beyond the ring, and where it would pass records not yet written. -/
def Dev.cqHead (d : Dev) (fn page off width value : Nat) (mem : List MemErr) : Dev :=
  match d.ctx (ckey fn page) with
  | none => d.dbErr fn page
  | some c =>
    if width != 4 || off != 8 || 65536 ≤ value || c.size ≤ value || !c.attached ||
      c.unreadNow < (value + c.size - c.headNow) % c.size then d.dbErr fn page
    else d.ringBell (ckey fn page) mem (fun c => { c with heldHead := some value })
def execCqHead (fn page off width value : Nat) (mem : List MemErr) (s : State) : Res :=
  .next (s.upd (fun d => if d.bar4 fn then d.cqHead fn page off width value mem else d))

/-- Is this the instant of a tick? -/
def Dev.atTick (d : Dev) : Bool := d.frame.started && d.now == d.frame.tick
/-- HELD_DOORBELL_RESUME (R109): those of a context that was swapped out are acted on at a tick. -/
def Dev.bellResume (d : Dev) (key : Nat) (mem : List MemErr) : Dev :=
  if ((d.ctx key).map Ctx.resident).getD false || d.atTick then d.bellAct key mem false else d
def execHeldDoorbellResume (fn ctx : Nat) (mem : List MemErr) (s : State) : Res :=
  .next (s.upd (fun d => d.bellResume (ckey fn ctx) mem))

/-! ## Fetch (R113, R114) -/

/-- DESCRIPTOR_FETCH. DEDUCED: log entry 74. -/
def Dev.fetchDesc (d : Dev) (key : Nat) : Dev :=
  match d.ctx key with
  | none => d
  | some c =>
    if !c.resident || !c.attached || c.ending.isSome || d.rst.low != 0 || d.rst.warm || !d.rst.linkUp || c.fetch == c.tail ||
      c.freeRecs < 2 then d else
    let b := d.rdHost (c.sqBase + 64 * c.fetch) 64
    let st := d.validate (key / 4096) b
    let k : RingCmd := ⟨c.fetch, b, if st = stOk then .fetched else .failed st, d.partRange (key / 4096)⟩
    (d.modCtx key (fun c => { c with cmds := c.cmds ++ [k], fetch := (c.fetch + 1) % 2 ^ c.sqLog2, lastFetch := d.now })).pumpCtx key
def execDescriptorFetch (fn ctx : Nat) (s : State) : Res := .next (s.upd (fun d => d.fetchDesc (ckey fn ctx)))

/-- COAL_TIMER (R120). -/
def Dev.coalTimer (d : Dev) (key t : Nat) : Dev :=
  match d.ctx key with
  | none => d
  | some c =>
    match c.unsigSince with
    | none => d
    | some t0 =>
      if c.coalUs != 0 && c.vector != 0 && t0 + c.coalUs * 1000 ≤ t then
        Dev.send ((d.at_ t).modCtx key (fun c => { c with unsig := 0, unsigSince := none })) (.msix (key / 4096) c.vector)
      else d
def execCoalTimer (fn ctx t : Nat) (s : State) : Res := .next (s.upd (fun d => d.coalTimer (ckey fn ctx) t))

/-! ## The link and the HBM aperture (R96, R98, R100, R141) -/

/-- PCIE_LANE_FAIL: the link retrains at the widest width that works. -/
def Dev.laneDown (d : Dev) (width : Nat) : Dev :=
  if d.rst.linkUp && width < d.rst.linkWidth && [1, 2, 4].contains width then
    Dev.raise { d with rst := { d.rst with linkWidth := width } } 0x100 0x8000 0 6
  else d
def execPcieLaneFail (width : Nat) (s : State) : Res := .next (s.upd (fun d => d.laneDown width))

/-- HOST_LINK_TRAINED: not without the reference, and not while the link is off (R42, R507); an up link does not change its width, which it
regains at a link, warm or cold reset only (R98). DEDUCED: log entry 80. DESIGN CHOICE: log entry 175. -/
def Dev.linkTrained (d : Dev) (width rate : Nat) : Dev :=
  if !d.rst.refclk || d.rst.low == 2 || !([1, 2, 4, 8].contains width) || rate == 0 || 5 < rate || (d.rst.linkUp && width != d.rst.linkWidth) then d else
  { d with rst := { d.rst with linkUp := true, linkWidth := width, linkRate := rate } }
def execHostLinkTrained (width rate : Nat) (s : State) : Res := .next (s.upd (fun d => d.linkTrained width rate))

/-- Is the address one of a hold slot of Octave (Table 1 of R340)? The slots of partition `f` start at SAF_OCT_HOLD of `f`; those of a
partition that is no safety partition are not used. DEDUCED: log entry 79. -/
def Dev.inHoldSlot (d : Dev) (a : Nat) : Bool :=
  (List.range 16).any (fun f =>
    d.safetyAny f && (let b := d.f (F.SAF_OCT_HOLD.ADDR f) * 0x2000000; b ≤ a && a < b + 0x2000000))

/-- Is HBM served to the host's aperture: not in Doze, not before HBM is available (R503, R506)? -/
def Dev.hbmServes (d : Dev) : Bool := d.rst.low == 0 && d.rst.hbmReady

/-- The HBM that BAR2 maps: in boot-over-link that of stack 0 (R497). -/
def Dev.bar2Size (d : Dev) : Nat := if d.sec.overLink then 0x600000000 else d.hbmSize

/-- Does BAR2 reach a byte of HBM? -/
def Dev.bar2Byte (d : Dev) (a : Nat) : Bool := decide (a < d.bar2Size) && !d.inHoldSlot a
/-- BAR2_READ of HBM that is served: a poisoned granule gives a poisoned completion. -/
def Dev.bar2Data (d : Dev) (addr len : Nat) : Dev :=
  match (d.poisonIn addr len).filter d.bar2Byte with
  | [] => d.ret ((List.range len).map (fun i => if d.bar2Byte (addr + i) then (d.mem.hbm.read (addr + i)).toNat else 0))
  | g :: _ => Dev.hbmUeAt { d with out := { d.out with rdata := [], poisoned := true } } g accRead
/-- BAR2_READ. -/
def Dev.bar2Read (d : Dev) (addr len : Nat) (mem : List MemErr) : Dev :=
  if !d.barsOpen 0 then d else
  if !d.hbmServes then d.ret (List.replicate len 0) else
  (d.ret []).met accRead [(addr, len)] (mem.filter (fun e => !e.hbm || d.bar2Byte e.addr)) (fun d => d.bar2Data addr len)
def execBar2Read (addr len : Nat) (mem : List MemErr) (s : State) : Res := .next (s.upd (fun d => d.bar2Read addr len mem))

/-- BAR2_WRITE of `n` bytes that are served: bytes in a hold slot are ignored; a write that covers a poisoned granule only in part is
dropped there. DEDUCED: log entry 79. -/
def Dev.bar2Store (d : Dev) (addr n : Nat) (bytes : List Nat) : Dev :=
  let narrow := (d.poisonIn addr n).filter (fun g => !(decide (addr ≤ g) && decide (g + 64 ≤ addr + n)) && !d.inHoldSlot g)
  let d1 :=
    if (List.range n).any (fun i => d.inHoldSlot (addr + i)) then
      (List.range n).foldl (fun d i => if d.inHoldSlot (addr + i) then d else d.wrHbm (addr + i) [bytes.getD i 0]) d
    else d.wrHbm addr (bytes.take n)
  narrow.foldl (fun d g => d.hbmUeAt g accRmw) d1
/-- BAR2_WRITE: bytes beyond installed HBM are ignored; the granules it covers only in part are read first (R100). DEDUCED: log entry 79. -/
def Dev.bar2Write (d : Dev) (addr : Nat) (bytes : List Nat) (mem : List MemErr) : Dev :=
  if !d.hbmServes || !d.barsOpen 0 then d else
  let n := Nat.min bytes.length (d.bar2Size - addr)
  let part := fun (g : Nat) => !(decide (addr ≤ g) && decide (g + 64 ≤ addr + n))
  d.met accRmw [(addr, n)] (mem.filter (fun e => !e.hbm || (d.bar2Byte e.addr && part (e.addr / 64 * 64)))) (fun d => d.bar2Store addr n bytes)
def execBar2Write (addr : Nat) (bytes : List Nat) (mem : List MemErr) (s : State) : Res :=
  .next (s.upd (fun d => d.bar2Write addr bytes mem))

/-! ## Ring commands that need no engine -/

/-- The oldest ring command of a context, when it waits for its dispatch and has the opcode. -/
def Dev.headOp (d : Dev) (key op : Nat) : Option (List Nat) :=
  match d.ctx key with
  | none => none
  | some c =>
    match c.cmds with
    | [] => none
    | k :: _ => if k.st = .fetched ∧ k.bytes.getD 0 0 = op ∧ c.ending = none ∧ c.resident = true then some k.bytes else none

/-- A KV or SPAN descriptor of a SUBOP at the head of the ring. -/
def Dev.headSub (d : Dev) (key op sub : Nat) : Option (List Nat) :=
  (d.headOp key op).bind (fun b => if b.getD 16 0 = sub then some b else none)

/-- NOP (R113). -/
def Dev.ringNop (d : Dev) (key : Nat) : Dev :=
  match d.headOp key 0 with
  | none => d
  | some _ => d.complete key stOk 0 0 0
def execRingNop (fn ctx : Nat) (s : State) : Res := .next (s.upd (fun d => d.ringNop (ckey fn ctx)))

/-- RUN (R114): the command becomes a candidate; its context joins the queue of its partition with a full slice (R313, R318). A RUN of a partition held by safe
state B completes with INVALIDATED and holds no engine (R382). -/
def Dev.ringRun (d : Dev) (key : Nat) : Dev :=
  match d.headOp key 1, d.ctx key with
  | some b, some c =>
    if d.held (key / 4096) then d.complete key stInvalidated 0 0 0 else
    let id := d.nextRun
    let d := d.addRun (mkRun (key / 4096) (key % 4096) false 0 0 b (c.safety && d.safetyPart (key / 4096)))
    let d := d.setHead key (.running id)
    if d.turns.contains key then d else
    { d.modCtx key (fun c => { c with sliceUsed := 0, prio := c.prioNext, slice := c.sliceNext }) with turns := d.turns ++ [key] }
  | _, _ => d
def execRingRun (fn ctx : Nat) (s : State) : Res := .next (s.upd (fun d => d.ringRun (ckey fn ctx)))

/-- COPY (R115). DEDUCED: log entry 77. -/
def Dev.ringCopy (d : Dev) (key : Nat) : Dev :=
  match d.headOp key 2 with
  | none => d
  | some b => if bfield b 32 4 = 0 then d.complete key stOk 0 0 0 else d.setHead key .copying
def execRingCopy (fn ctx : Nat) (s : State) : Res := .next (s.upd (fun d => d.ringCopy (ckey fn ctx)))

/-- The oldest ring command of a context, with what it is doing. DEDUCED: log entry 78. -/
def Dev.head (d : Dev) (key : Nat) : Option RingCmd := (d.ctx key).bind (fun c => c.cmds.head?)
/-- The HBM range under which it was validated (R146). -/
def Dev.headRange (d : Dev) (key : Nat) : Nat × Nat := ((d.head key).map RingCmd.range).getD (0, 0)

/-- An uncorrectable granule found by a hub command of a context: it is counted and reported, and the command is killed (R141).
DEDUCED: log entry 78. -/
def Dev.hubUe (d : Dev) (key g acc : Nat) : Dev := (d.hbmUeAt g acc).complete key stInvalidated 0 0 0

/-- The ranges of HBM that a COPY reads. -/
def copyReads (b : List Nat) : List (Nat × Nat) := if maskHas (b.getD 36 0) 0 then [] else [(bfield b 16 8, bfield b 32 4)]
/-- The end of a COPY. -/
def Dev.copyEnd (d : Dev) (key : Nat) (b : List Nat) : Dev :=
  let src := bfield b 16 8
  let dst := bfield b 24 8
  let n := bfield b 32 4
  let sp := b.getD 36 0
  match (copyReads b).flatMap (fun r => d.poisonIn r.1 r.2) with
  | g :: _ => (d.copyMix b).hubUe key g accRead
  | [] =>
    let data := if maskHas sp 0 then d.rdHost src n else d.rdHbm src n
    let d := if maskHas sp 1 then d.wrHost dst data else d.wrHbm dst data
    d.complete key stOk 0 0 0
/-- COPY_DONE (R115). DEDUCED: log entry 77. -/
def Dev.copyDone (d : Dev) (key t : Nat) (mem : List MemErr) : Dev :=
  match d.head key with
  | none => d
  | some k => if k.st ≠ .copying || !d.rst.hbmReady then d else (d.at_ t).met accRead (copyReads k.bytes) mem (fun d => d.copyEnd key k.bytes)
def execCopyDone (fn ctx t : Nat) (mem : List MemErr) (s : State) : Res := .next (s.upd (fun d => d.copyDone (ckey fn ctx) t mem))

/-- SIGNAL (R235). -/
def Dev.ringSignal (d : Dev) (key : Nat) : Dev :=
  match d.headOp key 3 with
  | none => d
  | some b =>
    match d.hwFlag (key / 4096) (bfield b 16 2) with
    | none => d.complete key stBounds 0 0 0
    | some n => (d.flagAdd n (bfield b 20 4)).complete key stOk 0 0 0
def execRingSignal (fn ctx : Nat) (s : State) : Res := .next (s.upd (fun d => d.ringSignal (ckey fn ctx)))

/-- A WAIT descriptor expires (R239, R241). -/
def Dev.expireHead (d : Dev) (key n : Nat) (dl : Nat) : Dev :=
  let x : Waiting := ⟨key / 4096, key % 4096, true, n, d.signalsBehind key, 0x8070, dl⟩
  let v := d.flag n
  (d.diagnose x).complete key stWaitExpired v 0 0

/-- WAIT (R238, R239): the flag is looked at before the deadline. -/
def Dev.ringWait (d : Dev) (key t : Nat) : Dev :=
  match d.headOp key 4 with
  | none => d
  | some b =>
    let d := d.at_ t
    match d.hwFlag (key / 4096) (bfield b 16 2) with
    | none => d.complete key stBounds 0 0 0
    | some n =>
      let v := bfield b 20 4
      if v ≤ d.flag n then d.complete key stOk (d.flag n) 0 0 else
      let dl := bfield b 24 8
      if duePast dl d.now then d.expireHead key n dl else d.setHead key (.waiting n v dl)
def execRingWait (fn ctx t : Nat) (s : State) : Res := .next (s.upd (fun d => d.ringWait (ckey fn ctx) t))

/-- WAIT_RELEASE (R238). -/
def Dev.waitRelease (d : Dev) (key : Nat) : Dev :=
  match d.head key with
  | none => d
  | some k =>
    match k.st with
    | .waiting n v _ => if v ≤ d.flag n then d.complete key stOk (d.flag n) 0 0 else d
    | _ => d
def execWaitRelease (fn ctx : Nat) (s : State) : Res := .next (s.upd (fun d => d.waitRelease (ckey fn ctx)))

/-- WAIT_EXPIRED (R239). -/
def Dev.waitExpired (d : Dev) (key t : Nat) : Dev :=
  match d.head key with
  | none => d
  | some k =>
    match k.st with
    | .waiting n v dl => if decide (v ≤ d.flag n) || !duePast dl t then d else (d.at_ t).expireHead key n dl
    | _ => d
def execWaitExpired (fn ctx t : Nat) (s : State) : Res := .next (s.upd (fun d => d.waitExpired (ckey fn ctx) t))

end Sys2Proof.Machine
end

