-- ==== Sys2Proof/Machine/Faults.lean ====
section
/-!
DEFINITION. The fault collector's commands (R359 to R376). The events themselves are handled by `Dev.event`.
-/
namespace Sys2Proof.Machine

/-- The sources whose bits a write of ones to register `i` of an array names. -/
def maskSrcs (i mask : Nat) : List Nat := (maskList mask 32).map (fun j => 32 * i + j)

/-- SEVERE_CLEAR (R363): only bits that are set act. -/
def Dev.severeClear (d : Dev) (i mask : Nat) : Dev :=
  { d with coll := (maskSrcs i mask).foldl (fun c n =>
      if c.severe.getLsbD n then
        Coll.setSrc { c with severe := clrBit512 c.severe n } n { c.src n with count := 0, winEnd := none }
      else c) d.coll }
def execSevereClear (i mask : Nat) (s : State) : Res := .next (s.upd (fun d => d.severeClear i mask))

/-- PENDING_CLEAR (R371): a one written to a bit also clears that source's ERR latch. -/
def Dev.pendingClear (d : Dev) (i mask : Nat) : Dev :=
  { d with coll := (maskSrcs i mask).foldl (fun c n => { c with pending := clrBit512 c.pending n, latch := clrBit512 c.latch n }) d.coll }
def execPendingClear (i mask : Nat) (s : State) : Res := .next (s.upd (fun d => d.pendingClear i mask))

/-- VALID_CLEAR (R370, R375): the record, the merge state and the snapshots go. -/
def Dev.validClear (d : Dev) : Dev :=
  { d with coll := { d.coll with first := none, mergeCnt := 0, merged := 0, snapPf := none, snapC := none } }
def execValidClear (s : State) : Res := .next (s.upd Dev.validClear)

/-- A refused configuration write (R365, R376). -/
def Dev.fltBad (d : Dev) : Dev := d.set F.FLT_CTRL.BAD_CFG 1
/-- Does LOCK keep the requester out, whatever it writes (R376)? Computus is never locked out (R515). -/
def Dev.lockedOut (d : Dev) (who : Who) : Bool := d.on F.FLT_CTRL.LOCK && decide (who ≠ .computus)

/-- FLT_SRC_CFG_WRITE (R365, R376): `win` selects FLT_SRC_WIN. -/
def Dev.srcCfgWrite (d : Dev) (who : Who) (win : Bool) (value : Nat) : Dev :=
  let id := d.f F.FLT_SRC_SEL.ID
  if !pfOrC who then d
  else if d.lockedOut who || !sourceKnown id then d.fltBad
  else
    let s := { d.coll.src id with count := 0, winEnd := none }
    if win then
      let w := bits value 21 0
      if w = 0 ∨ 3600000 < w then d.fltBad else { d with coll := d.coll.setSrc id { s with windowMs := w } }
    else
      let n := bits value 7 0
      if n = 0 then d.fltBad
      else { d with coll := d.coll.setSrc id { s with thresh := n, minor := bits value 12 8, severe := bits value 17 13 } }
def execFltSrcCfgWrite (who : Who) (win : Bool) (value : Nat) (s : State) : Res :=
  .next (s.upd (fun d => d.srcCfgWrite who win value))

/-- LOCK (R376). DEDUCED: log entry 19. -/
def Dev.lock (d : Dev) : Dev := d.set F.FLT_CTRL.LOCK 1
def execLock (s : State) : Res := .next (s.upd Dev.lock)

/-- INJECT (R375). -/
def Dev.inject (d : Dev) (who : Who) (src t : Nat) : Dev :=
  if !pfOrC who then d
  else if d.lockedOut who then d.fltBad
  else
    let d := (d.at_ t).set F.FLT_INJECT.SOURCE src
    if sourceKnown src then d.event ⟨src, 0x80FF, 0, 7, t⟩ else d.fltBad
def execInject (who : Who) (src t : Nat) (s : State) : Res := .next (s.upd (fun d => d.inject who src t))

/-- FIRST_RECORD_SNAPSHOT (R375): the read returns bits 31:0 of the address. -/
def Dev.recordSnapshot (d : Dev) (who : Who) : Dev :=
  let snap : Snap := ⟨d.coll.first, d.coll.mergeCnt, d.coll.merged⟩
  let a := match d.coll.first with
    | some r => r.ev.addr % 2 ^ 32
    | none => 0
  match who with
  | .pf => Dev.ret { d with coll := { d.coll with snapPf := some snap } } (leBytes 4 a)
  | .computus => Dev.ret { d with coll := { d.coll with snapC := some snap } } (leBytes 4 a)
  | _ => d.ret [0, 0, 0, 0]
def execFirstRecordSnapshot (who : Who) (s : State) : Res := .next (s.upd (fun d => d.recordSnapshot who))

/-- ERR_IN_EDGE (R373, R374): the filtered level falls. -/
def Dev.errInEdge (d : Dev) (t : Nat) : Dev :=
  if d.on F.FLT_PIN.ERR_IN then d else
  let d := (d.at_ t).set F.FLT_PIN.ERR_IN 1
  if d.on F.FLT_PIN.ERR_IN_EN then d.event ⟨0x1F8, 0x80A0, 0, 6, t⟩ else d
def execErrInEdge (t : Nat) (s : State) : Res := .next (s.upd (fun d => d.errInEdge t))

/-- ERR_IN_RISE (R373). -/
def Dev.errInRise (d : Dev) (t : Nat) : Dev := (d.at_ t).set F.FLT_PIN.ERR_IN 0
def execErrInRise (t : Nat) (s : State) : Res := .next (s.upd (fun d => d.errInRise t))

/-- ERR_OUT_N is driven low while a latch is set, and until the collector is ready after a cold reset (R372). -/
def Dev.errOutLow (d : Dev) : Bool := decide (d.coll.latch ≠ 0) || !d.coll.ready

/-- The reset of block `unit` ends: its memories are in an empty state (Table 5 of R508), and what waited for it is a candidate again (R34,
R368). -/
def Dev.blockResetDone (d : Dev) (unit : Nat) : Dev :=
  if !d.coll.blockResets.contains unit then d else
  let d := { d with coll := { d.coll with blockResets := d.coll.blockResets.filter (fun b => b != unit) } }
  let d := d.emptyMems ((cluMems (List.range d.nClus) ++ regMems (List.range d.nReg)).filter (blockHolds unit))
  { d with runs := d.runs.map (fun p => if p.2.phase = .blockReset unit then (p.1, { p.2 with phase := .cand }) else p) }
/-- BLOCK_RESET_COMPLETE (R34). -/
def execBlockResetComplete (unit : Nat) (s : State) : Res := .next (s.upd (fun d => d.blockResetDone unit))

end Sys2Proof.Machine
end

