-- ==== Sys2Proof/Machine/Num.lean ====
section
/-!
DEFINITION. The arithmetic of the part (R148, R175 to R187, R532): number formats, exact operations rounded once, conversions,
stochastic rounding and the Epact function (R459).

A floating-point value is exact: a NaN, an infinity, or `± m × 2^e`.
-/
namespace Sys2Proof.Machine

inductive Num where
  | nan
  | inf (neg : Bool)
  | fin (neg : Bool) (m : Nat) (e : Int)
  deriving DecidableEq, Repr

/-- A floating-point format: `p` bits of significand, the exponent of the last place of a subnormal, the largest finite value as
`maxM × 2^maxE`, whether it has infinities, and its width. -/
structure Fmt where
  p : Nat
  emin : Int
  maxM : Nat
  maxE : Int
  inf : Bool
  bits : Nat
  deriving DecidableEq, Repr

def fmt32 : Fmt := ⟨24, -149, 2 ^ 24 - 1, 104, true, 32⟩
def fmtBf16 : Fmt := ⟨8, -133, 255, 120, true, 16⟩
def fmt16 : Fmt := ⟨11, -24, 2047, 5, true, 16⟩
def fmtE4M3 : Fmt := ⟨4, -9, 14, 5, false, 8⟩
def fmtE5M2 : Fmt := ⟨3, -16, 7, 13, true, 8⟩

/-- The format of a DTYPE (Table 1 of R148), for the floating-point codes. -/
def fmtOf (dt : Nat) : Option Fmt :=
  if dt = 3 then some fmtE4M3 else if dt = 4 then some fmtE5M2 else if dt = 5 then some fmt16
  else if dt = 6 then some fmtBf16 else if dt = 8 then some fmt32 else none
/-- Width and signedness of the integer codes. -/
def intOf (dt : Nat) : Option (Nat × Bool) :=
  if dt = 0 then some (4, true) else if dt = 1 then some (8, true) else if dt = 2 then some (8, false)
  else if dt = 7 then some (32, true) else if dt = 9 then some (16, false) else none
/-- Bits of an element (R148). -/
def dtBits (dt : Nat) : Nat := [4, 8, 8, 8, 8, 16, 16, 32, 32, 16].getD dt 8

/-! ## Rounding -/

/-- `2^k` for a nonnegative exponent, else 1. -/
def pow2 (k : Int) : Nat := 2 ^ k.toNat
/-- The number of bits of a magnitude. -/
def bitLen (m : Nat) : Nat := if m = 0 then 0 else Nat.log2 m + 1
/-- The exponent of the last place that the format keeps of a magnitude. -/
def Fmt.place (f : Fmt) (m : Nat) (e : Int) : Int := max (e + (bitLen m : Int) - (f.p : Int)) f.emin
/-- Round a quotient by a power of two to nearest, ties to even. -/
def rneShift (m s : Nat) : Nat :=
  let q := m / 2 ^ s
  let r := m % 2 ^ s * 2
  if 2 ^ s < r ∨ (r = 2 ^ s ∧ q % 2 = 1) then q + 1 else q
/-- A magnitude rounded to nearest even in a format of unbounded range. -/
def Fmt.rne (f : Fmt) (m : Nat) (e : Int) : Nat × Int :=
  let q := f.place m e
  if q ≤ e then (m * pow2 (e - q), q) else (rneShift m (q - e).toNat, q)
/-- Does a magnitude exceed the largest finite value? -/
def Fmt.over (f : Fmt) (m : Nat) (e : Int) : Bool :=
  if e ≤ f.maxE then decide (f.maxM * pow2 (f.maxE - e) < m) else decide (f.maxM < m * pow2 (e - f.maxE))
/-- The bits of a finite value of the format. -/
def Fmt.pack (f : Fmt) (neg : Bool) (m : Nat) (q : Int) : Nat :=
  let mag := if m = 0 then 0 else (q - f.emin).toNat * 2 ^ (f.p - 1) + m
  mag + (if neg then 2 ^ (f.bits - 1) else 0)
/-- The canonical NaN (R179). -/
def Fmt.nanBits (f : Fmt) : Nat :=
  if f.inf then 2 ^ (f.bits - 1) - 2 ^ (f.p - 1) + 2 ^ (f.p - 2) else 2 ^ (f.bits - 1) - 1
def Fmt.infBits (f : Fmt) (neg : Bool) : Nat := 2 ^ (f.bits - 1) - 2 ^ (f.p - 1) + (if neg then 2 ^ (f.bits - 1) else 0)
/-- The finite bit patterns of a format, numbered by `n`: the magnitudes, then the negative ones. -/
def Fmt.finiteBits (f : Fmt) (n : Nat) : Nat :=
  let k := f.pack false f.maxM f.maxE + 1
  if n / k % 2 = 0 then n % k else n % k + 2 ^ (f.bits - 1)
/-- The value of a bit pattern. -/
def Fmt.unpack (f : Fmt) (b : Nat) : Num :=
  let neg := b / 2 ^ (f.bits - 1) % 2 == 1
  let mag := b % 2 ^ (f.bits - 1)
  let ex := mag / 2 ^ (f.p - 1)
  let m := mag % 2 ^ (f.p - 1)
  let top := 2 ^ (f.bits - f.p) - 1
  if f.inf && ex == top then (if m = 0 then .inf neg else .nan)
  else if !f.inf && mag == 2 ^ (f.bits - 1) - 1 then .nan
  else if ex = 0 then .fin neg m f.emin else .fin neg (m + 2 ^ (f.p - 1)) (f.emin + (ex : Int) - 1)

/-! ## Arithmetic flags (R185) -/

def flAccSat : Nat := 1
def flReqSat : Nat := 2
def flFpOvf : Nat := 4
def flNanGen : Nat := 8
def flNanIn : Nat := 16
def flSrUsed : Nat := 32

def Num.isNan : Num → Bool
  | .nan => true
  | _ => false
/-- NAN_IN, where an operand is a NaN. -/
def nanIn (l : List Num) : Nat := if l.any Num.isNan then flNanIn else 0

/-! ## Exact values rounded once to FP32 -/

/-- An exact value `v × 2^e` rounded to FP32, to nearest even; an exact zero has the sign given. -/
def fp32Of (v : Int) (e : Int) (zneg : Bool) : Num :=
  if v = 0 then .fin zneg 0 0 else
  let r := fmt32.rne v.natAbs e
  if fmt32.over r.1 r.2 then .inf (decide (v < 0))
  else if r.1 = 0 then .fin (decide (v < 0)) 0 0 else .fin (decide (v < 0)) r.1 r.2
/-- A signed integer as `± m`. -/
def sgn (neg : Bool) (m : Nat) : Int := if neg then -(m : Int) else (m : Int)
/-- The exact sum of two dyadic numbers. -/
def dyAdd (v1 : Int) (e1 : Int) (v2 : Int) (e2 : Int) : Int × Int :=
  if e1 ≤ e2 then (v1 + v2 * (pow2 (e2 - e1) : Int), e1) else (v1 * (pow2 (e1 - e2) : Int) + v2, e2)

def Num.sign : Num → Bool
  | .nan => false
  | .inf s => s
  | .fin s _ _ => s
def Num.isZero : Num → Bool
  | .fin _ m _ => m == 0
  | _ => false
/-- An infinite product added to `c`. -/
def infAdd (s : Bool) (c : Num) : Num × Nat :=
  match c with
  | .nan => (.nan, 0)
  | .inf u => if s = u then (.inf u, 0) else (.nan, flNanGen)
  | .fin _ _ _ => (.inf s, 0)

/-- `a × b + c` with one rounding, by IEEE 754 for zeros and infinities; the flag NAN_GEN where a NaN comes from no NaN. -/
def Num.fma (a b c : Num) : Num × Nat :=
  if a.isNan || b.isNan then (.nan, 0) else
  match a, b with
  | .fin s m e, .fin t n f =>
    (match c with
     | .nan => (.nan, 0)
     | .inf u => (.inf u, 0)
     | .fin u k g =>
       let r := dyAdd (sgn (s != t) (m * n)) (e + f) (sgn u k) g
       (fp32Of r.1 r.2 ((s != t) && u && m * n == 0 && k == 0), 0))
  | _, _ =>
    if a.isZero || b.isZero then (.nan, flNanGen) else infAdd (a.sign != b.sign) c

def num1 : Num := .fin false 1 0
def numZero : Num := .fin false 0 0
def Num.neg : Num → Num
  | .nan => .nan
  | .inf s => .inf (!s)
  | .fin s m e => .fin (!s) m e
def Num.abs : Num → Num
  | .nan => .nan
  | .inf _ => .inf false
  | .fin _ m e => .fin false m e
def Num.add (a b : Num) : Num × Nat := Num.fma a num1 b
/-- The exact sum of two values: it is rounded only when it is brought to a format (R272). -/
def Num.addExact (a b : Num) : Num × Nat :=
  match a, b with
  | .fin s m e, .fin t n f =>
    let r := dyAdd (sgn s m) e (sgn t n) f
    (.fin (if r.1 = 0 then s && t && m == 0 else decide (r.1 < 0)) r.1.natAbs r.2, 0)
  | _, _ => a.add b
def Num.sub (a b : Num) : Num × Nat := Num.fma a num1 b.neg
/-- `a × b` with one rounding. The zero added has the product's sign, so that a zero product keeps its own. -/
def Num.mul (a b : Num) : Num × Nat :=
  match a, b with
  | .fin s m e, .fin t n f => (fp32Of (sgn (s != t) (m * n)) (e + f) (s != t), 0)
  | _, _ => Num.fma a b numZero

/-- Is `a` greater than `b`, as numbers; −0 counts as less than +0 (R187)? -/
def Num.gt (a b : Num) : Bool :=
  match a, b with
  | .nan, _ => false
  | _, .nan => false
  | .inf s, .inf t => !s && t
  | .inf s, .fin _ _ _ => !s
  | .fin _ _ _, .inf t => t
  | .fin s m e, .fin t n f =>
    if m = 0 ∧ n = 0 then !s && t
    else decide (0 < (dyAdd (sgn s m) e (- sgn t n) f).1)
def Num.max (a b : Num) : Num := if a.isNan || b.isNan then .nan else if a.gt b then a else b
def Num.min (a b : Num) : Num := if a.isNan || b.isNan then .nan else if a.gt b then b else a
/-- Is a value greater than zero? -/
def Num.pos : Num → Bool
  | .nan => false
  | .inf s => !s
  | .fin s m _ => !s && m != 0

/-- The integer square root. -/
def isqrt (n : Nat) : Nat :=
  (List.range (bitLen n / 2 + 1)).reverse.foldl (fun r i => if (r + 2 ^ i) * (r + 2 ^ i) ≤ n then r + 2 ^ i else r) 0

/-- A magnitude known to lie from `q × 2^e` to just below `(q + 1) × 2^e`, exactly at the lower end if `exact`, rounded to FP32. `q`
must have more bits than FP32 keeps. -/
def fp32Sticky (neg : Bool) (q : Nat) (exact : Bool) (e : Int) : Num :=
  fp32Of (sgn neg (2 * q + if exact then 0 else 1)) (e - 1) neg

/-- `1 / a`, correctly rounded (R187). -/
def Num.recip (a : Num) : Num :=
  match a with
  | .nan => .nan
  | .inf s => .fin s 0 0
  | .fin s m e => if m = 0 then .inf s else
      let k := bitLen m + 40
      fp32Sticky s (2 ^ k / m) (2 ^ k % m == 0) (-(k : Int) - e)
/-- `a / b`, correctly rounded, with NAN_GEN. -/
def Num.div (a b : Num) : Num × Nat :=
  match a, b with
  | .nan, _ => (.nan, 0)
  | _, .nan => (.nan, 0)
  | .inf _, .inf _ => (.nan, flNanGen)
  | .inf s, .fin t _ _ => (.inf (s != t), 0)
  | .fin s _ _, .inf t => (.fin (s != t) 0 0, 0)
  | .fin s m e, .fin t n f =>
    if n = 0 then (if m = 0 then (.nan, flNanGen) else (.inf (s != t), 0))
    else if m = 0 then (.fin (s != t) 0 0, 0)
    else
      let k := bitLen n + 40
      (fp32Sticky (s != t) (m * 2 ^ k / n) (m * 2 ^ k % n == 0) (e - (k : Int) - f), 0)
/-- `√a`, correctly rounded, with NAN_GEN. -/
def Num.sqrt (a : Num) : Num × Nat :=
  match a with
  | .nan => (.nan, 0)
  | .inf s => if s then (.nan, flNanGen) else (.inf false, 0)
  | .fin s m e =>
    if m = 0 then (.fin s 0 0, 0) else
    if s then (.nan, flNanGen) else
    let odd := e % 2 = 1
    let x := (if odd then 2 * m else m) * 2 ^ 80
    let r := isqrt x
    (fp32Sticky false r (r * r == x) ((if odd then e - 1 else e) / 2 - 40), 0)
/-- `1 / √a`, correctly rounded, with NAN_GEN. -/
def Num.rsqrt (a : Num) : Num × Nat :=
  match a with
  | .nan => (.nan, 0)
  | .inf s => if s then (.nan, flNanGen) else (.fin false 0 0, 0)
  | .fin s m e =>
    if m = 0 then (.inf s, 0) else
    if s then (.nan, flNanGen) else
    let odd := e % 2 = 1
    let n := if odd then 2 * m else m
    let x := 2 ^ 160 / n
    let r := isqrt x
    (fp32Sticky false r (r * r * n == 2 ^ 160) (-80 - (if odd then e - 1 else e) / 2), 0)

/-- The scale of the fixed-point numbers of `expFix`. -/
def expScale : Int := 2 ^ 320
/-- `e^x × 2^320` for `x = v / 2^320`, `|x|` at most 128, to an error far below what could move a rounding of FP32: the series of
`e^(x/256)`, squared eight times. PRESUMED: log entry 102. -/
def expFix (v : Int) : Int :=
  let x := v / 256
  let r := (List.range 80).foldl (fun (s : Int × Int) (i : Nat) =>
    let t := s.2 * x / expScale / ((i : Int) + 1)
    (s.1 + t, t)) (expScale, expScale)
  (List.range 8).foldl (fun y _ => y * y / expScale) r.1
/-- `e^a`, correctly rounded (R187). The exponential of a non-zero dyadic number is irrational, so a computed floor is never exact.
PRESUMED: log entry 102. -/
def Num.exp (a : Num) : Num :=
  match a with
  | .nan => .nan
  | .inf s => if s then .fin false 0 0 else .inf false
  | .fin s m e =>
    if m = 0 then num1 else
    if 0 < (dyAdd (m : Int) e (-120) 0).1 then (if s then .fin false 0 0 else .inf false) else
    let v := if e + 320 < 0 then sgn s (m / pow2 (-(e + 320))) else sgn s (m * pow2 (e + 320))
    fp32Sticky false (expFix v).toNat false (-320)

/-! ## Integers -/

def int32Max : Int := 2 ^ 31 - 1
/-- Saturation to the symmetric INT32 range (R148), with ACC_SAT. -/
def satI32 (v : Int) : Int × Nat :=
  if int32Max < v then (int32Max, flAccSat) else if v < -int32Max then (-int32Max, flAccSat) else (v, 0)
/-- Round `v / 2^s` to nearest, ties to even. -/
def rneInt (v : Int) (s : Nat) : Int := sgn (decide (v < 0)) (rneShift v.natAbs s)
/-- The least and the greatest value of an integer DTYPE. -/
def intRange (dt : Nat) : Int × Int :=
  if dt = 7 then (-int32Max, int32Max) else
  match intOf dt with
  | some (n, true) => (-(2 ^ (n - 1) : Nat), (2 ^ (n - 1) : Nat) - 1)
  | some (n, false) => (0, (2 ^ n : Nat) - 1)
  | none => (0, 0)
/-- Clamp to the range of an integer DTYPE, with REQ_SAT. DEDUCED: log entry 100. -/
def clampInt (dt : Nat) (v : Int) : Int × Nat :=
  let r := intRange dt
  if v < r.1 then (r.1, flReqSat) else if r.2 < v then (r.2, flReqSat) else (v, 0)
/-- The nearest integer of a finite value, ties to even. -/
def Num.rne (neg : Bool) (m : Nat) (e : Int) : Int :=
  if 0 ≤ e then sgn neg (m * pow2 e) else sgn neg (rneShift m (-e).toNat)
/-- Floating point to an integer DTYPE (R181). DEDUCED: log entry 100. -/
def Num.toInt (dt : Nat) (a : Num) : Int × Nat :=
  match a with
  | .nan => (0, flReqSat)
  | .inf s => (if s then (intRange dt).1 else (intRange dt).2, flReqSat)
  | .fin s m e => clampInt dt (Num.rne s m e)
/-- Requantisation (R176). -/
def requant (dt : Nat) (acc q : Int) (s : Nat) (z : Int) : Int × Nat := clampInt dt (rneInt (acc * q) s + z)

/-! ## Stochastic rounding (R183, R184) and Epact (R459) -/

def epactMul (i : Nat) : Nat := [0xA3B195E4C2D76F21, 0x8F2D6C41B97E3A05, 0xC5E30B7A945D1E8B].getD i 0
def rotl64 (k n : Nat) : Nat := k * 2 ^ n % 2 ^ 64 + k / 2 ^ (64 - n)
def epact (k c : Nat) : Nat :=
  let z := (List.range 3).foldl (fun z i =>
    let z := z ^^^ (z / 2 ^ 29)
    (z * epactMul i + rotl64 k (21 * (i + 1))) % 2 ^ 64) ((c % 2 ^ 64) ^^^ k)
  (z ^^^ (z / 2 ^ 32)) % 2 ^ 32

/-- How a conversion rounds: to nearest, or stochastically with an Epact word. -/
inductive Rnd where
  | even
  | epact (word : Nat)
  deriving DecidableEq, Repr

/-- A magnitude rounded stochastically, with whether steps 1 to 5 of R183 converted it: a value beyond the largest finite one is never
exact, and rounds beyond it where it lies a whole step or more beyond. -/
def Fmt.stoch (f : Fmt) (m : Nat) (e : Int) (r : Nat) : (Nat × Int) × Bool :=
  let q := f.place m e
  if q ≤ e then ((m * pow2 (e - q), q), f.over m e) else
  let s := (q - e).toNat
  let lo := m / 2 ^ s
  let fr := m % 2 ^ s
  if fr = 0 then ((lo, q), f.over m e) else
  ((if 2 ^ 32 ≤ fr * 2 ^ 32 / 2 ^ s + r then lo + 1 else lo, q), true)

/-- Conversion to a floating-point format (R180, Table 2): the bits and the flags. DEDUCED: log entry 99. -/
def Num.toFp (f : Fmt) (rnd : Rnd) (ieee : Bool) (a : Num) : Nat × Nat :=
  match a with
  | .nan => (f.nanBits, 0)
  | .inf s =>
    if f.inf then (f.infBits s, 0)
    else if ieee then (f.nanBits, flNanGen) else (f.pack s f.maxM f.maxE, 0)
  | .fin s m e =>
    let r := match rnd with
      | .even => (f.rne m e, false)
      | .epact w => f.stoch m e w
    let fl := if r.2 then flSrUsed else 0
    if f.over r.1.1 r.1.2 then
      if ieee then (if f.inf then (f.infBits s, fl ||| flFpOvf) else (f.nanBits, fl ||| flNanGen))
      else (f.pack s f.maxM f.maxE, fl ||| flFpOvf)
    else (f.pack s r.1.1 r.1.2, fl)

/-- The value of an integer in FP32: rounded once, to nearest even (R181). -/
def Num.ofInt (v : Int) : Num := fp32Of v 0 false
/-- An FP32 bit pattern as a value, and back. -/
def ofBits32 (b : Nat) : Num := fmt32.unpack (b % 2 ^ 32)
def Num.toBits32 (a : Num) : Nat := (a.toFp fmt32 .even true).1

end Sys2Proof.Machine
end

