-- ==== Sys2Proof/Machine/Tensor.lean ====
section
/-!
DEFINITION. Tensors: where an element lies (R148 to R155), extents, overlap and alignment (R156 to R158), the bytes of an element, and
conversions between element formats and values (R181, R186).
-/
namespace Sys2Proof.Machine

def TDesc.dim (t : TDesc) (n : Nat) : Nat := t.dims.getD n 1
/-- STRIDE1 to STRIDE3. -/
def TDesc.stride (t : TDesc) (n : Nat) : Nat := t.strides.getD (n - 1) 0
/-- Half bytes per element. -/
def TDesc.nibs (t : TDesc) : Nat := dtBits t.dtype / 4
/-- K elements on one line of a Bolt layout (R151). -/
def TDesc.ke (t : TDesc) : Nat := 1024 / dtBits t.dtype
/-- Does the layout admit the DTYPE (Table 2 of R150)? -/
def layoutAdmits (layout dt : Nat) : Bool :=
  match layout with
  | 0 => dt < 10
  | 1 => [0, 1, 3, 4, 5, 6].contains dt
  | 2 => [0, 1, 3, 4, 5, 6].contains dt
  | 3 => [0, 1, 3, 5, 6, 7, 8].contains dt
  | _ => false

/-- Bytes that DIM0 and DIM1 occupy: the rows of LINEAR, whole bolts or tiles otherwise. -/
def TDesc.block (t : TDesc) : Nat :=
  match t.layout with
  | 0 => ceilDiv (t.dim 0 * t.nibs) 2 + (t.dim 1 - 1) * t.stride 1
  | 1 => ceilDiv (t.dim 1) 64 * ceilDiv (t.dim 0) t.ke * 8192
  | 2 => ceilDiv (t.dim 1) 128 * ceilDiv (t.dim 0) t.ke * 16384
  | _ => ceilDiv (t.dim 1) 64 * ceilDiv (t.dim 0) 128 * (4096 * t.nibs)
/-- Bytes from the lowest to the highest byte of the tensor. -/
def TDesc.extent (t : TDesc) : Nat := t.block + (t.dim 2 - 1) * t.stride 2 + (t.dim 3 - 1) * t.stride 3
/-- The half-byte offset of an element from the base (R151 to R154). -/
def TDesc.at_ (t : TDesc) (i0 i1 i2 i3 : Nat) : Nat :=
  (match t.layout with
   | 0 => i0 * t.nibs + 2 * (i1 * t.stride 1)
   | 1 => 2 * ((i1 / 64 * ceilDiv (t.dim 0) t.ke + i0 / t.ke) * 8192 + i1 % 64 * 128) + i0 % t.ke * t.nibs
   | 2 => 2 * ((i1 / 128 * ceilDiv (t.dim 0) t.ke + i0 / t.ke) * 16384 + i1 % 128 * 128) + i0 % t.ke * t.nibs
   | _ => 2 * ((i1 / 64 * ceilDiv (t.dim 0) 128 + i0 / 128) * (4096 * t.nibs)) + (i1 % 64 * 128 + i0 % 128) * t.nibs) +
  2 * (i2 * t.stride 2 + i3 * t.stride 3)
/-- The contiguous runs of the tensor, as offset and length. -/
def TDesc.segs (t : TDesc) : List (Nat × Nat) :=
  (List.range (t.dim 3)).flatMap (fun i3 => (List.range (t.dim 2)).flatMap (fun i2 =>
    let b := i2 * t.stride 2 + i3 * t.stride 3
    if t.layout = 0 then (List.range (t.dim 1)).map (fun i1 => (b + i1 * t.stride 1, ceilDiv (t.dim 0 * t.nibs) 2))
    else [(b, t.block)]))
/-- A write operand must not map two elements to one byte (R156). -/
def TDesc.writable (t : TDesc) : Bool :=
  (t.layout != 0 || t.dim 1 ≤ 1 || ceilDiv (t.dim 0 * t.nibs) 2 ≤ t.stride 1) &&
  (t.dim 2 ≤ 1 || t.block ≤ t.stride 2) && (t.dim 3 ≤ 1 || t.block + (t.dim 2 - 1) * t.stride 2 ≤ t.stride 3)
/-- Are the strides of the dimensions that exceed 1 multiples of a width (R157)? -/
def TDesc.aligned (t : TDesc) (w : Nat) : Bool :=
  [1, 2, 3].all (fun n => t.dim n ≤ 1 || t.stride n % w == 0)
/-- The number of elements. -/
def TDesc.count (t : TDesc) : Nat := t.dim 0 * t.dim 1 * t.dim 2 * t.dim 3
/-- Equal shapes. -/
def TDesc.sameDims (t u : TDesc) : Bool := [0, 1, 2, 3].all (fun n => t.dim n == u.dim n)
/-- The coordinates of the elements, in the linear order of R184. -/
def TDesc.coords (t : TDesc) : List (Nat × Nat × Nat × Nat) :=
  (List.range (t.dim 3)).flatMap (fun i3 => (List.range (t.dim 2)).flatMap (fun i2 =>
    (List.range (t.dim 1)).flatMap (fun i1 => (List.range (t.dim 0)).map (fun i0 => (i0, i1, i2, i3)))))
/-- The linear index of an element (R184). -/
def TDesc.linear (t : TDesc) (i0 i1 i2 i3 : Nat) : Nat := ((i3 * t.dim 2 + i2) * t.dim 1 + i1) * t.dim 0 + i0

/-- The descriptor that 64 bytes spell (Table 4 of R159). -/
def descOf (b : List Nat) (part : Nat) : TDesc :=
  { base := bfield b 0 8, dtype := b.getD 8 0 % 16, layout := b.getD 8 0 / 16 % 8, space := b.getD 9 0 % 4,
    readonly := maskHas (b.getD 9 0) 2, gen := b.getD 10 0, valid := maskHas (b.getD 11 0) 0, blockLog2 := b.getD 12 0, part := part,
    dims := [bfield b 16 4, bfield b 20 4, bfield b 24 4, bfield b 28 4], strides := [bfield b 32 8, bfield b 40 8, bfield b 48 8],
    ownerCount := bfield b 56 4 }

/-! ## An operand on chip -/

/-- An operand at its place: the memory and offset of its base, the scratchpad address, and its descriptor. -/
structure Acc2 where
  pl : Place
  addr : Nat
  t : TDesc
  deriving DecidableEq, Repr

/-- Do two operands share a byte? DEDUCED: log entry 96. -/
def Acc2.overlaps (a b : Acc2) : Bool :=
  a.pl.unit == b.pl.unit && decide (a.pl.off < b.pl.off + b.t.extent) && decide (b.pl.off < a.pl.off + a.t.extent) &&
  a.t.segs.any (fun s => b.t.segs.any (fun q =>
    decide (a.pl.off + s.1 < b.pl.off + q.1 + q.2) && decide (b.pl.off + q.1 < a.pl.off + s.1 + s.2)))
/-- Do two operands coincide exactly: the same base, dimensions, strides, layout and DTYPE? DEDUCED: log entry 96. -/
def Acc2.same (a b : Acc2) : Bool :=
  a.pl == b.pl && a.t.sameDims b.t && a.t.strides == b.t.strides && a.t.layout == b.t.layout && a.t.dtype == b.t.dtype

/-- The bits of an element. -/
def Dev.rdEl (d : Dev) (a : Acc2) (i0 i1 i2 i3 : Nat) : Nat :=
  let o := a.t.at_ i0 i1 i2 i3
  let k := a.pl.key + o / 2
  if a.t.nibs = 1 then
    let b := (d.mem.sram.read k).toNat
    if o % 2 = 0 then b % 16 else b / 16
  else leNat (d.mem.sram.readBytes k (a.t.nibs / 2))
/-- Read with broadcast: a coordinate in a dimension of size 1 reads its one element (R186). -/
def Dev.rdB (d : Dev) (a : Acc2) (i0 i1 i2 i3 : Nat) : Nat :=
  d.rdEl a (if a.t.dim 0 = 1 then 0 else i0) (if a.t.dim 1 = 1 then 0 else i1) (if a.t.dim 2 = 1 then 0 else i2)
    (if a.t.dim 3 = 1 then 0 else i3)
/-- Write the bits of an element. The half byte after the last element of a LINEAR INT4 run becomes 0 (R149). -/
def Dev.wrEl (d : Dev) (a : Acc2) (i0 i1 i2 i3 v : Nat) : Dev :=
  let o := a.t.at_ i0 i1 i2 i3
  let k := a.pl.key + o / 2
  if a.t.nibs = 1 then
    let b := (d.mem.sram.read k).toNat
    let last := a.t.layout == 0 && i0 + 1 == a.t.dim 0
    let n := if o % 2 = 0 then v % 16 + (if last then 0 else b / 16 * 16) else b % 16 + v % 16 * 16
    { d with mem := { d.mem with sram := d.mem.sram.write k (BitVec.ofNat 8 n) } }
  else { d with mem := { d.mem with sram := d.mem.sram.writeBytes k (leBytes (a.t.nibs / 2) v) } }

/-! ## Values -/

/-- The integer that an element of an integer DTYPE holds. -/
def elInt (dt b : Nat) : Int :=
  match intOf dt with
  | some (n, true) => toSigned n b
  | some (n, false) => (b % 2 ^ n : Nat)
  | none => 0
/-- The value of an element in the FP32 domain (R186). -/
def elNum (dt b : Nat) : Num :=
  match fmtOf dt with
  | some f => f.unpack b
  | none => Num.ofInt (elInt dt b)
def isInt (dt : Nat) : Bool := (intOf dt).isSome
/-- An integer as the bits of an integer DTYPE. -/
def intBits (dt : Nat) (v : Int) : Nat := ofSigned (dtBits dt) v
/-- An FP32-domain result as an element (R180, R181): bits and flags. DEDUCED: log entry 99. -/
def outFp (dt : Nat) (rnd : Rnd) (ieee : Bool) (x : Num) : Nat × Nat :=
  match fmtOf dt with
  | some f => if dt = 8 then x.toFp f .even ieee else x.toFp f rnd ieee
  | none => let r := x.toInt dt; (intBits dt r.1, r.2)
/-- An INT32-domain result as an element: an integer clamps to the range of its DTYPE; a floating-point format takes the exact integer
rounded once, to nearest even (R181). -/
def outInt (dt : Nat) (ieee : Bool) (v : Int) : Nat × Nat :=
  match fmtOf dt with
  | some f => (Num.fin (decide (v < 0)) v.natAbs 0).toFp f .even ieee
  | none => let r := clampInt dt v; (intBits dt r.1, r.2)

end Sys2Proof.Machine
end

