-- ==== Sys2Proof/Machine/Operands.lean ====
section
/-!
DEFINITION. Operand forms and issue (R196, R201, R202, R223 to R228): the instruction a member issues next, address formation, the
checks of an operand, the execution queues, and the end of a command at a failed check (R158, R339).
-/
namespace Sys2Proof.Machine

/-! ## The member and its next instruction -/

/-- A member about to issue: its command, its state, its instruction and its module's code. -/
structure Cur where
  r : Run
  m : Member
  i : Ins
  code : List Nat
  deriving DecidableEq, Repr

/-- Does the instruction belong to run 2, whose transforms are those of R340? -/
def Cur.oct (c : Cur) : Bool := c.r.runNo == some 2
/-- A list in the order of a run's visits: run 2 goes backwards (R340). -/
def visits {α : Type} (oct : Bool) (l : List α) : List α := if oct then l.reverse else l

/-- What member `g` of command `id` issues next: none while the command does not execute, the member stalls, or none is left. -/
def Dev.cur (d : Dev) (id g : Nat) : Option Cur :=
  match mfind d.runs id with
  | none => none
  | some r =>
    if r.runNo.isNone then none else
    match r.members[g]?, mfind d.mods r.modId with
    | some m, some md =>
      if m.stall = .none then (insAt md.code m.pc).map (fun i => ⟨r, m, i, md.code⟩) else none
    | _, _ => none
/-- The same, when the next instruction has the class and operation. DESIGN CHOICE: log entry 4. -/
def Dev.curOp (d : Dev) (id g cls op : Nat) : Option Cur :=
  (d.cur id g).bind (fun c => if c.i.cls = cls ∧ c.i.op = op then some c else none)

/-- Cluster and logical engine of a member. -/
def Member.k (m : Member) : Nat := m.le / 4
def Member.e (m : Member) : Nat := m.le % 4
/-- The cluster that holds its physical engine: another one while the engine is on loan (R405, R406). -/
def Member.home (m : Member) : Nat := unitClu m.phys

def Dev.modMember (d : Dev) (id g : Nat) (f : Member → Member) : Dev :=
  d.modRun id (fun r => { r with members := r.members.mapIdx (fun i m => if i = g then f m else m) })
/-- A short instruction takes effect, and the member goes on behind it. -/
def Dev.advance (d : Dev) (id g : Nat) (i : Ins) : Dev := d.modMember id g (fun m => { m with pc := i.idx + i.len })
/-- Has every long instruction of the member completed (R226)? -/
def Member.drained (m : Member) : Bool := m.queues.all List.isEmpty

/-! ## The end of a command before END (R158, R339) -/

/-- The address of a frame or checking source (R360): the task slot and the context. -/
def Run.addr (r : Run) : Nat := (if r.ordo then r.task else 0) + r.ctx * 2 ^ 16
/-- The physical engine of gang index 0. -/
def Run.gang0 (r : Run) : Nat := ((r.members[0]?).map Member.phys).getD 0

/-- Does a command still stand in a phase? A block reset that an event starts may have taken it out of it (R368). DESIGN CHOICE: log entry 4. -/
def Dev.inPhase (d : Dev) (id : Nat) (ph : RunPhase) : Bool := decide ((mfind d.runs id).map Run.phase = some ph)

/-- Arbitration starts after a run 2 that has no record: no slot B copy is made (R339, R349). DEDUCED: log entry 117. -/
def Dev.arbEarly (d : Dev) (id : Nat) (r : Run) : Dev :=
  let d := d.charge id true
  let d := Dev.raise (d.addSat F.SAF_OCT_DISAGREE.COUNT 1) 0x041 r.gang0 r.addr 5
  if d.inPhase id (.run 2) then
    d.modRun id (fun r => { r with phase := .troy, chargeFrom := none, exFrom := some d.now, agree12 := some false })
  else d

/-- The end of a run 3: the final compare pass follows (R349); what is excluded from SLOWDOWN ends here (R327). -/
def Dev.toFinal (d : Dev) (id : Nat) : Dev :=
  d.modRun id (fun r => { r with
    phase := RunPhase.final, exFrom := none,
    excluded := r.excluded + (match r.exFrom with
      | some t => d.now - t
      | none => 0) })

/-- A command ends with a status of its own before END: final in run 1 and for a QM-class command; in run 2 arbitration starts; in run 3
the verdict follows. A QM re-run that ends so is not clean and is rejected (R350, R353). -/
def Dev.endOwn (d : Dev) (id status : Nat) : Dev :=
  match mfind d.runs id with
  | none => d
  | some r =>
    match r.phase with
    | .run 2 => d.arbEarly id r
    | .run 3 => d.toFinal id
    | _ => if r.qmRerun then (d.addSat F.SAF_ARB_REJECTED.COUNT 1).finish id stInvalidated 6 else d.finish id status 0

/-! ## Checks -/

/-- The first status of the order of R202 that a list holds; OK when it holds none. -/
def firstStatus (l : List Nat) : Nat :=
  if l.contains stReserved then stReserved else if l.contains stFormat then stFormat else if l.contains stZero then stZero
  else if l.contains stStale then stStale else if l.contains stBounds then stBounds else if l.contains stAlign then stAlign else stOk
/-- A status when a condition holds. -/
def stIf (c : Bool) (st : Nat) : List Nat := if c then [st] else []
/-- The status of a failed operand. -/
def exStatus {α : Type} : Except Nat α → List Nat
  | .ok _ => []
  | .error s => [s]

/-! ## Address formation (R201) -/

/-- The scratchpad address of an engine's own frame. -/
def ownFrame (m : Member) : Nat := m.k / 12 * 2 ^ 31 + m.k / 4 % 3 * 2 ^ 29 + m.k % 4 * 2 ^ 26 + m.e * 2 ^ 23
/-- The sum of the loop steps of a slot, in bytes. -/
def Cur.stepSum (c : Cur) (n : Nat) : Int :=
  ((List.range c.m.loops.length).map (fun l =>
    match insAt c.code (c.m.loops.getD l 0) with
    | some b => (c.m.iters.getD l 0 : Int) * toSigned 32 (bits (b.x 0) (32 * n + 31) (32 * n)) * 64
    | none => 0)).foldl (· + ·) 0

/-- The effective base of an operand slot. -/
def Cur.form (c : Cur) (g n : Nat) : Except Nat Operand :=
  match mfind c.r.snap (c.i.slot n) with
  | none => .error stStale
  | some o =>
    if iSelf c.i.w n && o.desc.space != 0 then .error stFormat
    else if iSelf c.i.w n && o.base % 2 ^ 32 / 2 ^ 23 != 0 then .error stBounds
    else
      let b : Int := (if iSelf c.i.w n then ownFrame c.m + o.base else o.base : Nat)
      let b := b + (if iGang c.i.w n then (g * iGstride c.i.w * 64 : Nat) else 0 : Int) + (if iLstep c.i.w then c.stepSum n else 0)
      if b < 0 then .error stBounds else .ok { o with base := b.toNat }

/-- The same where the operation names spaces: for a status FORMAT of a wrong one, it comes before what forming the address finds (R202). -/
def Cur.formIn (c : Cur) (g n : Nat) (ok : Nat → Bool) (sp : Nat) : Except Nat Operand :=
  match mfind c.r.snap (c.i.slot n) with
  | none => .error stStale
  | some o => if sp = stFormat ∧ !ok o.desc.space then .error sp else c.form g n

/-- The descriptor that a slot value names in the command's snapshot. -/
def Cur.descAt (c : Cur) (slot : Nat) : TDesc :=
  ((mfind c.r.snap slot).map Operand.desc).getD ⟨0, 0, 0, 0, false, 0, false, 0, 0, [], [], 0⟩
def Cur.desc (c : Cur) (n : Nat) : TDesc := c.descAt (c.i.slot n)

/-- Where an on-chip operand lies at a scratchpad address: reach, extent, and what a write operand must satisfy. `sp` is the status of
an operand that is not in scratchpad space. -/
def Dev.locate (d : Dev) (c : Cur) (o : Operand) (wr : Bool) (sp : Nat) : Except Nat Acc2 :=
  if o.desc.space != 0 then .error sp else
  match d.reach c.r c.m.k c.m.e o.base o.desc.extent false with
  | none => .error stBounds
  | some p => if wr && (o.desc.readonly || !o.desc.writable) then .error stBounds else .ok ⟨p, o.base, o.desc⟩

/-- The gang stride that the alignment check of a slot sees, in bytes. -/
def Cur.gstride (c : Cur) (n : Nat) : Nat := if iGang c.i.w n then iGstride c.i.w * 64 else 0

/-- An on-chip operand of slot `n`, located. -/
def Dev.opd (d : Dev) (c : Cur) (g n : Nat) (wr : Bool) (sp : Nat) : Except Nat Acc2 :=
  match c.formIn g n (fun s => s == 0) sp with
  | .error s => .error s
  | .ok o => d.locate c o wr sp

/-- A vector of an MM: in the issuing engine's frame, without gang offset (R205); one in another memory is BOUNDS (R167). -/
def Dev.vecOpd (d : Dev) (c : Cur) (slot : Nat) : Except Nat Acc2 :=
  match mfind c.r.snap slot with
  | none => .error stStale
  | some o =>
    if o.desc.layout != 0 then .error stFormat
    else if o.desc.space != 0 || o.base / 2 ^ 23 != 0 then .error stBounds
    else d.locate c { o with base := ownFrame c.m + o.base } false stBounds

/-- Is the operand in the engine's own scratchpad? -/
def Acc2.own (a : Acc2) : Bool := unitKind a.pl.unit == 0
/-- Its extent as a scoreboard region (R196), and as keys of the on-chip memories. -/
def Acc2.region (a : Acc2) : Extent := ⟨false, a.addr, a.addr + a.t.extent⟩
def Acc2.keys (a : Acc2) : Extent := ⟨false, a.pl.key, a.pl.key + a.t.extent⟩

/-- The access width of the port that reads or writes it (Table 3 of R157). -/
def Acc2.width (a : Acc2) : Nat := if a.own then 128 else 64
/-- ALIGN, when the base, a stride or the gang stride is no multiple of `w` (R157). -/
def Acc2.unaligned (a : Acc2) (w gstride : Nat) : List Nat :=
  stIf (a.addr % w != 0 || !a.t.aligned w || gstride % w != 0) stAlign
/-- The same for slot `n`: operand ports take 128 bytes of the engine's own scratchpad, everything else 64 (Table 3 of R157). -/
def Cur.unaligned (c : Cur) (n : Nat) (a : Acc2) : List Nat := a.unaligned a.width (c.gstride n)

/-! ## Queues and the scoreboard (R223, R224, R227, R228) -/

def qArray : Nat := 0
def qMove : Nat := 1
def qGather : Nat := 2
def qAttend : Nat := 3
def qDepth (q : Nat) : Nat := if q = 3 then 2 else 8
def LongIns.entries (l : LongIns) : Nat := l.reads.length + (l.write.toList).length
/-- Region entries that the queued instructions hold, of 32. -/
def Member.entriesHeld (m : Member) : Nat := sumNat (m.queues.flatMap (fun q => q.map LongIns.entries))
/-- The region that a scoreboard selector declares. -/
def selRegion (sel : Nat) (l : List (Nat × Extent)) : List Extent :=
  if sel = 0 then [] else (mfind l (sel - 1)).toList

/-- Does the issue stall: the queue is full, or the region entries are too few (R224, R228)? -/
def Cur.stalls (c : Cur) (q : Nat) : Bool :=
  qDepth q ≤ (c.m.queues.getD q []).length ||
  32 < c.m.entriesHeld + ([iRd0 c.i.w, iRd1 c.i.w, iWr c.i.w].filter (fun s => s != 0)).length

/-- A long instruction enters its queue, with the regions its selectors declare. -/
def Dev.enqueue (d : Dev) (id g : Nat) (c : Cur) (q : Nat) (ac : Option Nat) (regs : List (Nat × Extent)) : Dev :=
  d.modMember id g (fun m => { m with
    pc := c.i.idx + c.i.len,
    issued := m.issued + 1,
    queues := m.queues.mapIdx (fun i l => if i = q then l ++ [
      { ord := m.issued, at_ := d.now, idx := c.i.idx, iters := m.iters, loops := m.loops, counts := m.counts, started := none, ac := ac,
        done := 0, since := 0, reads := selRegion (iRd0 c.i.w) regs ++ selRegion (iRd1 c.i.w) regs,
        write := (selRegion (iWr c.i.w) regs).head?, touched := [], chk := [] }] else l) })

/-- What a long instruction has done: the block with its results written, its arithmetic flags, what it touched, what it wrote where other
commands may write too, the outcomes of
its Scruple checks, whether an index was out of range under ERROR, and the status with which it ends its command, if any. -/
structure Done where
  d : Dev
  flags : Nat
  touched : List Extent
  wrote : List Extent
  chk : List Nat
  range : Bool
  stop : Option Nat
  deriving DecidableEq, Repr
/-- Nothing was done. -/
def Done.idle (d : Dev) : Done := ⟨d, 0, [], [], [], false, none⟩

/-- Do two regions share a byte? -/
def Extent.meets (a b : Extent) : Bool := a.dev == b.dev && decide (a.lo < b.hi) && decide (b.lo < a.hi)
/-- May the instruction at the head of queue `q` start (R223, R227)? -/
def Member.mayStart (m : Member) (q : Nat) : Bool :=
  match (m.queues.getD q []).head? with
  | none => false
  | some l =>
    l.started.isNone &&
    (m.queues.flatMap (fun x => x)).all (fun o => l.ord ≤ o.ord ||
      (l.reads.all (fun x => o.write.all (fun w => !x.meets w)) &&
       l.write.all (fun w => o.write.all (fun x => !w.meets x) && o.reads.all (fun x => !w.meets x))))

end Sys2Proof.Machine
end

