-- ==== Sys2Proof/Machine/Route.lean ====
section
/-!
DEFINITION. Where bytes in device space lie: local HBM, owner tables (R164, R165), Span windows (R439), the route to another package
(R29, R434, R435), on-chip latency (R129), and the commit bound (R246).
-/
namespace Sys2Proof.Machine

/-! ## Routes (R433 to R435) -/

/-- The own coordinate and the size of the ring in dimension `k`. -/
def Dev.coord (d : Dev) (k : Nat) : Nat := if k = 0 then d.f F.LNK_TOPO.X else if k = 1 then d.f F.LNK_TOPO.Y else d.f F.LNK_TOPO.Z
def Dev.ring (d : Dev) (k : Nat) : Nat :=
  (if k = 0 then d.f F.LNK_TOPO.SIZE_X else if k = 1 then d.f F.LNK_TOPO.SIZE_Y else d.f F.LNK_TOPO.SIZE_Z) + 1
/-- The coordinate of a package in dimension `k`. -/
def pkgCoord (p k : Nat) : Nat := p / 32 ^ k % 32
def Dev.portUp (d : Dev) (p : Nat) : Bool := d.f (F.LNK_PORT_STAT.STATE p) == 2
/-- The first port toward coordinate `c` in dimension `k`: the shorter way round the ring, the + port when both are equal; the other way
when that port is down and the ring has three members or more. -/
def Dev.ringPort (d : Dev) (k c : Nat) : Option Nat :=
  let n := d.ring k
  let up := (c + n - d.coord k) % n
  let first := if n = 2 ∨ up ≤ n - up then 2 * k else 2 * k + 1
  let other := 4 * k + 1 - first
  if d.portUp first then some first else if 3 ≤ n ∧ d.portUp other then some other else none
/-- The port through which traffic to a package leaves; none when it is unreachable. -/
def Dev.route (d : Dev) (p : Nat) : Option Nat :=
  match [0, 1, 2].find? (fun k => pkgCoord p k != d.coord k) with
  | none => none
  | some k => if [0, 1, 2].all (fun k => decide (pkgCoord p k < d.ring k)) && decide (p < 32768) then d.ringPort k (pkgCoord p k) else none
/-- The package that a port of this package faces (R433); none in a ring of one. -/
def Dev.neighbour (d : Dev) (p : Nat) : Option Nat :=
  let k := p / 2
  let n := d.ring k
  if n = 1 then none else
  let c := if p % 2 = 0 then (d.coord k + 1) % n else (d.coord k + n - 1) % n
  some (d.pkg - d.coord k * 32 ^ k + c * 32 ^ k)

/-! ## Messages over League (R432) -/

/-- The bytes that a message carries. -/
def Tx.load : Tx → Nat
  | .roster _ b => b.length
  | .piece _ _ _ _ _ _ b => b.length
  | .mirror _ _ b => b.length
  | .pullReply _ _ b => b.length
  | _ => 0
/-- A piece, or a mark, as it is sent. -/
def Remote.message (x : Remote) : Tx :=
  if x.bytes = [] then .mark x.pkg x.seq x.win x.epoch else .piece x.pkg x.seq x.win x.epoch x.off x.crc x.bytes
/-- The message fills flits of 256 bytes of a port, numbered in order, which stay in its replay buffer. DEDUCED: log entry 143. -/
def Dev.intoFlits (d : Dev) (p : Nat) (m : Tx) : Dev :=
  let n := d.lnk.txSeq.getD p 0
  let k := Nat.max 1 (ceilDiv m.load 256)
  { d with lnk := { d.lnk with
      txSeq := d.lnk.txSeq.set p (n + k),
      txBuf := d.lnk.txBuf.set p (d.lnk.txBuf.getD p [] ++ (List.range k).map (fun i => (n + i, m, i))) } }
/-- Send a message to another package; without a route it is not sent. -/
def Dev.sendLg (d : Dev) (pkg : Nat) (m : Tx) : Dev :=
  match d.route pkg with
  | none => d
  | some p => (d.send m).intoFlits p m

/-! ## On-chip latency (Table 3 of R129) -/

/-- Latency and interval, in ac, that an engine of cluster `k` sees at a place: the cluster that holds the physical engine (R406). -/
def engLat (k : Nat) (p : Place) : Nat × Nat :=
  match unitKind p.unit with
  | 3 =>
    let j := unitClu p.unit
    if j / 12 ≠ k / 12 then (64, 8) else if j / 4 ≠ k / 4 then (28, 4) else if j = k then (5, 1)
    else if j / 2 = k / 2 then (9, 2) else (16, 2)
  | 4 =>
    let r := unitRegion p.unit
    if r / 3 ≠ k / 12 then (64, 8) else if r ≠ k / 4 then (28, 4) else if p.off / 0x400000 = k % 4 / 2 then (9, 2) else (16, 2)
  | _ => (2, 1)

/-! ## Bytes in device space -/

/-- Bytes `lo` to `lo + n − 1` of the byte space of an owner table, cut at its blocks: the block's owner, the first byte in the block,
the length. -/
def ownerPieces (owners : List Owner) (lg lo n : Nat) : List (Option Owner × Nat × Nat) :=
  if n = 0 then [] else
  (List.range ((lo + n - 1) / 2 ^ lg + 1 - lo / 2 ^ lg)).map (fun i =>
    let b := lo / 2 ^ lg + i
    let s := Nat.max lo (b * 2 ^ lg)
    (owners[b]?, s % 2 ^ lg, Nat.min (lo + n) ((b + 1) * 2 ^ lg) - s))

/-- Where a run of bytes goes or comes from: local HBM, or a window of another package at an offset. -/
inductive Dest where
  | hbm (addr len : Nat)
  | win (pkg win epoch off len : Nat)
  deriving DecidableEq, Repr
def Dest.len : Dest → Nat
  | .hbm _ n => n
  | .win _ _ _ _ n => n

/-- The map entry that a block of another package uses: the lowest of the partition whose package and window match (R439). DEDUCED: log entry 98. -/
def Run.mapFor (r : Run) (pkg win : Nat) : Option MapEnt :=
  (r.maps.find? (fun q => q.2.set_ && q.2.part == r.part && q.2.pkg == pkg && q.2.win == win)).map Prod.snd

/-- A run of bytes of an operand in device space, from byte `off` after its effective base; none is BOUNDS. -/
def Dev.dests (d : Dev) (r : Run) (o : Operand) (off n : Nat) : Option (List Dest) :=
  let a := o.base + off
  if o.desc.space = 2 then
    (ownerPieces o.owners o.desc.blockLog2 a n).mapM (fun q =>
      match q.1 with
      | none => none
      | some w =>
        if w.pkg = d.pkg then (if d.inHbm (w.off + q.2.1) q.2.2 then some (Dest.hbm (w.off + q.2.1) q.2.2) else none)
        else match r.mapFor w.pkg w.win with
          | some m => if w.off + q.2.1 + q.2.2 ≤ 2 ^ m.log2 then some (Dest.win m.pkg m.win m.epoch (w.off + q.2.1) q.2.2) else none
          | none => none)
  else if isSpan a then
    let e := (a - 2 ^ 40) / 2 ^ 30
    let m := mget mapClear r.maps e
    let x := (a - 2 ^ 40) % 2 ^ 30
    if m.set_ && m.part == r.part && decide (x + n ≤ 2 ^ m.log2) then some [.win m.pkg m.win m.epoch x n] else none
  else if d.inHbm a n then some [.hbm a n] else none

/-- Every run of an operand. -/
def Dev.allDests (d : Dev) (r : Run) (o : Operand) : Option (List (List Dest)) :=
  o.desc.segs.mapM (fun s => d.dests r o s.1 s.2)
/-! ## The roster window (R49, R138) -/

/-- The 32 bytes of the roster entry of stream `s`. -/
def RosterEntry.bytes (e : RosterEntry) (s : Nat) : List Nat :=
  leBytes 8 e.firstTs ++ leBytes 8 e.addr ++ leBytes 8 e.digest ++ leBytes 4 e.length ++ [s % 64 + e.state % 4 * 64, e.age % 256] ++
  leBytes 2 e.seq
def rosterEntries (l : List RosterEntry) : List Nat := (List.range l.length).flatMap (fun i =>
  match l[i]? with
  | some e => e.bytes i
  | none => [])
/-- The roster of the current frame: header and entries. On a member of a group it is the leader's (R52). -/
def Dev.rosterBytes (d : Dev) : List Nat :=
  leBytes 8 d.frame.rosterFrame ++ leBytes 8 d.frame.rosterTick ++ leBytes 8 d.frame.rosterDigest ++ List.replicate 40 0 ++
  rosterEntries d.frame.roster
/-- Does a range lie in the roster window? -/
def inRoster (a n : Nat) : Bool := decide (0x1000000000 ≤ a) && decide (a + n ≤ 0x10000004C0)
/-- Bytes of device space as the region DMA reads them: HBM, or the roster window. -/
def Dev.rdDev (d : Dev) (a n : Nat) : List Nat :=
  if inRoster a n then (List.range n).map (fun i => d.rosterBytes.getD (a - 0x1000000000 + i) 0) else d.rdHbm a n

/-- A destination in local HBM. -/
def Dest.local? : Dest → Option (Nat × Nat)
  | .hbm a n => some (a, n)
  | .win _ _ _ _ _ => none
/-- The runs of a read operand in device space, each in its pieces, when every byte lies in local HBM (R138, R209): every block of an
owner table that it touches must be owned by this package (R165). -/
def Dev.hbmRuns (d : Dev) (r : Run) (o : Operand) : Option (List (List (Nat × Nat))) :=
  (d.allDests r o).bind (fun l => l.mapM (fun ds => ds.mapM Dest.local?))
/-- R157 for a device operand: base, strides, gang stride, and the blocks of an owner table that hold bytes of it, in 64 bytes. -/
def devAligned (o : Operand) (gstride : Nat) : Bool :=
  o.base % 64 == 0 && o.desc.aligned 64 && gstride % 64 == 0 && (o.desc.space != 2 || o.desc.segs.all (fun s =>
    (ownerPieces o.owners o.desc.blockLog2 (o.base + s.1) s.2).all (fun q => q.1.all (fun w => w.off % 64 == 0))))

/-! ## Copies -/

/-- Bytes of a run as the destination takes them: the half byte after the last element of a LINEAR INT4 run is 0 (R149). -/
def runBytes (t : TDesc) (b : List Nat) : List Nat :=
  if t.layout = 0 ∧ t.dtype = 0 ∧ t.dim 0 % 2 = 1 then b.take (b.length - 1) ++ (b.drop (b.length - 1)).map (· % 16) else b
/-- 64-byte accesses that cover an extent, run by run. -/
def TDesc.accesses (t : TDesc) (w : Nat) : Nat := sumNat (t.segs.map (fun s => ceilDiv s.2 w))
/-- The bytes of a tensor in its runs; the gaps between the rows of a strided LINEAR tensor do not count, which R256 leaves open for the
size D of a WINDOW's output. DESIGN CHOICE: log entry 206. -/
def TDesc.bytes (t : TDesc) : Nat := sumNat (t.segs.map Prod.snd)

/-! ## The commit bound (R246) -/

/-- Bytes of a list of destinations on a stack, and through a port. -/
def bytesOn (l : List Dest) (s : Nat) : Nat :=
  sumNat (l.map (fun q => match q with
    | .hbm a n => Nat.min (a + n) ((s + 1) * 0x600000000) - Nat.max a (s * 0x600000000)
    | .win _ _ _ _ _ => 0))
def Dev.bytesVia (d : Dev) (l : List Dest) (p : Nat) : Nat :=
  sumNat (l.map (fun q => match q with
    | .hbm _ _ => 0
    | .win g _ _ _ n => if d.route g = some p then n else 0))
/-- The bound in ns; none when it puts bytes on a stack where the partition's RATE is 0. -/
def Dev.commitBound (d : Dev) (part : Nat) (l : List Dest) : Option Rat :=
  let ss := ([0, 1].map (fun s => (bytesOn l s, d.rate part s))).filter (fun q => q.1 != 0)
  let ps := ([0, 1, 2, 3, 4, 5].map (fun p => d.bytesVia l p)).filter (fun n => n != 0)
  if ss.any (fun q => q.2 == 0) then none else
  some (1000 + (ss.map (fun q => (380 : Rat) + 10 * q.1 / q.2)).foldl (· + ·) 0 +
    (ps.map (fun n => (2000 : Rat) + (n : Rat) / 26)).foldl (· + ·) 0)

/-- The destinations of a piece of the commit list. -/
def Dev.pieceDests (d : Dev) (r : Run) (p : Piece) : List Dest := ((d.allDests r p.dst).getD []).flatMap (fun l => l)

end Sys2Proof.Machine
end

