-- ==== Sys2Proof/Machine/Lam.lean ====
section
/-!
DEFINITION. Lammas, cameras (R68 to R82, R90 to R95): ports, frames, the buffer layout, pixel processing, and what cameras and lidar share:
the choice of a buffer, the filters, the headers and the mirrored writes of a roster group (R444).
-/
namespace Sys2Proof.Machine

/-! ## Streams -/

def streamInit : Stream := ⟨none, none, false, none, 0, [], none, none, false, 0⟩
def Dev.strm (d : Dev) (s : Nat) : Stream := mget streamInit d.lam s
def Dev.modStrm (d : Dev) (s : Nat) (f : Stream → Stream) : Dev := { d with lam := mput streamInit d.lam s (f (d.strm s)) }
/-- Offset of the STAT register of a stream; SEQ, FAIL and DROP follow it (Tables 3 and 6). -/
def strStat (s : Nat) : Nat := if s < 32 then R.LAM_STR_STAT s else R.LAM_LID_STAT (s - 32)
/-- Does Lammas take input? In a low-power state it discards what comes (R506); during a reset it takes nothing. DEDUCED: log entry 61. -/
def Dev.lamOn (d : Dev) : Bool := d.rst.low == 0 && !d.rst.warm && !d.sec.overLink && d.rst.hbmReady
/-- The next sequence number of a stream (R76): the frame or sweep that starts has the present one. DEDUCED: log entry 61. -/
def Dev.seqStart (d : Dev) (s : Nat) : Dev :=
  (d.set ⟨strStat s + 4, 31, 0⟩ (d.strm s).nextSeq).modStrm s (fun r => { r with nextSeq := (r.nextSeq + 1) % 2 ^ 32 })

/-! ## Ring buffers (R50, R70, R73) -/

/-- The buffers that the roster of the present frame names, pinned until its Vigil. -/
def Dev.pinnedBuf (d : Dev) (a : Nat) : Bool :=
  d.frame.started && !d.frame.vigilDone && d.frame.roster.any (fun e => e.state != 2 && e.addr == a)
/-- Ring address, buffers and stride of a stream, in force. DEDUCED: log entry 57. -/
def Dev.ringOf (d : Dev) (s : Nat) : Nat × Nat × Nat :=
  let l := s - 32
  if s < 32 then (d.live (F.LAM_STR_RING.ADDR s), d.live (F.LAM_STR_BUFS.COUNT s), d.f (F.LAM_STR_BUFS.UNITS s) * 65536)
  else (d.live (F.LAM_LID_RING.ADDR l), d.live (F.LAM_LID_BUFS.COUNT l), d.f (F.LAM_LID_BUFS.UNITS l) * 65536)
/-- The buffer for a new frame: the first in ring order after the newest one that passed, that is neither pinned nor waiting for its
header. DEDUCED: log entry 57. -/
def Dev.freeBuf (d : Dev) (s : Nat) : Option (Nat × Nat) :=
  let (base, n, stride) := d.ringOf s
  let r := d.strm s
  let from_ := match r.hdr.getLast?.or (r.late.or r.last) with
    | some b => b.idx + 1
    | none => 0
  let ok := fun i => !d.pinnedBuf (base + i * stride) && !r.hdr.any (fun b => b.addr == base + i * stride)
  (((List.range n).map (fun j => (from_ + j) % n)).find? ok).map (fun i => (i, base + i * stride))
/-- A frame or sweep finds every buffer pinned: it is dropped, counted and reported (R50, R90). -/
def Dev.lamDrop (d : Dev) (s : Nat) : Dev :=
  (d.addSat ⟨strStat s + 12, 31, 0⟩ 1).raise 0x141 0x8024 s 6

/-! ## Writes, with the mirror of a roster group (R444) -/

/-- Does this package lead a roster group? -/
def Dev.groupLeader (d : Dev) : Bool := d.full && d.on F.LNK_GROUP.EN && d.on F.LNK_GROUP.LEADER
def Dev.groupMember (d : Dev) : Bool := d.full && d.on F.LNK_GROUP.EN && !d.on F.LNK_GROUP.LEADER
/-- The packages of LNK_GROUP_MEM. On the leader they are its members: up to three (R444), the first of the slots that are valid.
DESIGN CHOICE: log entry 192. -/
def Dev.groupPkgs (d : Dev) : List Nat :=
  ((maskList (d.f F.LNK_GROUP_MEM.VALID) 4).take 3).map (fun i => d.f F.LNK_GROUP_MEM.PKG / 2 ^ (15 * i) % 2 ^ 15)
/-- Lammas writes bytes to HBM, and the leader of a group sends them to every member. DEDUCED: log entry 62. -/
def Dev.lamMirror (d : Dev) (a : Nat) (bs : List Nat) : Dev :=
  if !d.groupLeader || bs == [] then d else
  let d := d.groupPkgs.foldl (fun d p => d.sendLg p (.mirror p a bs)) d
  { d with lnk := { d.lnk with mirrorSent := d.lnk.mirrorSent + 1 } }
def Dev.lamWrite (d : Dev) (a : Nat) (bs : List Nat) : Dev := (d.wrHbm a bs).lamMirror a bs
/-- Lammas writes `n` zero bytes, in whole granules. DEDUCED: log entry 191. -/
def Dev.lamZero (d : Dev) (a n : Nat) : Dev :=
  let e := if d.stackLost a then d else { d with mem := { d.mem with hbm := d.mem.hbm.zero a (a + n) } }
  let e := if d.stackLost a || d.poisonIn a n == [] then e
    else e.setPoison (d.mem.poison.filter (fun g => decide (g < a) || decide (a + n ≤ g)))
  e.lamMirror a (List.replicate n 0)
/-- Has every member acknowledged the first `n` mirrored writes? DEDUCED: log entry 62. -/
def Dev.mirrored (d : Dev) (n : Nat) : Bool := !d.groupLeader || d.groupPkgs.all (fun p => decide (n ≤ mget 0 d.lnk.mirrorAcked p))

/-! ## Passing and failing (R75, R78, R90) -/

/-- A frame or sweep fails a filter: reason, counter, LAM_FILTER. Its buffer is free again. DEDUCED: log entry 72. -/
def Dev.lamFail (d : Dev) (s reason master : Nat) : Dev :=
  let d := d.modStrm s (fun r => { r with frame := none, sweep := none, skip := decide (32 ≤ s) })
  ((d.set ⟨strStat s, 7, 4⟩ reason).addSat ⟨strStat s + 8, 31, 0⟩ 1).raise 0x140 master s 6
/-- A frame or sweep passes: the digest of bytes 0 to LENGTH − 1 is final, and its header is on its way (R75). DEDUCED: log entry 72. -/
def Dev.lamPass (d : Dev) (s idx addr seq firstTs length : Nat) (hdr : List Nat) : Dev :=
  let d := d.lamWrite addr hdr
  d.modStrm s (fun r => { r with
    frame := none, sweep := none,
    hdr := r.hdr ++ [⟨idx, addr, firstTs, crc64 (d.rdHbm addr length), length, seq, d.lnk.mirrorSent⟩] })
/-- FRAME_HEADER_WRITTEN: the oldest pending header is written, and its buffer eligible (R78, R444). One that completes at the instant
of the tick to come, or after it, belongs to the roster after that (R48). -/
def Dev.headerWritten (d : Dev) (s t : Nat) : Dev :=
  match (d.strm s).hdr with
  | [] => d
  | b :: bs =>
    if !d.mirrored b.mirror then d else
    let d := d.at_ t
    let d := if d.running && decide (d.frame.nextTick ≤ d.now) then d.modStrm s (fun r => { r with hdr := bs, late := some b })
      else d.modStrm s (fun r => { r with hdr := bs, last := some b, rostered := false, age := 0 })
    (d.set ⟨strStat s, 3, 0⟩ b.idx).set ⟨strStat s, 8, 8⟩ 1
def execFrameHeaderWritten (n t : Nat) (s : State) : Res := .next (s.upd (fun d => d.headerWritten n t))

/-- Round up to a multiple of 64. -/
def up64 (n : Nat) : Nat := ceilDiv n 64 * 64
/-- Pad a byte string with zeros to `n` bytes. -/
def padTo (n : Nat) (l : List Nat) : List Nat := l ++ List.replicate (n - l.length) 0

/-! ## Camera ports (R68, R69) -/

/-- LAM_PORT_CFG_WRITE: PHY, LANES and MAXRATE can change only while EN is 0, and take effect when EN rises. -/
def Dev.portCfgWrite (d : Dev) (p value : Nat) : Dev :=
  let was := d.on (F.LAM_PORT_CFG.EN p)
  let en := bits value 0 0
  let phy := bits value 1 1
  let rate := bits value 15 8
  if !was && (rate == 0 || (if phy = 0 then 45 else 60) < rate) then d else
  let d := if was then d else
    ((d.set (F.LAM_PORT_CFG.PHY p) phy).set (F.LAM_PORT_CFG.LANES p) (bits value 4 2)).set (F.LAM_PORT_CFG.MAXRATE p) rate
  let d := d.set (F.LAM_PORT_CFG.EN p) en
  if !was && en == 1 then (d.stage (R.LAM_PORT_CFG p) (R.LAM_PORT_LAT p)).enforce (R.LAM_PORT_CFG p) (R.LAM_PORT_LAT p)
  else if en == 0 then d.set (F.LAM_PORT_STAT.TRAINED p) 0 else d
def execLamPortCfgWrite (p value : Nat) (s : State) : Res := .next (s.upd (fun d => if p < 16 then d.portCfgWrite p value else d))

/-- Does the lane count in force suit the physical layer? -/
def Dev.lanesOk (d : Dev) (p : Nat) : Bool :=
  (if d.live (F.LAM_PORT_CFG.PHY p) = 0 then [1, 2, 4] else [1, 2, 3]).contains (d.live (F.LAM_PORT_CFG.LANES p))
/-- CSI2_LINK_TRAINED. -/
def Dev.linkUpDown (d : Dev) (p : Nat) (up : Bool) : Dev :=
  if 16 ≤ p || !d.on (F.LAM_PORT_CFG.EN p) then d
  else d.set (F.LAM_PORT_STAT.TRAINED p) (b2n (up && d.lanesOk p))
def execCsi2LinkTrained (p : Nat) (up : Bool) (s : State) : Res := .next (s.upd (fun d => d.linkUpDown p up))

/-! ## The camera configuration (R70, R71, R74) -/

/-- The parameters of a camera stream, read through `g`: the staged values or those in force. -/
structure CamCfg where
  port : Nat
  vc : Nat
  dt : Nat
  any : Bool
  path : Nat
  cfa : Nat
  matrix : Bool
  fmt : Nat
  planar : Bool
  w : Nat
  h : Nat
  lineTmo : Nat
  frameTmo : Nat
  ring : Nat
  count : Nat
  cm : List Int
  ofs : List Int
  mean : List Nat
  scale : List Nat
  deriving DecidableEq, Repr

def camCfg (g : Fld → Nat) (s : Nat) : CamCfg :=
  { port := g (F.LAM_STR_CFG.PORT s), vc := g (F.LAM_STR_CFG.VC s), dt := g (F.LAM_STR_CFG.DT s), any := g (F.LAM_STR_CFG.DT_ANY s) == 1,
    path := g (F.LAM_STR_CFG.PATH s), cfa := g (F.LAM_STR_CFG.CFA s), matrix := g (F.LAM_STR_CFG.MATRIX_EN s) == 1,
    fmt := g (F.LAM_STR_CFG.OUT_FMT s), planar := g (F.LAM_STR_CFG.PLANAR s) == 1, w := g (F.LAM_STR_DIM.WIDTH s),
    h := g (F.LAM_STR_DIM.HEIGHT s), lineTmo := g (F.LAM_STR_TMO.LINE_TMO s), frameTmo := g (F.LAM_STR_TMO.FRAME_TMO s),
    ring := g (F.LAM_STR_RING.ADDR s), count := g (F.LAM_STR_BUFS.COUNT s),
    cm := (List.range 9).map (fun i => toSigned 16 (g (F.LAM_STR_CM.C s (i / 2)) / 2 ^ (16 * (i % 2)))),
    ofs := (List.range 3).map (fun i => s32 (g (F.LAM_STR_OFS.OFF s i))),
    mean := (List.range 3).map (fun i => g (F.LAM_STR_MEAN.MEAN s i)), scale := (List.range 3).map (fun i => g (F.LAM_STR_SCALE.SCALE s i)) }

/-- The supported pixel data types, with bits per pixel on the link (Table 1). -/
def csiBits (dt : Nat) : Nat :=
  match dt with
  | 0x2A => 8
  | 0x2B => 10
  | 0x2C => 12
  | 0x2D => 14
  | 0x2E => 16
  | 0x1E => 16
  | 0x24 => 24
  | _ => 0
/-- Channels of a buffer. -/
def CamCfg.chans (c : CamCfg) : Nat := if c.path = 0 then 1 else 3
/-- Element size E. -/
def CamCfg.el (c : CamCfg) : Nat :=
  if c.path ≠ 0 then [1, 2, 1, 1, 2, 2, 4].getD c.fmt 1
  else if c.any then 1 else if c.dt = 0x2A then 1 else if c.dt = 0x24 then 3 else 2
def CamCfg.pitch (c : CamCfg) : Nat := up64 (c.w * (if c.planar then 1 else c.chans) * c.el)
def CamCfg.planes (c : CamCfg) : Nat := if c.planar then c.chans else 1
def CamCfg.dataOfs (c : CamCfg) : Nat := up64 (64 + 8 * c.h)
/-- LENGTH of a buffer (R75). -/
def CamCfg.length (c : CamCfg) : Nat := c.dataOfs + c.planes * c.pitch * c.h
/-- The stride in units of 64 KiB. -/
def CamCfg.units (c : CamCfg) : Nat := ceilDiv c.length 65536
def finite32 (b : Nat) : Bool := bits b 30 23 != 255
/-- Does APPLY accept the staged values (R70, R71)? -/
def Dev.camOk (d : Dev) (c : CamCfg) : Bool :=
  decide (1 ≤ c.w) && decide (c.w ≤ if c.path = 0 ∧ c.any then 24576 else 8192) && decide (1 ≤ c.h) && decide (c.h ≤ 8192) &&
  decide (3 ≤ c.count) && decide (c.count ≤ 16) && (c.mean ++ c.scale).all finite32 &&
  c.ofs.all (fun o => decide (-65536 ≤ o) && decide (o ≤ 65535)) && (!c.any || c.path == 0) && c.fmt != 7 &&
  (c.any || (match c.path with
    | 0 => csiBits c.dt != 0
    | 1 => 0x2A ≤ c.dt && c.dt ≤ 0x2E
    | 2 => c.dt == 0x1E
    | _ => c.dt == 0x24)) &&
  (2 ≤ c.fmt || ((c.mean.all (fun b => b % 2 ^ 31 == 0)) && c.scale.all (fun b => b == 0x3F800000))) &&
  decide (1 ≤ c.lineTmo) && decide (1 ≤ c.frameTmo) && c.ring % 65536 == 0 && d.inHbm c.ring (c.count * c.units * 65536)

/-- Bring the pending values of a stream into force. DEDUCED: log entry 59. -/
def Dev.strTake (d : Dev) (s : Nat) : Dev :=
  (d.enforce (R.LAM_STR_CFG s) (R.LAM_STR_STAT s)).set (F.LAM_STR_CFG.PENDING s) 0
/-- STR_APPLY. DEDUCED: log entry 59. -/
def Dev.strApply (d : Dev) (s : Nat) : Dev :=
  let c := camCfg d.f s
  if !d.camOk c then d.set (F.LAM_STR_CFG.BAD_CFG s) 1 else
  let d := (d.set (F.LAM_STR_BUFS.UNITS s) c.units).stage (R.LAM_STR_CFG s) (R.LAM_STR_STAT s)
  if (d.strm s).frame.isNone then d.strTake s else d.set (F.LAM_STR_CFG.PENDING s) 1
def execStrApply (n : Nat) (s : State) : Res := .next (s.upd (fun d => if n < 32 then d.strApply n else d))

/-- STREAM_DISABLE (R73): a frame or sweep in progress is discarded without being counted. Streams 32 to 35 are the lidar links. -/
def Dev.strDisable (d : Dev) (s : Nat) : Dev :=
  (d.set (if s < 32 then F.LAM_STR_CFG.EN s else F.LAM_LID_CFG.EN (s - 32)) 0).modStrm s
    (fun r => { r with frame := none, sweep := none, skip := false, prevAz := none })
def execStreamDisable (n : Nat) (s : State) : Res := .next (s.upd (fun d => if n < 36 then d.strDisable n else d))

/-! ## Which stream a packet belongs to (R72) -/

/-- The enabled streams of a port and virtual channel, rising, with their configuration. -/
def Dev.strsOf (d : Dev) (p vc : Nat) : List (Nat × CamCfg) :=
  ((List.range 32).map (fun s => (s, camCfg d.live s))).filter (fun q => d.on (F.LAM_STR_CFG.EN q.1) && q.2.port == p && q.2.vc == vc)
/-- Does a stream of lower number take every packet of this one? -/
def shadowed (l : List (Nat × CamCfg)) (s : Nat) (c : CamCfg) : Bool :=
  l.any (fun q => decide (q.1 < s) && (q.2.any || c.any || q.2.dt == c.dt))
def Dev.openable (d : Dev) (p vc : Nat) : List (Nat × CamCfg) :=
  let l := d.strsOf p vc
  l.filter (fun q => !shadowed l q.1 q.2)
/-- A header that its ECC corrected is counted (Table 2 of R69). -/
def Dev.eccNote (d : Dev) (p : Nat) (ecc : Bool) : Dev := if ecc && d.lamOn then d.addSat (F.LAM_PORT_ECC_CORR.COUNT p) 1 else d
/-- A packet of virtual channel 4 or above is discarded and counted (R68). -/
def Dev.vcxPacket (d : Dev) (p t : Nat) : Dev := if d.lamOn then (d.at_ t).addSat (F.LAM_PORT_HDR_ERR.COUNT p) 1 else d
/-- Does the port deliver packets? DEDUCED: log entry 55. -/
def Dev.csiLive (d : Dev) (p : Nat) : Bool := p < 16 && d.on (F.LAM_PORT_CFG.EN p) && d.on (F.LAM_PORT_STAT.TRAINED p)
/-- A frame of a camera stream fails. DEDUCED: log entry 56. -/
def Dev.camFail (d : Dev) (s p reason : Nat) : Dev := d.lamFail s reason (0x8010 + p)

/-! ## Pixels (R79 to R82) -/

/-- Unpack pixel values as MIPI CSI-2 packs them: the high bits of each pixel of a group, then the low bits. PRESUMED: log entry 60. -/
def unpackRaw (dt : Nat) : Nat → List Nat → List Nat
  | 0, _ => []
  | n + 1, l =>
    match dt with
    | 0x2B =>
      let lo := l.getD 4 0
      (List.range 4).map (fun i => l.getD i 0 * 4 + lo / 4 ^ i % 4) ++ unpackRaw dt n (l.drop 5)
    | 0x2C => [l.getD 0 0 * 16 + l.getD 2 0 % 16, l.getD 1 0 * 16 + l.getD 2 0 / 16] ++ unpackRaw dt n (l.drop 3)
    | 0x2D =>
      let lo := leNat ((l.drop 4).take 3)
      (List.range 4).map (fun i => l.getD i 0 * 64 + lo / 64 ^ i % 64) ++ unpackRaw dt n (l.drop 7)
    | 0x2E => (l.getD 0 0 + 256 * l.getD 1 0) :: unpackRaw dt n (l.drop 2)
    | _ => l.getD 0 0 :: unpackRaw dt n (l.drop 1)
/-- The `w` pixel values of a RAW line. -/
def rawRow (dt w : Nat) (l : List Nat) : List Nat := (unpackRaw dt w l).take w

/-- The colour of a site: 0 R, 1 G, 2 B. -/
def cfaAt (cfa y x : Nat) : Nat :=
  let p := (y % 2) * 2 + x % 2
  ([[0, 1, 1, 2], [1, 0, 2, 1], [1, 2, 0, 1], [2, 1, 1, 0]].getD cfa []).getD p 0
/-- Demosaic one pixel from the rows above, here and below (R79); rows and columns outside the frame repeat the edge. -/
def demosaic (cfa y x w : Nat) (up row dn : List Nat) : List Nat :=
  let xl := x - 1
  let xr := Nat.min (x + 1) (w - 1)
  let g := fun (l : List Nat) i => l.getD i 0
  let me := g row x
  let cross := (g up x + g dn x + g row xl + g row xr + 2) / 4
  let diag := (g up xl + g up xr + g dn xl + g dn xr + 2) / 4
  let hor := (g row xl + g row xr + 1) / 2
  let ver := (g up x + g dn x + 1) / 2
  match cfaAt cfa y x with
  | 0 => [me, cross, diag]
  | 2 => [diag, cross, me]
  | _ => if cfaAt cfa y (x + 1) = 0 then [hor, me, ver] else [ver, me, hor]
/-- The colour matrix (R81). -/
def CamCfg.mix (c : CamCfg) (depth : Nat) (x : List Nat) : List Nat :=
  if !c.matrix then x else
  (List.range 3).map (fun i =>
    let s := (List.range 3).foldl (fun (a : Int) j => a + c.cm.getD (3 * i + j) 0 * (x.getD j 0 : Int)) 0
    let v := (s + c.ofs.getD i 0 * 16384 + 8192) / 16384
    (max 0 (min v ((2 ^ depth : Nat) - 1))).toNat)
/-- The element that a normalised value becomes in a floating-point format: an overflow saturates, and no NaN is ever written (R82). Zero
times a scale that jitter has made infinite (R461) has no stated result: `free` picks a finite one. DESIGN CHOICE: log entry 204. -/
def normFp (f : Fmt) (free : Nat) : Num → Nat
  | .nan => f.finiteBits free
  | .inf s => (Num.toFp f .even false (.fin s 1 200)).1
  | a => (a.toFp f .even false).1
/-- Normalisation and conversion of one channel (R82): the little-endian bytes of the element. -/
def CamCfg.norm (c : CamCfg) (i v : Nat) : List Nat :=
  let f := (((Num.ofInt v).sub (ofBits32 (c.mean.getD i 0))).1.mul (ofBits32 (c.scale.getD i 0))).1
  let free := Config.freeResult 82 [c.fmt, v, c.mean.getD i 0, c.scale.getD i 0]
  match c.fmt with
  | 0 => [Nat.min v 255]
  | 1 => leBytes 2 (Nat.min v 65535)
  | 2 => [if f.isNan then free % 256 else ofSigned 8 (f.toInt 1).1]
  | 3 => [normFp fmtE4M3 free f]
  | 4 => leBytes 2 (normFp fmt16 free f)
  | 5 => leBytes 2 (normFp fmtBf16 free f)
  | _ => leBytes 4 (normFp fmt32 free f)
/-- Write one row of pixels, each a vector of channels before the matrix. -/
def Dev.wrPixels (d : Dev) (c : CamCfg) (a y depth : Nat) (px : List (List Nat)) : Dev :=
  let row := px.map (fun x => (List.range 3).map (fun i => c.norm i ((c.mix depth x).getD i 0)))
  if c.planar then
    (List.range 3).foldl (fun d i =>
      d.lamWrite (a + c.dataOfs + i * c.pitch * c.h + y * c.pitch) (padTo c.pitch (row.flatMap (fun x => x.getD i [])))) d
  else d.lamWrite (a + c.dataOfs + y * c.pitch) (padTo c.pitch (row.flatMap (fun x => x.flatten)))
/-- A demosaiced row. -/
def Dev.wrBayer (d : Dev) (c : CamCfg) (a y : Nat) (up row dn : List Nat) : Dev :=
  d.wrPixels c a y (csiBits c.dt) ((List.range c.w).map (fun x => demosaic c.cfa y x c.w up row dn))
/-- The stored form of a RAW line (R74). -/
def CamCfg.rawBytes (c : CamCfg) (l : List Nat) : List Nat :=
  if c.any || c.dt == 0x2A || c.dt == 0x2E || c.dt == 0x1E || c.dt == 0x24 then l
  else (rawRow c.dt c.w l).flatMap (leBytes 2)
/-- The pixels of a YUV422 line, which CSI-2 sends as Cb, Y, Cr, Y, and of an RGB888 line, which it sends as B, G, R (R80). PRESUMED: log entry 60. -/
def yuvRow (w : Nat) (l : List Nat) : List (List Nat) :=
  (List.range w).map (fun x => [l.getD (2 * x + 1) 0, l.getD (x / 2 * 4) 0, l.getD (x / 2 * 4 + 2) 0])
def rgbRow (w : Nat) (l : List Nat) : List (List Nat) :=
  (List.range w).map (fun x => [l.getD (3 * x + 2) 0, l.getD (3 * x + 1) 0, l.getD (3 * x) 0])

/-! ## Frames -/

/-- FRAME_START (R76, R90): a frame in progress on the port and channel ends with NO_END; pending values take effect (R70). -/
def Dev.frameStart (d : Dev) (p vc : Nat) (ecc : Bool) (t : Nat) : Dev :=
  if !d.csiLive p then d else
  let d := d.eccNote p ecc
  if 4 ≤ vc then d.vcxPacket p t else
  let d := d.at_ t
  let d := (d.strsOf p vc).foldl (fun d q =>
    let d := if (d.strm q.1).frame.isSome then d.camFail q.1 p 6 else d
    if d.on (F.LAM_STR_CFG.PENDING q.1) then d.strTake q.1 else d) d
  (d.openable p vc).foldl (fun d q =>
    let s := q.1
    let seq := (d.strm s).nextSeq
    let d := d.seqStart s
    if !d.lamOn then d else
    match d.freeBuf s with
    | none => d.lamDrop s
    | some (i, a) => d.modStrm s (fun r => { r with frame := some ⟨i, a, seq, t, t, 0, 0, 0, 0, []⟩ })) d
def execFrameStart (p vc : Nat) (ecc : Bool) (t : Nat) (s : State) : Res := .next (s.upd (fun d => d.frameStart p vc ecc t))

/-- The reason for which a line fails its frame; 0 if it passes. Several that fall on one line count in the order of Table 9. -/
def CamCfg.lineReason (c : CamCfg) (f : CamFrame) (dt : Nat) (crcOk : Bool) (n t : Nat) : Nat :=
  if f.lastT + c.lineTmo * 1000 < t then 1
  else if f.startT + c.frameTmo * 100000 < t then 2
  else if !crcOk then 3
  else if (c.any || c.dt == dt) && (if c.path == 0 && c.any then decide (c.w < n) else n != ceilDiv (c.w * csiBits c.dt) 8) then 4
  else if c.h ≤ f.lines then 5
  else if !c.any && c.dt != dt then 7 else 0

/-- A line that passes is stored, with its stamp in the timestamp table (R75, R77). -/
def Dev.storeLine (d : Dev) (s : Nat) (c : CamCfg) (f : CamFrame) (dt : Nat) (payload : List Nat) (t : Nat) : Dev :=
  let y := f.lines
  let ts := t - d.f (F.LAM_PORT_LAT.LAT_NS c.port)
  let d := if y = 0 then d.lamWrite (f.addr + 64 + 8 * c.h) (List.replicate (c.dataOfs - 64 - 8 * c.h) 0) else d
  let d := d.lamWrite (f.addr + 64 + 8 * y) (leBytes 8 ts)
  let raw := rawRow c.dt c.w payload
  let d := match c.path with
    | 0 => d.lamWrite (f.addr + c.dataOfs + y * c.pitch) (padTo c.pitch (c.rawBytes payload))
    | 1 =>
      if y = 0 then d else
      let prev := f.rows.getD 0 []
      d.wrBayer c f.addr (y - 1) (f.rows.getD 1 prev) prev raw
    | 2 => d.wrPixels c f.addr y 8 (yuvRow c.w payload)
    | _ => d.wrPixels c f.addr y 8 (rgbRow c.w payload)
  d.modStrm s (fun r => { r with frame := some { f with
    lastT := t, lines := y + 1, dt := dt, firstTs := if y = 0 then ts else f.firstTs, lastTs := ts,
    rows := if c.path = 1 then raw :: f.rows.take 1 else [] } })

/-- LINE (R68, R72, R77, R90). `ecc`: the header needed a correction; `hdrOk`: it could be read. DEDUCED: log entries 55, 56. -/
def Dev.line (d : Dev) (p vc dt : Nat) (ecc crcOk hdrOk : Bool) (payload : List Nat) (t : Nat) : Dev :=
  if !d.csiLive p || !d.lamOn then d else
  let d := d.at_ t
  let l := d.openable p vc
  let opens := fun (d : Dev) => l.filter (fun q => (d.strm q.1).frame.isSome)
  if !hdrOk then
    (opens d).foldl (fun d q => d.camFail q.1 p 3) (d.addSat (F.LAM_PORT_HDR_ERR.COUNT p) 1)
  else
    let d := d.eccNote p ecc
    if 4 ≤ vc || (dt != 0x12 && csiBits dt == 0) then d.addSat (F.LAM_PORT_HDR_ERR.COUNT p) 1
    else
      let d := if crcOk then d else d.addSat (F.LAM_PORT_CRC_ERR.COUNT p) 1
      if dt == 0x12 then d else
      let tgt := match l.find? (fun q => q.2.any || q.2.dt == dt) with
        | some q => [q]
        | none => l
      tgt.foldl (fun d q =>
        match (d.strm q.1).frame with
        | none => d
        | some f =>
          let r := q.2.lineReason f dt crcOk payload.length t
          if r = 0 then d.storeLine q.1 q.2 f dt payload t else d.camFail q.1 p r) d
def execLine (p vc dt : Nat) (ecc crcOk hdrOk : Bool) (payload : List Nat) (t : Nat) (s : State) : Res :=
  .next (s.upd (fun d => d.line p vc dt ecc crcOk hdrOk payload t))

/-- The header of a camera buffer (Table 4). -/
def CamCfg.header (c : CamCfg) (s : Nat) (f : CamFrame) : List Nat :=
  leBytes 8 f.firstTs ++ leBytes 8 f.lastTs ++ leBytes 4 f.seq ++ leBytes 2 c.w ++ leBytes 2 c.h ++ leBytes 4 0 ++
  [s, c.fmt + c.path * 8 + b2n c.planar * 32, f.dt, 0] ++ leBytes 4 c.pitch ++ leBytes 4 c.dataOfs ++ leBytes 4 0 ++ List.replicate 20 0

/-- FRAME_END (R90): the frame's checks end; the last Bayer row, the padding up to the stride and then the header are written (R74, R75). -/
def Dev.frameEnd (d : Dev) (p vc : Nat) (ecc : Bool) (t : Nat) : Dev :=
  if !d.csiLive p || !d.lamOn then d else
  let d := d.eccNote p ecc
  if 4 ≤ vc then d.vcxPacket p t else
  let d := d.at_ t
  (d.strsOf p vc).foldl (fun d q =>
    let (s, c) := q
    match (d.strm s).frame with
    | none => d
    | some f =>
      if f.startT + c.frameTmo * 100000 < t then d.camFail s p 2
      else if f.lines < c.h then d.camFail s p 4
      else
        let d := if c.path = 1 then
            let row := f.rows.getD 0 []
            d.wrBayer c f.addr (c.h - 1) (f.rows.getD 1 row) row row
          else d
        let d := d.lamZero (f.addr + c.length) (c.units * 65536 - c.length)
        d.lamPass s f.idx f.addr f.seq f.firstTs c.length (c.header s f)) d
def execFrameEnd (p vc : Nat) (ecc : Bool) (t : Nat) (s : State) : Res := .next (s.upd (fun d => d.frameEnd p vc ecc t))

/-- LINE_TIMEOUT (R90, R91): the time since FS or the last line header has passed the limit while a line is still to come. DEDUCED: log entry 58. -/
def Dev.lineTimeout (d : Dev) (s t : Nat) : Dev :=
  let c := camCfg d.live s
  match (d.strm s).frame with
  | none => d
  | some f => if f.lastT + c.lineTmo * 1000 < t ∧ f.lines < c.h then (d.at_ t).camFail s c.port 1 else d
def execLineTimeout (n t : Nat) (s : State) : Res := .next (s.upd (fun d => if n < 32 then d.lineTimeout n t else d))

/-- FRAME_TIMEOUT (R90, R91). -/
def Dev.frameTimeout (d : Dev) (s t : Nat) : Dev :=
  let c := camCfg d.live s
  match (d.strm s).frame with
  | none => d
  | some f => if f.startT + c.frameTmo * 100000 < t then (d.at_ t).camFail s c.port 2 else d
def execFrameTimeout (n t : Nat) (s : State) : Res := .next (s.upd (fun d => if n < 32 then d.frameTimeout n t else d))

end Sys2Proof.Machine
end

