-- ==== Sys2Proof/Machine/Lid.lean ====
section
/-!
DEFINITION. Lammas, lidar (R83 to R91): Ethernet frames, UDP datagrams, points, sweeps and their boundaries.
-/
namespace Sys2Proof.Machine

/-! ## Sine and cosine of a 16-bit angle code (R86) -/

/-- The floor of pi times 2^160. -/
def piFix : Nat := 4591442807048218921384805199743311128454155024418
/-- Sine and cosine, times 2^160, of the code `r` at most an eighth of a turn. -/
def sinCosFix (r : Nat) : Nat × Nat :=
  let x := 2 * piFix * r / 65536
  let step := fun (s : Int × Int × Nat) (_ : Nat) =>
    let t := -(s.2.1 * (x : Int) / 2 ^ 160 * (x : Int) / 2 ^ 160 / (((s.2.2 + 1) * (s.2.2 + 2) : Nat) : Int))
    (s.1 + t, t, s.2.2 + 2)
  let sn := (List.range 24).foldl step ((x : Int), (x : Int), 1)
  let cs := (List.range 24).foldl step ((2 ^ 160 : Nat), ((2 ^ 160 : Nat) : Int), 0)
  (sn.1.toNat, cs.1.toNat)
/-- The sine of code `r` of the first quarter turn, times 2^160. -/
def sinQuarter (r : Nat) : Nat := if r ≤ 8192 then (sinCosFix r).1 else (sinCosFix (16384 - r)).2
/-- SIN16 of a code: the FP32 value nearest to the sine, which is irrational but at the quarter turns. -/
def sin16 (a : Nat) : Num :=
  let r := a % 16384
  let q := a / 16384 % 4
  let v := if q % 2 = 0 then r else 16384 - r
  if v = 0 then numZero
  else if v = 16384 then .fin (decide (2 ≤ q)) 1 0
  else fp32Sticky (decide (2 ≤ q)) (sinQuarter v) false (-160)
def cos16 (a : Nat) : Num := sin16 (a + 16384)

/-! ## The configuration of a link (R84, R85) -/

/-- A field entry (Table 7). -/
structure LidField where
  target : Nat
  scope : Nat
  be : Bool
  signed : Bool
  width : Nat
  bitOfs : Nat
  byteOfs : Nat
  scale : Nat
  deriving DecidableEq, Repr

/-- The parameters of a lidar link. -/
structure LidCfg where
  points : Bool
  polar : Bool
  split : Nat
  lossMax : Nat
  dropPct : Nat
  maxPts : Nat
  cap : Nat
  hdrLen : Nat
  blocks : Nat
  ppb : Nat
  blockLen : Nat
  blockHdr : Nat
  pointLen : Nat
  splitAz : Nat
  limit : Nat
  timeWin : Nat
  gap : Nat
  sweep : Nat
  lat : Nat
  ring : Nat
  count : Nat
  fields : List LidField
  deriving DecidableEq, Repr

/-- DEDUCED: log entry 66. -/
def fieldOf (v : Nat) : LidField :=
  ⟨bits v 3 0, bits v 5 4, bitOf v 6, bitOf v 7, bits v 13 8, bits v 16 14, bits v 31 17, bits v 63 32⟩
/-- DEDUCED: log entry 71. -/
def lidCfg (g : Fld → Nat) (l : Nat) : LidCfg :=
  { points := g (F.LAM_LID_CFG.PATH l) == 1, polar := g (F.LAM_LID_CFG.GEOM l) == 1, split := g (F.LAM_LID_CFG.SPLIT l),
    lossMax := g (F.LAM_LID_CFG.PKT_LOSS_MAX l), dropPct := g (F.LAM_LID_CFG.DROP_PCT l), maxPts := g (F.LAM_LID_MAXPTS.MAX_POINTS l),
    cap := g (F.LAM_LID_CAP.CAP l), hdrLen := g (F.LAM_LID_LAYOUT0.HDR_LEN l), blocks := g (F.LAM_LID_LAYOUT0.BLOCKS l),
    ppb := g (F.LAM_LID_LAYOUT0.PPB l), blockLen := g (F.LAM_LID_LAYOUT1.BLOCK_LEN l), blockHdr := g (F.LAM_LID_LAYOUT1.BLOCK_HDR l),
    pointLen := g (F.LAM_LID_LAYOUT2.POINT_LEN l), splitAz := g (F.LAM_LID_LAYOUT2.SPLIT_AZ l), limit := g (F.LAM_LID_LIMIT.LIMIT l),
    timeWin := g (F.LAM_LID_TIMEWIN.TIME_WIN l), gap := g (F.LAM_LID_TMO.GAP_TMO l), sweep := g (F.LAM_LID_TMO.SWEEP_TMO l),
    lat := g (F.LAM_LID_LAT.LAT_NS l), ring := g (F.LAM_LID_RING.ADDR l), count := g (F.LAM_LID_BUFS.COUNT l),
    fields := (List.range 16).map (fun i => fieldOf (g (F.LAM_LID_FIELD.FIELD l i))) }

/-- Where block `b` and its point `j` start. -/
def LidCfg.blockAt (c : LidCfg) (b : Nat) : Nat := c.hdrLen + b * c.blockLen
def LidCfg.pointAt (c : LidCfg) (b j : Nat) : Nat := c.blockAt b + c.blockHdr + j * c.pointLen
/-- The field entries in use, and the byte at which one ends for a point. -/
def LidCfg.used (c : LidCfg) : List LidField := c.fields.filter (fun f => f.target != 0)
def LidCfg.startOf (c : LidCfg) (f : LidField) (b j : Nat) : Nat :=
  (match f.scope with
    | 0 => 0
    | 1 => c.blockAt b
    | _ => c.pointAt b j) + f.byteOfs
def LidField.bytes (f : LidField) : Nat := ceilDiv (f.bitOfs + f.width) 8
/-- The bytes that the layout needs: the end of the fields of the last point. -/
def LidCfg.need (c : LidCfg) : Nat :=
  c.used.foldl (fun n f => Nat.max n (c.startOf f (c.blocks - 1) (c.ppb - 1) + f.bytes)) 0
/-- The stride in units of 64 KiB: the header of 64 bytes, and the points or the capacity. -/
def LidCfg.units (c : LidCfg) : Nat := ceilDiv (64 + if c.points then 24 * c.maxPts else c.cap * 65536) 65536
/-- Does APPLY accept the staged values (R84)? -/
def Dev.lidOk (d : Dev) (c : LidCfg) : Bool :=
  decide (1 ≤ c.maxPts) && decide (c.maxPts ≤ 2097152) && decide (1 ≤ c.cap) && decide (c.cap ≤ 4096) && decide (c.dropPct ≤ 100) &&
  decide (0x3F800000 ≤ c.limit) && decide (c.limit ≤ 0x44FA0000) && c.split != 3 && decide (1 ≤ c.blocks) && decide (1 ≤ c.ppb) &&
  c.used.all (fun f => decide (1 ≤ f.width) && decide (f.width ≤ 32) && finite32 f.scale) && decide (c.need ≤ 9000) &&
  decide (1000 ≤ c.timeWin) && decide (c.timeWin ≤ 100000000) && decide (1 ≤ c.gap) && decide (1 ≤ c.sweep) &&
  decide (3 ≤ c.count) && decide (c.count ≤ 16) && c.ring % 65536 == 0 && d.inHbm c.ring (c.count * c.units * 65536)

/-- DEDUCED: log entry 70. -/
def Dev.lidTake (d : Dev) (l : Nat) : Dev :=
  (d.enforce (R.LAM_LID_CFG l) (R.LAM_LID_CFG l + 0x400)).set (F.LAM_LID_CFG.PENDING l) 0
/-- LID_APPLY: the values take effect at the next sweep start, or at once. -/
def Dev.lidApply (d : Dev) (l : Nat) : Dev :=
  let c := lidCfg d.f l
  if !d.lidOk c then d.set (F.LAM_LID_CFG.BAD_CFG l) 1 else
  let d := (d.set (F.LAM_LID_BUFS.UNITS l) c.units).stage (R.LAM_LID_CFG l) (R.LAM_LID_CFG l + 0x400)
  if (d.strm (32 + l)).sweep.isNone then d.lidTake l else d.set (F.LAM_LID_CFG.PENDING l) 1
def execLidApply (l : Nat) (s : State) : Res := .next (s.upd (fun d => if l < 4 then d.lidApply l else d))

/-! ## Sweeps (R88, R89) -/

/-- A sweep of link `l` starts at `t`: pending values take effect, SEQ counts. Without a free buffer it is dropped. DEDUCED: log entry 65. -/
def Dev.openSweep (d : Dev) (l t : Nat) : Dev :=
  let s := 32 + l
  let d := if d.on (F.LAM_LID_CFG.PENDING l) then d.lidTake l else d
  let seq := (d.strm s).nextSeq
  let d := d.seqStart s
  match d.freeBuf s with
  | none => (d.lamDrop s).modStrm s (fun r => { r with skip := true })
  | some (i, a) => d.modStrm s (fun r => { r with skip := false, sweep := some ⟨i, a, seq, t, t, none, 0, 0, 0, 0, 0, 0, 0⟩ })
def Dev.modSweep (d : Dev) (s : Nat) (f : Sweep → Sweep) : Dev := d.modStrm s (fun r => { r with sweep := r.sweep.map f })
/-- A sweep of a link fails. -/
def Dev.lidFail (d : Dev) (l reason : Nat) : Dev := d.lamFail (32 + l) reason (0x8020 + l)
/-- The header of a lidar buffer (Table 4). -/
def Sweep.header (w : Sweep) (s : Nat) (points : Bool) : List Nat :=
  leBytes 8 (w.firstTs.getD 0) ++ leBytes 8 w.lastTs ++ leBytes 4 w.seq ++ leBytes 4 0 ++ leBytes 4 w.count ++
  [s, b2n points, 0, 0] ++ leBytes 4 0 ++ leBytes 4 64 ++ leBytes 4 w.dropped ++ List.replicate 20 0
/-- The sweep in progress ends at a boundary of Table 8: it passes, or has dropped too many points. A link that waited for a sweep
start waits no longer. -/
def Dev.endSweep (d : Dev) (l : Nat) : Dev :=
  let s := 32 + l
  let c := lidCfg d.live l
  let d := match (d.strm s).sweep with
    | none => d
    | some w =>
      if c.dropPct * w.parsed < 100 * w.dropped then d.lidFail l 4
      else d.lamPass s w.idx w.addr w.seq (w.firstTs.getD 0) (64 + w.used) (w.header s c.points)
  d.modStrm s (fun r => { r with skip := false })
/-- The Kalends tick ends the sweeps of TICK links. -/
def Dev.lamTick (d : Dev) : Dev :=
  (List.range 4).foldl (fun d l =>
    if d.on (F.LAM_LID_CFG.EN l) && d.live (F.LAM_LID_CFG.SPLIT l) == 2 then d.endSweep l else d) d

/-! ## Points (R85 to R88) -/

/-- The integer that a field reads, and its quantity. -/
def LidCfg.value (c : LidCfg) (f : LidField) (b j : Nat) (l : List Nat) : Num :=
  let bs := (l.drop (c.startOf f b j)).take f.bytes
  let v := (if f.be then beNat bs else leNat bs) / 2 ^ f.bitOfs % 2 ^ f.width
  ((Num.ofInt (if f.signed then toSigned f.width v else v)).mul (ofBits32 f.scale)).1
/-- The field of a target, if it has one. DEDUCED: log entry 66. -/
def LidCfg.field (c : LidCfg) (t : Nat) : Option LidField := c.used.find? (fun f => f.target == t && f.scope != 3)
/-- DEDUCED: log entry 67. -/
def LidCfg.quantity (c : LidCfg) (t b j : Nat) (l : List Nat) : Num :=
  match c.field t with
  | some f => c.value f b j l
  | none => numZero
/-- A quantity as an integer, to nearest even. What an infinite one reads as is not stated: a free value. DEDUCED: log entry 67. -/
def Num.whole (a : Num) : Int :=
  match a with
  | .fin s m e => Num.rne s m e
  | _ => (Config.freeResult 7 [a.toBits32] : Nat)
def Num.finite : Num → Bool
  | .fin _ _ _ => true
  | _ => false

/-- The azimuth code of a point of a POLAR link (R86): AZIMUTH × 65,536 / 360, to nearest even. -/
def azCode (a : Num) : Nat :=
  match a with
  | .fin s m e =>
    let n := m * 65536 * pow2 e
    let k := 360 * pow2 (-e)
    let q := n / k
    let r := 2 * (n % k)
    let q := if r < k ∨ (r = k ∧ q % 2 = 0) then q else q + 1
    ((sgn s q) % 65536).toNat
  | _ => Config.freeResult 8 [a.toBits32] % 65536

/-- The coordinates of a point (R86). -/
def Dev.coords (d : Dev) (l : Nat) (c : LidCfg) (b j : Nat) (p : List Nat) : List Num :=
  let q := fun t => c.quantity t b j p
  if !c.polar then [q 1, q 2, q 3] else
  let ch := ((q 5).whole % 256).toNat
  let el := fun k => ofBits32 (d.f (F.LAM_LID_ELEV.DATA l (2 * ch + k)))
  let a := azCode (q 2)
  let rc := ((q 1).mul (el 0)).1
  [(rc.mul (cos16 a)).1, (rc.mul (sin16 a)).1, ((q 1).mul (el 1)).1]
/-- The time of a point (R87), as a signed number of ns. DEDUCED: log entry 65. -/
def LidCfg.timeOf (c : LidCfg) (b j : Nat) (p : List Nat) (t : Nat) : Int :=
  match c.field 7 with
  | none => (t : Int) - c.lat
  | some f =>
    let ns := (c.value f b j p).whole % 1000000000
    let base := (t : Int) - (t : Int) % 1000000000 + ns
    let near := fun (x : Int) => ((t : Int) - x).natAbs
    if near (base - 1000000000) ≤ near base then base - 1000000000
    else if near (base + 1000000000) < near base then base + 1000000000 else base

/-- Store a point, drop it, or fail the sweep (R87 to R89). A VALID field reads 0 where its quantity is 0. DESIGN CHOICE: log entry 185. -/
def Dev.takePoint (d : Dev) (l : Nat) (c : LidCfg) (b j : Nat) (p : List Nat) (t : Nat) : Dev :=
  let s := 32 + l
  match (d.strm s).sweep with
  | none => d
  | some w =>
    if (c.field 8).isSome && (c.quantity 8 b j p).isZero then d else
    let d := d.modSweep s (fun w => { w with parsed := w.parsed + 1 })
    let xyz := d.coords l c b j p
    let ts := c.timeOf b j p t
    let first : Int := (w.firstTs.map (fun n => (n : Int))).getD ts
    if xyz.any (fun x => !x.finite || x.abs.gt (ofBits32 c.limit)) || decide ((t : Int) < ts) || decide (ts + c.timeWin < t) ||
        decide (ts < 0) || decide (2147483647 < (ts - first).natAbs) then
      d.modSweep s (fun w => { w with dropped := w.dropped + 1 })
    else if w.count = c.maxPts then d.lidFail l 5
    else
      let q := fun k => (c.quantity k b j p).whole
      let rec_ := xyz.flatMap (fun x => leBytes 4 x.toBits32) ++ leBytes 2 (max 0 (min (q 4) 65535)).toNat ++
        [((q 5) % 256).toNat, ((q 6) % 256).toNat] ++ leBytes 4 (ofSigned 32 (ts - first)) ++ leBytes 4 w.packets
      (d.lamWrite (w.addr + 64 + 24 * w.count) rec_).modSweep s (fun w => { w with
        firstTs := some (w.firstTs.getD ts.toNat), lastTs := ts.toNat, count := w.count + 1, used := w.used + 24 })

/-- Does the azimuth pass SPLIT_AZ between two codes, going upward modulo 65,536 (R89)? Steps of half a turn or more
count as steps downward. DESIGN CHOICE: log entry 185. -/
def passes (split prev a : Nat) : Bool :=
  let up := (a + 65536 - prev) % 65536
  let at_ := (split + 65536 - prev) % 65536
  up != 0 && decide (up < 32768) && at_ != 0 && decide (at_ ≤ up)
/-- Note the code of a point, skipped and dropped ones too, and whether the sweep boundary lies before it. DESIGN CHOICE: log entry 185.
DEDUCED: log entry 64. -/
def Dev.azimuth (d : Dev) (s : Nat) (c : LidCfg) (b j : Nat) (p : List Nat) : Dev × Bool :=
  if c.split != 0 || !c.polar then (d, false) else
  let a := azCode (c.quantity 2 b j p)
  let cross := match (d.strm s).prevAz with
    | some q => passes c.splitAz q a
    | none => false
  (d.modStrm s (fun r => { r with prevAz := some a }), cross)
/-- Does a sweep end after point `j` of block `b` (FLAG)? A SWEEP_END field is non-zero where its quantity is. DESIGN CHOICE: log entry 185.
DEDUCED: log entry 64. -/
def LidCfg.flagAfter (c : LidCfg) (b j : Nat) (p : List Nat) : Bool :=
  c.split == 1 && (match c.field 9 with
    | none => false
    | some f => !(c.value f b j p).isZero && (f.scope == 2 || (j + 1 == c.ppb && (f.scope == 1 || b + 1 == c.blocks))))

/-- The bytes of a datagram go into the sweep in progress (R88). -/
def Dev.storeRec (d : Dev) (l : Nat) (p : List Nat) (t : Nat) : Dev :=
  let s := 32 + l
  let n := up64 (16 + p.length)
  match (d.strm s).sweep with
  | none => d
  | some w =>
    let ts := t - (lidCfg d.live l).lat
    (d.lamWrite (w.addr + 64 + w.used) (padTo n (leBytes 8 t ++ leBytes 2 p.length ++ List.replicate 6 0 ++ p))).modSweep s
      (fun w => { w with firstTs := some (w.firstTs.getD ts), lastTs := ts, count := w.count + 1, used := w.used + n })
/-- A sweep starts where none is in progress, unless the link waits for a sweep start. -/
def Dev.needSweep (d : Dev) (l t : Nat) : Dev :=
  if (d.strm (32 + l)).sweep.isNone && !(d.strm (32 + l)).skip then d.openSweep l t else d
/-- The points of a datagram from point `j` of block `b` on, in order, each under the values in force: those of its sweep (R84). Where a
sweep that starts here has PATH PACKET, it takes the datagram whole. DEDUCED: log entry 63. -/
def Dev.points (l : Nat) (p : List Nat) (t : Nat) : Nat → Dev → Nat → Nat → Dev
  | 0, d, _, _ => d
  | n + 1, d, b, j =>
    let c := lidCfg d.live l
    if c.blocks ≤ b then d else
    let (d, cross) := d.azimuth (32 + l) c b j p
    let d := (if cross then d.endSweep l else d).needSweep l t
    let c := lidCfg d.live l
    if !c.points then d.storeRec l p t else
    let d := d.takePoint l c b j p t
    let d := if c.flagAfter b j p then d.endSweep l else d
    if j + 1 < c.ppb then Dev.points l p t n d b (j + 1) else Dev.points l p t n d (b + 1) 0
/-- All points of a datagram: as many as the values in force and those that may follow them have. -/
def Dev.allPoints (d : Dev) (l : Nat) (p : List Nat) (t : Nat) : Dev :=
  let m := fun (d : Dev) => (lidCfg d.live l).blocks * (lidCfg d.live l).ppb
  Dev.points l p t (m d + m (d.lidTake l)) d 0 0
def LidCfg.pointList (c : LidCfg) : List (Nat × Nat) :=
  (List.range c.blocks).flatMap (fun b => (List.range c.ppb).map (fun j => (b, j)))

/-- A datagram stored whole on a PACKET link (R88). A boundary of AZIMUTH or FLAG falls before or after the datagram that holds it.
Where the sweep that starts has PATH POINTS, its points are stored. DEDUCED: log entry 63. -/
def Dev.storePacket (d : Dev) (l : Nat) (p : List Nat) (t : Nat) : Dev :=
  let s := 32 + l
  let c := lidCfg d.live l
  let r := if c.split = 2 then (d, false) else
    c.pointList.foldl (fun (q : Dev × Bool) bj => let x := q.1.azimuth s c bj.1 bj.2 p; (x.1, q.2 || x.2)) (d, false)
  let flag := c.split == 1 && c.pointList.any (fun bj => c.flagAfter bj.1 bj.2 p)
  let d := if r.2 then r.1.endSweep l else r.1
  let d := match (d.strm s).sweep with
    | some w => if c.cap * 65536 < w.used + up64 (16 + p.length) then d.endSweep l else d
    | none => d
  let d := d.needSweep l t
  if (lidCfg d.live l).points then d.allPoints l p t else
  let d := d.storeRec l p t
  if flag then d.endSweep l else d

/-! ## Ethernet (R83) -/

/-- A 16-bit one's complement sum. -/
def onesSum : List Nat → Nat
  | a :: b :: l => a * 256 + b + onesSum l
  | [a] => a * 256
  | [] => 0
def fold16 (n : Nat) : Nat := if n = 0 then 0 else (n - 1) % 65535 + 1
/-- An unfragmented IPv4 UDP datagram in an untagged or single-tagged frame: source address, destination port, payload, and whether a
non-zero checksum fails. DEDUCED: log entry 68. -/
def udpOf (l : List Nat) : Option (Nat × Nat × List Nat × Bool) :=
  let et := fun o => beNat ((l.drop o).take 2)
  let o := if et 12 = 0x8100 then 18 else 14
  let ip := l.drop o
  let ihl := ip.getD 0 0 % 16 * 4
  let total := beNat ((ip.drop 2).take 2)
  let udp := (ip.take total).drop ihl
  let n := beNat ((udp.drop 4).take 2)
  if et (o - 2) ≠ 0x0800 ∨ ip.getD 0 0 / 16 ≠ 4 ∨ ihl < 20 ∨ ip.length < total ∨ total < ihl + 8 ∨
     beNat ((ip.drop 6).take 2) % 0x4000 ≠ 0 ∨ ip.getD 9 0 ≠ 17 ∨ n < 8 ∨ udp.length < n then none else
  let u := udp.take n
  let sum := onesSum ((ip.drop 12).take 8) + 17 + n + onesSum u
  some (beNat ((ip.drop 12).take 4), beNat ((u.drop 2).take 2), u.drop 8, u.getD 6 0 + u.getD 7 0 != 0 && fold16 sum != 65535)

/-- A timer of an open sweep has run out (R90, R91); 0 if none. -/
def Dev.sweepLate (d : Dev) (l t : Nat) : Nat :=
  let c := lidCfg d.live l
  match (d.strm (32 + l)).sweep with
  | none => 0
  | some w => if w.lastT + c.gap * 1000 < t then 1 else if w.startT + c.sweep * 100000 < t then 2 else 0

/-- An accepted datagram of link `l`; `bad` says that its checksum fails. One that starts a sweep is read under the values that take
effect with it (R84); one shorter than its layout is lost (R85), and counts in the sweep in progress, if there is one; it does not advance the
packet index. DESIGN CHOICE: log entry 190. -/
def Dev.datagram (d : Dev) (l : Nat) (p : List Nat) (bad : Bool) (t : Nat) : Dev :=
  let s := 32 + l
  let late := d.sweepLate l t
  let d := if late = 0 then d else d.lidFail l late
  let start := (d.strm s).sweep.isNone && !(d.strm s).skip && d.on (F.LAM_LID_CFG.PENDING l)
  let e := if start then d.lidTake l else d
  let c := lidCfg e.live l
  if bad || p.length < c.need then
    let d := d.modSweep s (fun w => { w with lost := w.lost + 1 })
    match (d.strm s).sweep with
    | some w => if c.lossMax < w.lost then d.lidFail l 3 else d
    | none => d
  else
    let d := e.modSweep s (fun w => { w with lastT := t })
    let d := if c.points then d.allPoints l p t else d.storePacket l p t
    d.modSweep s (fun w => { w with packets := w.packets + 1 })

/-- ETHERNET_FRAME: the bytes from the destination address to the last before the FCS. An IEEE 802.1AS frame goes to Almanac, whose
commands say what it does there; a datagram of the link, by the filter in force, goes to its parser; everything else is discarded.
DESIGN CHOICE: log entry 190. DEDUCED: log entries 68, 69. -/
def Dev.ethFrame (d : Dev) (mac : Nat) (bytes : List Nat) (fcsOk : Bool) (t : Nat) : Dev :=
  if 4 ≤ mac || !fcsOk || 9014 < bytes.length || !d.lamOn || !d.on (F.LAM_LID_CFG.EN mac) then d else
  match udpOf bytes with
  | none => d
  | some (src, port, p, bad) =>
    let port0 := d.live (F.LAM_LID_UDP.DST_PORT mac)
    let src0 := d.live (F.LAM_LID_SRC_IP.SRC_IP mac)
    if (port0 = 0 ∨ port0 = port) ∧ (src0 = 0 ∨ src0 = src) then (d.at_ t).datagram mac p bad t else d
def execEthernetFrame (mac : Nat) (bytes : List Nat) (fcsOk : Bool) (t : Nat) (s : State) : Res :=
  .next (s.upd (fun d => d.ethFrame mac bytes fcsOk t))

/-- GAP_TIMEOUT (R90, R91). -/
def Dev.gapTimeout (d : Dev) (l t : Nat) : Dev := if d.sweepLate l t = 1 then (d.at_ t).lidFail l 1 else d
def execGapTimeout (l t : Nat) (s : State) : Res := .next (s.upd (fun d => d.gapTimeout l t))
/-- SWEEP_TIMEOUT (R90, R91). -/
def Dev.sweepTimeout (d : Dev) (l t : Nat) : Dev :=
  match (d.strm (32 + l)).sweep with
  | none => d
  | some w => if w.startT + (lidCfg d.live l).sweep * 100000 < t then (d.at_ t).lidFail l 2 else d
def execSweepTimeout (l t : Nat) (s : State) : Res := .next (s.upd (fun d => d.sweepTimeout l t))

end Sys2Proof.Machine
end

