-- ==== Sys2Proof/Machine/Pwr.lean ====
section
/-!
DEFINITION. Tithe (R464 to R479, R523): requests and floors, learned powers, the allocation, operating-point changes, telemetry, droop,
thermal and alert defences.
-/
namespace Sys2Proof.Machine

/-! ## Regions, requests and floors (R468) -/

/-- The partitions that own a cluster of a region (R305). -/
def Dev.owners6 (d : Dev) (r : Nat) : List Nat := ([0, 1, 2, 3].map (fun c => d.cluPart (4 * r + c))).eraseDups
/-- The phase in progress. -/
def Dev.phaseNow (d : Dev) : Option PhaseEntry :=
  match d.plan, d.frame.phase with
  | some v, some n => v.phases[n]?
  | _, _ => none
/-- The request of a partition. -/
def Dev.request (d : Dev) (f : Nat) : Nat :=
  match d.phaseNow with
  | none => d.f (F.PWR_PART_CFG.RING_OPP f)
  | some p =>
    let busy := (List.range p.taskCount).any (fun i => match d.task (p.firstTask + i), d.slotOf (p.firstTask + i) with
      | some k, some s => s.part == f && k.released && !k.ended
      | _, _ => false)
    if busy then p.opp else d.f (F.PWR_PART_CFG.RING_OPP f)
/-- The request of a region. -/
def Dev.regRequest (d : Dev) (r : Nat) : Nat := ((d.owners6 r).map d.request).foldl Nat.min 7
/-- The floor of a region. -/
def Dev.regFloor (d : Dev) (r : Nat) : Nat :=
  (((d.owners6 r).filter d.safetyPart).map (fun f => d.live (F.PWR_PART_CFG.FLOOR f))).foldl Nat.min 7
/-- The largest weight of the partitions of a region. -/
def Dev.regWeight (d : Dev) (r : Nat) : Nat := ((d.owners6 r).map (fun f => d.live (F.PWR_PART_CFG.WEIGHT f))).foldl Nat.max 1

/-! ## Learned powers (R469) -/

/-- The normalised power of a region, in mW. DEDUCED: log entry 152. -/
def Dev.pn (d : Dev) (r : Nat) : Rat :=
  match mfind d.pwr.learned (d.learnKey r) with
  | some l => meanRat l
  | none => 24000

/-! ## The allocation (R470 to R472, R475) -/

/-- The effective cap in mW (R472, R477). DEDUCED: log entry 153. -/
def Dev.effCap (d : Dev) : Nat := Nat.max (Nat.min (d.f F.PWR_CTRL.CAP_W) d.capMin * 1000) (d.f F.PWR_CTRL.CAP_W * 1000 - d.pwr.capCut)
/-- Package power less the on-die power of the regions, mean over the last ms. DEDUCED: log entry 153. -/
def Dev.basePower (d : Dev) : Rat := 
  meanRat (d.pwr.polls.map (fun p => (p : Rat))) - meanRat (d.pwr.samples.map (fun p => (sumNat (p.2.map Prod.fst) : Rat)))
/-- Predicted power of a region at a point. -/
def Dev.predict (d : Dev) (r k : Nat) : Rat := d.pn r * sK k
/-- The region that the allocation lowers next, if one may still be lowered: the largest prediction over weight, the lowest number on
a tie. -/
def Dev.nextLower (d : Dev) (opp : List Nat) : Option Nat :=
  let w := fun (r : Nat) => d.predict r (opp.getD r 7) / (d.regWeight r : Rat)
  (d.regions.filter (fun r => opp.getD r 7 < d.regFloor r)).foldl (fun (a : Option Nat) r => match a with
    | none => some r
    | some q => if w q < w r then some r else some q) none
/-- The loop of R470: the points reached, and whether the floors alone exceed the budget. -/
def Dev.lowerTo (d : Dev) (budget : Rat) : Nat → List Nat → List Nat × Bool
  | 0, opp => (opp, false)
  | n + 1, opp =>
    if (d.regions.map (fun r => d.predict r (opp.getD r 7))).foldl (· + ·) 0 ≤ budget then (opp, false) else
    match d.nextLower opp with
    | none => (opp, true)
    | some r => Dev.lowerTo d budget n (opp.set r (opp.getD r 0 + 1))
/-- Where the loop starts: the requests; while the model diverges no point below CONS_OPP, unless the floor is lower (R475). -/
def Dev.firstOpp (d : Dev) (r : Nat) : Nat :=
  let q := d.regRequest r
  if d.on F.PWR_STAT.DIVERGED then Nat.max q (Nat.min (d.f F.PWR_CTRL.CONS_OPP) (d.regFloor r)) else q
/-- Does a forcing of R478 hold? -/
def Dev.forced (d : Dev) : Bool := d.on F.PWR_STAT.ALERT || d.on F.PWR_STAT.TRIP
/-- Is Tithe at work? -/
def Dev.tithe (d : Dev) : Bool := !d.forced && d.rst.low == 0 && !d.rst.warm && !d.sec.overLink
/-- The point a region is going to. -/
def Dev.oppTarget (d : Dev) (r : Nat) : Nat :=
  match d.pwr.waiting.getD r none, d.pwr.changing.getD r none with
  | some k, _ => k
  | none, some k => k
  | none, none => d.pwr.opp.getD r 0
/-- Ask for a point: a change in progress is finished first (R467). DEDUCED: log entry 155. -/
def Dev.askOpp (d : Dev) (r k : Nat) : Dev :=
  match d.pwr.changing.getD r none with
  | some c => { d with pwr := { d.pwr with waiting := d.pwr.waiting.set r (if c = k then none else some k) } }
  | none => if d.pwr.opp.getD r 0 = k then d else { d with pwr := { d.pwr with changing := d.pwr.changing.set r (some k) } }
/-- A region has reached a point; what its instructions have run so far, they ran at the old one (R40), and so was its energy used (R469). -/
def Dev.reachOpp (d : Dev) (r k : Nat) : Dev :=
  let d := d.settle.energyNow
  Dev.set { d with pwr := { d.pwr with opp := d.pwr.opp.set r k } } (F.PWR_REG_STAT.OPP r) k

/-- ALLOCATION. The partition settings written since the last one take effect (R473). DEDUCED: log entry 154. -/
def Dev.allocate (d : Dev) : Dev :=
  let d := (d.stage (R.PWR_PART_CFG 0) (R.PWR_PART_CFG 16)).enforce (R.PWR_PART_CFG 0) (R.PWR_PART_CFG 16)
  let x := d.lowerTo ((d.effCap : Rat) - d.basePower) 49 ((List.range 6).map d.firstOpp)
  let d := d.regions.foldl (fun (d : Dev) r =>
    ((d.set (F.PWR_REG_STAT.REQ r) (d.regRequest r)).set (F.PWR_REG_STAT.FLOOR r) (d.regFloor r)).askOpp r (x.1.getD r 7)) d
  d.set F.PWR_STAT.FLOOR_LIMITED (b2n x.2)
def execAllocation (t : Nat) (s : State) : Res := .next (s.upd (fun d => if d.tithe then (d.at_ t).allocate else d.at_ t))

/-- OVER_CAP_STEP (R471): one step in a ms. DEDUCED: log entry 153. -/
def Dev.overCap (d : Dev) (t : Nat) : Dev :=
  let d := d.at_ t
  if !d.tithe || decide (d.now < d.pwr.overCapAt + 1000000) || meanRat (d.pwr.polls.map (fun p => (p : Rat))) ≤ (d.effCap : Rat) then d else
  match d.nextLower ((List.range 6).map d.oppTarget) with
  | none => d
  | some r => Dev.askOpp { d with pwr := { d.pwr with overCapAt := d.now } } r (d.oppTarget r + 1)
def execOverCapStep (t : Nat) (s : State) : Res := .next (s.upd (fun d => d.overCap t))

/-- OPP_CHANGE_DONE (R467). DEDUCED: log entry 155. -/
def Dev.oppDone (d : Dev) (r t : Nat) : Dev :=
  match d.pwr.changing.getD r none with
  | none => d
  | some k =>
    let d := (d.at_ t).reachOpp r k
    let w := d.pwr.waiting.getD r none
    let d := { d with pwr := { d.pwr with changing := d.pwr.changing.set r none, waiting := d.pwr.waiting.set r none } }
    match w with
    | none => d
    | some k => d.askOpp r k
def execOppChangeDone (region t : Nat) (s : State) : Res := .next (s.upd (fun d => d.oppDone region t))

/-! ## Telemetry (R474, R523) -/

/-- The mean of a telemetry value of a region over the last ms. -/
def Dev.pollMean (d : Dev) (r : Nat) (g : Nat × Nat → Nat) : Nat :=
  let l := d.pwr.samples.map (fun p => g (p.2.getD r (0, 0)))
  if l = [] then 0 else sumNat l / l.length
/-- A sample, every 1 µs, of the on-die monitor and the activity estimate of each region (R474): it speaks of the time since the last one,
and the registers show the means of the last ms. -/
def Dev.sample (d : Dev) (mon : List (Nat × Nat)) : Dev :=
  let d := d.addEnergy mon
  let d := { d with pwr := { d.pwr with samples := (d.pwr.samples.filter (fun q => decide (d.now < q.1 + 1000000))) ++ [(d.now, mon)] } }
  (List.range d.nReg).foldl (fun (d : Dev) r =>
    (d.set (F.PWR_REG_POWER.MW r) (d.pollMean r Prod.fst)).set (F.PWR_REG_EST.MW r) (d.pollMean r Prod.snd)) d
/-- A reading of the regulators, every 100 µs (R474, R523): of each regulator address from 0x40 on, none where nothing answers. The first one
of a part that has probed none finds the devices of the telemetry set. -/
def Dev.poll (d : Dev) (mw : List (Option Nat)) : Dev :=
  let set0 := d.pwr.telemetry.getD ((List.range 8).filter (fun i => (mw.getD i none).isSome))
  let gone := set0.filter (fun i => (mw.getD i none).isNone)
  let pkg := sumNat (set0.map (fun i => (mw.getD i none).getD 0))
  let d := Dev.set { d with pwr := { d.pwr with
    telemetry := some (set0.filter (fun i => (mw.getD i none).isSome)),
    polls := ((d.pwr.polls ++ [pkg]).reverse.take 10).reverse } } F.PWR_PKG_POWER.MW pkg
  gone.foldl (fun (d : Dev) _ => d.raise 0x1E1 (hubUnit 0x81) 0 0) d
/-- PMBUS_POLL: a sample, with the reading of the regulators where one is due. DESIGN CHOICE: log entry 152. -/
def execPmbusPoll (mw : Option (List (Option Nat))) (mon : List (Nat × Nat)) (t : Nat) (s : State) : Res :=
  .next (s.upd (fun d =>
    let d := (d.at_ t).sample mon
    match mw with
    | some l => d.poll l
    | none => d))

/-- At a tick the estimated and the measured energy of the frame are compared (R474, R475). -/
def Dev.powerCompare (d : Dev) : Dev :=
  let e := d.pwr.frameE
  let m := d.pwr.frameM
  let apart := decide (m < 4 * (if e ≤ m then m - e else e - m))
  let a := if apart then d.pwr.apart + 1 else 0
  let b := if apart then 0 else d.pwr.together + 1
  let d := { d with pwr := { d.pwr with frameE := 0, frameM := 0, apart := a, together := b } }
  if 8 ≤ a && !d.on F.PWR_STAT.DIVERGED then (d.set F.PWR_STAT.DIVERGED 1).raise 0x1E0 (hubUnit 0x80) 0 0
  else if 8 ≤ b && d.on F.PWR_STAT.DIVERGED then
    Dev.set { d with pwr := { d.pwr with learned := [] } } F.PWR_STAT.DIVERGED 0
  else d

/-! ## Droop (R476): domains 0 to 5 are the ac domains of the regions, 6 and 7 the fc domains of the dies -/

def Dev.domainHere (d : Dev) (n : Nat) : Bool := if n < 6 then n < d.nReg else n < 8 && (n == 6 || !d.oneDie)
/-- DROOP. -/
def Dev.droop (d : Dev) (n t : Nat) : Dev :=
  if !d.domainHere n || d.pwr.stretched.contains n then d else
  let d := (d.at_ t).settle
  let d := Dev.addSat { d with pwr := { d.pwr with stretched := insNat d.pwr.stretched n } } F.PWR_DROOP.COUNT 1
  let d := if n < 6 then d.set (F.PWR_REG_STAT.STRETCH n) 1 else d
  d.raise 0x1E2 (if n < 6 then regUnit 4 n else hbmUnit (n - 6)) 0 0
def execDroop (domain t : Nat) (s : State) : Res := .next (s.upd (fun d => d.droop domain t))
/-- STRETCH_END. -/
def Dev.stretchEnd (d : Dev) (n t : Nat) : Dev :=
  if !d.pwr.stretched.contains n then d else
  let d := (d.at_ t).settle
  let d := { d with pwr := { d.pwr with stretched := d.pwr.stretched.filter (fun x => x != n) } }
  if n < 6 then d.set (F.PWR_REG_STAT.STRETCH n) 0 else d
def execStretchEnd (domain t : Nat) (s : State) : Res := .next (s.upd (fun d => d.stretchEnd domain t))

/-! ## Temperature (R477, R478): junction sensors of regions 0 to 5 and the two of the hub die; one reading for each HBM stack -/

/-- The junction readings of the sensors the part has. -/
def Dev.hereJ (d : Dev) (junction : List Int) : List Int := junction.take d.nReg ++ junction.drop 6
def Dev.hereH (d : Dev) (hbm : List Int) : List Int := hbm.take d.nStacks
/-- New readings (Table 5 of R479). -/
def Dev.sense (d : Dev) (junction hbm : List Int) (t : Nat) : Dev :=
  let d := { d.at_ t with pwr := { d.pwr with junction := junction, hbmTemp := hbm } }
  let d := (List.range d.nReg).foldl (fun (d : Dev) r => d.set (F.PWR_REG_STAT.TEMP_C r) (ofSigned 8 (junction.getD r 0))) d
  (d.set F.PWR_HBM_TEMP.STACK0 (ofSigned 8 (hbm.getD 0 0))).set F.PWR_HBM_TEMP.STACK1 (if d.oneDie then 0 else ofSigned 8 (hbm.getD 1 0))
/-- Does a sensor read at or above a level? -/
def Dev.hot (d : Dev) (junction hbm : List Int) (j h : Int) : Bool :=
  (d.hereJ junction).any (fun x => decide (j ≤ x)) || (d.hereH hbm).any (fun x => decide (h ≤ x))
def Dev.warnJ (d : Dev) : Int := d.f F.PWR_THERM.WARN_J
def Dev.warnH (d : Dev) : Int := d.f F.PWR_THERM.WARN_HBM
/-- THERMAL_WARN: raised once at each rise of THERM_WARN. -/
def Dev.thermWarn (d : Dev) (junction hbm : List Int) (t : Nat) : Dev :=
  let d := d.sense junction hbm t
  if !d.hot junction hbm d.warnJ d.warnH || d.on F.PWR_STAT.THERM_WARN then d
  else (Dev.set { d with pwr := { d.pwr with capStepAt := d.now } } F.PWR_STAT.THERM_WARN 1).raise 0x1E3 (hubUnit 0x82) 0 0
def execThermalWarn (junction hbm : List Int) (t : Nat) (s : State) : Res := .next (s.upd (fun d => d.thermWarn junction hbm t))
/-- THERM_WARN_CLEAR. -/
def Dev.warnClear (d : Dev) (junction hbm : List Int) (t : Nat) : Dev :=
  let d := d.sense junction hbm t
  if d.hot junction hbm d.warnJ d.warnH then d else d.set F.PWR_STAT.THERM_WARN 0
def execThermWarnClear (junction hbm : List Int) (t : Nat) (s : State) : Res := .next (s.upd (fun d => d.warnClear junction hbm t))
/-- THERM_CAP_STEP, every 10 ms: 5 % of CAP_W down while the warning stands, up once every sensor reads at least 3 °C below its level.
DEDUCED: log entry 153. -/
def Dev.capStep (d : Dev) (junction hbm : List Int) (t : Nat) : Dev :=
  let d := d.sense junction hbm t
  if d.now < d.pwr.capStepAt + 10000000 then d else
  let cap := d.f F.PWR_CTRL.CAP_W
  let most := cap * 1000 - d.capMin * 1000
  let cut := if d.on F.PWR_STAT.THERM_WARN then Nat.min (d.pwr.capCut + 50 * cap) most
    else if d.hot junction hbm (d.warnJ - 2) (d.warnH - 2) then d.pwr.capCut else Nat.min d.pwr.capCut most - 50 * cap
  let d := { d with pwr := { d.pwr with capCut := cut, capStepAt := d.now } }
  d.set F.PWR_STAT.EFF_CAP_W (d.effCap / 1000)
def execThermCapStep (junction hbm : List Int) (t : Nat) (s : State) : Res := .next (s.upd (fun d => d.capStep junction hbm t))

/-- Every region is at OPP7 at once (R478). -/
def Dev.forceLow (d : Dev) : Dev :=
  let d := { d with pwr := { d.pwr with changing := List.replicate 6 none, waiting := List.replicate 6 none } }
  d.regions.foldl (fun (d : Dev) r => d.reachOpp r 7) d
/-- PWR_ALERT. A cause that returns during the hold restarts it. -/
def Dev.alert (d : Dev) (t : Nat) : Dev :=
  if d.pwr.alertCause then d else
  let d := { d.at_ t with pwr := { d.pwr with alertCause := true, alertHold := none } }
  (Dev.forceLow (d.set F.PWR_STAT.ALERT 1)).raise 0x1E1 (hubUnit 0x81) 0 0
def execPwrAlert (t : Nat) (s : State) : Res := .next (s.upd (fun d => d.alert t))
/-- The end of the hold that a cause's end starts. -/
def Dev.holdEnd (d : Dev) : Nat := d.now + d.f F.PWR_CTRL.ALERT_HOLD_MS * 1000000
/-- PWR_ALERT_RELEASE. -/
def Dev.alertRelease (d : Dev) (t : Nat) : Dev :=
  if !d.pwr.alertCause then d else
  let d := d.at_ t
  { d with pwr := { d.pwr with alertCause := false, alertHold := some d.holdEnd } }
def execPwrAlertRelease (t : Nat) (s : State) : Res := .next (s.upd (fun d => d.alertRelease t))
/-- THERMAL_TRIP. -/
def Dev.trip (d : Dev) (junction hbm : List Int) (t : Nat) : Dev :=
  let d := d.sense junction hbm t
  if !d.hot junction hbm 115 105 || d.pwr.tripCause then d else
  let d := { d with pwr := { d.pwr with tripCause := true, tripHold := none } }
  (Dev.forceLow (d.set F.PWR_STAT.TRIP 1)).raise 0x1E4 (hubUnit 0x82) 0 0
def execThermalTrip (junction hbm : List Int) (t : Nat) (s : State) : Res := .next (s.upd (fun d => d.trip junction hbm t))
/-- TRIP_CAUSE_END. -/
def Dev.tripEnd (d : Dev) (junction hbm : List Int) (t : Nat) : Dev :=
  let d := d.sense junction hbm t
  if d.hot junction hbm 115 105 || !d.pwr.tripCause then d else
  { d with pwr := { d.pwr with tripCause := false, tripHold := some d.holdEnd } }
def execTripCauseEnd (junction hbm : List Int) (t : Nat) (s : State) : Res := .next (s.upd (fun d => d.tripEnd junction hbm t))
/-- FORCING_HOLD_EXPIRY: Tithe resumes when neither forcing holds. -/
def Dev.holdExpiry (d : Dev) (trip : Bool) (t : Nat) : Dev :=
  let due := match (if trip then d.pwr.tripHold else d.pwr.alertHold) with
    | some h => decide (h ≤ Nat.max d.now t)
    | none => false
  if !due then d else
  let d := d.at_ t
  let d := if trip then Dev.set { d with pwr := { d.pwr with tripHold := none } } F.PWR_STAT.TRIP 0
    else Dev.set { d with pwr := { d.pwr with alertHold := none } } F.PWR_STAT.ALERT 0
  if d.tithe then d.allocate else d
def execForcingHoldExpiry (trip : Bool) (t : Nat) (s : State) : Res := .next (s.upd (fun d => d.holdExpiry trip t))

/-! ## PWR_PART_CFG (R473, R479) -/

def Dev.pwrBad (d : Dev) : Dev := d.set F.PWR_CTRL.BAD_CFG 1
/-- PWR_PART_CFG_WRITE. Under LOCK a host write leaves FLOOR alone and sets BAD_CFG (R479). DEDUCED: log entry 154. -/
def Dev.partCfg (d : Dev) (who : Who) (f value : Nat) : Dev :=
  let old := d.f (F.PWR_PART_CFG.FLOOR f)
  let new := bits value 5 3
  let locked := d.on F.FLT_CTRL.LOCK && decide (who ≠ .computus)
  if !pfOrC who then d else
  if bits value 13 6 = 0 then d.pwrBad else
  if !locked && old < new && (d.safetyAny f || d.bankNames (fun s => s.part == f && s.safety)) then d.pwrBad else
  let d := (d.set (F.PWR_PART_CFG.RING_OPP f) value).set (F.PWR_PART_CFG.WEIGHT f) (bits value 13 6)
  if locked then d.pwrBad else d.set (F.PWR_PART_CFG.FLOOR f) new
def execPwrPartCfgWrite (who : Who) (f value : Nat) (s : State) : Res :=
  .next (s.upd (fun d => if f < 16 then d.partCfg who f value else d))

end Sys2Proof.Machine
end

