-- ==== Sys2Proof/Machine/Flags.lean ====
section
/-!
DEFINITION. The element-wise operations on values, with the arithmetic flags they set (R179, R185, R187, R189).
-/
namespace Sys2Proof.Machine

/-- Does an element-wise operation read b; c; the scalars s0 and s1 (Table 3 of R187)? -/
def opB (op : Nat) : Bool := [0x01, 0x02, 0x03, 0x04, 0x05, 0x06, 0x10].contains op
def opC (op : Nat) : Bool := op == 0x04
def opS (op : Nat) : Bool := op == 0x0A || op == 0x0B
/-- Is the operation allowed in the INT32 domain; in the FP32 domain? -/
def opInt (op : Nat) : Bool := op ≤ 0x0B || op == 0x10 || op == 0x11 || op == 0x12 || op == 0x13
def opFp (op : Nat) : Bool := op ≤ 0x15 && op != 0x11

/-- The result of an FP32-domain operation. -/
def fpVal (op : Nat) (a b c s0 s1 : Num) : Num :=
  match op with
  | 0x00 => a
  | 0x01 => (a.add b).1
  | 0x02 => (a.sub b).1
  | 0x03 => (a.mul b).1
  | 0x04 => (a.fma b c).1
  | 0x05 => a.max b
  | 0x06 => a.min b
  | 0x07 => a.abs
  | 0x08 => a.neg
  | 0x09 => if a.isNan then .nan else if a.pos then a else numZero
  | 0x0A => (a.max s0).min s1
  | 0x0B => (a.fma s0 s1).1
  | 0x0C => a.exp
  | 0x0D => a.recip
  | 0x0E => a.sqrt.1
  | 0x0F => a.rsqrt.1
  | 0x10 => if a.isNan then .nan else if a.pos then b else numZero
  | _ => a

/-- The operands an operation reads beside a. -/
def fpRest (op : Nat) (b c s0 s1 : Num) : List Num :=
  (if opB op then [b] else []) ++ (if opC op then [c] else []) ++ (if opS op then [s0, s1] else [])

/-- An FP32-domain operation with its flags: NAN_IN for a NaN among the operands it reads, NAN_GEN for a NaN out of none (R185). An infinity
times 0 whose addend is a NaN sets NAN_IN alone. DESIGN CHOICE: log entry 207. -/
def fpOp (op : Nat) (a b c s0 s1 : Num) : Num × Nat :=
  let r := fpVal op a b c s0 s1
  let l := a :: fpRest op b c s0 s1
  (r, nanIn l ||| (if r.isNan && !l.any Num.isNan then flNanGen else 0))
/-- The same in an epilogue: a NaN accumulator sets no flag (R179, R189). -/
def fpEpi (op : Nat) (acc b c s0 s1 : Num) : Num × Nat :=
  let r := fpVal op acc b c s0 s1
  let l := fpRest op b c s0 s1
  (r, nanIn l ||| (if r.isNan && !acc.isNan && !l.any Num.isNan then flNanGen else 0))

/-- An INT32-domain operation: exact, then saturated, with ACC_SAT. -/
def intVal (op : Nat) (a b c s0 s1 : Int) : Int :=
  match op with
  | 0x01 => a + b
  | 0x02 => a - b
  | 0x03 => a * b
  | 0x04 => a * b + c
  | 0x05 => max a b
  | 0x06 => min a b
  | 0x07 => (a.natAbs : Int)
  | 0x08 => -a
  | 0x09 => if 0 < a then a else 0
  | 0x0A => min (max a s0) s1
  | 0x0B => a * s0 + s1
  | 0x10 => if 0 < a then b else 0
  | _ => a
def intOp (op : Nat) (a b c s0 s1 : Int) : Int × Nat := satI32 (intVal op a b c s0 s1)

/-- One accumulation step of an FP32 MM: a product of exact operands, negated under NEG bit 0, added and rounded once; a zero sum is +0
(R177, R178, R182). DEDUCED: log entry 105. -/
def mmStep (neg : Bool) (acc a b : Num) : Num × Nat :=
  let a' := if neg then a.neg else a
  let r := (a'.fma b acc).1
  let r := match r with
    | .fin _ 0 _ => numZero
    | x => x
  let gen := (a.isZero && !b.isNan && !b.isZero && (match b with | .inf _ => true | _ => false)) ||
    (b.isZero && (match a with | .inf _ => true | _ => false))
  (r, nanIn [a, b] ||| (if !a.isNan && !b.isNan && (gen || (r.isNan && !acc.isNan)) then flNanGen else 0))

/-- Negation as R182 has it: +0 and NaN stay. DEDUCED: log entry 105. -/
def mmNeg (a : Num) : Num := if a.isZero || a.isNan then a else a.neg

/-! ## Sums for Scruple (R336) -/

/-- A non-negative exact value rounded up to FP32. -/
def fp32Up (m : Nat) (e : Int) : Num :=
  let q := fmt32.place m e
  let r := if q ≤ e then (m * pow2 (e - q), q) else
    (let s := (q - e).toNat
     (m / 2 ^ s + if m % 2 ^ s = 0 then 0 else 1, q))
  if fmt32.over r.1 r.2 then .inf false else .fin false r.1 r.2
/-- `a × b + c` of magnitudes, rounded toward +∞. -/
def upFma (a b c : Num) : Num :=
  match a.abs, b.abs, c.abs with
  | .fin _ m e, .fin _ n f, .fin _ k g =>
    let r := dyAdd (m * n : Nat) (e + f) (k : Nat) g
    fp32Up r.1.natAbs r.2
  | _, _, _ => .nan
def Num.isFin : Num → Bool
  | .fin _ _ _ => true
  | _ => false
/-- Is `|s − chk|`, exactly, at most `tau`? -/
def withinTau (s chk tau : Num) : Bool :=
  match s, chk, tau with
  | .fin a m e, .fin b n f, .fin _ k g =>
    let r := dyAdd (sgn a m) e (- sgn b n) f
    let q := dyAdd (r.1.natAbs : Int) r.2 (-(k : Int)) g
    decide (q.1 ≤ 0)
  | _, _, _ => false
/-- tau of R336, for `c` covered accumulators and `k` steps. -/
def tauOf (c k : Nat) (mag : Num) : Num :=
  upFma num1 (upFma (.fin false (2 * k + 4 * c + 8) (-23)) mag numZero) (.fin false ((c + 2) * (k + 2)) (-149))

end Sys2Proof.Machine
end

