-- ==== Sys2Proof/Machine/At.lean ====
section
/-!
DEFINITION. ATTEND (R275 to R285).
-/
namespace Sys2Proof.Machine

/-- The fields of an AT (R213). -/
structure AtF where
  cache : Nat
  hd : Nat
  heads : Nat
  mask : Bool
  scale : Nat
  deriving DecidableEq, Repr
def atFields (i : Ins) : AtF :=
  let x := i.x 0
  ⟨bits x 55 24, bits x 64 56, bits x 76 65, bitOf x 77, bits x 109 78⟩

/-- The operands of an ATTEND on chip, and its page list. -/
structure AtOp where
  q : Acc2
  out : Acc2
  mask : Option Acc2
  pl : PageList
  deriving DecidableEq, Repr

/-- The DTYPE of a page format (R286). -/
def pageDt (fmt : Nat) : Nat := if fmt = 0 then 1 else if fmt = 1 then 3 else 6

/-! ## Checks at issue (R275, R277, R285) -/

/-- Does a page list operand meet Table 1, in its format; in its dimensions and placement? -/
def pagesForm (t : TDesc) : Bool := t.space == 1 && t.dtype == 7 && t.layout == 0
def Dev.pagesPlace (d : Dev) (t : TDesc) (base : Nat) : Bool :=
  t.dim 0 % 4 == 0 && 4 ≤ t.dim 0 && t.dim 0 ≤ 16384 && t.dim 1 == 1 && t.dim 2 == 1 && t.dim 3 == 1 && d.inHbm base (4 * t.dim 0)

/-- Is the instruction's cache a BY_POSITION cache: as the page list kept it, and without one as the cache stands; none when the partition
has no such cache? -/
def Dev.byPosition (d : Dev) (c : Cur) (f : AtF) (pl : Option PageList) : Option Bool :=
  match pl with
  | some l => some (l.spread == 2)
  | none => (mfind d.kv.caches f.cache).bind (fun k => if k.part = c.r.part then some (k.spread == 2) else none)
/-- The checks that rest on fields, descriptors and the page list. DEDUCED: log entry 104. -/
def Dev.atChecks (d : Dev) (c : Cur) (f : AtF) (pl : Option PageList) : List Nat :=
  let q := c.desc 0
  let o := c.desc 1
  let pg := c.desc 3
  let pos := d.byPosition c f pl
  stIf (!([1, 3, 6].contains q.dtype) || q.layout != 0 || !([5, 6, 8].contains o.dtype) || o.layout != 0 || !pagesForm pg ||
    pos.any (fun p => (o.dtype == 8) != p)) stFormat ++
  (if f.mask then let m := c.desc 2
    stIf (m.dtype != 2 || m.layout != 0) stFormat ++ stIf (m.dim 1 != 1 || m.dim 2 != 1 || m.dim 3 != 1) stBounds else []) ++
  stIf (q.dim 0 != f.hd || 65536 < q.dim 1 || q.dim 2 != f.heads || q.dim 3 != 1 ||
    o.dim 0 != f.hd + (if pos.getD false then 2 else 0) || o.dim 1 != q.dim 1 || o.dim 2 != f.heads || o.dim 3 != 1 ||
    !(ofBits32 f.scale).isFin) stBounds ++
  (match pl with
   | some l => stIf (l.headDim != f.hd || f.heads % Nat.max 1 l.kvHeads != 0) stBounds
   | none => []) ++
  (match mfind c.r.snap (c.i.slot 3) with
   | some x => stIf (!d.pagesPlace pg x.base) stBounds ++ stIf (x.base % 64 != 0) stAlign
   | none => [])

/-- Is the operand in the cluster scratchpad of the engine's cluster or the region memory of its region? -/
def atPlaced (c : Cur) (a : Acc2) : Bool := a.pl.unit == cspUnit c.m.k || a.pl.unit == regUnit 4 (c.m.k / 4)

/-- Bytes of the mask. -/
def Dev.maskBytes (d : Dev) (m : Acc2) (o n : Nat) : Nat := leNat (d.mem.sram.readBytes (m.pl.key + o) n)
/-- The size of the directory, and where the bitmaps begin. -/
def maskBmp (tq tk : Nat) : Nat := ceilDiv (64 + 4 * tq * tk) 64 * 64
/-- The checks of the mask header. -/
def Dev.maskHeader (d : Dev) (m : Acc2) (lq : Nat) : List Nat :=
  let tq := d.maskBytes m 0 4
  let tk := d.maskBytes m 4 4
  stIf (d.maskBytes m 8 56 != 0) stReserved ++ stIf (tk == 0) stZero ++
  stIf (tq != ceilDiv lq 64 || 67108864 < tk || m.t.dim 0 < 64 + 4 * tq * tk) stBounds

/-- The directory entry of a query tile and a key tile: ZERO beyond TK, ONE without a mask. -/
def Dev.maskDir (d : Dev) (o : AtOp) (qt kt : Nat) : Nat :=
  match o.mask with
  | none => 1
  | some m => let tk := d.maskBytes m 4 4; if tk ≤ kt then 0 else d.maskBytes m (64 + 4 * (qt * tk + kt)) 4
/-- Is the pair of query row `i` and position `j` admitted (R283, R284)? -/
def Dev.admits (d : Dev) (o : AtOp) (i j : Nat) : Bool :=
  let e := d.maskDir o (i / 64) (j / 64)
  match e % 4, o.mask with
  | 1, _ => true
  | 2, some m =>
    let bmp := maskBmp (d.maskBytes m 0 4) (d.maskBytes m 4 4)
    bitOf (d.maskBytes m (bmp + 512 * (e / 4) + 8 * (i % 64) + j % 64 / 8) 1) (j % 8)
  | _, _ => false
/-- The status of a directory entry when its tile is reached (R285). DEDUCED: log entry 104. -/
def Dev.dirStatus (d : Dev) (o : AtOp) (qt kt : Nat) : List Nat :=
  let e := d.maskDir o qt kt
  match o.mask with
  | none => []
  | some m =>
    let bmp := maskBmp (d.maskBytes m 0 4) (d.maskBytes m 4 4)
    stIf (e % 4 == 3) stFormat ++ stIf (e % 4 < 2 && e / 4 != 0) stReserved ++
    stIf (e % 4 == 2 && m.t.dim 0 < bmp + 512 * (e / 4) + 512) stBounds

/-! ## Pages (R286, R287) -/

/-- Key tiles that hold a listed position, rising. -/
def PageList.tiles (l : PageList) : List Nat :=
  (l.pages.flatMap (fun p => if p.fill = 0 then [] else
    (List.range ((p.pos + p.fill - 1) / 64 + 1 - p.pos / 64)).map (fun i => p.pos / 64 + i))).eraseDups
/-- The listed positions of a tile, rising. -/
def PageList.inTile (l : PageList) (kt : Nat) : List Nat :=
  ((List.range 64).map (fun i => 64 * kt + i)).filter (fun j => l.pages.any (fun p => p.pos ≤ j && j < p.pos + p.fill))
/-- The page of a position. -/
def PageList.pageOf (l : PageList) (j : Nat) : PageSnap := (l.pages.find? (fun p => p.pos ≤ j && j < p.pos + p.fill)).getD ⟨0, 0, 0, 0, 0⟩
/-- Where the key row and the value row of head `h` at position `j` begin. -/
def PageList.keyRow (l : PageList) (p : PageSnap) (h j : Nat) : Nat :=
  p.addr + scaleB l.kvHeads + (h * p.room + (j - p.pos)) * rowB l.headDim p.fmt
def PageList.valRow (l : PageList) (p : PageSnap) (h j : Nat) : Nat :=
  p.addr + scaleB l.kvHeads + (l.kvHeads * p.room + h * p.room + (j - p.pos)) * rowB l.headDim p.fmt
/-- An element of a row in HBM, and a BF16 scale. -/
def Dev.rowEl (d : Dev) (fmt row x : Nat) : Num :=
  elNum (pageDt fmt) (leNat (d.rdHbm (row + x * fmtBytes fmt) (fmtBytes fmt)))
def Dev.scaleAt (d : Dev) (a : Nat) : Num := elNum 6 (leNat (d.rdHbm a 2))

/-! ## Arithmetic (R278 to R281) -/

/-- NAN_GEN for a NaN out of none. -/
def genNan (r : Num) (l : List Num) : Nat := if r.isNan && !l.any Num.isNan then flNanGen else 0

/-- The raw score of query row `i`, head `h`, with key `j`. -/
def Dev.atRaw (d : Dev) (o : AtOp) (i h j : Nat) : Num × Nat :=
  let p := o.pl.pageOf j
  let row := o.pl.keyRow p (h / (o.q.t.dim 2 / Nat.max 1 o.pl.kvHeads)) j
  let dt := o.q.t.dtype
  let xs := List.range o.pl.headDim
  if dt = 1 ∧ p.fmt = 0 then
    (Num.ofInt (xs.foldl (fun (s : Int) x => s + elInt 1 (d.rdEl o.q x i h 0) * elInt 1 (leNat (d.rdHbm (row + x) 1))) 0), 0)
  else xs.foldl (fun (s : Num × Nat) x =>
    let r := mmStep false s.1 (elNum dt (d.rdEl o.q x i h 0)) (d.rowEl p.fmt row x)
    (r.1, s.2 ||| r.2)) (numZero, 0)
/-- The score: `(FP32(raw) × sk) × SCALE`. -/
def Dev.atScore (d : Dev) (o : AtOp) (sc : Num) (i h j : Nat) : Num × Nat :=
  let r := d.atRaw o i h j
  let p := o.pl.pageOf j
  let sk := d.scaleAt (p.addr + 4 * (h / (o.q.t.dim 2 / Nat.max 1 o.pl.kvHeads)))
  let a := (r.1.mul sk).1
  let b := (a.mul sc).1
  (b, r.2 ||| nanIn [sk] ||| genNan a [r.1, sk] ||| genNan b [a, sc])
/-- The value of element `x` at position `j`: `FP32(v[x]) × sv`. -/
def Dev.atVal (d : Dev) (o : AtOp) (h j x : Nat) : Num × Nat :=
  let p := o.pl.pageOf j
  let kh := h / (o.q.t.dim 2 / Nat.max 1 o.pl.kvHeads)
  let v := d.rowEl p.fmt (o.pl.valRow p kh j) x
  let sv := d.scaleAt (p.addr + 4 * kh + 2)
  let r := (v.mul sv).1
  (r, nanIn [v, sv] ||| genNan r [v, sv])

/-- The running state of a row: m, l, acc, the flags, and whether any position was admitted. -/
structure AtRow where
  m : Num
  l : Num
  acc : List Num
  fl : Nat
  some_ : Bool
  deriving DecidableEq, Repr

/-- One key tile of a row. -/
def Dev.atTile (d : Dev) (o : AtOp) (sc : Num) (i h : Nat) (st : AtRow) (kt : Nat) : AtRow :=
  let js := (o.pl.inTile kt).filter (fun j => d.admits o i j)
  if js = [] then st else
  let ss := js.map (fun j => d.atScore o sc i h j)
  let mn := ss.foldl (fun a s => a.max s.1) st.m
  let dm := (st.m.sub mn).1
  let c := dm.exp
  let l0 := (st.l.mul c).1
  let acc0 := st.acc.map (fun a => (a.mul c).1)
  let fl0 := ss.foldl (fun f s => f ||| s.2) st.fl ||| genNan dm [st.m, mn] ||| genNan l0 [st.l, c] |||
    (st.acc.zip acc0).foldl (fun f q => f ||| genNan q.2 [q.1, c]) 0
  (js.zip ss).foldl (fun (s : AtRow) q =>
    let ds := (q.2.1.sub mn).1
    let p := ds.exp
    let l := (s.l.add p).1
    let r := s.acc.mapIdx (fun x a =>
      let v := d.atVal o h q.1 x
      let y := (p.fma v.1 a).1
      (y, v.2 ||| genNan y [p, v.1, a]))
    { s with l := l, acc := r.map Prod.fst,
             fl := r.foldl (fun f z => f ||| z.2) (s.fl ||| genNan ds [q.2.1, mn] ||| genNan l [s.l, p]) })
    { m := mn, l := l0, acc := acc0, fl := fl0, some_ := true }

/-- One row: the elements of OUT with their flags. -/
def Dev.atRow (d : Dev) (f : AtF) (o : AtOp) (i h : Nat) : List Nat × Nat :=
  let st := o.pl.tiles.foldl (d.atTile o (ofBits32 f.scale) i h)
    { m := .inf true, l := numZero, acc := List.replicate o.pl.headDim numZero, fl := 0, some_ := false }
  if o.pl.spread = 2 then
    (st.acc.map Num.toBits32 ++ [if st.some_ then st.m.toBits32 else 0xFF7FFFFF, st.l.toBits32], st.fl)
  else
    let r := st.acc.map (fun a =>
      if !st.some_ then (0, 0) else
      let q := (a.div st.l).1
      let b := outFp o.out.t.dtype .even false q
      (b.1, b.2 ||| genNan q [a, st.l]))
    (r.map Prod.fst, r.foldl (fun x z => x ||| z.2) st.fl)

/-- The query rows in the order of their tiles' visits: run 2 visits heads, and tiles within a head, in descending order (R340). -/
def atRows (oct : Bool) (lq : Nat) : List Nat :=
  (visits oct (List.range (ceilDiv lq 64))).flatMap (fun qt => (List.range (Nat.min 64 (lq - 64 * qt))).map (fun i => 64 * qt + i))
/-- Every row of OUT. -/
def Dev.atRun (d : Dev) (oct : Bool) (f : AtF) (o : AtOp) : Dev × Nat :=
  (visits oct (List.range f.heads)).foldl (fun s h => (atRows oct (o.q.t.dim 1)).foldl (fun (s : Dev × Nat) i =>
    let r := d.atRow f o i h
    ((r.1.foldl (fun (w : Dev × Nat) b => (w.1.wrEl o.out w.2 i h 0 b, w.2 + 1)) (s.1, 0)).1, s.2 ||| r.2)) s) (d, 0)

/-- The device extents that the unit reads: the scales of each page, and the rows of every position in a tile that is not ZERO for all
query tiles (R284). -/
def Dev.atTouched (d : Dev) (o : AtOp) : List Extent :=
  let tq := ceilDiv (o.q.t.dim 1) 64
  let live := o.pl.tiles.filter (fun kt => (List.range tq).any (fun qt => d.maskDir o qt kt % 4 != 0))
  (o.pl.pages.map (fun p => ⟨true, p.addr, p.addr + 4 * o.pl.kvHeads⟩)) ++
  live.flatMap (fun kt => (o.pl.inTile kt).flatMap (fun j =>
    let p := o.pl.pageOf j
    (List.range o.pl.kvHeads).flatMap (fun h =>
      [⟨true, o.pl.keyRow p h j, o.pl.keyRow p h j + rowB o.pl.headDim p.fmt⟩,
       ⟨true, o.pl.valRow p h j, o.pl.valRow p h j + rowB o.pl.headDim p.fmt⟩])))

/-- The status of the first directory entry that fails, in the order in which their tiles are reached. -/
def Dev.atDirs (d : Dev) (oct : Bool) (o : AtOp) : Option Nat :=
  (((visits oct (List.range (ceilDiv (o.q.t.dim 1) 64))).flatMap (fun qt =>
    o.pl.tiles.map (fun kt => firstStatus (d.dirStatus o qt kt)))).filter (fun s => s != 0)).head?

/-- The operands of an ATTEND on chip, located: Q, OUT and the mask. -/
def Dev.atOps (d : Dev) (c : Cur) (g : Nat) (f : AtF) : Except Nat Acc2 × Except Nat Acc2 × Except Nat (Option Acc2) :=
  (d.opd c g 0 false stFormat, d.opd c g 1 true stFormat, if f.mask then (d.opd c g 2 false stFormat).map some else .ok none)
/-- The checks that rest on where the operands lie: placement and overlap (R275), and R157. -/
def atPlaces (c : Cur) (o : AtOp) : List Nat :=
  stIf (!atPlaced c o.q || !atPlaced c o.out || o.mask.any (fun x => !atPlaced c x) || o.out.overlaps o.q || o.mask.any o.out.overlaps)
    stBounds ++
  c.unaligned 0 o.q ++ c.unaligned 1 o.out ++ o.mask.toList.flatMap (c.unaligned 2)
/-- The regions that its selectors declare. -/
def AtOp.regs (c : Cur) (o : AtOp) : List (Nat × Extent) :=
  [(0, o.q.region), (1, o.out.region)] ++ o.mask.toList.map (fun x => (2, x.region)) ++
  (match mfind c.r.snap (c.i.slot 3) with
   | some x => [(3, ⟨true, x.base, x.base + x.desc.extent⟩)]
   | none => [])

/-- ATTEND at issue: the mask header is checked, the directory is not yet (R285). -/
def Dev.attend (d : Dev) (id g t : Nat) : Dev :=
  match d.curOp id g 5 0 with
  | none => d
  | some c =>
    if c.stalls qAttend then d else
    let d := d.at_ t
    let f := atFields c.i
    let pl := mfind c.r.pages c.i.idx
    let ops := d.atOps c g f
    let head := match ops.2.2 with
      | .ok (some x) => d.maskHeader x ((c.desc 0).dim 1)
      | _ => []
    let chk := d.atChecks c f pl ++ head
    match ops, pl with
    | (.ok q, .ok o, .ok m), some pl =>
      let op : AtOp := ⟨q, o, m, pl⟩
      (match firstStatus (chk ++ atPlaces c op) with
      | 0 => d.enqueue id g c qAttend none (op.regs c)
      | st => d.endOwn id st)
    | (q, o, m), pl => d.endOwn id (firstStatus (chk ++ exStatus q ++ exStatus o ++ exStatus m ++ stIf pl.isNone stBounds))
/-- ATTEND (R279). -/
def execAttend (run g t : Nat) (s : State) : Res := .next (s.upd (fun d => d.attend run g t))

/-- ATTEND as it runs. A directory entry that fails when its tile is reached stops the instruction (R285): what it has written of OUT by
then is not defined. -/
def Dev.atDo (d : Dev) (g : Nat) (c : Cur) : Done :=
  let f := atFields c.i
  match d.atOps c g f, mfind c.r.pages c.i.idx with
  | (.ok q, .ok o, .ok m), some pl =>
    let op : AtOp := ⟨q, o, m, pl⟩
    (match d.atDirs c.oct op with
    | some s =>
      { Done.idle (Dev.take { d with mem := { d.mem with sram := d.mem.sram.forget o.pl.key (o.pl.key + o.t.extent) d.fresh } }) with
        stop := some s }
    | none =>
      let r := d.atRun c.oct f op
      { Done.idle r.1 with
        flags := r.2, touched := [q.keys, o.keys] ++ m.toList.map Acc2.keys ++ d.atTouched op, wrote := [o.keys] })
  | _, _ => Done.idle d

end Sys2Proof.Machine
end

