-- ==== Sys2Proof/Machine/Octave.lean ====
section
/-!
DEFINITION. Runs (R218, R339), hold slots and run records (R344 to R346), arbitration (R349 to R353) and the commit phase (R245 to R247,
R355, R356, R441, R443).
-/
namespace Sys2Proof.Machine

/-! ## The start of a run -/

/-- A member at the first word of its entry: every count, counter and flag is 0 (R230). -/
def mkMember (le phys first : Nat) : Member :=
  { le := le, phys := phys, pc := first, counts := [0, 0, 0, 0], iters := [0, 0, 0, 0], latched := [0, 0, 0, 0], loops := [],
    aflags := 0, issued := 0, queues := [[], [], [], []], stall := .none, barriers := 0, sent := [] }
/-- The memories that a run may use are undefined when it is dispatched: those of its units, and the cluster scratchpads and region
memory that no other command on the cluster or region uses. -/
def Dev.forgetFor (d : Dev) (id : Nat) (r : Run) : Dev :=
  let d := d.forgetUnits r.units
  let others := d.runs.filter (fun q => q.1 != id && q.2.holds)
  let d := (r.clusters.filter (fun k => !others.any (fun q => q.2.onClu k))).foldl (fun d k => d.forgetMem (cspUnit k)) d
  let rg := placeReg r.place
  if others.any (fun q => [0, 1, 2, 3].any (fun j => q.2.onClu (rg * 4 + j))) then d else d.forgetMem (regUnit 4 rg)

/-- Run `n` of a command starts on the engines and prep cores given, by logical number and physical unit. The prep-core image stands at
local address 0 of each prep core, and they start at PREP_ENTRY (R218). DEDUCED: log entry 109. -/
def Dev.startRun (d : Dev) (id n : Nat) (engs cores : List (Nat × Nat)) (attn : Option Nat) : Dev :=
  match (mfind d.runs id).bind (fun r => (d.runEntry r).map (fun e => (r, e))) with
  | none => d
  | some (r, m, e) =>
    let r := { r with
      phase := .run n, members := engs.map (fun (q : Nat × Nat) => mkMember q.1 q.2 e.first), prep := cores,
      prepAt := if m.prep = [] then none else some e.prepEntry, xfers := [], attn := attn, pieces := [], signals := [],
      indexRange := false, scrFail := false, scrUnits := [], keep := [] }
    let r := { r with runPhys := mset r.runPhys n r.units }
    let d := Dev.modRun d id (fun _ => r)
    let d := r.units.foldl (fun (d : Dev) u => d.modUnit u (fun s => { s with turn := false })) (d.forgetFor id r)
    if m.prep = [] then d else
    cores.foldl (fun (d : Dev) q => d.wrSram ⟨q.2, 0⟩ m.prep) d

/-- The binding of the Leap map for a command: logical number and physical unit. -/
def Dev.leapEngs (d : Dev) (r : Run) : List (Nat × Nat) := r.gang.filterMap (fun l => (d.engOf (l / 4) (l % 4)).map (fun u => (l, u)))
def Dev.leapCores (d : Dev) (r : Run) : List (Nat × Nat) := r.cores.filterMap (fun l => (d.pcOf (l / 2) (l % 2)).map (fun u => (l, u)))

/-! ## Run records (R344) -/

/-- The PUBLISH list in gang-index order and then issue order (R245). -/
def Run.ordered (r : Run) : List Piece := (List.range r.members.length).flatMap (fun g => r.pieces.filter (fun p => p.g == g))
/-- The bytes of the runs of a PUBLISH source, as they stand. -/
def Dev.srcRuns (d : Dev) (r : Run) (p : Piece) : List (List Nat) :=
  match r.members[p.g]? with
  | none => []
  | some m =>
    match d.placeAt r m.k m.e p.src.base p.src.desc.extent false with
    | none => []
    | some pl => p.src.desc.segs.map (fun s => runBytes p.dst.desc (d.mem.sram.readBytes (pl.key + s.1) s.2))
/-- The command's arithmetic flag word (R185, R230). -/
def Run.flagWord (r : Run) : Nat := r.members.foldl (fun a m => a ||| m.aflags) 0
/-- What the sources of a run occupy on chip. -/
def Dev.srcTouched (d : Dev) (r : Run) (p : Piece) : List Extent :=
  match r.members[p.g]? with
  | none => []
  | some m =>
    match d.placeAt r m.k m.e p.src.base p.src.desc.extent false with
    | none => []
    | some pl => [⟨false, pl.key, pl.key + p.src.desc.extent⟩]
def Dev.srcsTouched (d : Dev) (r : Run) : List Extent := r.ordered.flatMap (d.srcTouched r)
/-- The bytes of each piece of a record, as at END. -/
def RunRec.bytes (c : RunRec) : List (List Nat) := c.data.map List.flatten
/-- What is kept of the run that has reached END: SRC is read as it stands now (R245). -/
def Dev.record (d : Dev) (r : Run) : RunRec :=
  ⟨r.ordered, r.ordered.map (d.srcRuns r), r.ordered.map (fun p => p.src.desc.bytes), r.signals, r.flagWord, r.indexRange, !r.scrFail⟩

/-- The device address of hold slot A or B of a partition (R345). -/
def Dev.slotAddr (d : Dev) (part : Nat) (b : Bool) : Nat := d.f (F.SAF_OCT_HOLD.ADDR part) * 2 ^ 25 + (if b then 0x1000000 else 0)
/-- Where source `i` of a list with these lengths lies in a slot: sources follow one another at multiples of 64 bytes. -/
def slotOfs (lens : List Nat) (i : Nat) : Nat := sumNat ((lens.take i).map (fun n => ceilDiv n 64 * 64))
def slotLen (lens : List Nat) : Nat := slotOfs lens lens.length
/-- Copy the sources of a run to a slot. -/
def Dev.wrSlot (d : Dev) (part : Nat) (c : RunRec) (b : Bool) : Dev :=
  (List.range c.lens.length).foldl (fun e i => e.wrHbm (d.slotAddr part b + slotOfs c.lens i) (c.bytes.getD i [])) d
/-- The bytes of the sources in a slot. -/
def Dev.rdSlot (d : Dev) (part : Nat) (b : Bool) (lens : List Nat) : List (List Nat) :=
  (List.range lens.length).map (fun i => d.rdHbm (d.slotAddr part b + slotOfs lens i) (lens.getD i 0))
/-- What a slot's contents occupy, and the first poisoned granule in it. -/
def Dev.slotTouched (d : Dev) (part : Nat) (b : Bool) (lens : List Nat) : List Extent :=
  [⟨true, d.slotAddr part b, d.slotAddr part b + slotLen lens⟩]
def Dev.slotPoison (d : Dev) (part : Nat) (b : Bool) (lens : List Nat) : Option Nat := (d.poisonIn (d.slotAddr part b) (slotLen lens)).head?

/-- Two records agree when they are equal bit for bit. -/
def agree (a b : RunRec) (ab bb : List (List Nat)) : Bool :=
  a.pieces.map Piece.dst == b.pieces.map Piece.dst && a.lens == b.lens && a.signals == b.signals && a.flags == b.flags &&
  a.indexRange == b.indexRange && ab == bb

/-! ## The end of a run -/

/-- Every member has drained at END (R245, R339, R345, R346, R353). -/
def Dev.runEnded (d : Dev) (id : Nat) : Dev :=
  match mfind d.runs id with
  | none => d
  | some r =>
    let c := d.record r
    let r := { r with recs := mset r.recs (r.runNo.getD 0) c }
    match r.phase with
    | .run 1 =>
      if r.safety then
        if d.inHbm (d.slotAddr r.part false) (slotLen c.lens) then (d.wrSlot r.part c false).modRun id (fun _ => { r with phase := .hold })
        else d.finish id stBounds 0
      else if !r.scrFail then
        let d := d.modRun id (fun _ => { r with phase := .accepted, status := if r.qmRerun then stResolved else stOk })
        if r.qmRerun then d.addSat F.SAF_ARB_RESOLVED.COUNT 1 else d
      else if r.qmRerun then (d.addSat F.SAF_ARB_REJECTED.COUNT 1).finish id stInvalidated 6
      else (d.charge id true).modRun id (fun _ => { r with phase := .troy, chargeFrom := none, exFrom := some d.now })
    | .run 2 =>
      if ((mfind r.recs 1).map RunRec.clean).getD false && !r.scrFail then d.modRun id (fun _ => { r with phase := .compare })
      else ((d.charge id true).wrSlot r.part c true).modRun id (fun _ => { r with phase := .slotB, chargeFrom := none, agree12 := none })
    | .run 3 => (d.modRun id (fun _ => r)).toFinal id
    | _ => d

/-! ## Octave (R342, R345, R346) -/

/-- The members of a run grouped by cluster, each with its successor; a member alone in its cluster takes the spare, or stays where it
is. Answers the binding, the units that run both runs, and the spares taken. DEDUCED: log entry 117. -/
def Dev.octBind (per : Nat) (spare : Nat → Option Nat) (l : List (Nat × Nat)) : List (Nat × Nat) × List Nat × List Nat :=
  let bind := l.map (fun q =>
    let mates := (l.filter (fun x => x.1 / per == q.1 / per)).map Prod.snd
    if 2 ≤ mates.length then (q.1, mates.getD ((mates.idxOf q.2 + 1) % mates.length) q.2, 0)
    else match spare (q.1 / per) with
      | some u => (q.1, u, 1)
      | none => (q.1, q.2, 2))
  (bind.map (fun b => (b.1, b.2.1)), (bind.filter (fun b => b.2.2 == 2)).map (fun b => b.2.1),
   (bind.filter (fun b => b.2.2 == 1)).map (fun b => b.2.1))

/-- HOLD_COPY_DONE: run 2 is dispatched on the Octave binding. It waits while a spare it takes serves another command. DEDUCED: log entry 118. -/
def Dev.holdDone (d : Dev) (id t : Nat) : Dev :=
  match mfind d.runs id with
  | none => d
  | some r =>
    if r.phase ≠ .hold then d else
    let es := Dev.octBind 4 (fun k => if (d.clu k).spare = 7 ∨ (d.clu k).lent then none else some (engUnit k (d.clu k).spare))
      (r.members.map (fun m => (m.le, m.phys)))
    let ps := Dev.octBind 2 (fun k => if (d.clu k).pcSpare = 3 then none else some (pcUnit k (d.clu k).pcSpare)) r.prep
    if (es.2.2 ++ ps.2.2).any d.unitHeld then d else
    let d := (es.2.2 ++ ps.2.2).foldl Dev.abandon (d.at_ t)
    let d := (es.2.1 ++ ps.2.1).foldl (fun d u => (d.addSat F.SAF_OCT_SAME_ENGINE.COUNT 1).raise 0x044 u r.addr 5) d
    if !d.inPhase id .hold then d else
    let d := (d.addSat F.SAF_OCT_RUNS.COUNT 1).modRun id (fun r => { r with octave := true })
    d.startRun id 2 es.1 ps.1 r.attn
/-- A stage of arbitration or of a copy reads what `touched` lists, and errors met there have their outcomes before it ends. -/
def Dev.readStage (d : Dev) (id : Nat) (ph : RunPhase) (touched : Run → List Extent) (mem : List MemErr) (go : Dev → Dev) : Dev :=
  match mfind d.runs id with
  | none => d
  | some r => if r.phase ≠ ph then d else go (d.memErrs id (touched r) mem)
def execHoldCopyDone (run t : Nat) (mem : List MemErr) (s : State) : Res :=
  .next (s.upd (fun d => d.readStage run .hold d.srcsTouched mem (fun d => d.holdDone run t)))

/-- OCTAVE_DISAGREE is counted and raised (R349). -/
def Dev.disagree (d : Dev) (r : Run) : Dev :=
  (d.addSat F.SAF_OCT_DISAGREE.COUNT 1).raise 0x041 ((mget [] r.runPhys 2).headD 0) r.addr 5

/-- COMPARE_PASS_DONE: the records agree and the command commits, or arbitration starts with the copy to slot B. DEDUCED: log entries 118, 119. -/
def Dev.compareDone (d : Dev) (id t : Nat) : Dev :=
  match mfind d.runs id with
  | none => d
  | some r =>
    if r.phase ≠ .compare then d else
    match mfind r.recs 1, mfind r.recs 2 with
    | some a, some b =>
      let d := d.at_ t
      (match d.slotPoison r.part false a.lens with
      | some g => d.killUe id g accRead
      | none =>
        if agree a b (d.rdSlot r.part false a.lens) b.bytes then
          d.modRun id (fun r => { r with phase := .accepted, status := stOk })
        else
          let d := d.disagree r
          if !d.inPhase id .compare then d else
          let d := d.charge id true
          (d.wrSlot r.part b true).modRun id (fun r => { r with phase := .slotB, chargeFrom := none, agree12 := some false }))
    | _, _ => d
/-- The lengths of a record's sources; none without one. -/
def lensOf (x : Option RunRec) : List Nat := (x.map RunRec.lens).getD []
def execComparePassDone (run t : Nat) (mem : List MemErr) (s : State) : Res :=
  .next (s.upd (fun d => d.readStage run .compare (fun r => d.srcsTouched r ++ d.slotTouched r.part false (lensOf (mfind r.recs 1))) mem
    (fun d => d.compareDone run t)))

/-! ## Arbitration (R349 to R353) -/

/-- SLOT_B_COPY_DONE: the Troy kernels start. -/
def Dev.slotBDone (d : Dev) (id t : Nat) : Dev :=
  match mfind d.runs id with
  | none => d
  | some r => if r.phase ≠ .slotB then d else (d.at_ t).modRun id (fun r => { r with phase := .troy, exFrom := some t })
def execSlotBCopyDone (run t : Nat) (mem : List MemErr) (s : State) : Res :=
  .next (s.upd (fun d => d.readStage run .slotB d.srcsTouched mem (fun d => d.slotBDone run t)))

/-- SAF_ARB_LAST and SAF_ARB_FRAME (R357). -/
def Dev.arbLast (d : Dev) (r : Run) (verdict : Nat) : Dev :=
  let v := r.part + r.ctx * 2 ^ 4 + b2n r.ordo * 2 ^ 16 + (if r.ordo then r.task else 0) * 2 ^ 17 + verdict * 2 ^ 27 + b2n r.troyFailed * 2 ^ 30 + 2 ^ 31
  (d.setReg R.SAF_ARB_LAST (BitVec.ofNat 64 v)).set F.SAF_ARB_FRAME.FRAME d.frame.frameNo

/-- The units on which Troy kernels run: those of runs 1 and 2, or the engines that reported a failure. -/
def Run.troyUnits (r : Run) : List Nat := if r.safety then mget [] r.runPhys 1 ++ mget [] r.runPhys 2 else r.scrUnits

/-- Are the units that a command would take next free of every other command, and of slices, tests and resets? -/
def Dev.freeFor (d : Dev) (id : Nat) (r : Run) : Bool :=
  (d.unitsWanted r).all (fun u => !d.runs.any (fun q => q.1 != id && q.2.holds && q.2.units.contains u) && !(d.unitSt u).slicing &&
    !(d.unitSt u).testing && !d.coll.blockResets.any (fun b => blockHolds b u))
/-- TROY_KERNELS_DONE: units that fail are fenced in ascending order (R364), and run 3, or the QM re-run, is dispatched on the Leap map
binding. Where the attention unit that substitutes for a fenced one is held by another command, the dispatch waits for it (R302).
DEDUCED: log entry 40. -/
def Dev.troyDone (d : Dev) (id : Nat) (failing : List Nat) (t : Nat) : Dev :=
  match mfind d.runs id with
  | none => d
  | some r =>
    if r.phase ≠ .troy then d else
    let bad := (failing.filter (fun u => r.troyUnits.contains u)).foldl insNat []
    let d := bad.foldl (fun d u => (d.raise 0x045 u 0 5).fence u (some id)) (d.at_ t)
    let d := d.modRun id (fun r => { r with troyFailed := r.troyFailed || !bad.isEmpty })
    match mfind d.runs id with
    | none => d
    | some r =>
      if r.phase ≠ .troy then d else
      if !d.bound r then (if r.safety then d.arbLast r 6 else d).finish id stUnitAbsent 0 else
      if !d.freeFor id r then d else
      if r.safety then d.startRun id 3 (d.leapEngs r) (d.leapCores r) (d.attnWanted r) else
      let d := d.modRun id (fun r => { r with qmRerun := true, rerun := true, dispatchedAt := t, chargeFrom := some t, banked := 0, exFrom := none,
                                              excluded := 0, freq := d.regMHz (placeReg r.place) })
      d.startRun id 1 (d.leapEngs r) (d.leapCores r) (d.attnWanted r)
def execTroyKernelsDone (run : Nat) (failing : List Nat) (t : Nat) (s : State) : Res :=
  .next (s.upd (fun d => d.troyDone run failing t))

/-- A verdict of Table 2: its number, and for an acceptance where the commit reads and the run whose lists it uses. -/
structure Verdict where
  code : Nat
  src : CommitSrc
  run : Nat
  deriving DecidableEq, Repr
/-- Table 2 of R350: `a12`, `a13`, `a23` say which runs agree, `c1` to `c3` which are clean. -/
def verdictOf (a12 a13 a23 c1 c2 c3 : Bool) : Verdict :=
  if (a13 || a23) && (c3 || (a13 && c1) || (a23 && c2)) then ⟨if a13 then 1 else 2, .scratch, 3⟩
  else if a12 && !a13 && !a23 && (c1 || c2) then ⟨3, .slotA, 1⟩
  else if !a12 && !a13 && !a23 then
    match c1, c2, c3 with
    | true, false, false => ⟨4, .slotA, 1⟩
    | false, true, false => ⟨4, .slotB, 2⟩
    | false, false, true => ⟨4, .scratch, 3⟩
    | _, _, _ => ⟨5, .scratch, 0⟩
  else ⟨5, .scratch, 0⟩

/-- Do two runs agree, given the bytes of both; a run without a record agrees with none. -/
def agreeOpt (a b : Option RunRec) (ab bb : List (List Nat)) : Bool :=
  match a, b with
  | some x, some y => agree x y ab bb
  | _, _ => false

/-- VERDICT (R350, R351). DEDUCED: log entry 119. -/
def Dev.verdict (d : Dev) (id t : Nat) : Dev :=
  match mfind d.runs id with
  | none => d
  | some r =>
    if r.phase ≠ .final then d else
    let d := d.at_ t
    let r1 := mfind r.recs 1
    let r2 := mfind r.recs 2
    let r3 := mfind r.recs 3
    match (d.slotPoison r.part false (lensOf r1)).or (d.slotPoison r.part true (lensOf r2)) with
    | some g => d.killUe id g accRead
    | none =>
      let b1 := d.rdSlot r.part false (lensOf r1)
      let b2 := d.rdSlot r.part true (lensOf r2)
      let b3 := (r3.map RunRec.bytes).getD []
      let a12 := r.agree12.getD (agreeOpt r1 r2 b1 b2)
      let d := if r.agree12.isNone && !a12 then d.disagree r else d
      let clean := fun (x : Option RunRec) => (x.map RunRec.clean).getD false
      let v := verdictOf a12 (agreeOpt r3 r1 b3 b1) (agreeOpt r3 r2 b3 b2) (clean r1) (clean r2) (clean r3)
      let d := d.arbLast r v.code
      let eng3 := (mget [] r.runPhys 3).headD 0
      if v.code = 5 then ((d.addSat F.SAF_ARB_REJECTED.COUNT 1).raise 0x043 eng3 r.addr 5).finish id stInvalidated 6 else
      let d := d.addSat F.SAF_ARB_RESOLVED.COUNT 1
      let d := if r.troyFailed then d else d.raise 0x042 eng3 r.addr 5
      if !d.inPhase id RunPhase.final then d else
      match mfind r.recs v.run with
      | none => d
      | some c => d.modRun id (fun r => { r with
          phase := .accepted, status := stResolved, src := v.src, pieces := c.pieces, signals := c.signals, indexRange := c.indexRange,
          chargeFrom := some t })
def execVerdict (run t : Nat) (mem : List MemErr) (s : State) : Res :=
  .next (s.upd (fun d => d.readStage run .final (fun r => d.srcsTouched r ++ d.slotTouched r.part false (lensOf (mfind r.recs 1)) ++
    d.slotTouched r.part true (lensOf (mfind r.recs 2))) mem (fun d => d.verdict run t)))

/-! ## The commit (R245) -/

/-- The runs of each source as the commit takes them: as they stood at END, or from a hold slot. DEDUCED: log entry 110. -/
def Dev.commitRuns (d : Dev) (r : Run) : List (Piece × List (List Nat)) :=
  let cut := fun (p : Piece) (bs : List Nat) =>
    (p.src.desc.segs.foldl (fun (a : List (List Nat) × List Nat) s => (a.1 ++ [a.2.take s.2], a.2.drop s.2)) ([], bs)).1
  match r.src with
  | .scratch => (match r.recs.getLast? with
    | some c => c.2.pieces.zip c.2.data
    | none => [])
  | _ =>
    let lens := r.ordered.map (fun p => p.src.desc.bytes)
    r.ordered.zipWith (fun p bs => (p, cut p bs)) (d.rdSlot r.part (decide (r.src = CommitSrc.slotB)) lens)
/-- What the commit reads for piece `i`. -/
def Dev.pieceTouched (d : Dev) (r : Run) (i : Nat) : List Extent :=
  match r.ordered[i]? with
  | none => []
  | some p =>
    if r.src = .scratch then d.srcTouched r p else
    let a := d.slotAddr r.part (decide (r.src = CommitSrc.slotB)) + slotOfs (r.ordered.map (fun q => q.src.desc.bytes)) i
    [⟨true, a, a + p.src.desc.bytes⟩]
/-- The slices of a run of bytes, with where each goes. -/
def slices : List Dest → List Nat → List (Dest × List Nat)
  | [], _ => []
  | x :: l, bs => (x, bs.take x.len) :: slices l (bs.drop x.len)
/-- Every slice of a piece. -/
def Dev.pieceSlices (d : Dev) (r : Run) (p : Piece) (runs : List (List Nat)) : List (Dest × List Nat) :=
  (((d.allDests r p.dst).getD []).zip runs).flatMap (fun q => slices q.1 q.2)

/-- Does a slice go to local HBM? -/
def Dest.isHbm : Dest → Bool
  | .hbm _ _ => true
  | .win _ _ _ _ _ => false
/-- The number of the next piece or mark for a package counts on (R432). -/
def Dev.nextSeq (d : Dev) (pkg : Nat) : Dev := { d with lnk := { d.lnk with pieceSeq := mset d.lnk.pieceSeq pkg (mget 0 d.lnk.pieceSeq pkg + 1) } }
/-- The granules of a range as they stand. -/
def Dev.granulesNow (d : Dev) (a n : Nat) : List (Nat × List Nat × Bool) :=
  (granules a n).map (fun g => (g, d.rdHbm g 64, d.mem.poison.contains g))
/-- Step 1 copies the local pieces, step 2 sends the others with their CRC-64; one for an unreachable package is refused at once
(R435). DEDUCED: log entry 110. -/
def Dev.commitSlice (d : Dev) (id : Nat) (x : Dest × List Nat) : Dev :=
  match x.1 with
  | .hbm a _ => (d.modRun id (fun r => { r with undo := r.undo ++ d.granulesNow a x.2.length })).wrHbm a x.2
  | .win p w e o _ =>
    let ok := (d.route p).isSome
    let c := crc64 x.2
    let n := mget 0 d.lnk.pieceSeq p
    let d := if ok then d.nextSeq p |>.sendLg p (.piece p n w e o c x.2) else d
    d.modRun id (fun r => { r with remotes := r.remotes ++ [⟨p, w, e, n, o, x.2, c, 0, if ok then 0 else stDenied, !ok⟩] })

/-- The slices of the commit with the number of their piece: the local ones, which step 1 copies, then those that step 2 sends. -/
def Dev.commitSlices (d : Dev) (r : Run) : List (Nat × Dest × List Nat) :=
  let l := ((d.commitRuns r).mapIdx (fun i q => (d.pieceSlices r q.1 q.2).map (fun x => (i, x)))).flatten
  l.filter (fun x => x.2.1.isHbm) ++ l.filter (fun x => !x.2.1.isHbm)
/-- What stops the commit at a piece: an uncorrectable word on chip, or a poisoned granule of the hold slot. -/
def Dev.pieceStop (d : Dev) (r : Run) (es : List MemErr) (i : Nat) : Option (MemErr ⊕ Nat) :=
  match es.find? (errIn (d.pieceTouched r i)) with
  | some e => some (.inl e)
  | none => ((d.pieceTouched r i).findSome? (fun x => if x.dev then (d.poisonIn x.lo (x.hi - x.lo)).head? else none)).map .inr
/-- COMMIT_START: steps 1 and 2. An uncorrectable error in what the commit reads stops it at once, and the pieces before it stay written
(R247). A claim on an attention unit ends here for a QM-class command (R302); a safety-class command keeps it (R339).
DEDUCED: log entry 109. -/
def Dev.commitStart (d : Dev) (id t : Nat) (mem : List MemErr) : Dev :=
  match mfind d.runs id with
  | none => d
  | some r =>
    if r.phase ≠ .accepted then d else
    let all := (List.range r.ordered.length).flatMap (d.pieceTouched r)
    let es := errSort (mem.filter (errIn all))
    let d := es.foldl (fun (d : Dev) (e : MemErr) => if e.hbm then (if e.correctable then d.hbmCe e.addr accRead else d.poisonAt e.addr)
      else if e.correctable then d.sramCe e.addr accRead else d) (d.at_ t)
    let hard := es.filter (fun e => !e.hbm && !e.correctable)
    let l := d.commitSlices r
    let stops := fun (x : Nat × Dest × List Nat) => (d.pieceStop r hard x.1).isSome
    let d1 := d.modRun id (fun r => { r with phase := .commit, attn := if r.safety then r.attn else none, remotes := [], undo := [] })
    let d1 := (l.takeWhile (fun x => !stops x)).foldl (fun (d : Dev) x => d.commitSlice id x.2) d1
    match (l.find? stops).bind (fun x => (d.pieceStop r hard x.1).map (fun y => (x.1, y))) with
    | none => d1
    | some (i, .inl e) =>
      ((hard.filter (errIn (d.pieceTouched r i))).foldl (fun (d : Dev) e => d.sramUe e.addr accRead) d1).stopMarch id e
    | some (_, .inr g) => (d1.hbmUeAt g accRead).finish id stInvalidated 10
def execCommitStart (run t : Nat) (mem : List MemErr) (s : State) : Res := .next (s.upd (fun d => d.commitStart run t mem))

/-- Send the arrival marks of the windows whose every piece has been written (R441). -/
def Dev.sendMarks (d : Dev) (id : Nat) : Dev :=
  match mfind d.runs id with
  | none => d
  | some r =>
    let wins := ((r.remotes.filter (fun x => x.bytes != [])).map (fun x => (x.pkg, x.win, x.epoch))).eraseDups
    let due := wins.filter (fun w =>
      let l := r.remotes.filter (fun x => (x.pkg, x.win, x.epoch) == w)
      l.all (fun x => x.bytes != [] && x.settled && x.st == 0))
    due.foldl (fun (d : Dev) w =>
      let n := mget 0 d.lnk.pieceSeq w.1
      ((d.nextSeq w.1).sendLg w.1 (.mark w.1 n w.2.1 w.2.2)).modRun id
        (fun r => { r with remotes := r.remotes ++ [⟨w.1, w.2.1, w.2.2, n, 0, [], 0, 0, 0, false⟩] })) d

/-- PIECE_ACK: what the owner answers to piece `i` (R356, R440, R443). A piece asked for again is sent again from the same source.
DEDUCED: log entries 140, 145. -/
def Dev.pieceAck (d : Dev) (id i : Nat) (reply : PieceReply) (t : Nat) : Dev :=
  match (mfind d.runs id).bind (fun r => if r.phase = .commit then (r.remotes[i]?).map (fun x => (r, x)) else none) with
  | none => d
  | some (r, x) =>
    if x.settled then d else
    let d := d.at_ t
    let put := fun (d : Dev) (y : Remote) => d.modRun id (fun r => { r with remotes := r.remotes.set i y })
    match reply with
    | .ack => (put d { x with settled := true }).sendMarks id
    | .refused e => (put d { x with settled := true, st := if e then stStale else stDenied }).sendMarks id
    | .again => if x.tries = 0 ∧ x.bytes ≠ [] then (put d { x with tries := 1 }).sendLg x.pkg x.message else d
    | .dropped =>
      let d := (put d { x with settled := true, st := stInvalidated }).sendMarks id
      d.raise 0x046 r.gang0 r.addr 5
def execPieceAck (run idx : Nat) (reply : PieceReply) (t : Nat) (s : State) : Res := .next (s.upd (fun d => d.pieceAck run idx reply t))

/-- Step 3: every deferred signal is applied. DEDUCED: log entry 108. -/
def Dev.applySignals (d : Dev) (l : List (Nat × Nat)) : Dev := l.foldl (fun (d : Dev) q => d.flagAdd q.1 q.2) d

/-- The outputs that an Ordo command adds to its task: for each PUBLISH in list order its address, its CRC and its length (R65).
DEDUCED: log entry 49. -/
def Dev.noteOuts (d : Dev) (r : Run) : Dev :=
  if !r.ordo || r.frame != d.frame.frameNo || d.frame.vigilDone then d else
  let outs := (d.commitRuns r).map (fun q =>
    let b := q.2.flatMap (fun x => x)
    let a := match d.pieceDests r q.1 with
      | .hbm a _ :: _ => a
      | _ => q.1.dst.base
    (⟨a, crc64 b, b.length⟩ : OutRec))
  d.modTask r.task (fun k => { k with outs := k.outs ++ outs })

/-- COMMIT_END: steps 3 and 4, and the command's record. After a refused or dropped piece step 3 is skipped, and the first one gives the
status (R356, R443). DEDUCED: log entries 53, 145. -/
def Dev.commitEnd (d : Dev) (id t : Nat) : Dev :=
  match mfind d.runs id with
  | none => d
  | some r =>
    if r.phase ≠ .commit ∨ !r.remotes.all (fun x => x.settled) then d else
    let d := d.at_ t
    match r.remotes.find? (fun x => x.st != 0) with
    | some x => d.finish id x.st 6
    | none =>
      let d := (d.noteOuts r).applySignals r.signals
      if r.endKill = some 10 then d.finish id stInvalidated 10
      else d.finish id (if r.indexRange then stIndexRange else r.status) 0
def execCommitEnd (run t : Nat) (s : State) : Res := .next (s.upd (fun d => d.commitEnd run t))

end Sys2Proof.Machine
end

