-- ==== Sys2Proof/Machine/Sched.lean ====
section
/-!
DEFINITION. Dispatch (R313 to R316), what a command snapshots at its first dispatch (R161, R162, R164, R200, R218, R299, R439), slices and
pre-emption (R318 to R322), the assignment (R306, R348), and the flag clear (R237).
-/
namespace Sys2Proof.Machine

/-! ## Resolution at the first dispatch -/

/-- Why a dispatch does not happen: a status, a page reference that does not resolve (DESCRIPTOR_STALE, counted in KVU_STALE), or a
poisoned granule among what the hub read. -/
inductive Refused where
  | status (st : Nat)
  | staleRef
  | poison (g : Nat)
  deriving DecidableEq, Repr

/-- Are the bytes to be read in installed HBM and free of poison? -/
def Dev.readable (d : Dev) (a n : Nat) : Except Refused Unit :=
  if !d.inHbm a n then .error (.status stBounds) else
  match d.poisonIn a n with
  | g :: _ => .error (.poison g)
  | [] => .ok ()

/-- One entry of an owner table (Table 5 of R164); a reserved bit that is set is RESERVED_FIELD (R11). DEDUCED: log entry 97. -/
def ownerOf (b : List Nat) : Except Refused Owner :=
  if bitOf (bfield b 0 2) 15 || bfield b 4 4 != 0 then .error (.status stReserved) else .ok ⟨bfield b 0 2, bfield b 2 2, bfield b 8 8⟩
/-- The owner table of a tensor, which its highest byte may not pass (R164). A block of another package needs a map entry (R439).
DEDUCED: log entry 97. -/
def Dev.owners (d : Dev) (r : Run) (t : TDesc) : Except Refused (List Owner) :=
  if t.space != 2 then .ok [] else
  if t.ownerCount * 2 ^ t.blockLog2 < t.extent then .error (.status stBounds) else
  match d.readable t.base (16 * t.ownerCount) with
  | .error e => .error e
  | .ok _ =>
    match (List.range t.ownerCount).mapM (fun i => ownerOf (d.rdHbm (t.base + 16 * i) 16)) with
    | .error e => .error e
    | .ok l => if l.all (fun o => o.pkg == d.pkg || (r.mapFor o.pkg o.win).isSome) then .ok l else .error (.status stBounds)

/-- One operand slot value: an index of the module's operand table, or a handle (R161, R199). -/
def Dev.resolve (d : Dev) (r : Run) (m : Module) (h : Nat) : Except Refused Operand :=
  if !m.handle then
    match m.operands[h % 65536]? with
    | some t => .ok ⟨t, t.base, []⟩
    | none => .error (.status stBounds)
  else
    match mfind d.tdt (h % 65536) with
    | none => .error (.status stStale)
    | some t =>
      if !t.valid || t.gen != h / 65536 then .error (.status stStale)
      else if t.part != r.part then .error (.status stBounds)
      else match d.owners r t with
        | .error e => .error e
        | .ok l => .ok ⟨t, if t.space = 2 then 0 else t.base, l⟩

/-- The slot values of an instruction, by word and then by slot (R200): the slots it uses, and the vectors of an MM. Of two that fail in one
word the lower slot gives the status. DESIGN CHOICE: log entry 208. -/
def Ins.slots (i : Ins) : List Nat :=
  i.used.map i.slot ++
  (if i.cls = 0 then (if bitOf (i.x 0) 125 then [bits (i.x 0) 47 24] else []) ++ (if bitOf (i.x 0) 126 then [bits (i.x 0) 71 48] else []) else [])
/-- Every operand of an entry. -/
def Dev.resolveAll (d : Dev) (r : Run) (m : Module) : List Nat → List (Nat × Operand) → Except Refused (List (Nat × Operand))
  | [], acc => .ok acc
  | h :: hs, acc =>
    if (mfind acc h).isSome then Dev.resolveAll d r m hs acc else
    match d.resolve r m h with
    | .error e => .error e
    | .ok o => Dev.resolveAll d r m hs (mset acc h o)

/-! ## Page lists (R299) -/

/-- The checks of page list entries in list order; `next` is where the next position may start. Answers the pages and the entries to
pin. -/
def Dev.pageEntries (d : Dev) (part cache : Nat) : List (List Nat) → Nat → List PageSnap → List Nat → Except Refused (List PageSnap × List Nat)
  | [], _, ps, pins => .ok (ps, pins)
  | b :: bs, next, ps, pins =>
    let ref := bfield b 0 4
    let fill := bfield b 4 4
    let pos := bfield b 8 4
    let e := d.bent (refIdx ref)
    match mfind d.kv.caches cache with
    | none => if bfield b 12 4 != 0 then .error (.status stReserved) else if !d.refLive ref then .error .staleRef else .error (.status stBounds)
    | some c =>
      let t := pageT e.size e.fmt c.kvHeads c.headDim
      let i := refIdx ref
      let new := !pins.contains i
      if bfield b 12 4 != 0 then .error (.status stReserved)
      else if !d.refLive ref then .error .staleRef
      else if c.part != part || e.part != part || e.cache != cache || t < fill || pos < next || 2 ^ 32 < pos + fill ||
        (new && (e.pins == 65535 || 16384 ≤ pins.length)) then .error (.status stBounds)
      else Dev.pageEntries d part cache bs (pos + fill) (ps ++ [⟨e.addr, e.fmt, t, fill, pos⟩]) (if new then pins ++ [i] else pins)

/-- The page lists of the ATTENDs of an entry. One whose descriptor is malformed is left to the check at issue. DEDUCED: log entry 114. -/
def Dev.pageLists (d : Dev) (r : Run) (snap : List (Nat × Operand)) : List Ins → List (Nat × PageList) → List Nat →
    Except Refused (List (Nat × PageList) × List Nat)
  | [], ls, pins => .ok (ls, pins)
  | i :: is, ls, pins =>
    match (if i.cls = 5 then mfind snap (i.slot 3) else none) with
    | none => Dev.pageLists d r snap is ls pins
    | some o =>
      if !(pagesForm o.desc && d.pagesPlace o.desc o.base && o.base % 64 == 0) then Dev.pageLists d r snap is ls pins else
      let n := o.desc.dim 0 / 4
      match d.readable o.base (16 * n) with
      | .error e => .error e
      | .ok _ =>
        let c := (atFields i).cache
        match d.pageEntries r.part c ((List.range n).map (fun j => d.rdHbm (o.base + 16 * j) 16)) 0 [] pins with
        | .error e => .error e
        | .ok (ps, pins) =>
          let k := (mfind d.kv.caches c).getD ⟨0, 0, 0, 0⟩
          Dev.pageLists d r snap is (mset ls i.idx ⟨k.headDim, k.kvHeads, k.spread, ps⟩) pins

/-- The argument block (R218). DEDUCED: log entry 111. -/
def Dev.argBlock (d : Dev) (r : Run) (e : Entry) : Except Refused (List Nat) :=
  if r.ordo || r.argAddr == 0 || e.argWords == 0 then .ok [] else
  match d.readable r.argAddr (4 * e.argWords) with
  | .error x => .error x
  | .ok _ => .ok ((List.range e.argWords).map (fun i => leNat (d.rdHbm (r.argAddr + 4 * i) 4)))

/-- Everything a command keeps from its first dispatch: map entries, operands, page lists with their pins, and the argument block.
DEDUCED: log entry 114. -/
def Dev.snapshot (d : Dev) (r : Run) (m : Module) (e : Entry) : Except Refused Run :=
  let r := { r with maps := d.lnk.maps.filter (fun q => q.2.set_ && q.2.part == r.part) }
  let is := m.insOf e
  match d.resolveAll r m (is.flatMap Ins.slots) [] with
  | .error x => .error x
  | .ok snap =>
    match d.pageLists r snap is [] [] with
    | .error x => .error x
    | .ok (pages, pins) =>
      match d.argBlock r e with
      | .error x => .error x
      | .ok args => .ok { r with snap := snap, pages := pages, pins := pins, args := args, dispatched := true }

/-! ## Pre-emption (R320 to R322) -/

/-- Pre-empt a ring command: killed for a re-run, and counted. DEDUCED: log entry 112. -/
def Dev.preempt (d : Dev) (id : Nat) : Dev :=
  match mfind d.runs id with
  | none => d
  | some r => (d.modCtx r.key (fun c => { c with preempts := Nat.min (c.preempts + 1) 0xFFFFFFFF })).killRerun id .cand true
/-- Plan pre-emption: an Ordo candidate of its partition names a resource that a ring command holds. -/
def Dev.planPreempt (d : Dev) : Dev :=
  (d.runs.filter (fun q => !q.2.ordo && q.2.holds && !q.2.inCommit &&
    d.runs.any (fun c => c.2.ordo && d.isCand c.2 && c.2.part == q.2.part && d.blocks q.2 c.2))).foldl (fun d q => d.preempt q.1) d
/-- Is the command stalled in an SY WAIT? -/
def Run.stalledWait (r : Run) : Bool := r.members.any (fun m => match m.stall with
  | .wait _ => true
  | _ => false)

/-! ## Dispatch -/

/-- The status with which a dispatch is refused: unbound units and absent attention units, then the module, the entry and the assignment
(R38, R222, R307, R308, R313). A partition whose SAFETY came into force since the check at fetch or SWITCH runs no entry without a WCET
(R325). -/
def Dev.dispatchCheck (d : Dev) (r : Run) : Nat :=
  if !d.unitsBound r || (!d.bound r && !(d.attnOk (placeReg r.place) && d.attnPart (placeReg r.place) != r.part)) then stUnitAbsent
  else if (!r.dispatched && (d.entryOf r.part r.modId r.entry).isNone) || (d.runEntry r).isNone then stBounds
  else if !r.dispatched && d.safetyPart r.part && !((d.runEntry r).any (fun q => q.2.hasWcet)) then stBounds
  else if !d.assigned r.part r.place r.engMask r.pcMask (d.needsAttn r) d.cluPart d.attnPart then stBounds else stOk
/-- Are the units it names free: no command holds them, no slice or test runs on them, no block reset covers them, no repair withholds
them, and a sequencer is active in each cluster? A slice that may start takes its unit ahead of a ring candidate (R401). -/
def Dev.allFree (d : Dev) (r : Run) : Bool :=
  !d.runs.any (fun q => q.2.holds && d.blocks q.2 r) &&
  (d.unitsWanted r).all (fun u => !d.unitHeld u && !(d.unitSt u).slicing && !(d.unitSt u).testing && !d.coll.blockResets.any (fun b => blockHolds b u)) &&
  r.clusters.all (fun k => !(d.clu k).seqFenced.contains (d.clu k).seqActive) && !d.repairing r &&
  (r.ordo || (d.unitsWanted r).all (fun u => !d.mayslice u))
/-- Is a resource it names reserved for a candidate of higher rank (R315)? One that would complete at once reserves nothing. -/
def Dev.reserved (d : Dev) (id : Nat) (r : Run) : Bool :=
  d.runs.any (fun q => q.1 != id && q.2.part == r.part && d.isCand q.2 && decide (d.rank q.2 < d.rank r) && d.shares q.2 r &&
    d.dispatchCheck q.2 == stOk)

/-- The engines are taken, and run 1 starts. DEDUCED: log entry 115. -/
def Dev.launch (d : Dev) (id : Nat) (r : Run) : Dev :=
  let d := d.modRun id (fun _ => { r with
    dispatchedAt := d.now, chargeFrom := some d.now, banked := 0, excluded := 0, exFrom := none, freq := d.regMHz (placeReg r.place),
    guarded := r.guarded || r.slicePre, status := stOk })
  d.startRun id 1 (d.leapEngs r) (d.leapCores r) (d.attnWanted r)

/-- Where the task list entry of an Ordo command lies that is to be read at its first dispatch (R311, R312). -/
def Dev.entryAddr (d : Dev) (r : Run) : Option Nat :=
  if r.ordo && !r.dispatched then (d.slotOf r.task).map (fun s => s.tlist + 64 + 64 * r.cmdIdx) else none
/-- The command as its entry in the task list stands now, and the status of the checks of R114 where the entry has changed since SWITCH.
DESIGN CHOICE: log entry 116. -/
def Dev.reread (d : Dev) (r : Run) : Run × Nat :=
  match d.entryAddr r with
  | none => (r, stOk)
  | some a =>
    let b := d.rdHbm a 64
    ({ mkRun r.part r.ctx true r.task r.cmdIdx b r.safety with frame := r.frame },
     if ((d.slotOf r.task).bind (fun s => s.list[r.cmdIdx]?)) = some b then stOk
     else if b.getD 0 0 ≠ 1 then stFormat else d.validate r.part b)
/-- The ranges of HBM that the hub reads at a first dispatch: the entry of the task list, owner tables, page lists and the argument block. -/
def Dev.dispatchReads (d : Dev) (r : Run) : List (Nat × Nat) :=
  if r.dispatched then [] else
  ((d.entryAddr r).map (fun a => (a, 64))).toList ++
  (match d.runEntry r with
   | none => []
   | some (m, e) =>
     (if m.handle then (((m.insOf e).flatMap Ins.slots).filterMap (fun h => mfind d.tdt (h % 65536))).filterMap (fun t =>
        if t.space = 2 then some (t.base, 16 * t.ownerCount) else none) else []) ++
     ((m.insOf e).filterMap (fun i => if i.cls = 5 then
        (match d.resolve r m (i.slot 3) with
         | .ok o => some (o.base, 16 * (o.desc.dim 0 / 4))
         | .error _ => none) else none)) ++
     (if r.ordo || r.argAddr == 0 then [] else [(r.argAddr, 4 * e.argWords)]))
/-- What the hub reads for a first dispatch, with the errors it meets; a poisoned entry kills the command (R141). -/
def Dev.fetched (d : Dev) (id : Nat) (r : Run) (mem : List MemErr) (go : Dev → Dev) : Dev :=
  d.met accFetch (d.dispatchReads r) mem (fun d =>
    match (d.entryAddr r).bind (fun a => (d.poisonIn a 64).head?) with
    | some g => d.killUe id g accFetch
    | none => go d)

/-- DISPATCH (R313): not during a warm reset, before HBM serves, without the reference (R42), or in a low-power state. A command of a
partition held by safe state B completes with INVALIDATED (R382). DEDUCED: log entry 115. -/
def Dev.dispatch (d : Dev) (id t : Nat) (mem : List MemErr) : Dev :=
  match mfind d.runs id with
  | none => d
  | some r =>
    if !d.isCand r || d.rst.warm || d.rst.low != 0 || d.rst.entering != 0 || !d.rst.hbmReady || !d.rst.refclk then d else
    let d := d.at_ t
    if d.held r.part then d.finish id stInvalidated 10 else
    let x := d.reread r
    let r := x.1
    let st := if x.2 = stOk then d.dispatchCheck r else x.2
    if st ≠ stOk then d.fetched id r mem (fun d => d.finish id st 0) else
    let d := d.planPreempt
    if !d.allFree r || d.reserved id r then d else
    if r.dispatched then d.launch id r else
    d.fetched id r mem (fun d =>
      match d.runEntry r with
      | none => d
      | some (m, e) =>
        match d.snapshot r m e with
        | .error (.status st) => d.finish id st 0
        | .error .staleRef => (d.addSat F.KVU_STALE.COUNT 1).finish id stStale 0
        | .error (.poison g) => d.killUe id g accFetch
        | .ok r => Dev.launch (r.pins.foldl Dev.pin d) id r)
def execDispatch (id t : Nat) (mem : List MemErr) (s : State) : Res := .next (s.upd (fun d => d.dispatch id t mem))

/-! ## Slices (R318, R320, R321) -/

/-- What the slice of a context has been charged by now. -/
def Dev.sliceCharge (d : Dev) (key : Nat) : Nat :=
  ((d.ctx key).map Ctx.sliceUsed).getD 0 +
  sumNat (d.runs.map (fun q => if q.2.key = key ∧ !q.2.ordo then (match q.2.chargeFrom with
    | some t => d.now - t
    | none => 0) else 0))
/-- Is there a ring candidate that pre-empts command `h`, whose context has just gone to the tail of its queue? -/
def Dev.slicePreemptor (d : Dev) (h : Run) : Bool :=
  let p := fun (r : Run) => ((d.ctx r.key).map Ctx.prio).getD 0
  d.runs.any (fun q => !q.2.ordo && d.isCand q.2 && q.2.part == h.part && q.2.key != h.key && d.blocks h q.2 && decide (p h ≤ p q.2) &&
    decide (d.turns.idxOf q.2.key < d.turns.idxOf h.key))

/-- SLICE_EXPIRY: the context moves to the tail of its queue with a full slice, and its command may be pre-empted. DEDUCED: log entry 112. -/
def Dev.sliceExpiry (d : Dev) (key t : Nat) : Dev :=
  match d.ctx key with
  | none => d
  | some c =>
    let d := d.at_ t
    if !d.turns.contains key || decide (d.sliceCharge key < c.slice * 50000) then d else
    let d := (d.runs.filter (fun q => q.2.key == key && !q.2.ordo)).foldl (fun d q => (d.charge q.1 true).modRun q.1 (fun r => { r with banked := 0 })) d
    let d := { d.modCtx key (fun c => { c with sliceUsed := 0, slice := c.sliceNext, prio := c.prioNext }) with
                turns := d.turns.filter (fun k => k != key) ++ [key] }
    (d.runs.filter (fun q => q.2.key == key && !q.2.ordo && q.2.holds && !q.2.inCommit && (!q.2.guarded || q.2.stalledWait) &&
      d.slicePreemptor q.2)).foldl (fun d q => (d.preempt q.1).modRun q.1 (fun r => { r with slicePre := true })) d
def execSliceExpiry (fn ctx t : Nat) (s : State) : Res := .next (s.upd (fun d => d.sliceExpiry (ckey fn ctx) t))

/-- SCH_CTX_SCHED_WRITE (R310): in force at the context's next refill. DEDUCED: log entry 23. -/
def Dev.ctxSchedWrite (d : Dev) (value : Nat) : Dev :=
  let key := ckey (d.f F.SCH_CTX_SEL.PART) (d.f F.SCH_CTX_SEL.CTX)
  if (d.ctx key).isNone || bits value 9 2 == 0 then d.set F.SCH_CTX_SEL.REFUSED 1
  else d.modCtx key (fun c => { c with prioNext := bits value 1 0, sliceNext := bits value 9 2 })
def execSchCtxSchedWrite (value : Nat) (s : State) : Res := .next (s.upd (fun d => d.ctxSchedWrite value))

/-! ## The assignment (R306) -/

/-- The staged partition of a cluster and of an attention unit. DEDUCED: log entry 113. -/
def Dev.cluStaged (d : Dev) (k : Nat) : Nat := d.f (F.SCH_CLU_PART.PART (k / 8)) / 2 ^ (4 * (k % 8)) % 16
def Dev.attnStaged (d : Dev) (u : Nat) : Nat := d.f F.SCH_ATTN_PART.PART / 2 ^ (4 * u) % 16
/-- Do the tasks of a partition in the active or pending bank name a cluster; an attention unit? -/
def Dev.tasksNameClu (d : Dev) (f k : Nat) : Bool :=
  d.bankNames (fun s => s.part == f && s.list.any (fun bs => (clustersOf (bs.getD 20 0) (bfield bs 22 2) (bs.getD 21 0)).contains k))
def Dev.tasksNameAttn (d : Dev) (f u : Nat) : Bool :=
  d.bankNames (fun s => s.part == f && s.list.any (fun bs =>
    placeReg (bs.getD 20 0) == u && d.needsAttn (mkRun s.part s.ctx true 0 0 bs s.safety)))
/-- Does APPLY refuse the staged assignment and SAFETY bits (R306, R348)? -/
def Dev.partBad (d : Dev) : Bool :=
  (d.full && (List.range d.nReg).any (fun u => !([0, 1, 2, 3].any (fun j => d.cluStaged (4 * u + j) == d.attnStaged u)))) ||
  (List.range 16).any (fun f =>
    let s := d.on (F.SCH_PART_CFG.SAFETY f)
    (d.safetyAny f && !s && d.bankNames (fun x => x.part == f && x.safety)) || (s && d.f (F.SAF_OCT_HOLD.ADDR f) == 0)) ||
  (List.range d.nClus).any (fun k => d.cluStaged k != d.cluPart k && d.tasksNameClu (d.cluPart k) k) ||
  (d.full && (List.range d.nReg).any (fun u => d.attnStaged u != d.attnPart u && d.tasksNameAttn (d.attnPart u) u))
/-- PART_APPLY. DEDUCED: log entry 113. -/
def Dev.partApply (d : Dev) : Dev :=
  if d.partBad then d.set F.SCH_PART_CTRL.BAD_CFG 1
  else (d.stage (R.SCH_CLU_PART 0) (R.SCH_PART_CFG 16)).set F.SCH_PART_CTRL.PENDING 1
def execPartApply (s : State) : Res := .next (s.upd Dev.partApply)

/-! ## The flag clear (R237) -/

/-- FLAG_CLEAR: refused while a WAIT is outstanding on a flag of the range. DEDUCED: log entry 20. -/
def Dev.flagClear (d : Dev) : Dev :=
  let a := d.f F.SCH_FLAG_CLR.FIRST
  let n := d.f F.SCH_FLAG_CLR.COUNT
  if 16384 < a + n || d.waitedOn a n then d.set F.SCH_FLAG_CLR.REFUSED 1
  else { d with flags := d.flags.filter (fun p => !(decide (a ≤ p.1) && decide (p.1 < a + n))) }
def execFlagClear (s : State) : Res := .next (s.upd Dev.flagClear)

end Sys2Proof.Machine
end

