-- ==== Sys2Proof/Machine/Frame.lean ====
section
/-!
DEFINITION. The frame (R44 to R67): Kalends settings, the roster and its agreement, Ordo images (R53 to R58, R109, R311, R312, R326,
R332), phases and tasks, budgets, and the Vigil. The tick itself is in `Sys2Proof.Machine.Tick`.
-/
namespace Sys2Proof.Machine

/-! ## Kalends settings (R44 to R47) -/

/-- KAL_APPLY: the ranges of PHASE_NS and OFFSET_NS follow the staged PERIOD_NS. -/
def Dev.kalApply (d : Dev) : Dev :=
  let p := d.f F.ALM_KAL_PERIOD.PERIOD_NS
  let o := d.f F.ALM_VIGIL_OFFSET.OFFSET_NS
  if p < 5000000 ∨ 200000000 < p ∨ p ≤ d.f F.ALM_KAL_PHASE.PHASE_NS ∨ o < 1000000 ∨ p < o then d.set F.ALM_KAL_CTRL.BAD_CFG 1
  else (d.stage R.ALM_KAL_PERIOD R.ALM_KAL_CTRL).set F.ALM_KAL_CTRL.PENDING 1
def execKalApply (s : State) : Res := .next (s.upd Dev.kalApply)

/-- FRAME_LO_READ. -/
def Dev.frameLoRead (d : Dev) : Dev :=
  Dev.ret { d with frame := { d.frame with hiLatch := d.frame.frameNo / 2 ^ 32 % 2 ^ 32 } } (leBytes 4 (d.frame.frameNo % 2 ^ 32))
def execFrameLoRead (s : State) : Res := .next (s.upd Dev.frameLoRead)

/-- The first time not before `t` that satisfies the rule of R44. DEDUCED: log entry 43. -/
def tickFrom (phase period t : Nat) : Nat := if period = 0 then t else
  let r := (t + period - phase % period) % period
  if r = 0 then t else t + (period - r)

/-! ## The roster (R48 to R52) -/

/-- The entry of an ABSENT stream: what its other fields hold is not stated. DEDUCED: log entry 45. -/
def Dev.absentEntry (d : Dev) (s : Nat) : RosterEntry :=
  let v := fun k n => Config.freeNat d.fresh (8 * s + k) % 2 ^ n
  ⟨v 0 64, v 1 64, v 2 64, v 3 32, 2, v 4 8, v 5 16⟩
/-- The entry of a stream at the tick, and the stream afterwards. -/
def Dev.rosterEntry (d : Dev) (s : Nat) : RosterEntry × Stream :=
  let r := d.strm s
  match r.last with
  | none => (d.absentEntry s, r)
  | some b =>
    let age := if r.rostered then Nat.min 255 (r.age + 1) else 0
    (⟨b.firstTs, b.addr, b.digest, b.length, b2n r.rostered, age, b.seq % 65536⟩, { r with rostered := true, age := age })
/-- A roster in which every stream is ABSENT. DEDUCED: log entry 44. -/
def Dev.absentRoster (d : Dev) : List RosterEntry := (List.range 36).map d.absentEntry
/-- The roster of this frame, under a header with a frame number and its tick (R49). -/
def Dev.setRosterOf (d : Dev) (l : List RosterEntry) (no tick : Nat) : Dev :=
  { d with frame := { d.frame with roster := l, rosterDigest := crc64 (rosterEntries l), rosterFrame := no, rosterTick := tick } }
/-- The part's own roster. -/
def Dev.setRoster (d : Dev) (l : List RosterEntry) : Dev := d.setRosterOf l d.frame.frameNo d.frame.tick
/-- The roster goes to the ring of SCH_ROSTER_BASE, to the slot of the part's own frame number (R51). DESIGN CHOICE: log entry 188. -/
def Dev.ringRoster (d : Dev) : Dev :=
  let a := d.f F.SCH_ROSTER_BASE.ADDR + 2048 * (d.frame.frameNo % 16)
  if d.f F.SCH_ROSTER_BASE.ADDR != 0 && d.inHbm a 1216 && d.hbmServes then d.wrHbm a d.rosterBytes else d
/-- What completed at the instant of the tick is eligible for the next roster (R48). -/
def Stream.promote (r : Stream) : Stream :=
  match r.late with
  | some b => { r with last := some b, late := none, rostered := false, age := 0 }
  | none => r
/-- Freeze the roster (R48), write it to the ring of R51, and send it to the members of a group that this package leads (R52). On a
member no own stream enters it (R444), and its roster is written when it has come from the leader. DEDUCED: log entry 44. -/
def Dev.freezeRoster (d : Dev) : Dev :=
  let d := if d.groupMember then d.setRoster d.absentRoster else
    let q := (List.range 36).map (fun s => (s, d.rosterEntry s))
    q.foldl (fun d x => d.modStrm x.1 (fun _ => x.2.2)) (d.setRoster (q.map (fun x => x.2.1)))
  let d := Dev.take { d with lam := d.lam.map (fun q => (q.1, q.2.promote)) }
  let d := if d.groupMember then d else d.ringRoster
  let d := if d.groupLeader then d.groupPkgs.foldl (fun d p => d.sendLg p (.roster p d.rosterBytes)) d else d
  { d with frame := { d.frame with
      received := none, agreed := [], disagreed := false,
      agreeDone := !(d.groupMember || (d.groupLeader && d.groupPkgs != [])) } }

/-- The roster entry that 32 bytes spell. -/
def entryOfBytes (b : List Nat) : RosterEntry :=
  ⟨bfield b 0 8, bfield b 8 8, bfield b 16 8, bfield b 24 4, b.getD 28 0 / 64 % 4, b.getD 29 0, bfield b 30 2⟩
/-- ROSTER_RECEIVE: a member returns the digest of what it received. A member whose sensor domain started free does not take part (R417). -/
def Dev.rosterReceive (d : Dev) (bytes : List Nat) : Dev :=
  if !d.groupMember || !d.frame.started || d.frame.agreeDone || d.on F.ALM_STAT.FREE_START then d else
  let ents := bytes.drop 64
  let dg := crc64 ents
  let d := { d with frame := { d.frame with received := some bytes } }
  let d := if dg = bfield bytes 16 8 ∧ ents.length = 1152 then
      (d.setRosterOf ((List.range 36).map (fun i => entryOfBytes ((ents.drop (32 * i)).take 32))) (bfield bytes 0 8) (bfield bytes 8 8)).ringRoster
    else d
  d.sendLg (d.f F.LNK_GROUP_MEM.PKG % 2 ^ 15) (.rosterDigest (d.f F.LNK_GROUP_MEM.PKG % 2 ^ 15) dg)
def execRosterReceive (bytes : List Nat) (s : State) : Res := .next (s.upd (fun d => d.rosterReceive bytes))

/-- Does this member hold the leader's roster? DEDUCED: log entry 46. -/
def Dev.memberAgrees (d : Dev) : Bool :=
  match d.frame.received with
  | some b => d.frame.rosterDigest == bfield b 16 8 && crc64 (b.drop 64) == bfield b 16 8 && !d.on F.ALM_STAT.FREE_START
  | none => false
/-- ROSTER_DIGEST_RETURN. The leader receives a member's digest; on a member the command is the news that every digest has come back
equal. DEDUCED: log entry 46. -/
def Dev.digestReturn (d : Dev) (member digest : Nat) : Dev :=
  if !d.frame.started || d.frame.agreeDone then d
  else if d.groupLeader then
    if digest ≠ d.frame.rosterDigest ∨ !d.groupPkgs.contains member then d else
    let l := insNat d.frame.agreed member
    { d with frame := { d.frame with agreed := l, agreeDone := d.groupPkgs.all l.contains } }
  else if d.groupMember && d.memberAgrees && digest == d.frame.rosterDigest then { d with frame := { d.frame with agreeDone := true } }
  else d
def execRosterDigestReturn (member digest : Nat) (s : State) : Res := .next (s.upd (fun d => d.digestReturn member digest))

/-- ROSTER_AGREEMENT_TIMEOUT. -/
def Dev.agreeTimeout (d : Dev) : Dev :=
  if !d.frame.started || d.frame.agreeDone then d else
  let d := d.at_ (d.frame.tick + d.f F.SCH_ROSTER_TMO.TMO_US * 1000)
  let d := { d with frame := { d.frame with agreeDone := true } }
  if d.groupMember then
    if d.memberAgrees then d else
    Dev.raise (Dev.take { d.setRoster d.absentRoster with frame := { (d.setRoster d.absentRoster).frame with disagreed := true } }) 0x0C2 0x8070 0 0
  else if d.groupLeader then d.raise 0x0C2 0x8070 0 0 else d
def execRosterAgreementTimeout (s : State) : Res := .next (s.upd Dev.agreeTimeout)

/-! ## Ordo images (R53 to R58, R311, R312, R326) -/

/-- What refuses an image: status, variant, kind of item, slot or phase number. -/
structure ImgErr where
  st : Nat
  variant : Nat
  item : Nat
  index : Nat
  deriving DecidableEq, Repr

/-- The status of the first category that an item fails; none when it passes. -/
def firstBad : List (Nat × Bool) → Option Nat
  | [] => none
  | (st, b) :: l => if b then some st else firstBad l
/-- Check one item. -/
def item (v kind index : Nat) (l : List (Nat × Bool)) : Except ImgErr Unit :=
  match firstBad l with
  | some st => .error ⟨st, v, kind, index⟩
  | none => .ok ()

/-- The phase that holds a slot. -/
def phaseOf (ps : List PhaseEntry) (t : Nat) : Option Nat :=
  ps.findIdx? (fun p => decide (p.firstTask ≤ t) && decide (t < p.firstTask + p.taskCount))
/-- The phase entries of a variant. A START_NS beyond the period is not refused. DESIGN CHOICE: log entry 187. DEDUCED: log entry 47. -/
def Dev.imgPhases (d : Dev) (v a tasks : Nat) : Nat → List PhaseEntry → Except ImgErr (List PhaseEntry)
  | 0, ps => .ok ps
  | n + 1, ps =>
    let i := ps.length
    let b := leNat (d.rdHbm (a + 64 + 16 * i) 16)
    let first := bits b 41 32
    let cnt := bits b 52 42
    let clash := ps.any (fun q => decide (first < q.firstTask + q.taskCount) && decide (q.firstTask < first + cnt) && cnt != 0 && q.taskCount != 0)
    match item v 1 i [(stReserved, bits b 127 56 != 0), (stBounds, decide (1024 < cnt) || (cnt != 0 && decide (tasks < first + cnt)) || clash)] with
    | .error e => .error e
    | .ok _ => Dev.imgPhases d v a tasks n (ps ++ [⟨bits b 31 0, first, cnt, bits b 55 53⟩])

/-- The floor operating point of a partition in force, in MHz. -/
def Dev.floorMHz (d : Dev) (f : Nat) : Nat := oppMHz (d.live (F.PWR_PART_CFG.FLOOR f))
/-- Is the demand of a safety task's list beyond its budget (R326)? -/
def Dev.overBudget (d : Dev) (part budget modId : Nat) (l : List (List Nat)) : Bool :=
  let f := d.floorMHz part
  decide (budget * f < sumNat (l.map (fun bs =>
    match d.entryOf part modId (bfield bs 18 2) with
    | some (_, e) => 2 * (e.wcetAc * 1000 + e.wcetNs * f)
    | none => 0)))
/-- One task slot with its task list. -/
def Dev.imgSlot (d : Dev) (v a t : Nat) (ps : List PhaseEntry) : Except ImgErr Slot :=
  let b := leNat (d.rdHbm (a + 1088 + 32 * t) 32)
  let part := bits b 3 0
  let ctx := bits b 15 4
  let safety := bitOf b 16
  let modId := bits b 79 64
  let entry := bits b 95 80
  let ups := ((List.range 4).filter (fun n => bitOf b (136 + n))).map (fun n => bits b (105 + 10 * n) (96 + 10 * n))
  let la := d.f (F.SCH_PART_TLIST.ADDR part) + 4096 * (1024 * v + t)
  let inH := d.inHbm la 64
  let hdr := if inH then d.rdHbm la 64 else []
  let cnt := if inH then bfield hdr 0 2 else 0
  let fits := decide (cnt ≤ 63) && d.inHbm la (64 + 64 * cnt)
  let list := if fits then (List.range cnt).map (fun i => d.rdHbm (la + 64 + 64 * i) 64) else []
  let runs := list.filter (fun bs => bs.getD 0 0 == 1)
  let stats := runs.map (fun bs => d.checkRun part bs true)
  let early := fun u => match phaseOf ps t, phaseOf ps u with
    | some p, some q => decide (q < p)
    | _, _ => false
  let mods := list.any (fun bs => bfield bs 16 2 != modId) || (list.head?).any (fun bs => bfield bs 18 2 != entry)
  let noWcet := safety && list.any (fun bs => match d.entryOf part modId (bfield bs 18 2) with
    | some (_, e) => !e.hasWcet
    | none => true)
  let notSafe := safety && (!d.safetyPart part || (d.partPending && d.pend (F.SCH_PART_CFG.SAFETY part) == 0))
  match item v 2 t
    [(stReserved, bits b 31 18 != 0 || bits b 255 190 != 0 || (inH && !zeroBytes hdr 2 64) ||
        list.any (fun bs => bs.getD 1 0 != 0 || !zeroBytes bs 2 16 || bfield bs 24 8 != 0 || (bs.getD 0 0 == 1 && reservedPayload bs))),
     (stFormat, list.any (fun bs => bs.getD 0 0 != 1)),
     (stZero, bits b 63 32 == 0 || (inH && cnt == 0) || runs.any badZero),
     (stUnitAbsent, stats.contains stUnitAbsent),
     (stBounds, !inH || !fits || !ups.all early || (d.entryOf part modId entry).isNone || (d.ctx (ckey part ctx)).isNone || mods ||
        noWcet || notSafe || stats.contains stBounds || (safety && d.overBudget part (bits b 63 32) modId list)),
     (stAlign, stats.contains stAlign)] with
  | .error e => .error e
  | .ok _ => .ok ⟨part, ctx, safety, bitOf b 17, bits b 63 32, modId, entry, ups, bits b 139 136, bits b 175 140, bits b 183 176, bits b 189 184, la, list⟩
/-- The slots of a variant. DEDUCED: log entry 47. -/
def Dev.imgSlots (d : Dev) (v a : Nat) (ps : List PhaseEntry) : Nat → List Slot → Except ImgErr (List Slot)
  | 0, l => .ok l
  | n + 1, l =>
    match d.imgSlot v a l.length ps with
    | .error e => .error e
    | .ok s => Dev.imgSlots d v a ps n (l ++ [s])

/-- One variant: none when its VALID bit is 0. Phase entries beyond PHASE_COUNT and slots beyond TASK_COUNT are not looked at; a part of
the image that lies outside HBM refuses it with BOUNDS, as the image as a whole. DESIGN CHOICE: log entry 187. -/
def Dev.imgVariant (d : Dev) (v a : Nat) : Except ImgErr (Option Variant) :=
  if !d.inHbm a 64 then .error ⟨stBounds, 0, 3, 0⟩ else
  let h := leNat (d.rdHbm a 64)
  if !bitOf h 0 then .ok none else
  if !d.inHbm a 33856 then .error ⟨stBounds, 0, 3, 0⟩ else
  let clu := bits h 24 1
  let att := bits h 30 25
  let pc := bits h 37 31
  let tc := bits h 48 38
  match item v 0 0 [(stReserved, bits h 511 49 != 0), (stZero, pc == 0),
      (stUnitAbsent, clu / 2 ^ d.nClus != 0 || (att != 0 && (!d.full || att / 2 ^ d.nReg != 0))),
      (stBounds, decide (64 < pc) || decide (1024 < tc))] with
  | .error e => .error e
  | .ok _ =>
    match d.imgPhases v a tc pc [] with
    | .error e => .error e
    | .ok ps =>
      match d.imgSlots v a ps tc [] with
      | .error e => .error e
      | .ok ss => .ok (some ⟨clu, att, ps, ss⟩)
/-- The whole image, and the check of R109 on the contexts it names; ERR_VARIANT reads 0 for what concerns the image as a whole.
DESIGN CHOICE: log entry 187. -/
def Dev.image (d : Dev) (src : Nat) : Except ImgErr (List (Nat × Variant)) :=
  let r := (List.range 4).foldl (fun (acc : Except ImgErr (List (Nat × Variant))) v =>
    match acc with
    | .error e => .error e
    | .ok l =>
      match d.imgVariant v (src + 33856 * v) with
      | .error e => .error e
      | .ok (some x) => .ok (l ++ [(v, x)])
      | .ok none => .ok l) (.ok [])
  match r with
  | .error e => .error e
  | .ok l =>
    let named := (l.flatMap (fun q => q.2.slots.map (fun s => ckey s.part s.ctx))).eraseDups
    let held := (d.ctxs.map Prod.fst).filter (fun k => d.pinned k || named.contains k)
    if 4096 < held.length then .error ⟨stCtxExhausted, 0, 3, 0⟩ else .ok l

/-- A refused image leaves the active bank in use. -/
def Dev.refuseImage (d : Dev) (e : ImgErr) : Dev :=
  ((((d.set F.SCH_ORDO_STATUS.ERR_CODE e.st).set F.SCH_ORDO_STATUS.ERR_INDEX e.index).set F.SCH_ORDO_STATUS.ERR_VARIANT e.variant).set
    F.SCH_ORDO_STATUS.ERR_ITEM e.item).set F.SCH_ORDO_STATUS.REFUSED 1
/-- The ranges of HBM that SWITCH reads of variant `v` at `a`: its header and, when it is valid, all of it and its task lists (R57, R312). -/
def Dev.imgReads (d : Dev) (v a : Nat) : List (Nat × Nat) :=
  let h := leNat (d.rdHbm a 64)
  if !d.inHbm a 64 then [] else if !bitOf h 0 then [(a, 64)] else
  (a, 33856) :: (List.range (Nat.min 1024 (bits h 48 38))).flatMap (fun t =>
    let la := d.f (F.SCH_PART_TLIST.ADDR (bits (leNat (d.rdHbm (a + 1088 + 32 * t) 32)) 3 0)) + 4096 * (1024 * v + t)
    if d.inHbm la 64 then [(la, 64 + 64 * Nat.min 63 (bfield (d.rdHbm la 64) 0 2))] else [])
/-- What SWITCH reads of the image at `src`. -/
def Dev.switchReads (d : Dev) (src : Nat) : List (Nat × Nat) := (List.range 4).flatMap (fun v => d.imgReads v (src + 33856 * v))
/-- The image is validated. The status of one with a poisoned granule is not stated: a free value. DEDUCED: log entry 48. -/
def Dev.imgTake (d : Dev) (src : Nat) : Dev :=
  match (d.switchReads src).findSome? (fun x => (d.poisonIn x.1 x.2).head?) with
  | some g => (d.hbmUeAt g accFetch).take.refuseImage ⟨Config.freeNat d.fresh 0, 0, 3, 0⟩
  | none =>
    match d.image src with
    | .error e => d.refuseImage e
    | .ok l => Dev.set { d with frame := { d.frame with copying := some l } } F.SCH_ORDO_CTRL.BUSY 1
/-- The image is read, with the errors that the hub meets in it. -/
def Dev.switchNow (d : Dev) (mem : List MemErr) : Dev :=
  let src := d.f F.SCH_ORDO_SRC.ADDR
  d.met accFetch (d.switchReads src) mem (fun d => d.imgTake src)
/-- SWITCH. After a warm reset the reads wait, with BUSY set, until HBM serves them (R503). DEDUCED: log entry 197. -/
def Dev.ordoSwitch (d : Dev) (mem : List MemErr) : Dev :=
  if d.on F.SCH_ORDO_CTRL.BUSY || d.on F.SCH_ORDO_CTRL.PENDING then d else
  if d.rst.hbmReady then d.switchNow mem else
  Dev.set { d with frame := { d.frame with switchWait := true } } F.SCH_ORDO_CTRL.BUSY 1
def execOrdoSwitch (mem : List MemErr) (s : State) : Res := .next (s.upd (fun d => d.ordoSwitch mem))

/-- The contexts that a bank's valid variants name. -/
def bankKeys (l : List (Nat × Variant)) : List Nat := (l.flatMap (fun q => q.2.slots.map (fun s => ckey s.part s.ctx))).eraseDups
/-- The bank that waits for its tick. -/
def Dev.nextBank (d : Dev) : List (Nat × Variant) := d.frame.banks.getD (1 - d.f F.SCH_ORDO_CTRL.BANK) []
/-- The contexts of the waiting bank are made resident where there is room (R332). -/
def Dev.bankResident (d : Dev) (mem : List MemErr) : Dev :=
  (bankKeys d.nextBank).foldl (fun (d : Dev) key =>
    match d.ctx key with
    | none => d
    | some c =>
      if c.resident then d else
      match d.makeRoom with
      | some d => (d.swapIn key mem).heldBells key
      | none => d) d
/-- ORDO_COPY_DONE: the bank waits for the tick, and the contexts it names are resident before it (R332). DEDUCED: log entry 48. -/
def Dev.ordoCopyDone (d : Dev) (mem : List MemErr) : Dev :=
  match d.frame.copying with
  | none => d
  | some l =>
    let d := { d with frame := { d.frame with copying := none, banks := d.frame.banks.set (1 - d.f F.SCH_ORDO_CTRL.BANK) l } }
    ((d.set F.SCH_ORDO_CTRL.BUSY 0).set F.SCH_ORDO_CTRL.PENDING 1).bankResident mem
def execOrdoCopyDone (mem : List MemErr) (s : State) : Res := .next (s.upd (fun d => d.ordoCopyDone mem))

/-! ## Judging (R64) -/

/-- The reasons that the inputs of a task give: roster streams, and the upstream tasks whose reasons are known. -/
def Dev.inputReasons (d : Dev) (s : Slot) (known : List (Nat × Nat)) : List Nat :=
  let read := maskList s.roster 36
  let es := read.filterMap (fun i => d.frame.roster[i]?)
  (if read = [] then []
   else if d.frame.disagreed then [3]
   else (if es.any (fun e => e.state == 2) then [1] else []) ++ (if es.any (fun e => e.state != 2 && decide (s.maxAge < e.age)) then [2] else [])) ++
  (if s.upstream.any (fun u => mget 0 known u != 0) then [4] else [])
/-- The least number of a list; 0 for none. -/
def least (l : List Nat) : Nat := l.foldl (fun a b => if a = 0 then b else Nat.min a b) 0
/-- The reason of one task; 0 is VALID. `vigil` says that the Vigil judges. -/
def Dev.judge (d : Dev) (v : Variant) (vigil : Bool) (known : List (Nat × Nat)) (t : Nat) : Nat :=
  match v.slots[t]?, d.task t with
  | some s, some k =>
    least (d.inputReasons s known ++ k.reasons ++ k.skipped.toList ++
      (if vigil && (!k.ended || decide (d.vigilTime ≤ k.endedAt)) then [8] else []) ++
      (if maskHas d.safe.bFrame.toNat s.part || d.held s.part then [10] else []))
  | _, _ => 0
/-- The reasons of every task, upstream first: phase by phase, then the slots of no phase. -/
def Dev.judgeAll (d : Dev) (v : Variant) (vigil : Bool) : List (Nat × Nat) :=
  let order := v.phases.flatMap (fun p => (List.range p.taskCount).map (fun i => p.firstTask + i)) ++
    (List.range v.slots.length).filter (fun t => (phaseOf v.phases t).isNone)
  order.foldl (fun known t => mset known t (d.judge v vigil known t)) []

/-! ## Phases and tasks (R59, R60) -/

/-- Release one task, or end it: withdrawn under safe state B, or skipped because an input is already invalid. -/
def Dev.release (d : Dev) (v : Variant) (t : Nat) : Dev :=
  match v.slots[t]? with
  | none => d
  | some s =>
    if d.held s.part then d.modTask t (fun k => { k with ended := true, endedAt := d.now, reasons := k.reasons ++ [10] })
    else
      let r := least (d.inputReasons s (d.judgeAll v false))
      if s.skip && r != 0 then d.modTask t (fun k => { k with ended := true, endedAt := d.now, skipped := some r })
      else (d.modTask t (fun k => { k with released := true })).pushTask t
/-- PHASE_START: phase 0 after the end of roster agreement, a later phase after every task of the one before has ended. -/
def Dev.phaseStart (d : Dev) (t : Nat) : Dev :=
  match d.plan with
  | none => d
  | some v =>
    let n := match d.frame.phase with
      | some p => p + 1
      | none => 0
    match v.phases[n]? with
    | none => d
    | some p =>
      let prev := match d.frame.phase with
        | none => d.frame.agreeDone
        | some q => (match v.phases[q]? with
          | some x => (List.range x.taskCount).all (fun i => match d.task (x.firstTask + i) with
            | some k => k.ended
            | none => true)
          | none => true)
      if !d.frame.started || d.frame.vigilDone || !prev || decide (Nat.max d.now t < d.frame.tick + p.startNs) then d else
      let d := (d.at_ t).closePhase
      let d := Dev.openPhase { d with frame := { d.frame with phase := some n } }
      (Dev.planPreempt ((List.range p.taskCount).foldl (fun d i => d.release v (p.firstTask + i)) d)).phaseDone
def execPhaseStart (t : Nat) (s : State) : Res := .next (s.upd (fun d => d.phaseStart t))

/-- BUDGET_OVERRUN (R62). DEDUCED: log entry 53. -/
def Dev.budgetOverrun (d : Dev) (id t : Nat) : Dev :=
  match mfind d.runs id with
  | none => d
  | some r =>
    if !r.ordo || r.frame != d.frame.frameNo || !(r.holds) then d else
    let d := (d.at_ t).charge id true
    match d.task r.task, d.slotOf r.task with
    | some k, some s =>
      if k.charge < s.budget || r.endKill.isSome then d else
      let d := d.raise 0x0C0 ((r.members.head?).map Member.phys |>.getD 0) (r.task + r.ctx * 65536) 0
      if r.inCommit then d.modRun id (fun r => { r with endKill := some 7 }) else d.killFinal id stBudget 0
    | _, _ => d
def execBudgetOverrun (run t : Nat) (s : State) : Res := .next (s.upd (fun d => d.budgetOverrun run t))

/-! ## The Vigil (R63 to R65, R104) -/

/-- Write a result record to its partition's ring, or drop and count it (R104). DEDUCED: log entry 49. -/
def Dev.resultRecord (d : Dev) (f : Nat) (bs : List Nat) : Dev :=
  let base := d.f (F.HIF_FN_RES_BASE.ADDR f)
  let n := 2 ^ d.f (F.HIF_FN_RES_CFG.LOG2 f)
  let p := d.f (F.HIF_FN_RES_PROD.INDEX f)
  let a := base / 2 * 2 + 32 * p
  let hbm := base % 2 == 1
  if base = 0 ∨ (p + 1) % n = d.f (F.HIF_FN_RES_CONS.INDEX f) ∨ (hbm && (!d.inHbm a 32 || !d.hbmServes)) ∨ (!hbm && !d.rst.linkUp) then
    d.addSat (F.HIF_FN_RES_LOST.COUNT f) 1
  else Dev.set (if hbm then d.wrHbm a bs else d.wrHost a bs) (F.HIF_FN_RES_PROD.INDEX f) ((p + 1) % n)
/-- A result record (R65). What it holds of an output that was never published is not stated: free values. -/
def Dev.recordBytes (d : Dev) (slot i reason : Nat) (o : Option OutRec) : List Nat :=
  let v := fun k n => Config.freeNat d.fresh (4 * (slot * 64 + i) + k) % 2 ^ n
  let o := o.getD ⟨v 0 64, v 1 64, v 2 32⟩
  leBytes 8 d.frame.frameNo ++ leBytes 8 o.addr ++ leBytes 8 o.crc ++ leBytes 4 o.length ++ leBytes 2 (slot + i * 1024) ++
  [reason, if reason = 0 then 1 else 0]
/-- The records of every task, in slot order. DEDUCED: log entry 50. -/
def Dev.writeRecords (d : Dev) (v : Variant) (known : List (Nat × Nat)) : Dev :=
  (List.range v.slots.length).foldl (fun d t =>
    match v.slots[t]?, d.task t with
    | some s, some k => (List.range s.outputs).foldl (fun d i => d.resultRecord s.part (d.recordBytes t i (mget 0 known t) k.outs[i]?)) d
    | _, _ => d) d
/-- The Vigil records of the contexts that own a task (R63, R118). DETAIL counts every output of those tasks, also one whose result record
was dropped (R104). DEDUCED: log entry 50. DESIGN CHOICE: log entry 193. -/
def Dev.vigilRecords (d : Dev) (v : Variant) (known : List (Nat × Nat)) : Dev :=
  let keys := (v.slots.map (fun s => ckey s.part s.ctx)).foldl insNat []
  keys.foldl (fun d key =>
    let own := (List.range v.slots.length).filter (fun t => (v.slots[t]?).any (fun s => ckey s.part s.ctx == key))
    let count := fun l => sumNat (l.map (fun t => ((v.slots[t]?).map Slot.outputs).getD 0))
    let all := count own
    let bad := count (own.filter (fun t => mget 0 known t != 0))
    d.emitFree key ⟨2, 0, 0, if bad = 0 then stOk else stInvalidated, all + bad * 65536, 0, 0, false⟩) d
/-- A wait whose deadline is 0 ends at the Vigil (R238). -/
def Stall.dueBy (now : Nat) : Stall → Stall
  | .wait w => if w.deadline = 0 then .wait { w with deadline := now } else .wait w
  | s => s
def CmdSt.dueBy (now : Nat) : CmdSt → CmdSt
  | .waiting f v 0 => .waiting f v now
  | s => s
/-- The deadlines that are the Vigil, now that it has come. -/
def Dev.dueNow (d : Dev) : Dev :=
  { d with
    runs := d.runs.map (fun q => (q.1, { q.2 with members := q.2.members.map (fun m => { m with stall := m.stall.dueBy d.now }) })),
    ctxs := d.ctxs.map (fun q => (q.1, { q.2 with cmds := q.2.cmds.map (fun k => { k with st := k.st.dueBy d.now }) })) }
/-- The COPY and PULL commands that the Vigil kills (R115, R442): which, is not stated, a free choice for each. DEDUCED: log entry 51. -/
def Dev.vigilCopies (d : Dev) : Dev :=
  d.ctxs.foldl (fun (d : Dev) q =>
    match d.head q.1 with
    | none => d
    | some k =>
      if k.st ≠ .copying ∧ k.st ≠ .pulling then d
      else if Config.freeBool d.fresh then (d.take.stopHead k).complete q.1 stInvalidated 0 0 0 else d.take) d
/-- Steps 1 and 2 of R63: commands of the frame that run or wait for a re-run are killed, those never dispatched are withdrawn, and those
in commit finish; the phase ends. The rows that are due may be repaired from now on (R135). DEDUCED: log entry 51. -/
def Dev.closeFrame (d : Dev) : Dev :=
  let d := Dev.vigilCopies (Dev.dueNow { d with
    frame := { d.frame with vigilDone := true },
    mem := { d.mem with rowsReady := d.mem.sramRepairDue.filter (fun key => unitKind (keyUnit key) == 3 || unitKind (keyUnit key) == 4) } })
  let d := d.killWhere (fun r => r.ordo && r.dispatched && !r.inCommit) stInvalidated 8
  let d := (d.runs.filter (fun q => q.2.ordo && !q.2.inCommit)).foldl (fun d q => d.dropRun q.1) d
  if d.frame.variant.isSome then d.closePhase else d
/-- VIGIL. DEDUCED: log entry 51. -/
def Dev.vigil (d : Dev) : Dev :=
  if !d.frame.started || d.frame.vigilDone then d else
  let d := (d.at_ d.vigilTime).closeFrame
  match d.plan with
  | some v =>
    let known := d.judgeAll v true
    Dev.take ((d.writeRecords v known).vigilRecords v known)
  | none =>
    if d.on F.SCH_ORDO_CTRL.NO_PLAN then
      Dev.take ((List.range 16).foldl (fun d f => d.resultRecord f (d.recordBytes 0x3FF 0 9 none)) d)
    else d
def execVigil (s : State) : Res := .next (s.upd Dev.vigil)

/-! ## The start of a frame -/

/-- A pending validated bank becomes active (R53), once every context it names is resident (R332). DEDUCED: log entry 48. -/
def Dev.activateBank (d : Dev) : Dev :=
  if d.on F.SCH_ORDO_CTRL.PENDING && (bankKeys d.nextBank).all (fun key => ((d.ctx key).map Ctx.resident).getD true) then (d.set F.SCH_ORDO_CTRL.BANK (1 - d.f F.SCH_ORDO_CTRL.BANK)).set F.SCH_ORDO_CTRL.PENDING 0 else d
/-- The variant of the frame (R66, R67): the lowest feasible one. A frame without one counts as one phase (R469). -/
def Dev.selectVariant (d : Dev) : Dev :=
  let bank := d.frame.banks.getD (d.f F.SCH_ORDO_CTRL.BANK) []
  let pick := bank.find? (fun q => d.feasible q.2)
  let tasks := match pick with
    | some q => (List.range q.2.slots.length).map (fun t => (⟨t, false, false, none, 0, 0, [], 0, []⟩ : Task))
    | none => []
  let d := { d with frame := { d.frame with variant := pick.map Prod.fst, phase := none, tasks := tasks } }
  let d := (d.set F.SCH_ORDO_CTRL.VARIANT ((pick.map Prod.fst).getD 0)).set F.SCH_ORDO_CTRL.NO_PLAN (b2n (bank != [] && pick.isNone))
  let d := if pick.isNone then d.openPhase else d
  if bank != [] && pick.isNone then d.raise 0x0C1 0x8070 0 0 else d
/-- The statistics of the frame just ended (R328). -/
def Dev.frameStats (d : Dev) : Dev :=
  let d := { d with ctxs := d.ctxs.map (fun (q : Nat × Ctx) => (q.1, { q.2 with
      frAvg := if q.2.frCount = 0 then 0 else q.2.frSum / q.2.frCount, frCnt := Nat.min 65535 q.2.frCount, frSum := 0, frCount := 0 })) }
  let d := (List.range 16).foldl (fun d f =>
    let l := mget [] d.frame.partSlow f
    (d.set (F.SCH_PART_SLOW.PEAK f) (l.foldl Nat.max 0)).set (F.SCH_PART_SLOW.AVG f) (if l = [] then 0 else sumNat l / l.length)) d
  { d with frame := { d.frame with partSlow := [] } }
/-- The commands that ended at the instant of the tick enter the statistics of the frame it starts (R328). -/
def Dev.lateStats (d : Dev) : Dev :=
  d.frame.late.foldl (fun d x => d.countSlow x.1 x.2) { d with frame := { d.frame with late := [] } }
/-- Doorbells held for contexts that are swapped out, at a tick (R109). -/
def Dev.tickBells (d : Dev) (mem : List MemErr) : Dev :=
  ((d.ctxs.filter (fun q => !q.2.resident)).map Prod.fst).foldl (fun (d : Dev) key => d.bellAct key mem false) d
/-- A pending assignment takes effect, and ring commands on clusters that leave their partition are pre-empted (R306, R307). -/
def Dev.takeAssignment (d : Dev) : Dev :=
  if !d.partPending then d else
  let old := d
  let d := (d.enforce (R.SCH_CLU_PART 0) (R.SCH_PART_CFG 16)).set F.SCH_PART_CTRL.PENDING 0
  let left := fun k => old.cluPart k != d.cluPart k
  (d.runs.filter (fun q => !q.2.ordo && q.2.holds && !q.2.inCommit && q.2.clusters.any left)).foldl (fun d q => d.preempt q.1) d
/-- A pending reservation takes effect (R147). -/
def Dev.takeRsv (d : Dev) : Dev :=
  if d.on F.MEM_RSV_CTRL.PENDING then (d.enforce (R.MEM_RSV 0 0) (R.MEM_RSV 17 0)).set F.MEM_RSV_CTRL.PENDING 0 else d
/-- The Ember settings written since the last tick take effect (R410). -/
def Dev.takeEmber (d : Dev) : Dev := (d.stage R.SAF_EMB_CFG (R.SAF_EMB_CFG + 4)).enforce R.SAF_EMB_CFG (R.SAF_EMB_CFG + 4)
/-- Pending releases of safe state B take effect (R384); what is held now is held during part of the new frame (R383). -/
def Dev.takeRelease (d : Dev) : Dev :=
  let b := BitVec.ofNat 16 (d.f F.SAF_SAFE_STAT.B_PART) &&& ~~~ d.safe.bClear
  let d := d.set F.SAF_SAFE_STAT.B_PART b.toNat
  { d with safe := { d.safe with bClear := 0, bFrame := b } }
/-- The new frame's number, its tick, and the tick that will close it (R44, R46). DEDUCED: log entry 43. -/
def Dev.newFrame (d : Dev) : Dev :=
  let t := d.frame.nextTick
  let trans := d.on F.ALM_KAL_CTRL.PENDING
  let d := if trans then (d.enforce R.ALM_KAL_PERIOD R.ALM_KAL_CTRL).set F.ALM_KAL_CTRL.PENDING 0 else d
  let p := d.live F.ALM_KAL_PERIOD.PERIOD_NS
  let next := if trans then tickFrom (d.live F.ALM_KAL_PHASE.PHASE_NS) p (t + (p + 1) / 2) else t + p
  { d with frame := { d.frame with
      frameNo := if d.frame.started then d.frame.frameNo + 1 else 0, started := true,
      prevTick := if d.frame.started then some d.frame.tick else none, tick := t, nextTick := next, vigilDone := false } }

end Sys2Proof.Machine
end

