-- ==== Sys2Proof/Machine/Almanac.lean ====
section
/-!
DEFINITION. Almanac (R412 to R429): the sensor domain as grandmaster and as follower, the trackers of the two vehicle domains, the vehicle
time and its switch residual, steering, snapshots, and the TIO pins. Times are in ns, rates in ppb.
-/
namespace Sys2Proof.Machine

/-! ## Numbers -/

/-- Truncation toward zero. -/
def truncRat (x : Rat) : Int := if x < 0 then -((-x).floor) else x.floor
/-- A value held between two bounds. DEDUCED: log entry 133. -/
def boundInt (lo hi x : Int) : Int := if x < lo then lo else if hi < x then hi else x
def boundRat (lo hi x : Rat) : Rat := if x < lo then lo else if hi < x then hi else x
/-- A signed 32-bit register of a value, saturating. -/
def sat32 (x : Int) : Nat := ofSigned 32 (boundInt (-2147483648) 2147483647 x)

/-! ## The trackers (R421) -/

/-- The model's time of the domain at sensor time `s`. DEDUCED: log entry 130. -/
def Tracker.time (k : Tracker) (s : Rat) : Rat := s + k.ofs + k.rate * (s - k.ref) / 1000000000
/-- A new rate from sensor time `s` on; the model's time is continuous there (R412). DEDUCED: log entry 130. -/
def Tracker.setRate (k : Tracker) (s : Nat) (rate : Rat) : Tracker := { k with ofs := k.time s - s, ref := s, rate := rate }
def Dev.trk (d : Dev) (i : Nat) : Tracker := d.alm.doms.getD i ⟨0, 0, 0, 0, none, 0, 0⟩
def Dev.setTrk (d : Dev) (i : Nat) (k : Tracker) : Dev :=
  Dev.set { d with alm := { d.alm with doms := d.alm.doms.set i k } } (F.ALM_DOM_RATE.RATE i) (sat32 (truncRat k.rate))
/-- The state of a tracker: 0 OFF, 1 ACQUIRE, 2 RATE_ONLY, 3 LOCKED, 4 HOLDOVER (Table 2). -/
def domFld (i : Nat) : Fld := if i = 0 then F.ALM_STAT.A_STATE else F.ALM_STAT.B_STATE
def Dev.domState (d : Dev) (i : Nat) : Nat := d.f (domFld i)
def Dev.setDom (d : Dev) (i st : Nat) : Dev := d.set (domFld i) st

/-! ## The vehicle time (R422, R423) -/

/-- The switch residual at sensor time `s`. -/
def Dev.resid (d : Dev) (s : Rat) : Rat :=
  let m := (d.f F.ALM_SLEW.SLEW_PPB : Rat) * (s - d.alm.residAt) / 1000000000
  if 0 ≤ d.alm.resid then max 0 (d.alm.resid - m) else min 0 (d.alm.resid + m)
def Dev.setResid (d : Dev) (e : Rat) : Dev :=
  Dev.set { d with alm := { d.alm with resid := e, residAt := d.now } } F.ALM_STAT.SWITCHING (b2n (e != 0))
/-- The vehicle time at sensor time `s`. -/
def Dev.vt (d : Dev) (s : Rat) : Rat := (d.trk (d.f F.ALM_STAT.SELECTED)).time s + d.resid s
/-- A change that must not move the vehicle time: the residual takes up what it would move. DEDUCED: log entry 132. -/
def Dev.keepVt (d : Dev) (g : Dev → Dev) : Dev :=
  let e := g d
  if d.on F.ALM_STAT.VT_VALID then e.setResid (e.resid e.now + (d.vt d.now - e.vt e.now)) else e.setResid 0
/-- The selection; `sample` is the domain whose sample has just been taken, if any. -/
def Dev.reselect (d : Dev) (sample : Option Nat) : Dev :=
  let p := d.f F.ALM_CFG.PREFER
  let s := d.f F.ALM_STAT.SELECTED
  let locked := fun i => d.domState i == 3
  let back := d.on F.ALM_CFG.REVERT && sample == some p && locked p
  let want := if locked s && !back then s else if locked p then p else if locked (1 - p) then 1 - p else s
  if want = s then d else d.keepVt (fun d => d.set F.ALM_STAT.SELECTED want)

/-- Is a domain enabled and none LOCKED (R418)? -/
def Dev.noneLocked (d : Dev) : Bool :=
  (d.on (F.ALM_DOM_CFG.EN 0) || d.on (F.ALM_DOM_CFG.EN 1)) && d.domState 0 != 3 && d.domState 1 != 3
/-- ALM_HOLDOVER is raised when that begins to hold. -/
def Dev.watchHold (d : Dev) (g : Dev → Dev) : Dev :=
  let e := g d
  if !d.noneLocked && e.noneLocked then e.raise 0x181 0x8030 0 0 else e

/-- A tracker reaches LOCKED: the integrator starts at 0. DEDUCED: log entry 131. -/
def Dev.lockDom (d : Dev) (i : Nat) : Dev :=
  (((d.setTrk i { d.trk i with integ := 0 }).setDom i 3).reselect (some i)).set F.ALM_STAT.VT_VALID 1
/-- The step of an acquisition: the model's time becomes the measured time, and the vehicle time stays where it is. DEDUCED: log entry 132. -/
def Dev.stepDom (d : Dev) (i : Nat) (m : Int) : Dev :=
  let g := fun (d : Dev) => d.setTrk i { d.trk i with ofs := (m : Rat) - d.now, ref := d.now, lastO := some (0, d.now), good := 0 }
  let d := if d.f F.ALM_STAT.SELECTED = i then d.keepVt g else g d
  (d.addSat (F.ALM_DOM_STEPS.COUNT i) 1).setDom i 2
/-- The correction of RATE_ONLY. -/
def Dev.rateOnly (d : Dev) (i : Nat) (o : Int) : Dev :=
  let k := d.trk i
  let rate := match k.lastO with
    | some (o1, t1) => if t1 < d.now then k.rate - ((o - o1 : Int) : Rat) * 1000000000 / ((d.now - t1 : Nat) : Rat) else k.rate
    | none => k.rate
  let good := if o.natAbs ≤ d.f (F.ALM_DOM_LIM.LOCK_NS i) then k.good + 1 else 0
  let d := d.setTrk i { k.setRate d.now rate with lastO := some (o, d.now), good := good }
  if 8 ≤ good then d.lockDom i else d
/-- The servo of LOCKED. -/
def Dev.servo (d : Dev) (i : Nat) (o : Int) : Dev :=
  let k := d.trk i
  let n := boundInt (-2147483648) 2147483647 (k.integ + o)
  let c := (o * d.f (F.ALM_DOM_SERVO.KP i) + n * d.f (F.ALM_DOM_SERVO.KI i)).tdiv 65536
  d.setTrk i { k.setRate d.now (boundRat (-500000) 500000 (k.rate - c)) with integ := n }

/-- Does a domain accept a message: its MAC, transport, delay mechanism, domain number and grandmaster (R420)? Domains that share a MAC are
told apart by number. -/
def Dev.accepts (d : Dev) (i : Nat) (m : PtpMsg) : Bool :=
  let want := d.f (F.ALM_DOM_GM.GM i)
  d.f (F.ALM_DOM_CFG.PORT i) == m.mac && d.f (F.ALM_DOM_CFG.TRANSPORT i) == b2n m.udp && d.f (F.ALM_DOM_CFG.DELAY i) == b2n m.p2p &&
  d.f (F.ALM_DOM_CFG.DOMAIN_NUM i) == m.num && (want == 0 || want == m.gm)
/-- VEHICLE_SYNC_SAMPLE (R420, R421): a valid sync with its delay, from the domain's grandmaster. -/
def Dev.vehicleSample (d : Dev) (i seconds nanos : Nat) (delay : Int) (msg : PtpMsg) (t : Nat) : Dev :=
  if !d.running || !d.on (F.ALM_DOM_CFG.EN i) || !d.accepts i msg || d.rst.low == 2 then d else
  let d := d.at_ t
  let m : Int := (seconds * 1000000000 + nanos : Nat) + delay
  let o := ((d.trk i).time d.now).floor - m
  let d := (d.setTrk i { d.trk i with validAt := d.now }).set (F.ALM_DOM_OFS.OFFSET i) (sat32 o)
  d.watchHold (fun d =>
    let d := match d.domState i with
      | 1 => d.stepDom i m
      | 2 => d.rateOnly i o
      | 3 => d.servo i o
      | 4 => if o.natAbs ≤ d.f (F.ALM_DOM_REACQ.REACQ_NS i) then d.lockDom i else d.stepDom i m
      | _ => d
    d.reselect (some i))
def execVehicleSyncSample (n seconds nanos : Nat) (delay : Int) (m : PtpMsg) (t : Nat) (s : State) : Res :=
  .next (s.upd (fun d => if n < 2 then d.vehicleSample n seconds nanos delay m t else d))

/-- DOMAIN_LOSS. DEDUCED: log entry 131. -/
def Dev.domainLoss (d : Dev) (i t : Nat) : Dev :=
  if (d.domState i != 2 && d.domState i != 3) || decide (Nat.max d.now t < (d.trk i).validAt + d.f (F.ALM_DOM_LIM.LOSS_MS i) * 1000000) then d else
  (d.at_ t).watchHold (fun d => ((d.setDom i 4).raise 0x180 0x8030 i 0).reselect none)
def execDomainLoss (n t : Nat) (s : State) : Res := .next (s.upd (fun d => if n < 2 then d.domainLoss n t else d))

/-- A tracker goes to ACQUIRE, or to OFF. -/
def Dev.toDom (d : Dev) (i st : Nat) : Dev :=
  ((d.setTrk i { d.trk i with integ := 0, lastO := none, good := 0 }).setDom i st).reselect none
def Dev.restartDom (d : Dev) (i st : Nat) : Dev := d.watchHold (fun d => d.toDom i st)
/-- REACQ. -/
def Dev.reacq (d : Dev) (i : Nat) : Dev := if d.on (F.ALM_DOM_CFG.EN i) then d.restartDom i 1 else d
def execReacq (n : Nat) (s : State) : Res := .next (s.upd (fun d => if n < 2 then d.reacq n else d))

/-- A refused Almanac write (R429). -/
def Dev.almBad (d : Dev) : Dev := d.set F.ALM_CFG.BAD_CFG 1
/-- DOMAIN_CFG_WRITE (R429): `gm` selects ALM_DOM_GM. -/
def Dev.domainCfg (d : Dev) (i : Nat) (gm : Bool) (value t : Nat) : Dev :=
  let d := d.at_ t
  let en := d.on (F.ALM_DOM_CFG.EN i)
  if gm then
    let d1 := d.set (F.ALM_DOM_GM.GM i) value
    if en && d.f (F.ALM_DOM_GM.GM i) != value % 2 ^ 64 then d1.restartDom i 1 else d1
  else if 239 < bits value 12 5 then d.almBad else
  let was := bits (d.reg (R.ALM_DOM_CFG i)).toNat 12 1
  let g := fun (d : Dev) => d.setReg (R.ALM_DOM_CFG i) (BitVec.ofNat 64 (value % 2 ^ 13))
  let now := bits value 12 1
  if !bitOf value 0 then (if en then d.watchHold (fun d => (g d).toDom i 0) else g d)
  else if !en || was != now || bitOf value 13 then d.watchHold (fun d => (g d).toDom i 1) else g d
def execDomainCfgWrite (n : Nat) (gm : Bool) (value t : Nat) (s : State) : Res :=
  .next (s.upd (fun d => if n < 2 then d.domainCfg n gm value t else d))

/-- SWITCH_SLEW_DONE. -/
def Dev.slewDone (d : Dev) (t : Nat) : Dev :=
  if d.resid (Nat.max d.now t) = 0 then (d.at_ t).setResid 0 else d
def execSwitchSlewDone (t : Nat) (s : State) : Res := .next (s.upd (fun d => d.slewDone t))

/-! ## Steering (R419) -/

/-- STEER_UPDATE: at most once per ms, by at most 100 ppb; frozen while the selected domain gives no rate. DEDUCED: log entry 133. -/
def Dev.steer (d : Dev) (t : Nat) : Dev :=
  let d := d.at_ t
  if d.f F.ALM_STAT.SEN_STATE ≠ 1 ∨ d.now < d.alm.steerAt + 1000000 then d else
  let cur := s32 (d.f F.ALM_SEN_RATE.RATE)
  let sel := d.f F.ALM_STAT.SELECTED
  let lim : Int := d.f F.ALM_STEER.LIMIT_PPB
  let aim := if !d.on F.ALM_CFG.STEER then 0
    else if d.domState sel = 2 ∨ d.domState sel = 3 then boundInt (-lim) lim (cur + truncRat (d.trk sel).rate)
    else cur
  Dev.set { d with alm := { d.alm with steerAt := d.now } } F.ALM_SEN_RATE.RATE (ofSigned 32 (cur + boundInt (-100) 100 (aim - cur)))
def execSteerUpdate (t : Nat) (s : State) : Res := .next (s.upd (fun d => d.steer t))

/-! ## The start of the sensor domain (R414, R415, R417) -/

/-- Time steps from now to `v`: what has been measured from an instant before stays as long as it was (R395, R398, R403, R407). -/
def Dev.stepTime (d : Dev) (v : Nat) : Dev :=
  let s := fun (x : Nat) => x + v - d.now
  let ins := fun (i : LongIns) => { i with at_ := s i.at_, since := s i.since, started := i.started.map s }
  { d with
    safe := { d.safe with pairTest := s d.safe.pairTest, aFirst := d.safe.aFirst.map s },
    coll := { d.coll with srcs := d.coll.srcs.map (fun q => (q.1, { q.2 with winEnd := q.2.winEnd.map s })) },
    mem := { d.mem with patrolFrom := s d.mem.patrolFrom, withheld := d.mem.withheld.map (fun q => (q.1, s q.2)) },
    ctxs := d.ctxs.map (fun q => (q.1, { q.2 with lastFetch := s q.2.lastFetch, unsigSince := q.2.unsigSince.map s })),
    runs := d.runs.map (fun q => (q.1, { q.2 with
      dispatchedAt := s q.2.dispatchedAt, exFrom := q.2.exFrom.map s, chargeFrom := q.2.chargeFrom.map s,
      members := q.2.members.map (fun m => { m with queues := m.queues.map (fun l => l.map ins) }),
      xfers := q.2.xfers.map (fun x => { x with since := s x.since }) })),
    leap := { d.leap with
      wornAt := s d.leap.wornAt,
      units := (d.wearUnits.foldl (fun (e : Dev) u =>
        e.modUnit u (fun x => { x with serviceNs := d.serviceAt u, inSince := v, lastPass := s x.lastPass })) d).leap.units,
      clus := d.leap.clus.map (fun c => { c with
        engPrev := s c.engPrev, pcPrev := s c.pcPrev, seqTest := s c.seqTest, loan := c.loan.map (fun l => { l with began := s l.began }) }) },
    pwr := { d.pwr with
      energyAt := s d.pwr.energyAt, samples := d.pwr.samples.map (fun q => (s q.1, q.2)), capStepAt := s d.pwr.capStepAt, overCapAt := s d.pwr.overCapAt, phaseFrom := d.pwr.phaseFrom.map s, alertHold := d.pwr.alertHold.map s, tripHold := d.pwr.tripHold.map s } }
/-- The domain starts at `v` in a state of SEN_STATE; the first tick is the first instant from there that satisfies R44. -/
def Dev.startTime (d : Dev) (v st : Nat) : Dev :=
  let d := d.stepTime v
  Dev.set { d with now := v, running := true, frame := { d.frame with
      nextTick := tickFrom (d.live F.ALM_KAL_PHASE.PHASE_NS) (d.live F.ALM_KAL_PERIOD.PERIOD_NS) v } } F.ALM_STAT.SEN_STATE st
/-- Has the firmware started Almanac, and is the part a follower? -/
def Dev.almUp (d : Dev) : Bool := d.coll.ready && !d.sec.overLink
def Dev.follows (d : Dev) : Bool := d.full && d.on F.ALM_CFG.ROLE
/-- SENSOR_DOMAIN_START. -/
def Dev.sensorStart (d : Dev) : Dev := if d.running || !d.almUp || d.follows then d else d.startTime 0 1
def execSensorDomainStart (s : State) : Res := .next (s.upd Dev.sensorStart)

/-- The fault address of a follower. -/
def Dev.followAddr (d : Dev) : Nat := 0x10 + d.f F.ALM_CFG.FOLLOW_PORT
/-- FOLLOWER_SYNC: `origin` is the grandmaster's time of the sync at the part, `rate` the correction that it calls for. A domain that
started free stays unsynchronised, and in Keep League is off (R507). DEDUCED: log entry 136. -/
def Dev.followerSync (d : Dev) (origin : Nat) (rate : Int) (t : Nat) : Dev :=
  if !d.follows || !d.almUp || d.on F.ALM_STAT.FREE_START || d.rst.low == 2 then d else
  let d := if d.running then (d.at_ t).set F.ALM_STAT.SEN_STATE 2 else d.startTime origin 2
  d.set F.ALM_SEN_RATE.RATE (ofSigned 32 (boundInt (-200000) 200000 rate))
def execFollowerSync (origin : Nat) (rate : Int) (t : Nat) (s : State) : Res := .next (s.upd (fun d => d.followerSync origin rate t))
/-- FOLLOWER_FREE_START. DEDUCED: log entry 136. -/
def Dev.freeStart (d : Dev) : Dev :=
  if !d.follows || !d.almUp || d.running then d else
  ((d.startTime 0 3).set F.ALM_STAT.FREE_START 1).raise 0x180 0x8030 d.followAddr 0
def execFollowerFreeStart (s : State) : Res := .next (s.upd Dev.freeStart)
/-- FOLLOWER_SYNC_LOSS. -/
def Dev.syncLoss (d : Dev) (t : Nat) : Dev :=
  if d.f F.ALM_STAT.SEN_STATE ≠ 2 then d else
  ((d.at_ t).set F.ALM_STAT.SEN_STATE 3).raise 0x180 0x8030 d.followAddr 0
def execFollowerSyncLoss (t : Nat) (s : State) : Res := .next (s.upd (fun d => d.syncLoss t))

/-! ## gPTP as grandmaster (R416): messages by their IEEE 802.1AS message type -/

/-- Does the part speak on a MAC: grandmaster, its bit in GPTP_PORTS, the MAC powered? -/
def Dev.gptpOn (d : Dev) (mac : Nat) : Bool :=
  d.f F.ALM_STAT.SEN_STATE == 1 && maskHas (d.f F.ALM_CFG.GPTP_PORTS) mac && mac < 4 && d.rst.low != 2 && !d.rst.warm
/-- Does the part take part in the exchange of Table 1 over League port `mac - 4` (R417): a grandmaster on every port that is up, a follower, for
the path delay alone, on its own? DEDUCED: log entry 199. -/
def Dev.gptpLg (d : Dev) (mac : Nat) (sync : Bool) : Bool :=
  4 ≤ mac && mac < 10 && d.full && d.portUp (mac - 4) && d.almUp && d.rst.low != 2 && !d.rst.warm &&
  (d.f F.ALM_STAT.SEN_STATE == 1 || (!sync && d.follows && d.f F.ALM_CFG.FOLLOW_PORT == mac - 4))
/-- The clock identity: EUI-64 from the MAC's EUI-48, which no register states. PRESUMED: log entry 135. -/
def clockIdentity (mac : Nat) : Nat :=
  let e := Config.freeResult 20 [mac] % 2 ^ 48
  e / 2 ^ 24 * 2 ^ 40 + 0xFFFE * 2 ^ 24 + e % 2 ^ 24
/-- The next sequence number of a kind of message on a MAC. -/
def Dev.seqOf (d : Dev) (mac kind : Nat) : Nat := mget 0 d.alm.seqs (16 * mac + kind)
/-- Send a message: domain, sequence number, clock identity, then the fields of its kind. PRESUMED: log entry 135. -/
def Dev.gptp (d : Dev) (mac kind seq : Nat) (l : List Int) : Dev :=
  let m : Tx := .eth mac kind ([(d.f F.ALM_CFG.GPTP_DOMAIN : Int), (seq : Int), (clockIdentity mac : Int)] ++ l)
  if mac < 4 then d.send m else (d.send m).intoFlits (mac - 4) m
/-- Has the interval since the last message of a kind on a MAC passed by `t`? PRESUMED: log entry 135. -/
def Dev.sendDue (d : Dev) (mac kind interval t : Nat) : Bool :=
  match mfind d.alm.sent (16 * mac + kind) with
  | some s => decide (s + interval ≤ Nat.max d.now t)
  | none => true
/-- Count a message sent now. -/
def Dev.bumpSeq (d : Dev) (mac kind : Nat) : Dev :=
  { d with alm := { d.alm with
      seqs := mput 0 d.alm.seqs (16 * mac + kind) ((d.seqOf mac kind + 1) % 65536), sent := mset d.alm.sent (16 * mac + kind) d.now } }
/-- logSyncInterval. -/
def Dev.syncLog (d : Dev) : Int := toSigned 4 (d.f F.ALM_CFG.SYNC_LOG)
/-- GPTP_SYNC_TRANSMIT, every 2^SYNC_LOG seconds: Sync, and Follow_Up with its time of egress. -/
def Dev.gptpSync (d : Dev) (mac t : Nat) : Dev :=
  if !(d.gptpOn mac || d.gptpLg mac true) || !d.sendDue mac 0 (1000000000 / 2 ^ (-d.syncLog).toNat) t then d else
  let d := d.at_ t
  let n := d.seqOf mac 0
  ((d.gptp mac 0 n [d.syncLog]).gptp mac 8 n [d.syncLog, (d.now : Int)]).bumpSeq mac 0
def execGptpSyncTransmit (mac t : Nat) (s : State) : Res := .next (s.upd (fun d => d.gptpSync mac t))
/-- PDELAY_REQ: Pdelay_Resp with the time of receipt, and its follow-up with the time of the response's egress. DEDUCED: log entry 69. -/
def Dev.pdelayAnswer (d : Dev) (mac seq t : Nat) : Dev :=
  if !(d.gptpOn mac || d.gptpLg mac false) then d else
  let d := d.at_ t
  let out := d.now + Config.freeNat d.fresh 0
  ((d.gptp mac 3 seq [(d.now : Int)]).gptp mac 10 seq [(out : Int)]).take
def execPdelayReq (mac seq t : Nat) (s : State) : Res := .next (s.upd (fun d => d.pdelayAnswer mac seq t))
/-- PDELAY_REQ_TRANSMIT, at logPdelayReqInterval 0: every second. -/
def Dev.pdelaySend (d : Dev) (mac t : Nat) : Dev :=
  if !(d.gptpOn mac || d.gptpLg mac false) || !d.sendDue mac 2 1000000000 t then d else ((d.at_ t).gptp mac 2 (d.seqOf mac 2) [0]).bumpSeq mac 2
def execPdelayReqTransmit (mac t : Nat) (s : State) : Res := .next (s.upd (fun d => d.pdelaySend mac t))
/-- ANNOUNCE_TRANSMIT, every second: logAnnounceInterval, clockClass and timeSource. -/
def Dev.announce (d : Dev) (mac t : Nat) : Dev :=
  if !d.gptpOn mac || !d.sendDue mac 11 1000000000 t then d else
  ((d.at_ t).gptp mac 11 (d.seqOf mac 11) [0, 248, if d.on F.ALM_CFG.STEER then 0x40 else 0xA0]).bumpSeq mac 11
def execAnnounceTransmit (mac t : Nat) (s : State) : Res := .next (s.upd (fun d => d.announce mac t))

/-! ## Snapshots (R424) -/

/-- A time in internal form. -/
def internalForm (x : Rat) : Nat := ofSigned 64 x.floor
/-- SNAPSHOT: everything at one instant, so that none is ever under way when GO is written. DEDUCED: log entry 137. -/
def Dev.almSnapshot (d : Dev) (t : Nat) : Dev :=
  let d := d.at_ t
  let dom := fun i => if d.domState i < 2 then 0 else internalForm ((d.trk i).time d.now)
  let v := if d.on F.ALM_STAT.VT_VALID then internalForm (d.vt d.now) else 0
  ((((d.set (F.ALM_SNAP.TIME 0) d.now).set (F.ALM_SNAP.TIME 1) v).set (F.ALM_SNAP.TIME 2) (dom 0)).set (F.ALM_SNAP.TIME 3) (dom 1)).set
    F.ALM_SNAP_CTRL.DONE 1
def execSnapshot (t : Nat) (s : State) : Res := .next (s.upd (fun d => d.almSnapshot t))

/-! ## TIO pins (R425 to R428) -/

def Dev.tioPin (d : Dev) (p : Nat) : Tio := d.alm.tio.getD p ⟨0, false, none, none, []⟩
def Dev.modPin (d : Dev) (p : Nat) (g : Tio → Tio) : Dev := { d with alm := { d.alm with tio := d.alm.tio.set p (g (d.tioPin p)) } }
/-- The time base of a pin at sensor time `s`. -/
def Dev.pinTime (d : Dev) (p : Nat) (s : Rat) : Rat := if d.live (F.ALM_TIO_CFG.TIMEBASE p) = 1 then d.vt s else s
/-- The internal form of a START register pair. -/
def startOf (v hi : Nat) : Nat := (bits v 63 32 + hi * 2 ^ 32) * 1000000000 + bits v 31 0
/-- DEDUCED: log entry 134. -/
def Dev.pinStart (d : Dev) (p : Nat) : Nat := startOf (d.live (F.ALM_TIO_START.NS p)) (d.live (F.ALM_TIO_START_HI.SEC_HI p))
def Dev.pinWidth (d : Dev) (p : Nat) : Nat := d.live (F.ALM_TIO_WIDTH.WIDTH p)
/-- The pending values of a pin take effect at sensor time `at0`. -/
def Dev.pinEffect (d : Dev) (p at0 : Nat) : Dev :=
  let was := (d.live (F.ALM_TIO_CFG.MODE p), d.live (F.ALM_TIO_CFG.EDGE p))
  let d := ((d.enforce (R.ALM_TIO_CFG p) (R.ALM_TIO_CFG p + 0x20)).set (F.ALM_TIO_CFG.PENDING p) 0).modPin p
    (fun k => { k with armedAt := at0, done := false, pulseEnd := none, old := some was })
  let vt := d.live (F.ALM_TIO_CFG.TIMEBASE p) = 1
  if d.live (F.ALM_TIO_CFG.MODE p) = 1 ∧ (vt → d.on F.ALM_STAT.VT_VALID) ∧ (d.pinStart p : Rat) < d.pinTime p at0 + 1000 then
    (d.set (F.ALM_TIO_CFG.MISSED p) 1).modPin p (fun k => { k with done := true })
  else d
/-- The sensor time at which a pulse that ends at `e` of the pin's time base has ended, seen from now. -/
def Dev.pulseOver (d : Dev) (p e : Nat) : Nat :=
  if d.live (F.ALM_TIO_CFG.TIMEBASE p) = 1 then
    d.now - ((d.vt d.now - e) * 1000000000 / (1000000000 + (d.trk (d.f F.ALM_STAT.SELECTED)).rate)).floor.toNat
  else e
/-- A pulse that is over leaves the pin, and pending values take effect at its end. -/
def Dev.pinSettle (d : Dev) (p : Nat) : Dev :=
  match (d.tioPin p).pulseEnd with
  | none => d
  | some e =>
    if d.pinTime p d.now < e then d else
    let d1 := d.modPin p (fun k => { k with pulseEnd := none })
    if d.on (F.ALM_TIO_CFG.PENDING p) then d1.pinEffect p (d.pulseOver p e) else d1
/-- Every pin (before its registers are looked at). -/
def Dev.pinsSettle (d : Dev) : Dev := (List.range 8).foldl (fun d p => d.pinSettle p) d

/-- What makes an APPLY refuse the staged values (R426). -/
def Dev.pinBad (d : Dev) (p : Nat) : Bool :=
  let mode := d.f (F.ALM_TIO_CFG.MODE p)
  let period := d.f (F.ALM_TIO_PERIOD.PERIOD p)
  let width := d.f (F.ALM_TIO_WIDTH.WIDTH p)
  let ofs := s32 (d.f (F.ALM_TIO_TICKOFS.TICKOFS p))
  let room : Int := (d.live F.ALM_KAL_PERIOD.PERIOD_NS : Int) - width
  decide (1000000000 ≤ bits (d.f (F.ALM_TIO_START.NS p)) 31 0) || decide (period < 100) || decide (width < 10) ||
  (mode == 2 && decide (period < width + 10)) || (mode == 3 && (decide (ofs < -room) || decide (room - 1 < ofs))) ||
  ((mode == 3 || mode == 4) && d.on (F.ALM_TIO_CFG.TIMEBASE p)) || (mode == 4 && d.f (F.ALM_TIO_CFG.EDGE p) == 0) || decide (5 ≤ mode)
/-- TIO_APPLY. DEDUCED: log entry 134. -/
def Dev.tioApply (d : Dev) (p t : Nat) : Dev :=
  let d := (d.at_ t).pinSettle p
  if d.pinBad p then d.set (F.ALM_TIO_CFG.BAD_CFG p) 1 else
  let d := d.stage (R.ALM_TIO_CFG p) (R.ALM_TIO_CFG p + 0x20)
  if (d.tioPin p).pulseEnd.isSome then d.set (F.ALM_TIO_CFG.PENDING p) 1 else d.pinEffect p d.now
def execTioApply (p t : Nat) (s : State) : Res := .next (s.upd (fun d => if p < 8 then d.tioApply p t else d))

/-- The instant, in the pin's time base, that now reaches. -/
def Dev.pinInstant (d : Dev) (p : Nat) : Option Int :=
  let c := d.pinTime p
  let x := d.pinStart p
  let hit := fun (v : Int) => decide (c (d.now - 1) < v) && decide ((v : Rat) ≤ c d.now)
  match d.live (F.ALM_TIO_CFG.MODE p) with
  | 1 => if !(d.tioPin p).done && hit x then some x else none
  | 2 =>
    let per := d.live (F.ALM_TIO_PERIOD.PERIOD p)
    let v : Int := x + ((c d.now - x) / per).floor * per
    if (d.tioPin p).armedAt + 1000 ≤ d.now ∧ (x : Int) ≤ v ∧ hit v then some v else none
  | 3 =>
    let ofs := s32 (d.live (F.ALM_TIO_TICKOFS.TICKOFS p))
    let ticks := (if d.frame.started then [d.frame.tick] else []) ++ d.frame.prevTick.toList ++ [d.frame.nextTick]
    if ticks.any (fun k => (k : Int) + ofs == (d.now : Int)) then some d.now else none
  | _ => none
/-- Is the pin's mode one of pulses in a vehicle time that is not valid? -/
def Dev.pinBlind (d : Dev) (p : Nat) : Bool :=
  d.live (F.ALM_TIO_CFG.TIMEBASE p) == 1 && !d.on F.ALM_STAT.VT_VALID &&
  (d.live (F.ALM_TIO_CFG.MODE p) == 2 || (d.live (F.ALM_TIO_CFG.MODE p) == 1 && !(d.tioPin p).done))
/-- TIO_PULSE. -/
def Dev.tioPulse (d : Dev) (p t : Nat) : Dev :=
  if !d.running then d else
  let d := (d.at_ t).pinSettle p
  if d.pinBlind p then (d.set (F.ALM_TIO_CFG.MISSED p) 1).modPin p (fun k => { k with done := true }) else
  match d.pinInstant p with
  | none => d
  | some v =>
    (d.send (.pulse p d.now (d.pinWidth p) (d.live (F.ALM_TIO_CFG.POL p) == 0))).modPin p
      (fun k => { k with done := true, pulseEnd := some (v.toNat + d.pinWidth p) })
def execTioPulse (p t : Nat) (s : State) : Res := .next (s.upd (fun d => if p < 8 then d.tioPulse p t else d))

/-- MODE and EDGE under which an edge is handled now: those before an APPLY of this cycle (R428). -/
def Dev.edgeCfg (d : Dev) (p : Nat) : Nat × Nat :=
  let now := (d.live (F.ALM_TIO_CFG.MODE p), d.live (F.ALM_TIO_CFG.EDGE p))
  if (d.tioPin p).armedAt = d.now then (d.tioPin p).old.getD now else now
/-- TIO_EDGE: a level held for less than 5 ns is no edge. -/
def Dev.tioEdge (d : Dev) (p : Nat) (rising : Bool) (ns t : Nat) : Dev :=
  let d := (d.at_ t).pinSettle p
  let c := d.edgeCfg p
  if !d.running || decide (ns < 5) || c.1 != 4 || !maskHas c.2 (if rising then 0 else 1) then d else
  if 16 ≤ (d.tioPin p).fifo.length then d.addSat (F.ALM_TIO_CAP_LOST.COUNT p) 1
  else d.modPin p (fun k => { k with fifo := k.fifo ++ [(d.now, rising)] })
def execTioEdge (p : Nat) (rising : Bool) (ns t : Nat) (s : State) : Res :=
  .next (s.upd (fun d => if p < 8 then d.tioEdge p rising ns t else d))

/-- CAP_POP: the oldest entry, or none. The read returns ALM_TIO_CAP_HI. -/
def Dev.capPop (d : Dev) (p : Nat) : Dev :=
  let d := match (d.tioPin p).fifo with
    | [] => (d.set (F.ALM_TIO_CAP_HI.VALID p) 0).set (F.ALM_TIO_CAP_HI.LEFT p) 0
    | (t, r) :: l =>
      let sec := t / 1000000000
      let d := d.modPin p (fun k => { k with fifo := l })
      ((((d.set (F.ALM_TIO_CAP.NS p) (t % 1000000000 + sec % 2 ^ 32 * 2 ^ 32)).set (F.ALM_TIO_CAP_HI.SEC_HI p) (sec / 2 ^ 32)).set
        (F.ALM_TIO_CAP_HI.RISE p) (b2n r)).set (F.ALM_TIO_CAP_HI.VALID p) 1).set (F.ALM_TIO_CAP_HI.LEFT p) l.length
  d.ret (leBytes 4 (d.reg (R.ALM_TIO_CAP_HI p)).toNat)
def execCapPop (p : Nat) (s : State) : Res := .next (s.upd (fun d => if p < 8 then d.capPop p else d))

end Sys2Proof.Machine
end

