-- ==== Sys2Proof/Machine/Cv.lean ====
section
/-!
DEFINITION. The CV instructions: REBOLT (R190, R211) and WINDOW (R252 to R256).
-/
namespace Sys2Proof.Machine

/-- Every byte of an operand's runs becomes 0, padding included. -/
def Dev.zeroRuns (d : Dev) (a : Acc2) : Dev :=
  a.t.segs.foldl (fun d s =>
    { d with mem := { d.mem with sram := d.mem.sram.zero (a.pl.key + s.1) (a.pl.key + s.1 + s.2) } }) d
/-- Write every element of an output from a function of its coordinates; bytes between elements of a run become 0. -/
def Dev.fillWhole (d : Dev) (o : Acc2) (val : Nat × Nat × Nat × Nat → Nat) : Dev :=
  o.t.coords.foldl (fun s q => s.wrEl o q.1 q.2.1 q.2.2.1 q.2.2.2 (val q)) (d.zeroRuns o)

/-- A CV instruction at issue: `chk` are the checks of its fields and descriptors, `own` says that both operands must lie in the
engine's own scratchpad. -/
def Dev.cvIssue (d : Dev) (id g t op : Nat) (own : Bool) (chk : Cur → List Nat) (time : Cur → Acc2 → Acc2 → Nat) : Dev :=
  match d.curOp id g 3 op with
  | none => d
  | some c =>
    if c.stalls qMove then d else
    let d := d.at_ t
    match d.opd c g 0 false stBounds, d.opd c g 1 true stBounds with
    | .ok s, .ok o =>
      (match firstStatus (chk c ++ stIf (s.overlaps o || (own && !(s.own && o.own))) stBounds ++ c.unaligned 0 s ++ c.unaligned 1 o) with
      | 0 => d.enqueue id g c qMove (some (time c s o)) [(0, s.region), (1, o.region)]
      | st => d.endOwn id st)
    | s, o => d.endOwn id (firstStatus (chk c ++ exStatus s ++ exStatus o))
/-- A CV instruction as it runs: `val` gives its elements. -/
def Dev.cvFill (d : Dev) (g : Nat) (c : Cur) (val : Acc2 → Nat × Nat × Nat × Nat → Nat) : Done :=
  match d.opd c g 0 false stBounds, d.opd c g 1 true stBounds with
  | .ok s, .ok o => { Done.idle (d.fillWhole o (val s)) with touched := [s.keys, o.keys], wrote := [o.keys] }
  | _, _ => Done.idle d

/-- Is TRANSPOSE set (R211)? -/
def cvTransposed (c : Cur) : Bool := bitOf c.i.w 120
/-- REBOLT at issue (R190). -/
def Dev.rebolt (d : Dev) (id g t : Nat) : Dev :=
  d.cvIssue id g t 0 true
    (fun c =>
      let s := c.desc 0
      let o := c.desc 1
      stIf (s.dtype != o.dtype) stFormat ++
      stIf ((if cvTransposed c then o.dim 0 != s.dim 1 || o.dim 1 != s.dim 0 else o.dim 0 != s.dim 0 || o.dim 1 != s.dim 1) ||
        o.dim 2 != s.dim 2 || o.dim 3 != s.dim 3) stBounds)
    (fun _ _ o => 12 + 2 * ceilDiv o.t.bytes 128)
/-- REBOLT (R190). -/
def execRebolt (run g t : Nat) (s : State) : Res := .next (s.upd (fun d => d.rebolt run g t))
/-- The value of an element of REBOLT's output. -/
def Dev.reboltVal (d : Dev) (c : Cur) (s : Acc2) (q : Nat × Nat × Nat × Nat) : Nat :=
  if cvTransposed c then d.rdEl s q.2.1 q.1 q.2.2.1 q.2.2.2 else d.rdEl s q.1 q.2.1 q.2.2.1 q.2.2.2

/-- The fields of WINDOW (Table 6 of R211). -/
structure WinF where
  kw : Nat
  kh : Nat
  sw : Nat
  sh : Nat
  dw : Nat
  dh : Nat
  pl : Nat
  pr : Nat
  pt : Nat
  pb : Nat
  const : Bool
  deriving DecidableEq, Repr
def winFields (i : Ins) : WinF :=
  let x := i.x 0
  ⟨bits x 12 0, bits x 25 13, bits x 38 26, bits x 51 39, bits x 64 52, bits x 77 65, bits x 89 78, bits x 101 90, bits x 113 102,
    bits x 125 114, bitOf x 126⟩
/-- Output width or height (R253): none when the dilated window exceeds the padded input. -/
def winOut (size p0 p1 dil k stride : Nat) : Option Nat :=
  if size + p0 + p1 < dil * (k - 1) + 1 then none else some ((size + p0 + p1 - dil * (k - 1) - 1) / stride + 1)
/-- OW and OH. -/
def winDims (f : WinF) (s : TDesc) : Option (Nat × Nat) :=
  match winOut (s.dim 1) f.pl f.pr f.dw f.kw f.sw, winOut (s.dim 2) f.pt f.pb f.dh f.kh f.sh with
  | some w, some h => some (w, h)
  | _, _ => none
/-- The padding value, as element bits (R211, R255): for INT32 sign-extended, for FP32 bits 31:8 of the pattern. -/
def padValue (f : WinF) (dt slot : Nat) : Nat :=
  if !f.const then 0
  else if dt = 7 then ofSigned 32 (toSigned 24 slot)
  else if dt = 8 then slot * 256
  else slot % 2 ^ dtBits dt
/-- Bits 23:16 of the padding value of a format of 16 bits or less must be zero (R211). DEDUCED: log entry 103. -/
def padFails (f : WinF) (dt slot : Nat) : List Nat := stIf (f.const && dtBits dt ≤ 16 && bits slot 23 16 != 0) stReserved
/-- The value of element (k, m, b) of the expanded buffer (R254). -/
def Dev.winVal (d : Dev) (f : WinF) (pad ow : Nat) (s : Acc2) (q : Nat × Nat × Nat × Nat) : Nat :=
  let cc := s.t.dim 0
  let c := q.1 % cc
  let kw := q.1 / cc % f.kw
  let kh := q.1 / cc / f.kw
  let iy : Int := (q.2.1 / ow * f.sh + kh * f.dh : Nat) - (f.pt : Int)
  let ix : Int := (q.2.1 % ow * f.sw + kw * f.dw : Nat) - (f.pl : Int)
  if 0 ≤ iy ∧ iy < s.t.dim 2 ∧ 0 ≤ ix ∧ ix < s.t.dim 1 then d.rdEl s c ix.toNat iy.toNat q.2.2.1 else pad

/-- WINDOW at issue (R252 to R256). -/
def Dev.window' (d : Dev) (id g t : Nat) : Dev :=
  d.cvIssue id g t 1 false
    (fun c =>
      let f := winFields c.i
      let s := c.desc 0
      let o := c.desc 1
      padFails f s.dtype (c.i.slot 2) ++ stIf (s.layout != 0 || o.dtype != s.dtype || 1 < o.layout) stFormat ++
      stIf (s.dtype == 0 && s.dim 0 % 2 == 1) stBounds ++
      (match winDims f s with
       | none => [stBounds]
       | some (ow, oh) => stIf (o.dim 0 != f.kh * f.kw * s.dim 0 || o.dim 1 != oh * ow || o.dim 2 != s.dim 3 || o.dim 3 != 1) stBounds))
    (fun c s o =>
      let f := winFields c.i
      let ls := engLat c.m.home s.pl
      let wh := (winDims f s.t).getD (0, 0)
      let r := s.t.dim 3 * wh.1 * wh.2 * f.kh * f.kw
      16 + ls.1 + Nat.max (r * ceilDiv (ceilDiv (s.t.dim 0 * s.t.nibs) 2) s.width * ls.2)
        (ceilDiv o.t.bytes o.width * (engLat c.m.home o.pl).2))
/-- WINDOW (R254). -/
def execWindow (run g t : Nat) (s : State) : Res := .next (s.upd (fun d => d.window' run g t))
/-- REBOLT and WINDOW as they run. -/
def Dev.cvDo (d : Dev) (g : Nat) (c : Cur) : Done :=
  if c.i.op = 0 then d.cvFill g c (d.reboltVal c) else
  let f := winFields c.i
  d.cvFill g c (fun s => d.winVal f (padValue f s.t.dtype (c.i.slot 2)) (((winDims f s.t).map Prod.fst).getD 1) s)

end Sys2Proof.Machine
end

