-- ==== Sys2Proof/Machine/Ew.lean ====
section
/-!
DEFINITION. The element-wise instructions (R186 to R188, R191 to R193, R207, R208, R258, R532).
-/
namespace Sys2Proof.Machine

/-- The fields of an EW instruction. -/
structure EwF where
  int : Bool
  round : Nat
  ovf : Bool
  axis : Nat
  s0 : Nat
  s1 : Nat
  par : Nat
  deriving DecidableEq, Repr

def ewFields (i : Ins) : EwF :=
  { int := bitOf i.w 120, round := bits i.w 122 121, ovf := bitOf i.w 123, axis := bits i.w 124 124,
    s0 := bits (i.x 0) 55 24, s1 := bits (i.x 0) 87 56, par := bits (i.x 0) 101 88 }

/-- The operands of an EW instruction. -/
structure EwOp where
  a : Acc2
  b : Option Acc2
  c : Option Acc2
  out : Acc2
  deriving DecidableEq, Repr
def EwOp.ins (o : EwOp) : List Acc2 := o.a :: o.b.toList ++ o.c.toList

/-- The operands of an EW instruction, located, or the statuses of those that fail. -/
def Dev.ewOps (d : Dev) (c : Cur) (g op : Nat) : Except Nat EwOp :=
  let a := d.opd c g 0 false stFormat
  let b := if opB op then (d.opd c g 1 false stFormat).map some else .ok none
  let x := if opC op then (d.opd c g 3 false stFormat).map some else .ok none
  let o := d.opd c g 2 true stFormat
  match a, b, x, o with
  | .ok a, .ok b, .ok x, .ok o => .ok ⟨a, b, x, o⟩
  | _, _, _, _ => .error (firstStatus (exStatus a ++ exStatus b ++ exStatus x ++ exStatus o))
/-- R157 for the operands. -/
def ewUnaligned (c : Cur) (o : EwOp) : List Nat :=
  c.unaligned 0 o.a ++ o.b.toList.flatMap (c.unaligned 1) ++ o.c.toList.flatMap (c.unaligned 3) ++ c.unaligned 2 o.out

/-- Layouts and formats that EW admits (R186). -/
def ewForm (f : EwF) (ins : List TDesc) (out : TDesc) : List Nat :=
  stIf ((out :: ins).any (fun a => a.layout != 0 && a.layout != 3)) stFormat ++
  stIf (f.int && ins.any (fun a => !isInt a.dtype)) stFormat
/-- OUT may coincide exactly with one input, and overlap nothing else (R188). -/
def ewOverlap (ins : List Acc2) (out : Acc2) : List Nat :=
  let o := ins.filter out.overlaps
  stIf (1 < o.length || o.any (fun a => !out.same a)) stBounds
/-- Each dimension of an input equals OUT's or is 1 (R186). -/
def ewShape (ins : List TDesc) (out : TDesc) : List Nat :=
  stIf (ins.any (fun a => [0, 1, 2, 3].any (fun n => a.dim n != 1 && a.dim n != out.dim n))) stBounds
/-- The reduced shape (R258). -/
def redShape (axis : Nat) (ins : List TDesc) (out : TDesc) : List Nat :=
  stIf (ins.any (fun a => [0, 1, 2, 3].any (fun n => out.dim n != (if n = axis then 1 else a.dim n)))) stBounds

/-- T of R188: `nibs` half bytes per element over all operands. -/
def ewTime (l : List TDesc) (nibs : Nat) : Nat :=
  let n := (l.map TDesc.count).foldl Nat.max 0
  8 + Nat.max (ceilDiv n 256) (ceilDiv (n * nibs) 768)

/-- The Epact key and counter base of the parameter block, under ROUND 1 (R207). -/
def Dev.ewKey (d : Dev) (c : Cur) (f : EwF) : Nat × Nat :=
  if f.round != 1 then (0, 0) else
  match c.r.physOf c.m.k c.m.e with
  | some p => let b := d.rdSram ⟨p, f.par * 64⟩ 64; (bfield b 32 8, bfield b 40 8)
  | none => (0, 0)
/-- The rounding of the element with linear index `i` (R184). -/
def ewRnd (f : EwF) (key : Nat × Nat) (g i : Nat) : Rnd :=
  if f.round = 1 then .epact (epact key.1 (key.2 + g * 2 ^ 40 + i)) else .even

/-- The result of one element before conversion: its value with flags, in the domain. -/
def Dev.ewPoint (d : Dev) (f : EwF) (op : Nat) (o : EwOp) (q : Nat × Nat × Nat × Nat) : (Num ⊕ Int) × Nat :=
  let rd := fun (a : Acc2) => d.rdB a q.1 q.2.1 q.2.2.1 q.2.2.2
  if f.int then
    let v := fun (a : Acc2) => elInt a.t.dtype (rd a)
    let b := (o.b.map v).getD 0
    let c := (o.c.map v).getD 0
    let r := intOp op (v o.a) b c (toSigned 32 f.s0) (toSigned 32 f.s1)
    (.inr r.1, r.2)
  else
    let v := fun (a : Acc2) => elNum a.t.dtype (rd a)
    let b := (o.b.map v).getD numZero
    let c := (o.c.map v).getD numZero
    let r := fpOp op (v o.a) b c (ofBits32 f.s0) (ofBits32 f.s1)
    (.inl r.1, r.2)

/-- A result as an element of OUT. -/
def ewOut (f : EwF) (dt : Nat) (rnd : Rnd) (v : Num ⊕ Int) : Nat × Nat :=
  match v with
  | .inl x => outFp dt rnd f.ovf x
  | .inr x => outInt dt f.ovf x

/-- The blocks of 256 elements, in the linear order of R184, in the order of their visits: run 2 visits them in descending order (R340). -/
def ewBlocks {α : Type} (oct : Bool) (l : List α) : List (List α) :=
  visits oct ((List.range (ceilDiv l.length 256)).map (fun b => (l.drop (256 * b)).take 256))
/-- The bits that upsets invert in the element with linear index `i` of `n`: by the number of its block's visit and its bypass lane
(R340). -/
def ewFlips (oct : Bool) (n : Nat) (ups : List Upset) (i : Nat) : Nat :=
  let v := if oct then ceilDiv n 256 - 1 - i / 256 else i / 256
  let lane := if oct then 255 - i % 256 else i % 256
  (ups.filter (fun u => u.visit == v && u.col == lane)).foldl (fun x u => x ^^^ u.flip) 0
/-- An element as it leaves its lane. -/
def ewElement (oct : Bool) (ups : List Upset) (t : TDesc) (q : Nat × Nat × Nat × Nat) (v : Nat) : Nat :=
  v ^^^ (ewFlips oct t.count ups (t.linear q.1 q.2.1 q.2.2.1 q.2.2.2) % 2 ^ dtBits t.dtype)
/-- Write every element of an output from a function of its coordinates. -/
def Dev.ewFill (d : Dev) (oct : Bool) (ups : List Upset) (out : Acc2) (val : Nat × Nat × Nat × Nat → Nat × Nat) : Dev × Nat :=
  (ewBlocks oct out.t.coords).foldl (fun (s : Dev × Nat) b => b.foldl (fun (s : Dev × Nat) q =>
    let r := val q
    (s.1.wrEl out q.1 q.2.1 q.2.2.1 q.2.2.2 (ewElement oct ups out.t q r.1), s.2 ||| r.2)) s) (d, 0)

/-- The regions that the selectors of its slots declare. -/
def EwOp.regs (o : EwOp) : List (Nat × Extent) :=
  [(0, o.a.region), (2, o.out.region)] ++ (o.b.toList.map (fun x => (1, x.region))) ++ (o.c.toList.map (fun x => (3, x.region)))
def EwOp.nibs (o : EwOp) : Nat := sumNat ((o.out :: o.ins).map (fun a => a.t.nibs))

/-- The descriptors that an EW operation reads. -/
def ewIns (c : Cur) (op : Nat) : List TDesc := c.desc 0 :: (if opB op then [c.desc 1] else []) ++ (if opC op then [c.desc 3] else [])
/-- An EW instruction at issue: `extra` are checks of its own, `shape` the rule of its operands. -/
def Dev.ewIssue (d : Dev) (id g t op : Nat) (extra : EwF → TDesc → List Nat) (shape : EwF → List TDesc → TDesc → List Nat) : Dev :=
  match d.curOp id g 1 op with
  | none => d
  | some c =>
    if c.stalls qArray then d else
    let d := d.at_ t
    let f := ewFields c.i
    let chk := stIf (!(if f.int then opInt op else opFp op)) stFormat ++ ewForm f (ewIns c op) (c.desc 2) ++ extra f (c.desc 2) ++
      shape f (ewIns c op) (c.desc 2)
    match d.ewOps c g op with
    | .error s => d.endOwn id (firstStatus (s :: chk))
    | .ok o =>
      match firstStatus (chk ++ ewOverlap o.ins o.out ++ ewUnaligned c o) with
      | 0 => d.enqueue id g c qArray (some (ewTime ((o.out :: o.ins).map (fun a => a.t)) o.nibs)) o.regs
      | s => d.endOwn id s

/-- The operations that act element by element: codes 0x00 to 0x10 of Table 3 of R187. -/
def Dev.ewMap (d : Dev) (id g t op : Nat) : Dev :=
  d.ewIssue id g t op
    (fun f _ => stIf (op == 0x0A && (if f.int then decide (toSigned 32 f.s1 < toSigned 32 f.s0) else
      (ofBits32 f.s0).gt (ofBits32 f.s1) && !((ofBits32 f.s0).isZero && (ofBits32 f.s1).isZero))) stBounds)
    (fun _ ins out => ewShape ins out)
/-- One element of it, with its flags. -/
def Dev.ewMapVal (d : Dev) (g op : Nat) (c : Cur) (f : EwF) (o : EwOp) (q : Nat × Nat × Nat × Nat) : Nat × Nat :=
  let r := d.ewPoint f op o q
  let b := ewOut f o.out.t.dtype (ewRnd f (d.ewKey c f) g (o.out.t.linear q.1 q.2.1 q.2.2.1 q.2.2.2)) r.1
  (b.1, r.2 ||| b.2)

def execEwCvt (run g t : Nat) (s : State) : Res := .next (s.upd (fun d => d.ewMap run g t 0x00))
def execEwAdd (run g t : Nat) (s : State) : Res := .next (s.upd (fun d => d.ewMap run g t 0x01))
def execEwSub (run g t : Nat) (s : State) : Res := .next (s.upd (fun d => d.ewMap run g t 0x02))
def execEwMul (run g t : Nat) (s : State) : Res := .next (s.upd (fun d => d.ewMap run g t 0x03))
def execEwFma (run g t : Nat) (s : State) : Res := .next (s.upd (fun d => d.ewMap run g t 0x04))
def execEwMax (run g t : Nat) (s : State) : Res := .next (s.upd (fun d => d.ewMap run g t 0x05))
def execEwMin (run g t : Nat) (s : State) : Res := .next (s.upd (fun d => d.ewMap run g t 0x06))
def execEwAbs (run g t : Nat) (s : State) : Res := .next (s.upd (fun d => d.ewMap run g t 0x07))
def execEwNeg (run g t : Nat) (s : State) : Res := .next (s.upd (fun d => d.ewMap run g t 0x08))
def execEwRelu (run g t : Nat) (s : State) : Res := .next (s.upd (fun d => d.ewMap run g t 0x09))
def execEwClamp (run g t : Nat) (s : State) : Res := .next (s.upd (fun d => d.ewMap run g t 0x0A))
def execEwAffine (run g t : Nat) (s : State) : Res := .next (s.upd (fun d => d.ewMap run g t 0x0B))
def execEwExp (run g t : Nat) (s : State) : Res := .next (s.upd (fun d => d.ewMap run g t 0x0C))
def execEwRecip (run g t : Nat) (s : State) : Res := .next (s.upd (fun d => d.ewMap run g t 0x0D))
def execEwSqrt (run g t : Nat) (s : State) : Res := .next (s.upd (fun d => d.ewMap run g t 0x0E))
def execEwRsqrt (run g t : Nat) (s : State) : Res := .next (s.upd (fun d => d.ewMap run g t 0x0F))
def execEwReluGrad (run g t : Nat) (s : State) : Res := .next (s.upd (fun d => d.ewMap run g t 0x10))

/-- REQUANT (R532). -/
def Dev.ewRequant (d : Dev) (id g t : Nat) : Dev :=
  d.ewIssue id g t 0x11
    (fun f out =>
      let dt := out.dtype
      let z := toSigned 8 (bits f.s1 15 8)
      stIf (bits f.s1 7 6 != 0 || bits f.s1 31 16 != 0) stReserved ++ stIf (!([0, 1, 7].contains dt)) stFormat ++
      stIf (bits f.s1 5 0 == 63 || (dt == 0 && (decide (z < -8) || decide (7 < z)))) stBounds)
    (fun _ ins out => ewShape ins out)
/-- One element of it, with its flags. -/
def Dev.ewRequantVal (d : Dev) (f : EwF) (o : EwOp) (q : Nat × Nat × Nat × Nat) : Nat × Nat :=
  let a := elInt o.a.t.dtype (d.rdB o.a q.1 q.2.1 q.2.2.1 q.2.2.2)
  let dt := o.out.t.dtype
  let z := toSigned 8 (bits f.s1 15 8)
  let r := if dt = 7 then satI32 (rneInt (a * toSigned 32 f.s0) (bits f.s1 5 0) + z)
    else requant dt a (toSigned 32 f.s0) (bits f.s1 5 0) z
  (intBits dt r.1, r.2)
def execEwRequant (run g t : Nat) (s : State) : Res := .next (s.upd (fun d => d.ewRequant run g t))

/-- The coordinates of element `j` along the axis. -/
def along (axis j : Nat) (q : Nat × Nat × Nat × Nat) : Nat × Nat × Nat × Nat :=
  if axis = 0 then (j, q.2.1, q.2.2.1, q.2.2.2) else (q.1, j, q.2.2.1, q.2.2.2)
/-- A reduction (R191). -/
def Dev.ewReduce (d : Dev) (id g t op : Nat) : Dev := d.ewIssue id g t op (fun _ _ => []) (fun f ins out => redShape f.axis ins out)
/-- One element of it, in ascending order along the axis in every run (R191, R340): one rounding a step in FP32; an INT32 sum exact and
saturated once. -/
def Dev.ewReduceVal (d : Dev) (g : Nat) (mx : Bool) (c : Cur) (f : EwF) (o : EwOp) (q : Nat × Nat × Nat × Nat) : Nat × Nat :=
  let n := o.a.t.dim f.axis
  let x := fun j => let p := along f.axis j q; d.rdEl o.a p.1 p.2.1 p.2.2.1 p.2.2.2
  let rnd := ewRnd f (d.ewKey c f) g (o.out.t.linear q.1 q.2.1 q.2.2.1 q.2.2.2)
  let js := (List.range (n - 1)).map (fun j => j + 1)
  if f.int then
    let v := js.foldl (fun (s : Int) j => let y := elInt o.a.t.dtype (x j); if mx then max s y else s + y)
      (elInt o.a.t.dtype (x 0))
    let r := satI32 v
    let b := outInt o.out.t.dtype f.ovf r.1
    (b.1, r.2 ||| b.2)
  else
    let x0 := elNum o.a.t.dtype (x 0)
    let r := js.foldl (fun (s : Num × Nat) j =>
      let e := fpEpi (if mx then 0x05 else 0x01) s.1 (elNum o.a.t.dtype (x j)) numZero numZero numZero
      (e.1, s.2 ||| e.2)) (x0, nanIn [x0])
    let b := outFp o.out.t.dtype rnd f.ovf r.1
    (b.1, r.2 ||| b.2)
def execReduceSum (run g t : Nat) (s : State) : Res := .next (s.upd (fun d => d.ewReduce run g t 0x12))
def execReduceMax (run g t : Nat) (s : State) : Res := .next (s.upd (fun d => d.ewReduce run g t 0x13))

/-! ## Optimisers (R192, R193) -/

/-- A value with the flags so far; NAN_GEN is set by an operation that makes a NaN of none. -/
def gen (ins : List Num) (r : Num) : Nat := if r.isNan && !ins.any Num.isNan then flNanGen else 0

/-- One element of SGD_MOM: the new w and m, and the flags. -/
def sgdPoint (mu lr w g m : Num) : Num × Num × Nat :=
  let m1 := (mu.fma m g).1
  let w1 := (lr.neg.fma m1 w).1
  (w1, m1, nanIn [mu, lr, w, g, m] ||| gen [mu, m, g] m1 ||| gen [lr, m1, w] w1)

/-- The scalars of ADAMW (Table 5 of R208). -/
structure AdamS where
  b1 : Num
  omb1 : Num
  b2 : Num
  omb2 : Num
  eps : Num
  wd : Num
  lr : Num
  c1 : Num
  c2 : Num
  deriving DecidableEq, Repr
def adamScalars (i : Ins) : AdamS :=
  let s := fun n l => ofBits32 (bits (i.x n) (l + 31) l)
  ⟨s 0 32, s 0 64, s 0 96, s 1 0, s 1 32, s 1 64, s 1 96, s 2 0, s 2 32⟩
/-- One element of ADAMW: the new w, m and v, and the flags. -/
def adamPoint (k : AdamS) (w g m v : Num) : Num × Num × Num × Nat :=
  let t1 := (k.omb1.mul g).1
  let m1 := (k.b1.fma m t1).1
  let gg := (g.mul g).1
  let t2 := (k.omb2.mul gg).1
  let v1 := (k.b2.fma v t2).1
  let mh := (m1.mul k.c1).1
  let vh := (v1.mul k.c2).1
  let sq := vh.sqrt.1
  let dn := (sq.add k.eps).1
  let u := (mh.div dn).1
  let t3 := (k.wd.fma w u).1
  let w1 := (k.lr.neg.fma t3 w).1
  (w1, m1, v1, nanIn [k.b1, k.omb1, k.b2, k.omb2, k.eps, k.wd, k.lr, k.c1, k.c2, w, g, m, v] |||
    gen [k.omb1, g] t1 ||| gen [k.b1, m, t1] m1 ||| gen [g] gg ||| gen [k.omb2, gg] t2 ||| gen [k.b2, v, t2] v1 |||
    gen [m1, k.c1] mh ||| gen [v1, k.c2] vh ||| gen [vh] sq ||| gen [sq, k.eps] dn ||| gen [mh, dn] u ||| gen [k.wd, w, u] t3 |||
    gen [k.lr, t3, w] w1)

/-- The tensors of an optimiser: FP32, of one shape, sharing no byte (R186, R188). -/
def optForm (l : List TDesc) : List Nat :=
  stIf (l.any (fun a => (a.layout != 0 && a.layout != 3) || a.dtype != 8)) stFormat ++
  (match l with
   | [] => []
   | a :: r => stIf (r.any (fun b => !a.sameDims b)) stBounds)
def optApart (l : List Acc2) : List Nat :=
  stIf ((List.range l.length).any (fun i => (List.range i).any (fun j =>
    match l[i]?, l[j]? with
    | some a, some b => a.overlaps b
    | _, _ => false))) stBounds

/-- The slots of an optimiser, each with whether it is written, and the bytes that it moves for each element. -/
def optSlots (op : Nat) : List (Nat × Bool) := if op = 0x14 then [(0, true), (1, false), (2, true)] else [(0, true), (1, false), (2, true), (3, true)]
def optBeta (op : Nat) : Nat := if op = 0x14 then 20 else 28
/-- The located operands of an optimiser; none when one of them fails. -/
def Dev.optOps (d : Dev) (c : Cur) (g op : Nat) : Except Nat (List Acc2) :=
  let os := (optSlots op).map (fun s => d.opd c g s.1 s.2 stFormat)
  match os.flatMap exStatus with
  | [] => .ok (os.flatMap (fun o => (o.toOption).toList))
  | l => .error (firstStatus l)
/-- What an optimiser makes of one element of each slot: the values written, in the order of the slots, and the flags. -/
def optPoint (c : Cur) (l : List Num) : List (Option Num) × Nat :=
  if c.i.op = 0x14 then
    let f := ewFields c.i
    let r := sgdPoint (ofBits32 f.s0) (ofBits32 f.s1) (l.getD 0 numZero) (l.getD 1 numZero) (l.getD 2 numZero)
    ([some r.1, none, some r.2.1], r.2.2)
  else
    let r := adamPoint (adamScalars c.i) (l.getD 0 numZero) (l.getD 1 numZero) (l.getD 2 numZero) (l.getD 3 numZero)
    ([some r.1, none, some r.2.1, some r.2.2.1], r.2.2.2)

/-- An optimiser at issue. -/
def Dev.optIssue (d : Dev) (id g t op : Nat) : Dev :=
  match d.curOp id g 1 op with
  | none => d
  | some c =>
    if c.stalls qArray then d else
    let d := d.at_ t
    let chk := stIf (ewFields c.i).int stFormat ++ optForm ((optSlots op).map (fun s => c.desc s.1))
    match d.optOps c g op with
    | .error s => d.endOwn id (firstStatus (s :: chk))
    | .ok accs =>
      match firstStatus (chk ++ optApart accs ++ ((optSlots op).zip accs).flatMap (fun p => c.unaligned p.1.1 p.2)) with
      | 0 => d.enqueue id g c qArray (some (ewTime (accs.map (fun a => a.t)) (2 * optBeta op)))
          (((optSlots op).zip accs).map (fun p => (p.1.1, p.2.region)))
      | s => d.endOwn id s

/-- SGD_MOM (R192). -/
def Dev.sgdMom (d : Dev) (id g t : Nat) : Dev := d.optIssue id g t 0x14
def execSgdMom (run g t : Nat) (s : State) : Res := .next (s.upd (fun d => d.sgdMom run g t))
/-- ADAMW (R193). -/
def Dev.adamw (d : Dev) (id g t : Nat) : Dev := d.optIssue id g t 0x15
def execAdamw (run g t : Nat) (s : State) : Res := .next (s.upd (fun d => d.adamw run g t))

/-- An optimiser as it runs: every element is computed from the block `d` as it stood at the start. -/
def Dev.optDo (d : Dev) (g : Nat) (c : Cur) (ups : List Upset) : Done :=
  match d.optOps c g c.i.op with
  | .ok (a0 :: l) =>
    let accs := a0 :: l
    let r := (ewBlocks c.oct a0.t.coords).foldl (fun (s : Dev × Nat) b => b.foldl (fun (s : Dev × Nat) q =>
      let v := optPoint c (accs.map (fun a => ofBits32 (d.rdEl a q.1 q.2.1 q.2.2.1 q.2.2.2)))
      ((accs.zip v.1).foldl (fun d p => match p.2 with
        | some x => d.wrEl p.1 q.1 q.2.1 q.2.2.1 q.2.2.2 (ewElement c.oct ups a0.t q x.toBits32)
        | none => d) s.1, s.2 ||| v.2)) s) (d, 0)
    { Done.idle r.1 with
      flags := r.2, touched := accs.map Acc2.keys,
      wrote := (((optSlots c.i.op).zip accs).filter (fun p => p.1.2)).map (fun p => p.2.keys) }
  | _ => Done.idle d

/-- The value of an element of an EW output, with its flags. -/
def Dev.ewVal (d : Dev) (g : Nat) (c : Cur) (o : EwOp) (q : Nat × Nat × Nat × Nat) : Nat × Nat :=
  let f := ewFields c.i
  match c.i.op with
  | 0x11 => d.ewRequantVal f o q
  | 0x12 => d.ewReduceVal g false c f o q
  | 0x13 => d.ewReduceVal g true c f o q
  | op => d.ewMapVal g op c f o q
/-- An EW instruction as it runs. -/
def Dev.ewDo (d : Dev) (g : Nat) (c : Cur) (ups : List Upset) : Done :=
  if c.i.op = 0x14 ∨ c.i.op = 0x15 then d.optDo g c ups else
  match d.ewOps c g c.i.op with
  | .error _ => Done.idle d
  | .ok o =>
    let r := d.ewFill c.oct ups o.out (d.ewVal g c o)
    { Done.idle r.1 with flags := r.2, touched := (o.out :: o.ins).map Acc2.keys, wrote := [o.out.keys] }

end Sys2Proof.Machine
end

