-- ==== Sys2Proof/Machine/Exec.lean ====
section
/-!
DEFINITION. Short instructions (R214, R226, R230 to R245).
-/
namespace Sys2Proof.Machine

/-! ## SY: flags (R234, R235, R238, R239) -/

/-- SIGNAL: VALUE joins the deferred-signal list, which holds 64 distinct flags. DEDUCED: log entry 108. -/
def Dev.sySignal (d : Dev) (id g t : Nat) : Dev :=
  match d.curOp id g 6 0 with
  | none => d
  | some c =>
    let d := d.at_ t
    match d.syFlag c.r.part g c.i.w with
    | none => d.endOwn id stBounds
    | some n =>
      let v := bits c.i.w 93 62
      let d := d.modMember id g (fun m => { m with sent := insNat m.sent c.i.idx })
      if v = 0 then d.advance id g c.i
      else if (mfind c.r.signals n).isNone ∧ 64 ≤ c.r.signals.length then d.endOwn id stBounds
      else (d.modRun id (fun r => { r with signals := mset r.signals n (mget 0 r.signals n + v) })).advance id g c.i
def execSySignal (run g t : Nat) (s : State) : Res := .next (s.upd (fun d => d.sySignal run g t))

/-- An SY WAIT of a command expires (R239, R241): the mutual wait is looked for, and the command ends. -/
def Dev.syExpire (d : Dev) (id : Nat) (w : WaitSt) : Dev :=
  match mfind d.runs id with
  | none => d
  | some r =>
    match d.waits.find? (fun x => !x.ring && x.part == r.part && x.ctx == r.ctx && x.flag == w.flag && x.dl == w.deadline) with
    | some x => (d.diagnose x).endOwn id stWaitExpired
    | none => d.endOwn id stWaitExpired
/-- Does the Vigil's kill of an Ordo command precede an expiry at this deadline (R239)? -/
def Dev.vigilFirst (d : Dev) (r : Run) (dl : Nat) : Bool := r.ordo && !d.frame.vigilDone && decide (d.vigilTime ≤ dl)

/-- WAIT at issue: the flag is looked at before the deadline. -/
def Dev.syWait (d : Dev) (id g t : Nat) : Dev :=
  match d.curOp id g 6 1 with
  | none => d
  | some c =>
    let d := d.at_ t
    match d.syFlag c.r.part g c.i.w with
    | none => d.endOwn id stBounds
    | some n =>
      let v := bits c.i.w 93 62
      if v ≤ d.flag n then d.advance id g c.i else
      let w : WaitSt := ⟨n, v, bits (c.i.x 0) 63 0⟩
      let d := d.modMember id g (fun m => { m with stall := .wait w })
      if duePast w.deadline d.now && !d.vigilFirst c.r w.deadline then d.syExpire id w else d
def execSyWait (run g t : Nat) (s : State) : Res := .next (s.upd (fun d => d.syWait run g t))

/-- The wait that stalls member `g`, with the run and the instruction. -/
def Dev.syStall (d : Dev) (id g : Nat) : Option (Run × WaitSt × Ins) :=
  match mfind d.runs id with
  | none => none
  | some r =>
    if r.runNo.isNone then none else
    match r.members[g]?, mfind d.mods r.modId with
    | some m, some md =>
      (match m.stall with
      | .wait w => (insAt md.code m.pc).map (fun i => (r, w, i))
      | _ => none)
    | _, _ => none
/-- SY_WAIT_RELEASE. -/
def Dev.syRelease (d : Dev) (id g t : Nat) : Dev :=
  match d.syStall id g with
  | none => d
  | some (_, w, i) =>
    if w.value ≤ d.flag w.flag then ((d.at_ t).modMember id g (fun m => { m with stall := .none })).advance id g i else d
def execSyWaitRelease (run g t : Nat) (s : State) : Res := .next (s.upd (fun d => d.syRelease run g t))
/-- SY_WAIT_EXPIRED. -/
def Dev.syExpired (d : Dev) (id g t : Nat) : Dev :=
  match d.syStall id g with
  | none => d
  | some (r, w, _) =>
    if decide (w.value ≤ d.flag w.flag) || !duePast w.deadline t || d.vigilFirst r w.deadline then d else (d.at_ t).syExpire id w
def execSyWaitExpired (run g t : Nat) (s : State) : Res := .next (s.upd (fun d => d.syExpired run g t))

/-! ## Barriers and END (R243 to R245) -/

/-- Every member is at a BARRIER or at END, and at least one is at each (R244). -/
def Run.deadlock (r : Run) : Bool :=
  r.members.all (fun m => decide (m.stall = .barrier) || decide (m.stall = .ended)) &&
  r.members.any (fun m => decide (m.stall = .barrier)) && r.members.any (fun m => decide (m.stall = .ended))
/-- All members leave the barrier. -/
def Run.leave (r : Run) (code : List Nat) : Run :=
  { r with members := r.members.map (fun m =>
      { m with stall := .none, barriers := m.barriers + 1, pc := m.pc + ((insAt code m.pc).map Ins.len).getD 1 }) }

/-- BARRIER: the member has drained and waits; a gang of one passes. -/
def Dev.barrier (d : Dev) (id g t : Nat) : Dev :=
  match d.curOp id g 6 2 with
  | none => d
  | some c =>
    if !c.m.drained then d else
    let d := (d.at_ t).modMember id g (fun m => { m with stall := .barrier })
    match mfind d.runs id with
    | none => d
    | some r => if r.deadlock then d.endOwn id stBounds else if r.members.length = 1 then d.modRun id (fun r => r.leave c.code) else d
def execBarrier (run g t : Nat) (s : State) : Res := .next (s.upd (fun d => d.barrier run g t))

/-- BARRIER_RELEASE: every member has reached its BARRIER. -/
def Dev.barrierRelease (d : Dev) (id : Nat) : Dev :=
  match mfind d.runs id with
  | none => d
  | some r =>
    match mfind d.mods r.modId with
    | none => d
    | some md =>
      if r.runNo.isSome && !r.members.isEmpty && r.members.all (fun m => decide (m.stall = .barrier)) then d.modRun id (fun r => r.leave md.code)
      else d
def execBarrierRelease (run : Nat) (s : State) : Res := .next (s.upd (fun d => d.barrierRelease run))

/-- END: the member has drained; the run ends with its last member. -/
def Dev.ctEnd (d : Dev) (id g t : Nat) : Dev :=
  match d.curOp id g 8 1 with
  | none => d
  | some c =>
    if !c.m.drained then d else
    let d := (d.at_ t).modMember id g (fun m => { m with stall := .ended })
    match mfind d.runs id with
    | none => d
    | some r =>
      if r.deadlock then d.endOwn id stBounds
      else if r.members.all (fun m => decide (m.stall = .ended)) then d.runEnded id else d
def execCtEnd (run g t : Nat) (s : State) : Res := .next (s.upd (fun d => d.ctEnd run g t))

/-! ## Loops and counts (R230 to R232, R214) -/

/-- The LEVEL of a short instruction. -/
def iLevel (w : Nat) : Nat := bits w 49 48

/-- LOOP_BEGIN: the count is latched; a count of 0 goes on behind the loop. -/
def Dev.loopBegin (d : Dev) (id g t : Nat) : Dev :=
  match d.curOp id g 7 0, (mfind d.runs id).bind d.runEntry with
  | some c, some (md, e) =>
    let d := d.at_ t
    let l := iLevel c.i.w
    let n := if bitOf c.i.w 50 then c.m.counts.getD l 0 else bits c.i.w 82 51
    let out := loopExit (md.insOf e) c.i.idx l
    d.modMember id g (fun m =>
      let m := { m with latched := m.latched.set l n, iters := m.iters.set l 0 }
      if n = 0 then { m with pc := out } else { m with pc := c.i.idx + c.i.len, loops := m.loops.take l ++ [c.i.idx] })
  | _, _ => d
def execLoopBegin (run g t : Nat) (s : State) : Res := .next (s.upd (fun d => d.loopBegin run g t))

/-- LOOP_END: the iteration counter counts, and the body runs again while it is below the latched count. -/
def Dev.loopEnd (d : Dev) (id g t : Nat) : Dev :=
  match d.curOp id g 7 1 with
  | none => d
  | some c =>
    let l := iLevel c.i.w
    let n := c.m.iters.getD l 0 + 1
    let b := c.m.loops.getD l 0
    (d.at_ t).modMember id g (fun m =>
      let m := { m with iters := m.iters.set l n }
      if n < m.latched.getD l 0 then { m with pc := b + ((insAt c.code b).map Ins.len).getD 1 }
      else { m with pc := c.i.idx + c.i.len, loops := m.loops.take l })
def execLoopEnd (run g t : Nat) (s : State) : Res := .next (s.upd (fun d => d.loopEnd run g t))

/-- Write a count register and go on. -/
def Dev.setCount (d : Dev) (id g : Nat) (i : Ins) (v : Nat) : Dev :=
  (d.modMember id g (fun m => { m with counts := m.counts.set (iLevel i.w) v })).advance id g i

/-- SETCOUNT. -/
def Dev.ctSetcount (d : Dev) (id g t : Nat) : Dev :=
  match d.curOp id g 7 2 with
  | none => d
  | some c => (d.at_ t).setCount id g c.i (bits c.i.w 82 51)
def execSetcount (run g t : Nat) (s : State) : Res := .next (s.upd (fun d => d.ctSetcount run g t))
/-- NOP. -/
def Dev.ctNop (d : Dev) (id g t : Nat) : Dev :=
  match d.curOp id g 8 0 with
  | none => d
  | some c => (d.at_ t).advance id g c.i
def execCtNop (run g t : Nat) (s : State) : Res := .next (s.upd (fun d => d.ctNop run g t))
/-- RDFLAGS: once the engine has drained, its own arithmetic flags ANDed with MASK. -/
def Dev.rdflags (d : Dev) (id g t : Nat) : Dev :=
  match d.curOp id g 8 2 with
  | none => d
  | some c => if c.m.drained then (d.at_ t).setCount id g c.i (c.m.aflags &&& bits c.i.w 57 50) else d
def execRdflags (run g t : Nat) (s : State) : Res := .next (s.upd (fun d => d.rdflags run g t))
/-- LDARG: a word of the argument block; without a block every word reads 0 (R218). DEDUCED: log entry 111. -/
def Dev.ldarg (d : Dev) (id g t : Nat) : Dev :=
  match d.curOp id g 8 3 with
  | none => d
  | some c => (d.at_ t).setCount id g c.i (c.r.args.getD (bits c.i.w 55 50) 0)
def execLdarg (run g t : Nat) (s : State) : Res := .next (s.upd (fun d => d.ldarg run g t))

end Sys2Proof.Machine
end

