-- ==== Sys2Proof/Machine/Gt.lean ====
section
/-!
DEFINITION. The GT instructions GATHER, SCATTER and SCATTER_ADD (R266 to R274).
-/
namespace Sys2Proof.Machine

/-- The fields of a GT instruction (Table 2 of R266). -/
def gtMode (c : Cur) : Nat := bits c.i.w 121 120
def gtAxis (c : Cur) : Nat := bits c.i.w 123 122
/-- The number of indices used (R268). -/
def gtUsed (c : Cur) : Nat := if bitOf c.i.w 124 then c.m.counts.getD (bits c.i.w 126 125) 0 else (c.desc 1).dim 0

/-- An index resolved against `n` slices (Table 3 of R270): none where it selects no slice. -/
def gtResolve (mode n : Nat) (x : Int) : Option Nat :=
  if 0 ≤ x ∧ x < n then some x.toNat else
  match mode with
  | 1 => some (x % (n : Int)).toNat
  | 2 => some (if x < 0 then 0 else n - 1)
  | _ => none

/-- Coordinates with the coordinate of the axis replaced. -/
def onAxis (ax v : Nat) (q : Nat × Nat × Nat × Nat) : Nat × Nat × Nat × Nat :=
  match ax with
  | 0 => (v, q.2.1, q.2.2.1, q.2.2.2)
  | 1 => (q.1, v, q.2.2.1, q.2.2.2)
  | 2 => (q.1, q.2.1, v, q.2.2.2)
  | _ => (q.1, q.2.1, q.2.2.1, v)
/-- The coordinates of one slice. -/
def sliceCoords (t : TDesc) (ax : Nat) : List (Nat × Nat × Nat × Nat) :=
  ({ t with dims := (List.range 4).map (fun n => if n = ax then 1 else t.dim n) }).coords

/-- One step of SCATTER_ADD (R272): the new element and its flags. -/
def addElement (dt cur val : Nat) : Nat × Nat :=
  match fmtOf dt with
  | some f =>
    let a := f.unpack cur
    let b := f.unpack val
    let r := a.addExact b
    let o := r.1.toFp f .even false
    (o.1, nanIn [a, b] ||| r.2 ||| o.2)
  | none =>
    let r := clampInt dt (elInt dt cur + elInt dt val)
    (intBits dt r.1, if r.2 = 0 then 0 else flAccSat)

/-- The three operands on chip. -/
structure GtOp where
  data : Acc2
  index : Acc2
  vals : Acc2
  deriving DecidableEq, Repr

def Acc2.get (d : Dev) (a : Acc2) (q : Nat × Nat × Nat × Nat) : Nat := d.rdEl a q.1 q.2.1 q.2.2.1 q.2.2.2
def Acc2.put (d : Dev) (a : Acc2) (q : Nat × Nat × Nat × Nat) (v : Nat) : Dev := d.wrEl a q.1 q.2.1 q.2.2.1 q.2.2.2 v

/-- Index element `j` of a GT instruction: its effect on one slice, its flags, and whether its index was out of range under ERROR. -/
def Dev.gtSlice (d : Dev) (op mode ax : Nat) (o : GtOp) (j : Nat) : Dev × Nat × Bool :=
  let x := elInt 7 (d.rdEl o.index j 0 0 0)
  let qs := sliceCoords o.vals.t ax
  match gtResolve mode (o.data.t.dim ax) x with
  | none => (if op = 0 then qs.foldl (fun s q => Acc2.put s o.vals (onAxis ax j q) 0) d else d, 0, true)
  | some i =>
    let r := qs.foldl (fun (s : Dev × Nat) q =>
      if op = 0 then (Acc2.put s.1 o.vals (onAxis ax j q) (Acc2.get s.1 o.data (onAxis ax i q)), s.2)
      else if op = 1 then (Acc2.put s.1 o.data (onAxis ax i q) (Acc2.get s.1 o.vals (onAxis ax j q)), s.2)
      else
        let e := addElement o.data.t.dtype (Acc2.get s.1 o.data (onAxis ax i q)) (Acc2.get s.1 o.vals (onAxis ax j q))
        (Acc2.put s.1 o.data (onAxis ax i q) e.1, s.2 ||| e.2)) (d, 0)
    (r.1, r.2, false)

/-- T of R273. -/
def gtTime (c : Cur) (op u : Nat) (o : GtOp) : Nat :=
  let ax := gtAxis c
  let t := o.data.t
  let a := engLat c.m.home o.data.pl
  let b := engLat c.m.home o.vals.pl
  let per := if ax = 0 then t.dim 1 * t.dim 2 * t.dim 3 else
    (([1, 2, 3].filter (fun n => n != ax)).map t.dim).foldl (· * ·) 1 * ceilDiv (ceilDiv (t.dim 0 * t.nibs) 2) o.data.width
  12 + Nat.max a.1 b.1 + ceilDiv u 16 + u * per * Nat.max a.2 b.2 * (if op = 2 then 2 else 1)

/-- The checks that rest on fields and descriptors (R267, R268). -/
def gtChecks (c : Cur) (op : Nat) : List Nat :=
  let t := c.desc 0
  let x := c.desc 1
  let v := c.desc 2
  let ax := gtAxis c
  stIf (x.dtype != 7 || x.layout != 0 || t.layout != 0 || v.layout != 0 || t.dtype != v.dtype ||
    (t.dtype == 0 && (op == 2 || ax == 0))) stFormat ++
  stIf (x.dim 1 != 1 || x.dim 2 != 1 || x.dim 3 != 1 ||
    [0, 1, 2, 3].any (fun n => v.dim n != (if n = ax then x.dim 0 else t.dim n)) || x.dim 0 < gtUsed c) stBounds

/-- The operands of a GT instruction, located. -/
def Dev.gtOps (d : Dev) (c : Cur) (g op : Nat) : Except Nat GtOp :=
  match d.opd c g 0 (op != 0) stBounds, d.opd c g 1 false stBounds, d.opd c g 2 (op == 0) stBounds with
  | .ok a, .ok x, .ok v => .ok ⟨a, x, v⟩
  | a, x, v => .error (firstStatus (exStatus a ++ exStatus x ++ exStatus v))
/-- The checks that rest on where the operands lie: overlaps, and R157. -/
def gtPlaced (c : Cur) (o : GtOp) : List Nat :=
  stIf (o.index.overlaps o.data || o.index.overlaps o.vals || o.data.overlaps o.vals) stBounds ++
  c.unaligned 0 o.data ++ c.unaligned 1 o.index ++ c.unaligned 2 o.vals

/-- A GT instruction at issue. -/
def Dev.gt (d : Dev) (id g t op : Nat) : Dev :=
  match d.curOp id g 4 op with
  | none => d
  | some c =>
    if c.stalls qGather then d else
    let d := d.at_ t
    match d.gtOps c g op with
    | .error s => d.endOwn id (firstStatus (s :: gtChecks c op))
    | .ok o =>
      (match firstStatus (gtChecks c op ++ gtPlaced c o) with
      | 0 => d.enqueue id g c qGather (some (gtTime c op (gtUsed c) o)) [(0, o.data.region), (1, o.index.region), (2, o.vals.region)]
      | st => d.endOwn id st)
/-- A GT instruction as it runs: the indices in rising order. -/
def Dev.gtDo (d : Dev) (g : Nat) (c : Cur) : Done :=
  match d.gtOps c g c.i.op with
  | .error _ => Done.idle d
  | .ok o =>
    let r := (List.range (gtUsed c)).foldl (fun (s : Dev × Nat × Bool) j =>
      let e := s.1.gtSlice c.i.op (gtMode c) (gtAxis c) o j
      (e.1, s.2.1 ||| e.2.1, s.2.2 || e.2.2)) (d, 0, false)
    { Done.idle r.1 with
      flags := r.2.1, touched := [o.data.keys, o.index.keys, o.vals.keys], range := r.2.2,
      wrote := [if c.i.op = 0 then o.vals.keys else o.data.keys] }

/-- GATHER (R269). -/
def execGather (run g t : Nat) (s : State) : Res := .next (s.upd (fun d => d.gt run g t 0))
/-- SCATTER (R269). -/
def execScatter (run g t : Nat) (s : State) : Res := .next (s.upd (fun d => d.gt run g t 1))
/-- SCATTER_ADD (R272). -/
def execScatterAdd (run g t : Nat) (s : State) : Res := .next (s.upd (fun d => d.gt run g t 2))

end Sys2Proof.Machine
end

