-- ==== Sys2Proof/Machine/Kv.lean ====
section
/-!
DEFINITION. The KV descriptors (R290 to R297) and the read of a Bushel entry (R304). The Bushel state is checked at dispatch.
-/
namespace Sys2Proof.Machine

/-- Write the 16-byte result of a KV descriptor (R294): bit 0 of ADDR selects host memory. -/
def Dev.kvWrite (d : Dev) (bs : List Nat) (i ref : Nat) : Dev :=
  let a := bfield bs 24 8
  if a / 2 = 0 ∧ a % 2 = 0 then d else
  let r := d.kvResult i ref
  if a % 2 = 1 then d.wrHost (a - 1) r else d.wrHbm a r
/-- A KV descriptor ends: with its result when it succeeds. -/
def Dev.kvDone (d : Dev) (key : Nat) (bs : List Nat) (i ref : Nat) : Dev := (d.kvWrite bs i ref).complete key stOk 0 0 0
/-- A KV descriptor is refused with a status; a stale reference counts. -/
def Dev.kvRefuse (d : Dev) (key st : Nat) : Dev :=
  (if st = stStale then d.addSat F.KVU_STALE.COUNT 1 else d).complete key st 0 0 0

/-! ## Pools (R295) -/

def unit2M : Nat := 0x200000
/-- The range of a POOL descriptor. -/
def poolRange (bs : List Nat) : Nat × Nat := (bfield bs 24 8, bfield bs 32 4 * unit2M)
/-- Is the 2 MiB unit at `a` one free block of the partition's pool? -/
def Dev.unitFree (d : Dev) (f a : Nat) : Bool := (d.freeBlocks f).contains (a / 4096, 9)

/-- POOL_GRANT. -/
def Dev.poolGrant (d : Dev) (key : Nat) : Dev :=
  match d.headSub key 8 0 with
  | none => d
  | some bs =>
    let f := key / 4096
    let r := poolRange bs
    if r.2 = 0 then d.complete key (if r.1 % unit2M = 0 then stOk else stAlign) 0 0 0
    else if !inRange (d.headRange key) r.1 r.2 || d.kv.pools.any (fun p => p.2.1 < r.1 + r.2 && r.1 < p.2.2) then d.complete key stBounds 0 0 0
    else if r.1 % unit2M ≠ 0 then d.complete key stAlign 0 0 0
    else
      let ps := insRange (d.kv.pools.map (fun p => (p.2.1, p.2.2, p.1))) (r.1, r.1 + r.2, f)
      let d := { d with kv := { d.kv with pools := ps.map (fun (q : Nat × Nat × Nat) => (q.2.2, q.1, q.2.1)) } }
      let l := (List.range (r.2 / unit2M)).foldl (fun l i => insBlock l (r.1 / 4096 + 512 * i, 9)) (d.freeBlocks f)
      (d.setFree f l).complete key stOk 0 0 0
def execPoolGrant (fn ctx : Nat) (s : State) : Res := .next (s.upd (fun d => d.poolGrant (ckey fn ctx)))

/-- A pool less a range. -/
def cutPool (lo hi : Nat) (p : Nat × Nat × Nat) : List (Nat × Nat × Nat) :=
  (cutRange lo hi (p.2.1, p.2.2, p.1)).map (fun q => (q.2.2, q.1, q.2.1))
/-- POOL_RECLAIM. -/
def Dev.poolReclaim (d : Dev) (key : Nat) : Dev :=
  match d.headSub key 8 1 with
  | none => d
  | some bs =>
    let f := key / 4096
    let r := poolRange bs
    let us := (List.range (r.2 / unit2M)).map (fun i => r.1 + unit2M * i)
    if r.2 = 0 then d.complete key (if r.1 % unit2M = 0 then stOk else stAlign) 0 0 0
    else if r.1 % unit2M = 0 && !us.all (d.unitFree f) then d.complete key stBounds 0 0 0
    else if r.1 % unit2M ≠ 0 then d.complete key stAlign 0 0 0
    else
      let d := d.setFree f ((d.freeBlocks f).filter (fun b => !(b.2 == 9 && us.contains (b.1 * 4096))))
      let ps := d.kv.pools.flatMap (fun (p : Nat × Nat × Nat) => if p.1 = f then cutPool r.1 (r.1 + r.2) p else [p])
      let d := { d with kv := { d.kv with pools := ps } }
      d.complete key stOk 0 0 0
def execPoolReclaim (fn ctx : Nat) (s : State) : Res := .next (s.upd (fun d => d.poolReclaim (ckey fn ctx)))

/-! ## Caches (R291, R295) -/

/-- A cache of the partition. -/
def Dev.cacheOf (d : Dev) (f n : Nat) : Option Cache := (mfind d.kv.caches n).bind (fun c => if c.part = f then some c else none)

/-- CACHE_CREATE. -/
def Dev.cacheCreate (d : Dev) (key : Nat) : Dev :=
  match d.headSub key 8 2 with
  | none => d
  | some bs =>
    let n := bfield bs 20 4
    let a := bfield bs 36 8
    if (mfind d.kv.caches n).isSome then d.complete key stBounds 0 0 0 else
    let c : Cache := ⟨key / 4096, bits a 8 0, bits a 20 9, bits a 22 21⟩
    Dev.complete { d with kv := { d.kv with caches := mset d.kv.caches n c } } key stOk 0 0 0
def execCacheCreate (fn ctx : Nat) (s : State) : Res := .next (s.upd (fun d => d.cacheCreate (ckey fn ctx)))

/-- CACHE_DESTROY. -/
def Dev.cacheDestroy (d : Dev) (key : Nat) : Dev :=
  match d.headSub key 8 3 with
  | none => d
  | some bs =>
    let n := bfield bs 20 4
    if (d.cacheOf (key / 4096) n).isNone || d.kv.entries.any (fun p => p.2.valid && p.2.cache == n) then d.complete key stBounds 0 0 0
    else Dev.complete { d with kv := { d.kv with caches := merase d.kv.caches n } } key stOk 0 0 0
def execCacheDestroy (fn ctx : Nat) (s : State) : Res := .next (s.upd (fun d => d.cacheDestroy (ckey fn ctx)))

/-! ## Pages (R290, R296, R301) -/

/-- PAGE_ALLOC. -/
def Dev.pageAlloc (d : Dev) (key : Nat) : Dev :=
  match d.headSub key 8 4 with
  | none => d
  | some bs =>
    let f := key / 4096
    let n := bfield bs 20 4
    let a := bfield bs 36 8
    let size := bits a 3 0
    let fmt := bits a 5 4
    let foreign := bitOf a 6
    match d.cacheOf f n with
    | none => d.complete key stBounds 0 0 0
    | some c =>
      if 10 < size || (foreign && c.spread == 1) || pageT size fmt c.kvHeads c.headDim == 0 then d.complete key stBounds 0 0 0 else
      let r := d.allocPage f n size fmt foreign (if foreign then bits a 21 7 else d.pkg)
      match r.2 with
      | none => r.1.complete key stBounds 0 0 0
      | some i => r.1.kvDone key bs i (refOf i (r.1.bent i).epoch)
def execPageAlloc (fn ctx : Nat) (s : State) : Res := .next (s.upd (fun d => d.pageAlloc (ckey fn ctx)))

/-- What an operation on a reference finds: its index, or the status of its check. -/
def Dev.refCheck (d : Dev) (f ref : Nat) : Except Nat Nat :=
  if !d.refLive ref then .error stStale
  else if (d.bent (refIdx ref)).part ≠ f then .error stBounds
  else .ok (refIdx ref)

/-- PAGE_SHARE. -/
def Dev.pageShare (d : Dev) (key : Nat) : Dev :=
  match d.headSub key 8 5 with
  | none => d
  | some bs =>
    let ref := bfield bs 20 4
    match d.refCheck (key / 4096) ref with
    | .error s => d.kvRefuse key s
    | .ok i =>
      let b := d.bent i
      if b.refs = 65535 then d.kvRefuse key stBounds else (d.setBent i { b with refs := b.refs + 1 }).kvDone key bs i ref
def execPageShare (fn ctx : Nat) (s : State) : Res := .next (s.upd (fun d => d.pageShare (ckey fn ctx)))

/-- PAGE_FREE. -/
def Dev.pageFree (d : Dev) (key : Nat) : Dev :=
  match d.headSub key 8 6 with
  | none => d
  | some bs =>
    let ref := bfield bs 20 4
    match d.refCheck (key / 4096) ref with
    | .error s => d.kvRefuse key s
    | .ok i =>
      let b := d.bent i
      (Dev.settleEntry (d.setBent i { b with refs := b.refs - 1 }) i).kvDone key bs i ref
def execPageFree (fn ctx : Nat) (s : State) : Res := .next (s.upd (fun d => d.pageFree (ckey fn ctx)))

/-- PAGE_COW: the copy, when there is one, holds a pin on the old entry. DEDUCED: log entry 120. -/
def Dev.pageCow (d : Dev) (key : Nat) : Dev :=
  match d.headSub key 8 7 with
  | none => d
  | some bs =>
    let f := key / 4096
    let ref := bfield bs 20 4
    match d.refCheck f ref with
    | .error s => d.kvRefuse key s
    | .ok i =>
      let b := d.bent i
      if b.refs = 1 ∧ ¬ b.foreign then d.kvDone key bs i ref
      else if b.pins = 65535 then d.kvRefuse key stBounds
      else
        let r := d.allocPage f b.cache b.size b.fmt false (d.pkg)
        match r.2 with
        | none => r.1.kvRefuse key stBounds
        | some j =>
          let o := r.1.bent i
          (r.1.setBent i { o with refs := o.refs - 1, pins := o.pins + 1 }).setHead key (.cow j)
def execPageCow (fn ctx : Nat) (s : State) : Res := .next (s.upd (fun d => d.pageCow (ckey fn ctx)))

/-- The copy of a page ends: `i` is the old page, `j` the new one. A poisoned granule of the old page ends the descriptor without a result
(R141); what the new page then holds is not defined. -/
def Dev.cowEnd (d : Dev) (key i j : Nat) (bs : List Nat) : Dev :=
  let o := d.bent i
  let n := d.bent j
  match d.poisonIn o.addr o.bytes with
  | g :: _ =>
    let d := Dev.take { d with mem := { d.mem with hbm := d.mem.hbm.forget n.addr (n.addr + n.bytes) d.fresh } }
    (d.unpin i).hubUe key g accRead
  | [] =>
    let d := (d.wrHbm n.addr (d.rdHbm o.addr o.bytes)).unpin i
    (d.addSat F.KVU_COW.COUNT 1).kvDone key bs j (refOf j n.epoch)
/-- COW_COPY_DONE. DEDUCED: log entry 120. -/
def Dev.cowCopyDone (d : Dev) (key : Nat) (mem : List MemErr) : Dev :=
  match d.head key with
  | none => d
  | some k =>
    if !d.rst.hbmReady then d else
    match k.st with
    | .cow j =>
      let i := refIdx (bfield k.bytes 20 4)
      d.met accRead [((d.bent i).addr, (d.bent i).bytes)] mem (fun d => d.cowEnd key i j k.bytes)
    | _ => d
def execCowCopyDone (fn ctx : Nat) (mem : List MemErr) (s : State) : Res := .next (s.upd (fun d => d.cowCopyDone (ckey fn ctx) mem))

/-! ## Registers (R304) -/

/-- KVU_ENTRY_READ: the read of DATA0 takes the whole entry. -/
def Dev.entryRead (d : Dev) : Dev :=
  let w := (d.bent (d.f F.KVU_ENTRY_SEL.INDEX)).word
  let l := (List.range 4).map (fun n => bits w (32 * n + 31) (32 * n))
  Dev.ret { d with kv := { d.kv with snap := l } } (leBytes 4 (l.getD 0 0))
def execKvuEntryRead (s : State) : Res := .next (s.upd Dev.entryRead)

/-- The views of the KV state in registers. -/
def Dev.poolTotal (d : Dev) (f : Nat) : Nat := sumNat ((d.kv.pools.filter (fun p => p.1 == f)).map (fun p => (p.2.2 - p.2.1) / 4096))
def Dev.poolFree (d : Dev) (f : Nat) : Nat := sumNat ((d.freeBlocks f).map (fun b => 2 ^ b.2))
def Dev.poolLargest (d : Dev) (f : Nat) : Nat := (d.freeBlocks f).foldl (fun m b => Nat.max m (b.2 + 1)) 0
def Dev.bushelUsed (d : Dev) : Nat := (d.kv.entries.filter (fun p => p.2.valid)).length

end Sys2Proof.Machine
end

