-- ==== Sys2Proof/Machine/Mm.lean ====
section
/-!
DEFINITION. MATMUL (R166 to R185, R189, R204 to R206) with the checks of Scruple (R334 to R337).
-/
namespace Sys2Proof.Machine

/-- The fields of an MM (Tables 1 and 3 of R195 and R204). -/
structure MmF where
  acc : Bool
  neg0 : Bool
  neg1 : Bool
  round : Nat
  ovf : Bool
  epi : Nat
  m : Nat
  n : Nat
  k : Nat
  par : Nat
  v0 : Option Nat
  v1 : Option Nat
  deriving DecidableEq, Repr

def mmFields (i : Ins) : MmF :=
  let w := i.w
  let x := i.x 0
  { acc := bitOf w 120, neg0 := bitOf w 121, neg1 := bitOf w 122, round := bits w 124 123, ovf := bitOf w 125, epi := bits w 127 126,
    m := bits x 84 72, n := bits x 97 85, k := bits x 110 98, par := bits x 124 111,
    v0 := if bitOf x 125 then some (bits x 47 24) else none, v1 := if bitOf x 126 then some (bits x 71 48) else none }

/-- The fields in force: in run 2 of an Octave command NEG is replaced by NEG XOR 3 (R340). -/
def Cur.mmF (c : Cur) : MmF :=
  let f := mmFields c.i
  if c.oct then { f with neg0 := !f.neg0, neg1 := !f.neg1 } else f

/-- The operands of an MM once they are formed. -/
structure MmOp where
  a : Acc2
  b : Acc2
  out : Acc2
  c : Option Acc2
  v0 : Option Acc2
  v1 : Option Acc2
  deriving DecidableEq, Repr

/-- Is the combination one of Table 1 of R168? -/
def mmTypes (a b out : Nat) : Bool :=
  ((a ≤ 1 && b ≤ 1) && [7, 1, 0].contains out) ||
  ((((a == 3 || a == 4) && (b == 3 || b == 4)) || (a == 6 && b == 6) || (a == 5 && b == 5)) && [8, 6, 5, 3].contains out)
/-- Is the accumulator INT32? -/
def mmInt (a : Nat) : Bool := a ≤ 1
/-- The parameter block applies (R206). -/
def mmReadsPar (f : MmF) (out : Nat) : Bool := out ≤ 1 || 0 < f.epi || f.round == 1
/-- An input broadcasts to every batch member, or has the batch of OUT (R169). -/
def mmBatch (t out : TDesc) : Bool :=
  (t.dim 2 == out.dim 2 && t.dim 3 == out.dim 3) || (t.dim 2 == 1 && t.dim 3 == 1 && t.stride 2 == 0 && t.stride 3 == 0)

/-- The parameter block: 64 bytes of the engine's own scratchpad (Table 4 of R206). -/
def Dev.mmPar (d : Dev) (c : Cur) (f : MmF) : List Nat :=
  match c.r.physOf c.m.k c.m.e with
  | some p => d.rdSram ⟨p, f.par * 64⟩ 64
  | none => []

/-- A vector used by the requantisation or an epilogue: its DTYPE and its dimensions (R205). -/
def vecCheck (v : Option TDesc) (dt n : Nat) : List Nat :=
  match v with
  | none => [stBounds]
  | some a => stIf (a.dtype != dt) stFormat ++ stIf (a.dim 0 != n || a.dim 1 != 1 || a.dim 2 != 1 || a.dim 3 != 1) stBounds

/-- Is a CLAMP of this domain given s0 > s1? -/
def clampBad (int : Bool) (s0 s1 : Nat) : Bool :=
  if int then decide (toSigned 32 s1 < toSigned 32 s0) else (ofBits32 s0).gt (ofBits32 s1) && !((ofBits32 s0).isZero && (ofBits32 s1).isZero)

/-- The checks of the parameter block. -/
def parChecks (f : MmF) (int : Bool) (outdt : Nat) (v0 v1 : Option TDesc) (p : List Nat) : List Nat :=
  let rq :=
    if outdt ≤ 1 then
      let z := toSigned 8 (p.getD 5 0)
      let src := p.getD 6 0 % 4
      stIf (64 ≤ p.getD 4 0 || 4 ≤ p.getD 6 0 || p.getD 7 0 != 0) stReserved ++
      stIf (src == 3) stFormat ++ stIf (p.getD 4 0 % 64 == 63) stBounds ++
      stIf (outdt == 0 && (z < -8 || 7 < z)) stBounds ++
      (if src = 1 then vecCheck v0 7 f.n else if src = 2 then vecCheck v1 7 f.n else [])
    else []
  let epi := (List.range 2).flatMap (fun j =>
    let op := p.getD (8 + 2 * j) 0
    let bm := p.getD (9 + 2 * j) 0
    let s0 := bfield p (16 + 8 * j) 4
    let s1 := bfield p (20 + 8 * j) 4
    if f.epi ≤ j then stIf (op != 0 || bm != 0 || s0 != 0 || s1 != 0) stReserved else
    stIf (64 ≤ op || 8 ≤ bm) stReserved ++
    stIf (op % 64 == 0 || 0x10 < op % 64 || bm % 4 == 3 || (int && !opInt (op % 64))) stFormat ++
    stIf (opS (op % 64) && bm % 4 != 0) stFormat ++
    stIf (op % 64 == 0x0A && clampBad int s0 s1) stBounds ++
    (if bm % 4 = 1 then vecCheck (if maskHas bm 2 then v1 else v0) (if int then 7 else 8) f.n
     else if bm % 4 = 2 then vecCheck (if maskHas bm 2 then v1 else v0) (if int then 7 else 8) f.m else []))
  stIf (!zeroB p 12 16 || !zeroB p 48 64) stReserved ++ rq ++ epi
where
  zeroB (p : List Nat) (lo hi : Nat) : Bool := ((p.drop lo).take (hi - lo)).all (fun b => b == 0)

/-- The checks of an MM at issue that rest on its fields, its descriptors and its parameter block. -/
def Dev.mmChecks (d : Dev) (c : Cur) (f : MmF) : List Nat :=
  let ta := c.desc 0
  let tb := c.desc 1
  let tt := c.desc 2
  stIf (ta.layout != 1 || tb.layout != 2 || tt.layout != 3) stFormat ++
  stIf (!mmTypes ta.dtype tb.dtype tt.dtype) stFormat ++
  (if f.acc then
    let x := c.desc 3
    stIf (x.layout != 3 || x.dtype != (if mmInt ta.dtype then 7 else 8)) stFormat ++
    stIf (x.dim 0 != f.n || x.dim 1 != f.m || !mmBatch x tt) stBounds else []) ++
  stIf (ta.dim 0 != f.k || ta.dim 1 != f.m || tb.dim 0 != f.k || tb.dim 1 != f.n || tt.dim 0 != f.n || tt.dim 1 != f.m ||
    !mmBatch ta tt || !mmBatch tb tt) stBounds ++
  (if mmReadsPar f tt.dtype then parChecks f (mmInt ta.dtype) tt.dtype (f.v0.map c.descAt) (f.v1.map c.descAt) (d.mmPar c f)
   else stIf (f.par != 0) stReserved)

/-- The checks that rest on where the operands lie. -/
def mmPlaced (o : MmOp) : List Nat :=
  let vs := o.v0.toList ++ o.v1.toList
  stIf (!o.a.own || !o.b.own || !o.out.own || (o.c.toList ++ vs).any (fun v => !v.own)) stBounds ++
  stIf (o.out.overlaps o.a || o.out.overlaps o.b || vs.any o.out.overlaps) stBounds ++
  stIf (o.c.toList.any (fun x => o.out.overlaps x && !o.out.same x)) stBounds

/-- R157 for the operands: a slot with its gang stride, a vector without. -/
def mmUnaligned (c : Cur) (o : MmOp) : List Nat :=
  c.unaligned 0 o.a ++ c.unaligned 1 o.b ++ c.unaligned 2 o.out ++ o.c.toList.flatMap (c.unaligned 3) ++
  (o.v0.toList ++ o.v1.toList).flatMap (fun v => v.unaligned v.width 0)

/-- The operands of an MM, located, or the statuses of those that fail. -/
def Dev.mmOps (d : Dev) (c : Cur) (g : Nat) (f : MmF) : Except Nat MmOp :=
  let a := d.opd c g 0 false stBounds
  let b := d.opd c g 1 false stBounds
  let o := d.opd c g 2 true stBounds
  let ci := if f.acc then (d.opd c g 3 false stBounds).map some else .ok none
  let v0 := match f.v0 with
    | some s => (d.vecOpd c s).map some
    | none => .ok none
  let v1 := match f.v1 with
    | some s => (d.vecOpd c s).map some
    | none => .ok none
  match a, b, o, ci, v0, v1 with
  | .ok a, .ok b, .ok o, .ok ci, .ok v0, .ok v1 => .ok ⟨a, b, o, ci, v0, v1⟩
  | _, _, _, _, _, _ => .error (firstStatus (exStatus a ++ exStatus b ++ exStatus o ++ exStatus ci ++ exStatus v0 ++ exStatus v1))

/-- T of R174. -/
def mmTime (f : MmF) (o : MmOp) : Nat :=
  let t := o.out.t.dim 2 * o.out.t.dim 3 * ceilDiv f.m 64 * ceilDiv f.n 128
  let sk := if o.a.t.dtype = 0 ∧ o.b.t.dtype = 0 then ceilDiv f.k 2 else if 5 ≤ o.a.t.dtype then 4 * f.k else f.k
  let win := if f.acc then 256 else 0
  let wout := 8 * dtBits o.out.t.dtype
  24 + win + t * Nat.max (sk + 32 * f.epi) (win + wout) + wout

/-! ## The arithmetic -/

/-- One accumulator: a value of the accumulator's type. -/
inductive Av where
  | i (v : Int)
  | f (v : Num)
  deriving DecidableEq, Repr

/-- The value of an epilogue's b for column `n` and row `m`. -/
def Dev.epiB (d : Dev) (o : MmOp) (p : List Nat) (j m n : Nat) : Nat :=
  let bm := p.getD (9 + 2 * j) 0
  let v := if maskHas bm 2 then o.v1 else o.v0
  match bm % 4, v with
  | 1, some a => d.rdEl a n 0 0 0
  | 2, some a => d.rdEl a m 0 0 0
  | _, _ => bfield p (16 + 8 * j) 4

/-- The epilogue (R189), with flags. -/
def Dev.mmEpi (d : Dev) (f : MmF) (o : MmOp) (p : List Nat) (m n : Nat) (v : Av) : Av × Nat :=
  (List.range f.epi).foldl (fun (s : Av × Nat) j =>
    let op := p.getD (8 + 2 * j) 0 % 64
    let b := d.epiB o p j m n
    let s0 := bfield p (16 + 8 * j) 4
    let s1 := bfield p (20 + 8 * j) 4
    match s.1 with
    | .i x => let r := intOp op x (toSigned 32 b) (toSigned 32 s1) (toSigned 32 s0) (toSigned 32 s1); (.i r.1, s.2 ||| r.2)
    | .f x => let r := fpEpi op x (ofBits32 b) (ofBits32 s1) (ofBits32 s0) (ofBits32 s1); (.f r.1, s.2 ||| r.2)) (v, 0)

/-- The accumulator after the last K step, before saturation and negation, with flags: integers are exact (R175). -/
def Dev.mmAcc (d : Dev) (f : MmF) (o : MmOp) (i3 i2 m n : Nat) : Av × Nat :=
  let da := o.a.t.dtype
  let db := o.b.t.dtype
  if mmInt da then
    let c0 : Int × Nat := match o.c with
      | none => (0, 0)
      | some x => let v := elInt 7 (d.rdB x n m i2 i3); if v < -int32Max then (-int32Max, flAccSat) else (v, 0)
    let c0' := if f.neg0 then -c0.1 else c0.1
    let s := (List.range f.k).foldl (fun (s : Int) k =>
      let p := elInt da (d.rdB o.a k m i2 i3) * elInt db (d.rdB o.b k n i2 i3)
      if f.neg0 then s - p else s + p) c0'
    (.i s, c0.2)
  else
    let c0 : Num × Nat := match o.c with
      | none => (numZero, 0)
      | some x => let v := elNum 8 (d.rdB x n m i2 i3); (if v.isZero then numZero else v, nanIn [v])
    let c0' := if f.neg0 then mmNeg c0.1 else c0.1
    let s := (List.range f.k).foldl (fun (s : Num × Nat) k =>
      let r := mmStep f.neg0 s.1 (elNum da (d.rdB o.a k m i2 i3)) (elNum db (d.rdB o.b k n i2 i3))
      (r.1, s.2 ||| r.2)) (c0', c0.2)
    (.f s.1, s.2)

/-- A physical upset of an accumulator: bits of its 48-bit or FP32 pattern invert. -/
def Av.flip (v : Av) (x : Nat) : Av :=
  match v with
  | .i a => .i (toSigned 48 (ofSigned 48 a ^^^ (x % 2 ^ 48)))
  | .f a => .f (ofBits32 (a.toBits32 ^^^ (x % 2 ^ 32)))

/-- From the accumulator to the element of OUT (R173): saturation, result negation, epilogue, conversion. `i` is the linear index. Without
an epilogue a result that rounds to zero is +0 (R178). DEDUCED: log entry 177. -/
def Dev.mmOut (d : Dev) (g : Nat) (f : MmF) (o : MmOp) (p : List Nat) (m n i : Nat) (v : Av) : Nat × Nat :=
  let dt := o.out.t.dtype
  match v with
  | .i a =>
    let s := satI32 a
    let e := d.mmEpi f o p m n (.i (if f.neg1 then -s.1 else s.1))
    (match e.1 with
     | .i y =>
       if dt = 7 then (intBits 7 y, s.2 ||| e.2) else
       let src := p.getD 6 0 % 4
       let q := match src, o.v0, o.v1 with
         | 1, some x, _ => elInt 7 (d.rdEl x n 0 0 0)
         | 2, _, some x => elInt 7 (d.rdEl x n 0 0 0)
         | _, _, _ => toSigned 32 (bfield p 0 4)
       let r := requant dt y q (p.getD 4 0 % 64) (toSigned 8 (p.getD 5 0))
       (intBits dt r.1, s.2 ||| e.2 ||| r.2)
     | .f _ => (0, 0))
  | .f a =>
    let e := d.mmEpi f o p m n (.f (if f.neg1 then mmNeg a else a))
    (match e.1 with
     | .f y =>
       let rnd := if f.round = 1 then Rnd.epact (epact (bfield p 32 8) (bfield p 40 8 + g * 2 ^ 40 + i)) else .even
       let r := outFp dt rnd f.ovf y
       (if f.epi = 0 ∧ r.1 = 2 ^ (dtBits dt - 1) then 0 else r.1, e.2 ||| r.2)
     | .i _ => (0, 0))

/-! ## Scruple (R334 to R337) -/

/-- What a check found: 0 passed, 1 failed, 2 skipped. -/
def Dev.scrInt (d : Dev) (f : MmF) (o : MmOp) (i3 i2 : Nat) (row : Bool) (ix : Nat) (span : List Nat) (acc : Nat → Int) : Nat :=
  let da := o.a.t.dtype
  let db := o.b.t.dtype
  let av := fun m k => let v := elInt da (d.rdB o.a k m i2 i3); if f.neg0 then -v else v
  let bv := fun n k => elInt db (d.rdB o.b k n i2 i3)
  let c0 := fun m n => match o.c with
    | none => (0 : Int)
    | some x => let v := max (elInt 7 (d.rdB x n m i2 i3)) (-int32Max); if f.neg0 then -v else v
  let sum := fun (l : List Int) => l.foldl (· + ·) 0
  let chk := sum (span.map (fun j => if row then c0 j ix else c0 ix j)) + sum ((List.range f.k).map (fun k =>
    if row then sum (span.map (fun m => av m k)) * bv ix k else av ix k * sum (span.map (fun n => bv n k))))
  let s := sum (span.map acc)
  if (s - chk) % (2 ^ 48 : Nat) = 0 then 0 else 1

def Dev.scrFp (d : Dev) (f : MmF) (o : MmOp) (i3 i2 : Nat) (row : Bool) (ix : Nat) (span : List Nat) (acc : Nat → Num) : Nat :=
  let da := o.a.t.dtype
  let db := o.b.t.dtype
  let av := fun m k => let v := elNum da (d.rdB o.a k m i2 i3); if f.neg0 then v.neg else v
  let bv := fun n k => elNum db (d.rdB o.b k n i2 i3)
  let c0 := fun m n => match o.c with
    | none => numZero
    | some x => let v := elNum 8 (d.rdB x n m i2 i3); if f.neg0 then mmNeg v else v
  let sum := fun (l : List Num) => l.foldl (fun s v => (s.add v).1) numZero
  let up := fun (l : List Num) => l.foldl (fun s v => upFma num1 v s) numZero
  let one := fun k j => if row then av j k else bv j k
  let other := fun k => if row then bv ix k else av ix k
  let chk := (List.range f.k).foldl (fun s k => ((sum (span.map (one k))).fma (other k) s).1)
    (sum (span.map (fun j => if row then c0 j ix else c0 ix j)))
  let mag := (List.range f.k).foldl (fun s k => upFma (up (span.map (one k))) (other k) s)
    (up (span.map (fun j => if row then c0 j ix else c0 ix j)))
  let s := sum (span.map acc)
  let tau := tauOf span.length f.k mag
  if !(chk.isFin && mag.isFin && s.isFin && tau.isFin) then 2
  else if withinTau s chk tau then 0 else 1

/-- The checks of one tile: the outcome of each row check and column check. DEDUCED: log entry 101. -/
def Dev.scrTile (d : Dev) (f : MmF) (o : MmOp) (i3 i2 : Nat) (rows cols : List Nat) (acc : Nat → Nat → Av) : List Nat :=
  let iv := fun m n => match acc m n with
    | .i v => v
    | .f _ => 0
  let fv := fun m n => match acc m n with
    | .f v => v
    | .i _ => numZero
  if mmInt o.a.t.dtype then
    cols.map (fun n => d.scrInt f o i3 i2 true n rows (fun m => iv m n)) ++
    rows.map (fun m => d.scrInt f o i3 i2 false m cols (fun n => iv m n))
  else
    cols.map (fun n => d.scrFp f o i3 i2 true n rows (fun m => fv m n)) ++
    rows.map (fun m => d.scrFp f o i3 i2 false m cols (fun n => fv m n))

/-- The rows and columns of the tiles of one batch member, in the order of R171. -/
def mmTiles (f : MmF) : List (List Nat × List Nat) :=
  (List.range (ceilDiv f.m 64)).flatMap (fun mb => (List.range (ceilDiv f.n 128)).map (fun nb =>
    ((List.range (Nat.min 64 (f.m - 64 * mb))).map (fun r => 64 * mb + r),
     (List.range (Nat.min 128 (f.n - 128 * nb))).map (fun c => 128 * nb + c))))

/-- Where an accumulator is computed (R166, R171, R340): the number of its tile in the order of visits, its array row and its array
column. Run 2 visits batch members and tiles in descending order, on mirrored rows and columns. -/
def mmVisit (oct : Bool) (f : MmF) (t : TDesc) (i3 i2 m n : Nat) : Nat × Nat × Nat :=
  let nb := ceilDiv f.n 128
  let per := ceilDiv f.m 64 * nb
  let v := (i3 * t.dim 2 + i2) * per + m / 64 * nb + n / 128
  if oct then (t.dim 3 * t.dim 2 * per - 1 - v, 63 - m % 64, 127 - n % 128) else (v, m % 64, n % 128)
/-- The bits that upsets invert in an accumulator. -/
def mmFlips (oct : Bool) (f : MmF) (t : TDesc) (ups : List Upset) (i3 i2 m n : Nat) : Nat :=
  let w := mmVisit oct f t i3 i2 m n
  (ups.filter (fun u => u.visit == w.1 && u.row == w.2.1 && u.col == w.2.2)).foldl (fun x u => x ^^^ u.flip) 0
/-- The whole MM: every element of OUT, the flags, and the outcomes of the Scruple checks. -/
def Dev.mmRun (d : Dev) (g : Nat) (oct : Bool) (f : MmF) (o : MmOp) (p : List Nat) (ups : List Upset) : Dev × Nat × List Nat :=
  let tt := o.out.t
  (visits oct (List.range (tt.dim 3))).foldl (fun s i3 => (visits oct (List.range (tt.dim 2))).foldl (fun s i2 =>
    let bt := i3 * tt.dim 2 + i2
    (visits oct (mmTiles f)).foldl (fun s tile =>
      let cells := tile.1.flatMap (fun m => tile.2.map (fun n =>
        let r := d.mmAcc f o i3 i2 m n
        let x := mmFlips oct f tt ups i3 i2 m n
        ((m, n), (if x = 0 then r.1 else r.1.flip x), r.2)))
      let acc := fun m n => match cells.find? (fun c => c.1 = (m, n)) with
        | some c => c.2.1
        | none => .i 0
      let chk := d.scrTile f o i3 i2 tile.1 tile.2 acc
      let w := cells.foldl (fun (w : Dev × Nat) c =>
        let r := d.mmOut g f o p c.1.1 c.1.2 ((bt * f.m + c.1.1) * f.n + c.1.2) c.2.1
        (w.1.wrEl o.out c.1.2 c.1.1 i2 i3 r.1, w.2 ||| c.2.2 ||| r.2)) (s.1, s.2.1)
      (w.1, w.2, s.2.2 ++ chk)) s) s) (d, 0, [])

/-- Failed and skipped checks are counted; a failed one is reported and sets SCRUPLE_FAIL (R334, R337). DEDUCED: log entry 101. -/
def Dev.scruple (d : Dev) (id phys addr : Nat) (chk : List Nat) : Dev :=
  chk.foldl (fun d c =>
    if c = 1 then
      Dev.raise ((d.addSat F.SAF_SCR_MISMATCH.COUNT 1).modRun id (fun r => { r with
        scrFail := true, scrUnits := insNat r.scrUnits phys })) 0x040 phys addr 5
    else if c = 2 then d.addSat F.SAF_SCR_SKIPPED.COUNT 1 else d) d

/-- MATMUL at issue. -/
def Dev.matmul (d : Dev) (id g t : Nat) : Dev :=
  match d.curOp id g 0 0 with
  | none => d
  | some c =>
    if c.stalls qArray then d else
    let d := d.at_ t
    let f := c.mmF
    match d.mmOps c g f with
    | .error s => d.endOwn id (firstStatus (s :: d.mmChecks c f))
    | .ok o =>
      match firstStatus (d.mmChecks c f ++ mmPlaced o ++ mmUnaligned c o) with
      | 0 => d.enqueue id g c qArray (some (mmTime f o))
          ([(0, o.a.region), (1, o.b.region), (2, o.out.region)] ++ o.c.toList.map (fun x => (3, x.region)))
      | s => d.endOwn id s
def execMatmul (run g t : Nat) (s : State) : Res := .next (s.upd (fun d => d.matmul run g t))

/-- The bytes of the parameter block, where the MM uses it. -/
def Dev.mmBlock (d : Dev) (c : Cur) (f : MmF) (o : MmOp) : List Nat := if mmReadsPar f o.out.t.dtype then d.mmPar c f else []
/-- MATMUL as it runs: the parameter block is read when it starts (R206). -/
def Dev.mmDo (d : Dev) (g : Nat) (c : Cur) (ups : List Upset) : Done :=
  let f := c.mmF
  match d.mmOps c g f with
  | .error _ => Done.idle d
  | .ok o =>
    let r := d.mmRun g c.oct f o (d.mmBlock c f o) ups
    let par := match c.r.physOf c.m.k c.m.e with
      | some p => if mmReadsPar f o.out.t.dtype then
          [(⟨false, (Place.mk p (f.par * 64)).key, (Place.mk p (f.par * 64)).key + 64⟩ : Extent)] else []
      | none => []
    { Done.idle r.1 with
        flags := r.2.1, chk := r.2.2,
        touched := [o.a.keys, o.b.keys, o.out.keys] ++ (o.c.toList ++ o.v0.toList ++ o.v1.toList).map Acc2.keys ++ par }

end Sys2Proof.Machine
end

