-- ==== Sys2Proof/Machine/Module.lean ====
section
/-!
DEFINITION. Modules: the checks of a load, measurement, signature and translation (R198, R216 to R222, R490, R492, R493), and the tensor
descriptor table (R159, R160).
-/
namespace Sys2Proof.Machine

/-! ## Descriptor entries (Table 4 of R159, R160, R198) -/

/-- The failing items of an entry at byte offset `o`, as category and byte offset. `opnd` says that it is an operand table entry (R198),
which is checked in full whatever VALID says; a table entry with VALID 0 is checked only for reserved fields (R160). DEDUCED: log entry 93.
A BLOCK_LOG2 of SPACE 2 outside 16 to 30 is BOUNDS. DESIGN CHOICE: log entry 205. -/
def descFails (b : List Nat) (o : Nat) (opnd : Bool) : List (Nat × Nat) :=
  let v := leNat b
  let rv := resvIn v o
  let sp := bits v 73 72
  let dt := bits v 67 64
  let lay := bits v 70 68
  let two := sp == 2 && !opnd
  (if sp = 0 then rv 63 32 else []) ++ rv 71 71 ++ rv 79 75 ++ (if opnd then rv 87 80 else []) ++ rv 95 89 ++
  (if two then [] else rv 103 96) ++ rv 127 104 ++ (if sp = 2 then [] else rv 479 448) ++ rv 511 480 ++
  (if !opnd && !bitOf v 88 then [] else
    failIf (9 < dt || 3 < lay || !layoutAdmits lay dt) catFormat (o + 8) ++ failIf (sp == 3 || (sp == 2 && opnd)) catFormat (o + 9) ++
    failIf (lay != 0 && bits v 319 256 != 0) catFormat (o + 32) ++
    failIf (!bitOf v 88) catZero (o + 11) ++
    [0, 1, 2, 3].flatMap (fun k => failIf (bits v (159 + 32 * k) (128 + 32 * k) = 0) catZero (o + 16 + 4 * k)) ++
    (if two then
      failIf (bits v 103 96 = 0) catZero (o + 12) ++ failIf (bits v 479 448 = 0) catZero (o + 56) ++
      failIf (0 < bits v 103 96 ∧ (bits v 103 96 < 16 ∨ 30 < bits v 103 96)) catBounds (o + 12)
     else []) ++
    failIf (bits v 63 0 % 64 != 0) catAlign o)

/-- The item that a load or a TDT_WRITE reports: the first category in order, and in it the lowest byte offset (R160, R219). DEDUCED: log entry 89. -/
def firstFail (l : List (Nat × Nat)) : Option (Nat × Nat) :=
  l.foldl (fun a p => match a with
    | none => some p
    | some q => if p.1 < q.1 || (p.1 == q.1 && p.2 < q.2) then some p else some q) none

/-! ## The container (Tables 8 and 9) -/

/-- An entry as the container spells it. -/
def entryOf (b : List Nat) : Entry :=
  { first := bfield b 0 4, words := bfield b 4 4, gangSize := b.getD 8 0 % 32, region := bitOf (b.getD 8 0) 7, pcCount := b.getD 9 0,
    argWords := b.getD 10 0, hasWcet := bitOf (b.getD 11 0) 0, wcetAc := bfield b 12 4, wcetNs := bfield b 16 4, prepEntry := bfield b 20 4 }
/-- The fields of the header. -/
structure ModHdr where
  handle : Bool
  entries : Nat
  words : Nat
  operands : Nat
  prep : Nat
  rate0 : Nat
  rate1 : Nat
  native : Nat
  entryOfs : Nat
  codeOfs : Nat
  operandOfs : Nat
  prepOfs : Nat
  sigOfs : Nat
  deriving DecidableEq, Repr
def hdrOf (b : List Nat) : ModHdr :=
  { handle := bitOf (b.getD 6 0) 0, entries := bfield b 8 2, words := bfield b 12 4, operands := bfield b 16 4, prep := bfield b 20 4,
    rate0 := bfield b 24 2, rate1 := bfield b 26 2, native := bfield b 32 8, entryOfs := bfield b 44 4, codeOfs := bfield b 48 4,
    operandOfs := bfield b 52 4, prepOfs := bfield b 56 4, sigOfs := bfield b 60 4 }
/-- Are the counts within the ranges of Table 8, so that the sections have a size? DEDUCED: log entry 90. -/
def ModHdr.sized (h : ModHdr) : Bool :=
  decide (h.entries ≤ 4096) && decide (h.words ≤ 2 ^ 24) && decide (h.operands ≤ 65536) && decide (h.prep ≤ 131072)
/-- The sections that are present: the byte of their offset field, their offset and their length. -/
def ModHdr.sections (h : ModHdr) : List (Nat × Nat × Nat) :=
  [(44, h.entryOfs, 32 * h.entries), (48, h.codeOfs, 16 * h.words)] ++
  (if h.operands = 0 then [] else [(52, h.operandOfs, 64 * h.operands)]) ++ (if h.prep = 0 then [] else [(56, h.prepOfs, h.prep)]) ++
  (if h.sigOfs = 0 then [] else [(60, h.sigOfs, 1024)])
/-- NATIVE_SIZE (R220). DEDUCED: log entry 95. -/
def ModHdr.nativeSize (h : ModHdr) : Nat := ceilDiv (32 * h.words + 65536) 65536 * 65536
/-- How many of `count` items of `size` bytes from offset `o` on lie wholly inside a container of `len` bytes. -/
def fitting (len o size count : Nat) : Nat := Nat.min count ((len - o) / size)
/-- The first `n` code words of a container. -/
def codeOf (b : List Nat) (h : ModHdr) (n : Nat) : List Nat := (List.range n).map (fun i => bfield b (h.codeOfs + 16 * i) 16)
/-- Do two ranges of bytes share a byte? -/
def meets (a n b m : Nat) : Bool := decide (a < b + m) && decide (b < a + n)

/-- Does the section whose offset field is at byte `o` lie within the container of `len` bytes, clear of the header and the others? -/
def ModHdr.placed (h : ModHdr) (len o : Nat) : Bool :=
  h.sized && h.sections.any (fun s => s.1 == o && decide (s.2.1 + s.2.2 ≤ len) && decide (128 ≤ s.2.1) &&
    h.sections.all (fun q => q.1 == o || !meets s.2.1 s.2.2 q.2.1 q.2.2))

/-- The failing items of the header (R216, R219, R220) for a load by partition `f`, whose HBM range at the validation was `rng` (R146), of the container of `len` bytes at `src`.
DEDUCED: log entry 90. -/
def Dev.hdrFails (d : Dev) (f : Nat) (rng : Nat × Nat) (src len : Nat) (b : List Nat) : List (Nat × Nat) :=
  let v := leNat (b.take 128)
  let h := hdrOf b
  let rv := resvIn v 0
  let secs := h.sections
  let rateBad := fun (s r : Nat) => d.live (F.MEM_RSV.RATE f s) < r || d.pend (F.MEM_RSV.RATE f s) < r
  rv 63 49 ++ rv 95 80 ++ rv 255 224 ++ rv 1023 512 ++
  failIf (bfield b 0 4 != 0x4E545253) catFormat 0 ++ failIf (bfield b 4 2 != 1) catFormat 4 ++ failIf (bfield b 40 4 != len) catFormat 40 ++
  failIf (h.entries = 0) catZero 8 ++ failIf (h.words = 0) catZero 12 ++ failIf (h.handle && !d.full) catAbsent 6 ++
  failIf (4096 < h.entries) catBounds 8 ++ failIf (2 ^ 24 < h.words) catBounds 12 ++
  failIf ((if h.handle then 0 else 65536) < h.operands) catBounds 16 ++ failIf (131072 < h.prep) catBounds 20 ++
  failIf (rateBad 0 h.rate0) catBounds 24 ++ failIf (if d.nStacks = 1 then h.rate1 != 0 else rateBad 1 h.rate1) catBounds 26 ++
  failIf (h.operands == 0 && h.operandOfs != 0) catBounds 52 ++ failIf (h.prep == 0 && h.prepOfs != 0) catBounds 56 ++
  secs.flatMap (fun s => failIf (s.2.1 % 64 != 0) catAlign s.1) ++
  (if h.sized then secs.flatMap (fun s => failIf (!h.placed len s.1) catBounds s.1) else []) ++
  failIf (4096 ≤ d.mods.length) catBounds 0 ++
  failIf (h.sigOfs == 0 && maskHas (d.f F.SEC_SIGREQ.REQ) f) catBounds 60 ++
  failIf (h.native % 65536 != 0) catAlign 32 ++
  failIf (!inRange rng h.native h.nativeSize || meets h.native h.nativeSize src len ||
    d.mods.any (fun m => meets h.native h.nativeSize m.2.nativeAddr m.2.nativeSize)) catBounds 32

/-- The failing items of an entry (Table 9, R215, R217, R218), with the instructions of the code section; its first `n` words can be read. -/
def entryFails (b : List Nat) (o codeOfs words n : Nat) (is : List Ins) : List (Nat × Nat) :=
  let v := leNat b
  let e := entryOf b
  let rv := resvIn v o
  rv 70 69 ++ rv 95 89 ++ rv 255 192 ++
  failIf (e.words = 0) catZero (o + 4) ++ failIf (e.gangSize = 0) catZero (o + 8) ++
  failIf ((if e.region then 16 else 4) < e.gangSize) catBounds (o + 8) ++ failIf ((if e.region then 8 else 2) < e.pcCount) catBounds (o + 9) ++
  failIf (64 < e.argWords) catBounds (o + 10) ++
  (if e.words = 0 then [] else
   if words < e.first + e.words || (decide (e.first < n) && !is.any (fun i => i.idx == e.first)) then [(catFormat, o)] else
   if n < e.first + e.words then [] else
    entryShape codeOfs e.argWords (is.filter (fun i => e.first ≤ i.idx ∧ i.idx < e.first + e.words)) [])

/-- The failing items of the sections, of every item that lies inside the container (R219). DEDUCED: log entry 89. -/
def Dev.bodyFails (d : Dev) (len : Nat) (b : List Nat) (h : ModHdr) : List (Nat × Nat) :=
  let n := fitting len h.codeOfs 16 h.words
  let is := insFrom (codeOf b h n) n n 0
  (List.range (fitting len h.operandOfs 64 h.operands)).flatMap (fun i =>
    descFails ((b.drop (h.operandOfs + 64 * i)).take 64) (h.operandOfs + 64 * i) true) ++
  is.flatMap (fun i => if n < i.idx + 1 + iExt i.w ∧ i.idx + 1 + iExt i.w ≤ h.words then [] else
    failIf (h.words < i.idx + 1 + iExt i.w) catFormat (h.codeOfs + 16 * i.idx + 1) ++ i.check h.codeOfs (!h.handle) h.operands d.full) ++
  (List.range (fitting len h.entryOfs 32 h.entries)).flatMap (fun i =>
    entryFails ((b.drop (h.entryOfs + 32 * i)).take 32) (h.entryOfs + 32 * i) h.codeOfs h.words n is)

/-- The item that a load reports, if one fails. DEDUCED: log entry 89. -/
def Dev.loadFail (d : Dev) (f : Nat) (rng : Nat × Nat) (src len : Nat) (b : List Nat) : Option (Nat × Nat) :=
  firstFail (d.hdrFails f rng src len b ++ d.bodyFails len b (hdrOf b))

/-- The lowest identifier from 1 to 65,535 that names no module (R221). -/
def freeId (l : List (Nat × Module)) : Nat → Nat → Nat
  | 0, k => k
  | n + 1, k => if (mfind l k).isSome then freeId l n (k + 1) else k

/-- The module that a container becomes. DEDUCED: log entry 95. -/
def moduleOf (f : Nat) (b : List Nat) : Module :=
  let h := hdrOf b
  let z := b.take 32 ++ List.replicate 8 0 ++ b.drop 40
  { part := f, handle := h.handle,
    entries := (List.range h.entries).map (fun i => entryOf ((b.drop (h.entryOfs + 32 * i)).take 32)),
    code := codeOf b h h.words,
    operands := (List.range h.operands).map (fun i => descOf ((b.drop (h.operandOfs + 64 * i)).take 64) f),
    prep := (b.drop h.prepOfs).take h.prep, rate0 := h.rate0, rate1 := h.rate1, nativeAddr := h.native, nativeSize := h.nativeSize,
    digest := sha256 z, signed := h.sigOfs != 0, slot := if h.sigOfs = 0 then 0 else b.getD (h.sigOfs + 4) 0, unloading := false }

/-- The translation of a container that has passed (R219, R220): the module has its identifier, and what its native image holds is not
stated. -/
def Dev.translate (d : Dev) (key f : Nat) (b : List Nat) : Dev :=
  let m := moduleOf f b
  let id := freeId d.mods 65535 1
  let d := { d with mods := mset d.mods id m,
                    mem := { d.mem with hbm := d.mem.hbm.forget m.nativeAddr (m.nativeAddr + m.nativeSize) d.fresh } }
  let d := d.take.setPoison (d.mem.poison.filter (fun g => !(decide (m.nativeAddr ≤ g) && decide (g < m.nativeAddr + m.nativeSize))))
  d.complete key stOk id 0 0
/-- A load of the container of `len` bytes at `src`: the checks, then the signature (R492), then the translation. -/
def Dev.loadAt (d : Dev) (key src len : Nat) : Dev :=
  let f := key / 4096
  match d.poisonIn src len with
  | g :: _ => d.hubUe key g accFetch
  | [] =>
    let b := d.rdHbm src len
    match d.loadFail f (d.headRange key) src len b with
    | some p => d.complete key (catStatus p.1) p.2 0 0
    | none =>
      let so := (hdrOf b).sigOfs
      if so ≠ 0 ∧ ¬ d.moduleSigOk (b.take 32 ++ List.replicate 8 0 ++ b.drop 40) so then d.complete key stFormat so 0 0
      else d.translate key f b
/-- MODULE_LOAD (R219). -/
def Dev.moduleLoad (d : Dev) (key : Nat) (mem : List MemErr) : Dev :=
  match d.headOp key 5 with
  | none => d
  | some c =>
    let src := bfield c 16 8
    let len := bfield c 24 4
    d.met accFetch [(src, len)] mem (fun d => d.loadAt key src len)
def execModuleLoad (fn ctx : Nat) (mem : List MemErr) (s : State) : Res := .next (s.upd (fun d => d.moduleLoad (ckey fn ctx) mem))

/-- MODULE_UNLOAD (R222): from its dispatch on the module admits no new dispatch. A module that another unload has taken since the
fetch, or that a bank names since, is BOUNDS (R114). DEDUCED: log entry 82. -/
def Dev.moduleUnload (d : Dev) (key : Nat) : Dev :=
  match d.headOp key 6 with
  | none => d
  | some c =>
    let id := bfield c 16 2
    if (d.modOf (key / 4096) id).isNone || d.modInBank id then d.complete key stBounds 0 0 0 else
    Dev.setHead { d with mods := mmod d.mods id (fun m => { m with unloading := true }) } key (.unloading id)
def execModuleUnload (fn ctx : Nat) (s : State) : Res := .next (s.upd (fun d => d.moduleUnload (ckey fn ctx)))

/-- UNLOAD_COMPLETE (R222): no command of the module runs any more. DEDUCED: log entry 82. -/
def Dev.unloadComplete (d : Dev) (key : Nat) : Dev :=
  match d.head key with
  | none => d
  | some k =>
    match k.st with
    | .unloading id =>
      if d.runs.any (fun p => p.2.modId == id && p.2.dispatched) then d else
      Dev.complete { d with mods := merase d.mods id } key stOk 0 0 0
    | _ => d
def execUnloadComplete (fn ctx : Nat) (s : State) : Res := .next (s.upd (fun d => d.unloadComplete (ckey fn ctx)))

/-- The `n` entries at `src` become entries `first` and following of partition `f`'s table (R160): every entry passes and all become visible
together, or none is written; the first entry that fails gives the status. DEDUCED: log entry 93. -/
def Dev.tdtStore (d : Dev) (key first n src : Nat) : Dev :=
  let f := key / 4096
  match d.poisonIn src (64 * n) with
  | g :: _ => d.hubUe key g accFetch
  | [] =>
    let bs := (List.range n).map (fun i => d.rdHbm (src + 64 * i) 64)
    let foreign := fun (i : Nat) => bitOf ((bs.getD i []).getD 11 0) 0 && (match mfind d.tdt (first + i) with
      | some t => t.valid && t.part != f
      | none => false)
    match (List.range n).findSome? (fun i => firstFail (descFails (bs.getD i []) 0 false ++ failIf (foreign i) catBounds 0)) with
    | some p => d.complete key (catStatus p.1) 0 0 0
    | none => Dev.complete { d with tdt := (List.range n).foldl (fun m i => mset m (first + i) (descOf (bs.getD i []) f)) d.tdt } key stOk 0 0 0
/-- TDT_WRITE. -/
def Dev.tdtWrite (d : Dev) (key : Nat) (mem : List MemErr) : Dev :=
  match d.headOp key 7 with
  | none => d
  | some c =>
    let n := bfield c 20 4
    let src := bfield c 24 8
    if n = 0 then d.complete key stOk 0 0 0 else
    d.met accFetch [(src, 64 * n)] mem (fun d => d.tdtStore key (bfield c 16 2) n src)
def execTdtWrite (fn ctx : Nat) (mem : List MemErr) (s : State) : Res := .next (s.upd (fun d => d.tdtWrite (ckey fn ctx) mem))

/-! ## The image of an update (R494) -/

/-- The copy into the staging area. One that meets an uncorrectable granule ends with FAILED, for a reason that is not stated: a free value.
DEDUCED: log entry 159. -/
def Dev.stageImage (d : Dev) (src len : Nat) : Dev :=
  match d.poisonIn src len with
  | g :: _ => ((d.hbmUeAt g accRead).take.updState 0).updFail (1 + Config.freeNat d.fresh 0 % 31)
  | [] => Dev.set (Dev.updState { d with sec := { d.sec with staging := d.rdHbm src len } } 1) F.SEC_UPD_CTRL.BUSY 1
/-- VERIFY: SEC_UPD_LEN bytes are copied into the staging area. DEDUCED: log entry 159. -/
def Dev.verify (d : Dev) (mem : List MemErr) : Dev :=
  d.updCmd [0, 2, 4, 6] (fun d =>
    let src := d.f F.SEC_UPD_SRC.ADDR
    let len := d.f F.SEC_UPD_LEN.LENGTH
    d.met accRead [(src, len)] mem (fun d => d.stageImage src len))
def execVerify (mem : List MemErr) (s : State) : Res := .next (s.upd (fun d => d.verify mem))

end Sys2Proof.Machine
end

