-- ==== Sys2Proof/Machine/Mv.lean ====
section
/-!
DEFINITION. The MV instructions (R209, R210): MOVE and PUBLISH.
-/
namespace Sys2Proof.Machine

/-- DTYPE and LAYOUT equal, otherwise FORMAT; dimensions equal, otherwise BOUNDS (R209). -/
def mvEqual (c : Cur) : List Nat :=
  stIf ((c.desc 0).dtype != (c.desc 1).dtype || (c.desc 0).layout != (c.desc 1).layout) stFormat ++
  stIf (!(c.desc 0).sameDims (c.desc 1)) stBounds

/-- The source of a MOVE: on chip, or runs in local HBM. -/
inductive MvSrc where
  | chip (a : Acc2)
  | hbm (o : Operand) (l : List (List (Nat × Nat)))
  deriving DecidableEq, Repr

/-- The source of a MOVE, located. A Span window, the roster window, a place beyond HBM, and a block of an owner table that belongs to
another package are BOUNDS (R31, R129, R165, R209). DEDUCED: log entry 97. -/
def Dev.mvSrc (d : Dev) (c : Cur) (g : Nat) : Except Nat MvSrc :=
  match c.form g 0 with
  | .error s => .error s
  | .ok o =>
    if o.desc.space = 0 then (d.locate c o false stBounds).map .chip
    else match d.hbmRuns c.r o with
      | none => .error stBounds
      | some l => .ok (.hbm o l)
/-- R157 for the source of a MOVE. -/
def mvUnaligned (c : Cur) : MvSrc → List Nat
  | .chip a => a.unaligned 64 (c.gstride 0)
  | .hbm o _ => stIf (!devAligned o (c.gstride 0)) stAlign
/-- Do source and destination share a byte? -/
def mvOverlap (o : Acc2) : MvSrc → Bool
  | .chip a => o.overlaps a
  | .hbm _ _ => false

/-- The bytes of the runs of the source. -/
def Dev.mvBytes (d : Dev) : MvSrc → List (List Nat)
  | .chip a => a.t.segs.map (fun s => d.mem.sram.readBytes (a.pl.key + s.1) s.2)
  | .hbm _ l => l.map (fun ps => ps.flatMap (fun x => d.rdHbm x.1 x.2))

/-- Write the runs of an operand on chip. -/
def Dev.wrRuns (d : Dev) (a : Acc2) (l : List (List Nat)) : Dev :=
  (a.t.segs.zip l).foldl (fun d q =>
    { d with mem := { d.mem with sram := d.mem.sram.writeBytes (a.pl.key + q.1.1) (runBytes a.t q.2) } }) d

/-- T of R209 on chip; a MOVE from HBM has no fixed duration: R145 bounds it. -/
def mvTime (c : Cur) (o : Acc2) : MvSrc → Option Nat
  | .chip a =>
    let ls := engLat c.m.home a.pl
    some (ls.1 + (o.t.accesses 64 - 1) * Nat.max ls.2 (engLat c.m.home o.pl).2)
  | .hbm _ _ => none
/-- The region that a selector of slot 0 declares, and what the source touches. -/
def MvSrc.region : MvSrc → Extent
  | .chip a => a.region
  | .hbm o _ => ⟨true, o.base, o.base + o.desc.extent⟩
def MvSrc.touched : MvSrc → List Extent
  | .chip a => [a.keys]
  | .hbm _ l => l.flatMap (fun ps => ps.map (fun x => ⟨true, x.1, x.1 + x.2⟩))

/-- MOVE at issue. -/
def Dev.mvMove (d : Dev) (id g t : Nat) : Dev :=
  match d.curOp id g 2 0 with
  | none => d
  | some c =>
    if c.stalls qMove then d else
    let d := d.at_ t
    match d.mvSrc c g, d.opd c g 1 true stBounds with
    | .ok s, .ok o =>
      (match firstStatus (mvEqual c ++ stIf (mvOverlap o s) stBounds ++ mvUnaligned c s ++ o.unaligned 64 (c.gstride 1)) with
      | 0 => d.enqueue id g c qMove (mvTime c o s) [(0, s.region), (1, o.region)]
      | st => d.endOwn id st)
    | s, o => d.endOwn id (firstStatus (mvEqual c ++ exStatus s ++ exStatus o))
/-- MOVE (R209). -/
def execMvMove (run g t : Nat) (s : State) : Res := .next (s.upd (fun d => d.mvMove run g t))
/-- MOVE as it runs. -/
def Dev.mvDo (d : Dev) (g : Nat) (c : Cur) : Done :=
  match d.mvSrc c g, d.opd c g 1 true stBounds with
  | .ok s, .ok o => { Done.idle (d.wrRuns o (d.mvBytes s)) with touched := s.touched ++ [o.keys], wrote := [o.keys] }
  | _, _ => Done.idle d

/-- The destination of a PUBLISH, located. DEDUCED: log entry 169. -/
def Dev.pubDst (d : Dev) (c : Cur) (g : Nat) : Except Nat Operand :=
  match c.formIn g 1 (fun s => s != 0) stFormat with
  | .error s => .error s
  | .ok o =>
    if (d.allDests c.r o).isNone || o.desc.readonly || !o.desc.writable then .error stBounds
    else .ok o

/-- The limits of the commit list with one more piece: 64 PUBLISHes, the bound of R246, and 16 MiB of source bytes for a safety-class
command (R345). -/
def Dev.pubLimits (d : Dev) (r : Run) (p : Piece) : List Nat :=
  let l := r.pieces ++ [p]
  let hit := match d.commitBound r.part (l.flatMap (d.pieceDests r)) with
    | none => true
    | some b => decide ((20000 : Rat) < b)
  stIf (64 < l.length || hit || (r.safety && 0x1000000 < sumNat (l.map (fun q => q.src.desc.bytes)))) stBounds

/-- PUBLISH at issue: the pair joins the commit list. DEDUCED: log entry 169. -/
def Dev.mvPublish (d : Dev) (id g t : Nat) : Dev :=
  match d.curOp id g 2 1 with
  | none => d
  | some c =>
    let d := d.at_ t
    match c.form g 0, d.opd c g 0 false stFormat, d.pubDst c g with
    | .ok o, .ok a, .ok q =>
      let p : Piece := ⟨g, o, q⟩
      (match firstStatus (mvEqual c ++ d.pubLimits c.r p ++ a.unaligned 64 (c.gstride 0) ++ stIf (!devAligned q (c.gstride 1)) stAlign) with
      | 0 => (d.modRun id (fun r => { r with pieces := r.pieces ++ [p] })).advance id g c.i
      | st => d.endOwn id st)
    | _, s, q => d.endOwn id (firstStatus (mvEqual c ++ exStatus s ++ exStatus q))
/-- PUBLISH (R210). -/
def execMvPublish (run g t : Nat) (s : State) : Res := .next (s.upd (fun d => d.mvPublish run g t))

end Sys2Proof.Machine
end

