-- ==== Sys2Proof/Machine/Jpeg.lean ====
section
/-!
DEFINITION. The JPEG baseline decoder of the replay unit (R453, R454), on byte strings: markers and tables, the scan, Huffman decoding, the
exact inverse DCT, and the pixels. `none` stands for a stream that the decoder does not accept (FORMAT).
-/
namespace Sys2Proof.Machine

/-! ## Headers -/

/-- A Huffman table: code length, code and value, shortest first. -/
abbrev Huff := List (Nat × Nat × Nat)
/-- A component of the frame: identifier, sampling factors and quantisation table. -/
structure JComp where
  id : Nat
  h : Nat
  v : Nat
  tq : Nat
  deriving DecidableEq, Repr
/-- What the segments before the scan say; `scan` lists the DC and AC table of each component. -/
structure JHead where
  dqt : List (Nat × List Nat)
  dht : List (Nat × Huff)
  ri : Nat
  w : Nat
  h : Nat
  comps : List JComp
  scan : List (Nat × Nat)
  deriving DecidableEq, Repr

/-- The next marker: fill bytes may precede it. -/
def jMarker : List Nat → Option (Nat × List Nat)
  | 0xFF :: l =>
    match l.dropWhile (fun b => b == 0xFF) with
    | [] => none
    | m :: l => if m = 0 then none else some (m, l)
  | _ => none
/-- A segment: its bytes after the length, and the rest. -/
def jSegment (l : List Nat) : Option (List Nat × List Nat) :=
  let n := beNat (l.take 2)
  if l.length < 2 ∨ n < 2 ∨ l.length < n then none else some ((l.drop 2).take (n - 2), l.drop n)

/-- The quantisation tables of a DQT segment: 8-bit only. PRESUMED: log entry 149. -/
def jDqt : Nat → List Nat → List (Nat × List Nat) → Option (List (Nat × List Nat))
  | 0, _, _ => none
  | _ + 1, [], t => some t
  | n + 1, b :: l, t => if 16 ≤ b ∨ 4 ≤ b ∨ l.length < 64 then none else jDqt n (l.drop 64) (mset t b (l.take 64))
/-- The codes that the counts of each length assign to the values, in order. -/
def jCodes : List Nat → Nat → Nat → List Nat → Huff
  | [], _, _, _ => []
  | c :: cs, len, code, vals => (List.range c).map (fun i => (len, code + i, vals.getD i 0)) ++ jCodes cs (len + 1) (2 * (code + c)) (vals.drop c)
/-- The Huffman tables of a DHT segment, keyed by class × 4 + destination. -/
def jDht : Nat → List Nat → List (Nat × Huff) → Option (List (Nat × Huff))
  | 0, _, _ => none
  | _ + 1, [], t => some t
  | n + 1, b :: l, t =>
    let cnt := l.take 16
    let total := sumNat cnt
    if 2 ≤ b / 16 ∨ 2 ≤ b % 16 ∨ l.length < 16 + total then none
    else jDht n (l.drop (16 + total)) (mset t (b / 16 * 4 + b % 16) (jCodes cnt 1 0 ((l.drop 16).take total)))
/-- The frame header SOF0. -/
def jSof (s : List Nat) (h : JHead) : Option JHead :=
  let n := s.getD 5 0
  let comps := (List.range n).map (fun i => (⟨s.getD (6 + 3 * i) 0, s.getD (7 + 3 * i) 0 / 16, s.getD (7 + 3 * i) 0 % 16, s.getD (8 + 3 * i) 0⟩ : JComp))
  let y := beNat ((s.drop 1).take 2)
  let x := beNat ((s.drop 3).take 2)
  let shape := match comps with
    | [a] => decide (1 ≤ a.h ∧ a.h ≤ 4 ∧ 1 ≤ a.v ∧ a.v ≤ 4)
    | [a, b, c] => decide ((a.h = 1 ∨ a.h = 2) ∧ (a.v = 1 ∨ a.v = 2) ∧ b.h = 1 ∧ b.v = 1 ∧ c.h = 1 ∧ c.v = 1)
    | _ => false
  if s.length ≠ 6 + 3 * n ∨ s.getD 0 0 ≠ 8 ∨ y = 0 ∨ x = 0 ∨ h.comps ≠ [] ∨ shape = false then none
  else some { h with w := x, h := y, comps := comps }
/-- The scan header: every component of the frame, in its order, with the spectral parameters of a baseline scan, which has two tables of
each class. -/
def jSos (s : List Nat) (h : JHead) : Option JHead :=
  let n := s.getD 0 0
  let ids := (List.range n).map (fun i => s.getD (1 + 2 * i) 0)
  let tabs := (List.range n).map (fun i => (s.getD (2 + 2 * i) 0 / 16, s.getD (2 + 2 * i) 0 % 16))
  if s.length ≠ 4 + 2 * n ∨ h.comps = [] ∨ ids ≠ h.comps.map JComp.id ∨ s.drop (1 + 2 * n) ≠ [0, 63, 0] then none
  else if !(tabs.all (fun t => decide (t.1 < 2) && decide (t.2 < 2) && (mfind h.dht t.1).isSome && (mfind h.dht (4 + t.2)).isSome)) ||
      !(h.comps.all (fun c => (mfind h.dqt c.tq).isSome)) then none
  else some { h with scan := tabs }
/-- The segments up to and including the scan header, and the bytes that follow. -/
def jHeaders : Nat → JHead → List Nat → Option (JHead × List Nat)
  | 0, _, _ => none
  | n + 1, h, l =>
    match jMarker l with
    | none => none
    | some (m, l) =>
      match jSegment l with
      | none => none
      | some (s, r) =>
        if m = 0xDB then (jDqt (s.length + 1) s h.dqt).bind (fun t => jHeaders n { h with dqt := t } r)
        else if m = 0xC4 then (jDht (s.length + 1) s h.dht).bind (fun t => jHeaders n { h with dht := t } r)
        else if m = 0xC0 then (jSof s h).bind (fun h => jHeaders n h r)
        else if m = 0xDD then (if s.length = 2 then jHeaders n { h with ri := beNat s } r else none)
        else if m = 0xFE ∨ (0xE0 ≤ m ∧ m ≤ 0xEF) then jHeaders n h r
        else if m = 0xDA then (jSos s h).map (fun h => (h, r))
        else none

/-- The scan up to EOI: its segments between restart markers, without stuffed zeros, the restart numbers, and the count of scan bytes (R456). -/
def jScan : Nat → List Nat → List Nat → Nat → List (List Nat) → List Nat → Option (List (List Nat) × List Nat × Nat)
  | 0, _, _, _, _, _ => none
  | n + 1, l, acc, cnt, segs, rsts =>
    match l with
    | [] => none
    | b :: l =>
      if b ≠ 0xFF then jScan n l (b :: acc) (cnt + 1) segs rsts else
      match l with
      | [] => none
      | m :: l' =>
        if m = 0 then jScan n l' (0xFF :: acc) (cnt + 1) segs rsts
        else if m = 0xFF then jScan n l acc (cnt + 1) segs rsts
        else if m = 0xD9 then some ((acc.reverse :: segs).reverse, rsts.reverse, cnt)
        else if 0xD0 ≤ m ∧ m ≤ 0xD7 then jScan n l' [] cnt (acc.reverse :: segs) ((m - 0xD0) :: rsts)
        else none

/-- A stream whose headers and markers are accepted. -/
structure JStream where
  head : JHead
  segs : List (List Nat)
  rsts : List Nat
  bytes : Nat
  deriving DecidableEq, Repr
/-- PRESUMED: log entry 149. -/
def jpegRead (l : List Nat) : Option JStream :=
  match l with
  | 0xFF :: 0xD8 :: l =>
    match jHeaders l.length ⟨[], [], 0, 0, 0, [], []⟩ l with
    | none => none
    | some (h, r) => (jScan (r.length + 1) r [] 0 [] []).map (fun x => ⟨h, x.1, x.2.1, x.2.2⟩)
  | _ => none

/-! ## The geometry -/

def JHead.hMax (h : JHead) : Nat := (h.comps.map JComp.h).foldl Nat.max 1
def JHead.vMax (h : JHead) : Nat := (h.comps.map JComp.v).foldl Nat.max 1
/-- The blocks of the plausibility bound (R456). -/
def JHead.blocks (h : JHead) : Nat :=
  ceilDiv h.w (8 * h.hMax) * ceilDiv h.h (8 * h.vMax) * sumNat (h.comps.map (fun c => c.h * c.v))
/-- The components as the scan codes them: a scan of one component has one block in each MCU. -/
def JHead.coded (h : JHead) : List JComp :=
  match h.comps with
  | [c] => [{ c with h := 1, v := 1 }]
  | l => l
def JHead.mcuX (h : JHead) : Nat := if h.comps.length = 1 then ceilDiv h.w 8 else ceilDiv h.w (8 * h.hMax)
def JHead.mcuY (h : JHead) : Nat := if h.comps.length = 1 then ceilDiv h.h 8 else ceilDiv h.h (8 * h.vMax)

/-! ## Entropy decoding -/

/-- The bits of a byte string, most significant first. -/
def jBits (l : List Nat) : List Bool := l.flatMap (fun b => (List.range 8).map (fun i => b.testBit (7 - i)))
/-- One Huffman value. -/
def jHuff (t : Huff) : Nat → Nat → Nat → List Bool → Option (Nat × List Bool)
  | 0, _, _, _ => none
  | _ + 1, _, _, [] => none
  | n + 1, len, code, b :: l =>
    let code := 2 * code + b2n b
    match t.find? (fun x => x.1 == len + 1 && x.2.1 == code) with
    | some x => some (x.2.2, l)
    | none => jHuff t n (len + 1) code l
/-- `s` further bits as the signed value that they stand for. -/
def jExtend (s : Nat) (l : List Bool) : Option (Int × List Bool) :=
  if l.length < s then none else
  let v := (l.take s).foldl (fun a b => 2 * a + b2n b) 0
  some (if s = 0 then 0 else if 2 ^ (s - 1) ≤ v then (v : Int) else (v : Int) - (2 ^ s : Nat) + 1, l.drop s)
/-- The AC coefficients from position `k` on, in zigzag order. -/
def jAc (t : Huff) : Nat → Nat → List Bool → List Int → Option (List Int × List Bool)
  | 0, _, _, _ => none
  | n + 1, k, l, acc =>
    if 64 ≤ k then some (acc, l) else
    match jHuff t 16 0 0 l with
    | none => none
    | some (rs, l) =>
      let r := rs / 16
      let s := rs % 16
      if rs = 0 then some (acc ++ List.replicate (64 - k) 0, l)
      else if rs = 0xF0 then (if 64 < k + 16 then none else jAc t n (k + 16) l (acc ++ List.replicate 16 0))
      else if s = 0 ∨ 10 < s ∨ 64 ≤ k + r then none
      else
        match jExtend s l with
        | none => none
        | some (v, l) => jAc t n (k + r + 1) l (acc ++ List.replicate r 0 ++ [v])
/-- One block in zigzag order, from the DC prediction. -/
def jBlock (dc ac : Huff) (pred : Int) (l : List Bool) : Option (List Int × List Bool) :=
  match jHuff dc 16 0 0 l with
  | none => none
  | some (s, l) =>
    if 11 < s then none else
    match jExtend s l with
    | none => none
    | some (v, l) => jAc ac 64 1 l [pred + v]

/-- Position in the zigzag order of row `v`, column `u`. -/
def zigzag : List Nat :=
  [0, 1, 5, 6, 14, 15, 27, 28, 2, 4, 7, 13, 16, 26, 29, 42, 3, 8, 12, 17, 25, 30, 41, 43, 9, 11, 18, 24, 31, 40, 44, 53] ++
  [10, 19, 23, 32, 39, 45, 52, 54, 20, 22, 33, 38, 46, 51, 55, 60, 21, 34, 37, 47, 50, 56, 59, 61, 35, 36, 48, 49, 57, 58, 62, 63]
/-- The cosine constants (R454). -/
def dctC (u x : Nat) : Int :=
  if u = 0 then 2896 else
  let k := (2 * x + 1) * u % 32
  let m : Nat → Int := fun i => [4096, 4017, 3784, 3406, 2896, 2276, 1567, 799, 0].getD i 0
  if k ≤ 8 then m k else if k ≤ 16 then -(m (16 - k)) else if k ≤ 24 then -(m (k - 16)) else m (32 - k)
/-- The 64 samples of a block, row by row, from its coefficients in zigzag order and its quantisation table. -/
def jIdct (z : List Int) (q : List Nat) : List Nat :=
  let f := fun v u => z.getD (zigzag.getD (8 * v + u) 0) 0 * (q.getD (zigzag.getD (8 * v + u) 0) 0 : Int)
  let sum8 := fun (g : Nat → Int) => (List.range 8).foldl (fun (a : Int) i => a + g i) 0
  let r := (List.range 64).map (fun i => (sum8 (fun u => dctC u (i % 8) * f (i / 8) u) + 1024) / 2048)
  (List.range 64).map (fun i =>
    (max 0 (min 255 ((sum8 (fun v => dctC v (i / 8) * r.getD (8 * v + i % 8) 0) + 16384) / 32768 + 128))).toNat)

/-- The blocks of one MCU, component by component: `todo` names the component of each block; `preds` are the DC predictions. -/
def jMcu (h : JHead) : List Nat → List Int → List Bool → List (List Nat) → Option (List Int × List Bool × List (List Nat))
  | [], preds, l, acc => some (preds, l, acc)
  | c :: todo, preds, l, acc =>
    let t := h.scan.getD c (0, 0)
    match jBlock ((mfind h.dht t.1).getD []) ((mfind h.dht (4 + t.2)).getD []) (preds.getD c 0) l with
    | none => none
    | some (z, l) =>
      let q := ((h.comps[c]?).bind (fun x => mfind h.dqt x.tq)).getD []
      jMcu h todo (preds.set c (z.getD 0 0)) l (jIdct z q :: acc)
/-- The component of each block of an MCU. -/
def JHead.order (h : JHead) : List Nat :=
  (List.range h.coded.length).flatMap (fun c => List.replicate (((h.coded[c]?).map (fun x => x.h * x.v)).getD 0) c)
/-- `n` MCUs of one restart interval; the blocks come latest first. -/
def jInterval (h : JHead) : Nat → List Int → List Bool → List (List Nat) → Option (List Bool × List (List Nat))
  | 0, _, l, acc => some (l, acc)
  | n + 1, preds, l, acc =>
    match jMcu h h.order preds l acc with
    | none => none
    | some (p, l, acc) => jInterval h n p l acc
/-- All restart intervals. A marker must stand where its interval ends. -/
def jIntervals (h : JHead) (per : Nat) : List (List Nat) → Nat → List (List Nat) → Option (List (List Nat))
  | [], left, acc => if left = 0 then some acc else none
  | s :: segs, left, acc =>
    match jInterval h (Nat.min per left) [0, 0, 0] (jBits s) acc with
    | none => none
    | some (l, acc) => if left = 0 ∨ (segs ≠ [] ∧ 8 ≤ l.length) then none else jIntervals h per segs (left - Nat.min per left) acc
/-- The blocks of a stream in coded order. -/
def jDecode (s : JStream) : Option (List (List Nat)) :=
  let n := s.head.mcuX * s.head.mcuY
  let order := (List.range s.rsts.length).all (fun i => s.rsts.getD i 0 == i % 8)
  if !order || (s.head.ri = 0 && s.rsts != []) then none
  else (jIntervals s.head (if s.head.ri = 0 then n else s.head.ri) s.segs n []).map List.reverse

/-! ## Pixels -/

/-- A sample of component `c` at row `y`, column `x` of the component. -/
def jSample (h : JHead) (blocks : Array (List Nat)) (c y x : Nat) : Nat :=
  let l := h.coded
  let k := (l[c]?).getD ⟨0, 1, 1, 0⟩
  let base := sumNat ((l.take c).map (fun q => q.h * q.v))
  let all := sumNat (l.map (fun q => q.h * q.v))
  let by_ := y / 8
  let bx := x / 8
  let mcu := by_ / k.v * h.mcuX + bx / k.h
  ((blocks[mcu * all + base + by_ % k.v * k.h + bx % k.h]?).getD []).getD (y % 8 * 8 + x % 8) 0
/-- A value held to 8 bits. -/
def clamp8 (v : Int) : Nat := (max 0 (min 255 v)).toNat
/-- The channels of a pixel (R454): chroma is replicated. -/
def jPixel (h : JHead) (blocks : Array (List Nat)) (y x : Nat) : List Nat :=
  if h.comps.length = 1 then [jSample h blocks 0 y x] else
  let l : Int := jSample h blocks 0 y x
  let dd : Int := (jSample h blocks 1 (y / h.vMax) (x / h.hMax) : Int) - 128
  let ee : Int := (jSample h blocks 2 (y / h.vMax) (x / h.hMax) : Int) - 128
  [clamp8 (l + (91881 * ee + 32768) / 65536), clamp8 (l + (-22554 * dd - 46802 * ee + 32768) / 65536), clamp8 (l + (116130 * dd + 32768) / 65536)]

end Sys2Proof.Machine
end

