-- ==== Sys2Proof/Machine/Replay.lean ====
section
/-!
DEFINITION. The replay decoder (R447 to R463): sessions, the shuffle, augmentation, the Fathom format, the checks before allocation, decode
budgets, and emissions in order.
-/
namespace Sys2Proof.Machine

/-! ## Sessions (R447 to R449) -/

def Dev.rplPart (d : Dev) : Nat := d.f F.RPL_CTRL.PART
/-- Is an FP32 value between 0 and a positive bound? -/
def fpUpTo (hi v : Nat) : Bool := decide (v ≤ hi) || v == 0x80000000
/-- The bytes of a slot. -/
def Dev.slotBytes (d : Dev) : Nat := d.f F.RPL_SLOTS.UNITS * 65536
/-- A range of HBM that the session may use (R146). -/
def Dev.rplHbm (d : Dev) (a n : Nat) : Bool := d.inPart d.rplPart a n
/-- A value outside its range in Table 5. -/
def Dev.rplRange (d : Dev) : Bool :=
  let cw := d.f F.RPL_CROP.CROP_W
  let ch := d.f F.RPL_CROP.CROP_H
  let within := fun (lo hi v : Nat) => decide (lo ≤ v) && decide (v ≤ hi)
  within 2 1024 (d.f F.RPL_SLOTS.COUNT) && within 1 4096 (d.f F.RPL_SLOTS.UNITS) && within 1 8192 (d.f F.RPL_MAX.MAX_W) &&
  within 1 8192 (d.f F.RPL_MAX.MAX_H) && within 1 2097152 (d.f F.RPL_MAXPTS.MAX_POINTS) &&
  ((cw == 0 && ch == 0) || (within 1 8192 cw && within 1 8192 ch)) &&
  (List.range 3).all (fun i => finite32 (d.f (F.RPL_MEAN.MEAN i)) && finite32 (d.f (F.RPL_SCALE.SCALE i))) &&
  fpUpTo 0x43800000 (d.f F.RPL_JITTER_M.JM) && fpUpTo 0x3F000000 (d.f F.RPL_JITTER_S.JS) && within 2 255 (d.f F.RPL_BUDGET.MULT) &&
  within 1 1000 (d.f F.RPL_BUDGET.CEIL_MS) && within 1000 1000000000 (d.f F.RPL_INIT.INIT_NS)
/-- The status of a START (R448), in the order of R114. DEDUCED: log entries 22, 172. -/
def Dev.startStatus (d : Dev) : Nat :=
  let fmt := d.f F.RPL_FMT.OUT_FMT
  let n := d.f F.RPL_COUNT.N
  let ta := d.f F.RPL_TABLE.ADDR
  let out := d.f F.RPL_OUT.ADDR
  if fmt = 1 ∨ fmt = 7 then stFormat
  else if n = 0 then stZero
  else if n ≤ d.f F.RPL_FIRST.FIRST ∨ (d.hwFlag d.rplPart (d.f F.RPL_FLAG.OUT_FLAG)).isNone ∨
      (d.hwFlag d.rplPart (d.f F.RPL_FLAG.CONS_FLAG)).isNone ∨ (ta % 2 = 0 ∧ !d.rplHbm (ta / 64 * 64) (32 * n)) ∨
      !d.rplHbm out (d.f F.RPL_SLOTS.COUNT * d.slotBytes) ∨ !d.rplRange then stBounds
  else if ta % 64 / 2 ≠ 0 ∨ out % 65536 ≠ 0 then stAlign else stOk
/-- The value of a partition-relative flag. -/
def Dev.partFlag (d : Dev) (i : Nat) : Nat := ((d.hwFlag d.rplPart i).map d.flag).getD 0
/-- START. DEDUCED: log entry 22. -/
def Dev.rplStart (d : Dev) (t : Nat) : Dev :=
  if !d.full then d else
  if d.on F.RPL_CTRL.BUSY then d.set F.RPL_CTRL.BAD_CFG 1 else
  let st := d.startStatus
  if st ≠ stOk then (d.set F.RPL_CTRL.BAD_CFG 1).set F.RPL_CTRL.ERR_CODE st else
  let d := { d.at_ t with rpl := ⟨d.partFlag (d.f F.RPL_FLAG.OUT_FLAG), d.partFlag (d.f F.RPL_FLAG.CONS_FLAG), 0, d.f F.RPL_FIRST.FIRST, 0,
    List.replicate 4 none, []⟩ }
  (((d.set F.RPL_CTRL.BUSY 1).set F.RPL_POS.NEXT 0).set (F.RPL_AVG.AVG_NS 0) (d.f F.RPL_INIT.INIT_NS)).set (F.RPL_AVG.AVG_NS 1) (d.f F.RPL_INIT.INIT_NS)
def execRplStart (t : Nat) (s : State) : Res := .next (s.upd (fun d => d.rplStart t))

/-- STOP, or a reset that abandons the session (R452). DEDUCED: log entry 146. -/
def Dev.rplStop (d : Dev) : Dev :=
  Dev.set { d with rpl := { d.rpl with lanes := List.replicate 4 none, ready := [] } } F.RPL_CTRL.BUSY 0
def execRplStop (s : State) : Res := .next (s.upd (fun d => if d.full then d.rplStop else d))

/-! ## The shuffle and the draws (R458 to R461) -/

/-- The key K of an epoch. -/
def rplKey (seed epoch : Nat) : Nat := seed ^^^ (epoch * 2 ^ 32 % 2 ^ 64)
/-- One pass through the network. -/
def feistel (k b x : Nat) : Nat :=
  let y := (List.range 6).foldl (fun (q : Nat × Nat) j => (q.2, q.1 ^^^ (epact k (2 ^ 63 + j * 2 ^ 32 + q.2) % 2 ^ b))) (x / 2 ^ b, x % 2 ^ b)
  y.1 * 2 ^ b + y.2
/-- The walk until the value is below `n`; the first argument bounds it. -/
def walk (k b n : Nat) : Nat → Nat → Nat
  | 0, x => x
  | m + 1, x => let y := feistel k b x
    if y < n then y else walk k b n m y
/-- The shuffle π. -/
def shuffle (k n p : Nat) : Nat :=
  let b := Nat.max 1 (ceilDiv (Nat.clog 2 n) 2)
  walk k b n (2 ^ (2 * b)) p
/-- Draw `j` of sample `i`. -/
def draw (k i j : Nat) : Nat := epact k ((16 * i + j) % 2 ^ 64)
/-- The signed fraction of a draw. -/
def fraction (w : Nat) : Num :=
  let s := toSigned 24 (w / 256)
  .fin (decide (s < 0)) s.natAbs (-23)
/-- MEAN and SCALE of a channel as a sample uses them: FP32 bits. -/
def Dev.jittered (d : Dev) (k i c : Nat) : Nat × Nat :=
  let m := d.f (F.RPL_MEAN.MEAN c)
  let s := d.f (F.RPL_SCALE.SCALE c)
  if !d.on F.RPL_CTRL.MODE then (m, s) else
  let m' := ((ofBits32 m).add ((ofBits32 (d.f F.RPL_JITTER_M.JM)).mul (fraction (draw k i (2 + c)))).1).1
  let s' := ((ofBits32 s).mul (num1.add ((ofBits32 (d.f F.RPL_JITTER_S.JS)).mul (fraction (draw k i (5 + c)))).1).1).1
  (m'.toBits32, s'.toBits32)

/-! ## Lanes (R449, R450, R456, R457) -/

/-- The bytes of a stream in host memory or HBM. DEDUCED: log entry 147. -/
def Dev.rplRead (d : Dev) (addr n : Nat) : List Nat :=
  if addr % 2 = 1 then d.rdHost (addr / 64 * 64) n else d.rdHbm (addr / 64 * 64) n
/-- Can the decoder work? -/
def Dev.rplOn (d : Dev) : Bool := d.on F.RPL_CTRL.BUSY && d.rst.low == 0 && !d.rst.warm && d.rst.hbmReady
/-- Is the slot of emission `q` free? -/
def Dev.slotFree (d : Dev) (q : Nat) : Bool :=
  decide ((q : Int) - d.f F.RPL_SLOTS.COUNT + 1 ≤ (d.partFlag (d.f F.RPL_FLAG.CONS_FLAG) : Int) - d.rpl.c0)
/-- The sample that a lane starts: its position in the order of the epoch. -/
def Dev.laneBegin (d : Dev) (lane t : Nat) : Dev :=
  let n := d.f F.RPL_COUNT.N
  let r := d.rpl
  if !d.rplOn || decide (n ≤ r.pos) || (r.lanes.getD lane none).isSome || decide (4 ≤ lane) || !d.slotFree r.next then d else
  let d := d.at_ t
  let ep := d.f F.RPL_EPOCH.EPOCH
  let i := if d.on F.RPL_CTRL.MODE then shuffle (rplKey (d.f F.RPL_SEED.SEED) ep) n r.pos else r.pos
  let ta := d.f F.RPL_TABLE.ADDR
  let e := if ta % 2 = 1 then d.rdHost (ta / 64 * 64 + 32 * i) 32 else d.rdHbm (ta / 64 * 64 + 32 * i) 32
  let a := d.f (F.RPL_AVG.AVG_NS (e.getD 12 0 % 2))
  let budget := Nat.min (d.f F.RPL_BUDGET.MULT * a) (d.f F.RPL_BUDGET.CEIL_MS * 1000000)
  let wrap := r.pos + 1 == n && d.on F.RPL_CTRL.LOOP
  let d := { d with rpl := { d.rpl with
    next := r.next + 1, pos := if wrap then 0 else r.pos + 1, lanes := r.lanes.set lane (some ⟨r.next, r.pos, ep, i, e, d.now, budget⟩) } }
  if wrap then d.set F.RPL_EPOCH.EPOCH ((ep + 1) % 2 ^ 32) else d
/-! ## Fathom (R455) -/

/-- A LEB128 varint of at most five bytes. -/
def varint : Nat → Nat → Nat → List Nat → Option (Nat × List Nat)
  | 0, _, _, _ => none
  | _ + 1, _, _, [] => none
  | n + 1, sh, acc, b :: l =>
    let v := acc + b % 128 * 2 ^ sh
    if 128 ≤ b then varint n (sh + 7) v l else if v < 2 ^ 32 then some (v, l) else none
/-- Seven varints. -/
def varints : Nat → List Nat → List Nat → Option (List Nat × List Nat)
  | 0, l, acc => some (acc, l)
  | n + 1, l, acc =>
    match varint 5 0 0 l with
    | none => none
    | some (v, l) => varints n l (acc ++ [v])
/-- The number that a zigzag code stands for. -/
def unzigzag (u : Nat) : Int := if u % 2 = 0 then (u / 2 : Nat) else -((u / 2 : Nat) : Int) - 1
def isInt32 (v : Int) : Bool := decide (-2147483648 ≤ v) && decide (v ≤ 2147483647)
/-- The records of `n` points, from the running coordinates and time offset. -/
def fathomPoints (step : Num) : Nat → List Int → Int → List Nat → List (List Nat) → Option (List Nat)
  | 0, _, _, l, acc => if l = [] then some acc.reverse.flatten else none
  | n + 1, q, t, l, acc =>
    match varints 7 l [] with
    | none => none
    | some (v, l) =>
      let g := fun i => v.getD i 0
      let q := (List.range 3).map (fun i => q.getD i 0 + unzigzag (g i))
      let t := t + (g 6 : Int)
      if !(q.all isInt32) || !isInt32 t then none else
      let rec_ := q.flatMap (fun x => leBytes 4 ((Num.ofInt x).mul step).1.toBits32) ++ leBytes 2 (Nat.min (g 3) 65535) ++
        [g 4 % 256, g 5 % 256] ++ leBytes 4 (ofSigned 32 t) ++ [0, 0, 0, 0]
      fathomPoints step n q t l (rec_ :: acc)

/-! ## What a sample decodes to -/

/-- The outcome of a sample: its status, and for OK the fields of Table 2 and the data. -/
structure Sample where
  status : Nat
  w : Nat
  h : Nat
  points : Nat
  chans : Nat
  pitch : Nat
  crop : Nat
  data : List Nat
  deriving DecidableEq, Repr
/-- A sample that failed. -/
def badSample (st : Nat) : Sample := ⟨st, 0, 0, 0, 0, 0, 0, []⟩
/-- The space for data in a slot. -/
def Dev.slotData (d : Dev) : Nat := d.slotBytes - 64
/-- A Fathom sweep (R455, R456). DEDUCED: log entry 148. -/
def Dev.fathom (d : Dev) (l : List Nat) : Sample :=
  let points := bfield l 8 4
  let step := bfield l 12 4
  let pay := bfield l 24 4
  if l.length < 32 ∨ bfield l 0 4 ≠ 0x4D485446 ∨ bfield l 4 2 ≠ 1 ∨ !finite32 step ∨ l.length < 32 + pay then badSample stFormat
  else if d.f F.RPL_MAXPTS.MAX_POINTS < points then badSample stBounds
  else if pay < 7 * points then badSample stDim
  else if d.slotData < 24 * points then badSample stBounds
  else
    match fathomPoints (ofBits32 step) points [0, 0, 0] 0 ((l.drop 32).take pay) [] with
    | none => badSample stFormat
    | some data => ⟨stOk, 0, 0, points, 0, 0, 0, data⟩
/-- The element size of an output format. -/
def pixelBytes (f : Nat) : Nat := [1, 2, 1, 1, 2, 2, 4].getD f 1
/-- An image (R453, R454, R456, R460, R461), laid out by R74. -/
def Dev.image2 (d : Dev) (k i : Nat) (l : List Nat) : Sample :=
  match jpegRead l with
  | none => badSample stFormat
  | some s =>
    let w := s.head.w
    let h := s.head.h
    let cw := d.f F.RPL_CROP.CROP_W
    let ch := d.f F.RPL_CROP.CROP_H
    let ow := if cw = 0 then w else cw
    let oh := if ch = 0 then h else ch
    let fmt := d.f F.RPL_FMT.OUT_FMT
    let chans := s.head.comps.length
    let planar := d.on F.RPL_FMT.PLANAR
    let pitch := up64 (ow * (if planar then 1 else chans) * pixelBytes fmt)
    if d.f F.RPL_MAX.MAX_W < w ∨ d.f F.RPL_MAX.MAX_H < h ∨ w < cw ∨ h < ch then badSample stBounds
    else if 8 * s.bytes < 2 * s.head.blocks then badSample stDim
    else if d.slotData < pitch * oh * (if planar then chans else 1) then badSample stBounds
    else
      match jDecode s with
      | none => badSample stFormat
      | some blocks =>
        let train := d.on F.RPL_CTRL.MODE
        let x0 := if cw = 0 then 0 else if train then (w - cw + 1) * draw k i 0 / 2 ^ 32 else (w - cw) / 2
        let y0 := if ch = 0 then 0 else if train then (h - ch + 1) * draw k i 1 / 2 ^ 32 else (h - ch) / 2
        let js := (List.range 3).map (d.jittered k i)
        let c : CamCfg := { camCfg (fun _ => 0) 0 with fmt := fmt, mean := js.map Prod.fst, scale := js.map Prod.snd }
        let arr := blocks.toArray
        let row := fun y => (List.range ow).map (fun x =>
          let px := jPixel s.head arr (y0 + y) (x0 + x)
          (List.range chans).map (fun n => c.norm n (px.getD n 0)))
        let data := if planar then
            (List.range chans).flatMap (fun n => (List.range oh).flatMap (fun y => padTo pitch ((row y).flatMap (fun p => p.getD n []))))
          else (List.range oh).flatMap (fun y => padTo pitch ((row y).flatMap List.flatten))
        ⟨stOk, ow, oh, 0, chans, pitch, x0 + y0 * 65536, data⟩
/-- The status that a sample table entry alone gives (R452). DEDUCED: log entry 148. -/
def Dev.entryStatus (d : Dev) (e : List Nat) : Nat :=
  let a := bfield e 0 8
  let n := bfield e 8 4
  if a % 64 / 2 ≠ 0 ∨ 2 ≤ e.getD 12 0 ∨ bfield e 13 3 ≠ 0 ∨ bfield e 24 8 ≠ 0 then stReserved
  else if n = 0 then stZero
  else if 16777216 < n ∨ (a % 2 = 0 ∧ !d.rplHbm (a / 64 * 64) n) then stBounds else stOk
/-- The ranges of HBM that a sample reads: its entry in the table; its stream. -/
def Dev.tableReads (d : Dev) (ln : Lane) : List (Nat × Nat) :=
  let ta := d.f F.RPL_TABLE.ADDR
  if ta % 2 = 0 then [(ta / 64 * 64 + 32 * ln.sample, 32)] else []
def Dev.streamReads (d : Dev) (ln : Lane) : List (Nat × Nat) :=
  let a := bfield ln.entry 0 8
  if a % 2 = 0 ∧ d.entryStatus ln.entry = stOk then [(a / 64 * 64, bfield ln.entry 8 4)] else []
/-- The first poisoned granule that the sample reads, with the access type of that read (R360). -/
def Dev.samplePoison (d : Dev) (ln : Lane) : Option (Nat × Nat) :=
  let p := fun (l : List (Nat × Nat)) (acc : Nat) => (l.flatMap (fun r => d.poisonIn r.1 r.2)).head?.map (fun g => (g, acc))
  (p (d.tableReads ln) accFetch).or (p (d.streamReads ln) accRead)
/-- LANE_SAMPLE_START: a lane takes the next sample; what it reads meets the errors given. DEDUCED: log entries 147, 183. -/
def Dev.laneStart (d : Dev) (lane t : Nat) (mem : List MemErr) : Dev :=
  let e := d.laneBegin lane t
  match (d.rpl.lanes.getD lane none), (e.rpl.lanes.getD lane none) with
  | none, some ln => e.met accFetch (d.tableReads ln) mem (fun e => e.met accRead (d.streamReads ln) (mem.filter MemErr.hbm) (fun e => e))
  | _, _ => e
def execLaneSampleStart (lane t : Nat) (mem : List MemErr) (s : State) : Res := .next (s.upd (fun d => d.laneStart lane t mem))
/-- The sample of a lane. The status after an uncorrectable granule is not stated: a free value other than OK. DEDUCED: log entry 147. -/
def Dev.sampleOf (d : Dev) (ln : Lane) : Sample :=
  if (d.samplePoison ln).isSome then badSample (1 + Config.freeNat d.fresh 0 % 255) else
  let st := d.entryStatus ln.entry
  if st ≠ stOk then badSample st else
  let l := d.rplRead (bfield ln.entry 0 8) (bfield ln.entry 8 4)
  if ln.entry.getD 12 0 % 2 = 1 then d.fathom l else d.image2 (rplKey (d.f F.RPL_SEED.SEED) ln.epoch) ln.sample l

/-! ## Emissions (R451, R457) -/

/-- The 64 bytes of a slot header. In the slot of a sample that failed, the fields that describe data are not stated: free values.
DESIGN CHOICE: log entry 151. -/
def Dev.slotHeader (d : Dev) (ln : Lane) (s : Sample) : List Nat :=
  let kind := ln.entry.getD 12 0 % 2
  let v := fun (k n x : Nat) => if s.status = stOk then x else Config.freeNat d.fresh (1 + k) % 256 ^ n
  let jp := fun (k n x : Nat) => if kind = 1 then 0 else v k n x
  leBytes 8 (bfield ln.entry 16 8) ++ leBytes 4 ln.sample ++ leBytes 4 ln.pos ++ leBytes 4 ln.epoch ++
  leBytes 2 (jp 0 2 s.w) ++ leBytes 2 (jp 1 2 s.h) ++ leBytes 4 (if kind = 0 then 0 else v 2 4 s.points) ++
  [s.status % 256, kind + 2 * d.f F.RPL_FMT.OUT_FMT + 16 * d.f F.RPL_FMT.PLANAR, jp 3 1 s.chans, 0] ++ leBytes 4 (jp 4 4 s.pitch) ++
  leBytes 4 (64 + s.data.length) ++ leBytes 4 (jp 5 4 s.crop) ++ leBytes 8 (crc64 s.data) ++ List.replicate 12 0
/-- Write the data of a slot, then its header. -/
def Dev.wrSample (d : Dev) (ln : Lane) (s : Sample) : Dev :=
  let a := d.f F.RPL_OUT.ADDR + ln.q % d.f F.RPL_SLOTS.COUNT * d.slotBytes
  ((d.wrHbm (a + 64) s.data).wrHbm a (d.slotHeader ln s)).take
/-- Flag the emissions whose turn has come: OUT_FLAG, the averages and the counters, in emission order. The session ends with the emission
of position N − 1 when LOOP is 0. DEDUCED: log entry 146. -/
def Dev.flagReady (d : Dev) : Nat → Dev
  | 0 => d
  | n + 1 =>
    match mfind d.rpl.ready d.rpl.flagged with
    | none => d
    | some (st, kind, dt) =>
      let d := { d with rpl := { d.rpl with ready := merase d.rpl.ready d.rpl.flagged, flagged := d.rpl.flagged + 1 } }
      let d := match d.hwFlag d.rplPart (d.f F.RPL_FLAG.OUT_FLAG) with
        | some k => d.flagAdd k 1
        | none => d
      let d := d.set F.RPL_POS.NEXT d.rpl.flagged
      let a := d.f (F.RPL_AVG.AVG_NS kind)
      let d := if st = stOk then d.set (F.RPL_AVG.AVG_NS kind) ((a : Int) + ((dt : Int) - a).tdiv 16).toNat
        else if st = stLate then d.addSat F.RPL_LATE.COUNT 1
        else if st = stDim then d.addSat F.RPL_IMPL.COUNT 1 else d.addSat F.RPL_ERR.COUNT 1
      let d := if d.rpl.flagged = d.rpl.next ∧ d.f F.RPL_COUNT.N ≤ d.rpl.pos then d.set F.RPL_CTRL.BUSY 0 else d
      Dev.flagReady d n
/-- A lane has finished its sample: the slot is written, and the lane is free. -/
def Dev.finishLane (d : Dev) (lane : Nat) (ln : Lane) (s : Sample) : Dev :=
  let d := d.wrSample ln s
  let d := { d with rpl := { d.rpl with
    lanes := d.rpl.lanes.set lane none,
    ready := mset d.rpl.ready ln.q (s.status, ln.entry.getD 12 0 % 2, d.now - ln.started) } }
  d.flagReady (d.rpl.ready.length + 1)
/-- EMISSION: the lane's sample completes. A sample that completes in the cycle after its budget is reached is kept. DEDUCED: log entry 150. -/
def Dev.emission (d : Dev) (lane t : Nat) : Dev :=
  match d.rpl.lanes.getD lane none with
  | none => d
  | some ln =>
    if !d.rplOn || decide (ln.started + ln.budget + 1 < Nat.max d.now t) then d else
    let d := d.at_ t
    let s := d.sampleOf ln
    let d := match d.samplePoison ln with
      | some (g, acc) => d.hbmUeAt g acc
      | none => d
    d.finishLane lane ln s
def execEmission (lane t : Nat) (s : State) : Res := .next (s.upd (fun d => d.emission lane t))
/-- LATE: the budget has expired, and the emission is a placeholder. DEDUCED: log entry 150. -/
def Dev.late (d : Dev) (lane t : Nat) : Dev :=
  match d.rpl.lanes.getD lane none with
  | none => d
  | some ln =>
    if !d.rplOn || decide (Nat.max d.now t < ln.started + ln.budget + 1) then d else (d.at_ t).finishLane lane ln (badSample stLate)
def execLate (lane t : Nat) (s : State) : Res := .next (s.upd (fun d => d.late lane t))

end Sys2Proof.Machine
end

