-- ==== Sys2Proof/Machine/Span.lean ====
section
/-!
DEFINITION. League (R429 to R446): Span windows and map entries, what arrives at their owner, PULL, ports and lanes, mirrored writes.
-/
namespace Sys2Proof.Machine

/-! ## SPAN descriptors (Table 1 of R436), at dispatch -/

/-- Does the partition own the map entry, or does nobody (R437)? -/
def MapEnt.usable (m : MapEnt) (f : Nat) : Bool := !m.set_ || m.part == f
/-- Is a LOG2 field that is not 0 one of 16 to 30? -/
def log2Ok (n : Nat) : Bool := decide (16 ≤ n) && decide (n ≤ 30)

/-- OPEN (R437): the window opens and its epoch advances. -/
def Dev.spanOpen (d : Dev) (key : Nat) : Dev :=
  match d.headSub key 9 0 with
  | none => d
  | some b =>
    let n := bfield b 20 4
    let addr := bfield b 24 8
    let size := bfield b 32 4
    let lg := bits size 4 0
    let w := d.window n
    if !log2Ok lg || w.opened || !inRange (d.headRange key) addr (2 ^ lg) || (d.hwFlag (key / 4096) (bits size 20 7)).isNone then
      d.complete key stBounds 0 0 0
    else
      Dev.complete (d.setWindow n ⟨true, key / 4096, key % 4096, addr, lg, bitOf size 5, bitOf size 6, bits size 20 7, bitOf size 21,
        bfield b 36 8, (w.epoch + 1) % 65536⟩) key stOk 0 0 0
def execSpanOpen (fn ctx : Nat) (s : State) : Res := .next (s.upd (fun d => d.spanOpen (ckey fn ctx)))

/-- CLOSE (R438). -/
def Dev.spanClose (d : Dev) (key : Nat) : Dev :=
  match d.headSub key 9 1 with
  | none => d
  | some b =>
    let w := d.window (bfield b 20 4)
    if !w.opened || w.part != key / 4096 then d.complete key stBounds 0 0 0
    else (d.setWindow (bfield b 20 4) (closeWindow w)).complete key stOk 0 0 0
def execSpanClose (fn ctx : Nat) (s : State) : Res := .next (s.upd (fun d => d.spanClose (ckey fn ctx)))

/-- ADVANCE (R438). -/
def Dev.spanAdvance (d : Dev) (key : Nat) : Dev :=
  match d.headSub key 9 2 with
  | none => d
  | some b =>
    let w := d.window (bfield b 20 4)
    if !w.opened || w.part != key / 4096 then d.complete key stBounds 0 0 0
    else (d.setWindow (bfield b 20 4) { w with epoch := (w.epoch + 1) % 65536 }).complete key stOk 0 0 0
def execSpanAdvance (fn ctx : Nat) (s : State) : Res := .next (s.upd (fun d => d.spanAdvance (ckey fn ctx)))

/-- MAP (R436): the entry is written, or cleared by a LOG2 of 0. -/
def Dev.spanMap (d : Dev) (key : Nat) : Dev :=
  match d.headSub key 9 3 with
  | none => d
  | some b =>
    let n := bfield b 20 4
    let arg := bfield b 36 8
    let lg := bits arg 45 41
    if !(d.mapEnt n).usable (key / 4096) || (lg != 0 && !log2Ok lg) then d.complete key stBounds 0 0 0
    else if lg = 0 then (d.setMap n mapClear).complete key stOk 0 0 0
    else (d.setMap n ⟨true, key / 4096, bits arg 14 0, bits arg 24 15, bits arg 40 25, lg⟩).complete key stOk 0 0 0
def execSpanMap (fn ctx : Nat) (s : State) : Res := .next (s.upd (fun d => d.spanMap (ckey fn ctx)))

/-- PULL (R442): the request leaves for the owner, who checks its place in the window; one for an unreachable package is refused (R435). -/
def Dev.spanPull (d : Dev) (key : Nat) : Dev :=
  match d.headSub key 9 4 with
  | none => d
  | some b =>
    let m := d.mapEnt (bfield b 20 4)
    let n := bfield b 32 4
    let off := bits (bfield b 36 8) 39 0
    if !m.usable (key / 4096) then d.complete key stBounds 0 0 0
    else if n = 0 then d.complete key stOk 0 0 0
    else if !m.set_ then d.complete key stBounds 0 0 0
    else if (d.route m.pkg).isNone then d.complete key stDenied 0 0 0
    else (d.sendLg m.pkg (.pull m.pkg m.win m.epoch off n)).setHead key .pulling
def execSpanPull (fn ctx : Nat) (s : State) : Res := .next (s.upd (fun d => d.spanPull (ckey fn ctx)))

/-- PULL_DONE: the bytes have come, or the owner has refused with a status. DEDUCED: log entry 141. -/
def Dev.pullDone (d : Dev) (key status : Nat) (bytes : List Nat) : Dev :=
  match d.head key with
  | none => d
  | some k =>
    if k.st ≠ .pulling then d
    else if status = 0 then (d.wrHbm (bfield k.bytes 24 8) (bytes.take (bfield k.bytes 32 4))).complete key stOk 0 0 0
    else d.complete key status 0 0 0
def execPullDone (fn ctx status : Nat) (bytes : List Nat) (s : State) : Res :=
  .next (s.upd (fun d => d.pullDone (ckey fn ctx) status bytes))

/-! ## Arrival at the owner (R440 to R443) -/

/-- Is a port of this package up? -/
def Dev.portLive (d : Dev) (p : Nat) : Bool := d.full && p < 6 && d.f (F.LNK_PORT_STAT.STATE p) == 2
/-- Does a window admit a sender (R437)? -/
def Window.admits (w : Window) (sender : Nat) : Bool :=
  w.opened && (w.any || [0, 1, 2, 3].any (fun i => bitOf w.senders (60 + i) && w.senders / 2 ^ (15 * i) % 2 ^ 15 == sender))
/-- A duplicate of a piece or mark of a sender, by its sequence number (R432). The copy that the owner has asked for is none.
DEDUCED: log entry 138. -/
def Dev.seen (d : Dev) (sender seq : Nat) : Bool :=
  decide (seq < mget 0 d.lnk.nextPiece sender) && !d.lnk.asked.contains (sender, seq)
/-- DEDUCED: log entry 138. -/
def Dev.noteSeq (d : Dev) (sender seq : Nat) : Dev :=
  { d with lnk := { d.lnk with
      nextPiece := mput 0 d.lnk.nextPiece sender (Nat.max (mget 0 d.lnk.nextPiece sender) (seq + 1)),
      asked := d.lnk.asked.filter (fun q => q != (sender, seq)) } }
/-- A piece whose CRC fails is asked for once more (R356). -/
def Dev.askAgain (d : Dev) (sender seq : Nat) : Dev :=
  ({ d with lnk := { d.lnk with asked := d.lnk.asked ++ [(sender, seq)] } }.addSat F.SAF_CRC_RETRY.COUNT 1).sendLg sender (.reply sender .again)
/-- A piece or mark is refused with WINDOW_DENIED. DEDUCED: log entry 139. -/
def Dev.denyPiece (d : Dev) (sender : Nat) : Dev := (d.addSat F.LNK_DENIED.COUNT 1).sendLg sender (.reply sender (.refused false))
/-- One is dropped for its epoch; the sender receives DESCRIPTOR_STALE. -/
def Dev.dropEpoch (d : Dev) (p sender win : Nat) : Dev :=
  ((d.addSat F.LNK_EPOCH_DROP.COUNT 1).raise 0x1C2 (hubUnit (0x40 + p)) win 6).sendLg sender (.reply sender (.refused true))

/-- PIECE_ARRIVAL: the CRC, asked for once more when it fails (R356), then the checks of R440, then the write. DEDUCED: log entries 139, 140. -/
def Dev.pieceArrival (d : Dev) (p sender seq win epoch off crc : Nat) (again : Bool) (bytes : List Nat) (t : Nat) : Dev :=
  if !d.portLive p || d.seen sender seq then d else
  let d := (d.at_ t).noteSeq sender seq
  if crc64 bytes ≠ crc then
    if again then (d.raise 0x046 (hubUnit (0x40 + p)) 0 5).sendLg sender (.reply sender .dropped)
    else d.askAgain sender seq
  else
    let w := d.window win
    if !w.admits sender || 2 ^ w.log2 < off + bytes.length then d.denyPiece sender
    else if w.epoch ≠ epoch then d.dropEpoch p sender win
    else (d.wrHbm (w.addr + off) bytes).sendLg sender (.reply sender .ack)
def execPieceArrival (p sender seq win epoch off crc : Nat) (again : Bool) (bytes : List Nat) (t : Nat) (s : State) : Res :=
  .next (s.upd (fun d => d.pieceArrival p sender seq win epoch off crc again bytes t))

/-- ARRIVAL_MARK (R441). -/
def Dev.arrivalMark (d : Dev) (p sender seq win epoch t : Nat) : Dev :=
  if !d.portLive p || d.seen sender seq then d else
  let d := (d.at_ t).noteSeq sender seq
  let w := d.window win
  if !w.admits sender then d.denyPiece sender
  else if w.epoch ≠ epoch then d.dropEpoch p sender win
  else
    let d := if w.flagEn then (match d.hwFlag w.part w.arrive with
      | some n => d.flagAdd n 1
      | none => d) else d
    d.sendLg sender (.reply sender .ack)
def execArrivalMark (p sender seq win epoch t : Nat) (s : State) : Res := .next (s.upd (fun d => d.arrivalMark p sender seq win epoch t))

/-- The answer to a request for `len` bytes at `a`. A poisoned granule ends the request as R141 ends a reader. DEDUCED: log entry 141. -/
def Dev.pullAnswer (d : Dev) (sender a len : Nat) : Dev :=
  match d.poisonIn a len with
  | g :: _ => (d.hbmUeAt g accRead).sendLg sender (.pullReply sender stInvalidated [])
  | [] => d.sendLg sender (.pullReply sender stOk (d.rdHbm a len))
/-- PULL_REQUEST_ARRIVAL (R442): the data, or a refusal. -/
def Dev.pullRequest (d : Dev) (p sender win epoch off len t : Nat) (mem : List MemErr) : Dev :=
  if !d.portLive p then d else
  let d := d.at_ t
  let w := d.window win
  if !w.rw || !w.admits sender || 2 ^ w.log2 < off + len then d.sendLg sender (.pullReply sender stDenied [])
  else if w.epoch ≠ epoch then d.sendLg sender (.pullReply sender stStale [])
  else d.met accRead [(w.addr + off, len)] mem (fun d => d.pullAnswer sender (w.addr + off) len)
def execPullRequestArrival (p sender win epoch off len t : Nat) (mem : List MemErr) (s : State) : Res :=
  .next (s.upd (fun d => d.pullRequest p sender win epoch off len t mem))

/-! ## Ports (R430 to R435) -/

/-- Send a piece or mark that has not been acknowledged again, on the route there is now; without one it is refused (R435). -/
def Dev.resend (d : Dev) (id i : Nat) (x : Remote) : Dev :=
  if (d.route x.pkg).isSome then
    d.sendLg x.pkg x.message
  else d.modRun id (fun r => { r with remotes := r.remotes.set i { x with settled := true, st := stDenied } })
/-- What a loss of a route does to what is on its way: `old` is the routing before. -/
def Dev.reroute (d : Dev) (old : Nat → Option Nat) : Dev :=
  let d := d.runs.foldl (fun (d : Dev) q => if q.2.phase ≠ .commit then d else
    (List.range q.2.remotes.length).foldl (fun (d : Dev) i =>
      match q.2.remotes[i]? with
      | some x => if x.settled || old x.pkg == d.route x.pkg then d else d.resend q.1 i x
      | none => d) d) d
  d.ctxs.foldl (fun (d : Dev) q =>
    match d.head q.1 with
    | none => d
    | some k =>
      if k.st ≠ .pulling then d else
      let m := d.mapEnt (bfield k.bytes 20 4)
      if old m.pkg == d.route m.pkg then d
      else if (d.route m.pkg).isNone then (d.pullMix k.bytes).complete q.1 stDenied 0 0 0
      else d.sendLg m.pkg (.pull m.pkg m.win m.epoch (bits (bfield k.bytes 36 8) 39 0) (bfield k.bytes 32 4))) d
/-- Pass a flit on toward the package it is for (R434). -/
def Dev.forward (d : Dev) (f : Flit) : Dev :=
  match d.route f.dst with
  | none => d
  | some q => (d.send (.forward q f)).intoFlits q (.forward q f)
/-- The flits for other packages among those that a port has not had acknowledged. -/
def transit (l : List (Nat × Tx × Nat)) : List Flit := l.filterMap (fun x => match x.2.1 with
  | .forward _ f => some f
  | _ => none)
/-- A port leaves service: STATE is 0, and its traffic goes another way. DEDUCED: log entry 142. -/
def Dev.portOff (d : Dev) (p : Nat) : Dev :=
  let old := d.route
  let l := d.lnk.txBuf.getD p []
  let d := Dev.set { d with lnk := { d.lnk with txBuf := d.lnk.txBuf.set p [] } } (F.LNK_PORT_STAT.STATE p) 0
  (transit l).foldl Dev.forward (d.reroute old)
/-- A port that was training or up goes down by a fault: it is counted and reported. -/
def Dev.portFault (d : Dev) (p : Nat) : Dev :=
  if d.f (F.LNK_PORT_STAT.STATE p) = 0 then d else
  ((d.portOff p).addSat (F.LNK_PORT_DOWNS.COUNT p) 1).raise 0x1C1 (hubUnit (0x40 + p)) p 6
/-- PORT_DOWN. -/
def execPortDown (p t : Nat) (s : State) : Res := .next (s.upd (fun d => if p < 6 then (d.at_ t).portFault p else d))

/-- Start training on a port: its record of lanes and peer is new, and it sends its package number (R430). -/
def Dev.train (d : Dev) (p : Nat) : Dev :=
  if (d.neighbour p).isNone then d else
  let d := d.setReg (R.LNK_PORT_STAT p) 1
  Dev.send { d with lnk := { d.lnk with
    rxSeq := d.lnk.rxSeq.set p 0, rxFails := d.lnk.rxFails.set p 0, txSeq := d.lnk.txSeq.set p 0, txBuf := d.lnk.txBuf.set p [] } }
    (.train p d.pkg)
/-- Is a port enabled by LNK_CTRL? DEDUCED: log entry 144. -/
def Dev.portWanted (d : Dev) (p : Nat) : Bool := d.on F.LNK_CTRL.EN && maskHas (d.f F.LNK_CTRL.PORT_EN) p
/-- LNK_CTRL_WRITE (R431, R433): a port that becomes enabled trains, one that is no longer enabled leaves service. DEDUCED: log entry 142. -/
def Dev.lnkCtrl (d : Dev) (value : Nat) : Dev :=
  if !d.full then d else
  let e := ((if bitOf value 7 then d.set F.LNK_CTRL.BAD_CFG 0 else d).set F.LNK_CTRL.PORT_EN value).set F.LNK_CTRL.EN (value / 64)
  (List.range 6).foldl (fun (e : Dev) p =>
    if !d.portWanted p && e.portWanted p then e.train p else if d.portWanted p && !e.portWanted p then e.portOff p else e) e
def execLnkCtrlWrite (value : Nat) (s : State) : Res := .next (s.upd (fun d => d.lnkCtrl value))

/-- PORT_TRAINED (R430). DEDUCED: log entry 144. -/
def Dev.portTrained (d : Dev) (p peer t : Nat) : Dev :=
  if !d.full || 6 ≤ p || d.f (F.LNK_PORT_STAT.STATE p) != 1 then d else
  let d := (d.at_ t).set (F.LNK_PORT_STAT.PEER p) peer
  if d.neighbour p = some peer then d.set (F.LNK_PORT_STAT.STATE p) 2
  else (d.set (F.LNK_PORT_STAT.STATE p) 0).raise 0x1C1 (hubUnit (0x40 + p)) p 6
def execPortTrained (p peer t : Nat) (s : State) : Res := .next (s.upd (fun d => d.portTrained p peer t))

/-- LANE_FAIL (R431): with four good lanes left the port retrains onto the spare; with fewer it goes down. -/
def Dev.laneFail (d : Dev) (p lane t : Nat) : Dev :=
  if !d.full || 6 ≤ p || 5 ≤ lane || d.f (F.LNK_PORT_STAT.STATE p) == 0 || maskHas (d.f (F.LNK_PORT_STAT.LANE_FAIL p)) lane then d else
  let first := d.f (F.LNK_PORT_STAT.LANE_FAIL p) == 0
  let d := (d.at_ t).set (F.LNK_PORT_STAT.LANE_FAIL p) (d.f (F.LNK_PORT_STAT.LANE_FAIL p) + 2 ^ lane)
  if !first then d.portFault p
  else if lane = 4 then d
  else (d.set (F.LNK_PORT_STAT.SPARE_USED p) 1).raise 0x1C0 (hubUnit (0x40 + p)) p 6
def execLaneFail (p lane t : Nat) (s : State) : Res := .next (s.upd (fun d => d.laneFail p lane t))

/-- What the peer has acknowledged leaves the replay buffer; what it asks for again is replayed from there, with every later flit, and
counted in LNK_PORT_RETRY (R432). -/
def Dev.acked (d : Dev) (p : Nat) (f : Flit) : Dev :=
  let l := (d.lnk.txBuf.getD p []).filter (fun x => decide (f.ack ≤ x.1))
  let d := { d with lnk := { d.lnk with txBuf := d.lnk.txBuf.set p l } }
  match f.again with
  | none => d
  | some n =>
    let again := l.filter (fun x => decide (n ≤ x.1))
    again.foldl (fun (d : Dev) x => d.send (.flit p x.1 x.2.1 x.2.2)) (d.addSat (F.LNK_PORT_RETRY.COUNT p) again.length)
/-- FLIT_RECEIVE (R432): a flit is delivered in its order, once, or passed on to the package it is for (R434); one that fails its CRC is asked
for again, and the eighth failure in succession takes the port down. What a delivered flit carries acts by its own commands. DEDUCED: log
entry 143. -/
def Dev.flit (d : Dev) (p : Nat) (f : Flit) (crcOk : Bool) : Dev :=
  if !d.portLive p then d else
  let want := d.lnk.rxSeq.getD p 0
  if crcOk then
    let d := d.acked p f
    if f.seq ≠ want then d else
    let d := { d with lnk := { d.lnk with rxSeq := d.lnk.rxSeq.set p (want + 1), rxFails := d.lnk.rxFails.set p 0 } }
    if f.dst = d.pkg then d else d.forward f
  else
    let n := d.lnk.rxFails.getD p 0 + 1
    let d := { d with lnk := { d.lnk with rxFails := d.lnk.rxFails.set p n } }
    if 8 ≤ n then d.portFault p else d.send (.flitAgain p want)
def execFlitReceive (p : Nat) (f : Flit) (crcOk : Bool) (s : State) : Res := .next (s.upd (fun d => d.flit p f crcOk))

/-! ## Roster groups (R444) -/

/-- MIRROR_RECEIVE: a member writes what the leader's Lammas wrote, and acknowledges it. -/
def Dev.mirrorReceive (d : Dev) (addr : Nat) (bytes : List Nat) : Dev :=
  if !d.groupMember || !d.inHbm addr bytes.length || !d.rst.hbmReady then d else (d.wrHbm addr bytes).sendLg (d.groupPkgs.headD 0) (.mirrorAck (d.groupPkgs.headD 0))
def execMirrorReceive (addr : Nat) (bytes : List Nat) (s : State) : Res := .next (s.upd (fun d => d.mirrorReceive addr bytes))
/-- MIRROR_ACK: a member of the group acknowledges one mirrored write. -/
def Dev.mirrorAck (d : Dev) (member : Nat) : Dev :=
  if !d.groupLeader || !d.groupPkgs.contains member then d else
  { d with lnk := { d.lnk with mirrorAcked := mset d.lnk.mirrorAcked member (mget 0 d.lnk.mirrorAcked member + 1) } }
def execMirrorAck (member : Nat) (s : State) : Res := .next (s.upd (fun d => d.mirrorAck member))

end Sys2Proof.Machine
end

