-- ==== Sys2Proof/Machine/Reset.lean ====
section
/-!
DEFINITION. Resets, low-power states and what survives (R42, R480, R486, R487, R499 to R509, R524), the thermal shutdown (R478), and the
loss of a die (R33).
-/
namespace Sys2Proof.Machine

/-! ## What survives (Table 5 of R508) -/

/-- Registers of the always-on island: the collector, Almanac and Kalends, the safe-state registers, Ember's settings, what boot and
repair recorded, and the cause of the last reset (R500, R508). -/
def islandReg (o : Nat) : Bool :=
  (decide (0x100000 ≤ o) && decide (o < 0x200000)) || (decide (0x300000 ≤ o) && decide (o < 0x400000)) ||
  (decide (R.SAF_SAFE_CFG ≤ o) && decide (o < R.SAF_WARM)) || o == R.SAF_RESTART_ADDR || o == R.SAF_EMB_CFG || o == R.SEC_STAT ||
  (decide (R.SEC_RUN_DIGEST 0 ≤ o) && decide (o < R.SEC_RUN_DIGEST 8)) || o == R.SEC_SIGREQ || o == R.HIF_RST_CAUSE ||
  (decide (R.MEM_HBM_REPAIR 0 ≤ o) && decide (o < R.MEM_HBM_REPAIR 2))
/-- Partition set-up, and the settings of Lammas and League, which a warm reset keeps; SAF_WARM until the reset that uses it completes
(R381). -/
def setupReg (o : Nat) : Bool :=
  let lam := o - R.LAM_STR_CFG 0
  let lid := o - R.LAM_LID_CFG 0
  (decide (R.HIF_PF_FN_FLAGS 0 ≤ o) && decide (o < R.HIF_PF_FN_FLAGS 16)) ||
  (decide (R.LAM_PORT_CFG 0 ≤ o) && decide (o < R.LAM_PORT_CFG 16) && decide ((o - R.LAM_PORT_CFG 0) % 64 < 8)) ||
  (decide (R.LAM_STR_CFG 0 ≤ o) && decide (o < R.LAM_STR_CFG 32) && decide (lam % 256 < 0x58)) ||
  (decide (R.LAM_LID_CFG 0 ≤ o) && decide (o < R.LAM_LID_CFG 4) && (decide (lid % 1024 < 0x58) || decide (0x100 ≤ lid % 1024))) ||
  (decide (R.LAM_LID_ELEV 0 0 ≤ o) && decide (o < R.LAM_LID_ELEV 4 0)) ||
  o == R.LNK_TOPO || o == R.LNK_CTRL || o == R.LNK_GROUP || o == R.LNK_GROUP_MEM || o == R.PWR_CTRL || o == R.PWR_THERM ||
  (decide (R.PWR_PART_CFG 0 ≤ o) && decide (o < R.PWR_PART_CFG 16)) ||
  (decide (R.MEM_PART_RANGE 0 ≤ o) && decide (o < R.MEM_PART_RANGE 16)) || (decide (R.MEM_RSV 0 0 ≤ o) && decide (o < R.MEM_RSV 17 0)) ||
  (decide (R.SCH_CLU_PART 0 ≤ o) && decide (o ≤ R.SCH_ATTN_PART)) || o == R.SCH_SWAP_BASE ||
  (decide (R.SCH_PART_CFG 0 ≤ o) && decide (o < R.SCH_PART_CFG 16)) || o == R.SCH_ROSTER_BASE ||
  o == R.SAF_WARM || (decide (R.SAF_OCT_HOLD 0 ≤ o) && decide (o < R.SAF_OCT_HOLD 16))
/-- The HIF_FN registers of a function. -/
def fnReg (fn o : Nat) : Bool := decide (R.HIF_FN_CTX_ADDR fn ≤ o) && decide (o < R.HIF_FN_CTX_ADDR fn + 0x40)
/-- Every register that a predicate does not select returns to its reset value, and the latches of R513 are open again. -/
def Dev.keepRegs (d : Dev) (p : Nat → Bool) : Dev :=
  { d with regs := { cur := d.regs.cur.filter (fun q => p q.1), pend := d.regs.pend.filter (fun q => p q.1),
                     live := d.regs.live.filter (fun q => p q.1), latch := [], lastC := none } }
/-- The HIF_FN registers of a function return to their reset values. -/
def Dev.resetFn (d : Dev) (fn : Nat) : Dev :=
  { d with regs := { d.regs with cur := d.regs.cur.filter (fun q => !fnReg fn q.1) } }

/-- Every on-chip memory loses its content. -/
def Dev.loseSram (d : Dev) : Dev :=
  Dev.take { d with mem := { d.mem with
    sram := d.mem.sram.forget 0 (0x9000 * 0x1000000) d.fresh, rowEvents := [], marches := [], scrubAt := [], withheld := [] } }
/-- Tests in slices start again from their beginning (R399), and rotations that wait for a boundary are dropped (R395). -/
def Dev.dropSlices (d : Dev) : Dev :=
  { d with leap := { d.leap with
      clus := d.leap.clus.map (fun (c : Clu) => { c with engDue := none, pcDue := none }),
      units := d.leap.units.map (fun (q : Nat × UnitSt) => (q.1, { q.2 with slicing := false, slices := 0, turn := false })) } }
/-- The engines and prep cores of every cluster enter service: the first rotation falls ROT_MS from now (R395). -/
def Dev.rotAfresh (d : Dev) : Dev :=
  { d with leap := { d.leap with clus := d.leap.clus.map (fun (c : Clu) => { c with engPrev := d.now, pcPrev := d.now }) } }
/-- Take back, as a free choice for each, the granules that a commit has written, the latest first: each is old or wholly written (R137). -/
def Dev.rollBack (d : Dev) (l : List (Nat × List Nat × Bool)) : Dev :=
  l.reverse.foldl (fun (e : Dev) x =>
    if Config.freeBool e.fresh then e.take else
    let e := e.take
    let m := { e with mem := { e.mem with hbm := e.mem.hbm.writeBytes x.1 x.2.1 } }
    m.setPoison (if x.2.2 then insNat e.mem.poison x.1 else e.mem.poison)) d
/-- What a warm reset finds under way in HBM and host memory: COPY, PULL, page copies and commits leave each granule old or new (R137,
R502). DEDUCED: log entry 163. -/
def Dev.cutShort (d : Dev) : Dev :=
  let d := d.ctxs.foldl (fun (d : Dev) q =>
    match q.2.cmds.head? with
    | none => d
    | some k =>
      match k.st with
      | .copying => d.copyMix k.bytes
      | .pulling => d.pullMix k.bytes
      | .cow j =>
        let o := d.bent (refIdx (bfield k.bytes 20 4))
        d.mixHbm (d.bent j).addr (d.rdHbm o.addr o.bytes)
      | _ => d) d
  (d.runs.filter (fun q => decide (q.2.phase = .commit))).foldl (fun (d : Dev) q => d.rollBack q.2.undo) d

/-- Everything outside the always-on island returns to its state after reset; `setup` keeps partition set-up and the settings of Lammas and
League (Table 5). Kept are the Leap maps, fenced units, wear counts and repairs, the image RAM and Almanac. -/
def Dev.clearPart (d : Dev) (setup : Bool) : Dev :=
  let d := d.cutShort
  let z := Dev.reset
  let causes := (d.pwr.alertCause || d.pwr.alertHold.isSome, d.pwr.tripCause || d.pwr.tripHold.isSome)
  let d := d.keepRegs (fun o => islandReg o || (setup && setupReg o))
  let d := (List.range 16).foldl (fun (d : Dev) f => d.set (F.PWR_PART_CFG.RING_OPP f) (getFld (F.PWR_PART_CFG.RING_OPP f) (d.rst0 (R.PWR_PART_CFG f)))) d
  let d := { d with
    coll := { d.coll with blockResets := [] },
    rst := { d.rst with chipAt := none, linkUp := false, entering := 0, low := 0 },
    safe := { d.safe with replay := none, replayWait := false, replayStatus := none },
    frame := { d.frame with
      vigilDone := true, roster := [], rosterDigest := 0, rosterFrame := 0, rosterTick := 0, received := none, agreed := [], agreeDone := true, disagreed := false,
      banks := [[], []], copying := none, switchWait := false, variant := none, phase := none, tasks := [], partSlow := [], late := [] },
    ctxs := [], runs := [], turns := [], flags := [], mods := [], tdt := [], kv := z.kv, lnk := z.lnk, lam := [], rpl := z.rpl,
    cfg := [],
    mem := { d.mem with hbmLanes := [], hbmRows := [], patrolFrom := d.now },
    leap := { d.leap with dieLost := [], oldCode := [], wearSnap := [] },
    pwr := { z.pwr with
      telemetry := d.pwr.telemetry, alertCause := d.pwr.alertCause, tripCause := d.pwr.tripCause, alertHold := d.pwr.alertHold,
      tripHold := d.pwr.tripHold, energyAt := d.now },
    sec := { d.sec with staging := [], from_ := 0, att := none, fuse := none, svn := none } }
  let d := (d.loseSram.dropSlices).applyRows (fun key => keyUnit key == hubUnit 0x50)
  let d := (d.countPoison).set F.PWR_STAT.EFF_CAP_W (d.effCap / 1000)
  let d := (d.set F.PWR_STAT.ALERT (b2n causes.1)).set F.PWR_STAT.TRIP (b2n causes.2)
  if causes.1 || causes.2 then d.forceLow else d

/-! ## Cold reset (R480, R486, R524) -/

/-- PORST_N_ASSERT: a low level of `ns` nanoseconds. From a recognised level on the block is held until it is released. DEDUCED: log entry 165. -/
def Dev.porst (d : Dev) (ns : Nat) : Dev :=
  if ns < 100 then d else
  let d1 := { d with rst := { d.rst with held := true }, coll := { d.coll with ready := false } }
  if 10000 ≤ ns then d1 else if Config.freeBool d.fresh then d1.take else d.take
def execPorstNAssert (ns : Nat) (s : State) : Res := .next (s.updAlways (fun d => d.porst ns))

/-- What a signal does during a cold reset (Table 1 of R519). -/
def Signal.coldLevel : Signal → Level
  | .csi => .highZ
  | .pcie => .idle
  | .refclk => .input
  | .eth => .idle
  | .league => .idle
  | .xspiClk => .low
  | .xspiCsN => .high
  | .xspiDqs => .input
  | .xspiDq => .pullDown
  | .xspiResetN => .low
  | .mgmt => .highZ
  | .mgmtAddr => .sampled
  | .pmb => .highZ
  | .pwrAlertN => .ignored
  | .tdo => .highZ
  | .porstN => .input
  | .perstN => .ignored
  | .bootsel => .sampled
  | .errOutN => .low
  | .errInN => .ignored
  | .osc25 => .input
  | .tio => .pullDown
  | .vsense => .connected
/-- What a signal does now, where the rules tell: from a recognised PORST_N on that of Table 1 (R524), and the level of ERR_OUT_N (R372). -/
def Dev.level (d : Dev) (s : Signal) : Option Level :=
  if d.rst.held then some s.coldLevel else if s = .errOutN then some (if d.errOutLow then .low else .high) else none

/-- A cluster as the journal restores it: loans and rotations in waiting are not part of the map. DEDUCED: log entry 38. -/
def Clu.restored (c : Clu) : Clu :=
  { c with engPrev := 0, pcPrev := 0, seqTest := 0, engDue := none, pcDue := none, loan := none, loanAsk := none, lent := false }
/-- The block after a cold reset, before its image is read: fuses, flash and its journal, and the memory of the host are left; the
regulators that answer on PMBus, of the addresses 0x40 to 0x47, form the telemetry set (R523). DEDUCED: log entry 38. -/
def Dev.coldClear (d : Dev) (bootsel mgmtAddr : Nat) (refclk : Bool) (devs : List Nat) : Dev :=
  let z := Dev.reset
  let d1 := { z with
    fresh := d.fresh, fuses := d.fuses, nextRun := d.nextRun, out := d.out,
    rst := { z.rst with hbmReady := false, linkUp := false, refclk := refclk, bootsel := bootsel % 4, mgmtAddr := mgmtAddr % 4 },
    regs := { z.regs with cur := d.regs.cur.filter (fun q => decide (R.MEM_HBM_REPAIR 0 ≤ q.1) && decide (q.1 < R.MEM_HBM_REPAIR 2)) },
    mem := { d.mem with hbm := ⟨[], []⟩, poison := [], hbmLanes := [], hbmRows := [], patrolFrom := 0 },
    coll := { z.coll with ready := false },
    leap := { d.leap with
      clus := d.leap.journal.map Clu.restored, journal := d.leap.journal.map Clu.restored, units := d.leap.wearJournal, dieLost := [],
      wornAt := 0, wearSnap := [], oldCode := [] },
    pwr := { z.pwr with telemetry := some (devs.filter (fun i => decide (i < 8))) },
    sec := { z.sec with flash := d.sec.flash } }
  d1.loseSram.applyRows (fun _ => true)
/-- Boot-over-link by path `src` (R497): no image runs. DEDUCED: log entry 167. -/
def Dev.enterOverLink (d : Dev) (src : Nat) : Dev :=
  Dev.set { d with sec := { d.sec with overLink := true, running := some [] }, coll := { d.coll with ready := false } } F.SEC_STAT.BOOT_SRC src
/-- The flash image is checked and started (R486). The image the part was delivered with has SVN 0 and no integrator signature.
DEDUCED: log entry 167. -/
def Dev.bootFlash (d : Dev) : Dev :=
  if (match d.sec.flash with
      | none => d.needInt || decide (0 < d.fuses.svn)
      | some b => d.imageErr b != 0) then d.enterOverLink 1
  else (d.runImage (d.sec.flash.map (fun b => b.take (bfield b 8 4)))).startFirmware
/-- MASK_ROM_BOOT. -/
def Dev.maskRomBoot (d : Dev) (bootsel mgmtAddr : Nat) (refclk : Bool) (devs : List Nat) : Dev :=
  if !d.rst.held then d else
  let d := d.coldClear bootsel mgmtAddr refclk devs
  if bootsel % 4 = 1 then d.enterOverLink 2 else d.bootFlash
def execMaskRomBoot (bootsel mgmtAddr : Nat) (refclk : Bool) (devs : List Nat) (s : State) : Res :=
  .next (s.updAlways (fun d => d.maskRomBoot bootsel mgmtAddr refclk devs))

/-- REFCLK_DETECT (R42). -/
def Dev.refclkDetect (d : Dev) : Dev := { d with rst := { d.rst with refclk := true } }
def execRefclkDetect (s : State) : Res := .next (s.upd Dev.refclkDetect)

/-! ## Warm reset (R487, R500 to R503) -/

/-- A warm reset begins. DEDUCED: log entries 80, 162, 163. -/
def Dev.warmBegin (d : Dev) (cause : Nat) (keep : Bool) : Dev :=
  let d := d.clearPart true
  let d := { d with rst := { d.rst with warm := true, hbmReady := false, keepHbm := keep } }
  ((d.set F.HIF_RST_CAUSE.CAUSE cause).set F.HIF_RST_CAUSE.HBM_KEPT (b2n keep)).addSat F.HIF_RST_CAUSE.WARM_COUNT 1
/-- A warm reset starts; one in progress takes the request with no further effect (R501). -/
def Dev.warmStart (d : Dev) (cause : Nat) (keep : Bool) : Dev := if d.rst.warm then d else d.warmBegin cause keep
/-- HBM that was being zeroed when a new warm reset that keeps it began: which granules have been zeroed is not stated, a free choice for
each. DEDUCED: log entry 124. -/
def Dev.partZero (d : Dev) : Dev :=
  if !d.rst.warm || d.rst.keepHbm || d.rst.hbmReady then d else
  let keep := fun (a : Nat) => Config.freeBool (d.fresh + a / 64)
  let m := d.mem.hbm
  Dev.setPoison { d with
    fresh := d.fresh + 805306368,
    mem := { d.mem with hbm := ⟨m.cells.filter (fun c => keep c.1), m.undef⟩ } } (d.mem.poison.filter keep)
/-- WARM, by the physical function; not in Keep, whose link is off. DEDUCED: log entry 164. -/
def Dev.warmWrite (d : Dev) : Dev := if d.rst.low = 2 then d else d.warmStart 1 (d.on F.SAF_WARM.WARM_KEEP)
def execWarm (s : State) : Res := .next (s.upd Dev.warmWrite)
/-- CHIP_RESET_START (R369). DEDUCED: log entry 164. -/
def Dev.chipStart (d : Dev) (t : Nat) : Dev :=
  match d.rst.chipAt with
  | none => d
  | some due => if Nat.max d.now t < due || d.rst.low == 2 then d else (d.at_ t).warmStart 2 (d.on F.SAF_WARM.WARM_KEEP)
def execChipResetStart (t : Nat) (s : State) : Res := .next (s.upd (fun d => d.chipStart t))

/-- WARM_RESET_RESTART: the running area is checked, and the firmware starts again or the part enters boot-over-link. League ports that are
enabled retrain (R431, R508). -/
def Dev.warmRestart (d : Dev) : Dev :=
  if !d.rst.warm then d else
  let d := Dev.set (Dev.rotAfresh { d with rst := { d.rst with warm := false } }) F.SAF_WARM.WARM_KEEP 0
  if d.runIntact then (List.range 6).foldl (fun (d : Dev) p => if d.full && d.portWanted p then d.train p else d) d else d.enterOverLink 1
def execWarmResetRestart (s : State) : Res := .next (s.upd Dev.warmRestart)

/-- HBM_AVAILABLE: content that is not kept has been zeroed, and no poison remains in it; a SWITCH that has waited for HBM is validated. -/
def Dev.hbmAvailable (d : Dev) (mem : List MemErr) : Dev :=
  if d.rst.hbmReady || d.rst.low != 0 then d else
  let d := if d.rst.keepHbm then d else Dev.setPoison { d with mem := { d.mem with hbm := ⟨[], []⟩ } } []
  let d := { d with rst := { d.rst with hbmReady := true } }
  if d.frame.switchWait then
    Dev.switchNow (Dev.set { d with frame := { d.frame with switchWait := false } } F.SCH_ORDO_CTRL.BUSY 0) mem
  else d
def execHbmAvailable (mem : List MemErr) (s : State) : Res := .next (s.upd (fun d => d.hbmAvailable mem))

/-! ## Link and function resets (R504, R505) -/

/-- A reset drops the commands of a context but its first `n`: one of the restart manifest among them ends, with a final status that the
spec does not name, a free value other than OK (R250, R386). DEDUCED: log entry 127. -/
def Dev.cutReplay (d : Dev) (key n : Nat) : Dev :=
  if (((d.ctx key).map (fun c => c.cmds.drop n)).getD []).any RingCmd.replays then
    Dev.take { d with safe := { d.safe with replayStatus := some (1 + Config.freeNat d.fresh 0 % 17) } }
  else d
/-- The rings of the contexts that `p` selects end, by a link reset or by that of a function. No record is written. A dispatched unload or
page copy finishes, a COPY or PULL leaves its mix, ring commands are dropped unless they commit: such a one goes on without its context.
Contexts that a bank pins stay, without rings; the others are gone, and their windows stay (Table 5 of R508). DEDUCED: log entry 81.
DESIGN CHOICE: log entry 168. -/
def Dev.endRings (d : Dev) (p : Nat → Bool) (link : Bool) : Dev :=
  let keys := (d.ctxs.filter (fun q => p q.1)).map Prod.fst
  let d := keys.foldl (fun (d : Dev) key =>
    (d.cutReplay key 1).modCtx key (fun c => { c with attached := false, vector := 0, cmds := c.cmds.take 1 })) d
  let d := keys.foldl (fun (d : Dev) key =>
    match d.head key with
    | none => d
    | some k =>
      match k.st with
      | .cow _ => d.cowCopyDone key []
      | .unloading id => Dev.endHead { d with mods := merase d.mods id } key stOk 0 0 0
      | .copying => d.copyMix k.bytes
      | .pulling => d.pullMix k.bytes
      | _ => d) d
  let d := (d.runs.filter (fun q => !q.2.ordo && p q.2.key)).foldl (fun (d : Dev) q =>
    if !q.2.inCommit then d.dropRun q.1 else
    let n := 1 + 2 * b2n ((((d.ctx q.2.key).map Ctx.cmds).getD []).any RingCmd.replays) + 4 * b2n (!d.pinned q.2.key) + 8 * b2n link
    (d.modRun q.1 (fun r => { r with ctx := r.ctx + n * 0x100000 })).modCtx q.2.key (fun c => { c with cmds := [] })) d
  keys.foldl (fun (d : Dev) key =>
    let d := d.cutReplay key 0
    if d.pinned key then
      { d.modCtx key (fun c => { c with
          cmds := [], ending := none, fetch := 0, tail := 0, heldTail := none, heldHead := none, unsig := 0, unsigSince := none }) with
        turns := d.turns.filter (fun k => k != key) }
    else d.dropCtx key) d
/-- A link or function reset is wider than a block reset and takes over: block resets in progress, and an entry to a low-power state, are
abandoned (R501). What waited for one is a candidate again. DEDUCED: log entry 162. -/
def Dev.takeOver (d : Dev) : Dev :=
  let d := d.abandonEntry
  { d with
    coll := { d.coll with blockResets := [] },
    runs := d.runs.map (fun (q : Nat × Run) => match q.2.phase with
      | .blockReset _ => (q.1, { q.2 with phase := .cand })
      | _ => q) }
/-- LINK_RESET. -/
def Dev.linkReset (d : Dev) : Dev :=
  if d.rst.warm || d.rst.low == 2 then d else
  let d := ((d.takeOver.endRings (fun _ => true) true).emptyMems (cluMems (List.range d.nClus) ++ regMems (List.range d.nReg))).resetCfg
  (List.range 16).foldl Dev.resetFn { d with rst := { d.rst with linkUp := false } }
def execLinkReset (s : State) : Res := .next (s.upd Dev.linkReset)

/-- The clusters of partition `f`, and the regions whose every cluster is one of them. -/
def Dev.partMems (d : Dev) (f : Nat) : List Nat :=
  let own := fun k => decide (k < d.nClus) && d.cluPart k == f
  cluMems ((List.range d.nClus).filter own) ++ regMems ((List.range d.nReg).filter (fun r => [0, 1, 2, 3].all (fun j => own (4 * r + j))))
/-- FUNCTION_RESET, in the order of R505; one requested during a link reset joins it (R501). DEDUCED: log entry 81. -/
def Dev.functionReset (d : Dev) (f : Nat) : Dev :=
  if d.rst.warm || d.rst.low == 2 || d.linkResetting || 16 ≤ f then d else
  let d := d.takeOver.killWhere (fun r => r.ordo && r.part == f) stInvalidated 5
  let d := (d.endRings (fun key => key / 4096 == f) false).emptyMems (d.partMems f)
  let d := { d with mods := d.mods.filter (fun m => m.2.part != f || d.bankNames (fun s => s.modId == m.1)),
                    tdt := d.tdt.map (fun (q : Nat × TDesc) => (q.1, if q.2.part = f then { q.2 with valid := false } else q.2)) }
  let d := (d.kvEnd f).closeWhere (fun w => w.part == f)
  let d := { d with lnk := { d.lnk with maps := d.lnk.maps.filter (fun q => q.2.part != f) } }
  let d := if d.on F.RPL_CTRL.BUSY && d.rplPart == f then d.rplStop else d
  (d.resetFn f).modCfg f (fun _ => cfgInit)
def execFunctionReset (fn : Nat) (s : State) : Res := .next (s.upd (fun d => d.functionReset fn))

/-! ## Doze and Keep (R506, R507) -/

/-- Is a Doze or Keep request refused: a valid variant in a bank, a command on engines, a replay session, a low-power state, or a reset
in progress (R501)? DEDUCED: log entry 162. -/
def Dev.lpRefused (d : Dev) : Bool :=
  d.frame.banks.any (fun b => b != []) || d.runs.any (fun q => q.2.holds) || d.on F.RPL_CTRL.BUSY || d.rst.low != 0 ||
  d.rst.entering != 0 || d.rst.warm || d.resetting || d.coll.blockResets != []
/-- A request for low-power state `n`. -/
def Dev.lpRequest (d : Dev) (n : Nat) : Dev :=
  if d.lpRefused then d.set F.PWR_LP_CTRL.REFUSED 1
  else Dev.set { d with rst := { d.rst with entering := n } } F.PWR_LP_CTRL.STATE 2
/-- DOZE. -/
def execDoze (s : State) : Res := .next (s.upd (fun d => d.lpRequest 1))
/-- KEEP. -/
def execKeep (s : State) : Res := .next (s.upd (fun d => d.lpRequest 2))

/-- In Keep every MAC is off: the trackers of the vehicle domains pass to HOLDOVER (R421, R507). -/
def Dev.allHoldover (d : Dev) : Dev :=
  d.watchHold (fun d => (List.range 2).foldl (fun (d : Dev) i => if d.domState i == 2 || d.domState i == 3 then d.setDom i 4 else d) d)
/-- LOW_POWER_ENTERED. What STATE reads in Keep is not stated: a free value. -/
def Dev.lpEntered (d : Dev) : Dev :=
  match d.rst.entering with
  | 0 => d
  | 1 =>
    let d := d.loseSram.dropSlices
    Dev.set { d with rst := { d.rst with entering := 0, low := 1 },
                     lam := d.lam.map (fun (q : Nat × Stream) => (q.1, { q.2 with frame := none, sweep := none })) }
      F.PWR_LP_CTRL.STATE 1
  | _ =>
    let wake := d.f F.PWR_LP_WAKE.TIME
    let d := d.clearPart false
    let d := { d with rst := { d.rst with low := 2, hbmReady := false, keepHbm := false } }
    (d.allHoldover.set F.PWR_LP_WAKE.TIME wake).take.set F.PWR_LP_CTRL.STATE (Config.freeNat d.fresh 0)
def execLowPowerEntered (s : State) : Res := .next (s.upd Dev.lpEntered)

/-- Every unit in service or spare is under test before its next command (R507). DEDUCED: log entry 39. -/
def Dev.testAll (d : Dev) : Dev :=
  ((d.wearUnits).filter (fun u => [0, 1, 6].contains (unitKind u) && d.unitState u != 3)).foldl
    (fun (d : Dev) u => d.modUnit u (fun s => { s with testing := true, slicing := false, slices := 0, turn := false })) d
/-- May the requester write the register: the physical function while BAR0 decodes the block, Computus, which sleeps in Keep, or the
management port (R499, R507)? -/
def Dev.mayWake (d : Dev) : Who → Bool
  | .pf => d.rst.low != 2 && !d.sec.overLink
  | .computus => d.rst.low != 2
  | .mgmt => true
  | _ => false
/-- WAKE. DEDUCED: log entry 39. -/
def Dev.wake (d : Dev) (who : Who) (mem : List MemErr) : Dev :=
  if !d.mayWake who then d else
  match d.rst.low with
  | 0 => d
  | 1 =>
    if d.on F.PWR_LP_CTRL.THERMAL && (d.hereJ d.pwr.junction).any (fun x => decide (d.warnJ ≤ x)) then d.set F.PWR_LP_CTRL.REFUSED 1 else
    let d := { d with rst := { d.rst with low := 0 } }
    let d := (((d.set F.PWR_LP_CTRL.STATE 0).set F.PWR_LP_CTRL.THERMAL 0).testAll).rotAfresh
    (d.ctxs.map Prod.fst).foldl (fun (d : Dev) key => d.bellAct key mem true) d
  | _ => d.warmStart 4 false
def execWake (who : Who) (mem : List MemErr) (s : State) : Res := .next (s.upd (fun d => d.wake who mem))
/-- KEEP_WAKE_TIME. -/
def Dev.keepWake (d : Dev) (t : Nat) : Dev :=
  let w := d.f F.PWR_LP_WAKE.TIME
  if d.rst.low != 2 || w == 0 || Nat.max d.now t < w then d else (d.at_ t).warmStart 4 false
def execKeepWakeTime (t : Nat) (s : State) : Res := .next (s.upd (fun d => d.keepWake t))

/-- THERMAL_SHUTDOWN (R478, R506): every command is killed with a final status, which the spec does not name, and the part goes to Doze,
also from an entry to Keep or from a warm reset; in Doze the dies are off already, and in Keep no sensor is powered. DEDUCED: log entry 156. -/
def Dev.thermalOff (d : Dev) (t : Nat) : Dev :=
  if d.rst.low == 2 then d else
  let d := d.at_ t
  if d.rst.low == 1 then d.raise 0x1E4 (hubUnit 0x82) 0 0 else
  let st := 1 + Config.freeNat d.fresh 0 % 17
  let d := (d.take.killWhere (fun _ => true) st 5).killHeads (fun _ => true) st
  let d := { d with rst := { d.rst with entering := 1 } }
  ((d.set F.PWR_LP_CTRL.STATE 2).set F.PWR_LP_CTRL.THERMAL 1).raise 0x1E4 (hubUnit 0x82) 0 0
def execThermalShutdown (t : Nat) (s : State) : Res := .next (s.upd (fun d => d.thermalOff t))

/-! ## The loss of a die (R33) -/

/-- The clusters and the regions of a die. DEDUCED: log entry 36. -/
def dieClus (die : Nat) : List Nat := (List.range 12).map (fun k => 12 * die + k)
def dieRegs (die : Nat) : List Nat := (List.range 3).map (fun r => 3 * die + r)
/-- DIE_LOST: what runs on the die is killed for a re-run, and nothing of it is in service until a warm reset. The content of its HBM stack
is lost. DEDUCED: log entry 36. -/
def Dev.loseDie (d : Dev) (die t : Nat) : Dev :=
  if d.nReg ≤ 3 * die || d.leap.dieLost.contains die then d else
  let d := d.at_ t
  let units := (dieClus die).flatMap cluUnits ++ (dieRegs die).map (regUnit 6)
  let e := ((dieClus die).foldl Dev.killClu d).killOn (fun u => unitDie u == die) none
  let e := (dieClus die).foldl Dev.dropLoan (units.foldl Dev.abandon e)
  let e := ((dieClus die).map cspUnit ++ (dieRegs die).map (regUnit 4)).foldl Dev.forgetMem e
  let e := { e with leap := { e.leap with dieLost := insNat e.leap.dieLost die } }
  let e := Dev.take { e with mem := { e.mem with hbm := e.mem.hbm.forget (die * 0x600000000) ((die + 1) * 0x600000000) e.fresh } }
  (d.track units e).raise 0x085 (hbmUnit die) 0 0
def execDieLost (die t : Nat) (s : State) : Res := .next (s.upd (fun d => d.loseDie die t))

end Sys2Proof.Machine
end

