-- ==== Sys2Proof/Machine/Safe.lean ====
section
/-!
DEFINITION. Safe states (R377 to R385, R388, R389): the entry that an NMI makes, safe state B and its release, safe state A and its window,
and the loss of a Computus pair.
-/
namespace Sys2Proof.Machine

/-! ## Safe state B (R382 to R384, R389) -/

/-- Is partition `f` in a mask? -/
def inMask (mask f : Nat) : Bool := maskHas mask f
/-- The commands in commit end with INVALIDATED after it; what was to end their tasks by itself stays a reason of those (R62). -/
def Dev.stopCommits (d : Dev) (mask : Nat) : Dev :=
  (d.runs.filter (fun q => inMask mask q.2.part && q.2.inCommit)).foldl (fun (d : Dev) q =>
    let old := if q.2.endKill = some 10 then [] else q.2.endKill.toList
    let d := d.modRun q.1 (fun r => { r with endKill := some 10 })
    if q.2.ordo && q.2.frame == d.frame.frameNo then d.modTask q.2.task (fun k => { k with reasons := k.reasons ++ old }) else d) d
/-- A task of the frame that no command has begun is withdrawn (R382). -/
def Dev.withdraw (d : Dev) (mask : Nat) (k : Task) : Task :=
  if !k.ended && k.skipped.isNone && k.next == 0 && !d.frame.vigilDone && ((d.slotOf k.slot).map (fun s => inMask mask s.part)).getD false &&
    !d.runs.any (fun q => q.2.ordo && q.2.frame == d.frame.frameNo && q.2.task == k.slot && q.2.dispatched) then
    { k with ended := true, endedAt := d.now, reasons := k.reasons ++ [10] }
  else k
/-- The commands of the partitions in the mask are killed, their undispatched tasks are withdrawn, those of phases to come too, and
commands in commit end with INVALIDATED after it (R382). -/
def Dev.stopParts (d : Dev) (mask : Nat) : Dev :=
  let d := d.stopCommits mask
  let e := Dev.phaseDone { d with frame := { d.frame with tasks := d.frame.tasks.map (d.withdraw mask) } }
  let e := (e.runs.filter (fun q => inMask mask q.2.part && q.2.ordo && !q.2.dispatched && q.2.cmdIdx == 0)).foldl (fun (d : Dev) q => d.dropRun q.1) e
  (e.killWhere (fun r => inMask mask r.part) stInvalidated 10).killHeads (fun key => inMask mask (key / 4096)) stInvalidated
/-- Enter safe state B for the partitions of a mask: nothing is done again for one that is held, and a pending clear of its bit is
cancelled. The entry applies to the frame being judged until its Vigil. DEDUCED: log entry 52. -/
def Dev.enterB (d : Dev) (mask : Nat) : Dev :=
  let b := d.f F.SAF_SAFE_STAT.B_PART
  let m := BitVec.ofNat 16 mask
  let d := d.stopParts (m &&& ~~~ BitVec.ofNat 16 b).toNat
  let d := { d with safe := { d.safe with
    bClear := d.safe.bClear &&& ~~~ m, bFrame := if d.frame.vigilDone then d.safe.bFrame else d.safe.bFrame ||| m } }
  d.set F.SAF_SAFE_STAT.B_PART (m ||| BitVec.ofNat 16 b).toNat
/-- B_PART_CLEAR: a release at the next tick. With no Computus pair left the part stays as it is until a cold reset (R388). DEDUCED: log entry 126. -/
def Dev.bPartClear (d : Dev) (mask : Nat) : Dev :=
  if d.on F.SAF_SAFE_STAT.NO_COMPUTUS then d else
  { d with safe := { d.safe with bClear := d.safe.bClear ||| (BitVec.ofNat 16 mask &&& BitVec.ofNat 16 (d.f F.SAF_SAFE_STAT.B_PART)) } }
def execBPartClear (mask : Nat) (s : State) : Res := .next (s.upd (fun d => d.bPartClear mask))

/-! ## Safe state A (R379, R380, R385) -/

/-- A_WINDOW_S in ns. DEDUCED: log entry 124. -/
def Dev.aWindow (d : Dev) : Nat := d.f F.SAF_SAFE_CFG.A_WINDOW_S * 1000000000
/-- A_WINDOW_EXPIRY. -/
def Dev.windowEnd (d : Dev) (t : Nat) : Dev :=
  match d.safe.aFirst with
  | none => d
  | some a =>
    if Nat.max d.now t < a + d.aWindow then d else
    let d := d.at_ t
    Dev.set { d with safe := { d.safe with aFirst := none } } F.SAF_SAFE_STAT.A_COUNT 0
def execAWindowExpiry (t : Nat) (s : State) : Res := .next (s.upd (fun d => d.windowEnd t))

/-- Enter safe state A: a warm reset that keeps HBM, a new one where one is in progress (R389), after which the restart manifest is
replayed. DEDUCED: log entry 124. -/
def Dev.enterA (d : Dev) : Dev :=
  let d := d.partZero
  let d := { d with safe := { d.safe with aFirst := d.safe.aFirst.or (some d.now), replayDue := true, bClear := 0, replay := none } }
  ((d.addSat F.SAF_SAFE_STAT.A_COUNT 1).set F.SAF_WARM.WARM_KEEP 1).warmBegin 3 true
/-- The ERR latch of a source (R380). -/
def Dev.latch (d : Dev) (src : Nat) : Dev := { d with coll := { d.coll with latch := setBit512 d.coll.latch src } }
/-- The entry in SAF_SAFE_LAST and SAF_SAFE_TS. KIND is 1 for B, 2 for A, 3 for B forced by the restart limit. DEDUCED: log entry 125. -/
def Dev.safeLast (d : Dev) (e : FaultEv) (kind : Nat) : Dev :=
  ((((d.set F.SAF_SAFE_LAST.SOURCE e.src).set F.SAF_SAFE_LAST.MASTER e.master).set F.SAF_SAFE_LAST.KIND kind).set F.SAF_SAFE_LAST.VALID 1).set
    F.SAF_SAFE_TS.TS d.now

/-- What an NMI makes the active pair, or the hub, do: the kind of the entry (R379, R388). DEDUCED: log entry 125. -/
def Dev.safeKind (d : Dev) (scope : Nat) : Nat :=
  let mode := if d.on F.SAF_SAFE_STAT.A_EXHAUSTED then 0 else d.f F.SAF_SAFE_CFG.MODE
  let a := mode == 1 || (mode == 2 && scope == 65535)
  if d.on F.SAF_SAFE_STAT.NO_COMPUTUS || !a then 1
  else if d.f F.SAF_SAFE_CFG.A_MAX ≤ d.f F.SAF_SAFE_STAT.A_COUNT then 3 else 2
/-- SAFE_STATE_ENTRY: the oldest NMI is taken. In Keep both pairs sleep. DEDUCED: log entries 126, 129. -/
def Dev.safeEntry (d : Dev) (t : Nat) : Dev :=
  match d.coll.nmi with
  | [] => d
  | (e, scope) :: rest =>
    if d.rst.low = 2 then d else
    let d := { d with coll := { d.coll with nmi := rest } }
    let d := (d.at_ t).windowEnd t
    let k := d.safeKind scope
    let d := (d.latch e.src).safeLast e k
    match k with
    | 1 => d.enterB (if d.on F.SAF_SAFE_STAT.NO_COMPUTUS then 65535 else scope)
    | 2 => d.enterA
    | _ => (d.set F.SAF_SAFE_STAT.A_EXHAUSTED 1).enterB 65535
def execSafeStateEntry (t : Nat) (s : State) : Res := .next (s.upd (fun d => d.safeEntry t))

/-! ## Computus (R388) -/

/-- LOCKSTEP_MISMATCH: one in the active pair hands over to the standby pair, or the hub holds every partition in safe state B, and nobody
goes on with a replay; one in the standby pair takes it out of service, which ends an activation (R495), and the active pair goes on.
DEDUCED: log entry 129. -/
def Dev.lockstep (d : Dev) (pair t : Nat) : Dev :=
  let p := d.safe.pair
  if d.on F.SAF_SAFE_STAT.NO_COMPUTUS || (pair != p && !d.safe.standby) then d else
  let d := (d.at_ t).abandonAct
  let d := d.raise 0x1F0 (hubUnit (0x90 + pair)) 0 0
  if pair ≠ p then { d with safe := { d.safe with standby := false } }
  else if d.safe.standby then
    Dev.raise { d with safe := { d.safe with pair := 1 - p, standby := false } } 0x1F1 (hubUnit (0x90 + (1 - p))) 0 0
  else
    let d := { d with safe := { d.safe with replay := none, replayWait := false, replayStatus := none, replayDue := false } }
    ((d.set F.SAF_SAFE_STAT.NO_COMPUTUS 1).latch 0x1F0).enterB 65535
def execLockstepMismatch (pair t : Nat) (s : State) : Res := .next (s.upd (fun d => d.lockstep pair t))

end Sys2Proof.Machine
end

