-- ==== Sys2Proof/Machine/Tick.lean ====
section
/-!
DEFINITION. The Kalends tick (R44, R46, R47, R53, R306, R328, R384, R410).
-/
namespace Sys2Proof.Machine

/-- What a tick closes: the Vigil, when it falls at the closing tick, the powers of the last phase, the slow-downs, and the energies that
are compared. -/
def Dev.closeTick (d : Dev) : Dev := (((((if d.frame.started && !d.frame.vigilDone then d.vigil else d).at_ d.frame.nextTick).closePhase).frameStats).lateStats).powerCompare
/-- The active bank; what the phases of another bank taught is no longer of use (R469). -/
def Dev.tickBank (d : Dev) (mem : List MemErr) : Dev :=
  if !d.on F.SCH_ORDO_CTRL.PENDING then d else
  let e := (d.bankResident mem).activateBank
  if e.on F.SCH_ORDO_CTRL.PENDING then e else { e with pwr := { e.pwr with learned := [] } }
/-- What a tick starts, in order: releases, bank and staged settings, the sweeps that end at a tick (R84), the roster, the variant of
the frame, and held doorbells. DEDUCED: log entry 42. -/
def Dev.openTick (d : Dev) (mem : List MemErr) : Dev :=
  ((((((((d.newFrame.takeRelease).tickBank mem).takeAssignment).takeRsv).takeEmber).lamTick).freezeRoster).selectVariant).tickBells mem
/-- KALENDS_TICK. During a warm reset and in Keep only the frame count, its times, the releases of safe state B and SAF_EMB_CFG go on.
DEDUCED: log entry 42. -/
def Dev.kalendsTick (d : Dev) (mem : List MemErr) : Dev :=
  if !d.running then d
  else if d.rst.warm || d.rst.low == 2 then (((d.at_ d.frame.nextTick).newFrame).takeRelease).takeEmber
  else d.closeTick.openTick mem
def execKalendsTick (mem : List MemErr) (s : State) : Res := .next (s.upd (fun d => d.kalendsTick mem))

end Sys2Proof.Machine
end

