-- ==== Sys2Proof/Machine/View.lean ====
section
/-!
DEFINITION. What registers read as (R4, R35, R304, R310, R375, R409 to R411, R446, R464, R498, R510, R511, R514): the values that are
computed from the state and stand in no stored register.
-/
namespace Sys2Proof.Machine

/-- How many clusters of the part satisfy a predicate. -/
def Dev.countClu (d : Dev) (p : Clu → Bool) : Nat := ((List.range d.nClus).filter (fun k => p (d.clu k))).length
/-- A mask of the numbers of a list. -/
def maskOf (l : List Nat) : Nat := l.foldl (fun a i => a ||| 2 ^ i) 0

/-- CD_CLU_LEAP (Table 7 of R35). On a cluster that borrows, LEx_PHYS of the logical engine that runs on the loan goes on showing the
cluster's own engine, whose test waits; CD_CLU_LOAN shows the loan. DESIGN CHOICE: log entry 186. -/
def Dev.leapWord (d : Dev) (k : Nat) : Nat :=
  let c := d.clu k
  c.le.getD 0 7 + c.le.getD 1 7 * 2 ^ 3 + c.le.getD 2 7 * 2 ^ 6 + c.le.getD 3 7 * 2 ^ 9 + c.spare * 2 ^ 12 + maskOf c.engFenced * 2 ^ 15 +
  c.pc.getD 0 3 * 2 ^ 20 + c.pc.getD 1 3 * 2 ^ 22 + c.pcSpare * 2 ^ 24 + maskOf c.pcFenced * 2 ^ 26 + c.seqActive * 2 ^ 29 +
  maskOf c.seqFenced * 2 ^ 30
/-- CD_CLU_LOAN (Table 6 of R411). -/
def Dev.loanWord (d : Dev) (k : Nat) : Nat :=
  let c := d.clu k
  (match c.loan with
   | some l => l.le + l.lender * 2 ^ 3 + l.phys * 2 ^ 5
   | none => 7) + b2n c.lent * 2 ^ 8
/-- SAF_SPARE_INV. DEDUCED: log entry 29. -/
def Dev.spareInv (d : Dev) : Nat :=
  d.countClu (fun c => c.spare != 7) + d.countClu (fun c => c.pcSpare != 3) * 2 ^ 6 +
  d.countClu (fun c => !c.seqFenced.contains (1 - c.seqActive)) * 2 ^ 12 + d.countClu Clu.fenced * 2 ^ 18 +
  d.leap.regFenced.length * 2 ^ 23 + d.leap.attnFenced.length * 2 ^ 26 + b2n d.safe.standby * 2 ^ 29
/-- SAF_EMB_OLDEST: the largest AGE_MS, the lowest identifier on a tie. -/
def Dev.oldestUnit (d : Dev) : Nat :=
  let us := (d.wearUnits).filter (fun u => [0, 1, 6].contains (unitKind u))
  let best := us.foldl (fun (a : Option (Nat × Nat)) u =>
    let g := d.ageMs u
    match a with
    | none => some (u, g)
    | some (v, h) => if h < g ∨ (h = g ∧ u < v) then some (u, g) else some (v, h)) none
  match best with
  | some (u, g) => u + g * 2 ^ 16
  | none => 0
/-- Is power domain `n` powered (Table 1 of R464)? DEDUCED: log entry 31. -/
def Dev.domOn (d : Dev) (n : Nat) : Bool :=
  let dies := d.rst.low == 0 && d.rst.refclk && !d.on F.PWR_LP_CTRL.THERMAL
  let hub := d.rst.low != 2
  if n < 120 then
    let k := n / 60 * 12 + n % 60 / 20 * 4 + n % 20 / 5
    dies && decide (k < d.nClus) && d.unitState (engUnit k (n % 5)) != 3
  else if n < 192 then
    let m := n - 120
    let k := m / 36 * 12 + m % 36 / 12 * 4 + m % 12 / 3
    dies && decide (k < d.nClus) && d.unitState (pcUnit k (m % 3)) != 3
  else if n < 216 then dies && !d.cluOut (n - 192)
  else if n < 222 then dies && !d.regOut (n - 216)
  else if n < 228 then dies && d.attnOk (n - 222)
  else if n < 244 then hub && d.on (F.LAM_PORT_CFG.EN (n - 228))
  else if n < 250 then hub && d.full && d.portWanted (n - 244) && (d.neighbour (n - 244)).isSome
  else if n = 250 then hub
  else if n = 251 then d.full && d.on F.RPL_CTRL.BUSY
  else false
/-- PWR_DOM_STAT `j`. -/
def Dev.domWord (d : Dev) (j : Nat) : Nat := maskOf ((List.range 32).filter (fun i => d.domOn (32 * j + i)))

/-- FLT_SRC_CNT of a source at the present time. -/
def Dev.srcCnt (d : Dev) (id : Nat) : Nat :=
  let s := d.coll.src id
  (if d.coll.severe.getLsbD id then s.thresh else match s.winEnd with
    | some e => if d.now < e then s.count else 0
    | none => 0) + s.total * 2 ^ 8
/-- The first-error record as a requester sees it (R375): its snapshot, or the live record. -/
def Dev.recFor (d : Dev) (who : Who) : Snap :=
  let live : Snap := ⟨d.coll.first, d.coll.mergeCnt, d.coll.merged⟩
  match who with
  | .pf => d.coll.snapPf.getD live
  | .computus => d.coll.snapC.getD live
  | _ => live
/-- FLT_FIRST_INFO of a record. -/
def firstInfo (s : Snap) : Nat :=
  match s.first with
  | some r => r.ev.master + r.ev.src * 2 ^ 16 + r.ev.acc * 2 ^ 25 + b2n r.severe * 2 ^ 28 + 2 ^ 31
  | none => 0
/-- Word `i` of a 512-bit status. -/
def word512 (v : BitVec 512) (i : Nat) : Nat := v.toNat / 2 ^ (32 * i) % 2 ^ 32

/-- The context selected by SCH_CTX_SEL. DEDUCED: log entry 23. -/
def Dev.selKey (d : Dev) : Nat := ckey (d.f F.SCH_CTX_SEL.PART) (d.f F.SCH_CTX_SEL.CTX)
/-- SCH_CTX_STATE of the selected context. -/
def Dev.ctxState (d : Dev) : Nat :=
  match d.ctx d.selKey with
  | none => 0
  | some c => 1 + b2n c.resident * 2 + b2n (d.pinned d.selKey) * 4 + b2n (d.runs.any (fun q => q.2.key == d.selKey && q.2.holds)) * 8
/-- A field of the selected context; 0 when it does not exist (R310). -/
def Dev.selCtx (d : Dev) (g : Ctx → Nat) : Nat := ((d.ctx d.selKey).map g).getD 0
/-- LNK_WIN_STAT. -/
def Dev.winStat (d : Dev) : Nat :=
  let w := d.window (d.f F.LNK_WIN_SEL.WINDOW)
  b2n w.opened + b2n w.rw * 2 + w.part * 4 + w.epoch * 2 ^ 16
/-- SEC_STAT. -/
def Dev.secStat (d : Dev) : Nat :=
  d.f F.SEC_STAT.BOOT_SRC + d.fuses.svn * 2 ^ 2 + imgSvn d.sec.running * 2 ^ 9 + imgAbi d.sec.running * 2 ^ 16 + b2n d.fuses.provisioned * 2 ^ 24 +
  b2n d.fuses.intKeyEn * 2 ^ 25 + b2n d.fuses.intRequire * 2 ^ 26

/-! ## The value of a register -/

/-- Registers of the collector. -/
def Dev.viewFlt (d : Dev) (who : Who) (r : RegDesc) (i : Nat) (v : Nat) : Nat :=
  let a := r.addr
  let s := d.coll.src (d.f F.FLT_SRC_SEL.ID)
  if a = R.FLT_SRC_CFG then s.thresh + s.minor * 2 ^ 8 + s.severe * 2 ^ 13
  else if a = R.FLT_SRC_WIN then s.windowMs
  else if a = R.FLT_SRC_CNT then d.srcCnt (d.f F.FLT_SRC_SEL.ID)
  else if a = R.FLT_PENDING 0 then word512 d.coll.pending i
  else if a = R.FLT_SEVERE 0 then word512 d.coll.severe i
  else if a = R.FLT_ERRLATCH 0 then word512 d.coll.latch i
  else if a = R.FLT_FIRST_ADDR then (((d.recFor who).first).map (fun r => r.ev.addr)).getD 0
  else if a = R.FLT_FIRST_INFO then firstInfo (d.recFor who)
  else if a = R.FLT_FIRST_TS then (((d.recFor who).first).map (fun r => r.ev.t)).getD 0
  else if a = R.FLT_MERGE_CNT then (d.recFor who).mergeCnt
  else if a = R.FLT_MERGED 0 then word512 (d.recFor who).merged i
  else if a = R.FLT_PIN then v - v % 2 + b2n d.errOutLow
  else v
/-- Spare lanes left on stack `i`, over its sixteen channels (R143). -/
def Dev.lanesLeft (d : Dev) (i : Nat) : Nat := sumNat ((List.range 16).map (fun c => d.mem.lanesSpare.getD (16 * i + c) 0))
/-- Registers of the hub that stand for other state. -/
def Dev.viewHub (d : Dev) (r : RegDesc) (i : Nat) (v : Nat) : Nat :=
  let a := r.addr
  if a = R.HIF_ID then d.idReg
  else if a = R.HIF_CAP then d.cap
  else if a = R.ALM_STAT then v % 2 ^ 10 + b2n (d.resid d.now != 0) * 2 ^ 10 + v / 2 ^ 11 * 2 ^ 11
  else if a = R.SAF_SPARE_INV then d.spareInv
  else if a = R.SAF_EMB_OLDEST then d.oldestUnit
  else if a = R.SAF_WEAR_SEL then
    v % 2 ^ 16 + (if d.unitExists (v % 2 ^ 16) && [0, 1, 2, 6].contains (unitKind (v % 2 ^ 16)) then 0 else 2 ^ 16)
  else if a = R.SAF_WEAR_DATA 0 then d.leap.wearSnap.getD i 0
  else if a = R.ALM_KAL_FRAME_LO then d.frame.frameNo % 2 ^ 32
  else if a = R.ALM_KAL_FRAME_HI then d.frame.hiLatch
  else if a = R.PWR_DOM_STAT 0 then d.domWord i
  else if a = R.LNK_WIN_STAT then d.winStat
  else if a = R.KVU_POOL_TOTAL 0 then d.poolTotal i
  else if a = R.KVU_POOL_FREE 0 then d.poolFree i
  else if a = R.KVU_POOL_LARGEST 0 then d.poolLargest i
  else if a = R.KVU_BUSHEL_USED then d.bushelUsed
  else if a = R.KVU_UNIT then
    maskOf d.leap.attnFenced + maskOf (d.runs.filterMap (fun q => if q.2.holds then q.2.attn else none)) * 2 ^ 6
  else if a = R.KVU_ENTRY_DATA 0 then d.kv.snap.getD i 0
  else if a = R.MEM_HBM_REPAIR 0 then
    d.f (F.MEM_HBM_REPAIR.LANES_USED i) + Nat.min 255 (d.lanesLeft i) * 2 ^ 8 + d.f (F.MEM_HBM_REPAIR.ROWS_USED i) * 2 ^ 16 +
    Nat.min 255 (d.mem.rowsSpare.getD i 0) * 2 ^ 24
  else v
/-- Registers of boot, scheduling and the compute dies that stand for other state. -/
def Dev.viewRest (d : Dev) (r : RegDesc) (i : Nat) (v : Nat) : Nat :=
  let a := r.addr
  if a = R.SEC_STAT then d.secStat
  else if a = R.SEC_DIE_ID then d.fuses.dieId
  else if a = R.SEC_UPD_STAT then v % 2 ^ 16 + d.leap.oldCode.length * 2 ^ 16
  else if a = R.SEC_CERT 0 then bfield d.fuses.cert (4 * i) 4
  else if a = R.SCH_CTX_SCHED then d.selCtx (fun c => c.prioNext + c.sliceNext * 4)
  else if a = R.SCH_CTX_STATE then d.ctxState
  else if a = R.SCH_CTX_LAST then d.selCtx Ctx.last
  else if a = R.SCH_CTX_PEAK then d.selCtx Ctx.peak
  else if a = R.SCH_CTX_FRAME then d.selCtx (fun c => c.frAvg + c.frCnt * 2 ^ 16)
  else if a = R.SCH_CTX_PREEMPT then d.selCtx Ctx.preempts
  else if a = R.SCH_FLAG_VAL 0 then d.flag i
  else if a = R.CD0_CLU_LEAP 0 then d.leapWord i
  else if a = R.CD0_CLU_LOAN 0 then d.loanWord i
  else if a = R.CD1_CLU_LEAP 0 then d.leapWord (12 + i)
  else if a = R.CD1_CLU_LOAN 0 then d.loanWord (12 + i)
  else v

/-! ## Who reaches which register (R510, R511, R514) -/

/-- A register that an access reaches: its description, its indices, the byte within it, and its offset with the function number. -/
structure RegHit where
  r : RegDesc
  i : Nat
  j : Nat
  z : Nat
  key : Nat
  deriving DecidableEq, Repr

/-- Is the register in the part (R8, R510)? -/
def Dev.present (d : Dev) (a : Nat) : Bool :=
  let b := a / 0x100000
  if b = 6 ∨ b = 7 then d.full
  else if decide (0x410000 ≤ a) && decide (a < 0x410100) then d.full
  else if 0x2000000 ≤ a then !d.oneDie else true
/-- The registers that the management port reads (R517). DEDUCED: log entry 26. -/
def mgmtReg (a : Nat) : Bool :=
  [R.HIF_ID, R.HIF_CAP, R.FLT_PIN, R.SAF_SAFE_STAT, R.PWR_STAT, R.PWR_PKG_POWER, R.PWR_HBM_TEMP, R.PWR_LP_CTRL].contains a ||
  (List.range 6).any (fun i => a == R.PWR_REG_STAT i)
/-- The registers of Octave and Scruple, which only the physical function reaches (R357). -/
def arbReg (a : Nat) : Bool := decide (R.SAF_OCT_HOLD 0 ≤ a) && decide (a < R.SAF_EMB_CFG)
/-- Does the requester reach the offset? Configuration space and doorbells are no registers of BAR0. DEDUCED: log entry 25. -/
def Dev.reaches (d : Dev) (who : Who) (a : Nat) : Bool :=
  let b := a / 0x100000
  let decoded := !d.sec.overLink || b == 0 || b == 9
  match who with
  | .pf => decoded && decide (a < 0x4000000)
  | .vf n => decide (n < 16) && !d.sec.overLink && (decide (a < 0x20) || (decide (0x1000 ≤ a) && decide (a < 0x1040)))
  | .computus => [1, 2, 5, 9].contains b && !arbReg a
  | .mgmt => decoded && mgmtReg (a / 4 * 4)
  | .cfg _ => false
  | .msix _ => false
  | .bell _ _ => false
/-- The function whose HIF_FN registers a requester sees. -/
def fnOf : Who → Nat
  | .vf n => n
  | _ => 0
/-- The register that an access reaches, if any. -/
def Dev.hitReg (d : Dev) (who : Who) (a : Nat) : Option RegHit :=
  if !d.reaches who a || !d.present a then none else
  match lookupReg a with
  | none => none
  | some (r, i, j, z) => some ⟨r, i, j, z, a - z + (if decide (0x1000 ≤ a) && decide (a < 0x1040) then fnOf who * 4294967296 else 0)⟩
/-- The 64 bits of a register as a requester reads them. -/
def Dev.regValue (d : Dev) (who : Who) (h : RegHit) : Nat :=
  let v := (d.reg h.key).toNat
  let a := h.r.addr
  if a / 0x100000 = 1 then d.viewFlt who h.r h.i v
  else if decide (0x900000 ≤ a) then d.viewRest h.r h.i v
  else d.viewHub h.r h.i v
/-- The 32 bits at an aligned offset; 0 where no register stands. -/
def Dev.regWord (d : Dev) (who : Who) (a : Nat) : Nat :=
  match d.hitReg who a with
  | none => 0
  | some h => d.regValue who h / 2 ^ (8 * h.z) % 2 ^ 32

end Sys2Proof.Machine
end

