-- ==== Sys2Proof/Machine/Regs.lean ====
section
/-!
DEFINITION. Register accesses (R10 to R13, R310, R348, R376, R381, R410, R429, R433, R448, R479, R510 to R517, R525). A write to a field
whose effect has a command of its own has that effect.
-/
namespace Sys2Proof.Machine

/-! ## Writes (R10 to R13, R512, R513) -/

/-- A write of bits `lo` to `hi − 1` of a register: who writes, the register, the written value in place, and the register's stored value
before and after. -/
structure Wr where
  who : Who
  h : RegHit
  lo : Nat
  hi : Nat
  w : Nat
  old : Nat
  new : Nat
  deriving DecidableEq, Repr

/-- Bits `a` to `b − 1` of `v` taken from `w`. -/
def putBits (v a b w : Nat) : Nat := v - bits v (b - 1) a * 2 ^ a + bits w (b - 1) a * 2 ^ a
/-- Does the write touch a field? -/
def FieldDesc.touched (f : FieldDesc) (lo hi : Nat) : Bool := decide (f.lo < hi) && decide (lo ≤ f.hi)
/-- What a write stores in a field by its access type (R10). -/
def storeFld (lo hi w v : Nat) (f : FieldDesc) : Nat :=
  if !f.touched lo hi then v else
  let a := Nat.max f.lo lo
  let b := Nat.min (f.hi + 1) hi
  match f.acc with
  | .rw => putBits v a b w
  | .w1c => putBits v a b ((v &&& w) ^^^ v)
  | _ => v
/-- Is a field's new value inside its range? One that spans both halves is not checked by a write of one half (R513). -/
def fldOk (lo hi new : Nat) (f : FieldDesc) : Bool :=
  f.acc != .rw || !f.touched lo hi || decide (f.lo < lo) || decide (hi ≤ f.hi) ||
  (decide (f.min ≤ bits new f.hi f.lo) && decide (bits new f.hi f.lo ≤ f.max))
/-- Is an address in the written lower half aligned? Bit 0 of a result ring's base names its space (R104). DEDUCED: log entry 28. -/
def alignOk (r : RegDesc) (lo new : Nat) : Bool :=
  r.align == 0 || lo != 0 || (if r.addr = 0x1020 then new / 2 * 2 else new) % 2 ^ r.align == 0
/-- Does the write stay inside every range that the tables state (R13)? DEDUCED: log entry 16. -/
def Wr.inRange (x : Wr) : Bool := x.h.r.fields.all (fldOk x.lo x.hi x.new) && alignOk x.h.r x.lo x.new
/-- The value after a write. DEDUCED: log entry 17. -/
def storeReg (r : RegDesc) (lo hi w old : Nat) : Nat := r.fields.foldl (storeFld lo hi w) old
/-- The stored fields change. -/
def Dev.store (d : Dev) (x : Wr) : Dev := d.setReg x.h.key (BitVec.ofNat 64 x.new)
/-- Does the write set a bit? -/
def Wr.bit (x : Wr) (i : Nat) : Bool := decide (x.lo ≤ i) && decide (i < x.hi) && bitOf x.w i
/-- A field of the register after the write. -/
def Wr.fld (x : Wr) (hi lo : Nat) : Nat := bits x.new hi lo
/-- Does a write change a field? DEDUCED: log entry 18. -/
def Wr.changes (x : Wr) (hi lo : Nat) : Bool := bits x.new hi lo != bits x.old hi lo
/-- Write if in range; refused in silence otherwise. DEDUCED: log entry 16. -/
def Dev.storeIf (d : Dev) (x : Wr) (ok : Bool) : Dev := if x.inRange && ok then d.store x else d

/-- HIF (R103, R500). -/
def Dev.wrHif (d : Dev) (x : Wr) : Dev :=
  let a := x.h.r.addr
  let fn := x.h.key / 4294967296
  if a = R.HIF_FN_CTX_CMD 0 then
    if !x.inRange then d else
    if !x.bit 14 then d.store x else
    let go := fun (op : Nat) (e : Dev) => if op = 0 then e.create fn (x.fld 11 0) else e.endCtx fn (ckey fn (x.fld 11 0)) (op == 1)
    d.ctxCmd fn (x.fld 11 0) (x.fld 13 12) (go (x.fld 13 12))
  else if a = R.HIF_PF_FN_FLAGS 0 then d.storeIf x (decide (x.fld 28 14 + x.fld 13 0 ≤ 16384))
  else if a = R.HIF_RST_CTRL then (if x.bit 0 then d.warmWrite else d)
  else d.storeIf x true

/-- FLT (R363, R365, R370, R371, R376). -/
def Dev.wrFlt (d : Dev) (x : Wr) : Dev :=
  let a := x.h.r.addr
  if a = R.FLT_CTRL then
    let d := d.store x
    if x.bit 8 then d.lock else d
  else if a = R.FLT_SRC_CFG then d.srcCfgWrite x.who false x.w
  else if a = R.FLT_SRC_WIN then d.srcCfgWrite x.who true x.w
  else if a = R.FLT_PENDING 0 then d.pendingClear x.h.i x.w
  else if a = R.FLT_SEVERE 0 then d.severeClear x.h.i x.w
  else if a = R.FLT_FIRST_INFO then (if x.bit 31 then d.validClear else d)
  else if a = R.FLT_PIN then (if d.lockedOut x.who then d.fltBad else d.store x)
  else if a = R.FLT_INJECT then
    if x.bit 31 then d.inject x.who (x.fld 8 0) d.now else if d.lockedOut x.who then d.fltBad else d.store x
  else d.storeIf x true

/-- Is a write a clearing write (R376): ones to write-one-to-clear bits, and every read-write field written as it stands? -/
def Wr.clears (x : Wr) : Bool :=
  x.h.r.fields.any (fun f => f.acc == .w1c && bits x.w f.hi f.lo != 0) && x.h.r.fields.all (fun f => f.acc != .rw || !x.changes f.hi f.lo)
/-- A configuration register with a BAD_CFG bit of its own that LOCK covers: `ok` is the register's own condition. DEDUCED: log entry 18. -/
def Dev.lockedStore (d : Dev) (x : Wr) (bad : Fld) (ok : Bool) : Dev :=
  if (d.lockedOut x.who && !x.clears) || !x.inRange || !ok then d.set bad 1 else d.store x
/-- SAF (R348, R381, R384, R410). -/
def Dev.wrSaf (d : Dev) (x : Wr) : Dev :=
  let a := x.h.r.addr
  if a = R.SAF_SAFE_CFG then d.lockedStore x F.SAF_SAFE_CFG.BAD_CFG true
  else if a = R.SAF_SAFE_STAT then d.bPartClear (x.w % 65536)
  else if a = R.SAF_EMB_CFG then d.lockedStore x F.SAF_EMB_CFG.BAD_CFG (decide (5 * x.fld 7 0 ≤ x.fld 21 8))
  else if a = R.SAF_OCT_HOLD 0 then (if d.safetyAny x.h.i then d else d.store x)
  else d.storeIf x true

/-- ALM (R45, R46, R420, R424 to R426, R429). -/
def Dev.wrAlm (d : Dev) (x : Wr) : Dev :=
  let a := x.h.r.addr
  let i := x.h.i
  if a = R.ALM_KAL_CTRL then
    let d := d.store x
    if x.bit 0 then d.kalApply else d
  else if a = R.ALM_SNAP_CTRL then (if x.bit 0 then d.almSnapshot d.now else d)
  else if a = R.ALM_DOM_CFG 0 then (if i < 2 then d.domainCfg i false x.w d.now else d)
  else if a = R.ALM_DOM_GM 0 then (if i < 2 then d.domainCfg i true x.new d.now else d)
  else if a = R.ALM_TIO_CFG 0 then
    let d := d.pinsSettle
    let d := d.setReg x.h.key (BitVec.ofNat 64 (storeReg x.h.r x.lo x.hi x.w (d.reg x.h.key).toNat))
    if x.bit 7 then d.tioApply i d.now else d
  else if a = R.ALM_SLEW then
    if !x.inRange then d.almBad else
    let e := d.resid d.now
    Dev.store { d with alm := { d.alm with resid := e, residAt := d.now } } x
  else if a = R.ALM_CFG then
    if !x.inRange || (x.fld 22 19 != 0 && decide (x.fld 22 19 < 9)) then d.almBad else d.store x
  else if a = R.ALM_STEER ∨ (R.ALM_DOM_CFG 0 ≤ a ∧ a < R.ALM_TIO_CFG 0) then (if x.inRange then d.store x else d.almBad)
  else d.storeIf x true

/-- LAM and the replay decoder (R69 to R72, R84, R448, R462). -/
def Dev.wrLam (d : Dev) (x : Wr) : Dev :=
  let a := x.h.r.addr
  let i := x.h.i
  if a = R.LAM_PORT_CFG 0 then d.portCfgWrite i x.w
  else if a = R.LAM_STR_CFG 0 then
    let was := d.on (F.LAM_STR_CFG.EN i)
    let d := d.store x
    let d := if was && !d.on (F.LAM_STR_CFG.EN i) then d.strDisable i else d
    if x.bit 1 then d.strApply i else d
  else if a = R.LAM_LID_CFG 0 then
    let was := d.on (F.LAM_LID_CFG.EN i)
    let d := d.store x
    let d := if was && !d.on (F.LAM_LID_CFG.EN i) then d.strDisable (32 + i) else d
    if x.bit 1 then d.lidApply i else d
  else if a = R.RPL_CTRL then
    let busy := d.on F.RPL_CTRL.BUSY
    let cfg := x.changes 4 3 || x.changes 17 14
    let d := if busy && cfg then d.set F.RPL_CTRL.BAD_CFG 1 else d.store x
    let d := if x.bit 1 then d.rplStop else d
    if x.bit 0 then d.rplStart d.now else d
  else if 0x410000 ≤ a then (if d.on F.RPL_CTRL.BUSY then d.set F.RPL_CTRL.BAD_CFG 1 else d.store x)
  else d.storeIf x true

/-- PWR (R473, R479, R506). -/
def Dev.wrPwr (d : Dev) (x : Wr) : Dev :=
  let a := x.h.r.addr
  if a = R.PWR_CTRL then
    let e := d.lockedStore x F.PWR_CTRL.BAD_CFG (decide (d.capMin ≤ x.fld 8 0) && decide (x.fld 8 0 ≤ d.capMax))
    e.set F.PWR_STAT.EFF_CAP_W (e.effCap / 1000)
  else if a = R.PWR_THERM then d.lockedStore x F.PWR_CTRL.BAD_CFG true
  else if a = R.PWR_PART_CFG 0 then d.partCfg x.who x.h.i x.w
  else if a = R.PWR_LP_CTRL then
    let d := d.store x
    let d := if x.bit 0 then d.lpRequest 1 else d
    let d := if x.bit 1 then d.lpRequest 2 else d
    if x.bit 2 then d.wake x.who [] else d
  else d.storeIf x true

/-- LNK (R433, R446). DEDUCED: log entry 21. -/
def Dev.wrLnk (d : Dev) (x : Wr) : Dev :=
  let a := x.h.r.addr
  if a = R.LNK_CTRL then d.lnkCtrl x.w
  else if a = R.LNK_TOPO then
    if d.on F.LNK_CTRL.EN || decide (x.fld 19 15 < x.fld 4 0) || decide (x.fld 24 20 < x.fld 9 5) || decide (x.fld 29 25 < x.fld 14 10) then
      d.set F.LNK_CTRL.BAD_CFG 1
    else d.store x
  else if a = R.LNK_GROUP ∨ a = R.LNK_GROUP_MEM then (if d.on F.LNK_CTRL.EN then d.set F.LNK_CTRL.BAD_CFG 1 else d.store x)
  else d.storeIf x true

/-- MEM, KVU and SEC (R147, R304, R482, R488, R491, R493, R494, R498). -/
def Dev.wrSec (d : Dev) (x : Wr) : Dev :=
  let a := x.h.r.addr
  if a = R.MEM_RSV_CTRL then
    let d := d.store x
    if x.bit 0 then d.rsvApply else d
  else if a = R.SEC_UPD_CTRL then
    let d := if x.bit 0 then d.verify [] else d
    let d := if x.bit 1 then d.updWrite else d
    if x.bit 2 then d.activate else d
  else if a = R.SEC_SVN then (if x.bit 0 then d.svnCommit else d)
  else if a = R.SEC_FUSE_PROG then
    if d.fuses.provisioned || d.on F.SEC_FUSE_PROG.BUSY then d else
    let d := d.store x
    if x.bit 2 then d.fuseGo else d
  else if a = R.SEC_ATT_CTRL then
    let d := d.store x
    if x.bit 0 then d.attest else d
  else if a = R.SEC_SIGREQ then d.sigreqWrite x.who x.w
  else d.storeIf x true

/-- SCH (R53, R58, R236, R237, R306, R309, R310). -/
def Dev.wrSch (d : Dev) (x : Wr) : Dev :=
  let a := x.h.r.addr
  if a = R.SCH_ORDO_CTRL then (if x.bit 0 then d.ordoSwitch [] else d)
  else if a = R.SCH_MUTUAL_STAT then (if x.bit 0 then (d.store x).set F.SCH_MUTUAL_STAT.MERGED 0 else d)
  else if a = R.SCH_FLAG_CLR then
    if 16384 < x.fld 13 0 + x.fld 28 14 then d.set F.SCH_FLAG_CLR.REFUSED 1 else
    let d := d.store x
    if x.bit 29 then d.flagClear else d
  else if a = R.SCH_PART_CTRL then
    let d := d.store x
    if x.bit 0 then d.partApply else d
  else if a = R.SCH_SWAP_BASE then d.storeIf x (d.ctxs.all (fun q => q.2.resident))
  else if a = R.SCH_CTX_SCHED then d.ctxSchedWrite x.w
  else d.storeIf x true

/-- A write, by the block of its register. DEDUCED: log entry 17. -/
def Dev.wrReg (d : Dev) (x : Wr) : Dev :=
  match x.h.r.addr / 0x100000 with
  | 0 => d.wrHif x
  | 1 => d.wrFlt x
  | 2 => d.wrSaf x
  | 3 => d.wrAlm x
  | 4 => d.wrLam x
  | 5 => d.wrPwr x
  | 6 => d.wrLnk x
  | 10 => d.wrSch x
  | _ => d.wrSec x
/-- The bits of a written value that read-write fields take. -/
def RegDesc.plain (r : RegDesc) (w : Nat) : Nat := r.fields.foldl (fun w f => if f.acc == .rw then w else putBits w f.lo (f.hi + 1) 0) w
/-- A write with its place among those of its cycle (R515): that of Computus is remembered, and after a write of the host in the same cycle
to the same register its read-write fields are written once more, so that it comes second. DEDUCED: log entry 198. -/
def Dev.access (d : Dev) (x : Wr) : Dev :=
  let e := d.wrReg x
  if x.who = .computus then { e with regs := { e.regs with lastC := some (d.now, x.h.key, x.lo, x.hi, x.w) } } else
  match d.regs.lastC with
  | none => e
  | some (t, key, lo, hi, w) =>
    if t ≠ d.now ∨ key ≠ x.h.key then e else
    let w := x.h.r.plain w
    let old := (e.reg key).toNat
    e.wrReg ⟨.computus, x.h, lo, hi, w, old, storeReg x.h.r lo hi w old⟩
/-- A 32-bit write at an aligned offset. -/
def Dev.wr32 (d : Dev) (who : Who) (a value : Nat) : Dev :=
  match d.hitReg who a with
  | none => d
  | some h =>
    let lo := 8 * h.z
    let w := value % 2 ^ 32 * 2 ^ lo
    let old := (d.reg h.key).toNat
    d.access ⟨who, h, lo, lo + 32, w, old, storeReg h.r lo (lo + 32) w old⟩
/-- A register write (R512, R513): 64 bits are one write to a 64-bit register, else two, the lower half first. -/
def Dev.regWrite (d : Dev) (who : Who) (a width value : Nat) : Dev :=
  if width = 4 ∧ a % 4 = 0 then d.wr32 who a value
  else if width = 8 ∧ a % 8 = 0 then
    match d.hitReg who a with
    | some h =>
      if h.r.wide && h.z == 0 then
        let w := value % 2 ^ 64
        let old := (d.reg h.key).toNat
        d.access ⟨who, h, 0, 64, w, old, storeReg h.r 0 64 w old⟩
      else (d.wr32 who a value).wr32 who (a + 4) (value / 2 ^ 32)
    | none => d.wr32 who (a + 4) (value / 2 ^ 32)
  else d
/-- Can the requester's access reach the part: over the host link, or inside it? DEDUCED: log entry 27. -/
def Dev.portOpen (d : Dev) (who : Who) : Bool :=
  match who with
  | .pf => d.rst.linkUp && !d.rst.warm && d.barsOpen 0
  | .vf n => d.rst.linkUp && !d.rst.warm && d.barsOpen n
  | .computus => !d.rst.warm && d.rst.low != 2
  | .mgmt => true
  | .cfg _ => false
  | .msix _ => false
  | .bell fn _ => d.rst.linkUp && d.bar4 fn
/-- REGISTER_WRITE: to a register, to configuration space (R97), to the MSI-X table of a function (R96), or to a doorbell page (R110). The management port writes through
MGMT_ACCESS only. -/
def Dev.portWrite (d : Dev) (who : Who) (addr width value : Nat) : Dev :=
  match who with
  | .cfg fn => if width = 4 then d.cfgWrite fn addr value else d
  | .msix fn => if width = 4 then d.msixWrite fn addr value else d
  | .mgmt => d
  | .bell fn page =>
    if !d.portOpen who then d else if addr = 8 then d.cqHead fn page addr width value [] else d.sqTail fn page addr width value []
  | _ => if d.portOpen who then d.regWrite who addr width value else d
def execRegisterWrite (who : Who) (addr width value t : Nat) (s : State) : Res :=
  .next (s.upd (fun d => (d.at_ t).portWrite who addr width value))

/-! ## Reads (R10, R513) -/

/-- Is a counter cleared by its read? -/
def RegDesc.rc (r : RegDesc) : Bool := r.fields.any (fun f => f.acc == .rc)
/-- Does a 32-bit read of the lower half latch the upper half: a 64-bit RO register without a snapshot rule of its own? DEDUCED: log entry 24. -/
def RegDesc.latches (r : RegDesc) : Bool :=
  r.wide && r.fields.all (fun f => f.acc == .ro) && r.addr != R.FLT_FIRST_ADDR && r.addr != R.FLT_FIRST_TS && r.addr != R.ALM_TIO_CAP 0
/-- Where a requester's latch of a register is kept; the management port and the functions have none of these registers. DEDUCED: log entry 24. -/
def latchKey (who : Who) (key : Nat) : Nat := 2 * key + (if who = .computus then 1 else 0)
/-- READ_CLEAR: the value, and the counter is 0. The counters of the selected context stand in it. -/
def Dev.readClear (d : Dev) (who : Who) (a : Nat) : Dev :=
  match d.hitReg who a with
  | none => d.ret [0, 0, 0, 0]
  | some h =>
    let d1 := d.ret (leBytes 4 (d.regWord who (a / 4 * 4)))
    if !h.r.rc then d1
    else if h.r.addr = R.SCH_CTX_PEAK then d1.modCtx d.selKey (fun c => { c with peak := 0 })
    else if h.r.addr = R.SCH_CTX_PREEMPT then d1.modCtx d.selKey (fun c => { c with preempts := 0 })
    else d1.setReg h.key 0
def execReadClear (who : Who) (addr : Nat) (s : State) : Res :=
  .next (s.upd (fun d => if d.portOpen who then d.readClear who addr else d))

/-- A 32-bit read of a register whose table gives no read effect of its own. -/
def Dev.readHalf (d : Dev) (who : Who) (a : Nat) (h : RegHit) : Dev :=
  let v := d.regValue who h
  if !h.r.latches then d.ret (leBytes 4 (v / 2 ^ (8 * h.z)))
  else if h.z = 0 then
    Dev.ret { d with regs := { d.regs with latch := mset d.regs.latch (latchKey who h.key) (BitVec.ofNat 64 (v / 2 ^ 32)) } } (leBytes 4 v)
  else d.ret (leBytes 4 (mget (BitVec.ofNat 64 (d.regWord who a)) d.regs.latch (latchKey who h.key)).toNat)
/-- A 32-bit read. -/
def Dev.read32 (d : Dev) (who : Who) (a : Nat) : Dev :=
  match d.hitReg who a with
  | none => d.ret [0, 0, 0, 0]
  | some h =>
    let r := h.r.addr
    if r = R.FLT_FIRST_ADDR ∧ h.z = 0 then d.recordSnapshot who
    else if r = R.ALM_KAL_FRAME_LO then d.frameLoRead
    else if r = R.ALM_TIO_CAP_HI 0 then d.capPop h.i
    else if r = R.SAF_WEAR_DATA 0 ∧ h.i = 0 then d.wearRead who
    else if r = R.KVU_ENTRY_DATA 0 ∧ h.i = 0 then d.entryRead
    else if h.r.rc then d.readClear who a
    else if R.ALM_TIO_CFG 0 ≤ r ∧ r < R.LAM_PORT_CFG 0 then d.pinsSettle.readHalf who a h
    else d.readHalf who a h
/-- The 32 bits at an aligned offset for a read that is not a 32-bit one: it latches nothing and returns the live bytes of a lower half. -/
def Dev.readLive (d : Dev) (who : Who) (a : Nat) : Dev :=
  match d.hitReg who a with
  | none => d.ret [0, 0, 0, 0]
  | some h => if h.r.latches && h.z == 0 then d.ret (leBytes 4 (d.regValue who h)) else d.read32 who a
/-- A read of `n` bytes from offset `a` on, word by word: the addressed bytes. DEDUCED: log entry 24. -/
def Dev.readSpan (d : Dev) (who : Who) (a n : Nat) : Dev :=
  let r := (List.range (ceilDiv (a % 4 + n) 4)).foldl (fun (p : Dev × List Nat) i =>
    let e := p.1.readLive who (a / 4 * 4 + 4 * i)
    (e, p.2 ++ e.out.rdata)) (d, [])
  r.1.ret ((r.2.drop (a % 4)).take n)
/-- A read of a register (R512, R513): of 32 bits; of 64, which is atomic for a 64-bit register; or of another width. -/
def Dev.readReg (d : Dev) (who : Who) (a n : Nat) : Dev :=
  if n = 4 ∧ a % 4 = 0 then d.read32 who a else
  match d.hitReg who a with
  | some h =>
    if n = 8 ∧ h.r.wide ∧ h.z = 0 then
      let d := if h.r.addr = R.FLT_FIRST_ADDR then d.recordSnapshot who else d
      d.ret (leBytes 8 (d.regValue who h))
    else d.readSpan who a n
  | none => d.readSpan who a n
/-- A read of a register, of configuration space and of an MSI-X table by 32 bits (R96, R97), or of a doorbell page, which reads as zero
(R110); the management port has 32-bit reads alone, and every other access of it reads zero (R517). -/
def Dev.portRead (d : Dev) (who : Who) (addr width : Nat) : Dev :=
  match who with
  | .cfg fn => if width = 4 then d.cfgRead fn addr else d
  | .msix fn => if width = 4 then d.msixRead fn addr else d
  | .bell _ _ => if d.portOpen who then d.ret (List.replicate width 0) else d
  | .mgmt => if width = 4 ∧ addr % 4 = 0 then d.readReg who addr 4 else d.ret (List.replicate width 0)
  | _ => if d.portOpen who then d.readReg who addr width else d
def execLowHalfRead (who : Who) (addr width : Nat) (s : State) : Res := .next (s.upd (fun d => d.portRead who addr width))

/-! ## The management port and JTAG (R517, R525) -/

/-- Does the port answer an access on its bus: an SMBus one at 0x4C + MGMT_ADDR, an I3C one there or, once the controller has assigned it, at
its dynamic address (R522)? -/
def Dev.answers (d : Dev) (bus : MgmtBus) : Bool :=
  bus.addr == (if bus.i3c then d.rst.i3c.getD (0x4C + d.rst.mgmtAddr) else 0x4C + d.rst.mgmtAddr)
/-- MGMT_ACCESS: an assignment of the dynamic address first, then the access, when it is meant for this part. DEDUCED: log entry 26. -/
def Dev.mgmtAccess (d : Dev) (bus : MgmtBus) (write : Bool) (a value : Nat) : Dev :=
  let d := { d with rst := { d.rst with i3c := bus.assign.or d.rst.i3c } }
  if !d.answers bus then d else
  if write then (if a = R.PWR_LP_CTRL ∧ bitOf value 2 then d.wake .mgmt [] else d)
  else if a % 4 = 0 then d.ret (leBytes 4 (d.regWord .mgmt a)) else d.ret [0, 0, 0, 0]
def execMgmtAccess (bus : MgmtBus) (write : Bool) (addr value : Nat) (s : State) : Res :=
  .next (s.upd (fun d => d.mgmtAccess bus write addr value))

/-- IDCODE. PRESUMED: log entry 30. -/
def Dev.idcode (d : Dev) : Nat := 1 + 0x2E7 * 2 + d.fuses.partCode % 65536 * 2 ^ 12 + d.fuses.stepping % 16 * 2 ^ 28
/-- JTAG_ACCESS: the bits that leave TDO while `dr` is shifted in. Instruction 15 is BYPASS and 1 is IDCODE; what another instruction gives
before PROVISIONED is not stated, and after it the port answers as BYPASS. PRESUMED: log entry 30. -/
def Dev.jtag (d : Dev) (ir : Nat) (dr : List Bool) : Dev :=
  let ins := dr.map b2n
  let n := ins.length
  if ir = 1 then d.ret (((List.range 32).map (fun i => bits d.idcode i i) ++ ins).take n)
  else if ir = 15 ∨ d.fuses.provisioned then d.ret ((0 :: ins).take n)
  else d.take.ret ((List.range n).map (fun i => Config.freeNat d.fresh i % 2))
/-- During a cold reset TDO is high impedance: no bit leaves it (Table 1 of R519, R524). -/
def execJtagAccess (ir : Nat) (dr : List Bool) (s : State) : Res :=
  .next (s.updAlways (fun d => if d.rst.held then d.ret [] else d.jtag ir dr))

end Sys2Proof.Machine
end

