-- ==== Sys2Proof/Machine/Restart.lean ====
section
/-!
DEFINITION. The restart manifest (R386): after the warm reset of safe state A, Computus replays its entries one at a time.
-/
namespace Sys2Proof.Machine

/-- Leave the replay, or go on at an entry. -/
def Dev.setReplay (d : Dev) (at' : Option Nat) (wait : Bool) : Dev :=
  { d with safe := { d.safe with replay := at', replayWait := wait, replayStatus := none } }
/-- The replay stops at an entry: INDEX and STATUS name it, and FAILED sets. -/
def Dev.replayFail (d : Dev) (i st : Nat) : Dev :=
  (((d.set F.SAF_RESTART_STAT.INDEX i).set F.SAF_RESTART_STAT.STATUS st).set F.SAF_RESTART_STAT.FAILED 1).setReplay none false
/-- A status other than OK that the spec does not name. DEDUCED: log entry 128. -/
def Dev.someStatus (d : Dev) : Nat := 1 + Config.freeNat d.fresh 0 % 17

/-- The status of a manifest's header. -/
def Dev.manifestStatus (d : Dev) (a : Nat) : Nat :=
  let h := d.rdHbm a 64
  let n := bfield h 0 2
  if !zeroBytes h 2 64 then stReserved
  else if n = 0 then stZero
  else if 4096 < n || !d.inHbm a (64 + 128 * n) then stBounds else stOk

/-- The header is read. -/
def Dev.replayHead (d : Dev) (a : Nat) : Dev :=
  match d.poisonIn a 64 with
  | g :: _ => (d.hbmUeAt g accFetch).take.replayFail 0 d.someStatus
  | [] => if d.manifestStatus a = stOk then d.setReplay (some 0) false else d.replayFail 0 (d.manifestStatus a)
/-- Can Computus replay: is a pair left (R388), and is HBM there? -/
def Dev.canReplay (d : Dev) : Bool := !d.on F.SAF_SAFE_STAT.NO_COMPUTUS && d.rst.hbmReady && !d.rst.warm && d.rst.low == 0
/-- RESTART_REPLAY. -/
def Dev.restartReplay (d : Dev) (mem : List MemErr) : Dev :=
  if !d.safe.replayDue || !d.canReplay || d.sec.overLink then d else
  let d := { d with safe := { d.safe with replayDue := false } }
  let a := d.f F.SAF_RESTART_ADDR.ADDR
  if a = 0 then d else
  let d := d.set F.SAF_RESTART_STAT.DONE 0
  if !d.inHbm a 64 then d.replayFail 0 stBounds else d.met accFetch [(a, 64)] mem (fun d => d.replayHead a)
def execRestartReplay (mem : List MemErr) (s : State) : Res := .next (s.upd (fun d => d.restartReplay mem))

/-- The status of an entry's own fields. DEDUCED: log entry 127. -/
def itemStatus (b : List Nat) : Nat :=
  if 16 ≤ b.getD 1 0 || 4096 ≤ bfield b 2 2 || !zeroBytes b 4 64 then stReserved
  else if b.getD 0 0 = 0 || 4 ≤ b.getD 0 0 then stFormat else stOk

/-- An entry ended with OK: the next one, or DONE after the last. -/
def Dev.replayOk (d : Dev) (i n : Nat) : Dev :=
  if i + 1 < n then d.setReplay (some (i + 1)) false else (d.set F.SAF_RESTART_STAT.DONE 1).setReplay none false
/-- An entry that completes at once ended with a status. -/
def Dev.replayEnd (d : Dev) (i n st : Nat) : Dev := if st = stOk then d.replayOk i n else d.replayFail i st

/-- COMMAND: as if fetched from the ring of the context; R114 checks it. DEDUCED: log entry 127. -/
def Dev.replayCommand (d : Dev) (i key : Nat) (b : List Nat) (mem : List MemErr) : Dev :=
  match d.ctx key with
  | none => d.replayFail i stBounds
  | some c =>
    match (if c.resident then some d else d.makeRoom.map (fun d => d.swapIn key mem)) with
    | none => d.replayFail i stCtxExhausted
    | some d =>
      if (d.ctx key).isNone then d.replayFail i stBounds else
      let st := d.validate (key / 4096) b
      let k : RingCmd := ⟨65536, b, if st = stOk then .fetched else .failed st, d.partRange (key / 4096)⟩
      ((d.setReplay (some i) true).modCtx key (fun c => { c with cmds := c.cmds ++ [k] })).pumpCtx key

/-- Does a write set SCH_ORDO_CTRL.SWITCH? -/
def setsSwitch (a value : Nat) : Bool := a == R.SCH_ORDO_CTRL && value % 2 == 1
/-- REGISTER: a write by the physical function. DEDUCED: log entry 128. -/
def Dev.replayWrite (d : Dev) (i n a w value : Nat) : Dev :=
  if w ≠ 4 ∧ w ≠ 8 then d.take.replayFail i d.someStatus else
  let e := d.regWrite .pf a w value
  if setsSwitch a value then
    if e.on F.SCH_ORDO_CTRL.BUSY then e.setReplay (some i) true
    else if e.on F.SCH_ORDO_CTRL.PENDING then e.replayOk i n else e.replayFail i (e.f F.SCH_ORDO_STATUS.ERR_CODE)
  else e.replayOk i n

/-- Execute entry `i` of `n` at `a`. -/
def Dev.replayRun (d : Dev) (i n a : Nat) (mem : List MemErr) : Dev :=
  match d.poisonIn a 128 with
  | g :: _ => (d.hbmUeAt g accFetch).take.replayFail i d.someStatus
  | [] =>
    let b := d.rdHbm a 128
    let p := (b.drop 64).take 64
    let key := ckey (b.getD 1 0) (bfield b 2 2)
    if itemStatus b ≠ stOk then d.replayFail i (itemStatus b) else
    match b.getD 0 0 with
    | 1 => (d.createCtx key p).1.replayEnd i n (d.createCtx key p).2
    | 2 => d.replayCommand i key p mem
    | _ => d.replayWrite i n (bfield p 0 8) (p.getD 16 0) (bfield p 8 8)

/-- MANIFEST_ENTRY: an entry in progress is looked at, else the next one starts. -/
def Dev.manifestEntry (d : Dev) (mem : List MemErr) : Dev :=
  match d.safe.replay with
  | none => d
  | some i =>
    if !d.canReplay then d else
    let base := d.f F.SAF_RESTART_ADDR.ADDR
    let n := bfield (d.rdHbm base 2) 0 2
    let a := base + 64 + 128 * i
    if !d.safe.replayWait then d.met accFetch [(a, 128)] mem (fun d => d.replayRun i n a mem) else
    match d.safe.replayStatus, (d.rdHbm a 1).getD 0 0 with
    | some st, _ => d.replayEnd i n st
    | none, 3 => if d.on F.SCH_ORDO_CTRL.BUSY then d else d.replayOk i n
    | none, _ => d
def execManifestEntry (mem : List MemErr) (s : State) : Res := .next (s.upd (fun d => d.manifestEntry mem))

end Sys2Proof.Machine
end

