-- ==== Sys2Proof/Machine/Start.lean ====
section
/-!
DEFINITION. The start and the completion of long instructions (R223, R227, R228, R302), and what prep cores and the region DMA engine do
for a command (R23, R31, R32, R127, R129).
-/
namespace Sys2Proof.Machine

/-! ## Long instructions in their queues -/

/-- The member and the instruction at the head of its queue `q`, while the command executes. -/
def Dev.queueHead (d : Dev) (id g q : Nat) : Option (Run × Member × LongIns) :=
  match mfind d.runs id with
  | none => none
  | some r =>
    if r.runNo.isNone then none else
    match r.members[g]? with
    | none => none
    | some m => ((m.queues.getD q []).head?).map (fun l => (r, m, l))

/-- The attention unit runs the command's ATTENDs one at a time, in issue order; those that issued together by gang index (R302). -/
def Run.attendTurn (r : Run) (g : Nat) (l : LongIns) : Bool :=
  (r.members.mapIdx (fun i m => (i, m))).all (fun x => x.1 == g || (match (x.2.queues.getD qAttend []).head? with
    | none => true
    | some o => o.started.isNone && (l.at_ < o.at_ || (l.at_ == o.at_ && decide (g < x.1)))))


/-- The member as it stood when the instruction issued: its loop state and count registers form the operands (R201, R268). -/
def Dev.issued (d : Dev) (r : Run) (m : Member) (l : LongIns) : Option Cur :=
  (mfind d.mods r.modId).bind (fun md => (insAt md.code l.idx).map (fun i =>
    ⟨r, { m with iters := l.iters, loops := l.loops, counts := l.counts }, i, md.code⟩))
/-- What the instruction does: all of it at its start. DEDUCED: log entry 15. -/
def Dev.runIns (d : Dev) (g : Nat) (c : Cur) (ups : List Upset) : Done :=
  match c.i.cls with
  | 0 => d.mmDo g c ups
  | 1 => d.ewDo g c ups
  | 2 => d.mvDo g c
  | 3 => d.cvDo g c
  | 4 => d.gtDo g c
  | 5 => d.atDo g c
  | _ => Done.idle d

/-- Change the instruction at the head of a queue. -/
def Dev.modHead (d : Dev) (id g q : Nat) (f : LongIns → LongIns) : Dev :=
  d.modMember id g (fun m => { m with queues := m.queues.mapIdx (fun i x =>
    if i = q then x.mapIdx (fun j o => if j = 0 then f o else o) else x) })
/-- What was written in cluster scratchpads and region memory, which other commands share. -/
def sharedOnly (l : List Extent) : List Extent := l.filter (fun x => !x.dev && decide (3 ≤ unitKind (keyUnit x.lo)))
/-- An instruction of member `g` starts with what it has done: its flags and outcomes are kept, and errors met on the way have their
outcomes; one that stops ends its command. -/
def Dev.begun (d : Dev) (id g q : Nat) (x : Done) (mem : List MemErr) : Dev :=
  match x.stop with
  | some st => x.d.endOwn id st
  | none =>
    let e := x.d.modMember id g (fun m => { m with aflags := m.aflags ||| x.flags })
    let e := e.modHead id g q (fun l => { l with started := some d.now, since := d.now, touched := x.touched, chk := x.chk })
    let e := e.modRun id (fun r => { r with indexRange := r.indexRange || x.range, wrote := r.wrote ++ sharedOnly x.wrote })
    e.memErrs id x.touched mem
/-- INSTRUCTION_START of a queue: the instruction heads its queue and the scoreboard lets it start. -/
def Dev.insStart (d : Dev) (id g q t : Nat) (mem : List MemErr) (ups : List Upset) : Dev :=
  match d.queueHead id g q with
  | none => d
  | some (r, m, l) =>
    if !m.mayStart q || (q == qAttend && !r.attendTurn g l) then d else
    let d := d.at_ t
    match d.issued r m l with
    | none => d
    | some c => d.begun id g q (d.runIns g c ups) mem

/-! ## Prep cores and the region DMA engine -/

def qPrep : Nat := 4
def qDma : Nat := 5

/-- What an address of the 64-bit map of R127 names for an access of `n` bytes: a place on chip, bytes of HBM, or of the roster window. -/
inductive Target where
  | chip (p : Place)
  | hbm (a : Nat)
  | roster (a : Nat)
  deriving DecidableEq, Repr
/-- A scratchpad address, when the requester reaches it (Table 4 of R31): `eng` and `clu` say which clusters' engine and cluster
scratchpads it reaches; an engine scratchpad must belong to an engine that the command holds (R32), and a memory that is switched off is
out of reach. DESIGN CHOICE: log entry 189. -/
def Dev.xChip (d : Dev) (r : Run) (eng clu : Nat → Bool) (a n : Nat) : Option Target :=
  match spDecode a with
  | none => none
  | some s =>
    if s.room < n then none else
    match s with
    | .eng k e o => if eng k then (r.physOf k e).map (fun p => .chip ⟨p, o⟩) else none
    | .clu k o => if clu k && !d.cluOut k then some (.chip ⟨cspUnit k, o⟩) else none
    | .reg g o => if !d.regOut g then some (.chip ⟨regUnit 4 g, o⟩) else none
/-- What prep core `u` of cluster `k` reaches: its local memory, the engine scratchpads of its cluster, every cluster scratchpad and region
memory, and HBM. -/
def Dev.prepTarget (d : Dev) (r : Run) (k u a n : Nat) : Option Target :=
  if a < 0x40000 then (if a + n ≤ 0x40000 then some (.chip ⟨u, a⟩) else none)
  else if 0x100000000 ≤ a ∧ a < 0x200000000 then d.xChip r (fun j => j == k) (fun _ => true) (a - 0x100000000) n
  else if 0x100000000000 ≤ a then (if d.inHbm (a - 0x100000000000) n then some (.hbm (a - 0x100000000000)) else none)
  else none
/-- What the DMA engine of region `g` reaches: the engine and cluster scratchpads of its region, every region memory, HBM, and the roster
window for reads. -/
def Dev.dmaTarget (d : Dev) (r : Run) (g a n : Nat) (wr : Bool) : Option Target :=
  if 0x100000000 ≤ a ∧ a < 0x200000000 then d.xChip r (fun j => j / 4 == g) (fun j => j / 4 == g) (a - 0x100000000) n
  else if 0x100000000000 ≤ a then
    (if d.inHbm (a - 0x100000000000) n then some (.hbm (a - 0x100000000000))
     else if inRoster (a - 0x100000000000) n && !wr then some (.roster (a - 0x100000000000)) else none)
  else none

/-- Latency and interval, in fc, of the prep-core column of Table 3 of R129, for a prep core of cluster `k`; its local memory answers in a
cycle. DESIGN CHOICE: log entry 178. -/
def prepLat (k : Nat) : Target → Option (Nat × Nat)
  | .chip p => match unitKind p.unit with
    | 0 => some (6, 2)
    | 3 =>
      let j := unitClu p.unit
      some (if j / 12 ≠ k / 12 then (120, 8) else if j / 4 ≠ k / 4 then (48, 4) else if j = k then (6, 1)
        else if j / 2 = k / 2 then (14, 2) else (24, 2))
    | 4 =>
      let r := unitRegion p.unit
      some (if r / 3 ≠ k / 12 then (120, 8) else if r ≠ k / 4 then (48, 4) else if p.off / 0x400000 = k % 4 / 2 then (14, 2) else (24, 2))
    | _ => some (1, 1)
  | _ => none
/-- The region-DMA column, for the engine of region `g`. -/
def dmaLat (g : Nat) : Target → Option (Nat × Nat)
  | .chip p => if unitKind p.unit = 4 then
      let r := unitRegion p.unit
      some (if r = g then (12, 1) else if r / 3 = g / 3 then (48, 2) else (120, 4)) else some (12, 1)
  | .roster _ => some (100, 2)
  | .hbm _ => none

/-- Bytes of a target, and what an access to it touches. -/
def Dev.rdTarget (d : Dev) (n : Nat) : Target → List Nat
  | .chip p => d.rdSram p n
  | .hbm a => d.rdHbm a n
  | .roster a => d.rdDev a n
def Dev.wrTarget (d : Dev) (bs : List Nat) : Target → Dev
  | .chip p => d.wrSram p bs
  | .hbm a => d.wrHbm a bs
  | .roster _ => d
/-- Where in hub memory the roster window lies is not told, so all of it counts (R131). -/
def Target.keys (n : Nat) : Target → List Extent
  | .chip p => [⟨false, p.key, p.key + n⟩]
  | .hbm a => [⟨true, a, a + n⟩]
  | .roster _ => [⟨false, hubMem * 0x1000000, hubMem * 0x1000000 + memSize hubMem⟩]
/-- The words that a write of `n` bytes on chip covers in part (R130): its first and its last. -/
def Target.parts (n : Nat) : Target → List Extent
  | .chip p =>
    let w := fun (o : Nat) => if o % 8 = 0 then [] else [(⟨false, o / 8 * 8, o / 8 * 8 + 8⟩ : Extent)]
    if n = 0 then [] else w p.key ++ w (p.key + n)
  | _ => []
/-- What an access reads; and the words that it writes in part. -/
def xTouched (x : Xact) (ts : List Target) : List Extent :=
  match x, ts with
  | .load _ _ n, [s] => s.keys n
  | .move _ _ n, [s, _] => s.keys n
  | _, _ => []
def xRmw (x : Xact) (ts : List Target) : List Extent :=
  match x, ts with
  | .store _ _ bs, [y] => y.parts bs.length
  | .move _ _ n, [_, y] => y.parts n
  | _, _ => []
/-- What it writes on chip. -/
def xWrote (x : Xact) (ts : List Target) : List Extent :=
  match x, ts with
  | .store _ _ bs, [y] => y.keys bs.length
  | .move _ _ n, [_, y] => y.keys n
  | _, _ => []
/-- The port-width accesses of `n` bytes at an address: 64 bytes each (R122). -/
def Target.accesses (n : Nat) : Target → Nat
  | .chip p => ceilDiv (p.off % 64 + n) 64
  | .hbm a => ceilDiv (a % 64 + n) 64
  | .roster a => ceilDiv (a % 64 + n) 64
/-- The duration of an access (R129); none where HBM takes part, which R145 bounds. R129 speaks of one target: a move between two on-chip
memories takes the latency of its source and the larger interval. DESIGN CHOICE: log entry 203. -/
def xTime (lat : Target → Option (Nat × Nat)) (n : Nat) : List Target → Option Nat
  | [x] => (lat x).map (fun l => l.1 + (x.accesses n - 1) * l.2)
  | [x, y] => match lat x, lat y with
    | some l, some m => some (l.1 + (Nat.max (x.accesses n) (y.accesses n) - 1) * Nat.max l.2 m.2)
    | _, _ => none
  | _ => none

/-- The targets of an access, reached by `rd` and `wr`; none is BOUNDS. -/
def xTargets (rd wr : Nat → Nat → Option Target) : Xact → Option (List Target)
  | .load _ a n => (rd a n).map (fun x => [x])
  | .store _ a bs => (wr a bs.length).map (fun x => [x])
  | .move s t n => match rd s n, wr t n with
    | some x, some y => some [x, y]
    | _, _ => none
def xLen : Xact → Nat
  | .load _ _ n => n
  | .store _ _ bs => bs.length
  | .move _ _ n => n
/-- What an access does. -/
def Dev.xRun (d : Dev) (x : Xact) (ts : List Target) : Dev :=
  match x, ts with
  | .store _ _ bs, [y] => d.wrTarget bs y
  | .move _ _ n, [s, y] => d.wrTarget (d.rdTarget n s) y
  | _, _ => d
/-- Does an address lie at a multiple of 64 bytes; and does a write there cover whole granules, where it goes to HBM (R137)? -/
def Target.aligned : Target → Bool
  | .chip p => p.off % 64 == 0
  | .hbm a => a % 64 == 0
  | .roster a => a % 64 == 0
def Target.whole (n : Nat) : Target → Bool
  | .hbm a => a % 64 == 0 && n % 64 == 0
  | _ => true
/-- Is an access aligned (Table 3 of R157): a vector access or a move at 64 bytes, and every write to HBM in whole granules?
DEDUCED: log entry 200. -/
def xAligned (x : Xact) (ts : List Target) : Bool :=
  match x, ts with
  | .load v _ _, [s] => !v || s.aligned
  | .store v _ bs, [y] => (!v || y.aligned) && y.whole bs.length
  | .move _ _ n, [s, y] => s.aligned && y.aligned && y.whole n
  | _, _ => true
/-- An access of a command starts: one to a target out of reach has no effect and ends the command with BOUNDS (R31, R32), and one that
is not aligned with ALIGN (R158). DESIGN CHOICE: log entry 178. -/
def Dev.xBegin (d : Dev) (id q g : Nat) (x : Xact) (ts : Option (List Target)) (lat : Target → Option (Nat × Nat)) (mem : List MemErr) : Dev :=
  match ts with
  | none => d.endOwn id stBounds
  | some ts =>
    if !xAligned x ts then d.endOwn id stAlign else
    let keys := xTouched x ts
    ((d.xRun x ts).modRun id (fun r => { r with
        xfers := r.xfers ++ [⟨q, g, xTime lat (xLen x) ts, 0, d.now, keys, xRmw x ts⟩], wrote := r.wrote ++ sharedOnly (xWrote x ts) })).memErrs id keys mem (xRmw x ts)
/-- An access of prep core `g` of the command, which runs from the dispatch of a run on (R218), or of the DMA engine of its region. -/
def Dev.xStart (d : Dev) (id g q t : Nat) (mem : List MemErr) (x : Xact) : Dev :=
  match mfind d.runs id with
  | none => d
  | some r =>
    if r.runNo.isNone then d else
    if q = qDma then
      let rg := placeReg r.place
      let d := d.at_ t
      (match x with
       | .move _ _ _ => d.xBegin id q 0 x (xTargets (fun a n => d.dmaTarget r rg a n false) (fun a n => d.dmaTarget r rg a n true) x)
           (dmaLat rg) mem
       | _ => d)
    else match r.prep[g]?, r.prepAt with
      | some (l, u), some _ =>
        let d := d.at_ t
        d.xBegin id q g x (xTargets (d.prepTarget r (l / 2) u) (d.prepTarget r (l / 2) u) x) (prepLat (unitClu u)) mem
      | _, _ => d
def execInstructionStart (run g queue t : Nat) (mem : List MemErr) (ups : List Upset) (x : Option Xact) (s : State) : Res :=
  .next (s.upd (fun d => match x with
    | some x => if queue = qPrep ∨ queue = qDma then d.xStart run g queue t mem x else d
    | none => d.insStart run g queue t mem ups))

/-! ## Completion -/

/-- Has the instruction been running for exactly its T by `t`, to within a ns (R40, R174, R223)? DEDUCED: log entry 106. -/
def LongIns.ripe (l : LongIns) (rate t : Nat) : Bool :=
  match l.started, l.ac with
  | some _, some n => endsAt n l.done l.since rate t
  | some s, none => decide (s ≤ t)
  | none, _ => false
/-- The first poisoned granule in the device space that an instruction read. DEDUCED: log entry 84. -/
def Dev.touchedPoison (d : Dev) (l : List Extent) : Option Nat :=
  (l.filter Extent.dev).findSome? (fun x => (d.poisonIn x.lo (x.hi - x.lo)).head?)

/-- INSTRUCTION_COMPLETE of a queue: its region entries are free, what Scruple found is reported, and errors met on the way have their
outcomes. DEDUCED: log entry 106. -/
def Dev.insComplete (d : Dev) (id g q t : Nat) (mem : List MemErr) : Dev :=
  match d.queueHead id g q with
  | none => d
  | some (r, m, l) =>
    if !l.ripe (d.acRate (unitRegion m.phys)) t then d else
    let d := d.at_ t
    match d.touchedPoison l.touched with
    | some a => d.killUe id a accRead
    | none =>
      let d := d.modMember id g (fun m => { m with queues := m.queues.mapIdx (fun i x => if i = q then x.drop 1 else x) })
      (d.scruple id m.phys r.addr l.chk).memErrs id l.touched mem

/-- An access of a prep core, or of the DMA engine, ends. -/
def Dev.xComplete (d : Dev) (id g q t : Nat) (mem : List MemErr) : Dev :=
  match mfind d.runs id with
  | none => d
  | some r =>
    match r.xfers.find? (fun x => x.queue == q && x.g == g) with
    | none => d
    | some x =>
      if !(match x.fc with
        | some n => endsAt n x.done x.since (d.fcRate r.die) t
        | none => true) then d else
      let d := d.at_ t
      match d.touchedPoison x.touched with
      | some a => d.killUe id a accRead
      | none => (d.modRun id (fun r => { r with xfers := r.xfers.erase x })).memErrs id x.touched mem x.rmw
def execInstructionComplete (run g queue t : Nat) (mem : List MemErr) (s : State) : Res :=
  .next (s.upd (fun d => if queue = qPrep ∨ queue = qDma then d.xComplete run g queue t mem else d.insComplete run g queue t mem))

end Sys2Proof.Machine
end

