-- ==== Sys2Proof/Machine/Dispatch.lean ====
section
/-!
DEFINITION. The dispatch: one arm per command, each one call of that command's meaning.
-/
namespace Sys2Proof.Machine

def exec (i : Instr) (s : State) : Host.Outcome State Fault Refusal :=
  match i with
  | .porstNAssert ns => Sys2Proof.Machine.execPorstNAssert ns s
  | .maskRomBoot bootsel mgmtAddr refclk devs => Sys2Proof.Machine.execMaskRomBoot bootsel mgmtAddr refclk devs s
  | .refclkDetect => Sys2Proof.Machine.execRefclkDetect s
  | .warm => Sys2Proof.Machine.execWarm s
  | .chipResetStart t => Sys2Proof.Machine.execChipResetStart t s
  | .warmResetRestart => Sys2Proof.Machine.execWarmResetRestart s
  | .hbmAvailable mem => Sys2Proof.Machine.execHbmAvailable mem s
  | .linkReset => Sys2Proof.Machine.execLinkReset s
  | .functionReset fn => Sys2Proof.Machine.execFunctionReset fn s
  | .blockResetComplete unit => Sys2Proof.Machine.execBlockResetComplete unit s
  | .doze => Sys2Proof.Machine.execDoze s
  | .keep => Sys2Proof.Machine.execKeep s
  | .lowPowerEntered => Sys2Proof.Machine.execLowPowerEntered s
  | .wake who mem => Sys2Proof.Machine.execWake who mem s
  | .keepWakeTime t => Sys2Proof.Machine.execKeepWakeTime t s
  | .thermalShutdown t => Sys2Proof.Machine.execThermalShutdown t s
  | .faultEvent evs t => Sys2Proof.Machine.execFaultEvent evs t s
  | .severeClear n mask => Sys2Proof.Machine.execSevereClear n mask s
  | .pendingClear n mask => Sys2Proof.Machine.execPendingClear n mask s
  | .validClear => Sys2Proof.Machine.execValidClear s
  | .fltSrcCfgWrite who win value => Sys2Proof.Machine.execFltSrcCfgWrite who win value s
  | .lock => Sys2Proof.Machine.execLock s
  | .inject who src t => Sys2Proof.Machine.execInject who src t s
  | .firstRecordSnapshot who => Sys2Proof.Machine.execFirstRecordSnapshot who s
  | .errInEdge t => Sys2Proof.Machine.execErrInEdge t s
  | .safeStateEntry t => Sys2Proof.Machine.execSafeStateEntry t s
  | .bPartClear mask => Sys2Proof.Machine.execBPartClear mask s
  | .aWindowExpiry t => Sys2Proof.Machine.execAWindowExpiry t s
  | .restartReplay mem => Sys2Proof.Machine.execRestartReplay mem s
  | .manifestEntry mem => Sys2Proof.Machine.execManifestEntry mem s
  | .lockstepMismatch pair t => Sys2Proof.Machine.execLockstepMismatch pair t s
  | .kalendsTick mem => Sys2Proof.Machine.execKalendsTick mem s
  | .kalApply => Sys2Proof.Machine.execKalApply s
  | .frameLoRead => Sys2Proof.Machine.execFrameLoRead s
  | .vigil => Sys2Proof.Machine.execVigil s
  | .rosterReceive bytes => Sys2Proof.Machine.execRosterReceive bytes s
  | .rosterDigestReturn member digest => Sys2Proof.Machine.execRosterDigestReturn member digest s
  | .rosterAgreementTimeout => Sys2Proof.Machine.execRosterAgreementTimeout s
  | .phaseStart t => Sys2Proof.Machine.execPhaseStart t s
  | .budgetOverrun run t => Sys2Proof.Machine.execBudgetOverrun run t s
  | .ordoSwitch mem => Sys2Proof.Machine.execOrdoSwitch mem s
  | .ordoCopyDone mem => Sys2Proof.Machine.execOrdoCopyDone mem s
  | .lamPortCfgWrite p value => Sys2Proof.Machine.execLamPortCfgWrite p value s
  | .frameStart p vc ecc t => Sys2Proof.Machine.execFrameStart p vc ecc t s
  | .line p vc dt ecc crcOk hdrOk payload t => Sys2Proof.Machine.execLine p vc dt ecc crcOk hdrOk payload t s
  | .frameEnd p vc ecc t => Sys2Proof.Machine.execFrameEnd p vc ecc t s
  | .frameHeaderWritten str t => Sys2Proof.Machine.execFrameHeaderWritten str t s
  | .lineTimeout str t => Sys2Proof.Machine.execLineTimeout str t s
  | .frameTimeout str t => Sys2Proof.Machine.execFrameTimeout str t s
  | .strApply str => Sys2Proof.Machine.execStrApply str s
  | .streamDisable str => Sys2Proof.Machine.execStreamDisable str s
  | .lidApply l => Sys2Proof.Machine.execLidApply l s
  | .ethernetFrame mac bytes fcsOk t => Sys2Proof.Machine.execEthernetFrame mac bytes fcsOk t s
  | .gapTimeout l t => Sys2Proof.Machine.execGapTimeout l t s
  | .sweepTimeout l t => Sys2Proof.Machine.execSweepTimeout l t s
  | .readClear who addr => Sys2Proof.Machine.execReadClear who addr s
  | .create fn ctx => Sys2Proof.Machine.execCreate fn ctx s
  | .destroy fn ctx => Sys2Proof.Machine.execDestroy fn ctx s
  | .abort fn ctx => Sys2Proof.Machine.execAbort fn ctx s
  | .sqTail fn page off width value mem => Sys2Proof.Machine.execSqTail fn page off width value mem s
  | .cqHead fn page off width value mem => Sys2Proof.Machine.execCqHead fn page off width value mem s
  | .heldDoorbellResume fn ctx mem => Sys2Proof.Machine.execHeldDoorbellResume fn ctx mem s
  | .descriptorFetch fn ctx => Sys2Proof.Machine.execDescriptorFetch fn ctx s
  | .coalTimer fn ctx t => Sys2Proof.Machine.execCoalTimer fn ctx t s
  | .pcieLaneFail width => Sys2Proof.Machine.execPcieLaneFail width s
  | .bar2Read addr len mem => Sys2Proof.Machine.execBar2Read addr len mem s
  | .bar2Write addr bytes mem => Sys2Proof.Machine.execBar2Write addr bytes mem s
  | .ringNop fn ctx => Sys2Proof.Machine.execRingNop fn ctx s
  | .ringRun fn ctx => Sys2Proof.Machine.execRingRun fn ctx s
  | .ringCopy fn ctx => Sys2Proof.Machine.execRingCopy fn ctx s
  | .copyDone fn ctx t mem => Sys2Proof.Machine.execCopyDone fn ctx t mem s
  | .ringSignal fn ctx => Sys2Proof.Machine.execRingSignal fn ctx s
  | .ringWait fn ctx t => Sys2Proof.Machine.execRingWait fn ctx t s
  | .waitRelease fn ctx => Sys2Proof.Machine.execWaitRelease fn ctx s
  | .waitExpired fn ctx t => Sys2Proof.Machine.execWaitExpired fn ctx t s
  | .moduleLoad fn ctx mem => Sys2Proof.Machine.execModuleLoad fn ctx mem s
  | .moduleUnload fn ctx => Sys2Proof.Machine.execModuleUnload fn ctx s
  | .unloadComplete fn ctx => Sys2Proof.Machine.execUnloadComplete fn ctx s
  | .tdtWrite fn ctx mem => Sys2Proof.Machine.execTdtWrite fn ctx mem s
  | .poolGrant fn ctx => Sys2Proof.Machine.execPoolGrant fn ctx s
  | .poolReclaim fn ctx => Sys2Proof.Machine.execPoolReclaim fn ctx s
  | .cacheCreate fn ctx => Sys2Proof.Machine.execCacheCreate fn ctx s
  | .cacheDestroy fn ctx => Sys2Proof.Machine.execCacheDestroy fn ctx s
  | .pageAlloc fn ctx => Sys2Proof.Machine.execPageAlloc fn ctx s
  | .pageShare fn ctx => Sys2Proof.Machine.execPageShare fn ctx s
  | .pageFree fn ctx => Sys2Proof.Machine.execPageFree fn ctx s
  | .pageCow fn ctx => Sys2Proof.Machine.execPageCow fn ctx s
  | .cowCopyDone fn ctx mem => Sys2Proof.Machine.execCowCopyDone fn ctx mem s
  | .kvuEntryRead => Sys2Proof.Machine.execKvuEntryRead s
  | .spanOpen fn ctx => Sys2Proof.Machine.execSpanOpen fn ctx s
  | .spanClose fn ctx => Sys2Proof.Machine.execSpanClose fn ctx s
  | .spanAdvance fn ctx => Sys2Proof.Machine.execSpanAdvance fn ctx s
  | .spanMap fn ctx => Sys2Proof.Machine.execSpanMap fn ctx s
  | .spanPull fn ctx => Sys2Proof.Machine.execSpanPull fn ctx s
  | .pullDone fn ctx status bytes => Sys2Proof.Machine.execPullDone fn ctx status bytes s
  | .pieceArrival p sender seq win epoch off crc again bytes t => Sys2Proof.Machine.execPieceArrival p sender seq win epoch off crc again bytes t s
  | .arrivalMark p sender seq win epoch t => Sys2Proof.Machine.execArrivalMark p sender seq win epoch t s
  | .pieceAck run idx reply t => Sys2Proof.Machine.execPieceAck run idx reply t s
  | .lnkCtrlWrite value => Sys2Proof.Machine.execLnkCtrlWrite value s
  | .portTrained p peer t => Sys2Proof.Machine.execPortTrained p peer t s
  | .laneFail p lane t => Sys2Proof.Machine.execLaneFail p lane t s
  | .flitReceive p f crcOk => Sys2Proof.Machine.execFlitReceive p f crcOk s
  | .portDown p t => Sys2Proof.Machine.execPortDown p t s
  | .mirrorReceive addr bytes => Sys2Proof.Machine.execMirrorReceive addr bytes s
  | .mirrorAck member => Sys2Proof.Machine.execMirrorAck member s
  | .dispatch id t mem => Sys2Proof.Machine.execDispatch id t mem s
  | .sliceExpiry fn ctx t => Sys2Proof.Machine.execSliceExpiry fn ctx t s
  | .partApply => Sys2Proof.Machine.execPartApply s
  | .schCtxSchedWrite value => Sys2Proof.Machine.execSchCtxSchedWrite value s
  | .flagClear => Sys2Proof.Machine.execFlagClear s
  | .matmul run g t => Sys2Proof.Machine.execMatmul run g t s
  | .ewCvt run g t => Sys2Proof.Machine.execEwCvt run g t s
  | .ewAdd run g t => Sys2Proof.Machine.execEwAdd run g t s
  | .ewSub run g t => Sys2Proof.Machine.execEwSub run g t s
  | .ewMul run g t => Sys2Proof.Machine.execEwMul run g t s
  | .ewFma run g t => Sys2Proof.Machine.execEwFma run g t s
  | .ewMax run g t => Sys2Proof.Machine.execEwMax run g t s
  | .ewMin run g t => Sys2Proof.Machine.execEwMin run g t s
  | .ewAbs run g t => Sys2Proof.Machine.execEwAbs run g t s
  | .ewNeg run g t => Sys2Proof.Machine.execEwNeg run g t s
  | .ewRelu run g t => Sys2Proof.Machine.execEwRelu run g t s
  | .ewClamp run g t => Sys2Proof.Machine.execEwClamp run g t s
  | .ewAffine run g t => Sys2Proof.Machine.execEwAffine run g t s
  | .ewExp run g t => Sys2Proof.Machine.execEwExp run g t s
  | .ewRecip run g t => Sys2Proof.Machine.execEwRecip run g t s
  | .ewSqrt run g t => Sys2Proof.Machine.execEwSqrt run g t s
  | .ewRsqrt run g t => Sys2Proof.Machine.execEwRsqrt run g t s
  | .ewReluGrad run g t => Sys2Proof.Machine.execEwReluGrad run g t s
  | .ewRequant run g t => Sys2Proof.Machine.execEwRequant run g t s
  | .reduceSum run g t => Sys2Proof.Machine.execReduceSum run g t s
  | .reduceMax run g t => Sys2Proof.Machine.execReduceMax run g t s
  | .sgdMom run g t => Sys2Proof.Machine.execSgdMom run g t s
  | .adamw run g t => Sys2Proof.Machine.execAdamw run g t s
  | .mvMove run g t => Sys2Proof.Machine.execMvMove run g t s
  | .mvPublish run g t => Sys2Proof.Machine.execMvPublish run g t s
  | .rebolt run g t => Sys2Proof.Machine.execRebolt run g t s
  | .window run g t => Sys2Proof.Machine.execWindow run g t s
  | .gather run g t => Sys2Proof.Machine.execGather run g t s
  | .scatter run g t => Sys2Proof.Machine.execScatter run g t s
  | .scatterAdd run g t => Sys2Proof.Machine.execScatterAdd run g t s
  | .attend run g t => Sys2Proof.Machine.execAttend run g t s
  | .sySignal run g t => Sys2Proof.Machine.execSySignal run g t s
  | .syWait run g t => Sys2Proof.Machine.execSyWait run g t s
  | .syWaitRelease run g t => Sys2Proof.Machine.execSyWaitRelease run g t s
  | .syWaitExpired run g t => Sys2Proof.Machine.execSyWaitExpired run g t s
  | .barrier run g t => Sys2Proof.Machine.execBarrier run g t s
  | .barrierRelease run => Sys2Proof.Machine.execBarrierRelease run s
  | .loopBegin run g t => Sys2Proof.Machine.execLoopBegin run g t s
  | .loopEnd run g t => Sys2Proof.Machine.execLoopEnd run g t s
  | .setcount run g t => Sys2Proof.Machine.execSetcount run g t s
  | .ctNop run g t => Sys2Proof.Machine.execCtNop run g t s
  | .ctEnd run g t => Sys2Proof.Machine.execCtEnd run g t s
  | .rdflags run g t => Sys2Proof.Machine.execRdflags run g t s
  | .ldarg run g t => Sys2Proof.Machine.execLdarg run g t s
  | .instructionStart run g queue t mem ups x => Sys2Proof.Machine.execInstructionStart run g queue t mem ups x s
  | .instructionComplete run g queue t mem => Sys2Proof.Machine.execInstructionComplete run g queue t mem s
  | .commitStart run t mem => Sys2Proof.Machine.execCommitStart run t mem s
  | .commitEnd run t => Sys2Proof.Machine.execCommitEnd run t s
  | .holdCopyDone run t mem => Sys2Proof.Machine.execHoldCopyDone run t mem s
  | .comparePassDone run t mem => Sys2Proof.Machine.execComparePassDone run t mem s
  | .slotBCopyDone run t mem => Sys2Proof.Machine.execSlotBCopyDone run t mem s
  | .troyKernelsDone run failing t => Sys2Proof.Machine.execTroyKernelsDone run failing t s
  | .verdict run t mem => Sys2Proof.Machine.execVerdict run t mem s
  | .marchTestDone row hard t => Sys2Proof.Machine.execMarchTestDone row hard t s
  | .scrubRead mem off flips t => Sys2Proof.Machine.execScrubRead mem off flips t s
  | .rowRepairApply mem => Sys2Proof.Machine.execRowRepairApply mem s
  | .patrolRead addr flips t => Sys2Proof.Machine.execPatrolRead addr flips t s
  | .hbmLaneRepair stack lane marginal t => Sys2Proof.Machine.execHbmLaneRepair stack lane marginal t s
  | .hbmRowRepair stack row t => Sys2Proof.Machine.execHbmRowRepair stack row t s
  | .rsvApply => Sys2Proof.Machine.execRsvApply s
  | .rotationDue k pc t => Sys2Proof.Machine.execRotationDue k pc t s
  | .leapRotation k pc t => Sys2Proof.Machine.execLeapRotation k pc t s
  | .emberTestDone unit pass rows t => Sys2Proof.Machine.execEmberTestDone unit pass rows t s
  | .sequencerSwitchover k t => Sys2Proof.Machine.execSequencerSwitchover k t s
  | .emberSliceStart unit t => Sys2Proof.Machine.execEmberSliceStart unit t s
  | .emberSliceEnd unit pass rows t => Sys2Proof.Machine.execEmberSliceEnd unit pass rows t s
  | .emberDeferred unit t => Sys2Proof.Machine.execEmberDeferred unit t s
  | .loanBegin k t => Sys2Proof.Machine.execLoanBegin k t s
  | .loanEnd k t => Sys2Proof.Machine.execLoanEnd k t s
  | .standbySeqTest k pass t => Sys2Proof.Machine.execStandbySeqTest k pass t s
  | .standbyComputusTest pass t => Sys2Proof.Machine.execStandbyComputusTest pass t s
  | .wearJournal t => Sys2Proof.Machine.execWearJournal t s
  | .wearRead who => Sys2Proof.Machine.execWearRead who s
  | .sensorDomainStart => Sys2Proof.Machine.execSensorDomainStart s
  | .followerSync origin rate t => Sys2Proof.Machine.execFollowerSync origin rate t s
  | .followerFreeStart => Sys2Proof.Machine.execFollowerFreeStart s
  | .followerSyncLoss t => Sys2Proof.Machine.execFollowerSyncLoss t s
  | .gptpSyncTransmit mac t => Sys2Proof.Machine.execGptpSyncTransmit mac t s
  | .pdelayReq mac seq t => Sys2Proof.Machine.execPdelayReq mac seq t s
  | .pdelayReqTransmit mac t => Sys2Proof.Machine.execPdelayReqTransmit mac t s
  | .vehicleSyncSample d seconds nanos delay m t => Sys2Proof.Machine.execVehicleSyncSample d seconds nanos delay m t s
  | .domainLoss d t => Sys2Proof.Machine.execDomainLoss d t s
  | .reacq d => Sys2Proof.Machine.execReacq d s
  | .domainCfgWrite d gm value t => Sys2Proof.Machine.execDomainCfgWrite d gm value t s
  | .switchSlewDone t => Sys2Proof.Machine.execSwitchSlewDone t s
  | .steerUpdate t => Sys2Proof.Machine.execSteerUpdate t s
  | .snapshot t => Sys2Proof.Machine.execSnapshot t s
  | .tioApply p t => Sys2Proof.Machine.execTioApply p t s
  | .tioPulse p t => Sys2Proof.Machine.execTioPulse p t s
  | .tioEdge p rising ns t => Sys2Proof.Machine.execTioEdge p rising ns t s
  | .capPop p => Sys2Proof.Machine.execCapPop p s
  | .rplStart t => Sys2Proof.Machine.execRplStart t s
  | .rplStop => Sys2Proof.Machine.execRplStop s
  | .laneSampleStart lane t mem => Sys2Proof.Machine.execLaneSampleStart lane t mem s
  | .emission lane t => Sys2Proof.Machine.execEmission lane t s
  | .late lane t => Sys2Proof.Machine.execLate lane t s
  | .allocation t => Sys2Proof.Machine.execAllocation t s
  | .overCapStep t => Sys2Proof.Machine.execOverCapStep t s
  | .pmbusPoll mw mon t => Sys2Proof.Machine.execPmbusPoll mw mon t s
  | .oppChangeDone region t => Sys2Proof.Machine.execOppChangeDone region t s
  | .droop domain t => Sys2Proof.Machine.execDroop domain t s
  | .stretchEnd domain t => Sys2Proof.Machine.execStretchEnd domain t s
  | .thermalWarn junction hbm t => Sys2Proof.Machine.execThermalWarn junction hbm t s
  | .thermCapStep junction hbm t => Sys2Proof.Machine.execThermCapStep junction hbm t s
  | .pwrAlert t => Sys2Proof.Machine.execPwrAlert t s
  | .thermalTrip junction hbm t => Sys2Proof.Machine.execThermalTrip junction hbm t s
  | .forcingHoldExpiry trip t => Sys2Proof.Machine.execForcingHoldExpiry trip t s
  | .pwrPartCfgWrite who f value => Sys2Proof.Machine.execPwrPartCfgWrite who f value s
  | .verify mem => Sys2Proof.Machine.execVerify mem s
  | .verifyDone => Sys2Proof.Machine.execVerifyDone s
  | .updWrite => Sys2Proof.Machine.execUpdWrite s
  | .writeDone ok => Sys2Proof.Machine.execWriteDone ok s
  | .activate => Sys2Proof.Machine.execActivate s
  | .handover t => Sys2Proof.Machine.execHandover t s
  | .svnCommit => Sys2Proof.Machine.execSvnCommit s
  | .svnBlowDone => Sys2Proof.Machine.execSvnBlowDone s
  | .fuseGo => Sys2Proof.Machine.execFuseGo s
  | .fuseBlowDone => Sys2Proof.Machine.execFuseBlowDone s
  | .attest => Sys2Proof.Machine.execAttest s
  | .attestDone => Sys2Proof.Machine.execAttestDone s
  | .sigreqWrite who value => Sys2Proof.Machine.execSigreqWrite who value s
  | .registerWrite who addr width value t => Sys2Proof.Machine.execRegisterWrite who addr width value t s
  | .lowHalfRead who addr width => Sys2Proof.Machine.execLowHalfRead who addr width s
  | .mgmtAccess bus write addr value => Sys2Proof.Machine.execMgmtAccess bus write addr value s
  | .jtagAccess ir dr => Sys2Proof.Machine.execJtagAccess ir dr s
  | .csi2LinkTrained p up => Sys2Proof.Machine.execCsi2LinkTrained p up s
  | .hostLinkTrained width rate => Sys2Proof.Machine.execHostLinkTrained width rate s
  | .errInRise t => Sys2Proof.Machine.execErrInRise t s
  | .pwrAlertRelease t => Sys2Proof.Machine.execPwrAlertRelease t s
  | .tripCauseEnd junction hbm t => Sys2Proof.Machine.execTripCauseEnd junction hbm t s
  | .thermWarnClear junction hbm t => Sys2Proof.Machine.execThermWarnClear junction hbm t s
  | .dieLost die t => Sys2Proof.Machine.execDieLost die t s
  | .pullRequestArrival p sender win epoch off len t mem => Sys2Proof.Machine.execPullRequestArrival p sender win epoch off len t mem s
  | .announceTransmit mac t => Sys2Proof.Machine.execAnnounceTransmit mac t s

end Sys2Proof.Machine
end

