-- ==== Sys2Proof/Machine/Step.lean ====
section
/-!
DEFINITION. One step: the command at the front of the queue has its effect; on an empty queue one nanosecond of sensor-domain time
passes.
-/
namespace Sys2Proof.Machine

/-- Sensor-domain time goes on by 1 ns, once it has started (R414). DESIGN CHOICE: log entry 2. -/
def Dev.idle (d : Dev) : Dev := if d.running then { d with now := d.now + 1 } else d

/-- One step of the machine. DESIGN CHOICE: log entries 1, 2. -/
def step (s : State) : Host.Outcome State Fault Refusal :=
  match s.pending with
  | [] => .next { s with dev := s.dev.idle }
  | c :: cs => exec c { s with pending := cs }

/-- The state with the command that a word spells at the front of its queue. -/
def State.withFetchWord (s : State) (nbits w : Nat) : State :=
  match Sys2Proof.decodeTableWord nbits w with
  | some c => { s with pending := c :: s.pending }
  | none => s

end Sys2Proof.Machine
end

