-- ==== Sys2Proof/Safety.lean ====
section
/-!
DEFINITION. The terms in which statements speak of a run: a command completes with a named effect on the block, and the invariants of
the block.
-/
namespace Sys2Proof.Machine

/-- The block is out of cold reset: no recognised low level of PORST_N holds it (R524). -/
def Dev.awake (d : Dev) : Prop := d.rst.held = false

/-- Command `c` completes on the block `d` and leaves the block `e`, whatever waits behind it: a next state, with the queue as it was. -/
def Does (c : Instr) (d e : Dev) : Prop := ∀ q : List Instr, exec c ⟨q, d⟩ = .next ⟨q, e⟩

/-- Command `c` completes on the block `d`, and the block it leaves has property `P`. -/
def Completes (c : Instr) (d : Dev) (P : Dev → Prop) : Prop := ∃ e, Does c d e ∧ P e

/-- A source whose reactions start no block reset, neither minor nor severe (R365). -/
def Dev.mild (d : Dev) (src : Nat) : Prop := maskHas (d.coll.src src).minor 2 = false ∧ maskHas (d.coll.src src).severe 2 = false

/-- HBM, the on-chip memories and the memory of the host are in canonical form. -/
def Dev.memWf (d : Dev) : Bool := d.mem.hbm.wf && d.mem.sram.wf && d.mem.host.wf

/-- What every command keeps: the memories are in canonical form, the register table lists rising offsets, the binding map and its journal
have an entry for each of 24 clusters, the commands have rising numbers below the next one to be given, Tithe has an entry for each of 6
regions, and Almanac one for each of 2 domains and 8 pins. -/
def Dev.sound (d : Dev) : Bool :=
  d.memWf && keysRise d.regs.cur && decide (d.leap.clus.length = 24) && decide (d.leap.journal.length = 24) &&
  keysRise d.runs && d.runs.all (fun q => decide (q.1 < d.nextRun)) &&
  decide (d.pwr.opp.length = 6) && decide (d.pwr.changing.length = 6) && decide (d.pwr.waiting.length = 6) &&
  decide (d.alm.doms.length = 2) && decide (d.alm.tio.length = 8)

/-- Commands that act on a block held in cold reset. -/
def ActsInReset (c : Instr) : Prop :=
  (∃ ns, c = .porstNAssert ns) ∨ (∃ b m r v, c = .maskRomBoot b m r v) ∨ ∃ ir dr, c = .jtagAccess ir dr

/-- Every byte of HBM and of host memory reads the same. -/
def sameMemory (d e : Dev) : Prop := e.mem.hbm = d.mem.hbm ∧ e.mem.host = d.mem.host

/-- Every register but those at the listed offsets reads the same. -/
def sameRegsBut (offs : List Nat) (d e : Dev) : Prop := ∀ o, o ∉ offs → e.reg o = d.reg o

/-! ## Engine instructions -/

/-- An operand's runs hold the on-chip byte `key`. -/
def Acc2.covers (a : Acc2) (key : Nat) : Prop := ∃ s ∈ a.t.segs, a.pl.key + s.1 ≤ key ∧ key < a.pl.key + s.1 + s.2

/-- Every element of an operand has the value that a function of its coordinates gives it. -/
def Filled (a : Acc2) (val : Nat × Nat × Nat × Nat → Nat) (e : Dev) : Prop :=
  ∀ x ∈ a.t.coords, Acc2.get e a x = val x % 2 ^ (4 * a.t.nibs)

/-- The OR of the flags that a list of elements gives. -/
def orAll {α : Type} (l : List α) (fl : α → Nat) : Nat := l.foldl (fun n x => n ||| fl x) 0

/-- Instruction `c` of member `g` has entered queue `q` at time `t`, with duration `ac` and the regions its selectors declare (R196, R223,
R227): the member goes on behind it, and nothing else of the block has changed. -/
def Issued (q id g t : Nat) (c : Cur) (ac : Option Nat) (regs : List (Nat × Extent)) (d e : Dev) : Prop :=
  e = { d with now := Nat.max d.now t, runs := e.runs } ∧
  e.runs = (d.modMember id g (fun m => { m with
    pc := c.i.idx + c.i.len, issued := m.issued + 1,
    queues := m.queues.mapIdx (fun i x => if i = q then x ++ [
      { ord := m.issued, at_ := Nat.max d.now t, idx := c.i.idx, iters := m.iters, loops := m.loops, counts := m.counts, started := none,
        ac := ac, done := 0, since := 0, reads := selRegion (iRd0 c.i.w) regs ++ selRegion (iRd1 c.i.w) regs,
        write := (selRegion (iWr c.i.w) regs).head?, touched := [], chk := [] }] else x) })).runs

/-- Instruction `c` of member `g`, with the loop state and the count registers of its issue, heads queue `q`, and the scoreboard and the
attention unit let it start (R223, R227, R302). -/
def MayBegin (d : Dev) (id g q : Nat) (c : Cur) : Prop :=
  ∃ (m : Member) (l : LongIns), d.queueHead id g q = some (c.r, m, l) ∧ m.mayStart q = true ∧
    (q = qAttend → c.r.attendTurn g l = true) ∧ d.issued c.r m l = some c

/-- The instruction at the head of queue `q` of member `g` has started at time `t`: its flags are set, the errors and outcomes of its
accesses to the operands `accs` are still to come, and nothing else of the block has changed but on-chip bytes of `outs`. -/
def Begun (q id g t flags : Nat) (range : Bool) (chk : List Nat) (accs outs : List Acc2) (d e : Dev) : Prop :=
  (∃ touched wrote : List Extent, (∀ a ∈ accs, a.keys ∈ touched) ∧
    e.runs = ((d.modMember id g (fun m => { m with
      aflags := m.aflags ||| flags,
      queues := m.queues.mapIdx (fun i x => if i = q then x.mapIdx (fun j o => if j = 0 then
        { o with started := some (Nat.max d.now t), since := Nat.max d.now t, touched := touched, chk := chk } else o) else x) })).modRun id
      (fun r => { r with indexRange := r.indexRange || range, wrote := r.wrote ++ wrote })).runs) ∧
  e = { d with now := Nat.max d.now t, runs := e.runs, mem := { d.mem with sram := e.mem.sram } } ∧
  ∀ key, (∀ a ∈ outs, ¬ a.covers key) → e.mem.sram.read key = d.mem.sram.read key

/-- A warm reset with cause `cause` has begun, keeping HBM if `keep` (R487, R500, R508): what the compute side held is gone; time, the
collector's counts and statuses, the Leap maps and the fuses survive. -/
def WarmBegun (cause : Nat) (keep : Bool) (d e : Dev) : Prop :=
  (e.rst.warm = true ∧ e.rst.hbmReady = false ∧ e.rst.linkUp = false ∧ e.rst.keepHbm = keep ∧ e.rst.low = 0) ∧
  (e.f F.HIF_RST_CAUSE.CAUSE = cause ∧ e.on F.HIF_RST_CAUSE.HBM_KEPT = keep) ∧
  (e.ctxs = [] ∧ e.runs = [] ∧ e.mods = [] ∧ e.tdt = [] ∧ e.flags = [] ∧ e.frame.banks = [[], []]) ∧
  (e.coll.srcs = d.coll.srcs ∧ e.coll.pending = d.coll.pending ∧ e.coll.severe = d.coll.severe ∧ e.coll.latch = d.coll.latch ∧
    e.coll.first = d.coll.first) ∧
  e.leap.clus = d.leap.clus ∧ e.alm = d.alm ∧ e.fuses = d.fuses

end Sys2Proof.Machine
end

