-- ==== Sys2Proof/Certificates/Slice0/Obligations.lean ====
section
/-!
DEFINITION. The statements about the block, one proposition each, in the order of OBLIGATIONS.json.
-/
open Sys2Proof Sys2Proof.Machine

/-- One step with a command at the front of the queue is that command's `exec` with the rest of the queue; on an empty queue one nanosecond
of sensor-domain time passes once the sensor domain runs, and nothing else changes (model's choice, log entries 1 and 2). -/
def Obligations.StepRunsTheFrontOfTheQueue : Prop :=
  (∀ (c : Instr) (cs : List Instr) (d : Dev), step ⟨c :: cs, d⟩ = exec c ⟨cs, d⟩) ∧
  (∀ d : Dev, step ⟨[], d⟩ = .next ⟨[], if d.running then { d with now := d.now + 1 } else d⟩)

/-- Every command of the table completes from every state, and leaves the queue as it was; while a recognised low level of PORST_N holds the
block, only PORST_N, the boot and the JTAG port, which then drives no TDO bit, act (R524). Choices of the model in it: log entries 14, 166. -/
def Obligations.CommandsCompleteAndResetHoldsTheBlock : Prop :=
  (∀ (c : Instr) (s : State), ∃ e : Dev, exec c s = .next ⟨s.pending, e⟩) ∧
  (∀ (c : Instr) (d : Dev), d.rst.held = true → ¬ ActsInReset c → Does c d d)

/-- An invariant that every step keeps: HBM, the on-chip memories and host memory stay in canonical form, the register table keeps rising
offsets, the Leap binding map and its journal keep an entry for each of 24 clusters, and the commands keep rising numbers below the next one
to be given. Choices of the model in it: log entries 2, 10. -/
def Obligations.EveryStepKeepsTheBlockSound : Prop :=
  ∀ s t : State, s.dev.sound = true → step s = .next t → t.dev.sound = true

/-- The state after reset: no command waits and the block is sound and out of reset; the collector has no event, no reset is in progress,
HBM holds zeros, no context, command, module, frame or Bushel entry exists, frame numbers start at 0 before the first tick, and the
registers read the reset values the spec states (R10; the identity of the part, and that the link is up, are choices of the model). Choices
of the model in it: log entries 6, 7, 8, 10, 11, 12, 184. -/
def Obligations.ResetState : Prop :=
  State.reset.pending = [] ∧ State.reset.dev.sound = true ∧ State.reset.dev.awake ∧
  (let d := State.reset.dev
   (d.coll.pending = 0 ∧ d.coll.severe = 0 ∧ d.coll.latch = 0 ∧ d.coll.first = none ∧ d.coll.blockResets = []) ∧
   (d.rst.warm = false ∧ d.rst.low = 0 ∧ d.rst.entering = 0 ∧ d.frame.frameNo = 0 ∧ d.frame.started = false) ∧
   (d.ctxs = [] ∧ d.runs = [] ∧ d.mods = [] ∧ d.kv.entries = [] ∧ d.flags = []) ∧
   (∀ a, d.mem.hbm.read a = 0) ∧ d.mem.poison = [] ∧
   (∀ o, d.reg o = d.rst0 o) ∧ d.f F.PWR_CTRL.CAP_W = 175)

/-- Flags only rise (R233, R237): an addition that would pass 0xFFFF_FFFF leaves the flag there and raises FLAG_SATURATED, and changes no
other flag; whatever the command, no flag is lower after it than before, unless a warm reset, Keep or a boot has made them all zero, or a
clear of a range, by SCH_FLAG_CLR, has. -/
def Obligations.FlagsOnlyRise : Prop :=
  (∀ (d : Dev) (n v : Nat),
    (d.flagAdd n v).flag n = Nat.min (d.flag n + v) 0xFFFFFFFF ∧ (∀ i, i ≠ n → (d.flagAdd n v).flag i = d.flag i) ∧
    (0xFFFFFFFF < d.flag n + v → d.coll.ready = true → (d.flagAdd n v).coll.pending = setBit512 d.coll.pending 0x0C4) ∧
    (d.flag n + v ≤ 0xFFFFFFFF → (d.flagAdd n v).coll = d.coll)) ∧
  (∀ (c : Instr) (d e : Dev), (∀ n, d.flag n ≤ 0xFFFFFFFF) → Does c d e →
    (∀ n, d.flag n ≤ e.flag n ∧ e.flag n ≤ 0xFFFFFFFF) ∨
    (e.flags = [] ∧ (e.rst.warm = true ∨ e.rst.low = 2 ∨ ∃ b m r v, c = .maskRomBoot b m r v)) ∨
    ((c = .flagClear ∨ (∃ m, c = .manifestEntry m) ∨ ∃ who a w v t, c = .registerWrite who a w v t) ∧ ∀ n, e.flag n = d.flag n ∨ e.flag n = 0))

/-- Reads and writes of registers (R10, R511 to R514): where no register answers, a write is ignored and a read returns zero, and a virtual
function reaches only its own page; a written RW field takes the value, an RO field keeps its own, and a one clears a W1C bit; a counter is
cleared by its read; a 64-bit read of a 64-bit register is one read, and a 32-bit read of the lower half of a 64-bit RO register latches the
upper half for that requester. Configuration space names the part and its class (R97; the vendor identifier is a free value), the MSI-X
table of a function has a data word for each of 128 vectors that reads as written (R96), and a doorbell page reads as zero (R110). Writes
that act (R10, R376, R479, R498, R500, R517, R525): a write that sets a command's bit has that command's effect; under LOCK a host write of
a locked field is ignored and sets BAD_CFG, and otherwise a value in range is taken; the management port answers on its bus at its own
address, reads its registers as 32-bit words and can only write WAKE; and the JTAG port shifts out IDCODE, but nothing while the block is
held in reset. Choices of the model in it: log entries 16, 17, 18, 19, 24, 25, 26, 27, 30, 162, 184. -/
def Obligations.RegisterAccesses : Prop :=
  ((∀ (d : Dev) (who : Who) (a w v t : Nat), d.awake → (∀ n, who ≠ .cfg n) → (∀ n, who ≠ .msix n) → (∀ n p, who ≠ .bell n p) →
     (d.hitReg who a = none → w = 4 ∨ w = 8 ∧ d.hitReg who (a + 4) = none → Does (.registerWrite who a w v t) d (d.at_ t)) ∧
     (w < 4 ∨ a % w ≠ 0 → Does (.registerWrite who a w v t) d (d.at_ t)) ∧
     (d.hitReg who a = none → d.portOpen who = true → a % 4 = 0 → Does (.lowHalfRead who a 4) d (d.ret [0, 0, 0, 0])) ∧
     (d.hitReg who a = none → d.portOpen who = true → Does (.readClear who a) d (d.ret [0, 0, 0, 0]))) ∧
   (∀ (d : Dev) (n a : Nat), 0x20 ≤ a → a < 0x1000 ∨ 0x1040 ≤ a → d.hitReg (.vf n) a = none) ∧
   (∀ (lo hi w v : Nat) (f : FieldDesc), f.lo ≤ f.hi → lo ≤ f.lo → f.hi < hi →
     bits (storeFld lo hi w v f) f.hi f.lo = match f.acc with
       | .rw => bits w f.hi f.lo
       | .w1c => bits v f.hi f.lo &&& (bits w f.hi f.lo ^^^ (2 ^ (f.hi + 1 - f.lo) - 1))
       | _ => bits v f.hi f.lo) ∧
   (∀ (d : Dev) (who : Who) (a : Nat) (h : RegHit), d.awake → d.portOpen who = true → a % 4 = 0 → d.hitReg who a = some h → h.r.rc = true →
     Completes (.readClear who a) d (fun e => e.out.rdata = leBytes 4 (d.regWord who a) ∧ e.mem = d.mem ∧ e.coll = d.coll ∧
       (if h.r.addr = R.SCH_CTX_PEAK then ∀ c, d.ctx d.selKey = some c → e.ctx d.selKey = some { c with peak := 0 }
        else if h.r.addr = R.SCH_CTX_PREEMPT then ∀ c, d.ctx d.selKey = some c → e.ctx d.selKey = some { c with preempts := 0 }
        else e.reg h.key = 0 ∧ sameRegsBut [h.key] d e))) ∧
   (∀ (d : Dev) (who : Who) (a : Nat) (h : RegHit), d.awake → d.portOpen who = true → a % 4 = 0 → d.hitReg who a = some h →
     h.r.latches = true → h.r.rc = false → (h.r.addr < R.ALM_TIO_CFG 0 ∨ R.LAM_PORT_CFG 0 ≤ h.r.addr) →
     h.r.addr ≠ R.ALM_KAL_FRAME_LO → h.r.addr ≠ R.SAF_WEAR_DATA 0 → h.r.addr ≠ R.KVU_ENTRY_DATA 0 →
     (h.z = 0 → Completes (.lowHalfRead who a 4) d (fun e => e.out.rdata = leBytes 4 (d.regValue who h) ∧
       (∀ x : BitVec 64, mget x e.regs.latch (latchKey who h.key) = BitVec.ofNat 64 (d.regValue who h / 2 ^ 32)) ∧
       sameRegsBut [] d e ∧ e.mem = d.mem ∧ e.coll = d.coll)) ∧
     (h.z ≠ 0 → ∀ u, mfind d.regs.latch (latchKey who h.key) = some u →
       Does (.lowHalfRead who a 4) d (d.ret (leBytes 4 u.toNat)))) ∧
   (∀ (d : Dev) (who : Who) (a : Nat) (h : RegHit), d.awake → d.portOpen who = true → d.hitReg who a = some h → h.r.wide = true → h.z = 0 →
     who ≠ .mgmt → h.r.addr ≠ R.FLT_FIRST_ADDR → Does (.lowHalfRead who a 8) d (d.ret (leBytes 8 (d.regValue who h)))) ∧
   (∀ (d : Dev) (fn : Nat), d.awake → d.rst.linkUp = true → d.rst.warm = false → d.sec.overLink = false → fn < 16 →
     Does (.lowHalfRead (.cfg fn) 0 4) d
       (d.ret (leBytes 4 (Config.vendorId % 65536 + (d.fuses.partCode + if fn = 0 then 0 else 1) % 65536 * 65536))) ∧
     Completes (.lowHalfRead (.cfg fn) 8 4) d (fun e => e = d.ret e.out.rdata ∧ e.out.rdata.drop 1 = leBytes 3 0x120000)) ∧
   (∀ (d : Dev) (fn page a w : Nat), d.awake → d.portOpen (.bell fn page) = true →
     Does (.lowHalfRead (.bell fn page) a w) d (d.ret (List.replicate w 0))) ∧
   (∀ (d : Dev) (fn n v t : Nat), d.awake → d.rst.linkUp = true → d.rst.warm = false → d.sec.overLink = false → fn < 16 →
     d.barsOpen fn = true → n < 128 → v < 2 ^ 32 →
     Does (.lowHalfRead (.msix fn) (16 * n + 8) 4) d (d.ret (leBytes 4 ((d.cfgOf fn).msixWord (4 * n + 2)))) ∧
     Completes (.registerWrite (.msix fn) (16 * n + 8) 4 v t) d (fun e => (e.cfgOf fn).msixWord (4 * n + 2) = v ∧
       (∀ m, m ≠ 4 * n + 2 → (e.cfgOf fn).msixWord m = (d.cfgOf fn).msixWord m) ∧ e.mem = d.mem ∧ e.regs = d.regs))) ∧
  ((∀ (d : Dev) (t : Nat), d.awake → d.portOpen .pf = true → d.sec.overLink = false →
     Does (.registerWrite .pf R.HIF_RST_CTRL 4 1 t) d (d.at_ t).warmWrite ∧
     Does (.registerWrite .pf R.SCH_ORDO_CTRL 4 1 t) d ((d.at_ t).ordoSwitch []) ∧
     Does (.registerWrite .pf R.SEC_UPD_CTRL 4 1 t) d ((d.at_ t).verify []) ∧
     Does (.registerWrite .pf R.SEC_UPD_CTRL 4 2 t) d (d.at_ t).updWrite ∧
     Does (.registerWrite .pf R.SEC_UPD_CTRL 4 4 t) d (d.at_ t).activate ∧
     Does (.registerWrite .pf R.SEC_SVN 4 1 t) d (d.at_ t).svnCommit ∧
     Does (.registerWrite .pf R.FLT_FIRST_INFO 4 0x80000000 t) d (d.at_ t).validClear) ∧
   (∀ (d : Dev) (v t : Nat), d.awake → d.portOpen .pf = true → d.sec.overLink = false →
     (d.on F.FLT_CTRL.LOCK = true → v % 512 ≠ d.f F.PWR_CTRL.CAP_W ∨ bitOf v 9 = false → Completes (.registerWrite .pf R.PWR_CTRL 4 v t) d (fun e =>
       e.f F.PWR_CTRL.CAP_W = d.f F.PWR_CTRL.CAP_W ∧ e.on F.PWR_CTRL.BAD_CFG = true)) ∧
     (d.on F.FLT_CTRL.LOCK = false → d.capMin ≤ v % 512 → v % 512 ≤ d.capMax →
       1 ≤ bits v 22 13 → bits v 22 13 ≤ 1000 →
       Completes (.registerWrite .pf R.PWR_CTRL 4 v t) d (fun e => e.f F.PWR_CTRL.CAP_W = v % 512 ∧
         e.f F.PWR_CTRL.CONS_OPP = bits v 12 10 ∧ e.f F.PWR_CTRL.ALERT_HOLD_MS = bits v 22 13 ∧
         e.on F.PWR_CTRL.BAD_CFG = (d.on F.PWR_CTRL.BAD_CFG && !bitOf v 9)))) ∧
   (∀ (d : Dev) (b : MgmtBus) (a v : Nat), d.awake → b.assign = none →
     (d.answers b = true ↔ b.addr = if b.i3c then d.rst.i3c.getD (0x4C + d.rst.mgmtAddr) else 0x4C + d.rst.mgmtAddr) ∧
     (d.answers b = false → ∀ wr, Does (.mgmtAccess b wr a v) d d) ∧
     (d.answers b = true → a ≠ R.PWR_LP_CTRL ∨ bitOf v 2 = false → Does (.mgmtAccess b true a v) d d) ∧
     (d.answers b = true → bitOf v 2 = true → Does (.mgmtAccess b true R.PWR_LP_CTRL v) d (d.wake .mgmt [])) ∧
     (d.answers b = true → a % 4 = 0 → mgmtReg a = true → d.sec.overLink = false →
       Does (.mgmtAccess b false a v) d (d.ret (leBytes 4 (d.regWord .mgmt a)))) ∧
     (d.answers b = true → a % 4 ≠ 0 ∨ mgmtReg a = false → Does (.mgmtAccess b false a v) d (d.ret [0, 0, 0, 0])) ∧
     (d.answers b = true → Does (.mgmtAccess b false R.HIF_ID v) d (d.ret (leBytes 4 d.idReg))) ∧
     (∀ w, w ≠ 4 ∨ a % 4 ≠ 0 → Does (.lowHalfRead .mgmt a w) d (d.ret (List.replicate w 0)))) ∧
   (∀ (d : Dev) (b : MgmtBus) (n a v : Nat) (wr : Bool), d.awake → b.assign = some n →
     Does (.mgmtAccess b wr a v) d (Dev.mgmtAccess { d with rst := { d.rst with i3c := some n } } { b with assign := none } wr a v)) ∧
   (∀ (d : Dev) (ir : Nat) (dr : List Bool), d.rst.held = true → Does (.jtagAccess ir dr) d (d.ret [])) ∧
   (∀ (d : Dev) (dr : List Bool), d.awake → dr.length = 32 → d.fuses.stepping < 16 → d.fuses.partCode < 65536 →
     let code := d.fuses.stepping * 2 ^ 28 + d.fuses.partCode * 2 ^ 12 + 0x2E7 * 2 + 1
     (d.fuses.partCode = 0x9600 → d.fuses.stepping = 1 → code = 0x196005CF) ∧
     Does (.jtagAccess 1 dr) d (d.ret ((List.range 32).map (fun i => code / 2 ^ i % 2)))))

/-- A write operand maps no two elements to one place (R149, R151 to R156): when every element of a writable tensor is written, each reads
back its own value, and no byte outside the tensor's runs changes. An operand is aligned when its base, the strides of its dimensions above
1 and its gang stride are multiples of the width (R157). Choices of the model in it: log entry 13. -/
def Obligations.WrittenElementsReadBack : Prop :=
  (∀ (d : Dev) (a : Acc2) (val : Nat × Nat × Nat × Nat → Nat), a.t.writable = true →
    let e := a.t.coords.foldl (fun (s : Dev) x => Acc2.put s a x (val x)) d
    Filled a val e ∧ ∀ key, ¬ a.covers key → e.mem.sram.read key = d.mem.sram.read key) ∧
  (∀ (a : Acc2) (w gs : Nat), a.unaligned w gs = [] ↔
    a.addr % w = 0 ∧ gs % w = 0 ∧ ∀ n ∈ [1, 2, 3], 1 < a.t.dim n → a.t.stride n % w = 0)

/-- The element-wise instructions of codes 0x00 to 0x10, REQUANT and the reductions at issue (R186 to R188, R191, R202, R258, R532): with an
admitted domain and layout, operands on chip, matching shapes, no overlap but one that coincides, and aligned operands, the instruction
enters the ARRAY queue with its duration. A domain or layout that is not admitted ends the command with FORMAT, else an operand that fails
with its own status, else a shape or an overlap that does not fit with BOUNDS, else a misaligned operand with ALIGN. What an element-wise
instruction does when it starts (R186, R187, R191, R258, R340, R532): every element of OUT is the operation's result on the elements at its
coordinates, as they stand at the start, converted to OUT's format; a reduction combines the elements along its axis in ascending order, one
rounding a step in FP32, an integer sum exact and saturated once. The flags of every element are set. An upset inverts bits of the elements
of its block and bypass lane, whose order and place run 2 reverses. Choices of the model in it: log entries 15, 96, 100. -/
def Obligations.ElementWiseInstructions : Prop :=
  ((∀ p ∈ [(Instr.ewCvt, 0x00), (.ewAdd, 0x01), (.ewSub, 0x02), (.ewMul, 0x03), (.ewFma, 0x04), (.ewMax, 0x05), (.ewMin, 0x06),
       (.ewAbs, 0x07), (.ewNeg, 0x08), (.ewRelu, 0x09), (.ewClamp, 0x0A), (.ewAffine, 0x0B), (.ewExp, 0x0C), (.ewRecip, 0x0D),
       (.ewSqrt, 0x0E), (.ewRsqrt, 0x0F), (.ewReluGrad, 0x10)],
     ∀ (d : Dev) (id g t : Nat) (c : Cur), d.awake → d.curOp id g 1 p.2 = some c → c.stalls qArray = false →
     let f := ewFields c.i
     let ins := ewIns c p.2
     let out := c.desc 2
     let admitted := (if f.int then opInt p.2 = true ∧ ∀ a ∈ ins, isInt a.dtype = true else opFp p.2 = true) ∧
       ∀ a ∈ out :: ins, a.layout = 0 ∨ a.layout = 3
     let shaped := (∀ a ∈ ins, ∀ n ∈ [0, 1, 2, 3], a.dim n = 1 ∨ a.dim n = out.dim n) ∧
       (p.2 = 0x0A → if f.int then toSigned 32 f.s0 ≤ toSigned 32 f.s1 else
         (ofBits32 f.s0).gt (ofBits32 f.s1) = false ∨ ((ofBits32 f.s0).isZero = true ∧ (ofBits32 f.s1).isZero = true))
     (¬ admitted → Does (p.1 id g t) d ((d.at_ t).endOwn id stFormat)) ∧
     (∀ s, admitted → d.ewOps c g p.2 = .error s → Does (p.1 id g t) d ((d.at_ t).endOwn id s)) ∧
     (∀ o, admitted → d.ewOps c g p.2 = .ok o →
       let apart := (o.ins.filter o.out.overlaps).length ≤ 1 ∧ ∀ a ∈ o.ins, o.out.overlaps a = true → o.out.same a = true
       (shaped → apart → ewUnaligned c o = [] → Completes (p.1 id g t) d
         (Issued qArray id g t c (some (ewTime ((o.out :: o.ins).map (fun a => a.t)) o.nibs)) o.regs d)) ∧
       (¬ (shaped ∧ apart) → Does (p.1 id g t) d ((d.at_ t).endOwn id stBounds)) ∧
       (shaped → apart → ewUnaligned c o ≠ [] → Does (p.1 id g t) d ((d.at_ t).endOwn id stAlign)))) ∧
   (∀ (d : Dev) (id g t : Nat) (c : Cur), d.awake → d.curOp id g 1 0x11 = some c → c.stalls qArray = false →
     let f := ewFields c.i
     let s := bits f.s1 5 0
     let z := toSigned 8 (bits f.s1 15 8)
     (bits f.s1 7 6 ≠ 0 ∨ bits f.s1 31 16 ≠ 0 → Does (.ewRequant id g t) d ((d.at_ t).endOwn id stReserved)) ∧
     (∀ o, d.ewOps c g 0x11 = .ok o → bits f.s1 7 6 = 0 → bits f.s1 31 16 = 0 → o.out.t.dtype ∈ [0, 1, 7] → s ≠ 63 →
       (o.out.t.dtype = 0 → -8 ≤ z ∧ z ≤ 7) → f.int = true → isInt o.a.t.dtype = true →
       (o.a.t.layout = 0 ∨ o.a.t.layout = 3) → (o.out.t.layout = 0 ∨ o.out.t.layout = 3) →
       (∀ n ∈ [0, 1, 2, 3], o.a.t.dim n = 1 ∨ o.a.t.dim n = o.out.t.dim n) → (o.out.overlaps o.a = true → o.out.same o.a = true) →
       ewUnaligned c o = [] →
       Completes (.ewRequant id g t) d (Issued qArray id g t c (some (ewTime [o.out.t, o.a.t] o.nibs)) o.regs d))) ∧
   (∀ (d : Dev) (id g t : Nat) (mx : Bool) (c : Cur) (o : EwOp), d.awake →
     d.curOp id g 1 (if mx then 0x13 else 0x12) = some c → c.stalls qArray = false → d.ewOps c g (if mx then 0x13 else 0x12) = .ok o →
     let f := ewFields c.i
     (f.int = true → isInt o.a.t.dtype = true) → (o.a.t.layout = 0 ∨ o.a.t.layout = 3) → (o.out.t.layout = 0 ∨ o.out.t.layout = 3) →
     (∀ n ∈ [0, 1, 2, 3], o.out.t.dim n = if n = f.axis then 1 else o.a.t.dim n) → (o.out.overlaps o.a = true → o.out.same o.a = true) →
     ewUnaligned c o = [] →
     Completes ((if mx then Instr.reduceMax else .reduceSum) id g t) d
       (Issued qArray id g t c (some (ewTime [o.out.t, o.a.t] o.nibs)) o.regs d))) ∧
  ((∀ (d : Dev) (id g t : Nat) (c : Cur) (o : EwOp) (ups : List Upset), d.awake → MayBegin d id g qArray c → c.i.cls = 1 → c.i.op ≤ 0x10 →
     d.ewOps c g c.i.op = .ok o →
     let f := ewFields c.i
     let val := fun q =>
       let r := d.ewPoint f c.i.op o q
       let b := ewOut f o.out.t.dtype (ewRnd f (d.ewKey c f) g (o.out.t.linear q.1 q.2.1 q.2.2.1 q.2.2.2)) r.1
       (b.1, r.2 ||| b.2)
     Completes (.instructionStart id g qArray t [] ups none) d (fun e =>
       Filled o.out (fun q => ewElement c.oct ups o.out.t q (val q).1) e ∧
       Begun qArray id g t (orAll o.out.t.coords (fun q => (val q).2)) false [] (o.out :: o.ins) [o.out] d e)) ∧
   (∀ (d : Dev) (id g t : Nat) (c : Cur) (o : EwOp) (ups : List Upset), d.awake → MayBegin d id g qArray c → c.i.cls = 1 → c.i.op = 0x11 →
     d.ewOps c g 0x11 = .ok o →
     let f := ewFields c.i
     let s := bits f.s1 5 0
     let z := toSigned 8 (bits f.s1 15 8)
     let a := fun (q : Nat × Nat × Nat × Nat) => elInt o.a.t.dtype (d.rdB o.a q.1 q.2.1 q.2.2.1 q.2.2.2)
     let r := fun q => if o.out.t.dtype = 7 then satI32 (rneInt (a q * toSigned 32 f.s0) s + z)
       else requant o.out.t.dtype (a q) (toSigned 32 f.s0) s z
     Completes (.instructionStart id g qArray t [] ups none) d (fun e =>
       Filled o.out (fun q => ewElement c.oct ups o.out.t q (intBits o.out.t.dtype (r q).1)) e ∧
       Begun qArray id g t (orAll o.out.t.coords (fun q => (r q).2)) false [] [o.out, o.a] [o.out] d e)) ∧
   (∀ (d : Dev) (id g t : Nat) (mx : Bool) (c : Cur) (o : EwOp) (ups : List Upset), d.awake → MayBegin d id g qArray c → c.i.cls = 1 →
     c.i.op = (if mx then 0x13 else 0x12) → d.ewOps c g c.i.op = .ok o →
     let f := ewFields c.i
     let x := fun j (q : Nat × Nat × Nat × Nat) => Acc2.get d o.a (along f.axis j q)
     let js := (List.range (o.a.t.dim f.axis - 1)).map (fun j => j + 1)
     let si := fun q => satI32 (js.foldl (fun (s : Int) j => let y := elInt o.a.t.dtype (x j q); if mx then max s y else s + y)
       (elInt o.a.t.dtype (x 0 q)))
     let sf := fun q => js.foldl (fun (s : Machine.Num × Nat) j =>
       let e := fpEpi (if mx then 0x05 else 0x01) s.1 (elNum o.a.t.dtype (x j q)) numZero numZero numZero
       (e.1, s.2 ||| e.2)) (elNum o.a.t.dtype (x 0 q), nanIn [elNum o.a.t.dtype (x 0 q)])
     let res := fun q => if f.int then
         ((outInt o.out.t.dtype f.ovf (si q).1).1, (si q).2 ||| (outInt o.out.t.dtype f.ovf (si q).1).2)
       else
         let b := outFp o.out.t.dtype (ewRnd f (d.ewKey c f) g (o.out.t.linear q.1 q.2.1 q.2.2.1 q.2.2.2)) f.ovf (sf q).1
         (b.1, (sf q).2 ||| b.2)
     Completes (.instructionStart id g qArray t [] ups none) d (fun e =>
       Filled o.out (fun q => ewElement c.oct ups o.out.t q (res q).1) e ∧
       Begun qArray id g t (orAll o.out.t.coords (fun q => (res q).2)) false [] [o.out, o.a] [o.out] d e)))

/-- SGD_MOM and ADAMW (R157, R186, R188, R192, R193): on aligned FP32 tensors of one shape that share no byte the instruction enters the
ARRAY queue; when it starts, w, m and, for ADAMW, v become in place what the formulas give for the elements at the same coordinates; the
gradient is only read. Choices of the model in it: log entry 15. -/
def Obligations.OptimisersUpdateInPlace : Prop :=
  (∀ (d : Dev) (id g t : Nat) (c : Cur) (w gr m : Acc2), d.awake → d.curOp id g 1 0x14 = some c → c.stalls qArray = false →
    d.optOps c g 0x14 = .ok [w, gr, m] → (ewFields c.i).int = false →
    (∀ a ∈ [w.t, gr.t, m.t], (a.layout = 0 ∨ a.layout = 3) ∧ a.dtype = 8) → (w.t.sameDims gr.t = true ∧ w.t.sameDims m.t = true) →
    (gr.overlaps w = false ∧ m.overlaps w = false ∧ m.overlaps gr = false) →
    c.unaligned 0 w = [] → c.unaligned 1 gr = [] → c.unaligned 2 m = [] →
    Completes (.sgdMom id g t) d (Issued qArray id g t c (some (ewTime [w.t, gr.t, m.t] 40))
      [(0, w.region), (1, gr.region), (2, m.region)] d)) ∧
  (∀ (d : Dev) (id g t : Nat) (c : Cur) (w gr m v : Acc2), d.awake → d.curOp id g 1 0x15 = some c → c.stalls qArray = false →
    d.optOps c g 0x15 = .ok [w, gr, m, v] → (ewFields c.i).int = false →
    (∀ a ∈ [w.t, gr.t, m.t, v.t], (a.layout = 0 ∨ a.layout = 3) ∧ a.dtype = 8) →
    (w.t.sameDims gr.t = true ∧ w.t.sameDims m.t = true ∧ w.t.sameDims v.t = true) →
    (gr.overlaps w = false ∧ m.overlaps w = false ∧ m.overlaps gr = false ∧ v.overlaps w = false ∧ v.overlaps gr = false ∧
      v.overlaps m = false) →
    c.unaligned 0 w = [] → c.unaligned 1 gr = [] → c.unaligned 2 m = [] → c.unaligned 3 v = [] →
    Completes (.adamw id g t) d (Issued qArray id g t c (some (ewTime [w.t, gr.t, m.t, v.t] 56))
      [(0, w.region), (1, gr.region), (2, m.region), (3, v.region)] d)) ∧
  (∀ (d : Dev) (id g t : Nat) (c : Cur) (w gr m : Acc2) (ups : List Upset), d.awake → MayBegin d id g qArray c → c.i.cls = 1 →
    c.i.op = 0x14 → d.optOps c g 0x14 = .ok [w, gr, m] → (w.t.sameDims gr.t = true ∧ w.t.sameDims m.t = true) →
    m.overlaps w = false →
    let f := ewFields c.i
    let el := fun (a : Acc2) q => ofBits32 (Acc2.get d a q)
    let r := fun q => sgdPoint (ofBits32 f.s0) (ofBits32 f.s1) (el w q) (el gr q) (el m q)
    let out := fun q (x : Machine.Num) => ewElement c.oct ups w.t q x.toBits32
    Completes (.instructionStart id g qArray t [] ups none) d (fun e =>
      Filled w (fun q => out q (r q).1) e ∧ Filled m (fun q => out q (r q).2.1) e ∧
      Begun qArray id g t (orAll w.t.coords (fun q => (r q).2.2)) false [] [w, gr, m] [w, m] d e)) ∧
  (∀ (d : Dev) (id g t : Nat) (c : Cur) (w gr m v : Acc2) (ups : List Upset), d.awake → MayBegin d id g qArray c → c.i.cls = 1 →
    c.i.op = 0x15 → d.optOps c g 0x15 = .ok [w, gr, m, v] →
    (w.t.sameDims gr.t = true ∧ w.t.sameDims m.t = true ∧ w.t.sameDims v.t = true) →
    (m.overlaps w = false ∧ v.overlaps w = false ∧ v.overlaps m = false) →
    let el := fun (a : Acc2) q => ofBits32 (Acc2.get d a q)
    let r := fun q => adamPoint (adamScalars c.i) (el w q) (el gr q) (el m q) (el v q)
    let out := fun q (x : Machine.Num) => ewElement c.oct ups w.t q x.toBits32
    Completes (.instructionStart id g qArray t [] ups none) d (fun e =>
      Filled w (fun q => out q (r q).1) e ∧ Filled m (fun q => out q (r q).2.1) e ∧ Filled v (fun q => out q (r q).2.2.1) e ∧
      Begun qArray id g t (orAll w.t.coords (fun q => (r q).2.2.2)) false [] [w, gr, m, v] [w, m, v] d e))

/-- MATMUL (R157, R168 to R174, R206, R334, R335, R340): when its checks pass it enters the ARRAY queue with its T, else the first failed
check gives the command's status. When it starts it reads its parameter block, and every element of OUT is the sequence of K steps on its
own operands, saturated, negated, passed through the epilogue and converted; run 2 inverts both negations, and an upset flips bits of the
one accumulator that its tile, array row and array column hold, in the order and on the mirrored rows and columns of run 2. For integer
formats every check of Scruple passes when there is no upset, and some check fails when one upset changes one accumulator. When it
completes, every failed check counts, sets the run's SCRUPLE_FAIL and is reported. Choices of the model in it: log entries 15, 101, 177. -/
def Obligations.MatmulAndScruple : Prop :=
  (∀ (d : Dev) (id g t : Nat) (c : Cur), d.awake → d.curOp id g 0 0 = some c → c.stalls qArray = false →
    (∀ s, d.mmOps c g c.mmF = .error s → Does (.matmul id g t) d ((d.at_ t).endOwn id (firstStatus (s :: d.mmChecks c c.mmF)))) ∧
    (∀ o, d.mmOps c g c.mmF = .ok o →
      let st := firstStatus (d.mmChecks c c.mmF ++ mmPlaced o ++ mmUnaligned c o)
      (st = 0 → Completes (.matmul id g t) d (Issued qArray id g t c (some (mmTime c.mmF o))
        ([(0, o.a.region), (1, o.b.region), (2, o.out.region)] ++ o.c.toList.map (fun x => (3, x.region))) d)) ∧
      (st ≠ 0 → Does (.matmul id g t) d ((d.at_ t).endOwn id st)))) ∧
  (∀ (d : Dev) (id g t : Nat) (ups : List Upset) (c : Cur) (o : MmOp), d.awake → MayBegin d id g qArray c → c.i.cls = 0 →
    d.mmOps c g c.mmF = .ok o → o.out.t.dim 0 = c.mmF.n → o.out.t.dim 1 = c.mmF.m →
    let f := c.mmF
    let p := if mmReadsPar f o.out.t.dtype then d.mmPar c f else []
    let flip := fun (q : Nat × Nat × Nat × Nat) => mmFlips c.oct f o.out.t ups q.2.2.2 q.2.2.1 q.2.1 q.1
    let acc := fun (q : Nat × Nat × Nat × Nat) => d.mmAcc f o q.2.2.2 q.2.2.1 q.2.1 q.1
    let out := fun (q : Nat × Nat × Nat × Nat) =>
      d.mmOut g f o p q.2.1 q.1 (((q.2.2.2 * o.out.t.dim 2 + q.2.2.1) * f.m + q.2.1) * f.n + q.1)
        (if flip q = 0 then (acc q).1 else (acc q).1.flip (flip q))
    Completes (.instructionStart id g qArray t [] ups none) d (fun e => Filled o.out (fun q => (out q).1) e ∧
      Begun qArray id g t (orAll o.out.t.coords (fun q => (acc q).2 ||| (out q).2)) false (d.mmRun g c.oct f o p ups).2.2
        ([o.a, o.b, o.out] ++ o.c.toList ++ o.v0.toList ++ o.v1.toList) [o.out] d e)) ∧
  (∀ (d : Dev) (g : Nat) (oct : Bool) (f : MmF) (o : MmOp) (p : List Nat), mmInt o.a.t.dtype = true →
    ∀ x ∈ (d.mmRun g oct f o p []).2.2, x = 0) ∧
  (∀ (d : Dev) (g : Nat) (oct : Bool) (f : MmF) (o : MmOp) (p : List Nat) (u : Upset) (i3 i2 m n : Nat), mmInt o.a.t.dtype = true →
    u.flip % 2 ^ 48 ≠ 0 → i3 < o.out.t.dim 3 → i2 < o.out.t.dim 2 → m < f.m → n < f.n →
    mmVisit oct f o.out.t i3 i2 m n = (u.visit, u.row, u.col) → 1 ∈ (d.mmRun g oct f o p [u]).2.2) ∧
  (∀ (d : Dev) (id g q t : Nat) (r : Run) (m : Member) (l : LongIns), d.awake → q < 4 → d.queueHead id g q = some (r, m, l) →
    l.ripe (d.acRate (unitRegion m.phys)) t = true → d.touchedPoison l.touched = none → d.mild 0x040 → d.coll.ready = true → 1 ∈ l.chk →
    Completes (.instructionComplete id g q t []) d (fun e =>
      e.f F.SAF_SCR_MISMATCH.COUNT = Nat.min (d.f F.SAF_SCR_MISMATCH.COUNT + (l.chk.filter (fun x => x == 1)).length) 0xFFFFFFFF ∧
      e.f F.SAF_SCR_SKIPPED.COUNT = Nat.min (d.f F.SAF_SCR_SKIPPED.COUNT + (l.chk.filter (fun x => x == 2)).length) 0xFFFFFFFF ∧
      (mfind e.runs id).map Run.scrFail = some true ∧ e.coll.pending = setBit512 d.coll.pending 0x040 ∧ sameMemory d e ∧
      sameRegsBut [R.SAF_SCR_MISMATCH, R.SAF_SCR_SKIPPED, R.PWR_LP_CTRL] d e))

/-- MOVE and PUBLISH (R149, R157, R202, R209, R210, R345): a MOVE whose operands pass the checks enters the MOVE queue; when it starts, each
run of DST holds the bytes of the same run of SRC, on chip or in HBM, with the odd half byte of an INT4 run zero. A PUBLISH adds its pair to
the commit list of the command and moves nothing, and one that would pass a limit of the list ends the command with BOUNDS. REBOLT and
WINDOW (R157, R190, R211, R253 to R256): an instruction whose operands pass the checks enters the MOVE queue with its T, an overlap or, for
REBOLT, an operand in another memory ends the command with BOUNDS, and a misaligned operand with ALIGN. When it starts, every element of OUT
is the element of the source that the layouts, the transposition or the window give it, or the padding value, and the bytes of OUT's runs
that no element takes are zero. Choices of the model in it: log entries 15, 103, 110, 169. -/
def Obligations.MovesPublishesAndLayouts : Prop :=
  ((∀ (d : Dev) (id g t : Nat) (c : Cur) (s : MvSrc) (o : Acc2), d.awake → d.curOp id g 2 0 = some c → c.stalls qMove = false →
     d.mvSrc c g = .ok s → d.opd c g 1 true stBounds = .ok o → (c.desc 0).dtype = (c.desc 1).dtype →
     (c.desc 0).layout = (c.desc 1).layout → (∀ n ∈ [0, 1, 2, 3], (c.desc 0).dim n = (c.desc 1).dim n) →
     (∀ a, s = .chip a → o.overlaps a = false) →
     (mvUnaligned c s = [] → o.unaligned 64 (c.gstride 1) = [] →
       Completes (.mvMove id g t) d (Issued qMove id g t c (mvTime c o s) [(0, s.region), (1, o.region)] d)) ∧
     (mvUnaligned c s ≠ [] ∨ o.unaligned 64 (c.gstride 1) ≠ [] → Does (.mvMove id g t) d ((d.at_ t).endOwn id stAlign))) ∧
   (∀ (d : Dev) (id g t : Nat) (c : Cur) (s : MvSrc) (o : Acc2) (ups : List Upset), d.awake → MayBegin d id g qMove c → c.i.cls = 2 →
     d.mvSrc c g = .ok s → d.opd c g 1 true stBounds = .ok o → (c.desc 0).dtype = (c.desc 1).dtype →
     (c.desc 0).layout = (c.desc 1).layout → (∀ n ∈ [0, 1, 2, 3], (c.desc 0).dim n = (c.desc 1).dim n) →
     Completes (.instructionStart id g qMove t [] ups none) d (fun e =>
       Begun qMove id g t 0 false [] [o] [o] d e ∧
       ∀ (i : Nat) (seg : Nat × Nat) (bs : List Nat), o.t.segs[i]? = some seg → (d.mvBytes s)[i]? = some bs → ∀ j, j < seg.2 →
         e.mem.sram.read (o.pl.key + seg.1 + j) = BitVec.ofNat 8 ((runBytes o.t bs).getD j 0))) ∧
   (∀ (d : Dev) (id g t : Nat) (c : Cur) (o q : Operand) (a : Acc2), d.awake → d.curOp id g 2 1 = some c → c.form g 0 = .ok o →
     d.opd c g 0 false stFormat = .ok a → d.pubDst c g = .ok q → mvEqual c = [] →
     (d.pubLimits c.r ⟨g, o, q⟩ = [] → a.unaligned 64 (c.gstride 0) = [] → devAligned q (c.gstride 1) = true →
       Does (.mvPublish id g t) d (Dev.advance ((d.at_ t).modRun id (fun r => { r with pieces := r.pieces ++ [⟨g, o, q⟩] })) id g c.i)) ∧
     (64 ≤ c.r.pieces.length → Does (.mvPublish id g t) d ((d.at_ t).endOwn id stBounds)) ∧
     (c.r.safety = true → 0x1000000 < sumNat ((c.r.pieces ++ [(⟨g, o, q⟩ : Piece)]).map (fun x => x.src.desc.bytes)) →
       Does (.mvPublish id g t) d ((d.at_ t).endOwn id stBounds)))) ∧
  (let blank := fun (o : Acc2) (e : Dev) => ∀ key, o.covers key →
     (∀ x ∈ o.t.coords, key < o.pl.key + o.t.at_ x.1 x.2.1 x.2.2.1 x.2.2.2 / 2 ∨
       o.pl.key + (o.t.at_ x.1 x.2.1 x.2.2.1 x.2.2.2 + o.t.nibs - 1) / 2 < key) → e.mem.sram.read key = 0
   (∀ (d : Dev) (id g t : Nat) (c : Cur) (s o : Acc2), d.awake → d.curOp id g 3 0 = some c → c.stalls qMove = false →
     d.opd c g 0 false stBounds = .ok s → d.opd c g 1 true stBounds = .ok o → s.t.dtype = o.t.dtype →
     (if cvTransposed c then o.t.dim 0 = s.t.dim 1 ∧ o.t.dim 1 = s.t.dim 0 else o.t.dim 0 = s.t.dim 0 ∧ o.t.dim 1 = s.t.dim 1) →
     o.t.dim 2 = s.t.dim 2 → o.t.dim 3 = s.t.dim 3 →
     let apart := s.overlaps o = false ∧ s.own = true ∧ o.own = true
     let aligned := c.unaligned 0 s = [] ∧ c.unaligned 1 o = []
     (apart → aligned → Completes (.rebolt id g t) d
       (Issued qMove id g t c (some (12 + 2 * ceilDiv o.t.bytes 128)) [(0, s.region), (1, o.region)] d)) ∧
     (¬ apart → Does (.rebolt id g t) d ((d.at_ t).endOwn id stBounds)) ∧
     (apart → ¬ aligned → Does (.rebolt id g t) d ((d.at_ t).endOwn id stAlign))) ∧
   (∀ (d : Dev) (id g t ow oh : Nat) (c : Cur) (s o : Acc2), d.awake → d.curOp id g 3 1 = some c → c.stalls qMove = false →
     d.opd c g 0 false stBounds = .ok s → d.opd c g 1 true stBounds = .ok o →
     let f := winFields c.i
     (f.const = true → dtBits s.t.dtype ≤ 16 → bits (c.i.slot 2) 23 16 = 0) →
     s.t.dtype = o.t.dtype → s.t.layout = 0 → (o.t.layout = 0 ∨ o.t.layout = 1) → (s.t.dtype = 0 → s.t.dim 0 % 2 = 0) →
     f.dw * (f.kw - 1) + 1 ≤ s.t.dim 1 + f.pl + f.pr → ow = (s.t.dim 1 + f.pl + f.pr - f.dw * (f.kw - 1) - 1) / f.sw + 1 →
     f.dh * (f.kh - 1) + 1 ≤ s.t.dim 2 + f.pt + f.pb → oh = (s.t.dim 2 + f.pt + f.pb - f.dh * (f.kh - 1) - 1) / f.sh + 1 →
     (o.t.dim 0 = f.kh * f.kw * s.t.dim 0 ∧ o.t.dim 1 = oh * ow ∧ o.t.dim 2 = s.t.dim 3 ∧ o.t.dim 3 = 1) →
     let aligned := c.unaligned 0 s = [] ∧ c.unaligned 1 o = []
     let ls := engLat c.m.home s.pl
     (s.overlaps o = false → aligned → Completes (.window id g t) d (Issued qMove id g t c
       (some (16 + ls.1 + Nat.max (s.t.dim 3 * ow * oh * f.kh * f.kw * ceilDiv (ceilDiv (s.t.dim 0 * s.t.nibs) 2) s.width * ls.2)
         (ceilDiv o.t.bytes o.width * (engLat c.m.home o.pl).2))) [(0, s.region), (1, o.region)] d)) ∧
     (s.overlaps o = true → Does (.window id g t) d ((d.at_ t).endOwn id stBounds)) ∧
     (s.overlaps o = false → ¬ aligned → Does (.window id g t) d ((d.at_ t).endOwn id stAlign))) ∧
   (∀ (d : Dev) (id g t : Nat) (c : Cur) (s o : Acc2) (ups : List Upset), d.awake → MayBegin d id g qMove c → c.i.cls = 3 →
     d.opd c g 0 false stBounds = .ok s → d.opd c g 1 true stBounds = .ok o →
     let f := winFields c.i
     let cc := s.t.dim 0
     (c.i.op = 0 → Completes (.instructionStart id g qMove t [] ups none) d (fun e =>
       Begun qMove id g t 0 false [] [s, o] [o] d e ∧ blank o e ∧
       Filled o (fun x => Acc2.get d s (if cvTransposed c then (x.2.1, x.1, x.2.2) else x)) e)) ∧
     (∀ ow oh, c.i.op = 1 → winDims f s.t = some (ow, oh) → Completes (.instructionStart id g qMove t [] ups none) d (fun e =>
       Begun qMove id g t 0 false [] [s, o] [o] d e ∧ blank o e ∧
       Filled o (fun x =>
         let iy : Int := (x.2.1 / ow * f.sh + x.1 / cc / f.kw * f.dh : Nat) - (f.pt : Int)
         let ix : Int := (x.2.1 % ow * f.sw + x.1 / cc % f.kw * f.dw : Nat) - (f.pl : Int)
         if 0 ≤ iy ∧ iy < s.t.dim 2 ∧ 0 ≤ ix ∧ ix < s.t.dim 1 then Acc2.get d s (x.1 % cc, ix.toNat, iy.toNat, x.2.2.1)
         else padValue f s.t.dtype (c.i.slot 2)) e))))

/-- GATHER, SCATTER and SCATTER_ADD (R157, R267 to R273): an instruction whose operands pass the checks enters the GATHER queue with its T;
when it starts, the first U indices, in rising order, select slices of DATA along the axis under the index mode; GATHER copies them to the
slices of VALS, with zeros for an index out of range under ERROR; SCATTER writes them, the last one standing; SCATTER_ADD adds to them one
rounding at a time. An index out of range under ERROR is marked for the command's status. Choices of the model in it: log entry 15. -/
def Obligations.GatherScatterAndAdd : Prop :=
  (∀ p ∈ [(Instr.gather, 0), (.scatter, 1), (.scatterAdd, 2)],
    ∀ (d : Dev) (id g t : Nat) (c : Cur) (o : GtOp), d.awake → d.curOp id g 4 p.2 = some c → c.stalls qGather = false →
    d.gtOps c g p.2 = .ok o →
    let a := o.data.t
    let x := o.index.t
    let v := o.vals.t
    let ax := gtAxis c
    (x.dtype = 7 ∧ x.layout = 0 ∧ a.layout = 0 ∧ v.layout = 0 ∧ a.dtype = v.dtype ∧ (a.dtype = 0 → p.2 ≠ 2 ∧ ax ≠ 0)) →
    (x.dim 1 = 1 ∧ x.dim 2 = 1 ∧ x.dim 3 = 1 ∧ gtUsed c ≤ x.dim 0 ∧ ∀ n ∈ [0, 1, 2, 3], v.dim n = if n = ax then x.dim 0 else a.dim n) →
    let apart := o.index.overlaps o.data = false ∧ o.index.overlaps o.vals = false ∧ o.data.overlaps o.vals = false
    let aligned := c.unaligned 0 o.data = [] ∧ c.unaligned 1 o.index = [] ∧ c.unaligned 2 o.vals = []
    (apart → aligned → Completes (p.1 id g t) d (Issued qGather id g t c (some (gtTime c p.2 (gtUsed c) o))
      [(0, o.data.region), (1, o.index.region), (2, o.vals.region)] d)) ∧
    (¬ apart → Does (p.1 id g t) d ((d.at_ t).endOwn id stBounds)) ∧
    (apart → ¬ aligned → Does (p.1 id g t) d ((d.at_ t).endOwn id stAlign))) ∧
  (∀ (d : Dev) (id g t : Nat) (c : Cur) (a x v : Acc2) (ups : List Upset), d.awake → MayBegin d id g qGather c → c.i.cls = 4 → c.i.op < 3 →
    d.gtOps c g c.i.op = .ok ⟨a, x, v⟩ →
    let ax := gtAxis c
    let u := gtUsed c
    let co := fun (q : Nat × Nat × Nat × Nat) => [q.1, q.2.1, q.2.2.1, q.2.2.2].getD ax 0
    let sel := fun j => gtResolve (gtMode c) (a.t.dim ax) (elInt 7 (d.rdEl x j 0 0 0))
    let val := fun j q => Acc2.get d v (onAxis ax j q)
    let sum := fun n q => (List.range n).foldl (fun y j => if sel j = some (co q) then
      (addElement a.t.dtype y (val j q)).1 % 2 ^ (4 * a.t.nibs) else y) (Acc2.get d a q)
    let miss := (List.range u).any (fun j => (sel j).isNone)
    (∀ n ∈ [0, 1, 2, 3], v.t.dim n = if n = ax then x.t.dim 0 else a.t.dim n) → u ≤ x.t.dim 0 →
    (x.overlaps a = false ∧ x.overlaps v = false ∧ a.overlaps v = false) →
    (c.i.op = 0 → Completes (.instructionStart id g qGather t [] ups none) d (fun e => Begun qGather id g t 0 miss [] [a, x, v] [v] d e ∧
      Filled v (fun q => if co q < u then (match sel (co q) with
        | some i => Acc2.get d a (onAxis ax i q)
        | none => 0) else Acc2.get d v q) e)) ∧
    (c.i.op = 1 → Completes (.instructionStart id g qGather t [] ups none) d (fun e => Begun qGather id g t 0 miss [] [a, x, v] [a] d e ∧
      Filled a (fun q => (List.range u).foldl (fun y j => if sel j = some (co q) then val j q else y) (Acc2.get d a q)) e)) ∧
    (c.i.op = 2 → Completes (.instructionStart id g qGather t [] ups none) d (fun e => Begun qGather id g t
        (orAll (List.range u) (fun j => match sel j with
          | none => 0
          | some i => orAll (sliceCoords v.t ax) (fun q => (addElement a.t.dtype (sum j (onAxis ax i q)) (val j q)).2)))
        miss [] [a, x, v] [a] d e ∧
      Filled a (fun q => sum u q) e)))

/-- ATTEND (R157, R202, R275, R279, R282, R285): with operands, a page list and a mask header that pass the checks, the instruction enters
the ATTEND queue, else the first failed check gives the command's status. When it starts, every row of OUT is the running softmax of R279 to
R281 over the admitted positions of its query row and head; a row with no admitted position is zero. A directory entry that is not well
formed ends the command with its status. Choices of the model in it: log entries 15, 104. -/
def Obligations.AttendComputesEveryRow : Prop :=
  (∀ (d : Dev) (id g t : Nat) (c : Cur) (q o : Acc2) (m : Option Acc2) (pl : PageList), d.awake → d.curOp id g 5 0 = some c →
    c.stalls qAttend = false → d.atOps c g (atFields c.i) = (.ok q, .ok o, .ok m) → mfind c.r.pages c.i.idx = some pl →
    let op : AtOp := ⟨q, o, m, pl⟩
    let head := m.toList.flatMap (fun x => d.maskHeader x (q.t.dim 1))
    let placed := atPlaced c q = true ∧ atPlaced c o = true ∧ (∀ x ∈ m, atPlaced c x = true ∧ o.overlaps x = false) ∧ o.overlaps q = false
    let aligned := c.unaligned 0 q = [] ∧ c.unaligned 1 o = [] ∧ ∀ x ∈ m, c.unaligned 2 x = []
    let chk := d.atChecks c (atFields c.i) (some pl) ++ head
    (chk = [] → placed → aligned → Completes (.attend id g t) d (Issued qAttend id g t c none (op.regs c) d)) ∧
    (chk = [] → ¬ placed → Does (.attend id g t) d ((d.at_ t).endOwn id stBounds)) ∧
    (chk = [] → placed → ¬ aligned → Does (.attend id g t) d ((d.at_ t).endOwn id stAlign)) ∧
    (chk ≠ [] → placed → aligned → Does (.attend id g t) d ((d.at_ t).endOwn id (firstStatus chk)))) ∧
  (∀ (d : Dev) (id g t : Nat) (c : Cur) (q o : Acc2) (m : Option Acc2) (pl : PageList) (ups : List Upset), d.awake →
    MayBegin d id g qAttend c → c.i.cls = 5 → d.atOps c g (atFields c.i) = (.ok q, .ok o, .ok m) → mfind c.r.pages c.i.idx = some pl →
    let f := atFields c.i
    let op : AtOp := ⟨q, o, m, pl⟩
    (d.atDirs c.oct op = none → o.t.dim 1 = q.t.dim 1 → o.t.dim 2 = f.heads → o.t.dim 3 = 1 →
      o.t.dim 0 = pl.headDim + (if pl.spread = 2 then 2 else 0) →
      Completes (.instructionStart id g qAttend t [] ups none) d (fun e =>
        Filled o (fun x => (d.atRow f op x.2.1 x.2.2.1).1.getD x.1 0) e ∧
        Begun qAttend id g t (orAll (List.range f.heads) (fun h => orAll (List.range (q.t.dim 1)) (fun i => (d.atRow f op i h).2)))
          false [] ([q, o] ++ m.toList) [o] d e)) ∧
    (∀ st, d.atDirs c.oct op = some st → Completes (.instructionStart id g qAttend t [] ups none) d (fun e => ∃ sram,
      e = Dev.endOwn { d with now := Nat.max d.now t, fresh := d.fresh + 1, mem := { d.mem with sram := sram } } id st ∧
      ∀ key, key < o.pl.key ∨ o.pl.key + o.t.extent ≤ key → sram.read key = d.mem.sram.read key))) ∧
  (∀ (d : Dev) (f : AtF) (o : AtOp) (i h : Nat), o.pl.spread ≠ 2 → (∀ j, d.admits o i j = false) →
    (d.atRow f o i h).1 = List.replicate o.pl.headDim 0)

/-- Counts, loops and NOP (R214, R218, R230, R231): each takes effect as it issues, on its own member alone. SETCOUNT and LDARG write a
count register, RDFLAGS writes the member's flags under a mask once the member has drained, LOOP_BEGIN latches its count and enters or skips
the body, and LOOP_END counts and goes round or on. Choices of the model in it: log entry 4. -/
def Obligations.CountsAndLoops : Prop :=
  ∀ (d : Dev) (id g t : Nat) (c : Cur), d.awake →
    let go := fun (f : Member → Member) => (d.at_ t).modMember id g f
    let after := c.i.idx + c.i.len
    let l := iLevel c.i.w
    (d.curOp id g 8 0 = some c → Does (.ctNop id g t) d (go (fun m => { m with pc := after }))) ∧
    (d.curOp id g 7 2 = some c →
      Does (.setcount id g t) d (go (fun m => { m with counts := m.counts.set l (bits c.i.w 82 51), pc := after }))) ∧
    (d.curOp id g 8 3 = some c →
      Does (.ldarg id g t) d (go (fun m => { m with counts := m.counts.set l (c.r.args.getD (bits c.i.w 55 50) 0), pc := after }))) ∧
    (d.curOp id g 8 2 = some c →
      (c.m.drained = true →
        Does (.rdflags id g t) d (go (fun m => { m with counts := m.counts.set l (c.m.aflags &&& bits c.i.w 57 50), pc := after }))) ∧
      (c.m.drained = false → Does (.rdflags id g t) d d)) ∧
    (∀ md en, d.curOp id g 7 0 = some c → d.runEntry c.r = some (md, en) →
      let n := if bitOf c.i.w 50 then c.m.counts.getD l 0 else bits c.i.w 82 51
      (n = 0 → Does (.loopBegin id g t) d (go (fun m => { m with
        latched := m.latched.set l 0, iters := m.iters.set l 0, pc := loopExit (md.insOf en) c.i.idx l }))) ∧
      (n ≠ 0 → Does (.loopBegin id g t) d (go (fun m => { m with
        latched := m.latched.set l n, iters := m.iters.set l 0, pc := after, loops := m.loops.take l ++ [c.i.idx] })))) ∧
    (keysRise d.runs = true → d.curOp id g 7 1 = some c →
      let n := c.m.iters.getD l 0 + 1
      (n < c.m.latched.getD l 0 → ∀ b, insAt c.code (c.m.loops.getD l 0) = some b →
        Does (.loopEnd id g t) d (go (fun m => { m with iters := m.iters.set l n, pc := b.idx + b.len }))) ∧
      (c.m.latched.getD l 0 ≤ n →
        Does (.loopEnd id g t) d (go (fun m => { m with iters := m.iters.set l n, pc := after, loops := m.loops.take l }))))

/-- Signals and waits (R214, R235, R238, R239): SIGNAL changes no flag, has issued, and joins the command's deferred-signal list, of at most
64 flags; WAIT goes on when its flag is at or above VALUE, else its member stalls until a release or the deadline, where 0 stands for the
first Vigil after; an expired wait ends the command. A flag index at or above the partition's COUNT ends the command with BOUNDS. Choices of
the model in it: log entry 108. -/
def Obligations.SignalsAndWaits : Prop :=
  (∀ (d : Dev) (id g t : Nat) (c : Cur), d.awake → d.curOp id g 6 0 = some c →
    let v := bits c.i.w 93 62
    (d.syFlag c.r.part g c.i.w = none → Does (.sySignal id g t) d ((d.at_ t).endOwn id stBounds)) ∧
    (∀ n, d.syFlag c.r.part g c.i.w = some n →
      let e := (d.at_ t).modMember id g (fun m => { m with sent := insNat m.sent c.i.idx })
      (v = 0 → Does (.sySignal id g t) d (e.advance id g c.i)) ∧
      (v ≠ 0 → (mfind c.r.signals n).isSome = true ∨ c.r.signals.length < 64 →
        Does (.sySignal id g t) d ((e.modRun id (fun r => { r with
          signals := mset r.signals n (mget 0 r.signals n + v) })).advance id g c.i)) ∧
      (v ≠ 0 → mfind c.r.signals n = none → 64 ≤ c.r.signals.length →
        Does (.sySignal id g t) d (e.endOwn id stBounds)))) ∧
  (∀ (d : Dev) (id g t : Nat) (c : Cur), d.awake → d.curOp id g 6 1 = some c →
    let v := bits c.i.w 93 62
    let x := bits (c.i.x 0) 63 0
    let due := x ≠ 0 ∧ x ≤ Nat.max d.now t ∧ d.vigilFirst c.r x = false
    (d.syFlag c.r.part g c.i.w = none → Does (.syWait id g t) d ((d.at_ t).endOwn id stBounds)) ∧
    (∀ n, d.syFlag c.r.part g c.i.w = some n →
      (v ≤ d.flag n → Does (.syWait id g t) d ((d.at_ t).advance id g c.i)) ∧
      (d.flag n < v → ¬ due → Does (.syWait id g t) d ((d.at_ t).modMember id g (fun m => { m with stall := .wait ⟨n, v, x⟩ }))) ∧
      (d.flag n < v → due → d.mild 0x0C3 → c.r.phase = .run 1 → id < d.nextRun →
        Completes (.syWait id g t) d (fun e => mfind e.runs id = none ∧ e.flags = d.flags)))) ∧
  (∀ (d : Dev) (id g t : Nat) (r : Run) (w : WaitSt) (i : Ins), d.awake → d.syStall id g = some (r, w, i) →
    (w.value ≤ d.flag w.flag → Does (.syWaitRelease id g t) d ((d.at_ t).modMember id g (fun m => { m with
      stall := .none, pc := i.idx + i.len }))) ∧
    (d.flag w.flag < w.value → Does (.syWaitRelease id g t) d d) ∧
    (w.value ≤ d.flag w.flag ∨ w.deadline = 0 ∨ t < w.deadline ∨ d.vigilFirst r w.deadline = true → Does (.syWaitExpired id g t) d d) ∧
    (d.flag w.flag < w.value → w.deadline ≠ 0 → w.deadline ≤ t → d.vigilFirst r w.deadline = false → d.mild 0x0C3 → r.phase = .run 1 → id < d.nextRun →
      Completes (.syWaitExpired id g t) d (fun e => mfind e.runs id = none ∧ e.flags = d.flags ∧ e.now = Nat.max d.now t)))

/-- Barriers and END (R243 to R245): a member that has drained waits at its BARRIER, and the gang leaves together once every member has
come; a member that has drained at END waits for the others; members that wait at BARRIER while others have ended end the command with
BOUNDS. The last END keeps the bytes of the sources and accepts a QM-class command whose checks have passed for its commit, sends one that
Scruple failed to the Troy kernels, or after its re-run rejects it, and takes a safety-class command to its hold copy. Choices of the model
in it: log entry 4. -/
def Obligations.BarriersAndEnd : Prop :=
  (∀ (d : Dev) (id g t : Nat) (c : Cur), d.awake → d.curOp id g 6 2 = some c →
    let at_ := (d.at_ t).modMember id g (fun m => { m with stall := .barrier })
    let rest := fun (p : Stall → Prop) => ∀ q ∈ c.r.members.zipIdx, q.2 ≠ g → p q.1.stall
    (c.m.drained = false → Does (.barrier id g t) d d) ∧
    (keysRise d.runs = true → c.m.drained = true → c.r.members.length = 1 → Does (.barrier id g t) d ((d.at_ t).modMember id g (fun m => { m with
      stall := .none, barriers := m.barriers + 1, pc := c.i.idx + c.i.len }))) ∧
    (c.m.drained = true → c.r.members.length ≠ 1 → (rest (fun s => s ≠ .ended) ∨ ¬ rest (fun s => s = .barrier ∨ s = .ended)) →
      Does (.barrier id g t) d at_) ∧
    (c.m.drained = true → ¬ rest (fun s => s ≠ .ended) → rest (fun s => s = .barrier ∨ s = .ended) →
      Does (.barrier id g t) d (at_.endOwn id stBounds))) ∧
  (∀ (d : Dev) (id : Nat) (r : Run) (md : Module), d.awake → mfind d.runs id = some r → mfind d.mods r.modId = some md →
    r.runNo.isSome = true → r.members ≠ [] →
    ((∀ m ∈ r.members, m.stall = .barrier) → Does (.barrierRelease id) d (d.modRun id (fun r => { r with
      members := r.members.map (fun m => { m with
        stall := .none, barriers := m.barriers + 1, pc := m.pc + ((insAt md.code m.pc).map Ins.len).getD 1 }) }))) ∧
    ((∃ m ∈ r.members, m.stall ≠ .barrier) → Does (.barrierRelease id) d d)) ∧
  (∀ (d : Dev) (id g t : Nat) (c : Cur), d.awake → d.curOp id g 8 1 = some c →
    let at_ := (d.at_ t).modMember id g (fun m => { m with stall := .ended })
    let rest := fun (p : Stall → Prop) => ∀ q ∈ c.r.members.zipIdx, q.2 ≠ g → p q.1.stall
    (c.m.drained = false → Does (.ctEnd id g t) d d) ∧
    (c.m.drained = true → ¬ rest (fun s => s = .barrier ∨ s = .ended) → Does (.ctEnd id g t) d at_) ∧
    (c.m.drained = true → rest (fun s => s = .barrier ∨ s = .ended) → ¬ rest (fun s => s = .ended) →
      Does (.ctEnd id g t) d (at_.endOwn id stBounds)) ∧
    (c.m.drained = true → rest (fun s => s = .ended) → c.r.phase = .run 1 →
      (c.r.safety = false → c.r.scrFail = false → c.r.qmRerun = false → Completes (.ctEnd id g t) d (fun e =>
        (∃ x, mfind e.runs id = some x ∧ x.phase = .accepted ∧ x.status = stOk ∧ x.pieces = c.r.pieces ∧ x.signals = c.r.signals ∧
          (mfind x.recs 1).map RunRec.data = some (c.r.ordered.map (d.srcRuns c.r)) ∧ ∀ m ∈ x.members, m.stall = .ended) ∧
        (∀ i, i ≠ id → mfind e.runs i = mfind d.runs i) ∧ e.mem = d.mem ∧ e.flags = d.flags ∧ e.regs = d.regs ∧ e.coll = d.coll)) ∧
      (c.r.safety = false → c.r.scrFail = false → c.r.qmRerun = true → Completes (.ctEnd id g t) d (fun e =>
        (∃ x, mfind e.runs id = some x ∧ x.phase = .accepted ∧ x.status = stResolved) ∧
        e.f F.SAF_ARB_RESOLVED.COUNT = Nat.min (d.f F.SAF_ARB_RESOLVED.COUNT + 1) 0xFFFFFFFF ∧ e.mem = d.mem ∧ e.coll = d.coll)) ∧
      (c.r.safety = false → c.r.scrFail = true → c.r.qmRerun = false → Completes (.ctEnd id g t) d (fun e =>
        (∃ x, mfind e.runs id = some x ∧ x.phase = .troy) ∧ e.mem = d.mem ∧ e.flags = d.flags ∧ e.coll = d.coll)) ∧
      (c.r.safety = false → c.r.scrFail = true → c.r.qmRerun = true → id < d.nextRun → Completes (.ctEnd id g t) d (fun e =>
        mfind e.runs id = none ∧ e.flags = d.flags ∧
        e.f F.SAF_ARB_REJECTED.COUNT = Nat.min (d.f F.SAF_ARB_REJECTED.COUNT + 1) 0xFFFFFFFF)) ∧
      (c.r.safety = true → d.inHbm (d.slotAddr c.r.part false) (slotLen (d.record c.r).lens) = true → Completes (.ctEnd id g t) d (fun e =>
        (∃ x, mfind e.runs id = some x ∧ x.phase = .hold ∧ (mfind x.recs 1).map RunRec.data = some (c.r.ordered.map (d.srcRuns c.r)) ∧
          x.pieces = c.r.pieces ∧ x.signals = c.r.signals) ∧
        (∀ i, i ≠ id → mfind e.runs i = mfind d.runs i) ∧
        (∀ a, a < d.slotAddr c.r.part false ∨ d.slotAddr c.r.part false + slotLen (d.record c.r).lens ≤ a → e.mem.hbm.read a = d.mem.hbm.read a) ∧
        e.mem.sram = d.mem.sram ∧ e.flags = d.flags ∧ e.coll = d.coll))))

/-- The queues of long instructions (R40, R141, R223, R227, R228, R302): the instruction at the head starts once no region it writes meets a
region of an earlier one and no region it reads meets one an earlier one writes; one that fails at its start ends its command. It completes
after exactly its T at the clock of its region, leaves its queue and frees its regions. One that read a poisoned granule ends its command
instead, and one that met an uncorrectable on-chip word sends the command to the march test. The first failed check of an instruction gives
the status, in the order of R202. Prep cores and the region DMA engine (R23, R31, R32, R127, R129, R145, R157, R158): a store of a prep core
writes its bytes, a move copies, and each access is in progress until its time has passed; one to a target out of reach ends the command
with BOUNDS, and one that is not aligned with ALIGN: a vector access or a move at other than a multiple of 64 bytes, or a write to HBM that
is not of whole granules (the last from R137, log entry 200). A prep core reaches its local memory, the engine scratchpads of its cluster,
every cluster scratchpad and region memory, and HBM, and not the roster window; the DMA engine reaches the engine and cluster scratchpads of
its region, every region memory, HBM, and the roster window for reads only; a memory that is switched off is out of reach (log entry 189).
Choices of the model in it: log entries 84, 86, 106, 173, 174, 178, 183, 189, 200, 203. -/
def Obligations.LongInstructionsStartAndComplete : Prop :=
  ((∀ (d : Dev) (id g q t : Nat) (ups : List Upset) (r : Run) (m : Member) (l : LongIns), d.awake → q < 4 →
     d.queueHead id g q = some (r, m, l) →
     let ready := l.started = none ∧ (∀ o ∈ m.queues.flatten, o.ord < l.ord →
         (∀ x ∈ l.reads, ∀ w ∈ o.write, x.meets w = false) ∧
         (∀ w ∈ l.write, (∀ x ∈ o.write, w.meets x = false) ∧ ∀ x ∈ o.reads, w.meets x = false)) ∧
       (q = qAttend → r.attendTurn g l = true)
     (¬ ready → ∀ mem, Does (.instructionStart id g q t mem ups none) d d) ∧
     (∀ c, ready → d.issued r m l = some c → ∀ st mem, ((d.at_ t).runIns g c ups).stop = some st →
       Does (.instructionStart id g q t mem ups none) d (((d.at_ t).runIns g c ups).d.endOwn id st))) ∧
   (∀ (d : Dev) (id g q t : Nat) (r : Run) (m : Member) (l : LongIns), d.awake → q < 4 → d.queueHead id g q = some (r, m, l) →
     let ripe := (∃ s, l.started = some s ∧ match l.ac with
       | some n => l.since ≤ t ∧ 2000 * n < l.done + (t - l.since) * d.acRate (unitRegion m.phys) + d.acRate (unitRegion m.phys) ∧
           l.done + (t - l.since) * d.acRate (unitRegion m.phys) < 2000 * n + d.acRate (unitRegion m.phys)
       | none => s ≤ t)
     (¬ ripe → ∀ mem, Does (.instructionComplete id g q t mem) d d) ∧
     (ripe → d.touchedPoison l.touched = none → (∀ x ∈ l.chk, x = 0) →
       Does (.instructionComplete id g q t []) d ((d.at_ t).modMember id g (fun m => { m with
         queues := m.queues.mapIdx (fun i x => if i = q then x.drop 1 else x) }))) ∧
     (∀ a, ripe → d.touchedPoison l.touched = some a → d.mild 0x004 → d.coll.ready = true → id < d.nextRun →
       Completes (.instructionComplete id g q t []) d (fun e => mfind e.runs id = none ∧ e.flags = d.flags ∧
         e.coll.pending.getLsbD 0x004 = true)) ∧
     (∀ w x, ripe → d.touchedPoison l.touched = none → (∀ x ∈ l.chk, x = 0) → x ∈ l.touched → x.dev = w.hbm → x.lo ≤ w.addr → w.addr < x.hi →
       w.hbm = false → w.correctable = false → keyUnit w.addr ≠ hubMem → d.mild 0x001 → d.coll.ready = true → r.holds = true →
       Completes (.instructionComplete id g q t [w]) d (fun e => (mfind e.runs id).map Run.phase = some (.march w) ∧
         e.f F.MEM_SRAM_UE.COUNT = Nat.min (d.f F.MEM_SRAM_UE.COUNT + 1) 0xFFFFFFFF ∧ e.coll.pending = setBit512 d.coll.pending 0x001 ∧
         w.addr / 64 * 64 ∈ e.mem.marches ∧ sameMemory d e ∧ ∀ i, i ≠ id → mfind e.runs i = mfind d.runs i))) ∧
   (∀ l : List Nat, (∀ s ∈ l, s ∈ [stReserved, stFormat, stZero, stStale, stBounds, stAlign]) →
     (l = [] ↔ firstStatus l = stOk) ∧ (stReserved ∈ l → firstStatus l = stReserved) ∧
     (stReserved ∉ l → stFormat ∈ l → firstStatus l = stFormat) ∧
     (stReserved ∉ l → stFormat ∉ l → stZero ∈ l → firstStatus l = stZero) ∧
     (l ≠ [] → (∀ s ∈ l, s = stBounds ∨ s = stAlign) → stBounds ∈ l → firstStatus l = stBounds) ∧
     (l ≠ [] → (∀ s ∈ l, s = stAlign) → firstStatus l = stAlign))) ∧
  ((∀ (d : Dev) (id g t l u : Nat) (ups : List Upset) (r : Run) (x : Xact), d.awake → mfind d.runs id = some r → r.runNo.isSome = true →
     r.prep[g]? = some (l, u) → r.prepAt.isSome = true →
     let reach := d.prepTarget r (l / 2) u
     let go := fun (e : Dev) (ts : List Target) (n : Nat) => e.modRun id (fun r => { r with
       xfers := r.xfers ++ [⟨qPrep, g, xTime (prepLat (unitClu u)) n ts, 0, Nat.max d.now t, xTouched x ts, xRmw x ts⟩],
       wrote := r.wrote ++ sharedOnly (xWrote x ts) })
     (xTargets reach reach x = none → ∀ mem, Does (.instructionStart id g qPrep t mem ups (some x)) d ((d.at_ t).endOwn id stBounds)) ∧
     (∀ ts, xTargets reach reach x = some ts → xAligned x ts = false → ∀ mem,
       Does (.instructionStart id g qPrep t mem ups (some x)) d ((d.at_ t).endOwn id stAlign)) ∧
     (∀ v a n y, x = .load v a n → reach a n = some y → xAligned x [y] = true →
       Does (.instructionStart id g qPrep t [] ups (some x)) d (go (d.at_ t) [y] n)) ∧
     (∀ v a bs p, x = .store v a bs → reach a bs.length = some (.chip p) → xAligned x [.chip p] = true →
       Does (.instructionStart id g qPrep t [] ups (some x)) d (go ((d.at_ t).wrSram p bs) [.chip p] bs.length)) ∧
     (∀ v a bs b, x = .store v a bs → reach a bs.length = some (.hbm b) → xAligned x [.hbm b] = true →
       Does (.instructionStart id g qPrep t [] ups (some x)) d (go ((d.at_ t).wrHbm b bs) [.hbm b] bs.length))) ∧
   (∀ (d : Dev) (id g t src dst n : Nat) (ups : List Upset) (r : Run), d.awake → mfind d.runs id = some r → r.runNo.isSome = true →
     let k := placeReg r.place
     let x := Xact.move src dst n
     let go := fun (e : Dev) (ts : List Target) => e.modRun id (fun r => { r with
       xfers := r.xfers ++ [⟨qDma, 0, xTime (dmaLat k) n ts, 0, Nat.max d.now t, xTouched x ts, xRmw x ts⟩],
       wrote := r.wrote ++ sharedOnly (xWrote x ts) })
     (d.dmaTarget r k src n false = none ∨ d.dmaTarget r k dst n true = none →
       ∀ mem, Does (.instructionStart id g qDma t mem ups (some x)) d ((d.at_ t).endOwn id stBounds)) ∧
     (∀ s y, d.dmaTarget r k src n false = some s → d.dmaTarget r k dst n true = some y → xAligned x [s, y] = false →
       ∀ mem, Does (.instructionStart id g qDma t mem ups (some x)) d ((d.at_ t).endOwn id stAlign)) ∧
     (∀ s p, d.dmaTarget r k src n false = some s → d.dmaTarget r k dst n true = some (.chip p) → xAligned x [s, .chip p] = true →
       Does (.instructionStart id g qDma t [] ups (some x)) d (go ((d.at_ t).wrSram p ((d.at_ t).rdTarget n s)) [s, .chip p])) ∧
     (∀ s b, d.dmaTarget r k src n false = some s → d.dmaTarget r k dst n true = some (.hbm b) → xAligned x [s, .hbm b] = true →
       Does (.instructionStart id g qDma t [] ups (some x)) d (go ((d.at_ t).wrHbm b ((d.at_ t).rdTarget n s)) [s, .hbm b]))) ∧
   (let off : Target → Nat := fun y => match y with
      | .chip p => p.off
      | .hbm a => a
      | .roster a => a
    ∀ (v : Bool) (a src dst n : Nat) (bs : List Nat) (s y : Target),
     (xAligned (.load v a n) [s] = true ↔ v = false ∨ off s % 64 = 0) ∧
     (xAligned (.store v a bs) [y] = true ↔ (v = false ∨ off y % 64 = 0) ∧ ∀ b, y = .hbm b → b % 64 = 0 ∧ bs.length % 64 = 0) ∧
     (xAligned (.move src dst n) [s, y] = true ↔ off s % 64 = 0 ∧ off y % 64 = 0 ∧ ∀ b, y = .hbm b → n % 64 = 0)) ∧
   (∀ (d : Dev) (r : Run) (k u g a n : Nat),
     (a < 0x40000 → d.prepTarget r k u a n = if a + n ≤ 0x40000 then some (.chip ⟨u, a⟩) else none) ∧
     (0x40000 ≤ a → a < 0x100000000 → d.prepTarget r k u a n = none) ∧
     (∀ wr, a < 0x100000000 → d.dmaTarget r g a n wr = none) ∧
     (0x200000000 ≤ a → a < 0x100000000000 → d.prepTarget r k u a n = none ∧ ∀ wr, d.dmaTarget r g a n wr = none) ∧
     (0x100000000000 ≤ a → d.inHbm (a - 0x100000000000) n = true → d.prepTarget r k u a n = some (.hbm (a - 0x100000000000)) ∧
       ∀ wr, d.dmaTarget r g a n wr = some (.hbm (a - 0x100000000000))) ∧
     (0x100000000000 ≤ a → d.inHbm (a - 0x100000000000) n = false → d.prepTarget r k u a n = none ∧ d.dmaTarget r g a n true = none ∧
       (inRoster (a - 0x100000000000) n = true → d.dmaTarget r g a n false = some (.roster (a - 0x100000000000)))) ∧
     (∀ s, 0x100000000 ≤ a → a < 0x200000000 → spDecode (a - 0x100000000) = some s → s.room < n →
       d.prepTarget r k u a n = none ∧ ∀ wr, d.dmaTarget r g a n wr = none) ∧
     (∀ j e o, 0x100000000 ≤ a → a < 0x200000000 → spDecode (a - 0x100000000) = some (.eng j e o) → n ≤ Sel.room (.eng j e o) →
       d.prepTarget r k u a n = (if j = k then (r.physOf j e).map (fun p => .chip ⟨p, o⟩) else none) ∧
       ∀ wr, d.dmaTarget r g a n wr = (if j / 4 = g then (r.physOf j e).map (fun p => .chip ⟨p, o⟩) else none)) ∧
     (∀ j o, 0x100000000 ≤ a → a < 0x200000000 → spDecode (a - 0x100000000) = some (.clu j o) → n ≤ Sel.room (.clu j o) → d.cluOut j = false →
       d.prepTarget r k u a n = some (.chip ⟨cspUnit j, o⟩) ∧
       ∀ wr, d.dmaTarget r g a n wr = (if j / 4 = g then some (.chip ⟨cspUnit j, o⟩) else none)) ∧
     (∀ j o, 0x100000000 ≤ a → a < 0x200000000 → spDecode (a - 0x100000000) = some (.reg j o) → n ≤ Sel.room (.reg j o) → d.regOut j = false →
       d.prepTarget r k u a n = some (.chip ⟨regUnit 4 j, o⟩) ∧ ∀ wr, d.dmaTarget r g a n wr = some (.chip ⟨regUnit 4 j, o⟩)) ∧
     (∀ s, 0x100000000 ≤ a → a < 0x200000000 → spDecode (a - 0x100000000) = some s →
       (∃ j o, s = .clu j o ∧ d.cluOut j = true) ∨ (∃ j o, s = .reg j o ∧ d.regOut j = true) →
       d.prepTarget r k u a n = none ∧ ∀ wr, d.dmaTarget r g a n wr = none)) ∧
   (∀ (d : Dev) (id g q t : Nat) (r : Run) (x : Xfer), d.awake → q = qPrep ∨ q = qDma → mfind d.runs id = some r →
     r.xfers.find? (fun y => y.queue == q && y.g == g) = some x →
     let due := ∀ n, x.fc = some n → endsAt n x.done x.since (d.fcRate r.die) t = true
     (¬ due → ∀ mem, Does (.instructionComplete id g q t mem) d d) ∧
     (due → d.touchedPoison x.touched = none → Does (.instructionComplete id g q t []) d
       ((d.at_ t).modRun id (fun r => { r with xfers := r.xfers.erase x }))) ∧
     (∀ a, due → d.touchedPoison x.touched = some a → r.holds = true → r.inCommit = false → id < d.nextRun → d.mild 0x004 → d.coll.ready = true →
       Completes (.instructionComplete id g q t []) d (fun e => mfind e.runs id = none ∧ e.coll.pending.getLsbD 0x004 = true))))

/-- MODULE_LOAD of a container that passes every check becomes the lowest free module identifier, with the part, entries, code and digest
that the container spells; its native image lies in its native range, and no other byte of HBM changes; a container that fails one reports
the failing category and the byte of the failing item, and loads nothing (R216, R219, R220). MODULE_UNLOAD stops new dispatches, and the
module is gone once no command of it is dispatched (R222). TDT_WRITE makes all its entries visible together, or none (R160). Choices of the
model in it: log entries 89, 93, 95. -/
def Obligations.ModulesAndDescriptorTable : Prop :=
  (∀ (d : Dev) (fn ctx : Nat) (c : List Nat), d.awake → fn < 16 → ctx < 4096 → d.headOp (ckey fn ctx) 5 = some c →
    d.poisonIn (bfield c 16 8) (bfield c 24 4) = [] →
    let src := bfield c 16 8
    let len := bfield c 24 4
    let b := d.rdHbm src len
    let m := moduleOf fn b
    let rng := d.headRange (ckey fn ctx)
    (d.loadFail fn rng src len b = none →
      ((hdrOf b).sigOfs = 0 ∨ d.moduleSigOk (b.take 32 ++ List.replicate 8 0 ++ b.drop 40) (hdrOf b).sigOfs = true) →
      Completes (.moduleLoad fn ctx []) d (fun e =>
        mfind e.mods (freeId d.mods 65535 1) = some m ∧ (∀ i, i ≠ freeId d.mods 65535 1 → mfind e.mods i = mfind d.mods i) ∧
        (∀ a, a < m.nativeAddr ∨ m.nativeAddr + m.nativeSize ≤ a → e.mem.hbm.read a = d.mem.hbm.read a) ∧
        e.tdt = d.tdt ∧ e.runs = d.runs ∧ e.flags = d.flags)) ∧
    (∀ p, d.loadFail fn rng src len b = some p → Does (.moduleLoad fn ctx []) d (d.complete (ckey fn ctx) (catStatus p.1) p.2 0 0)) ∧
    (d.loadFail fn rng src len b = none → (hdrOf b).sigOfs ≠ 0 →
      d.moduleSigOk (b.take 32 ++ List.replicate 8 0 ++ b.drop 40) (hdrOf b).sigOfs = false →
      Does (.moduleLoad fn ctx []) d (d.complete (ckey fn ctx) stFormat (hdrOf b).sigOfs 0 0))) ∧
  (∀ (d : Dev) (fn ctx : Nat) (c : List Nat) (mem : List MemErr), d.awake → d.headOp (ckey fn ctx) 5 = some c →
    Does (.moduleLoad fn ctx mem) d (d.met accFetch [(bfield c 16 8, bfield c 24 4)] mem (fun x =>
      x.loadAt (ckey fn ctx) (bfield c 16 8) (bfield c 24 4)))) ∧
  (∀ (d : Dev) (fn ctx : Nat) (c : List Nat), d.awake → fn < 16 → ctx < 4096 → d.headOp (ckey fn ctx) 6 = some c →
    (d.modOf fn (bfield c 16 2)).isSome = true → d.modInBank (bfield c 16 2) = false →
    Completes (.moduleUnload fn ctx) d (fun e => e.modOf fn (bfield c 16 2) = none ∧
      (∀ i, i ≠ bfield c 16 2 → mfind e.mods i = mfind d.mods i) ∧
      (e.head (ckey fn ctx)).map RingCmd.st = some (.unloading (bfield c 16 2)) ∧ e.mem = d.mem ∧ e.runs = d.runs ∧ e.regs = d.regs)) ∧
  (∀ (d : Dev) (fn ctx id : Nat) (k : RingCmd), d.awake → d.head (ckey fn ctx) = some k → k.st = .unloading id →
    (d.runs.any (fun p => p.2.modId == id && p.2.dispatched) = false →
      Completes (.unloadComplete fn ctx) d (fun e => mfind e.mods id = none ∧ (∀ i, i ≠ id → mfind e.mods i = mfind d.mods i) ∧
        (∀ c, d.ctx (ckey fn ctx) = some c → c.ending = none → e.mem.hbm = d.mem.hbm ∧ e.runs = d.runs))) ∧
    (d.runs.any (fun p => p.2.modId == id && p.2.dispatched) = true → Does (.unloadComplete fn ctx) d d)) ∧
  (∀ (d : Dev) (fn ctx : Nat) (c : List Nat), d.awake → fn < 16 → ctx < 4096 → d.headOp (ckey fn ctx) 7 = some c →
    d.poisonIn (bfield c 24 8) (64 * bfield c 20 4) = [] →
    let first := bfield c 16 2
    let n := bfield c 20 4
    let entry := fun i => d.rdHbm (bfield c 24 8 + 64 * i) 64
    let foreign := fun i => bitOf ((entry i).getD 11 0) 0 = true ∧ ∃ t, mfind d.tdt (first + i) = some t ∧ t.valid = true ∧ t.part ≠ fn
    ((∀ i, i < n → descFails (entry i) 0 false = [] ∧ ¬ foreign i) →
      Completes (.tdtWrite fn ctx []) d (fun e =>
        (∀ i, i < n → mfind e.tdt (first + i) = some (descOf (entry i) fn)) ∧
        (∀ h, h < first ∨ first + n ≤ h → mfind e.tdt h = mfind d.tdt h) ∧ e.mem.hbm = d.mem.hbm ∧ e.mods = d.mods ∧ e.runs = d.runs)) ∧
    ((∃ i, i < n ∧ (descFails (entry i) 0 false ≠ [] ∨ foreign i)) →
      Completes (.tdtWrite fn ctx []) d (fun e => e.tdt = d.tdt ∧ e.mem.hbm = d.mem.hbm ∧ e.mods = d.mods ∧ e.runs = d.runs))) ∧
  (∀ (d : Dev) (fn ctx : Nat) (c : List Nat) (mem : List MemErr), d.awake → d.headOp (ckey fn ctx) 7 = some c → bfield c 20 4 ≠ 0 →
    Does (.tdtWrite fn ctx mem) d (d.met accFetch [(bfield c 24 8, 64 * bfield c 20 4)] mem (fun x =>
      x.tdtStore (ckey fn ctx) (bfield c 16 2) (bfield c 20 4) (bfield c 24 8))))

/-- DISPATCH of a candidate whose checks pass and whose units are free starts run 1 on the units that the binding gives, each member at the
first word of its entry with every counter at 0; one whose partition safe state B holds ends with INVALIDATED, one that fails a check ends
with its status, and one that is no candidate is left alone (R38, R230, R307, R313, R315, R382). The command of a task is as its entry in
the task list stands at the dispatch (R312). The end of a slice moves its context to the tail of the queue with the slice and priority last
written (R310, R318, R320); SCH_CTX_SCHED takes a write for a context that exists and refuses a slice of 0; and APPLY stages the whole
assignment or refuses it (R306). A FLAG_CLR of a range that ends beyond the last flag is refused (log entry 20). Choices of the model in it:
log entries 9, 20, 112, 113, 114, 115, 116, 179. -/
def Obligations.DispatchSlicesAndAssignment : Prop :=
  ((∀ (d : Dev) (id t : Nat) (r0 r r' : Run) (m : Module) (en : Entry), d.awake → mfind d.runs id = some r0 → d.isCand r0 = true →
     d.rst.warm = false → d.rst.low = 0 → d.rst.entering = 0 → d.rst.hbmReady = true → d.rst.refclk = true → d.held r0.part = false →
     d.reread r0 = (r, stOk) → (d.entryAddr r).bind (fun a => (d.poisonIn a 64).head?) = none →
     d.dispatchCheck r = stOk → d.runEntry r = some (m, en) →
     let d1 := (d.at_ t).planPreempt
     d1.allFree r = true → d1.reserved id r = false →
     (r.dispatched = true ∧ r' = r) ∨ (r.dispatched = false ∧ d1.snapshot r m en = .ok r') →
     Completes (.dispatch id t []) d (fun e => ∃ x, mfind e.runs id = some x ∧ x.phase = .run 1 ∧ x.dispatched = true ∧
       x.members = (d.leapEngs r).map (fun q => mkMember q.1 q.2 en.first) ∧ x.prep = d.leapCores r ∧ x.attn = d.attnWanted r ∧
       x.dispatchedAt = Nat.max d.now t ∧ x.snap = r'.snap ∧ x.pages = r'.pages ∧ x.args = r'.args ∧ x.pieces = [] ∧ x.signals = [] ∧
       e.mem.hbm = d.mem.hbm ∧ e.mem.host = d.mem.host ∧ e.mods = d.mods ∧ e.flags = d.flags ∧ e.now = Nat.max d.now t)) ∧
   (∀ (d : Dev) (id t : Nat) (r : Run), d.awake → mfind d.runs id = some r → d.isCand r = true → d.rst.warm = false → d.rst.low = 0 →
     d.rst.entering = 0 → d.rst.hbmReady = true → d.rst.refclk = true →
     (∀ mem, d.held r.part = true → Does (.dispatch id t mem) d ((d.at_ t).finish id stInvalidated 10)) ∧
     (d.held r.part = false → (d.entryAddr r).bind (fun a => (d.poisonIn a 64).head?) = none →
       (∀ st, (d.reread r).2 = st → st ≠ stOk → Does (.dispatch id t []) d ((d.at_ t).finish id st 0)) ∧
       (∀ r' st, d.reread r = (r', stOk) → d.dispatchCheck r' = st → st ≠ stOk → Does (.dispatch id t []) d ((d.at_ t).finish id st 0)))) ∧
   (∀ (d : Dev) (id t : Nat) (r : Run), d.awake → mfind d.runs id = some r →
     d.isCand r = false ∨ d.rst.warm = true ∨ d.rst.low ≠ 0 ∨ d.rst.hbmReady = false ∨ d.rst.refclk = false → ∀ mem, Does (.dispatch id t mem) d d)) ∧
  ((∀ (d : Dev) (fn ctx t : Nat) (c : Ctx), d.awake → d.ctx (ckey fn ctx) = some c → ckey fn ctx ∈ d.turns →
     c.slice * 50000 ≤ (d.at_ t).sliceCharge (ckey fn ctx) →
     Completes (.sliceExpiry fn ctx t) d (fun e =>
       e.turns = d.turns.filter (fun k => k != ckey fn ctx) ++ [ckey fn ctx] ∧
       (∃ c', e.ctx (ckey fn ctx) = some c' ∧ c'.sliceUsed = 0 ∧ c'.slice = c.sliceNext ∧ c'.prio = c.prioNext ∧ c'.cmds = c.cmds) ∧
       e.mem.hbm = d.mem.hbm ∧ e.mem.host = d.mem.host ∧ e.regs = d.regs ∧ e.flags = d.flags ∧ e.mods = d.mods)) ∧
   (∀ (d : Dev) (value : Nat) (c : Ctx), d.awake → d.ctx (ckey (d.f F.SCH_CTX_SEL.PART) (d.f F.SCH_CTX_SEL.CTX)) = some c → bits value 9 2 ≠ 0 →
     Completes (.schCtxSchedWrite value) d (fun e =>
       e.ctx (ckey (d.f F.SCH_CTX_SEL.PART) (d.f F.SCH_CTX_SEL.CTX)) = some { c with prioNext := bits value 1 0, sliceNext := bits value 9 2 } ∧
       (∀ k, k ≠ ckey (d.f F.SCH_CTX_SEL.PART) (d.f F.SCH_CTX_SEL.CTX) → e.ctx k = d.ctx k) ∧ e.regs = d.regs ∧ e.mem = d.mem)) ∧
   (∀ (d : Dev) (value : Nat), d.awake → d.ctx (ckey (d.f F.SCH_CTX_SEL.PART) (d.f F.SCH_CTX_SEL.CTX)) = none ∨ bits value 9 2 = 0 →
     Does (.schCtxSchedWrite value) d (d.set F.SCH_CTX_SEL.REFUSED 1)) ∧
   (∀ d : Dev, d.awake → keysRise d.regs.cur = true → d.partBad = false →
     Completes .partApply d (fun e => e.on F.SCH_PART_CTRL.PENDING = true ∧ (∀ k, k < 24 → e.cluPartPend k = d.cluStaged k) ∧
       (∀ k, e.cluPart k = d.cluPart k) ∧ (∀ f, f < 16 → e.pend (F.SCH_PART_CFG.SAFETY f) = d.f (F.SCH_PART_CFG.SAFETY f)) ∧
       e.regs.live = d.regs.live ∧ e.mem = d.mem ∧ e.runs = d.runs)) ∧
   (∀ d : Dev, d.awake → d.partBad = true → Does .partApply d (d.set F.SCH_PART_CTRL.BAD_CFG 1)) ∧
   (∀ d : Dev, d.awake → 16384 < d.f F.SCH_FLAG_CLR.FIRST + d.f F.SCH_FLAG_CLR.COUNT → Does .flagClear d (d.set F.SCH_FLAG_CLR.REFUSED 1)))

/-- FLAG_CLR of a range of flags (R237): with a WAIT outstanding on a flag of the range it is refused, and no flag changes; otherwise it
sets every flag of the range to 0 and no other, at once, and what is added to a flag of the range after it adds to zero. Nothing else
changes. -/
def Obligations.FlagClearZeroesARangeThatNothingWaitsOn : Prop :=
  ∀ d : Dev, d.awake → d.f F.SCH_FLAG_CLR.FIRST + d.f F.SCH_FLAG_CLR.COUNT ≤ 16384 →
    let inRange := fun n => d.f F.SCH_FLAG_CLR.FIRST ≤ n ∧ n < d.f F.SCH_FLAG_CLR.FIRST + d.f F.SCH_FLAG_CLR.COUNT
    (∀ w ∈ d.waits, inRange w.flag → Does .flagClear d (d.set F.SCH_FLAG_CLR.REFUSED 1) ∧ (d.set F.SCH_FLAG_CLR.REFUSED 1).flags = d.flags) ∧
    ((∀ w ∈ d.waits, ¬ inRange w.flag) → Completes .flagClear d (fun e =>
      (∀ n, inRange n → e.flag n = 0 ∧ ∀ v, (e.flagAdd n v).flag n = Nat.min v 0xFFFFFFFF) ∧ (∀ n, ¬ inRange n → e.flag n = d.flag n) ∧
      e = { d with flags := e.flags }))

/-- The commit (R245, R246, R355, R356, R441, R443): COMMIT_START writes every local slice of the commit list, in list order, to the bytes
that its destination names and to no other byte of HBM, and keeps one entry for each piece that leaves the package; PIECE_ACK settles its
piece with the owner's answer, or sends it once again; COMMIT_END applies every deferred signal and ends the command, or, after a refused
piece, ends it with that piece's status and applies none. A source on chip that cannot be corrected stops the commit, and the command waits
for the march test to run again (R132, R247). Choices of the model in it: log entries 52, 53, 86, 108, 145. -/
def Obligations.CommandsCommit : Prop :=
  (∀ (d : Dev) (run t : Nat) (r : Run), d.awake → mfind d.runs run = some r → r.phase = .accepted →
    (∀ i, i < r.ordered.length → d.pieceStop r [] i = none) →
    let l := (d.commitRuns r).flatMap (fun q => d.pieceSlices r q.1 q.2)
    Completes (.commitStart run t []) d (fun e =>
      (∃ x, mfind e.runs run = some x ∧ x.phase = .commit ∧ x.pieces = r.pieces ∧ x.signals = r.signals ∧ x.members = r.members ∧
        x.attn = (if r.safety then r.attn else none) ∧
        x.remotes.length = (l.filter (fun s => match s.1 with
          | .hbm _ _ => false
          | .win _ _ _ _ _ => true)).length) ∧
      (∀ a, (∀ s ∈ l, ∀ b n, s.1 = Dest.hbm b n → a < b ∨ b + s.2.length ≤ a) → e.mem.hbm.read a = d.mem.hbm.read a) ∧
      (d.mem.poison = [] → d.leap.dieLost = [] → ∀ l1 b n bs l2, l = l1 ++ (Dest.hbm b n, bs) :: l2 →
        (∀ s ∈ l2, ∀ b' n', s.1 = Dest.hbm b' n' → b + bs.length ≤ b' ∨ b' + s.2.length ≤ b) →
        ∀ i, i < bs.length → e.mem.hbm.read (b + i) = BitVec.ofNat 8 (bs.getD i 0)) ∧
      (∀ i, i ≠ run → mfind e.runs i = mfind d.runs i) ∧ e.mem.host = d.mem.host ∧ e.ctxs = d.ctxs ∧ e.flags = d.flags ∧ e.coll = d.coll)) ∧
  (∀ (d : Dev) (run t : Nat) (r : Run) (w : MemErr), d.awake → mfind d.runs run = some r → r.phase = .accepted → w.hbm = false →
    w.correctable = false → keyUnit w.addr ≠ hubMem → d.mild 0x001 → d.commitSlices r ≠ [] → (∀ x ∈ d.commitSlices r, x.1 < r.ordered.length ∧ errIn (d.pieceTouched r x.1) w = true) →
    Completes (.commitStart run t [w]) d (fun e => (mfind e.runs run).map Run.phase = some (.march w) ∧ e.mem.hbm = d.mem.hbm ∧
      e.mem.host = d.mem.host ∧ e.flags = d.flags ∧
      e.f F.MEM_SRAM_UE.COUNT = Nat.min (d.f F.MEM_SRAM_UE.COUNT + 1) 0xFFFFFFFF)) ∧
  (∀ (d : Dev) (run i t : Nat) (r : Run) (x : Remote), d.awake → mfind d.runs run = some r → r.phase = .commit → r.remotes[i]? = some x →
    x.settled = false →
    Completes (.pieceAck run i .ack t) d (fun e => (∃ y, mfind e.runs run = some y ∧ y.remotes[i]? = some { x with settled := true } ∧
      y.phase = .commit) ∧ e.mem = d.mem ∧ e.coll = d.coll ∧ e.regs = d.regs) ∧
    (∀ b, Completes (.pieceAck run i (.refused b) t) d (fun e => (∃ y, mfind e.runs run = some y ∧
      y.remotes[i]? = some { x with settled := true, st := if b then stStale else stDenied }) ∧ e.mem = d.mem ∧ e.coll = d.coll)) ∧
    (x.tries = 0 → x.bytes ≠ [] → (d.route x.pkg).isSome = true → Completes (.pieceAck run i .again t) d (fun e => (∃ y, mfind e.runs run = some y ∧
      y.remotes[i]? = some { x with tries := 1 }) ∧ e.out.tx = d.out.tx ++ [.piece x.pkg x.seq x.win x.epoch x.off x.crc x.bytes] ∧ e.mem = d.mem)) ∧
    (d.coll.ready = true → masterKnown r.gang0 = true → Completes (.pieceAck run i .dropped t) d (fun e => (∃ y, mfind e.runs run = some y ∧
      y.remotes[i]? = some { x with settled := true, st := stInvalidated }) ∧ e.coll.pending = setBit512 d.coll.pending 0x046 ∧
      e.mem.hbm = d.mem.hbm))) ∧
  (∀ (d : Dev) (run t : Nat) (r : Run), d.awake → mfind d.runs run = some r → r.phase = .commit → r.remotes.all (fun x => x.settled) = true →
    run < d.nextRun →
    (r.remotes.all (fun x => x.st == 0) = true → keysRise r.signals = true →
      Completes (.commitEnd run t) d (fun e => mfind e.runs run = none ∧
        (∀ n v, (n, v) ∈ r.signals → e.flag n = Nat.min (d.flag n + v) 0xFFFFFFFF) ∧
        (∀ n, n ∉ r.signals.map Prod.fst → e.flag n = d.flag n) ∧ e.now = Nat.max d.now t)) ∧
    (∀ x, r.remotes.find? (fun x => x.st != 0) = some x →
      Completes (.commitEnd run t) d (fun e => mfind e.runs run = none ∧ e.flags = d.flags ∧ e = (d.at_ t).finish run x.st 6)))

/-- Octave and arbitration (R342, R346, R349 to R353): the copy to slot A leads to run 2 on the Octave binding; agreeing records accept the
command, and records that disagree count, are reported and lead through the copy to slot B and the Troy kernels to run 3, once the units
that it takes are free; and the verdict accepts what Table 2 names, or rejects the command. Errors that a stage meets in what it reads have
their outcomes before it ends (R131, R140). Choices of the model in it: log entries 79, 117, 118, 119. -/
def Obligations.OctaveRunsAndVerdicts : Prop :=
  (∀ (d : Dev) (run t : Nat) (r : Run) (m : Module) (en : Entry), d.awake → mfind d.runs run = some r → r.phase = .hold →
    d.runEntry r = some (m, en) →
    let es := Dev.octBind 4 (fun k => if (d.clu k).spare = 7 ∨ (d.clu k).lent then none else some (engUnit k (d.clu k).spare))
      (r.members.map (fun m => (m.le, m.phys)))
    let ps := Dev.octBind 2 (fun k => if (d.clu k).pcSpare = 3 then none else some (pcUnit k (d.clu k).pcSpare)) r.prep
    (es.2.2 ++ ps.2.2).any d.unitHeld = false →
    (es.2.1 ++ ps.2.1 = [] →
      Completes (.holdCopyDone run t []) d (fun e =>
        (∃ x, mfind e.runs run = some x ∧ x.phase = .run 2 ∧ x.octave = true ∧ x.members = es.1.map (fun q => mkMember q.1 q.2 en.first) ∧
          x.prep = ps.1 ∧ x.attn = r.attn ∧ x.snap = r.snap ∧ x.args = r.args ∧ x.recs = r.recs) ∧
        e.f F.SAF_OCT_RUNS.COUNT = Nat.min (d.f F.SAF_OCT_RUNS.COUNT + 1) 0xFFFFFFFF ∧
        (∀ i, i ≠ run → mfind e.runs i = mfind d.runs i) ∧ e.mem.hbm = d.mem.hbm ∧ e.coll = d.coll)) ∧
    (∀ u, es.2.1 ++ ps.2.1 = [u] → d.coll.ready = true → masterKnown u = true →
      Completes (.holdCopyDone run t []) d (fun e => e.coll.pending = setBit512 d.coll.pending 0x044 ∧
        e.f F.SAF_OCT_SAME_ENGINE.COUNT = Nat.min (d.f F.SAF_OCT_SAME_ENGINE.COUNT + 1) 0xFFFFFFFF ∧ e.mem.hbm = d.mem.hbm))) ∧
  (∀ (d : Dev) (run t : Nat) (r : Run) (a b : RunRec), d.awake → mfind d.runs run = some r → r.phase = .compare → mfind r.recs 1 = some a →
    mfind r.recs 2 = some b → d.slotPoison r.part false a.lens = none →
    (agree a b (d.rdSlot r.part false a.lens) b.bytes = true →
      Does (.comparePassDone run t []) d ((d.at_ t).modRun run (fun r => { r with phase := .accepted, status := stOk }))) ∧
    (agree a b (d.rdSlot r.part false a.lens) b.bytes = false → d.coll.ready = true → d.mild 0x041 →
      masterKnown ((mget [] r.runPhys 2).headD 0) = true → Completes (.comparePassDone run t []) d (fun e =>
        (∃ x, mfind e.runs run = some x ∧ x.phase = .slotB ∧ x.agree12 = some false ∧ x.recs = r.recs) ∧
        e.f F.SAF_OCT_DISAGREE.COUNT = Nat.min (d.f F.SAF_OCT_DISAGREE.COUNT + 1) 0xFFFFFFFF ∧
        e.coll.pending = setBit512 d.coll.pending 0x041))) ∧
  (∀ (d : Dev) (run t : Nat) (r : Run), d.awake → mfind d.runs run = some r → r.phase = .slotB →
    Does (.slotBCopyDone run t []) d ((d.at_ t).modRun run (fun r => { r with phase := .troy, exFrom := some t }))) ∧
  (∀ (d : Dev) (run t : Nat) (r : Run) (m : Module) (en : Entry), d.awake → mfind d.runs run = some r → r.phase = .troy →
    d.bound r = true → d.runEntry r = some (m, en) →
    (d.freeFor run r = false → Completes (.troyKernelsDone run [] t) d (fun e => mfind e.runs run = some r ∧ e.mem = d.mem ∧ e.coll = d.coll)) ∧
    (d.freeFor run r = true → Completes (.troyKernelsDone run [] t) d (fun e => (∃ x, mfind e.runs run = some x ∧ x.phase = .run (if r.safety then 3 else 1) ∧
        x.qmRerun = (r.qmRerun || !r.safety) ∧ x.troyFailed = r.troyFailed ∧ x.members = (d.leapEngs r).map (fun q => mkMember q.1 q.2 en.first) ∧
        x.prep = d.leapCores r) ∧
      (∀ i, i ≠ run → mfind e.runs i = mfind d.runs i) ∧ e.mem.hbm = d.mem.hbm ∧ e.coll = d.coll ∧ e.regs = d.regs))) ∧
  (∀ (d : Dev) (run t : Nat) (r : Run), d.awake → mfind d.runs run = some r → r.phase = .final → run < d.nextRun → r.part < 16 →
    r.ctx < 4096 → r.task < 1024 → d.mild 0x041 → d.mild 0x042 →
    let r1 := mfind r.recs 1
    let r2 := mfind r.recs 2
    let r3 := mfind r.recs 3
    let lens := lensOf
    let clean := fun (x : Option RunRec) => (x.map RunRec.clean).getD false
    let b1 := d.rdSlot r.part false (lens r1)
    let b2 := d.rdSlot r.part true (lens r2)
    let b3 := (r3.map RunRec.bytes).getD []
    let a12 := r.agree12.getD (agreeOpt r1 r2 b1 b2)
    let v := verdictOf a12 (agreeOpt r3 r1 b3 b1) (agreeOpt r3 r2 b3 b2) (clean r1) (clean r2) (clean r3)
    d.slotPoison r.part false (lens r1) = none → d.slotPoison r.part true (lens r2) = none →
    (v.code = 5 → Completes (.verdict run t []) d (fun e => mfind e.runs run = none ∧
      e.f F.SAF_ARB_REJECTED.COUNT = Nat.min (d.f F.SAF_ARB_REJECTED.COUNT + 1) 0xFFFFFFFF)) ∧
    (∀ c, v.code ≠ 5 → mfind r.recs v.run = some c → Completes (.verdict run t []) d (fun e =>
      (∃ x, mfind e.runs run = some x ∧ x.phase = .accepted ∧ x.status = stResolved ∧ x.src = v.src ∧ x.pieces = c.pieces ∧
        x.signals = c.signals ∧ x.indexRange = c.indexRange) ∧
      e.f F.SAF_ARB_LAST.VERDICT = v.code ∧ e.on F.SAF_ARB_LAST.VALID = true ∧
      e.f F.SAF_ARB_RESOLVED.COUNT = Nat.min (d.f F.SAF_ARB_RESOLVED.COUNT + 1) 0xFFFFFFFF ∧ e.mem = d.mem))) ∧
  (∀ (d : Dev) (run t : Nat) (r : Run) (mem : List MemErr), d.awake → mfind d.runs run = some r →
    let slot := fun b n => d.slotTouched r.part b (lensOf (mfind r.recs n))
    (r.phase = .hold → Does (.holdCopyDone run t mem) d ((d.memErrs run (d.srcsTouched r) mem).holdDone run t)) ∧
    (r.phase = .compare → Does (.comparePassDone run t mem) d ((d.memErrs run (d.srcsTouched r ++ slot false 1) mem).compareDone run t)) ∧
    (r.phase = .slotB → Does (.slotBCopyDone run t mem) d ((d.memErrs run (d.srcsTouched r) mem).slotBDone run t)) ∧
    (r.phase = .final → Does (.verdict run t mem) d
      ((d.memErrs run (d.srcsTouched r ++ slot false 1 ++ slot true 2) mem).verdict run t))) ∧
  (∀ a12 a13 a23 c1 c2 c3 : Bool,
    let v := verdictOf a12 a13 a23 c1 c2 c3
    (v.code = 5 ∨ v.code = 1 ∧ a13 = true ∨ v.code = 2 ∧ a23 = true ∨ v.code = 3 ∧ a12 = true ∨ v.code = 4) ∧
    (v.code = 4 → [c1, c2, c3].count true = 1 ∧ a12 = false ∧ a13 = false ∧ a23 = false) ∧
    (c1 = false → c2 = false → c3 = false → v.code = 5))

/-- Memory errors (R131 to R135, R140 to R143): the scrubber and the patrol count and report what they find, and an uncorrectable granule is
poisoned; a march test lets the killed command run again, and a hard failure makes the row due for repair; repairs use up spare rows and
lanes, or report that none is left; and APPLY stages the reservations or refuses them (R147). No byte of HBM changes. Choices of the model
in it: log entries 41, 84, 85, 86, 171, 182. -/
def Obligations.MemoryErrorsAndRepairs : Prop :=
  (∀ (d : Dev) (mem off flips t : Nat), d.awake → d.memOn mem = true → off = mget 0 d.mem.scrubAt mem → d.coll.ready = true →
    let row := (mem * 0x1000000 + off) / 64 * 64
    (flips = 1 → Completes (.scrubRead mem off flips t) d (fun e => e.coll.pending = setBit512 d.coll.pending 0x000 ∧
      e.f F.MEM_SRAM_CE.COUNT = Nat.min (d.f F.MEM_SRAM_CE.COUNT + 1) 0xFFFFFFFF ∧ sameMemory d e ∧ e.mem.poison = d.mem.poison ∧
      mget 0 e.mem.scrubAt mem = (off + 8) % memSize mem ∧ e.mem.marches = d.mem.marches)) ∧
    (2 ≤ flips → mem ≠ hubMem → Completes (.scrubRead mem off flips t) d (fun e => e.coll.pending = setBit512 d.coll.pending 0x001 ∧
      e.f F.MEM_SRAM_UE.COUNT = Nat.min (d.f F.MEM_SRAM_UE.COUNT + 1) 0xFFFFFFFF ∧ sameMemory d e ∧
      row ∈ e.mem.marches ∧ mget 0 e.mem.scrubAt mem = (off + 8) % memSize mem)) ∧
    (2 ≤ flips → mem = hubMem → Completes (.scrubRead mem off flips t) d (fun e => e.coll.pending = setBit512 d.coll.pending 0x002 ∧
      sameRegsBut [R.PWR_LP_CTRL] d e ∧ sameMemory d e ∧ e.mem.marches = d.mem.marches)) ∧
    (flips = 0 → Completes (.scrubRead mem off flips t) d (fun e => e.coll = d.coll ∧ e.regs = d.regs ∧ sameMemory d e ∧
      e.mem.sram = d.mem.sram ∧ mget 0 e.mem.scrubAt mem = (off + 8) % memSize mem ∧ ∀ u, u ≠ mem → mget 0 e.mem.scrubAt u = mget 0 d.mem.scrubAt u))) ∧
  (∀ (d : Dev) (mem off flips t : Nat), d.awake → d.memOn mem = false ∨ off ≠ mget 0 d.mem.scrubAt mem → Does (.scrubRead mem off flips t) d d) ∧
  (∀ (d : Dev) (addr flips t : Nat), d.awake → d.on F.MEM_PATROL.EN = true → d.inHbm addr 1 = true → d.stackLost addr = false →
    d.coll.ready = true →
    let g := addr / 64 * 64
    (flips = 1 → g ∉ d.mem.poison → Completes (.patrolRead addr flips t) d (fun e => e.coll.pending = setBit512 d.coll.pending 0x003 ∧
      e.f (F.MEM_HBM_CE.COUNT (stackOf addr)) = Nat.min (d.f (F.MEM_HBM_CE.COUNT (stackOf addr)) + 1) 0xFFFFFFFF ∧ sameMemory d e ∧
      e.mem.poison = d.mem.poison)) ∧
    (2 ≤ flips ∨ g ∈ d.mem.poison → Completes (.patrolRead addr flips t) d (fun e => e.coll.pending = setBit512 d.coll.pending 0x004 ∧
      (∀ h, h ∈ e.mem.poison ↔ h = g ∨ h ∈ d.mem.poison) ∧
      e.f (F.MEM_HBM_UE.COUNT (stackOf g)) = Nat.min (d.f (F.MEM_HBM_UE.COUNT (stackOf g)) + 1) 0xFFFFFFFF ∧ sameMemory d e)) ∧
    (flips = 0 → g ∉ d.mem.poison → Does (.patrolRead addr flips t) d (d.at_ t))) ∧
  (∀ (d : Dev) (key t : Nat), d.awake →
    let row := key / 64 * 64
    let due := d.mem.sramRepairDue.filter (fun x => keyMacro x == keyMacro row && x != row)
    (row ∉ d.mem.marches → ∀ hard, Does (.marchTestDone key hard t) d d) ∧
    (row ∈ d.mem.marches → Completes (.marchTestDone key false t) d (fun e => e.mem.marches = d.mem.marches.filter (fun x => x != row) ∧
      (∀ id r w, mfind d.runs id = some r → r.phase = .march w →
        mfind e.runs id = some (if w.addr / 64 * 64 = row then { r with phase := .cand } else r)) ∧
      (∀ id r, mfind d.runs id = some r → (∀ w, r.phase ≠ .march w) → mfind e.runs id = some r) ∧
      sameMemory d e ∧ e.mem.sramRepairDue = d.mem.sramRepairDue ∧ e.leap = d.leap ∧ e.coll = d.coll ∧ e.regs = d.regs)) ∧
    (row ∈ d.mem.marches → due.length < d.rowsLeft row → Completes (.marchTestDone key true t) d (fun e => row ∈ e.mem.sramRepairDue ∧
      row ∉ e.mem.marches ∧ (∀ id r w, mfind d.runs id = some r → r.phase = .march w → w.addr / 64 * 64 = row →
        (mfind e.runs id).map Run.phase = some .cand) ∧ sameMemory d e ∧ e.leap = d.leap ∧ e.coll = d.coll)) ∧
    (row ∈ d.mem.marches → d.rowsLeft row ≤ due.length → d.unitExists (keyUnit row) = true → unitKind (keyUnit row) ∈ [0, 1, 3, 4] →
      d.leap.clus.length = 24 → Completes (.marchTestDone key true t) d (fun e => e.unitState (keyUnit row) = 3 ∧ sameMemory d e))) ∧
  (∀ (d : Dev) (mem : Nat), d.awake →
    let p := fun key => keyUnit key == mem && d.mem.rowsReady.contains key
    (d.mem.rowsReady.any (fun key => keyUnit key == mem) = false ∨ d.diesOn = false → Does (.rowRepairApply mem) d d) ∧
    (d.diesOn = true → d.mem.rowsReady.any (fun key => keyUnit key == mem) = true →
      (unitKind mem = 3 ∧ d.runs.any (fun q => q.2.holds && q.2.onClu (unitClu mem)) = false ∨
        unitKind mem = 4 ∧ d.runs.any (fun q => q.2.holds && [0, 1, 2, 3].any (fun j => q.2.onClu (unitRegion mem * 4 + j))) = false) →
      Completes (.rowRepairApply mem) d (fun e =>
        e.mem.sramRepairDue = d.mem.sramRepairDue.filter (fun key => !p key) ∧
        (∀ key, e.rowsLeft key = d.rowsLeft key - (d.mem.sramRepairDue.filter (fun r => p r && keyMacro r == keyMacro key)).length) ∧
        mget 0 e.mem.withheld mem = d.now + 2000 ∧
        sameMemory d e ∧ e.mem.sram = d.mem.sram ∧ e.regs = d.regs ∧ e.runs = d.runs))) ∧
  (∀ (d : Dev) (stack lane t : Nat) (marginal : Bool), d.awake → stack < d.nStacks → lane < 1024 → stack ∉ d.leap.dieLost →
    let ch := (stack * 1024 + lane) / 64
    let due := marginal = true ∨ 16 ≤ mget 0 (d.at_ t).patrolTurn.mem.hbmLanes (stack * 1024 + lane)
    (¬ due → Completes (.hbmLaneRepair stack lane marginal t) d (fun e => e.mem.lanesSpare = d.mem.lanesSpare ∧ sameMemory d e ∧
      e.regs = d.regs ∧ e.coll = d.coll)) ∧
    (due → d.mem.lanesSpare.getD ch 0 ≠ 0 → Completes (.hbmLaneRepair stack lane marginal t) d (fun e =>
      e.mem.lanesSpare.getD ch 0 = d.mem.lanesSpare.getD ch 0 - 1 ∧ (∀ c, c ≠ ch → e.mem.lanesSpare.getD c 0 = d.mem.lanesSpare.getD c 0) ∧
      e.f (F.MEM_HBM_REPAIR.LANES_USED stack) = Nat.min (d.f (F.MEM_HBM_REPAIR.LANES_USED stack) + 1) 255 ∧
      sameRegsBut [R.MEM_HBM_REPAIR stack] d e ∧ sameMemory d e ∧ e.mem.poison = d.mem.poison)) ∧
    (due → d.mem.lanesSpare.getD ch 0 = 0 → d.coll.ready = true → Completes (.hbmLaneRepair stack lane marginal t) d (fun e =>
      e.coll.pending = setBit512 d.coll.pending 0x005 ∧ e.mem.lanesSpare = d.mem.lanesSpare ∧ sameMemory d e ∧
      sameRegsBut [R.PWR_LP_CTRL] d e))) ∧
  (∀ (d : Dev) (stack row t : Nat), d.awake → stack < d.nStacks → stack ∉ d.leap.dieLost →
    let due := 3 ≤ mget 0 (d.at_ t).patrolTurn.mem.hbmRows (stack + 2 * row)
    (¬ due → Completes (.hbmRowRepair stack row t) d (fun e => e.mem.rowsSpare = d.mem.rowsSpare ∧ sameMemory d e ∧
      e.regs = d.regs ∧ e.coll = d.coll)) ∧
    (due → d.mem.rowsSpare.getD stack 0 ≠ 0 → Completes (.hbmRowRepair stack row t) d (fun e =>
      e.mem.rowsSpare.getD stack 0 = d.mem.rowsSpare.getD stack 0 - 1 ∧
      e.f (F.MEM_HBM_REPAIR.ROWS_USED stack) = Nat.min (d.f (F.MEM_HBM_REPAIR.ROWS_USED stack) + 1) 255 ∧
      sameRegsBut [R.MEM_HBM_REPAIR stack] d e ∧ sameMemory d e ∧ e.mem.poison = d.mem.poison)) ∧
    (due → d.mem.rowsSpare.getD stack 0 = 0 → d.coll.ready = true → Completes (.hbmRowRepair stack row t) d (fun e =>
      e.coll.pending = setBit512 d.coll.pending 0x005 ∧ e.mem.rowsSpare = d.mem.rowsSpare ∧ sameMemory d e ∧
      sameRegsBut [R.PWR_LP_CTRL] d e))) ∧
  (∀ d : Dev, d.awake → keysRise d.regs.cur = true → d.rsvBad = false →
    Completes .rsvApply d (fun e => e.on F.MEM_RSV_CTRL.PENDING = true ∧
      (∀ b s, b < 17 → s < 2 → e.pend (F.MEM_RSV.RATE b s) = d.f (F.MEM_RSV.RATE b s) ∧
        e.pend (F.MEM_RSV.BURST b s) = d.f (F.MEM_RSV.BURST b s) ∧ e.rate b s = d.rate b s) ∧
      e.mem = d.mem ∧ e.mods = d.mods)) ∧
  (∀ d : Dev, d.awake → d.rsvBad = true → Does .rsvApply d (d.set F.MEM_RSV_CTRL.BAD_CFG 1))

/-- Leap (R19, R395 to R397, R404 to R406): a rotation chooses the unit whose last full pass is the oldest, and at its boundary its logical
number binds to the spare and the unit goes under test; a fenced sequencer hands over to its standby; a loan binds a deferred engine's
number to a lender's spare and ends after the test. No other cluster's binding changes. Choices of the model in it: log entries 12, 32, 33,
37. -/
def Obligations.LeapRotatesAndLends : Prop :=
  (∀ (d : Dev) (k t : Nat), d.awake → d.leap.clus.length = 24 → d.cluOut k = false → d.diesOn = true →
    ((d.clu k).spare ≠ 7 → (d.clu k).lent = false → (d.clu k).engDue = none → (d.clu k).engPrev + d.rotNs ≤ t →
      Completes (.rotationDue k false t) d (fun e =>
        e.clu k = { d.clu k with engDue := d.oldest (engUnit k) ((d.clu k).le.filter (fun p => p != 7)) } ∧
        (∀ j, j ≠ k → e.clu j = d.clu j) ∧ e.mem = d.mem ∧ e.regs = d.regs ∧ e.runs = d.runs)) ∧
    ((d.clu k).pcSpare ≠ 3 → (d.clu k).pcDue = none → (d.clu k).pcPrev + d.rotNs ≤ t →
      Completes (.rotationDue k true t) d (fun e =>
        e.clu k = { d.clu k with pcDue := d.oldest (pcUnit k) ((d.clu k).pc.filter (fun p => p != 3)) } ∧
        (∀ j, j ≠ k → e.clu j = d.clu j) ∧ e.mem = d.mem ∧ e.regs = d.regs ∧ e.runs = d.runs))) ∧
  (∀ (d : Dev) (unit : Nat → Nat) (l : List Nat) (p : Nat), d.oldest unit l = some p →
    p ∈ l ∧ ∀ q ∈ l, (d.unitSt (unit p)).lastPass ≤ (d.unitSt (unit q)).lastPass) ∧
  (∀ (d : Dev) (k p t : Nat), d.awake → d.leap.clus.length = 24 → d.cluOut k = false → d.diesOn = true →
    let c := d.clu k
    (c.engDue = some p → c.spare ≠ 7 → c.lent = false → (d.unitSt (engUnit k c.spare)).testing = false → p ∈ c.le →
      d.leHeld (4 * k + c.le.idxOf p) = false → d.unitHeld (engUnit k p) = false → d.unitKept (engUnit k p) = false → d.unitHeld (engUnit k c.spare) = false →
      Completes (.leapRotation k false t) d (fun e =>
        e.clu k = { c with le := c.le.map (fun x => if x = p then c.spare else x), spare := p, engDue := none, engPrev := t } ∧
        (∀ j, j ≠ k → e.clu j = d.clu j) ∧ (e.unitSt (engUnit k p)).testing = true ∧ e.leap.journal = e.leap.clus ∧
        sameMemory d e ∧ e.regs = d.regs ∧ e.runs = d.runs)) ∧
    (c.pcDue = some p → c.pcSpare ≠ 3 → (d.unitSt (pcUnit k c.pcSpare)).testing = false → p ∈ c.pc →
      d.coreHeld (2 * k + c.pc.idxOf p) = false → d.unitHeld (pcUnit k p) = false → d.unitKept (pcUnit k p) = false → d.unitHeld (pcUnit k c.pcSpare) = false →
      Completes (.leapRotation k true t) d (fun e =>
        e.clu k = { c with pc := c.pc.map (fun x => if x = p then c.pcSpare else x), pcSpare := p, pcDue := none, pcPrev := t } ∧
        (∀ j, j ≠ k → e.clu j = d.clu j) ∧ (e.unitSt (pcUnit k p)).testing = true ∧ e.leap.journal = e.leap.clus ∧
        sameMemory d e ∧ e.regs = d.regs ∧ e.runs = d.runs))) ∧
  (∀ (d : Dev) (k t : Nat), d.awake → d.leap.clus.length = 24 → d.cluOut k = false →
    let c := d.clu k
    (c.seqActive ∈ c.seqFenced → 1 - c.seqActive ∉ c.seqFenced → d.coll.ready = true →
      Completes (.sequencerSwitchover k t) d (fun e => e.clu k = { c with seqActive := 1 - c.seqActive } ∧
        (∀ j, j ≠ k → e.clu j = d.clu j) ∧ e.coll.pending = setBit512 d.coll.pending 0x081 ∧ sameMemory d e)) ∧
    (c.seqActive ∉ c.seqFenced → 1 - c.seqActive ∉ c.seqFenced → d.codeTurn k = true →
      Completes (.sequencerSwitchover k t) d (fun e => e.clu k = { c with seqActive := 1 - c.seqActive } ∧
        (∀ j, j ≠ k → e.clu j = d.clu j) ∧ e.coll = d.coll ∧ e.mem = d.mem ∧ e.regs = d.regs ∧ e.runs = d.runs)) ∧
    (c.seqActive ∉ c.seqFenced → d.codeTurn k = false → Does (.sequencerSwitchover k t) d d)) ∧
  (∀ (d : Dev) (k p j t : Nat), d.awake → d.leap.clus.length = 24 → d.cluOut k = false → d.diesOn = true → (d.clu k).loanAsk = some p → p ∈ (d.clu k).le →
    (d.clu k).loan = none → d.leHeld (4 * k + (d.clu k).le.idxOf p) = false → (d.unitSt (engUnit k p)).slicing = false →
    d.unitKept (engUnit k p) = false → d.lender k = some j →
    Completes (.loanBegin k t) d (fun e =>
      (e.clu k).loan = some ⟨(d.clu k).le.idxOf p, p, j % 4, (d.clu j).spare, t, none⟩ ∧ (e.clu k).loanAsk = none ∧
      (e.clu j).lent = true ∧ (e.clu k).le = (d.clu k).le ∧ (e.unitSt (engUnit k p)).testing = true ∧
      (∀ i, i ≠ k → i ≠ j → e.clu i = d.clu i) ∧ e.mem = d.mem ∧ e.regs = d.regs ∧ e.runs = d.runs)) ∧
  (∀ (d : Dev) (k t : Nat) (l : Loan), d.awake → d.leap.clus.length = 24 → d.diesOn = true → (d.clu k).loan = some l → l.tested.isSome = true →
    l.began + d.rotNs ≤ t → d.leHeld (4 * k + l.le) = false →
    let j := k / 4 * 4 + l.lender
    j ≠ k → j < 24 → d.unitKept (engUnit j l.phys) = false →
    Completes (.loanEnd k t) d (fun e => e.clu k = { d.clu k with loan := none } ∧
      e.clu j = Clu.bringIn { d.clu j with lent := false, engPrev := t } ∧ e.leap.journal = e.leap.clus ∧
      (∀ i, i ≠ k → i ≠ j → e.clu i = d.clu i) ∧ e.mem = d.mem ∧ e.regs = d.regs ∧ e.runs = d.runs)) ∧
  (∀ c : Clu, (c.spare = 7 ∨ 7 ∉ c.le → c.bringIn = c) ∧
    (c.spare ≠ 7 → 7 ∈ c.le → c.bringIn = { c with le := c.le.set (c.le.idxOf 7) c.spare, spare := 7, engDue := none }))

/-- Ember tests and wear (R398 to R403, R407, R408): a full pass clears the untested time and counts in PASSES and SAF_EMB_PASS; a slice
adds its cycles; an engine or prep core that fails is fenced with TROY_FAIL; a deferred test counts and is reported; standby units are
tested in place; the journal takes the wear of every unit once an hour; and the wear record is read whole. Choices of the model in it: log
entries 37, 39, 40, 181. -/
def Obligations.EmberTestsAndWear : Prop :=
  (∀ (d : Dev) (unit t : Nat), d.awake → d.diesOn = true → (d.unitSt unit).testing = true →
    Completes (.emberTestDone unit true [] t) d (fun e =>
      e.unitSt unit = { d.unitSt unit with
        testing := false, turn := (d.unitSt unit).slicing, slicing := false, slices := 0, lastPass := Nat.max d.now t, deferred := 0,
        passes := Nat.min ((d.unitSt unit).passes + 1) 0xFFFFFFFF } ∧
      (∀ u, u ≠ unit → e.unitSt u = d.unitSt u) ∧ e.f F.SAF_EMB_PASS.COUNT = Nat.min (d.f F.SAF_EMB_PASS.COUNT + 1) 0xFFFFFFFF ∧
      sameRegsBut [R.SAF_EMB_PASS] d e ∧ e.mem = d.mem ∧ e.coll = d.coll)) ∧
  (∀ (d : Dev) (unit t : Nat) (pass : Bool) (rows : List Nat), d.awake → d.diesOn = true → d.leap.clus.length = 24 →
    d.unitExists unit = true → unitKind unit ≤ 1 ∨ unitKind unit = 6 ∧ d.attnOk (unitRegion unit) = true → d.coll.ready = true →
    pass = false ∨ rows ≠ [] →
    let fails := fun (e : Dev) => e.unitState unit = 3 ∧ e.coll.pending.getLsbD 0x045 = true ∧ sameMemory d e ∧
      ∀ o, rows = [o] → o < memSize unit →
        let key := unit * 0x1000000 + o
        (d.mem.sramRepairDue.filter (fun r => keyMacro r == keyMacro key)).length < d.rowsLeft key → key / 64 * 64 ∈ e.mem.sramRepairDue
    ((d.unitSt unit).testing = true → Completes (.emberTestDone unit pass rows t) d fails) ∧
    ((d.unitSt unit).slicing = true → Completes (.emberSliceEnd unit pass rows t) d fails)) ∧
  (∀ (d : Dev) (unit t : Nat), d.awake →
    ((d.at_ t).mayslice unit = true →
      Completes (.emberSliceStart unit t) d (fun e => e.unitSt unit = { d.unitSt unit with slicing := true, turn := false } ∧
        (∀ u, u ≠ unit → e.unitSt u = d.unitSt u) ∧ e.mem = d.mem ∧ e.regs = d.regs ∧ e.runs = d.runs)) ∧
    ((d.at_ t).mayslice unit = false → Does (.emberSliceStart unit t) d (d.at_ t))) ∧
  (∀ (d : Dev) (unit t : Nat), d.awake → d.diesOn = true → (d.unitSt unit).slicing = true →
    ((d.unitSt unit).slices + d.sliceCycles unit < testCycles unit →
      Completes (.emberSliceEnd unit true [] t) d (fun e =>
        e.unitSt unit = { d.unitSt unit with slicing := false, slices := (d.unitSt unit).slices + d.sliceCycles unit, turn := true } ∧
        (∀ u, u ≠ unit → e.unitSt u = d.unitSt u) ∧ e.mem = d.mem ∧ e.regs = d.regs)) ∧
    (testCycles unit ≤ (d.unitSt unit).slices + d.sliceCycles unit →
      Completes (.emberSliceEnd unit true [] t) d (fun e => (e.unitSt unit).slicing = false ∧ (e.unitSt unit).slices = 0 ∧
        (e.unitSt unit).lastPass = Nat.max d.now t ∧ e.f F.SAF_EMB_PASS.COUNT = Nat.min (d.f F.SAF_EMB_PASS.COUNT + 1) 0xFFFFFFFF ∧
        e.mem = d.mem))) ∧
  (∀ (d : Dev) (unit t : Nat), d.awake → d.unitExists unit = true → unitKind unit ∈ [0, 1, 6] → d.unitState unit ≠ 3 → d.coll.ready = true →
    d.mild 0x086 →
    let x := t - (d.unitSt unit).lastPass
    x % d.intervalNs = 0 → (d.unitSt unit).deferred < x →
    Completes (.emberDeferred unit t) d (fun e => e.unitSt unit = { d.unitSt unit with deferred := x } ∧
      e.f F.SAF_EMB_DEFER.COUNT = Nat.min (d.f F.SAF_EMB_DEFER.COUNT + 1) 0xFFFFFFFF ∧ e.coll.pending = setBit512 d.coll.pending 0x086 ∧
      sameMemory d e)) ∧
  (∀ (d : Dev) (k t : Nat), d.awake → d.leap.clus.length = 24 → d.cluOut k = false → d.diesOn = true →
    1 - (d.clu k).seqActive ∉ (d.clu k).seqFenced → (d.clu k).seqTest + 100000000 ≤ t → d.coll.ready = true →
    Completes (.standbySeqTest k true t) d (fun e => (e.clu k).seqTest = t ∧ (e.unitSt (seqUnit k (1 - (d.clu k).seqActive))).lastPass = Nat.max d.now t ∧
      e.f F.SAF_EMB_PASS.COUNT = Nat.min (d.f F.SAF_EMB_PASS.COUNT + 1) 0xFFFFFFFF ∧ e.mem = d.mem ∧ e.coll = d.coll) ∧
    Completes (.standbySeqTest k false t) d (fun e => 1 - (d.clu k).seqActive ∈ (e.clu k).seqFenced ∧
      (e.clu k).seqActive = (d.clu k).seqActive ∧ e.coll.pending.getLsbD 0x045 = true ∧ sameMemory d e)) ∧
  (∀ (d : Dev) (t : Nat), d.awake → d.safe.standby = true → d.safe.pairTest + d.intervalNs ≤ t → d.coll.ready = true →
    Completes (.standbyComputusTest true t) d (fun e => e.f F.SAF_EMB_PASS.COUNT = Nat.min (d.f F.SAF_EMB_PASS.COUNT + 1) 0xFFFFFFFF ∧
      e.safe = { d.safe with pairTest := t } ∧ e.mem = d.mem) ∧
    Completes (.standbyComputusTest false t) d (fun e => e.safe = { d.safe with standby := false, pairTest := t } ∧
      e.coll.pending = setBit512 d.coll.pending 0x045 ∧ e.mem = d.mem)) ∧
  (∀ (d : Dev) (t : Nat), d.awake → d.leap.wornAt + 3600000000000 ≤ t →
    Completes (.wearJournal t) d (fun e => e.leap.wornAt = t ∧ e.leap.wearJournal = (d.at_ t).journalWear.leap.wearJournal ∧
      e.leap.clus = d.leap.clus ∧ e.leap.units = d.leap.units ∧ e.mem = d.mem ∧ e.regs = d.regs)) ∧
  (∀ (d : Dev) (who : Who), d.awake → who = .pf ∨ who = .computus →
    Completes (.wearRead who) d (fun e => e.out.rdata = leBytes 4 ((d.wearRecord (d.f F.SAF_WEAR_SEL.UNIT)).getD 0 0) ∧
      e.leap.wearSnap = d.wearRecord (d.f F.SAF_WEAR_SEL.UNIT) ∧ e.mem = d.mem ∧ e.regs = d.regs))

/-- Every event of a known source and a listed unit counts in the source's window, and is classified (R363): the count is 0 while no window
is open; an event that finds no window, or one that has ended, opens one and counts as 1, one inside it adds 1; the event that brings the
count to the threshold is severe, sets SEVERE, closes the window and holds the count; while SEVERE is 1 every event is severe and changes no
count; every other is minor. FAULT_EVENT of one event counts so. Ones written to SEVERE bits that are 1 clear them, with counts of 0 and no
window open, and to bits that are 0 change nothing. Thresholds from 1 to 255 and windows from 1 ms to 3,600,000 ms hold at reset and stay so
under configuration writes. -/
def Obligations.FaultWindowsCountAndClassify : Prop :=
  (let counted := fun (ev : FaultEv) (d e : Dev) =>
    let s := d.coll.src ev.src
    let inWindow := match s.winEnd with
      | some w => decide (ev.t < w)
      | none => false
    let count := if inWindow then s.count + 1 else 1
    let window := if inWindow then s.winEnd else some (ev.t + s.windowMs * 1000000)
    (d.coll.severe.getLsbD ev.src = true →
      (e.coll.src ev.src).count = s.count ∧ (e.coll.src ev.src).winEnd = s.winEnd ∧ e.coll.severe = d.coll.severe) ∧
    (d.coll.severe.getLsbD ev.src = false → count < s.thresh →
      (e.coll.src ev.src).count = count ∧ (e.coll.src ev.src).winEnd = window ∧ e.coll.severe = d.coll.severe) ∧
    (d.coll.severe.getLsbD ev.src = false → s.thresh ≤ count →
      (e.coll.src ev.src).count = s.thresh ∧ (e.coll.src ev.src).winEnd = none ∧ e.coll.severe = setBit512 d.coll.severe ev.src) ∧
    (d.coll.first = none → e.coll.first.map FirstRec.severe = some (d.coll.severe.getLsbD ev.src || decide (s.thresh ≤ count))) ∧
    ((s.winEnd = none → d.coll.severe.getLsbD ev.src = false → s.count = 0) →
      ((e.coll.src ev.src).winEnd = none → e.coll.severe.getLsbD ev.src = false → (e.coll.src ev.src).count = 0)) ∧
    (e.coll.src ev.src).total = Nat.min (s.total + 1) (2 ^ 24 - 1) ∧
    (∀ i, i ≠ ev.src → e.coll.src i = d.coll.src i)
   (∀ (d : Dev) (ev : FaultEv), d.coll.ready = true → sourceKnown ev.src = true → masterKnown ev.master = true → counted ev d (d.event ev)) ∧
   (∀ (d : Dev) (src master addr acc t : Nat), d.awake → d.coll.ready = true → sourceKnown src = true → masterKnown master = true →
    fencedBy src master = none → Completes (.faultEvent [⟨src, master, addr, acc⟩] t) d (counted ⟨src, master, addr, acc, t⟩ d))) ∧
  (∀ (d : Dev) (i mask : Nat), d.awake → i < 16 → mask < 2 ^ 32 → Completes (.severeClear i mask) d (fun e =>
    (∀ j, j < 32 → mask.testBit j = true → d.coll.severe.getLsbD (32 * i + j) = true →
      e.coll.severe.getLsbD (32 * i + j) = false ∧ (e.coll.src (32 * i + j)).count = 0 ∧ (e.coll.src (32 * i + j)).winEnd = none) ∧
    (∀ n, n < 512 → n / 32 ≠ i ∨ mask.testBit (n % 32) = false ∨ d.coll.severe.getLsbD n = false →
      e.coll.severe.getLsbD n = d.coll.severe.getLsbD n ∧ e.coll.src n = d.coll.src n) ∧
    e.regs = d.regs ∧ e.mem = d.mem ∧ e.coll.pending = d.coll.pending ∧ e.coll.latch = d.coll.latch ∧ e.coll.first = d.coll.first)) ∧
  (let fine := fun (d : Dev) => ∀ src, sourceKnown src = true →
      1 ≤ (d.coll.src src).thresh ∧ (d.coll.src src).thresh ≤ 255 ∧ 1 ≤ (d.coll.src src).windowMs ∧ (d.coll.src src).windowMs ≤ 3600000
   fine Dev.reset ∧ ∀ (d : Dev) (who : Who) (win : Bool) (v : Nat), d.awake → fine d → Completes (.fltSrcCfgWrite who win v) d fine)

/-- What FAULT_EVENT reports besides: an event with a master that Table 4 of R516 does not list is not recorded; an event that reports a
unit as fenced fences it, and the fencing reports itself (R19, R24; which events report one: log entries 121, 180); of two events of one
cycle the lower source, then the lower master, comes first (R364). A one written to a SEVERE bit changes nothing but that source. Choices of
the model in it: log entries 121, 180. -/
def Obligations.FaultEventsFenceAndKeepOrder : Prop :=
  (∀ (d : Dev) (src master addr acc t : Nat), d.awake → masterKnown master = false → fencedBy src master = none →
    Does (.faultEvent [⟨src, master, addr, acc⟩] t) d (d.at_ t)) ∧
  (∀ (d : Dev) (a b : Detection) (t : Nat), d.awake → a.master < 65536 → fencedBy a.src a.master = none → fencedBy b.src b.master = none →
    (a.src < b.src ∨ a.src = b.src ∧ a.master < b.master) →
    Does (.faultEvent [b, a] t) d (((d.at_ t).event ⟨a.src, a.master, a.addr, a.acc, t⟩).event ⟨b.src, b.master, b.addr, b.acc, t⟩)) ∧
  (∀ (d : Dev) (src master addr acc t u : Nat), d.awake → fencedBy src master = some u →
    (src = 0x045 → Does (.faultEvent [⟨src, master, addr, acc⟩] t) d (((d.at_ t).event ⟨src, master, addr, acc, t⟩).fence u none)) ∧
    (src ≠ 0x045 → ((d.at_ t).fence u none).leap ≠ d.leap → Does (.faultEvent [⟨src, master, addr, acc⟩] t) d ((d.at_ t).fence u none)) ∧
    (src ≠ 0x045 → ((d.at_ t).fence u none).leap = d.leap →
      Does (.faultEvent [⟨src, master, addr, acc⟩] t) d ((d.at_ t).event ⟨src, master, addr, acc, t⟩))) ∧
  (∀ (d : Dev) (i j : Nat), d.awake → i < 16 → j < 32 →
    (d.coll.severe.getLsbD (32 * i + j) = true → Does (.severeClear i (2 ^ j)) d { d with
      coll := Coll.setSrc { d.coll with severe := clrBit512 d.coll.severe (32 * i + j) } (32 * i + j)
        { d.coll.src (32 * i + j) with count := 0, winEnd := none } }) ∧
    (d.coll.severe.getLsbD (32 * i + j) = false → Does (.severeClear i (2 ^ j)) d d))

/-- An event is captured in an empty first-error record; of one that comes later it is merged, and of two events of one cycle the record
keeps the first by source and master (R370). Its source is pending (R371). FAULT_EVENT leaves HBM and host memory, the safe states, the
flags and the modules as they were. The configuration writes of the collector: a one written to a PENDING bit clears it with the source's
ERR latch, and VALID clears (R370, R371), LOCK sets (R376), and an accepted FLT_SRC_CFG or FLT_SRC_WIN write sets the selected source's
values with the count back at 0 and no window open, PENDING and SEVERE unchanged (R365). Everything else stays. A configuration write, one
of FLT_PIN too, or an injection that the physical function makes under LOCK, a write with a threshold of 0 or a window of 0 or beyond
3,600,000 ms, and one to a reserved source are ignored and set BAD_CFG (R365, R375, R376). Choices of the model in it: log entries 16, 121. -/
def Obligations.FaultRecordAndCollectorWrites : Prop :=
  ((∀ (d : Dev) (ev : FaultEv), d.coll.ready = true → sourceKnown ev.src = true → masterKnown ev.master = true →
     let e := d.event ev
     (d.coll.first = none →
       e.coll.first.map FirstRec.ev = some ev ∧ e.coll.mergeCnt = d.coll.mergeCnt ∧ e.coll.merged = d.coll.merged) ∧
     (∀ r, d.coll.first = some r → e.coll.mergeCnt = Nat.min (d.coll.mergeCnt + 1) 65535 ∧
       (r.ev.t ≠ ev.t ∨ r.ev.src < ev.src ∨ r.ev.src = ev.src ∧ r.ev.master ≤ ev.master →
         e.coll.first = some r ∧ e.coll.merged = setBit512 d.coll.merged ev.src) ∧
       (r.ev.t = ev.t → ev.src < r.ev.src ∨ ev.src = r.ev.src ∧ ev.master < r.ev.master →
         e.coll.first.map FirstRec.ev = some ev ∧ e.coll.merged = setBit512 d.coll.merged r.ev.src)) ∧
     e.coll.pending = setBit512 d.coll.pending ev.src) ∧
   (∀ (d : Dev) (src master addr acc t : Nat), d.awake →
     Completes (.faultEvent [⟨src, master, addr, acc⟩] t) d (fun e =>
       (d.coll.ready = true → sourceKnown src = true → masterKnown master = true → fencedBy src master = none →
         e.coll.pending = setBit512 d.coll.pending src) ∧
       e.now = Nat.max d.now t ∧ sameMemory d e ∧ e.safe = d.safe ∧ e.flags = d.flags ∧ e.fuses = d.fuses ∧ e.mods = d.mods))) ∧
  ((∀ (d : Dev) (i j : Nat), d.awake → i < 16 → j < 32 →
     Does (.pendingClear i (2 ^ j)) d { d with
       coll := { d.coll with
         pending := clrBit512 d.coll.pending (32 * i + j), latch := clrBit512 d.coll.latch (32 * i + j) } }) ∧
   (∀ d : Dev, d.awake →
     Does .validClear d { d with
       coll := { d.coll with first := none, mergeCnt := 0, merged := 0, snapPf := none, snapC := none } }) ∧
   (∀ d : Dev, d.awake →
     Completes .lock d (fun e => e.on F.FLT_CTRL.LOCK = true ∧ e.f F.FLT_CTRL.VECTOR = d.f F.FLT_CTRL.VECTOR ∧
       e.f F.FLT_CTRL.IRQ_EN = d.f F.FLT_CTRL.IRQ_EN ∧ sameRegsBut [R.FLT_CTRL] d e ∧ e.coll = d.coll ∧ sameMemory d e)) ∧
   (∀ (d : Dev) (who : Who) (value : Nat), d.awake → (who = .pf ∧ d.on F.FLT_CTRL.LOCK = false) ∨ who = .computus →
     sourceKnown (d.f F.FLT_SRC_SEL.ID) = true → bits value 7 0 ≠ 0 →
     Does (.fltSrcCfgWrite who false value) d { d with
       coll := d.coll.setSrc (d.f F.FLT_SRC_SEL.ID)
         { d.coll.src (d.f F.FLT_SRC_SEL.ID) with
           count := 0, winEnd := none, thresh := bits value 7 0, minor := bits value 12 8, severe := bits value 17 13 } }) ∧
   (∀ (d : Dev) (who : Who) (value : Nat), d.awake → (who = .pf ∧ d.on F.FLT_CTRL.LOCK = false) ∨ who = .computus →
     sourceKnown (d.f F.FLT_SRC_SEL.ID) = true → bits value 21 0 ≠ 0 → bits value 21 0 ≤ 3600000 →
     Does (.fltSrcCfgWrite who true value) d { d with
       coll := d.coll.setSrc (d.f F.FLT_SRC_SEL.ID)
         { d.coll.src (d.f F.FLT_SRC_SEL.ID) with count := 0, winEnd := none, windowMs := bits value 21 0 } })) ∧
  ((∀ (d : Dev) (win : Bool) (value : Nat), d.awake → d.on F.FLT_CTRL.LOCK = true →
     Does (.fltSrcCfgWrite .pf win value) d (d.set F.FLT_CTRL.BAD_CFG 1)) ∧
   (∀ (d : Dev) (src t : Nat), d.awake → d.on F.FLT_CTRL.LOCK = true → Does (.inject .pf src t) d (d.set F.FLT_CTRL.BAD_CFG 1)) ∧
   (∀ (d : Dev) (v t : Nat), d.awake → d.portOpen .pf = true → d.sec.overLink = false → d.on F.FLT_CTRL.LOCK = true →
     Does (.registerWrite .pf R.FLT_PIN 4 v t) d ((d.at_ t).set F.FLT_CTRL.BAD_CFG 1)) ∧
   (∀ (d : Dev) (win : Bool) (value : Nat), d.awake → sourceKnown (d.f F.FLT_SRC_SEL.ID) = false →
     Does (.fltSrcCfgWrite .computus win value) d (d.set F.FLT_CTRL.BAD_CFG 1)) ∧
   (∀ (d : Dev) (value : Nat), d.awake → bits value 7 0 = 0 →
     Does (.fltSrcCfgWrite .computus false value) d (d.set F.FLT_CTRL.BAD_CFG 1)) ∧
   (∀ (d : Dev) (value : Nat), d.awake → bits value 21 0 = 0 ∨ 3600000 < bits value 21 0 →
     Does (.fltSrcCfgWrite .computus true value) d (d.set F.FLT_CTRL.BAD_CFG 1)))

/-- INJECT makes one event of a known source with master ID 0x80FF, address 0 and access type INJECT (R375); a falling filtered level of
ERR_IN_N makes one event of ERR_IN with access type LINK while ERR_IN_EN is 1, a rising one shows in FLT_PIN (R373, R374); a read of
FLT_FIRST_ADDR takes the requester's own snapshot (R375); and the end of a block reset lets the commands that waited for it run again (R34,
R368). Choices of the model in it: log entry 123. -/
def Obligations.InjectionsPinsSnapshotsAndBlockResets : Prop :=
  (∀ (d : Dev) (who : Who) (src t : Nat), d.awake → (who = .pf ∧ d.on F.FLT_CTRL.LOCK = false) ∨ who = .computus →
    sourceKnown src = true → d.coll.ready = true →
    Completes (.inject who src t) d (fun e =>
      e.coll.pending = setBit512 d.coll.pending src ∧
      (d.coll.first = none → (e.coll.first.map FirstRec.ev) = some ⟨src, 0x80FF, 0, 7, t⟩) ∧ sameMemory d e ∧ e.mods = d.mods)) ∧
  (∀ (d : Dev) (t : Nat), d.awake → d.on F.FLT_PIN.ERR_IN = false → d.on F.FLT_PIN.ERR_IN_EN = true → d.coll.ready = true →
    Completes (.errInEdge t) d (fun e =>
      e.coll.pending = setBit512 d.coll.pending 0x1F8 ∧
      (d.coll.first = none → (e.coll.first.map FirstRec.ev) = some ⟨0x1F8, 0x80A0, 0, 6, t⟩) ∧ sameMemory d e)) ∧
  (∀ (d : Dev) (t : Nat), d.awake →
    Completes (.errInRise t) d (fun e => e.on F.FLT_PIN.ERR_IN = false ∧ e.f F.FLT_PIN.ERR_IN_EN = d.f F.FLT_PIN.ERR_IN_EN ∧
      sameRegsBut [R.FLT_PIN] d e ∧ e.coll = d.coll ∧ sameMemory d e)) ∧
  (∀ (d : Dev) (r : FirstRec), d.awake → d.coll.first = some r →
    Does (.firstRecordSnapshot .pf) d
      (Dev.ret { d with coll := { d.coll with snapPf := some ⟨some r, d.coll.mergeCnt, d.coll.merged⟩ } } (leBytes 4 (r.ev.addr % 2 ^ 32)))) ∧
  (∀ (d : Dev) (r : FirstRec), d.awake → d.coll.first = some r →
    Does (.firstRecordSnapshot .computus) d
      (Dev.ret { d with coll := { d.coll with snapC := some ⟨some r, d.coll.mergeCnt, d.coll.merged⟩ } } (leBytes 4 (r.ev.addr % 2 ^ 32)))) ∧
  (∀ (d : Dev) (unit id : Nat) (r : Run), d.awake → unit ∈ d.coll.blockResets → mfind d.runs id = some r → r.phase = .blockReset unit →
    Completes (.blockResetComplete unit) d (fun e =>
      unit ∉ e.coll.blockResets ∧ mfind e.runs id = some { r with phase := .cand } ∧ sameMemory d e ∧ e.ctxs = d.ctxs ∧ e.regs = d.regs))

/-- SAFE_STATE_ENTRY takes the oldest NMI. Under MODE 0 the partitions of its scope are held in safe state B; the ERR latch of its source
sets, and SAF_SAFE_LAST and SAF_SAFE_TS record source, master ID, kind 1 and time (R379, R380, R382). Under MODE 1, with the restart limit
not reached, it starts a warm reset that keeps HBM, a new one where one is in progress, counts the entry and arms the restart manifest,
whether it is the first entry of a window, a later one within the window, or one after its end (R379, R385, R389); with the limit reached
within the window every partition is held in safe state B and A_EXHAUSTED sets (R380). Choices of the model in it: log entries 122, 124,
125, 126. -/
def Obligations.SafeStatesHoldAndRestart : Prop :=
  (∀ (d : Dev) (ev : FaultEv) (scope : Nat) (rest : List (FaultEv × Nat)) (t : Nat), d.awake → d.rst.low ≠ 2 →
     d.coll.nmi = (ev, scope) :: rest → d.on F.SAF_SAFE_STAT.NO_COMPUTUS = false → d.f F.SAF_SAFE_CFG.MODE = 0 → ev.src < 512 →
     Completes (.safeStateEntry t) d (fun e =>
       e.f F.SAF_SAFE_STAT.B_PART = (BitVec.ofNat 16 scope ||| BitVec.ofNat 16 (d.f F.SAF_SAFE_STAT.B_PART)).toNat ∧
       e.coll.latch.getLsbD ev.src = true ∧ e.errOutLow = true ∧
       e.f F.SAF_SAFE_LAST.SOURCE = ev.src ∧ e.f F.SAF_SAFE_LAST.MASTER = ev.master % 65536 ∧ e.f F.SAF_SAFE_LAST.KIND = 1 ∧
       e.on F.SAF_SAFE_LAST.VALID = true ∧ e.f F.SAF_SAFE_TS.TS = Nat.max d.now t % 2 ^ 64 ∧ e.rst.warm = d.rst.warm ∧ e.fuses = d.fuses)) ∧
  (∀ (d : Dev) (ev : FaultEv) (scope : Nat) (rest : List (FaultEv × Nat)) (t : Nat), d.awake → d.rst.low ≠ 2 →
     d.coll.nmi = (ev, scope) :: rest → d.on F.SAF_SAFE_STAT.NO_COMPUTUS = false → d.on F.SAF_SAFE_STAT.A_EXHAUSTED = false →
     d.f F.SAF_SAFE_CFG.MODE = 1 → ev.src < 512 →
     let window := d.f F.SAF_SAFE_CFG.A_WINDOW_S * 1000000000
     let restarts := fun (count first : Nat) => Completes (.safeStateEntry t) d (fun e =>
       e.rst.warm = true ∧ e.rst.keepHbm = true ∧ e.f F.HIF_RST_CAUSE.CAUSE = 3 ∧ e.f F.SAF_SAFE_STAT.A_COUNT = count ∧
       e.safe.replayDue = true ∧ e.safe.aFirst = some first ∧ e.f F.SAF_SAFE_LAST.KIND = 2 ∧
       e.coll.latch.getLsbD ev.src = true ∧ e.runs = [] ∧ e.ctxs = [] ∧ e.fuses = d.fuses)
     let holds := Completes (.safeStateEntry t) d (fun e =>
       e.f F.SAF_SAFE_STAT.B_PART = 65535 ∧ e.on F.SAF_SAFE_STAT.A_EXHAUSTED = true ∧ e.f F.SAF_SAFE_LAST.KIND = 3 ∧
       e.coll.latch.getLsbD ev.src = true ∧ e.rst.warm = d.rst.warm)
     (d.safe.aFirst = none → d.f F.SAF_SAFE_STAT.A_COUNT < d.f F.SAF_SAFE_CFG.A_MAX →
       restarts (d.f F.SAF_SAFE_STAT.A_COUNT + 1) (Nat.max d.now t)) ∧
     (∀ a, d.safe.aFirst = some a → Nat.max d.now t < a + window → d.f F.SAF_SAFE_STAT.A_COUNT < d.f F.SAF_SAFE_CFG.A_MAX →
       restarts (d.f F.SAF_SAFE_STAT.A_COUNT + 1) a) ∧
     ((∀ a, d.safe.aFirst = some a → Nat.max d.now t < a + window) → d.f F.SAF_SAFE_CFG.A_MAX ≤ d.f F.SAF_SAFE_STAT.A_COUNT → holds) ∧
     (∀ a, d.safe.aFirst = some a → a + window ≤ Nat.max d.now t → 0 < d.f F.SAF_SAFE_CFG.A_MAX → restarts 1 (Nat.max d.now t)))

/-- SAFE_STATE_ENTRY, B_PART_CLEAR and A_WINDOW_EXPIRY complete on every block that is out of cold reset. With an NMI waiting, and outside
Keep, the entry is made and the NMI is taken (R380). A clear of B_PART bits waits for the next tick, and the bits still read 1 (R384); it
has no effect when no Computus pair is left (R388; the model's reading, log entry 126). The window of safe state A ends A_WINDOW_S after its
first entry, and A_COUNT is 0 (R385). Choices of the model in it: log entries 124, 126. -/
def Obligations.SafeStateClearsAndWindow : Prop :=
  (∀ (q : List Instr) (d : Dev) (t mask : Nat), d.awake →
    (∃ s, exec (.safeStateEntry t) ⟨q, d⟩ = .next s) ∧ (∃ s, exec (.bPartClear mask) ⟨q, d⟩ = .next s) ∧
    ∃ s, exec (.aWindowExpiry t) ⟨q, d⟩ = .next s) ∧
  (∀ (q : List Instr) (d : Dev) (ev : FaultEv) (scope : Nat) (rest : List (FaultEv × Nat)) (t : Nat), d.awake → d.rst.low ≠ 2 →
    d.coll.nmi = (ev, scope) :: rest →
    ∃ e : Dev, exec (.safeStateEntry t) ⟨q, d⟩ = .next ⟨q, e⟩ ∧ e.f F.SAF_SAFE_LAST.SOURCE = ev.src % 512 ∧
      e.f F.SAF_SAFE_LAST.KIND = ((d.at_ t).windowEnd t).safeKind scope ∧ e.on F.SAF_SAFE_LAST.VALID = true) ∧
  (∀ (q : List Instr) (d : Dev) (mask : Nat), d.awake →
    (d.on F.SAF_SAFE_STAT.NO_COMPUTUS = false → exec (.bPartClear mask) ⟨q, d⟩ = .next ⟨q, { d with
      safe := { d.safe with
        bClear := d.safe.bClear ||| (BitVec.ofNat 16 mask &&& BitVec.ofNat 16 (d.f F.SAF_SAFE_STAT.B_PART)) } }⟩) ∧
    (d.on F.SAF_SAFE_STAT.NO_COMPUTUS = true → exec (.bPartClear mask) ⟨q, d⟩ = .next ⟨q, d⟩)) ∧
  (∀ (q : List Instr) (d : Dev) (t a : Nat), d.awake → d.safe.aFirst = some a → a + d.f F.SAF_SAFE_CFG.A_WINDOW_S * 1000000000 ≤ t →
    ∃ e : Dev, exec (.aWindowExpiry t) ⟨q, d⟩ = .next ⟨q, e⟩ ∧
      e.f F.SAF_SAFE_STAT.A_COUNT = 0 ∧ e.safe.aFirst = none ∧ e.now = Nat.max d.now t ∧
      e.f F.SAF_SAFE_STAT.B_PART = d.f F.SAF_SAFE_STAT.B_PART ∧ sameRegsBut [R.SAF_SAFE_STAT] d e ∧ e.mem = d.mem ∧ e.coll = d.coll)

/-- An invariant that every step keeps: a window of safe state A runs exactly while SAF_SAFE_STAT counts an entry, so that the limit within
the window is read from A_COUNT (R380, R385); it holds at reset. -/
def Obligations.SafeStateAWindowCountsItsEntries : Prop :=
  (State.reset.dev.safe.aFirst = none ∧ State.reset.dev.f F.SAF_SAFE_STAT.A_COUNT = 0) ∧
  ∀ s t : State, (s.dev.safe.aFirst = none ↔ s.dev.f F.SAF_SAFE_STAT.A_COUNT = 0) → step s = .next t →
    (t.dev.safe.aFirst = none ↔ t.dev.f F.SAF_SAFE_STAT.A_COUNT = 0)

/-- A lockstep mismatch in the active pair hands control to the standby pair and raises its sources; with no standby pair every partition is
held in safe state B, NO_COMPUTUS sets, and no replay of the restart manifest goes on. One in the standby pair takes that pair out of
service, and the active pair goes on (R388; the last is the model's reading, log entry 129). The restart manifest: RESTART_REPLAY reads its
header once HBM is available again and starts at entry 0, or stops with the status of the header; MANIFEST_ENTRY executes an entry. A
REGISTER entry is a write by the physical function and a CREATE entry creates its context; a bad entry stops the replay, with INDEX and
STATUS naming it and FAILED set (R386), and so does one in a poisoned granule, with a status that the spec does not name (log entry 128).
Choices of the model in it: log entries 125, 127, 128, 129. -/
def Obligations.LockstepAndRestartManifest : Prop :=
  ((∀ (d : Dev) (t : Nat), d.awake → d.on F.SAF_SAFE_STAT.NO_COMPUTUS = false → d.safe.standby = true → d.safe.pair < 2 →
     Completes (.lockstepMismatch d.safe.pair t) d (fun e => e.safe.pair = 1 - d.safe.pair ∧ e.safe.standby = false ∧
       e.on F.SAF_SAFE_STAT.NO_COMPUTUS = false ∧ e.f F.SAF_SAFE_STAT.B_PART = d.f F.SAF_SAFE_STAT.B_PART ∧
       (d.coll.ready = true → e.coll.pending.getLsbD 0x1F0 = true ∧ e.coll.pending.getLsbD 0x1F1 = true) ∧ e.fuses = d.fuses)) ∧
   (∀ (d : Dev) (t : Nat), d.awake → d.on F.SAF_SAFE_STAT.NO_COMPUTUS = false → d.safe.standby = false → d.safe.pair < 2 →
     Completes (.lockstepMismatch d.safe.pair t) d (fun e => e.on F.SAF_SAFE_STAT.NO_COMPUTUS = true ∧ e.f F.SAF_SAFE_STAT.B_PART = 65535 ∧
       e.coll.latch.getLsbD 0x1F0 = true ∧ e.safe.replay = none ∧ e.safe.replayDue = false ∧ e.fuses = d.fuses)) ∧
   (∀ (d : Dev) (pair t : Nat), d.awake → d.on F.SAF_SAFE_STAT.NO_COMPUTUS = false → d.safe.standby = true → pair < 2 → pair ≠ d.safe.pair →
     Completes (.lockstepMismatch pair t) d (fun e => e.safe.pair = d.safe.pair ∧ e.safe.standby = false ∧
       e.on F.SAF_SAFE_STAT.NO_COMPUTUS = false ∧ e.f F.SAF_SAFE_STAT.B_PART = d.f F.SAF_SAFE_STAT.B_PART ∧ e.safe.replay = d.safe.replay ∧
       (d.coll.ready = true → e.coll.pending.getLsbD 0x1F0 = true) ∧ e.fuses = d.fuses))) ∧
  ((∀ d : Dev, d.awake → d.safe.replayDue = true → d.canReplay = true → d.sec.overLink = false →
     d.f F.SAF_RESTART_ADDR.ADDR ≠ 0 → d.inHbm (d.f F.SAF_RESTART_ADDR.ADDR) 64 = true →
     d.poisonIn (d.f F.SAF_RESTART_ADDR.ADDR) 64 = [] → d.manifestStatus (d.f F.SAF_RESTART_ADDR.ADDR) = stOk →
     Completes (.restartReplay []) d (fun e => e.safe.replay = some 0 ∧ e.safe.replayDue = false ∧ e.on F.SAF_RESTART_STAT.DONE = false ∧
       e.on F.SAF_RESTART_STAT.FAILED = d.on F.SAF_RESTART_STAT.FAILED ∧ e.mem = d.mem ∧ sameRegsBut [R.SAF_RESTART_STAT] d e)) ∧
   (∀ d : Dev, d.awake → d.safe.replayDue = true → d.canReplay = true → d.sec.overLink = false →
     d.f F.SAF_RESTART_ADDR.ADDR ≠ 0 → d.inHbm (d.f F.SAF_RESTART_ADDR.ADDR) 64 = true →
     d.poisonIn (d.f F.SAF_RESTART_ADDR.ADDR) 64 = [] → bfield (d.rdHbm (d.f F.SAF_RESTART_ADDR.ADDR) 64) 0 2 = 0 →
     zeroBytes (d.rdHbm (d.f F.SAF_RESTART_ADDR.ADDR) 64) 2 64 = true →
     Completes (.restartReplay []) d (fun e => e.safe.replay = none ∧ e.f F.SAF_RESTART_STAT.STATUS = stZero ∧ e.f F.SAF_RESTART_STAT.INDEX = 0 ∧
       e.on F.SAF_RESTART_STAT.FAILED = true ∧ e.mem = d.mem)) ∧
   (∀ (d : Dev) (i : Nat) (b : List Nat), d.awake → d.safe.replay = some i → d.safe.replayWait = false → d.canReplay = true →
     d.poisonIn (d.f F.SAF_RESTART_ADDR.ADDR + 64 + 128 * i) 128 = [] → d.rdHbm (d.f F.SAF_RESTART_ADDR.ADDR + 64 + 128 * i) 128 = b →
     (itemStatus b ≠ stOk → Does (.manifestEntry []) d (d.replayFail i (itemStatus b))) ∧
     (itemStatus b = stOk → b.getD 0 0 = 1 →
       let r := d.createCtx (ckey (b.getD 1 0) (bfield b 2 2)) ((b.drop 64).take 64)
       Does (.manifestEntry []) d (r.1.replayEnd i (bfield (d.rdHbm (d.f F.SAF_RESTART_ADDR.ADDR) 2) 0 2) r.2)) ∧
     (itemStatus b = stOk → b.getD 0 0 = 3 → b.getD 80 0 = 4 ∨ b.getD 80 0 = 8 → bfield b 64 8 ≠ R.SCH_ORDO_CTRL →
       Does (.manifestEntry []) d ((d.regWrite .pf (bfield b 64 8) (b.getD 80 0) (bfield b 72 8)).replayOk i
         (bfield (d.rdHbm (d.f F.SAF_RESTART_ADDR.ADDR) 2) 0 2)))) ∧
   (∀ (d : Dev) (i : Nat) (mem : List MemErr), d.awake →
     (d.safe.replayDue = true → d.canReplay = true → d.sec.overLink = false → d.f F.SAF_RESTART_ADDR.ADDR ≠ 0 →
       d.inHbm (d.f F.SAF_RESTART_ADDR.ADDR) 64 = true →
       Does (.restartReplay mem) d ((Dev.set { d with safe := { d.safe with replayDue := false } } F.SAF_RESTART_STAT.DONE 0).met accFetch
         [(d.f F.SAF_RESTART_ADDR.ADDR, 64)] mem (fun x => x.replayHead (d.f F.SAF_RESTART_ADDR.ADDR)))) ∧
     (d.safe.replay = some i → d.safe.replayWait = false → d.canReplay = true →
       let a := d.f F.SAF_RESTART_ADDR.ADDR + 64 + 128 * i
       Does (.manifestEntry mem) d (d.met accFetch [(a, 128)] mem (fun x =>
         x.replayRun i (bfield (d.rdHbm (d.f F.SAF_RESTART_ADDR.ADDR) 2) 0 2) a mem)))) ∧
   (∀ (d : Dev) (i g : Nat) (l : List Nat), d.awake → d.safe.replay = some i → d.safe.replayWait = false → d.canReplay = true →
     d.poisonIn (d.f F.SAF_RESTART_ADDR.ADDR + 64 + 128 * i) 128 = g :: l →
     Does (.manifestEntry []) d ((d.hbmUeAt g accFetch).take.replayFail i (d.hbmUeAt g accFetch).take.someStatus)) ∧
   (∀ (d : Dev) (i st : Nat), i < 4096 → st < 256 →
     (d.replayFail i st).f F.SAF_RESTART_STAT.INDEX = i ∧ (d.replayFail i st).f F.SAF_RESTART_STAT.STATUS = st ∧
     (d.replayFail i st).on F.SAF_RESTART_STAT.FAILED = true ∧ (d.replayFail i st).safe.replay = none))

/-- A low level of PORST_N under 100 ns is ignored; one of 10 µs or more holds the block, with the collector not ready, so that ERR_OUT_N is
low and every signal has its level of Table 1, TDO and the management port being high impedance among them (R372, R519, R524). MASK_ROM_BOOT
after a cold reset: with BOOTSEL 1 the part is in boot-over-link with the collector not started; with BOOTSEL 0 and the image it was
delivered with, the firmware runs and the collector is ready, unless fuses ask for a security version or an integrator signature, which that
image does not have (log entry 167): then the part is in boot-over-link too. In each case the block is out of reset with every command,
context, module and status of before gone, HBM not yet available, the fuses as they were, and the regulators that answered as the telemetry
set (R486, R497, R503, R523). A warm reset begins by a write of WARM, 20 µs after a CHIP_RESET reaction, or as the part leaves Keep by WAKE
or at its wake time; its cause is 1, 2 or 4, and only the first two keep HBM, if WARM_KEEP is set (R369, R500, R507). WARM_RESET_RESTART
ends a warm reset: with a running area that matches SEC_RUN_DIGEST the firmware runs again, else the part is in boot-over-link; SAF_WARM
returns to 0 (R381, R487), and engines and prep cores enter service, which counts for their rotation (R395). HBM_AVAILABLE then serves HBM,
which reads zero without poison unless it was kept (R503); a SWITCH that waited for it is no longer waiting. Choices of the model in it: log
entries 7, 9, 38, 80, 163, 165, 166, 167, 197. -/
def Obligations.ColdAndWarmResets : Prop :=
  ((∀ (d : Dev) (ns : Nat), ns < 100 → Does (.porstNAssert ns) d d) ∧
   (∀ (d : Dev) (ns : Nat), 10000 ≤ ns →
     Does (.porstNAssert ns) d { d with rst := { d.rst with held := true }, coll := { d.coll with ready := false } }) ∧
   (∀ (d : Dev) (ns : Nat), 10000 ≤ ns → Completes (.porstNAssert ns) d (fun e => ¬ e.awake ∧ e.errOutLow = true ∧
     (∀ s, e.level s = some s.coldLevel) ∧ e.level .tdo = some .highZ ∧ e.level .mgmt = some .highZ ∧ e.level .errOutN = some .low))) ∧
  ((∀ (d : Dev) (bootsel mgmt : Nat) (refclk : Bool) (devs : List Nat), d.rst.held = true → bootsel = 0 ∨ bootsel = 1 →
     d.sec.flash = none → (∀ i ∈ devs, i < 8) →
     Completes (.maskRomBoot bootsel mgmt refclk devs) d (fun e =>
       let delivered := decide (bootsel = 0) && !(d.needInt || decide (0 < d.fuses.svn))
       e.awake ∧ e.pwr.telemetry = some devs ∧ e.rst.refclk = refclk ∧ e.rst.hbmReady = false ∧ e.rst.linkUp = false ∧ e.rst.bootsel = bootsel ∧
       e.coll.ready = delivered ∧ e.sec.overLink = !delivered ∧
       e.coll.pending = 0 ∧ e.coll.severe = 0 ∧ e.coll.latch = 0 ∧ e.coll.first = none ∧
       e.ctxs = [] ∧ e.runs = [] ∧ e.mods = [] ∧ e.flags = [] ∧ e.fuses = d.fuses)) ∧
   (∀ d : Dev, d.awake → Does .refclkDetect d { d with rst := { d.rst with refclk := true } })) ∧
  ((∀ d : Dev, d.awake → d.rst.warm = false → d.rst.low ≠ 2 →
     Completes .warm d (WarmBegun 1 (d.on F.SAF_WARM.WARM_KEEP) d)) ∧
   (∀ (d : Dev) (t due : Nat), d.awake → d.rst.warm = false → d.rst.low ≠ 2 → d.rst.chipAt = some due → due ≤ t →
     Completes (.chipResetStart t) d (WarmBegun 2 (d.on F.SAF_WARM.WARM_KEEP) d)) ∧
   (∀ d : Dev, d.awake → d.rst.warm = false → d.rst.low = 2 → Completes (.wake .mgmt []) d (WarmBegun 4 false d)) ∧
   (∀ (d : Dev) (t : Nat), d.awake → d.rst.warm = false → d.rst.low = 2 → d.f F.PWR_LP_WAKE.TIME ≠ 0 → d.f F.PWR_LP_WAKE.TIME ≤ t →
     Completes (.keepWakeTime t) d (WarmBegun 4 false d))) ∧
  ((∀ d : Dev, d.awake → d.rst.warm = true → d.runIntact = true →
     Completes .warmResetRestart d (fun e => e.rst.warm = false ∧ e.rst.hbmReady = d.rst.hbmReady ∧ e.on F.SAF_WARM.WARM_KEEP = false ∧
       e.sec = d.sec ∧ e.mem = d.mem ∧ e.safe = d.safe ∧ e.frame = d.frame ∧ e.fuses = d.fuses ∧
       e.leap.clus.map Clu.le = d.leap.clus.map Clu.le ∧ (∀ c ∈ e.leap.clus, c.engPrev = d.now ∧ c.pcPrev = d.now))) ∧
   (∀ (d : Dev) (b : List Nat), d.awake → d.rst.warm = true → d.sec.running = some b → sha256 b ≠ d.runDigest →
     Completes .warmResetRestart d (fun e => e.rst.warm = false ∧ e.sec.overLink = true ∧ e.coll.ready = false ∧ e.fuses = d.fuses)) ∧
   (∀ d : Dev, d.awake → d.rst.hbmReady = false → d.rst.low = 0 → d.frame.switchWait = false → d.rst.keepHbm = true →
     Does (.hbmAvailable []) d { d with rst := { d.rst with hbmReady := true } }) ∧
   (∀ d : Dev, d.awake → d.rst.hbmReady = false → d.rst.low = 0 → d.frame.switchWait = false → d.rst.keepHbm = false →
     Completes (.hbmAvailable []) d (fun e => e.rst.hbmReady = true ∧ (∀ a, e.mem.hbm.read a = 0) ∧ e.mem.poison = [] ∧
       e.mem.host = d.mem.host ∧ e.ctxs = d.ctxs ∧ e.coll = d.coll)) ∧
   (∀ d : Dev, d.awake → d.rst.hbmReady = false → d.rst.low = 0 → d.frame.switchWait = true →
     Completes (.hbmAvailable []) d (fun e => e.rst.hbmReady = true ∧ e.frame.switchWait = false)))

/-- A request for Doze or Keep is refused with REFUSED set while a bank holds a variant, a command is dispatched, a replay session is BUSY,
a low-power state is in force or a reset in progress, and otherwise starts the entry (R501, R506). The end of the entry to Doze leaves STATE
1 and no frame and no sweep in progress; that to Keep ends every context, command and module and takes the link and HBM out of use. WAKE
ends Doze: STATE and THERMAL are 0 (R507); after a Doze that R478 entered it is refused while a junction sensor reads at or above WARN_J
(R506). A link reset takes the link down, and every context that no bank pins goes, and with the contexts the configuration of every
function (R504); a reset of function f returns its HIF_FN registers to their reset values, ends its contexts that no bank pins, and leaves
the flags and the link as they were (R505); one requested while a link reset waits for a commit joins it and does nothing of its own (R501).
A junction at 125 °C starts the entry to Doze with THERMAL set, unless its source is set to react with a chip reset, which abandons the
entry (R369, R478, R501, R506), and the compute dies are off at once. The loss of a die takes all of it out of service and raises DIE_LOST
(R33). Choices of the model in it: log entries 36, 39, 81, 82, 156, 162, 164, 184. -/
def Obligations.LowPowerResetsAndLosses : Prop :=
  ((∀ d : Dev, d.awake → d.lpRefused = true → Does .doze d (d.set F.PWR_LP_CTRL.REFUSED 1) ∧ Does .keep d (d.set F.PWR_LP_CTRL.REFUSED 1)) ∧
   (∀ d : Dev, d.awake → d.lpRefused = false →
     Does .doze d (Dev.set { d with rst := { d.rst with entering := 1 } } F.PWR_LP_CTRL.STATE 2) ∧
     Does .keep d (Dev.set { d with rst := { d.rst with entering := 2 } } F.PWR_LP_CTRL.STATE 2)) ∧
   (∀ d : Dev, d.awake → d.rst.entering = 1 →
     Completes .lowPowerEntered d (fun e => e.rst.low = 1 ∧ e.rst.entering = 0 ∧ e.f F.PWR_LP_CTRL.STATE = 1 ∧ e.mem.hbm = d.mem.hbm ∧
       (∀ p ∈ e.lam, p.2.frame = none ∧ p.2.sweep = none) ∧ e.frame = d.frame ∧ e.coll = d.coll ∧ e.ctxs = d.ctxs)) ∧
   (∀ d : Dev, d.awake → d.rst.entering = 2 →
     Completes .lowPowerEntered d (fun e => e.rst.low = 2 ∧ e.rst.linkUp = false ∧ e.rst.hbmReady = false ∧ e.ctxs = [] ∧ e.runs = [] ∧
       e.mods = [] ∧ e.f F.PWR_LP_WAKE.TIME = d.f F.PWR_LP_WAKE.TIME ∧ e.fuses = d.fuses))) ∧
  ((∀ (d : Dev) (who : Who), d.awake → d.rst.low = 1 → d.mayWake who = true → d.on F.PWR_LP_CTRL.THERMAL = false →
     Completes (.wake who []) d (fun e => e.rst.low = 0 ∧ e.f F.PWR_LP_CTRL.STATE = 0 ∧ e.on F.PWR_LP_CTRL.THERMAL = false ∧ e.flags = d.flags ∧
       e.fuses = d.fuses)) ∧
   (∀ (d : Dev) (who : Who) (x : Int), d.awake → d.rst.low = 1 → d.mayWake who = true → d.on F.PWR_LP_CTRL.THERMAL = true →
     x ∈ d.hereJ d.pwr.junction → d.warnJ ≤ x →
     Does (.wake who []) d (d.set F.PWR_LP_CTRL.REFUSED 1))) ∧
  ((∀ d : Dev, d.awake → d.rst.warm = false → d.rst.low ≠ 2 →
     Completes .linkReset d (fun e => e.rst.linkUp = false ∧ (∀ key, d.pinned key = false → e.ctx key = none) ∧ e.flags = d.flags ∧
       (∀ fn, e.cfgOf fn = cfgInit) ∧ e.alm = d.alm ∧ e.fuses = d.fuses)) ∧
   (∀ (d : Dev) (fn : Nat), d.awake → d.rst.warm = false → d.rst.low ≠ 2 → d.linkResetting = false → fn < 16 →
     Completes (.functionReset fn) d (fun e => (∀ ctx, ctx < 4096 → d.pinned (ckey fn ctx) = false → e.ctx (ckey fn ctx) = none) ∧
       e.flags = d.flags ∧ e.rst.linkUp = d.rst.linkUp ∧ e.fuses = d.fuses ∧
       (∀ o, fnReg fn o = true → e.reg o = e.rst0 o) ∧ e.cfgOf fn = cfgInit)) ∧
   (∀ (d : Dev) (fn : Nat), d.awake → d.linkResetting = true → Does (.functionReset fn) d d)) ∧
  ((∀ (d : Dev) (t : Nat), d.awake → d.rst.warm = false → d.rst.low = 0 → d.rst.entering = 0 →
     maskHas (d.coll.src 0x1E4).minor 3 = false → maskHas (d.coll.src 0x1E4).severe 3 = false →
     Completes (.thermalShutdown t) d (fun e => e.rst.entering = 1 ∧ e.f F.PWR_LP_CTRL.STATE = 2 ∧ e.on F.PWR_LP_CTRL.THERMAL = true ∧
       e.diesOn = false ∧ e.fuses = d.fuses ∧ (d.coll.ready = true → e.coll.pending.getLsbD 0x1E4 = true))) ∧
   (∀ (d : Dev) (die t : Nat), d.awake → die < 2 → 3 * die < d.nReg → die ∉ d.leap.dieLost →
     Completes (.dieLost die t) d (fun e => die ∈ e.leap.dieLost ∧ (∀ k, k / 12 = die → e.cluOut k = true) ∧
       (∀ r, r / 3 = die → e.regOut r = true) ∧ e.fuses = d.fuses ∧ (d.coll.ready = true → e.coll.pending.getLsbD 0x085 = true))))

/-- CREATE makes the context that a set-up block in order describes and reports OK, or leaves the contexts as they were and reports the
status of the block's first failing check, or CONTEXT_EXHAUSTED where no resident context can make room (R108); BUSY is 0 and OP_DONE sets
either way (R103, R106). A context that a reset left without rings is made anew (R504). The checks of a set-up block and the status of the
first that fails, in this order: reserved bytes, a size of 0, a size or vector beyond its range or a context in use, a ring that is not 4
KiB aligned (R106, R114). -/
def Obligations.CreateChecksAndMakesAContext : Prop :=
  ((∀ (d : Dev) (fn ctx : Nat), d.awake → fn < 16 → ctx < 4096 → d.rst.warm = false → d.sec.overLink = false →
     d.on (F.HIF_FN_CTX_CMD.BUSY fn) = false → d.ctx (ckey fn ctx) = none → d.residents < 4096 →
     setupStatus (d.rdHost (d.f (F.HIF_FN_CTX_ADDR.ADDR fn)) 64) false = stOk →
     Completes (.create fn ctx) d (fun e =>
       e.ctx (ckey fn ctx) = some (ctxOf (d.rdHost (d.f (F.HIF_FN_CTX_ADDR.ADDR fn)) 64) d.now) ∧
       (∀ k, k ≠ ckey fn ctx → e.ctx k = d.ctx k) ∧
       e.f (F.HIF_FN_CTX_CMD.STATUS fn) = stOk ∧ e.on (F.HIF_FN_CTX_CMD.BUSY fn) = false ∧ e.on (F.HIF_FN_EVENT.OP_DONE fn) = true ∧
       e.mem = d.mem ∧ e.runs = d.runs)) ∧
   (∀ (d : Dev) (fn ctx : Nat) (c : Ctx), d.awake → fn < 16 → ctx < 4096 → d.rst.warm = false → d.sec.overLink = false →
     d.on (F.HIF_FN_CTX_CMD.BUSY fn) = false → d.ctx (ckey fn ctx) = some c → c.attached = false → c.resident = true →
     setupStatus (d.rdHost (d.f (F.HIF_FN_CTX_ADDR.ADDR fn)) 64) false = stOk →
     Completes (.create fn ctx) d (fun e =>
       e.ctx (ckey fn ctx) = some (ctxOf (d.rdHost (d.f (F.HIF_FN_CTX_ADDR.ADDR fn)) 64) d.now) ∧
       e.f (F.HIF_FN_CTX_CMD.STATUS fn) = stOk ∧ e.on (F.HIF_FN_EVENT.OP_DONE fn) = true)) ∧
   (∀ (d : Dev) (fn ctx : Nat), d.awake → fn < 16 → ctx < 4096 → d.rst.warm = false → d.sec.overLink = false →
     d.on (F.HIF_FN_CTX_CMD.BUSY fn) = false → d.ctx (ckey fn ctx) = none →
     setupStatus (d.rdHost (d.f (F.HIF_FN_CTX_ADDR.ADDR fn)) 64) false ≠ stOk →
     Completes (.create fn ctx) d (fun e => e.ctxs = d.ctxs ∧
       e.f (F.HIF_FN_CTX_CMD.STATUS fn) = setupStatus (d.rdHost (d.f (F.HIF_FN_CTX_ADDR.ADDR fn)) 64) false ∧
       e.on (F.HIF_FN_CTX_CMD.BUSY fn) = false ∧ e.on (F.HIF_FN_EVENT.OP_DONE fn) = true ∧ e.mem = d.mem)) ∧
   (∀ (d : Dev) (fn ctx : Nat), d.awake → fn < 16 → ctx < 4096 → d.rst.warm = false → d.sec.overLink = false →
     d.on (F.HIF_FN_CTX_CMD.BUSY fn) = false → d.ctx (ckey fn ctx) = none → d.makeRoom = none →
     setupStatus (d.rdHost (d.f (F.HIF_FN_CTX_ADDR.ADDR fn)) 64) false = stOk →
     Completes (.create fn ctx) d (fun e => e.ctxs = d.ctxs ∧ e.f (F.HIF_FN_CTX_CMD.STATUS fn) = stCtxExhausted ∧
       e.on (F.HIF_FN_CTX_CMD.BUSY fn) = false ∧ e.on (F.HIF_FN_EVENT.OP_DONE fn) = true ∧ e.mem = d.mem))) ∧
  (∀ (b : List Nat) (inUse : Bool), b.length = 64 →
     let clean := b.getD 21 0 < 4 ∧ zeroBytes b 22 64 = true
     let sized := b.getD 16 0 ≠ 0 ∧ b.getD 17 0 ≠ 0
     let bound := b.getD 16 0 ≤ 16 ∧ b.getD 17 0 ≤ 16 ∧ b.getD 18 0 ≤ 127 ∧ inUse = false
     let aligned := bfield b 0 8 % 4096 = 0 ∧ bfield b 8 8 % 4096 = 0
     (setupStatus b inUse = stReserved ↔ ¬ clean) ∧
     (setupStatus b inUse = stZero ↔ clean ∧ ¬ sized) ∧
     (setupStatus b inUse = stBounds ↔ clean ∧ sized ∧ ¬ bound) ∧
     (setupStatus b inUse = stAlign ↔ clean ∧ sized ∧ bound ∧ ¬ aligned) ∧
     (setupStatus b inUse = stOk ↔ clean ∧ sized ∧ bound ∧ aligned))

/-- DESTROY of a context that runs nothing and that no bank pins frees its number; ABORT of a context whose descriptors have all been
fetched and completed leaves it in place; both report OK with OP_DONE (R107). Doorbells (R109, R111): on a resident context SQ_TAIL moves
the tail and CQ_HEAD frees the records before its value; in a low-power state the write is held, and HELD_DOORBELL_RESUME acts on it later,
for a context that was swapped out at a tick; a write beyond the ring is refused with DB_ERR and HIF_DB_ERR. Choices of the model in it: log
entries 74, 75, 76. -/
def Obligations.DestroyAbortAndDoorbells : Prop :=
  ((∀ (d : Dev) (fn ctx : Nat) (c : Ctx), d.awake → fn < 16 → ctx < 4096 → d.rst.warm = false → d.sec.overLink = false →
     d.on (F.HIF_FN_CTX_CMD.BUSY fn) = false → d.ctx (ckey fn ctx) = some c → c.cmds = [] → d.pinned (ckey fn ctx) = false →
     Completes (.destroy fn ctx) d (fun e => e.ctx (ckey fn ctx) = none ∧ e.f (F.HIF_FN_CTX_CMD.STATUS fn) = stOk ∧
       e.on (F.HIF_FN_CTX_CMD.BUSY fn) = false ∧ e.on (F.HIF_FN_EVENT.OP_DONE fn) = true ∧ (∀ k, k ≠ ckey fn ctx → e.ctx k = d.ctx k) ∧ e.mem = d.mem ∧ e.runs = d.runs)) ∧
   (∀ (d : Dev) (fn ctx : Nat) (c : Ctx), d.awake → fn < 16 → ctx < 4096 → d.rst.warm = false → d.sec.overLink = false →
     d.on (F.HIF_FN_CTX_CMD.BUSY fn) = false → d.ctx (ckey fn ctx) = some c → c.cmds = [] → c.heldTail = none → c.fetch = c.tail →
     Completes (.abort fn ctx) d (fun e => e.ctx (ckey fn ctx) = some { c with ending := none } ∧
       e.f (F.HIF_FN_CTX_CMD.STATUS fn) = stOk ∧ e.on (F.HIF_FN_CTX_CMD.BUSY fn) = false ∧
       e.on (F.HIF_FN_EVENT.OP_DONE fn) = true ∧ (∀ k, k ≠ ckey fn ctx → e.ctx k = d.ctx k) ∧ e.mem = d.mem ∧ e.runs = d.runs))) ∧
  ((∀ (d : Dev) (fn page value : Nat) (c : Ctx) (mem : List MemErr), d.awake → d.bar4 fn = true → d.ctx (ckey fn page) = some c → c.attached = true → c.resident = true →
     c.ending = none → d.rst.low = 0 → value < 65536 → value < 2 ^ c.sqLog2 →
     Completes (.sqTail fn page 0 4 value mem) d (fun e => ∃ c', e.ctx (ckey fn page) = some c' ∧ c'.tail = value ∧ c'.heldTail = none ∧
       c'.sqBase = c.sqBase ∧ c'.fetch = c.fetch)) ∧
   (∀ (d : Dev) (fn page value : Nat) (c : Ctx) (mem : List MemErr), d.awake → d.bar4 fn = true → d.ctx (ckey fn page) = some c → c.attached = true → c.resident = true →
     c.ending = none → c.cmds = [] → c.heldTail = none → c.heldHead = none → d.rst.low = 0 → value < 65536 → value < c.size →
     (value + c.size - c.cqHead) % c.size ≤ c.unread →
     Completes (.cqHead fn page 8 4 value mem) d (fun e =>
       e.ctx (ckey fn page) = some { c with cqHead := value, unread := (c.written + c.size - value) % c.size } ∧ e.mem = d.mem ∧ e.regs = d.regs)) ∧
   (∀ (d : Dev) (fn page value : Nat) (c : Ctx) (mem : List MemErr), d.awake → d.bar4 fn = true → d.ctx (ckey fn page) = some c → c.attached = true →
     d.rst.low = 1 → value < 65536 → value < 2 ^ c.sqLog2 →
     Does (.sqTail fn page 0 4 value mem) d (d.modCtx (ckey fn page) (fun c => { c with heldTail := some value }))) ∧
   (∀ (d : Dev) (fn ctx v : Nat) (c : Ctx) (mem : List MemErr), d.awake → d.ctx (ckey fn ctx) = some c → c.resident = true → c.ending = none → c.cmds = [] →
     c.heldTail = some v → c.heldHead = none → d.rst.low = 0 →
     Completes (.heldDoorbellResume fn ctx mem) d (fun e => e.ctx (ckey fn ctx) = some { c with tail := v, heldTail := none } ∧ e.mem = d.mem ∧
       e.regs = d.regs)) ∧
   (∀ (d : Dev) (fn ctx v : Nat) (c : Ctx) (mem : List MemErr), d.awake → d.ctx (ckey fn ctx) = some c → c.resident = false →
     (d.atTick = false → Does (.heldDoorbellResume fn ctx mem) d d) ∧
     (d.atTick = true → c.ending = none → c.cmds = [] → c.heldTail = some v → c.heldHead = none → d.rst.low = 0 → d.residents < 4096 →
       d.mem.poison.contains (d.swapAddr (ckey fn ctx)) = false →
       Completes (.heldDoorbellResume fn ctx []) d (fun e =>
         e.ctx (ckey fn ctx) = some { c with tail := v, heldTail := none, resident := true, sliceUsed := 0 }))) ∧
   (∀ (d : Dev) (fn page off width value : Nat) (c : Ctx) (mem : List MemErr), d.awake → d.bar4 fn = true → d.ctx (ckey fn page) = some c →
     width ≠ 4 ∨ 2 ^ c.sqLog2 ≤ value → Does (.sqTail fn page off width value mem) d (d.dbErr fn page)) ∧
   (∀ (d : Dev) (fn page off width value : Nat) (c : Ctx) (mem : List MemErr), d.awake → d.bar4 fn = true → d.ctx (ckey fn page) = some c →
     width ≠ 4 ∨ c.size ≤ value → Does (.cqHead fn page off width value mem) d (d.dbErr fn page)))

/-- DESCRIPTOR_FETCH takes the next descriptor of a resident context whose completion ring has two free records, checks it, and appends it
to the commands of the context, in ring order (R113, R114). NOP completes with an OK record of the descriptor's tag and ring index, written
to host memory at its place in the completion ring, and does nothing else (R113, R117). -/
def Obligations.DescriptorsAndCompletionRecords : Prop :=
  (∀ (d : Dev) (fn ctx : Nat) (c : Ctx), d.awake → d.ctx (ckey fn ctx) = some c → c.resident = true → c.attached = true → c.ending = none →
     d.rst.low = 0 → d.rst.warm = false → d.rst.linkUp = true → c.fetch ≠ c.tail → c.fetch < 65536 → 2 ≤ c.freeRecs → c.cmds = [] →
     let b := d.rdHost (c.sqBase + 64 * c.fetch) 64
     (d.validate (ckey fn ctx / 4096) b = stOk →
       Completes (.descriptorFetch fn ctx) d (fun e =>
         e.ctx (ckey fn ctx) = some { c with
           cmds := [⟨c.fetch, b, .fetched, d.partRange (ckey fn ctx / 4096)⟩], fetch := (c.fetch + 1) % 2 ^ c.sqLog2, lastFetch := d.now } ∧
         e.mem = d.mem ∧ e.runs = d.runs ∧ e.regs = d.regs)) ∧
     (d.validate (ckey fn ctx / 4096) b ≠ stOk →
       Completes (.descriptorFetch fn ctx) d (fun e => ∃ c', e.ctx (ckey fn ctx) = some c' ∧ c'.cmds = [] ∧
         c'.fetch = (c.fetch + 1) % 2 ^ c.sqLog2 ∧ c'.written = c.written + 1 ∧ e.runs = d.runs ∧ e.mem.hbm = d.mem.hbm))) ∧
  (∀ (d : Dev) (fn ctx : Nat) (c : Ctx) (k : RingCmd), d.awake → d.ctx (ckey fn ctx) = some c → c.attached = true → c.resident = true →
     c.ending = none → c.cmds = [k] →
     k.idx < 65536 → k.st = .fetched → k.bytes.getD 0 0 = 0 → maskHas (k.bytes.getD 1 0) 1 = false → d.rst.linkUp = true →
     Completes (.ringNop fn ctx) d (fun e =>
       e.mem.host = d.mem.host.writeBytes (c.cqBase + 32 * (c.written % c.size))
         (d.recBytes ⟨0, bfield k.bytes 8 8, k.idx, stOk, 0, 0, 0, maskHas (k.bytes.getD 1 0) 0⟩ (c.written / c.size % 2 == 0)) ∧
       (∃ c', e.ctx (ckey fn ctx) = some c' ∧ c'.cmds = [] ∧ c'.written = c.written + 1 ∧ c'.unread = c.unread + 1) ∧
       e.mem.hbm = d.mem.hbm ∧ e.runs = d.runs ∧ e.regs = d.regs ∧ e.flags = d.flags))

/-- RUN becomes a candidate for dispatch (R114, R313); COPY starts, and moves its bytes when it ends (R115), after a warm reset once HBM is
available (R503); SIGNAL adds to its flag (R235); WAIT completes at once when its flag has reached VALUE, waits otherwise, and completes on
the flag or at its deadline (R238, R239). Choices of the model in it: log entries 75, 77. -/
def Obligations.RingCommandsTakeEffect : Prop :=
  (∀ (d : Dev) (fn ctx : Nat) (c : Ctx) (b : List Nat), d.awake → d.headOp (ckey fn ctx) 1 = some b → d.ctx (ckey fn ctx) = some c →
    d.held (ckey fn ctx / 4096) = false →
    Completes (.ringRun fn ctx) d (fun e =>
      mfind e.runs d.nextRun = some (mkRun (ckey fn ctx / 4096) (ckey fn ctx % 4096) false 0 0 b (c.safety && d.safetyPart (ckey fn ctx / 4096))) ∧
      e.nextRun = d.nextRun + 1 ∧ (∀ i, i ≠ d.nextRun → mfind e.runs i = mfind d.runs i) ∧ e.mem = d.mem ∧ e.regs = d.regs)) ∧
  (∀ (d : Dev) (fn ctx : Nat) (b : List Nat), d.awake → d.headOp (ckey fn ctx) 2 = some b → bfield b 32 4 ≠ 0 →
    Does (.ringCopy fn ctx) d (d.setHead (ckey fn ctx) .copying)) ∧
  (∀ (d : Dev) (fn ctx t : Nat) (k : RingCmd), d.awake → d.head (ckey fn ctx) = some k → k.st = .copying → d.rst.hbmReady = true →
    (copyReads k.bytes).flatMap (fun r => d.poisonIn r.1 r.2) = [] →
    let e := d.at_ t
    let data := if maskHas (k.bytes.getD 36 0) 0 then d.rdHost (bfield k.bytes 16 8) (bfield k.bytes 32 4)
      else d.rdHbm (bfield k.bytes 16 8) (bfield k.bytes 32 4)
    Does (.copyDone fn ctx t []) d (Dev.complete
      (if maskHas (k.bytes.getD 36 0) 1 then e.wrHost (bfield k.bytes 24 8) data else e.wrHbm (bfield k.bytes 24 8) data)
      (ckey fn ctx) stOk 0 0 0)) ∧
  (∀ (d : Dev) (fn ctx t : Nat) (k : RingCmd) (mem : List MemErr), d.awake → d.head (ckey fn ctx) = some k → k.st = .copying →
    (d.rst.hbmReady = false → Does (.copyDone fn ctx t mem) d d) ∧
    (d.rst.hbmReady = true → Does (.copyDone fn ctx t mem) d ((d.at_ t).met accRead (copyReads k.bytes) mem (fun x => x.copyEnd (ckey fn ctx) k.bytes))) ∧
    ∀ g l, d.rst.hbmReady = true → (copyReads k.bytes).flatMap (fun r => d.poisonIn r.1 r.2) = g :: l →
      Does (.copyDone fn ctx t []) d (((d.at_ t).copyMix k.bytes).hubUe (ckey fn ctx) g accRead)) ∧
  (∀ (d : Dev) (fn ctx : Nat) (b : List Nat) (n : Nat), d.awake → d.headOp (ckey fn ctx) 3 = some b →
    d.hwFlag (ckey fn ctx / 4096) (bfield b 16 2) = some n →
    Does (.ringSignal fn ctx) d ((d.flagAdd n (bfield b 20 4)).complete (ckey fn ctx) stOk 0 0 0)) ∧
  (∀ (d : Dev) (fn ctx t : Nat) (b : List Nat) (n : Nat), d.awake → d.headOp (ckey fn ctx) 4 = some b →
    d.hwFlag (ckey fn ctx / 4096) (bfield b 16 2) = some n → bfield b 20 4 ≤ d.flag n →
    Does (.ringWait fn ctx t) d ((d.at_ t).complete (ckey fn ctx) stOk (d.flag n) 0 0)) ∧
  (∀ (d : Dev) (fn ctx t : Nat) (b : List Nat) (n : Nat), d.awake → d.headOp (ckey fn ctx) 4 = some b →
    d.hwFlag (ckey fn ctx / 4096) (bfield b 16 2) = some n → d.flag n < bfield b 20 4 →
    (bfield b 24 8 = 0 ∨ Nat.max d.now t < bfield b 24 8 →
      Does (.ringWait fn ctx t) d ((d.at_ t).setHead (ckey fn ctx) (.waiting n (bfield b 20 4) (bfield b 24 8)))) ∧
    (0 < bfield b 24 8 → bfield b 24 8 ≤ Nat.max d.now t →
      Does (.ringWait fn ctx t) d ((d.at_ t).expireHead (ckey fn ctx) n (bfield b 24 8)))) ∧
  (∀ (d : Dev) (fn ctx : Nat) (k : RingCmd) (n v dl : Nat), d.awake → d.head (ckey fn ctx) = some k → k.st = .waiting n v dl → v ≤ d.flag n →
    Does (.waitRelease fn ctx) d (d.complete (ckey fn ctx) stOk (d.flag n) 0 0)) ∧
  (∀ (d : Dev) (fn ctx t : Nat) (k : RingCmd) (n v dl : Nat), d.awake → d.head (ckey fn ctx) = some k → k.st = .waiting n v dl → d.flag n < v →
    0 < dl → dl ≤ t → Does (.waitExpired fn ctx t) d ((d.at_ t).expireHead (ckey fn ctx) n dl))

/-- COAL_TIMER signals the vector of a context whose oldest unsignalled record is COAL_US old (R120); a failed PCIe lane narrows the link
and raises HIF_LINK_DEGRADED (R98); the host link comes up at the width and rate it trained to (R96), and an up link does not change its
width by training (R98). BAR2 (R100): a read of bytes that hold no poison returns each byte of installed HBM that lies in no hold slot, and
zero for every other; a write without poison or hold slot in its range writes its bytes within installed HBM and leaves every other byte as
it was; the read of a poisoned granule returns a poisoned TLP and counts as uncorrectable (R141). Before HBM is served reads give zero and
writes are ignored (R503, R506). Choices of the model in it: log entries 80, 83. -/
def Obligations.LinkCoalescingAndBar2 : Prop :=
  ((∀ (d : Dev) (fn ctx t t0 : Nat) (c : Ctx), d.awake → d.ctx (ckey fn ctx) = some c → c.unsigSince = some t0 → c.coalUs ≠ 0 → c.vector ≠ 0 →
     t0 + c.coalUs * 1000 ≤ t →
     Completes (.coalTimer fn ctx t) d (fun e => e.out.tx = d.out.tx ++ [.msix (ckey fn ctx / 4096) c.vector] ∧
       e.ctx (ckey fn ctx) = some { c with unsig := 0, unsigSince := none } ∧ e.now = Nat.max d.now t ∧ e.mem = d.mem ∧ e.regs = d.regs)) ∧
   (∀ (d : Dev) (width : Nat), d.awake → d.rst.linkUp = true → width < d.rst.linkWidth → width = 1 ∨ width = 2 ∨ width = 4 →
     d.coll.ready = true →
     Completes (.pcieLaneFail width) d (fun e => e.rst.linkWidth = width ∧ e.rst.linkUp = true ∧
       e.coll.pending = setBit512 d.coll.pending 0x100 ∧ e.mem = d.mem ∧ sameRegsBut [R.PWR_LP_CTRL] d e ∧ e.ctxs = d.ctxs)) ∧
   (∀ (d : Dev) (width rate : Nat), d.awake → d.rst.refclk = true → d.rst.low ≠ 2 → width ∈ [1, 2, 4, 8] → 1 ≤ rate → rate ≤ 5 →
     (d.rst.linkUp = false ∨ width = d.rst.linkWidth →
       Does (.hostLinkTrained width rate) d { d with rst := { d.rst with linkUp := true, linkWidth := width, linkRate := rate } }) ∧
     (d.rst.linkUp = true → width ≠ d.rst.linkWidth → Does (.hostLinkTrained width rate) d d))) ∧
  ((∀ (d : Dev) (addr len : Nat), d.awake → d.hbmServes = true → d.barsOpen 0 = true → d.poisonIn addr len = [] →
     Completes (.bar2Read addr len []) d (fun e => e.out.poisoned = false ∧ e.out.rdata.length = len ∧
       (∀ i, i < len → e.out.rdata[i]? = some (if addr + i < d.bar2Size ∧ d.inHoldSlot (addr + i) = false then (d.mem.hbm.read (addr + i)).toNat else 0)) ∧
       e.mem = d.mem ∧ e.regs = d.regs ∧ e.coll = d.coll)) ∧
   (∀ (d : Dev) (addr : Nat) (bytes : List Nat), d.awake → d.hbmServes = true → d.barsOpen 0 = true → addr + bytes.length ≤ d.bar2Size → d.leap.dieLost = [] →
     d.poisonIn addr bytes.length = [] → (∀ i, i < bytes.length → d.inHoldSlot (addr + i) = false) →
     Completes (.bar2Write addr bytes []) d (fun e =>
       (∀ i, i < bytes.length → e.mem.hbm.read (addr + i) = BitVec.ofNat 8 (bytes.getD i 0)) ∧
       (∀ a, a < addr ∨ addr + bytes.length ≤ a → e.mem.hbm.read a = d.mem.hbm.read a) ∧
       e.mem.host = d.mem.host ∧ e.mem.poison = d.mem.poison ∧ e.regs = d.regs ∧ e.ctxs = d.ctxs ∧ e.runs = d.runs)) ∧
   (∀ (d : Dev) (addr len : Nat) (bytes : List Nat) (mem : List MemErr), d.awake → d.hbmServes = false →
     (d.barsOpen 0 = true → Does (.bar2Read addr len mem) d (d.ret (List.replicate len 0))) ∧ Does (.bar2Write addr bytes mem) d d) ∧
   (∀ (d : Dev) (addr len : Nat) (mem : List MemErr), d.awake → d.hbmServes = true → d.barsOpen 0 = true →
     Does (.bar2Read addr len mem) d
       ((d.ret []).met accRead [(addr, len)] (mem.filter (fun e => !e.hbm || d.bar2Byte e.addr)) (fun x => x.bar2Data addr len))) ∧
   (∀ (d : Dev) (addr len g : Nat), d.awake → d.hbmServes = true → d.barsOpen 0 = true → g ∈ d.poisonIn addr len → d.inHoldSlot g = false → g < d.bar2Size →
     d.coll.ready = true →
     Completes (.bar2Read addr len []) d (fun e => e.out.poisoned = true ∧ e.out.rdata = [] ∧ e.coll.pending = setBit512 d.coll.pending 0x004 ∧
       e.mem.hbm = d.mem.hbm)))

/-- The pool and cache descriptors at their dispatch (R291, R295): a grant of whole 2 MiB units inside the HBM range under which the command
was validated (R146) that meets no pool adds a pool and its units as free blocks; a reclaim of wholly free units takes them away; a cache is
created, or destroyed when no valid entry is in it. -/
def Obligations.PoolsAndCaches : Prop :=
  (∀ (d : Dev) (fn ctx : Nat) (bs : List Nat), d.awake → fn < 16 → ctx < 4096 → d.headSub (ckey fn ctx) 8 0 = some bs → bfield bs 32 4 ≠ 0 →
    inRange (d.headRange (ckey fn ctx)) (bfield bs 24 8) (bfield bs 32 4 * 0x200000) = true → bfield bs 24 8 % 0x200000 = 0 →
    d.kv.pools.any (fun p => p.2.1 < bfield bs 24 8 + bfield bs 32 4 * 0x200000 && bfield bs 24 8 < p.2.2) = false →
    Completes (.poolGrant fn ctx) d (fun e =>
      (fn, bfield bs 24 8, bfield bs 24 8 + bfield bs 32 4 * 0x200000) ∈ e.kv.pools ∧ e.kv.pools.length = d.kv.pools.length + 1 ∧
      (e.freeBlocks fn).length = (d.freeBlocks fn).length + bfield bs 32 4 ∧
      (∀ f, f ≠ fn → e.freeBlocks f = d.freeBlocks f) ∧ e.kv.entries = d.kv.entries ∧ e.mem.hbm = d.mem.hbm)) ∧
  (∀ (d : Dev) (fn ctx : Nat) (bs : List Nat), d.awake → fn < 16 → ctx < 4096 → d.headSub (ckey fn ctx) 8 1 = some bs → bfield bs 32 4 = 1 →
    bfield bs 24 8 % 0x200000 = 0 → d.unitFree fn (bfield bs 24 8) = true →
    Completes (.poolReclaim fn ctx) d (fun e =>
      e.unitFree fn (bfield bs 24 8) = false ∧ (∀ f, f ≠ fn → e.freeBlocks f = d.freeBlocks f) ∧ e.kv.entries = d.kv.entries ∧
      e.mem.hbm = d.mem.hbm)) ∧
  (∀ (d : Dev) (fn ctx : Nat) (bs : List Nat), d.awake → fn < 16 → ctx < 4096 → d.headSub (ckey fn ctx) 8 2 = some bs →
    mfind d.kv.caches (bfield bs 20 4) = none →
    Completes (.cacheCreate fn ctx) d (fun e =>
      mfind e.kv.caches (bfield bs 20 4) = some ⟨fn, bits (bfield bs 36 8) 8 0, bits (bfield bs 36 8) 20 9, bits (bfield bs 36 8) 22 21⟩ ∧
      (∀ i, i ≠ bfield bs 20 4 → mfind e.kv.caches i = mfind d.kv.caches i) ∧ e.kv.entries = d.kv.entries ∧ e.mem.hbm = d.mem.hbm)) ∧
  (∀ (d : Dev) (fn ctx : Nat) (bs : List Nat) (c : Cache), d.awake → fn < 16 → ctx < 4096 → d.headSub (ckey fn ctx) 8 3 = some bs →
    mfind d.kv.caches (bfield bs 20 4) = some c → c.part = fn →
    d.kv.entries.any (fun p => p.2.valid && p.2.cache == bfield bs 20 4) = false →
    Completes (.cacheDestroy fn ctx) d (fun e => mfind e.kv.caches (bfield bs 20 4) = none ∧
      (∀ i, i ≠ bfield bs 20 4 → mfind e.kv.caches i = mfind d.kv.caches i) ∧ e.kv.entries = d.kv.entries ∧ e.mem.hbm = d.mem.hbm))

/-- The page descriptors (R290, R296): an allocation takes the next index and a free block, with one reference; SHARE adds a reference, FREE
takes one away while more than one is held, and a COW of a page that others share starts a copy to a new page with the old one pinned. A
reference that does not resolve completes with DESCRIPTOR_STALE and counts. The end of a page copy (R296): the new page holds the bytes of
the old one, the pin drops, and the copy counts in KVU_COW; a read of KVU_ENTRY_DATA0 returns and keeps a snapshot of the selected entry
(R304). Choices of the model in it: log entry 120. -/
def Obligations.PagesAreCountedAndCopied : Prop :=
  ((∀ (d : Dev) (fn ctx i a : Nat) (bs : List Nat) (c : Cache) (l : List (Nat × Nat)), d.awake → fn < 16 → ctx < 4096 →
     d.headSub (ckey fn ctx) 8 4 = some bs → d.cacheOf fn (bfield bs 20 4) = some c → bitOf (bfield bs 36 8) 6 = false →
     bits (bfield bs 36 8) 3 0 ≤ 10 → pageT (bits (bfield bs 36 8) 3 0) (bits (bfield bs 36 8) 5 4) c.kvHeads c.headDim ≠ 0 →
     d.nextIndex = some i → takeBlock (d.freeBlocks fn) (bits (bfield bs 36 8) 3 0 - 1) = some (a, l) →
     Completes (.pageAlloc fn ctx) d (fun e =>
       e.bent i = ⟨a, bits (bfield bs 36 8) 3 0, bits (bfield bs 36 8) 5 4, true, false, 1, 0, d.pkg, fn, bfield bs 20 4, (d.bent i).epoch⟩ ∧
       (∀ j, j ≠ i → e.bent j = d.bent j) ∧ e.freeBlocks fn = l)) ∧
   (∀ (d : Dev) (fn ctx : Nat) (bs : List Nat), d.awake → fn < 16 → ctx < 4096 → d.headSub (ckey fn ctx) 8 5 = some bs →
     d.refLive (bfield bs 20 4) = true → (d.bent (refIdx (bfield bs 20 4))).part = fn → (d.bent (refIdx (bfield bs 20 4))).refs < 65535 →
     Completes (.pageShare fn ctx) d (fun e =>
       e.bent (refIdx (bfield bs 20 4)) = { d.bent (refIdx (bfield bs 20 4)) with refs := (d.bent (refIdx (bfield bs 20 4))).refs + 1 } ∧
       (∀ j, j ≠ refIdx (bfield bs 20 4) → e.bent j = d.bent j))) ∧
   (∀ (d : Dev) (fn ctx : Nat) (bs : List Nat), d.awake → fn < 16 → ctx < 4096 → d.headSub (ckey fn ctx) 8 6 = some bs →
     d.refLive (bfield bs 20 4) = true → (d.bent (refIdx (bfield bs 20 4))).part = fn →
     Completes (.pageFree fn ctx) d (fun e =>
       (e.bent (refIdx (bfield bs 20 4))).refs = (d.bent (refIdx (bfield bs 20 4))).refs - 1 ∧
       ((d.bent (refIdx (bfield bs 20 4))).refs = 1 → (d.bent (refIdx (bfield bs 20 4))).pins = 0 →
         (e.bent (refIdx (bfield bs 20 4))).valid = false ∧
         (e.bent (refIdx (bfield bs 20 4))).epoch = ((d.bent (refIdx (bfield bs 20 4))).epoch + 1) % 2 ^ 32) ∧
       (∀ j, j ≠ refIdx (bfield bs 20 4) → e.bent j = d.bent j))) ∧
   (∀ (d : Dev) (fn ctx : Nat) (bs : List Nat) (i j : Nat), d.awake → fn < 16 → ctx < 4096 → d.headSub (ckey fn ctx) 8 7 = some bs →
     i = refIdx (bfield bs 20 4) → d.refLive (bfield bs 20 4) = true → (d.bent i).part = fn → 1 < (d.bent i).refs → (d.bent i).pins < 65535 →
     (d.allocPage fn (d.bent i).cache (d.bent i).size (d.bent i).fmt false d.pkg).2 = some j → i ≠ j →
     Completes (.pageCow fn ctx) d (fun e =>
       (e.bent i).refs = (d.bent i).refs - 1 ∧ (e.bent i).pins = (d.bent i).pins + 1 ∧ (e.bent j).refs = 1 ∧ (e.bent j).valid = true ∧
       (e.head (ckey fn ctx)).map RingCmd.st = some (.cow j) ∧ e.mem = d.mem)) ∧
   (∀ (d : Dev) (fn ctx : Nat) (bs : List Nat), d.awake → d.headSub (ckey fn ctx) 8 5 = some bs → d.refLive (bfield bs 20 4) = false →
     Does (.pageShare fn ctx) d ((d.addSat F.KVU_STALE.COUNT 1).complete (ckey fn ctx) stStale 0 0 0))) ∧
  ((∀ (d : Dev) (fn ctx j : Nat) (k : RingCmd), d.awake → d.head (ckey fn ctx) = some k → k.st = .cow j →
     d.poisonIn (d.bent (refIdx (bfield k.bytes 20 4))).addr (d.bent (refIdx (bfield k.bytes 20 4))).bytes = [] →
     let o := d.bent (refIdx (bfield k.bytes 20 4))
     Does (.cowCopyDone fn ctx []) d ((((d.wrHbm (d.bent j).addr (d.rdHbm o.addr o.bytes)).unpin (refIdx (bfield k.bytes 20 4))).addSat
       F.KVU_COW.COUNT 1).kvDone (ckey fn ctx) k.bytes j (refOf j (d.bent j).epoch))) ∧
   (∀ (d : Dev) (fn ctx j : Nat) (k : RingCmd) (mem : List MemErr), d.awake → d.head (ckey fn ctx) = some k → k.st = .cow j →
     let i := refIdx (bfield k.bytes 20 4)
     Does (.cowCopyDone fn ctx mem) d (d.met accRead [((d.bent i).addr, (d.bent i).bytes)] mem (fun x => x.cowEnd (ckey fn ctx) i j k.bytes)) ∧
     ∀ (x : Dev) (g : Nat) (l : List Nat), x.poisonIn (x.bent i).addr (x.bent i).bytes = g :: l →
       (x.cowEnd (ckey fn ctx) i j k.bytes).f F.KVU_COW.COUNT = x.f F.KVU_COW.COUNT) ∧
   (∀ d : Dev, d.awake → Completes .kvuEntryRead d (fun e =>
     e.kv.snap = (List.range 4).map (fun n => bits (d.bent (d.f F.KVU_ENTRY_SEL.INDEX)).word (32 * n + 31) (32 * n)) ∧
     leNat e.out.rdata = bits (d.bent (d.f F.KVU_ENTRY_SEL.INDEX)).word 31 0 ∧ e.kv.entries = d.kv.entries ∧ e.mem = d.mem ∧ e.regs = d.regs)))

/-- KAL_APPLY sets a checked period, phase and Vigil offset pending, or refuses them with BAD_CFG and changes nothing else (R46); a read of
ALM_KAL_FRAME_LO returns the low half of the frame number and latches the high half (R45). KALENDS_TICK ends a frame and starts the next:
the frame number rises by 1, the new frame's tick is the one that was due, its Vigil is still to come, and a bank that waits becomes active,
once every context it names is resident (R44, R46, R53; the wait is the model's reading of R332, log entry 48). During a warm reset and in
Keep the frame count and the releases of safe state B go on (R44, R384, R410). Choices of the model in it: log entries 42, 43. -/
def Obligations.KalendsFramesAndSettings : Prop :=
  ((∀ d : Dev, d.awake → 5000000 ≤ d.f F.ALM_KAL_PERIOD.PERIOD_NS → d.f F.ALM_KAL_PERIOD.PERIOD_NS ≤ 200000000 →
     d.f F.ALM_KAL_PHASE.PHASE_NS < d.f F.ALM_KAL_PERIOD.PERIOD_NS → 1000000 ≤ d.f F.ALM_VIGIL_OFFSET.OFFSET_NS →
     d.f F.ALM_VIGIL_OFFSET.OFFSET_NS ≤ d.f F.ALM_KAL_PERIOD.PERIOD_NS →
     Does .kalApply d ((d.stage R.ALM_KAL_PERIOD R.ALM_KAL_CTRL).set F.ALM_KAL_CTRL.PENDING 1)) ∧
   (∀ d : Dev, d.awake →
     d.f F.ALM_KAL_PERIOD.PERIOD_NS < 5000000 ∨ 200000000 < d.f F.ALM_KAL_PERIOD.PERIOD_NS ∨
       d.f F.ALM_KAL_PERIOD.PERIOD_NS ≤ d.f F.ALM_KAL_PHASE.PHASE_NS ∨ d.f F.ALM_VIGIL_OFFSET.OFFSET_NS < 1000000 ∨
       d.f F.ALM_KAL_PERIOD.PERIOD_NS < d.f F.ALM_VIGIL_OFFSET.OFFSET_NS →
     Does .kalApply d (d.set F.ALM_KAL_CTRL.BAD_CFG 1)) ∧
   (∀ d : Dev, d.awake → Completes .frameLoRead d (fun e =>
     leNat e.out.rdata = d.frame.frameNo % 2 ^ 32 ∧ e.frame.hiLatch = d.frame.frameNo / 2 ^ 32 % 2 ^ 32 ∧
     e.frame.frameNo = d.frame.frameNo ∧ e.mem = d.mem ∧ e.regs = d.regs ∧ e.runs = d.runs))) ∧
  ((∀ (d : Dev) (mem : List MemErr), d.awake → d.running = true → d.rst.warm = false → d.rst.low ≠ 2 → d.frame.started = true → d.frame.vigilDone = true →
     Completes (.kalendsTick mem) d (fun e =>
       e.frame.frameNo = d.frame.frameNo + 1 ∧ e.frame.tick = d.frame.nextTick ∧ e.frame.vigilDone = false ∧ e.frame.started = true ∧
       e.frame.prevTick = some d.frame.tick ∧
       (d.on F.ALM_KAL_CTRL.PENDING = false → e.frame.nextTick = d.frame.nextTick + d.live F.ALM_KAL_PERIOD.PERIOD_NS) ∧
       (d.on F.SCH_ORDO_CTRL.PENDING = true → (bankKeys d.nextBank).all (fun key => ((d.ctx key).map Ctx.resident).getD true) = true →
         e.f F.SCH_ORDO_CTRL.BANK = 1 - d.f F.SCH_ORDO_CTRL.BANK ∧ e.on F.SCH_ORDO_CTRL.PENDING = false) ∧
       (e.on F.SCH_ORDO_CTRL.PENDING = true → e.f F.SCH_ORDO_CTRL.BANK = d.f F.SCH_ORDO_CTRL.BANK) ∧
       (d.on F.SCH_ORDO_CTRL.PENDING = false → e.f F.SCH_ORDO_CTRL.BANK = d.f F.SCH_ORDO_CTRL.BANK) ∧
       (BitVec.ofNat 16 (e.f F.SAF_SAFE_STAT.B_PART) = BitVec.ofNat 16 (d.f F.SAF_SAFE_STAT.B_PART) &&& ~~~ d.safe.bClear) ∧
       e.safe.bClear = 0 ∧ e.fuses = d.fuses)) ∧
   (∀ (d : Dev) (mem : List MemErr), d.awake → d.running = true → d.rst.warm = true ∨ d.rst.low = 2 → d.frame.started = true →
     Completes (.kalendsTick mem) d (fun e =>
       e.frame.frameNo = d.frame.frameNo + 1 ∧ e.frame.tick = d.frame.nextTick ∧
       (BitVec.ofNat 16 (e.f F.SAF_SAFE_STAT.B_PART) = BitVec.ofNat 16 (d.f F.SAF_SAFE_STAT.B_PART) &&& ~~~ d.safe.bClear) ∧
       e.safe.bClear = 0 ∧ (keysRise d.regs.cur = true → e.live ⟨R.SAF_EMB_CFG, 31, 0⟩ = d.f ⟨R.SAF_EMB_CFG, 31, 0⟩) ∧
       e.mem = d.mem ∧ e.runs = d.runs ∧ e.ctxs = d.ctxs ∧ e.leap = d.leap ∧ e.coll = d.coll)))

/-- VIGIL ends a frame's commands: after it no command of a task is left but those in their commit phase (R63), and the rows of cluster
scratchpad and region memory that are due for repair may be repaired (R135). PHASE_START starts the next phase at its time once its turn has
come, the first after roster agreement, a later one after every task of the one before has ended (R59); BUDGET_OVERRUN kills the running
command of a task whose charge has reached its budget and raises its source (R62). Roster agreement (R52): a member that receives the
leader's roster answers its digest, and holds it, with the leader's frame number and tick, when the digest matches, in the ring of
SCH_ROSTER_BASE as well (R51); on the leader the last digest ends the agreement; at the time limit it ends with ROSTER_DISAGREE raised.
Choices of the model in it: log entries 46, 51, 53, 188. -/
def Obligations.VigilPhasesBudgetsAndRoster : Prop :=
  (∀ d : Dev, d.awake → d.frame.started = true → d.frame.vigilDone = false →
     Completes .vigil d (fun e => e.frame.vigilDone = true ∧ (∀ q ∈ e.runs, q.2.ordo = true → q.2.inCommit = true) ∧
       e.frame.frameNo = d.frame.frameNo ∧ e.frame.roster = d.frame.roster ∧ e.mem.sramRepairDue = d.mem.sramRepairDue ∧
       e.mem.rowsReady = d.mem.sramRepairDue.filter (fun key => unitKind (keyUnit key) == 3 || unitKind (keyUnit key) == 4) ∧
       e.fuses = d.fuses)) ∧
  ((∀ (d : Dev) (v : Variant) (p : PhaseEntry) (t : Nat), d.awake → d.plan = some v → v.phases[0]? = some p → d.frame.phase = none →
     d.frame.started = true → d.frame.vigilDone = false → d.frame.agreeDone = true → d.frame.tick + p.startNs ≤ t →
     Completes (.phaseStart t) d (fun e => e.frame.phase = some 0 ∧ e.now = Nat.max d.now t ∧ e.frame.frameNo = d.frame.frameNo ∧
       e.frame.roster = d.frame.roster ∧ e.fuses = d.fuses)) ∧
   (∀ (d : Dev) (v : Variant) (x p : PhaseEntry) (n t : Nat), d.awake → d.plan = some v → v.phases[n]? = some x → v.phases[n + 1]? = some p →
     d.frame.phase = some n → d.frame.started = true → d.frame.vigilDone = false → d.frame.tick + p.startNs ≤ Nat.max d.now t →
     (∀ i, i < x.taskCount → (d.task (x.firstTask + i)).all Task.ended = true) →
     Completes (.phaseStart t) d (fun e => e.frame.phase = some (n + 1) ∧ e.now = Nat.max d.now t ∧ e.frame.frameNo = d.frame.frameNo ∧
       e.frame.roster = d.frame.roster ∧ e.fuses = d.fuses)) ∧
   (∀ (d : Dev) (v : Variant) (x p : PhaseEntry) (n i t : Nat) (k : Task), d.awake → d.plan = some v → v.phases[n]? = some x →
     v.phases[n + 1]? = some p → d.frame.phase = some n → i < x.taskCount → d.task (x.firstTask + i) = some k → k.ended = false →
     Does (.phaseStart t) d d) ∧
   (∀ (d : Dev) (id t : Nat) (r : Run) (k : Task) (s : Slot), d.awake → mfind d.runs id = some r → r.ordo = true →
     r.frame = d.frame.frameNo → r.holds = true → r.inCommit = false → r.endKill = none →
     ((d.at_ t).charge id true).task r.task = some k → ((d.at_ t).charge id true).slotOf r.task = some s → s.budget ≤ k.charge →
     d.coll.ready = true → (r.members.head?).all (fun m => masterKnown m.phys) = true →
     Completes (.budgetOverrun id t) d (fun e => mfind e.runs id = none ∧ e.coll.pending.getLsbD 0x0C0 = true ∧
       e.frame.frameNo = d.frame.frameNo ∧ e.fuses = d.fuses))) ∧
  ((∀ (d : Dev) (bytes : List Nat), d.awake → (d.route (d.f F.LNK_GROUP_MEM.PKG % 2 ^ 15)).isSome = true → d.groupMember = true → d.frame.started = true → d.frame.agreeDone = false →
     d.on F.ALM_STAT.FREE_START = false → crc64 (bytes.drop 64) = bfield bytes 16 8 → (bytes.drop 64).length = 1152 →
     Completes (.rosterReceive bytes) d (fun e =>
       e.frame.received = some bytes ∧ e.frame.rosterFrame = bfield bytes 0 8 ∧ e.frame.rosterTick = bfield bytes 8 8 ∧
       e.frame.roster = (List.range 36).map (fun i => entryOfBytes (((bytes.drop 64).drop (32 * i)).take 32)) ∧
       e.out.tx = d.out.tx ++ [.rosterDigest (d.f F.LNK_GROUP_MEM.PKG % 2 ^ 15) (crc64 (bytes.drop 64))] ∧
       (d.f F.SCH_ROSTER_BASE.ADDR = 0 → e.mem = d.mem) ∧
       (let a := d.f F.SCH_ROSTER_BASE.ADDR + 2048 * (d.frame.frameNo % 16)
        d.f F.SCH_ROSTER_BASE.ADDR ≠ 0 → d.inHbm a 1216 = true → d.hbmServes = true → e.mem = (d.wrHbm a e.rosterBytes).mem) ∧
       e.regs = d.regs ∧ e.runs = d.runs)) ∧
   (∀ (d : Dev) (member : Nat), d.awake → d.frame.started = true → d.frame.agreeDone = false → d.groupLeader = true →
     d.groupPkgs.contains member = true →
     Does (.rosterDigestReturn member d.frame.rosterDigest) d { d with
       frame := { d.frame with
         agreed := insNat d.frame.agreed member, agreeDone := d.groupPkgs.all (insNat d.frame.agreed member).contains } }) ∧
   (∀ d : Dev, d.awake → d.frame.started = true → d.frame.agreeDone = false → d.groupLeader = true → d.groupMember = false →
     d.coll.ready = true →
     Completes .rosterAgreementTimeout d (fun e => e.frame.agreeDone = true ∧ e.frame.roster = d.frame.roster ∧
       e.coll.pending = setBit512 d.coll.pending 0x0C2 ∧ sameMemory d e)))

/-- SWITCH starts the copy of an image that passes its checks, or refuses it and names what failed (R57); after a warm reset it waits, with
BUSY set, until HBM serves its reads (R503, log entry 197); when the copy ends, the bank that is not in use holds the image and waits for
the tick (R53). Choices of the model in it: log entries 47, 48, 116, 187. -/
def Obligations.OrdoImagesAreCheckedAndCopied : Prop :=
  (∀ (d : Dev) (l : List (Nat × Variant)), d.awake → d.on F.SCH_ORDO_CTRL.BUSY = false → d.on F.SCH_ORDO_CTRL.PENDING = false → d.rst.hbmReady = true →
    (d.switchReads (d.f F.SCH_ORDO_SRC.ADDR)).all (fun x => (d.poisonIn x.1 x.2).isEmpty) = true → d.image (d.f F.SCH_ORDO_SRC.ADDR) = .ok l →
    Does (.ordoSwitch []) d (Dev.set { d with frame := { d.frame with copying := some l } } F.SCH_ORDO_CTRL.BUSY 1)) ∧
  (∀ (d : Dev) (x : ImgErr), d.awake → d.on F.SCH_ORDO_CTRL.BUSY = false → d.on F.SCH_ORDO_CTRL.PENDING = false → d.rst.hbmReady = true →
    (d.switchReads (d.f F.SCH_ORDO_SRC.ADDR)).all (fun x => (d.poisonIn x.1 x.2).isEmpty) = true → d.image (d.f F.SCH_ORDO_SRC.ADDR) = .error x →
    Completes (.ordoSwitch []) d (fun e => e.on F.SCH_ORDO_STATUS.REFUSED = true ∧ e.f F.SCH_ORDO_STATUS.ERR_CODE = x.st % 256 ∧
      e.frame = d.frame ∧ e.mem = d.mem ∧ sameRegsBut [R.SCH_ORDO_STATUS] d e)) ∧
  (∀ (d : Dev) (mem : List MemErr), d.awake → d.on F.SCH_ORDO_CTRL.BUSY = false → d.on F.SCH_ORDO_CTRL.PENDING = false →
    let src := d.f F.SCH_ORDO_SRC.ADDR
    (d.rst.hbmReady = true → Does (.ordoSwitch mem) d (d.met accFetch (d.switchReads src) mem (fun x => x.imgTake src))) ∧
    (d.rst.hbmReady = false →
      Does (.ordoSwitch mem) d (Dev.set { d with frame := { d.frame with switchWait := true } } F.SCH_ORDO_CTRL.BUSY 1))) ∧
  (∀ (d : Dev) (mem : List MemErr), d.awake → d.on F.SCH_ORDO_CTRL.BUSY = true ∨ d.on F.SCH_ORDO_CTRL.PENDING = true →
    Does (.ordoSwitch mem) d d) ∧
  (∀ (d : Dev) (l : List (Nat × Variant)) (mem : List MemErr), d.awake → d.frame.copying = some l → d.frame.banks.length = 2 →
    Completes (.ordoCopyDone mem) d (fun e => e.on F.SCH_ORDO_CTRL.PENDING = true ∧ e.on F.SCH_ORDO_CTRL.BUSY = false ∧
      e.f F.SCH_ORDO_CTRL.BANK = d.f F.SCH_ORDO_CTRL.BANK ∧ e.frame.copying = none ∧
      e.frame.banks[1 - d.f F.SCH_ORDO_CTRL.BANK]? = some l ∧ e.frame.banks[d.f F.SCH_ORDO_CTRL.BANK]? = d.frame.banks[d.f F.SCH_ORDO_CTRL.BANK]?))

/-- SPAN OPEN, CLOSE, ADVANCE and MAP at their dispatch (R436 to R438): a window opens with its fields and an epoch one higher, closes or
advances with an epoch one higher, and a map entry is written or cleared; the bytes are those of Table 1. Choices of the model in it: log
entries 98, 139. -/
def Obligations.SpanWindowsAndMaps : Prop :=
  (∀ (d : Dev) (fn ctx : Nat) (b : List Nat), d.awake → fn < 16 → ctx < 4096 → d.headSub (ckey fn ctx) 9 0 = some b →
    let size := bfield b 32 4
    16 ≤ bits size 4 0 → bits size 4 0 ≤ 30 → (d.window (bfield b 20 4)).opened = false →
    d.inPart fn (bfield b 24 8) (2 ^ bits size 4 0) = true → (d.hwFlag fn (bits size 20 7)).isSome = true →
    Completes (.spanOpen fn ctx) d (fun e =>
      e.window (bfield b 20 4) = ⟨true, fn, ctx, bfield b 24 8, bits size 4 0, bitOf size 5, bitOf size 6, bits size 20 7, bitOf size 21,
        bfield b 36 8, ((d.window (bfield b 20 4)).epoch + 1) % 65536⟩ ∧
      (∀ n, n ≠ bfield b 20 4 → e.window n = d.window n) ∧ e.mem.hbm = d.mem.hbm)) ∧
  (∀ (d : Dev) (fn ctx : Nat) (b : List Nat), d.awake → fn < 16 → ctx < 4096 → d.headSub (ckey fn ctx) 9 1 = some b →
    (d.window (bfield b 20 4)).opened = true → (d.window (bfield b 20 4)).part = fn →
    Completes (.spanClose fn ctx) d (fun e => (e.window (bfield b 20 4)).opened = false ∧
      (e.window (bfield b 20 4)).epoch = ((d.window (bfield b 20 4)).epoch + 1) % 65536 ∧
      (∀ n, n ≠ bfield b 20 4 → e.window n = d.window n) ∧ e.mem.hbm = d.mem.hbm)) ∧
  (∀ (d : Dev) (fn ctx : Nat) (b : List Nat), d.awake → fn < 16 → ctx < 4096 → d.headSub (ckey fn ctx) 9 2 = some b →
    (d.window (bfield b 20 4)).opened = true → (d.window (bfield b 20 4)).part = fn →
    Completes (.spanAdvance fn ctx) d (fun e =>
      e.window (bfield b 20 4) = { d.window (bfield b 20 4) with epoch := ((d.window (bfield b 20 4)).epoch + 1) % 65536 } ∧
      (∀ n, n ≠ bfield b 20 4 → e.window n = d.window n) ∧ e.mem.hbm = d.mem.hbm)) ∧
  (∀ (d : Dev) (fn ctx : Nat) (b : List Nat), d.awake → fn < 16 → ctx < 4096 → d.headSub (ckey fn ctx) 9 3 = some b →
    (d.mapEnt (bfield b 20 4)).set_ = false ∨ (d.mapEnt (bfield b 20 4)).part = fn →
    let arg := bfield b 36 8
    bits arg 45 41 = 0 ∨ 16 ≤ bits arg 45 41 ∧ bits arg 45 41 ≤ 30 →
    Completes (.spanMap fn ctx) d (fun e =>
      e.mapEnt (bfield b 20 4) = (if bits arg 45 41 = 0 then mapClear else ⟨true, fn, bits arg 14 0, bits arg 24 15, bits arg 40 25, bits arg 45 41⟩) ∧
      (∀ n, n ≠ bfield b 20 4 → e.mapEnt n = d.mapEnt n) ∧ e.mem.hbm = d.mem.hbm))

/-- SPAN PULL sends its request to the owner that the map entry names, or ends with WINDOW_DENIED when no route leads there (R435, R442);
the end of the pull writes the bytes, or ends with the owner's status; and the owner answers a request inside a read-write window that
admits the sender with its bytes, or with INVALIDATED where a granule is uncorrectable (R141), else with WINDOW_DENIED, or DESCRIPTOR_STALE
for another epoch (R442). Roster groups (R444): a member writes the leader's mirrored bytes at the same address and acknowledges them, and
no other byte changes; the leader counts each acknowledgement of a member. Choices of the model in it: log entries 62, 141. -/
def Obligations.PullsAndMirroredWrites : Prop :=
  ((∀ (d : Dev) (fn ctx : Nat) (b : List Nat), d.awake → fn < 16 → ctx < 4096 → d.headSub (ckey fn ctx) 9 4 = some b →
     let m := d.mapEnt (bfield b 20 4)
     let off := bits (bfield b 36 8) 39 0
     m.set_ = true → m.part = fn → bfield b 32 4 ≠ 0 →
     ((d.route m.pkg).isSome = true →
       Does (.spanPull fn ctx) d ((d.sendLg m.pkg (.pull m.pkg m.win m.epoch off (bfield b 32 4))).setHead (ckey fn ctx) .pulling)) ∧
     (d.route m.pkg = none → Does (.spanPull fn ctx) d (d.complete (ckey fn ctx) stDenied 0 0 0))) ∧
   (∀ (d : Dev) (fn ctx status : Nat) (bytes : List Nat) (k : RingCmd), d.awake → d.head (ckey fn ctx) = some k → k.st = .pulling →
     (status = 0 → Does (.pullDone fn ctx status bytes) d
       ((d.wrHbm (bfield k.bytes 24 8) (bytes.take (bfield k.bytes 32 4))).complete (ckey fn ctx) stOk 0 0 0)) ∧
     (status ≠ 0 → Does (.pullDone fn ctx status bytes) d (d.complete (ckey fn ctx) status 0 0 0))) ∧
   (∀ (d : Dev) (p sender win epoch off len t : Nat), d.awake → d.portLive p = true →
     let w := d.window win
     let open_ := w.rw = true ∧ w.admits sender = true ∧ off + len ≤ 2 ^ w.log2
     (open_ → w.epoch = epoch → d.poisonIn (w.addr + off) len = [] →
       Does (.pullRequestArrival p sender win epoch off len t []) d ((d.at_ t).sendLg sender (.pullReply sender stOk (d.rdHbm (w.addr + off) len)))) ∧
     (∀ g l, (d.route sender).isSome = true → open_ → w.epoch = epoch → d.poisonIn (w.addr + off) len = g :: l → d.coll.ready = true →
       Completes (.pullRequestArrival p sender win epoch off len t []) d (fun e => .pullReply sender stInvalidated [] ∈ e.out.tx ∧
         e.coll.pending = setBit512 d.coll.pending 0x004 ∧ e.mem.hbm = d.mem.hbm ∧ e.lnk.windows = d.lnk.windows)) ∧
     (open_ → w.epoch = epoch → ∀ mem, Does (.pullRequestArrival p sender win epoch off len t mem) d
       ((d.at_ t).met accRead [(w.addr + off, len)] mem (fun x => x.pullAnswer sender (w.addr + off) len))) ∧
     (open_ → w.epoch ≠ epoch → ∀ mem,
       Does (.pullRequestArrival p sender win epoch off len t mem) d ((d.at_ t).sendLg sender (.pullReply sender stStale []))) ∧
     (¬ open_ → ∀ mem, Does (.pullRequestArrival p sender win epoch off len t mem) d ((d.at_ t).sendLg sender (.pullReply sender stDenied []))))) ∧
  ((∀ (d : Dev) (addr : Nat) (bytes : List Nat), d.awake → d.groupMember = true → d.inHbm addr bytes.length = true →
     d.poisonIn addr bytes.length = [] → d.stackLost addr = false → d.rst.hbmReady = true → (d.route (d.groupPkgs.headD 0)).isSome = true →
     Completes (.mirrorReceive addr bytes) d (fun e =>
       (∀ i, i < bytes.length → e.mem.hbm.read (addr + i) = BitVec.ofNat 8 (bytes.getD i 0)) ∧
       (∀ a, a < addr ∨ addr + bytes.length ≤ a → e.mem.hbm.read a = d.mem.hbm.read a) ∧
       e.out.tx = d.out.tx ++ [.mirrorAck (d.groupPkgs.headD 0)] ∧ e.regs = d.regs ∧ e.lnk.windows = d.lnk.windows)) ∧
   (∀ (d : Dev) (member : Nat), d.awake → d.groupLeader = true → d.groupPkgs.contains member = true →
     Completes (.mirrorAck member) d (fun e => mget 0 e.lnk.mirrorAcked member = mget 0 d.lnk.mirrorAcked member + 1 ∧
       (∀ m, m ≠ member → mget 0 e.lnk.mirrorAcked m = mget 0 d.lnk.mirrorAcked m) ∧ e.mem = d.mem ∧ e.regs = d.regs)))

/-- PIECE_ARRIVAL at the owner (R356, R432, R440): a new piece with a right CRC, inside an open window that admits its sender and of its
epoch, is written whole and acknowledged, and no other byte of HBM changes; with a wrong CRC it is asked for again once and counted, and a
second time dropped and reported; a piece that the window does not admit is refused and counted, and one of another epoch is dropped,
counted and reported. Refusals leave HBM as it was. ARRIVAL_MARK adds 1 to the flag that its window names, while FLAG_EN is set, and is
acknowledged (R441). Choices of the model in it: log entries 138, 139, 140. -/
def Obligations.PiecesAndArrivalMarks : Prop :=
  (∀ (d : Dev) (p sender seq win epoch off crc t : Nat) (again : Bool) (bytes : List Nat), d.awake → d.portLive p = true →
     d.seen sender seq = false → (d.route sender).isSome = true →
     let w := d.window win
     (crc64 bytes = crc → w.admits sender = true → off + bytes.length ≤ 2 ^ w.log2 → w.epoch = epoch → d.poisonIn (w.addr + off) bytes.length = [] →
       d.stackLost (w.addr + off) = false → Completes (.pieceArrival p sender seq win epoch off crc again bytes t) d (fun e =>
         (∀ i, i < bytes.length → e.mem.hbm.read (w.addr + off + i) = BitVec.ofNat 8 (bytes.getD i 0)) ∧
         (∀ a, a < w.addr + off ∨ w.addr + off + bytes.length ≤ a → e.mem.hbm.read a = d.mem.hbm.read a) ∧
         e.out.tx = d.out.tx ++ [.reply sender .ack] ∧ e.lnk.windows = d.lnk.windows ∧ e.mem.host = d.mem.host ∧ e.regs = d.regs)) ∧
     (crc64 bytes ≠ crc → again = false →
       Completes (.pieceArrival p sender seq win epoch off crc again bytes t) d (fun e =>
         (sender, seq) ∈ e.lnk.asked ∧ e.out.tx = d.out.tx ++ [.reply sender .again] ∧ e.mem = d.mem ∧ e.coll = d.coll ∧
         e.f F.SAF_CRC_RETRY.COUNT = Nat.min (d.f F.SAF_CRC_RETRY.COUNT + 1) 0xFFFFFFFF ∧ sameRegsBut [R.SAF_CRC_RETRY] d e)) ∧
     (crc64 bytes ≠ crc → again = true → d.coll.ready = true → p < 6 →
       Completes (.pieceArrival p sender seq win epoch off crc again bytes t) d (fun e =>
         (.reply sender .dropped) ∈ e.out.tx ∧ e.mem = d.mem ∧ e.coll.pending = setBit512 d.coll.pending 0x046 ∧
         e.f F.SAF_CRC_RETRY.COUNT = d.f F.SAF_CRC_RETRY.COUNT ∧ sameRegsBut [R.PWR_LP_CTRL] d e)) ∧
     (crc64 bytes = crc → w.admits sender = false ∨ 2 ^ w.log2 < off + bytes.length →
       Completes (.pieceArrival p sender seq win epoch off crc again bytes t) d (fun e =>
         e.out.tx = d.out.tx ++ [.reply sender (.refused false)] ∧ e.mem = d.mem ∧ e.coll = d.coll ∧
         e.f F.LNK_DENIED.COUNT = Nat.min (d.f F.LNK_DENIED.COUNT + 1) 0xFFFFFFFF ∧ sameRegsBut [R.LNK_DENIED] d e)) ∧
     (crc64 bytes = crc → w.admits sender = true → off + bytes.length ≤ 2 ^ w.log2 → w.epoch ≠ epoch → d.coll.ready = true → p < 6 →
       Completes (.pieceArrival p sender seq win epoch off crc again bytes t) d (fun e =>
         (.reply sender (.refused true)) ∈ e.out.tx ∧ e.mem = d.mem ∧ e.coll.pending = setBit512 d.coll.pending 0x1C2 ∧
         e.f F.LNK_EPOCH_DROP.COUNT = Nat.min (d.f F.LNK_EPOCH_DROP.COUNT + 1) 0xFFFFFFFF ∧ sameRegsBut [R.LNK_EPOCH_DROP, R.PWR_LP_CTRL] d e))) ∧
  (∀ (d : Dev) (p sender seq win epoch t n : Nat), d.awake → d.portLive p = true → d.seen sender seq = false →
     (d.route sender).isSome = true →
     let w := d.window win
     w.admits sender = true → w.epoch = epoch → w.flagEn = true → d.hwFlag w.part w.arrive = some n → d.flag n < 0xFFFFFFFF →
     Completes (.arrivalMark p sender seq win epoch t) d (fun e =>
       e.flag n = d.flag n + 1 ∧ (∀ i, i ≠ n → e.flag i = d.flag i) ∧ e.out.tx = d.out.tx ++ [.reply sender .ack] ∧ e.mem = d.mem ∧
       e.regs = d.regs ∧ e.coll = d.coll))

/-- Ports (R430 to R435): enabling a port that has a neighbour starts its training; it comes up when the peer is that neighbour, else it
stays down and LNK_DOWN is raised; the first failed lane moves to the spare, a second takes the port down; a flit in order is delivered or
passed on, one that fails its CRC is asked for again, the eighth failure in succession takes the port down, and what the peer asks for again
is replayed and counted; a port that goes down is counted and reported. Choices of the model in it: log entries 142, 143, 144. -/
def Obligations.PortsTrainFailAndRecover : Prop :=
  (∀ (d : Dev) (value p : Nat), d.awake → d.full = true → p < 6 → d.portWanted p = false → bitOf value 6 = true → bitOf value p = true →
    (d.neighbour p).isSome = true →
    Completes (.lnkCtrlWrite value) d (fun e => e.f (F.LNK_PORT_STAT.STATE p) = 1 ∧ e.on F.LNK_CTRL.EN = true ∧
      e.f F.LNK_CTRL.PORT_EN = value % 64 ∧ .train p d.pkg ∈ e.out.tx ∧
      ((∀ q, q < 6 → d.portWanted q = true → bitOf value q = true) → e.lnk.windows = d.lnk.windows ∧ e.mem = d.mem ∧ e.runs = d.runs ∧
        e.ctxs = d.ctxs))) ∧
  (∀ (d : Dev) (p peer t : Nat), d.awake → d.full = true → p < 6 → d.f (F.LNK_PORT_STAT.STATE p) = 1 → d.neighbour p = some peer → peer < 32768 →
    Completes (.portTrained p peer t) d (fun e => e.f (F.LNK_PORT_STAT.STATE p) = 2 ∧ e.f (F.LNK_PORT_STAT.PEER p) = peer ∧ e.coll = d.coll ∧
      sameRegsBut [R.LNK_PORT_STAT p] d e ∧ e.mem = d.mem)) ∧
  (∀ (d : Dev) (p peer t : Nat), d.awake → d.full = true → p < 6 → d.f (F.LNK_PORT_STAT.STATE p) = 1 → d.neighbour p ≠ some peer → peer < 32768 →
    d.coll.ready = true →
    Completes (.portTrained p peer t) d (fun e => e.f (F.LNK_PORT_STAT.STATE p) = 0 ∧ e.f (F.LNK_PORT_STAT.PEER p) = peer ∧
      e.coll.pending = setBit512 d.coll.pending 0x1C1 ∧ e.mem = d.mem)) ∧
  (∀ (d : Dev) (p lane t : Nat), d.awake → d.full = true → p < 6 → lane < 4 → d.f (F.LNK_PORT_STAT.STATE p) ≠ 0 →
    d.f (F.LNK_PORT_STAT.LANE_FAIL p) = 0 → d.coll.ready = true →
    Completes (.laneFail p lane t) d (fun e => e.f (F.LNK_PORT_STAT.LANE_FAIL p) = 2 ^ lane ∧ e.f (F.LNK_PORT_STAT.SPARE_USED p) = 1 ∧
      e.f (F.LNK_PORT_STAT.STATE p) = d.f (F.LNK_PORT_STAT.STATE p) ∧ e.coll.pending = setBit512 d.coll.pending 0x1C0 ∧ e.mem = d.mem)) ∧
  (∀ (d : Dev) (p lane t : Nat), d.awake → d.full = true → p < 6 → lane < 5 → d.f (F.LNK_PORT_STAT.STATE p) ≠ 0 →
    d.f (F.LNK_PORT_STAT.LANE_FAIL p) ≠ 0 → maskHas (d.f (F.LNK_PORT_STAT.LANE_FAIL p)) lane = false → d.coll.ready = true →
    Completes (.laneFail p lane t) d (fun e => e.f (F.LNK_PORT_STAT.STATE p) = 0 ∧ e.coll.pending.getLsbD 0x1C1 = true ∧
      e.f (F.LNK_PORT_DOWNS.COUNT p) = Nat.min (d.f (F.LNK_PORT_DOWNS.COUNT p) + 1) 0xFFFFFFFF)) ∧
  (∀ (d : Dev) (p : Nat) (f : Flit), d.awake → d.portLive p = true →
    let l := (d.lnk.txBuf.getD p []).filter (fun x => decide (f.ack ≤ x.1))
    (f.again = none → f.seq = d.lnk.rxSeq.getD p 0 → f.dst = d.pkg → Does (.flitReceive p f true) d { d with
      lnk := { d.lnk with
        rxSeq := d.lnk.rxSeq.set p (d.lnk.rxSeq.getD p 0 + 1), rxFails := d.lnk.rxFails.set p 0, txBuf := d.lnk.txBuf.set p l } }) ∧
    (f.again = none → f.seq ≠ d.lnk.rxSeq.getD p 0 → Does (.flitReceive p f true) d { d with lnk := { d.lnk with txBuf := d.lnk.txBuf.set p l } }) ∧
    (∀ q, f.again = none → f.seq = d.lnk.rxSeq.getD p 0 → f.dst ≠ d.pkg → d.route f.dst = some q →
      Completes (.flitReceive p f true) d (fun e => e.out.tx = d.out.tx ++ [.forward q f] ∧ e.mem = d.mem ∧ e.regs = d.regs ∧ e.coll = d.coll)) ∧
    (∀ n, f.again = some n → f.seq ≠ d.lnk.rxSeq.getD p 0 →
      let again := l.filter (fun x => decide (n ≤ x.1))
      Completes (.flitReceive p f true) d (fun e => e.out.tx = d.out.tx ++ again.map (fun x => .flit p x.1 x.2.1 x.2.2) ∧
        e.f (F.LNK_PORT_RETRY.COUNT p) = Nat.min (d.f (F.LNK_PORT_RETRY.COUNT p) + again.length) 0xFFFFFFFF ∧
        e.lnk.rxSeq = d.lnk.rxSeq ∧ e.mem = d.mem ∧ e.coll = d.coll))) ∧
  (∀ (d : Dev) (p : Nat) (f : Flit), d.awake → d.portLive p = true →
    (d.lnk.rxFails.getD p 0 < 7 → Completes (.flitReceive p f false) d (fun e => e.out.tx = d.out.tx ++ [.flitAgain p (d.lnk.rxSeq.getD p 0)] ∧
      e.lnk.rxSeq = d.lnk.rxSeq ∧ e.mem = d.mem ∧ e.coll = d.coll)) ∧
    (d.lnk.rxFails.getD p 0 = 7 → d.coll.ready = true → Completes (.flitReceive p f false) d (fun e =>
      e.f (F.LNK_PORT_STAT.STATE p) = 0 ∧ e.coll.pending.getLsbD 0x1C1 = true ∧
      e.f (F.LNK_PORT_DOWNS.COUNT p) = Nat.min (d.f (F.LNK_PORT_DOWNS.COUNT p) + 1) 0xFFFFFFFF))) ∧
  (∀ (d : Dev) (p t : Nat), d.awake → p < 6 → d.f (F.LNK_PORT_STAT.STATE p) ≠ 0 → d.coll.ready = true →
    Completes (.portDown p t) d (fun e => e.f (F.LNK_PORT_STAT.STATE p) = 0 ∧ e.coll.pending.getLsbD 0x1C1 = true ∧
      e.f (F.LNK_PORT_DOWNS.COUNT p) = Nat.min (d.f (F.LNK_PORT_DOWNS.COUNT p) + 1) 0xFFFFFFFF ∧
      (d.ctxs = [] → d.runs.all (fun q => decide (q.2.phase ≠ .commit)) = true → e.lnk.windows = d.lnk.windows ∧ e.mem = d.mem)))

/-- Ports, streams and frames of cameras (R68 to R73, R76): LAM_PORT_CFG takes its write while EN is 0 and keeps its settings while EN is 1;
a trained link shows if its lanes suit it; APPLY brings accepted values into force or sets BAD_CFG; FS opens a frame on every stream of the
port and channel, in a free buffer and with the next sequence number, or drops it; disabling a stream discards its frame. A frame start or
end of virtual channel 4 or above is discarded and counted, and so is a header that its ECC corrected. Choices of the model in it: log
entries 55, 57, 59, 61. -/
def Obligations.CameraPortsStreamsAndFrameStart : Prop :=
  let corrected := fun (d : Dev) (p : Nat) (ecc : Bool) =>
    if ecc then Nat.min (d.f (F.LAM_PORT_ECC_CORR.COUNT p) + 1) 0xFFFFFFFF else d.f (F.LAM_PORT_ECC_CORR.COUNT p)
  (∀ (d : Dev) (p value : Nat), d.awake → p < 16 → d.on (F.LAM_PORT_CFG.EN p) = false → bits value 15 8 ≠ 0 →
    bits value 15 8 ≤ (if bits value 1 1 = 0 then 45 else 60) →
    Completes (.lamPortCfgWrite p value) d (fun e =>
      e.f (F.LAM_PORT_CFG.EN p) = bits value 0 0 ∧ e.f (F.LAM_PORT_CFG.PHY p) = bits value 1 1 ∧
      e.f (F.LAM_PORT_CFG.LANES p) = bits value 4 2 ∧ e.f (F.LAM_PORT_CFG.MAXRATE p) = bits value 15 8 ∧
      sameRegsBut [R.LAM_PORT_CFG p, R.LAM_PORT_STAT p] d e ∧ e.lam = d.lam ∧ e.mem = d.mem ∧ e.ctxs = d.ctxs)) ∧
  (∀ (d : Dev) (p value : Nat), d.awake → p < 16 → d.on (F.LAM_PORT_CFG.EN p) = true → bits value 0 0 = 0 →
    Completes (.lamPortCfgWrite p value) d (fun e =>
      e.on (F.LAM_PORT_CFG.EN p) = false ∧ e.f (F.LAM_PORT_CFG.PHY p) = d.f (F.LAM_PORT_CFG.PHY p) ∧
      e.f (F.LAM_PORT_CFG.LANES p) = d.f (F.LAM_PORT_CFG.LANES p) ∧ e.f (F.LAM_PORT_CFG.MAXRATE p) = d.f (F.LAM_PORT_CFG.MAXRATE p) ∧
      e.on (F.LAM_PORT_STAT.TRAINED p) = false ∧ e.lam = d.lam ∧ e.mem = d.mem)) ∧
  (∀ (d : Dev) (p : Nat) (up : Bool), d.awake → p < 16 → d.on (F.LAM_PORT_CFG.EN p) = true →
    Completes (.csi2LinkTrained p up) d (fun e => e.on (F.LAM_PORT_STAT.TRAINED p) = (up && d.lanesOk p) ∧
      sameRegsBut [R.LAM_PORT_STAT p] d e ∧ e.lam = d.lam ∧ e.mem = d.mem)) ∧
  (∀ (d : Dev) (n : Nat), d.awake → n < 32 → keysRise d.regs.cur = true → d.camOk (camCfg d.f n) = true → (d.strm n).frame = none →
    Completes (.strApply n) d (fun e =>
      (∀ x : Fld, R.LAM_STR_CFG n ≤ x.off → x.off < R.LAM_STR_STAT n → x.off ≠ R.LAM_STR_BUFS n → e.live x = d.f x) ∧
      e.live (F.LAM_STR_BUFS.COUNT n) = d.f (F.LAM_STR_BUFS.COUNT n) ∧ e.on (F.LAM_STR_CFG.PENDING n) = false ∧ e.lam = d.lam ∧ e.mem = d.mem)) ∧
  (∀ (d : Dev) (n : Nat), d.awake → n < 32 → d.camOk (camCfg d.f n) = true → (d.strm n).frame ≠ none →
    Completes (.strApply n) d (fun e => e.on (F.LAM_STR_CFG.PENDING n) = true ∧ e.regs.live = d.regs.live ∧ e.lam = d.lam ∧ e.mem = d.mem)) ∧
  (∀ (d : Dev) (n : Nat), d.awake → n < 32 → d.camOk (camCfg d.f n) = false →
    Does (.strApply n) d (d.set (F.LAM_STR_CFG.BAD_CFG n) 1)) ∧
  (∀ (d : Dev) (p vc t : Nat) (ecc : Bool), d.awake → d.csiLive p = true → d.lamOn = true → 4 ≤ vc →
    let counted := fun (e : Dev) => e.f (F.LAM_PORT_ECC_CORR.COUNT p) = corrected d p ecc ∧ e.f (F.LAM_PORT_HDR_ERR.COUNT p) = Nat.min (d.f (F.LAM_PORT_HDR_ERR.COUNT p) + 1) 0xFFFFFFFF ∧
      e.lam = d.lam ∧ e.mem = d.mem ∧ e.coll = d.coll
    Completes (.frameStart p vc ecc t) d counted ∧ Completes (.frameEnd p vc ecc t) d counted) ∧
  (∀ (d : Dev) (p vc t s : Nat) (ecc : Bool) (c : CamCfg), d.awake → d.csiLive p = true → d.lamOn = true → vc < 4 →
    (∀ q ∈ d.strsOf p vc, (d.strm q.1).frame = none ∧ d.on (F.LAM_STR_CFG.PENDING q.1) = false) → (s, c) ∈ d.openable p vc →
    Completes (.frameStart p vc ecc t) d (fun e =>
      e.f (F.LAM_PORT_ECC_CORR.COUNT p) = corrected d p ecc ∧
      (∀ i a, d.freeBuf s = some (i, a) → (e.strm s).frame = some ⟨i, a, (d.strm s).nextSeq, t, t, 0, 0, 0, 0, []⟩) ∧
      (d.freeBuf s = none → (e.strm s).frame = none ∧
        e.f (F.LAM_STR_DROP.COUNT s) = Nat.min (d.f (F.LAM_STR_DROP.COUNT s) + 1) 0xFFFFFFFF) ∧
      (e.strm s).nextSeq = ((d.strm s).nextSeq + 1) % 2 ^ 32 ∧ e.f (F.LAM_STR_SEQ.SEQ s) = (d.strm s).nextSeq % 2 ^ 32 ∧
      e.mem = d.mem ∧ e.ctxs = d.ctxs ∧ e.runs = d.runs)) ∧
  (∀ (d : Dev) (n : Nat), d.awake → n < 32 →
    Completes (.streamDisable n) d (fun e => e.on (F.LAM_STR_CFG.EN n) = false ∧ (e.strm n).frame = none ∧
      (e.strm n).last = (d.strm n).last ∧ (e.strm n).nextSeq = (d.strm n).nextSeq ∧ (∀ m, m ≠ n → e.strm m = d.strm m) ∧
      sameRegsBut [R.LAM_STR_CFG n] d e ∧ e.mem = d.mem ∧ e.coll = d.coll)) ∧
  (∀ (d : Dev) (l : Nat), d.awake → l < 4 →
    Completes (.streamDisable (32 + l)) d (fun e => e.on (F.LAM_LID_CFG.EN l) = false ∧ (e.strm (32 + l)).sweep = none ∧
      (∀ m, m ≠ 32 + l → e.strm m = d.strm m) ∧ sameRegsBut [R.LAM_LID_CFG l] d e ∧ e.mem = d.mem ∧ e.coll = d.coll))

/-- Lines and the ends of camera frames (R74, R75, R77, R78, R90): a line in order is stored in the next row of its frame's buffer, with its
stamp, and touches no byte outside the buffer; one that fails a filter ends its frame, sets LAST_ERR and counts; a frame with all its lines
passes, its padding up to the stride is zero, and its header is written and then its buffer is eligible, for the next roster if that is at
or after the tick; a short or late frame fails. Choices of the model in it: log entries 56, 58, 60, 72. -/
def Obligations.CameraLinesAndFrameEnds : Prop :=
  (∀ (d : Dev) (p vc dt : Nat) (ecc : Bool) (payload : List Nat) (t s : Nat) (c : CamCfg) (f : CamFrame), d.awake → d.csiLive p = true →
    d.lamOn = true → vc < 4 → dt ≠ 0x12 → csiBits dt ≠ 0 → (d.openable p vc).find? (fun q => q.2.any || q.2.dt == dt) = some (s, c) →
    (d.strm s).frame = some f → c.lineReason f dt true payload.length t = 0 → c.fmt ≠ 7 → d.leap.dieLost = [] →
    let ts := t - d.f (F.LAM_PORT_LAT.LAT_NS c.port)
    Completes (.line p vc dt ecc true true payload t) d (fun e =>
      (∃ f', (e.strm s).frame = some f' ∧ f'.lines = f.lines + 1 ∧ f'.idx = f.idx ∧ f'.addr = f.addr ∧ f'.seq = f.seq ∧ f'.lastTs = ts ∧
        f'.lastT = t) ∧
      (∀ m, m ≠ s → e.strm m = d.strm m) ∧
      (∀ a, a < f.addr ∨ f.addr + c.length ≤ a → e.mem.hbm.read a = d.mem.hbm.read a) ∧
      (d.poisonIn f.addr c.length = [] → ∀ i, i < 8 →
        e.mem.hbm.read (f.addr + 64 + 8 * f.lines + i) = BitVec.ofNat 8 ((leBytes 8 ts).getD i 0)) ∧
      (c.path = 0 → d.poisonIn f.addr c.length = [] → ∀ i, i < c.pitch →
        e.mem.hbm.read (f.addr + c.dataOfs + f.lines * c.pitch + i) = BitVec.ofNat 8 ((padTo c.pitch (c.rawBytes payload)).getD i 0)) ∧
      e.coll = d.coll ∧ e.ctxs = d.ctxs ∧ e.runs = d.runs)) ∧
  (∀ (d : Dev) (p vc dt : Nat) (ecc crcOk : Bool) (payload : List Nat) (t s : Nat) (c : CamCfg) (f : CamFrame), d.awake →
    d.csiLive p = true → d.lamOn = true → vc < 4 → dt ≠ 0x12 → csiBits dt ≠ 0 →
    (d.openable p vc).find? (fun q => q.2.any || q.2.dt == dt) = some (s, c) →
    (d.strm s).frame = some f → c.lineReason f dt crcOk payload.length t ≠ 0 → d.coll.ready = true →
    Completes (.line p vc dt ecc crcOk true payload t) d (fun e =>
      (e.strm s).frame = none ∧ (∀ m, m ≠ s → e.strm m = d.strm m) ∧
      e.f (F.LAM_STR_STAT.LAST_ERR s) = c.lineReason f dt crcOk payload.length t ∧
      e.f (F.LAM_STR_FAIL.COUNT s) = Nat.min (d.f (F.LAM_STR_FAIL.COUNT s) + 1) 0xFFFFFFFF ∧
      e.f (F.LAM_PORT_CRC_ERR.COUNT p) = (if crcOk then d.f (F.LAM_PORT_CRC_ERR.COUNT p) else
        Nat.min (d.f (F.LAM_PORT_CRC_ERR.COUNT p) + 1) 0xFFFFFFFF) ∧
      e.coll.pending = setBit512 d.coll.pending 0x140 ∧ e.mem = d.mem ∧ e.runs = d.runs)) ∧
  (∀ (d : Dev) (p vc dt : Nat) (ecc crcOk : Bool) (payload : List Nat) (t : Nat), d.awake → d.csiLive p = true → d.lamOn = true →
    Completes (.line p vc dt ecc crcOk false payload t) d (fun e =>
      (∀ s c, (s, c) ∈ d.openable p vc → (e.strm s).frame = none) ∧
      e.f (F.LAM_PORT_HDR_ERR.COUNT p) = Nat.min (d.f (F.LAM_PORT_HDR_ERR.COUNT p) + 1) 0xFFFFFFFF ∧ e.mem = d.mem)) ∧
  (∀ (d : Dev) (p vc t s : Nat) (ecc : Bool) (c : CamCfg) (f : CamFrame), d.awake → d.csiLive p = true → d.lamOn = true → vc < 4 →
    (d.strsOf p vc).filter (fun q => (d.strm q.1).frame.isSome) = [(s, c)] → (d.strm s).frame = some f →
    t ≤ f.startT + c.frameTmo * 100000 → c.h ≤ f.lines → c.fmt ≠ 7 → 1 ≤ c.h → d.leap.dieLost = [] →
    let whole := Nat.max c.length (c.units * 65536)
    Completes (.frameEnd p vc ecc t) d (fun e =>
      (e.strm s).frame = none ∧ (∀ m, m ≠ s → e.strm m = d.strm m) ∧
      (∃ b, (e.strm s).hdr = (d.strm s).hdr ++ [b] ∧ b.idx = f.idx ∧ b.addr = f.addr ∧ b.firstTs = f.firstTs ∧ b.length = c.length ∧
        b.seq = f.seq ∧ b.digest = crc64 (e.rdHbm f.addr c.length)) ∧
      (∀ a, a < f.addr ∨ f.addr + whole ≤ a → e.mem.hbm.read a = d.mem.hbm.read a) ∧
      (d.poisonIn f.addr whole = [] → sameRegsBut [R.LAM_PORT_ECC_CORR p] d e ∧ (ecc = false → e.regs = d.regs) ∧
        (∀ i, i < 64 → e.mem.hbm.read (f.addr + i) = BitVec.ofNat 8 ((c.header s f).getD i 0)) ∧
        ∀ i, c.length ≤ i → i < c.units * 65536 → e.mem.hbm.read (f.addr + i) = 0) ∧
      e.coll = d.coll ∧ e.runs = d.runs)) ∧
  (∀ (d : Dev) (p vc t s : Nat) (ecc : Bool) (c : CamCfg) (f : CamFrame), d.awake → d.csiLive p = true → d.lamOn = true → vc < 4 →
    (d.strsOf p vc).filter (fun q => (d.strm q.1).frame.isSome) = [(s, c)] → (d.strm s).frame = some f →
    t ≤ f.startT + c.frameTmo * 100000 → f.lines < c.h →
    Completes (.frameEnd p vc ecc t) d (fun e => (e.strm s).frame = none ∧ (e.strm s).hdr = (d.strm s).hdr ∧
      e.f (F.LAM_STR_STAT.LAST_ERR s) = 4 ∧ e.mem = d.mem)) ∧
  (∀ (d : Dev) (p vc t : Nat) (ecc crcOk : Bool) (payload : List Nat), d.awake → d.csiLive p = true → d.lamOn = true → vc < 4 →
    Completes (.line p vc 0x12 ecc crcOk true payload t) d (fun e =>
      e.f (F.LAM_PORT_CRC_ERR.COUNT p) = (if crcOk then d.f (F.LAM_PORT_CRC_ERR.COUNT p) else
        Nat.min (d.f (F.LAM_PORT_CRC_ERR.COUNT p) + 1) 0xFFFFFFFF) ∧ e.lam = d.lam ∧ e.mem = d.mem ∧ e.coll = d.coll)) ∧
  (∀ (d : Dev) (n t : Nat) (b : LamBuf) (bs : List LamBuf), d.awake → n < 36 → (d.strm n).hdr = b :: bs → d.mirrored b.mirror = true →
    let early := d.running = false ∨ Nat.max d.now t < d.frame.nextTick
    Completes (.frameHeaderWritten n t) d (fun e => (e.strm n).hdr = bs ∧
      (early → (e.strm n).last = some b ∧ (e.strm n).age = 0 ∧ (e.strm n).rostered = false ∧ (e.strm n).late = (d.strm n).late) ∧
      (¬ early → (e.strm n).late = some b ∧ (e.strm n).last = (d.strm n).last ∧ (e.strm n).age = (d.strm n).age) ∧
      e.f ⟨strStat n, 3, 0⟩ = b.idx % 16 ∧ e.f ⟨strStat n, 8, 8⟩ = 1 ∧ e.f ⟨strStat n, 7, 4⟩ = d.f ⟨strStat n, 7, 4⟩ ∧
      (∀ m, m ≠ n → e.strm m = d.strm m) ∧ sameRegsBut [strStat n] d e ∧ e.mem = d.mem)) ∧
  (∀ (d : Dev) (n t : Nat) (f : CamFrame), d.awake → n < 32 → (d.strm n).frame = some f → d.coll.ready = true →
    f.lastT + (camCfg d.live n).lineTmo * 1000 < t → f.lines < (camCfg d.live n).h →
    Completes (.lineTimeout n t) d (fun e => (e.strm n).frame = none ∧ e.f (F.LAM_STR_STAT.LAST_ERR n) = 1 ∧
      e.f (F.LAM_STR_FAIL.COUNT n) = Nat.min (d.f (F.LAM_STR_FAIL.COUNT n) + 1) 0xFFFFFFFF ∧
      e.coll.pending = setBit512 d.coll.pending 0x140 ∧ (∀ m, m ≠ n → e.strm m = d.strm m) ∧ e.mem = d.mem)) ∧
  (∀ (d : Dev) (n t : Nat) (f : CamFrame), d.awake → n < 32 → (d.strm n).frame = some f → d.coll.ready = true →
    f.startT + (camCfg d.live n).frameTmo * 100000 < t →
    Completes (.frameTimeout n t) d (fun e => (e.strm n).frame = none ∧ e.f (F.LAM_STR_STAT.LAST_ERR n) = 2 ∧
      e.f (F.LAM_STR_FAIL.COUNT n) = Nat.min (d.f (F.LAM_STR_FAIL.COUNT n) + 1) 0xFFFFFFFF ∧
      e.coll.pending = setBit512 d.coll.pending 0x140 ∧ (∀ m, m ≠ n → e.strm m = d.strm m) ∧ e.mem = d.mem))

/-- Lidar (R83 to R90): APPLY brings the link's accepted values into force or sets BAD_CFG; an Ethernet frame that carries a datagram of the
link goes to its parser; a datagram whose checksum fails, or that is shorter than its layout, counts as lost, and one that starts a sweep is
read under the values that take effect with it; its points are taken in order; a PACKET link stores each datagram with its time of arrival
at the next place of its sweep; a point within its limits becomes a record of 24 bytes; and a sweep whose timers run out fails. Choices of
the model in it: log entries 63, 64, 66, 68, 69, 185. -/
def Obligations.LidarSweeps : Prop :=
  (∀ (d : Dev) (l : Nat), d.awake → l < 4 → keysRise d.regs.cur = true → d.lidOk (lidCfg d.f l) = true → (d.strm (32 + l)).sweep = none →
    Completes (.lidApply l) d (fun e =>
      (∀ x : Fld, R.LAM_LID_CFG l ≤ x.off → x.off < R.LAM_LID_CFG l + 0x400 → x.off ≠ R.LAM_LID_BUFS l → e.live x = d.f x) ∧
      e.on (F.LAM_LID_CFG.PENDING l) = false ∧ e.lam = d.lam ∧ e.mem = d.mem)) ∧
  (∀ (d : Dev) (l : Nat), d.awake → l < 4 → d.lidOk (lidCfg d.f l) = true → (d.strm (32 + l)).sweep ≠ none →
    Completes (.lidApply l) d (fun e => e.on (F.LAM_LID_CFG.PENDING l) = true ∧ e.regs.live = d.regs.live ∧ e.lam = d.lam ∧ e.mem = d.mem)) ∧
  (∀ (d : Dev) (l : Nat), d.awake → l < 4 → d.lidOk (lidCfg d.f l) = false →
    Does (.lidApply l) d (d.set (F.LAM_LID_CFG.BAD_CFG l) 1)) ∧
  (∀ (d : Dev) (mac t src port : Nat) (bytes p : List Nat) (bad : Bool), d.awake → mac < 4 → bytes.length ≤ 9014 → d.lamOn = true →
    d.on (F.LAM_LID_CFG.EN mac) = true → udpOf bytes = some (src, port, p, bad) →
    (d.live (F.LAM_LID_UDP.DST_PORT mac) = 0 ∨ d.live (F.LAM_LID_UDP.DST_PORT mac) = port) →
    (d.live (F.LAM_LID_SRC_IP.SRC_IP mac) = 0 ∨ d.live (F.LAM_LID_SRC_IP.SRC_IP mac) = src) →
    let now := d.at_ t
    let start := (d.strm (32 + mac)).sweep.isNone = true ∧ (d.strm (32 + mac)).skip = false ∧ d.on (F.LAM_LID_CFG.PENDING mac) = true
    let x := if start then now.lidTake mac else now
    let c := lidCfg x.live mac
    (c.points = true → bad = false → c.need ≤ p.length → d.sweepLate mac t = 0 →
      Does (.ethernetFrame mac bytes true t) d
        (((x.modSweep (32 + mac) (fun w => { w with lastT := t })).allPoints mac p t).modSweep (32 + mac)
          (fun w => { w with packets := w.packets + 1 }))) ∧
    (∀ w, bad = true ∨ p.length < c.need → (d.strm (32 + mac)).sweep = some w → d.sweepLate mac t = 0 → w.lost < c.lossMax →
      Completes (.ethernetFrame mac bytes true t) d (fun e => (e.strm (32 + mac)).sweep = some { w with lost := w.lost + 1 } ∧
        (∀ m, m ≠ 32 + mac → e.strm m = d.strm m) ∧ e.mem = d.mem ∧ e.regs = d.regs)) ∧
    (∀ w, bad = true ∨ p.length < c.need → (d.strm (32 + mac)).sweep = some w → d.sweepLate mac t = 0 → c.lossMax ≤ w.lost →
      Completes (.ethernetFrame mac bytes true t) d (fun e => (e.strm (32 + mac)).sweep = none ∧
        e.f (F.LAM_LID_STAT.LAST_ERR mac) = 3 ∧ (∀ m, m ≠ 32 + mac → e.strm m = d.strm m) ∧ e.mem = d.mem)) ∧
    (∀ w, bad = false → c.need ≤ p.length → c.points = false → c.split = 2 → (d.strm (32 + mac)).sweep = some w → d.sweepLate mac t = 0 →
      w.used + up64 (16 + p.length) ≤ c.cap * 65536 → d.poisonIn (w.addr + 64 + w.used) (up64 (16 + p.length)) = [] →
      d.stackLost (w.addr + 64 + w.used) = false →
      Completes (.ethernetFrame mac bytes true t) d (fun e =>
        (e.strm (32 + mac)).sweep = some { w with
          lastT := t, firstTs := some (w.firstTs.getD (t - c.lat)), lastTs := t - c.lat, count := w.count + 1,
          used := w.used + up64 (16 + p.length), packets := w.packets + 1 } ∧
        e.mem.hbm = d.mem.hbm.writeBytes (w.addr + 64 + w.used)
          (padTo (up64 (16 + p.length)) (leBytes 8 t ++ leBytes 2 p.length ++ List.replicate 6 0 ++ p)) ∧
        (∀ m, m ≠ 32 + mac → e.strm m = d.strm m) ∧ e.regs = d.regs ∧ e.coll = d.coll))) ∧
  (∀ (d : Dev) (l b j t : Nat) (p : List Nat) (w : Sweep), (d.strm (32 + l)).sweep = some w →
    let c := lidCfg d.live l
    let xyz := d.coords l c b j p
    let ts := c.timeOf b j p t
    let first : Int := (w.firstTs.map (fun n => (n : Int))).getD ts
    c.field 8 = none → xyz.all (fun x => x.finite && !x.abs.gt (ofBits32 c.limit)) = true → 0 ≤ ts → ts ≤ t → (t : Int) ≤ ts + c.timeWin →
    (ts - first).natAbs ≤ 2147483647 → w.count ≠ c.maxPts → d.poisonIn (w.addr + 64 + 24 * w.count) 24 = [] →
    d.stackLost (w.addr + 64 + 24 * w.count) = false →
    ((d.takePoint l c b j p t).strm (32 + l)).sweep = some { w with
      parsed := w.parsed + 1, firstTs := some (w.firstTs.getD ts.toNat), lastTs := ts.toNat, count := w.count + 1, used := w.used + 24 } ∧
    (∀ a, a < w.addr + 64 + 24 * w.count ∨ w.addr + 64 + 24 * w.count + 24 ≤ a →
      (d.takePoint l c b j p t).mem.hbm.read a = d.mem.hbm.read a) ∧
    (∀ i, i < 3 → (d.takePoint l c b j p t).rdHbm (w.addr + 64 + 24 * w.count + 4 * i) 4 = leBytes 4 ((xyz.getD i numZero).toBits32))) ∧
  (∀ (d : Dev) (l t : Nat) (p : List Nat),
    let c := lidCfg d.live l
    c.points = true → c.split = 2 → 1 ≤ c.ppb → (d.strm (32 + l)).sweep.isSome = true →
    d.allPoints l p t = c.pointList.foldl (fun (e : Dev) q => e.takePoint l c q.1 q.2 p t) d) ∧
  (∀ (d : Dev) (l t : Nat), d.awake → l < 4 → d.sweepLate l t = 1 → d.coll.ready = true →
    Completes (.gapTimeout l t) d (fun e => (e.strm (32 + l)).sweep = none ∧ e.f (F.LAM_LID_STAT.LAST_ERR l) = 1 ∧
      e.coll.pending = setBit512 d.coll.pending 0x140 ∧ (∀ m, m ≠ 32 + l → e.strm m = d.strm m) ∧ e.mem = d.mem)) ∧
  (∀ (d : Dev) (l t : Nat) (w : Sweep), d.awake → l < 4 → (d.strm (32 + l)).sweep = some w → d.coll.ready = true →
    w.startT + (lidCfg d.live l).sweep * 100000 < t →
    Completes (.sweepTimeout l t) d (fun e => (e.strm (32 + l)).sweep = none ∧ e.f (F.LAM_LID_STAT.LAST_ERR l) = 2 ∧
      e.coll.pending = setBit512 d.coll.pending 0x140 ∧ (∀ m, m ≠ 32 + l → e.strm m = d.strm m) ∧ e.mem = d.mem))

/-- The sensor domain (R412 to R419): a grandmaster starts at 0; a follower starts at the time of its first sync, follows the rate it is
called for within 200 ppm, and raises ALM_DOMAIN_LOST when it starts free or loses sync, holding its rate; the grandmaster sends Sync with
Follow_Up, answers and sends Pdelay_Req, and sends Announce on its ports (over League Sync and the path delay alone, the latter also a
follower on its own port); and steering moves its rate by at most 100 ppb per ms, toward 0 or the selected vehicle domain. Choices of the
model in it: log entries 133, 135, 136. -/
def Obligations.SensorDomainStartsAndIsKept : Prop :=
  let started := fun (d : Dev) (v st : Nat) (e : Dev) => e.now = v ∧ e.running = true ∧ e.f F.ALM_STAT.SEN_STATE = st ∧
    e.frame.nextTick = tickFrom (d.live F.ALM_KAL_PHASE.PHASE_NS) (d.live F.ALM_KAL_PERIOD.PERIOD_NS) v ∧ sameMemory d e ∧
    e.mem.sram = d.mem.sram ∧ e.alm = d.alm ∧ e.ctxs.map Prod.fst = d.ctxs.map Prod.fst
  (∀ d : Dev, d.awake → (d.running = true → Does .sensorDomainStart d d) ∧
    (d.running = false → d.almUp = true → d.follows = false → Completes .sensorDomainStart d (fun e => started d 0 1 e ∧ e.coll.pending = d.coll.pending))) ∧
  (∀ (d : Dev) (origin t : Nat) (rate : Int), d.awake → d.follows = true → d.almUp = true → d.on F.ALM_STAT.FREE_START = false →
    (d.running = false → Completes (.followerSync origin rate t) d (fun e => started d origin 2 e ∧
      s32 (e.f F.ALM_SEN_RATE.RATE) = boundInt (-200000) 200000 rate ∧ e.coll.pending = d.coll.pending)) ∧
    (d.running = true → Completes (.followerSync origin rate t) d (fun e => e.now = Nat.max d.now t ∧ e.f F.ALM_STAT.SEN_STATE = 2 ∧
      s32 (e.f F.ALM_SEN_RATE.RATE) = boundInt (-200000) 200000 rate ∧ e.frame = d.frame ∧ e.coll = d.coll))) ∧
  (∀ d : Dev, d.awake → d.follows = true → d.almUp = true → d.running = false → Completes .followerFreeStart d (fun e =>
    started d 0 3 e ∧ e.on F.ALM_STAT.FREE_START = true ∧ e.coll.pending = setBit512 d.coll.pending 0x180)) ∧
  (∀ (d : Dev) (t : Nat), d.awake → (d.f F.ALM_STAT.SEN_STATE ≠ 2 → Does (.followerSyncLoss t) d d) ∧
    (d.f F.ALM_STAT.SEN_STATE = 2 → d.coll.ready = true → Completes (.followerSyncLoss t) d (fun e => e.f F.ALM_STAT.SEN_STATE = 3 ∧
      e.f F.ALM_SEN_RATE.RATE = d.f F.ALM_SEN_RATE.RATE ∧ e.running = d.running ∧ e.coll.pending = setBit512 d.coll.pending 0x180))) ∧
  (∀ (d : Dev) (mac seq t : Nat), d.awake →
    let hd := fun (n : Nat) => [(d.f F.ALM_CFG.GPTP_DOMAIN : Int), (n : Int), (clockIdentity mac : Int)]
    let due := fun (kind interval : Nat) => ∀ s, mfind d.alm.sent (16 * mac + kind) = some s → s + interval ≤ Nat.max d.now t
    (d.gptpOn mac = false → (d.gptpLg mac true = false → Does (.gptpSyncTransmit mac t) d d) ∧ (d.gptpLg mac false = false →
      Does (.pdelayReq mac seq t) d d ∧ Does (.pdelayReqTransmit mac t) d d) ∧ Does (.announceTransmit mac t) d d) ∧
    (d.gptpLg mac true = true → due 0 (1000000000 / 2 ^ (-d.syncLog).toNat) → Completes (.gptpSyncTransmit mac t) d (fun e =>
      e.out.tx = d.out.tx ++ [.eth mac 0 (hd (d.seqOf mac 0) ++ [d.syncLog]), .eth mac 8 (hd (d.seqOf mac 0) ++ [d.syncLog, ((Nat.max d.now t : Nat) : Int)])] ∧
      e.regs = d.regs ∧ e.mem = d.mem)) ∧
    (d.gptpLg mac false = true → due 2 1000000000 → Completes (.pdelayReqTransmit mac t) d (fun e =>
      e.out.tx = d.out.tx ++ [.eth mac 2 (hd (d.seqOf mac 2) ++ [0])] ∧ e.seqOf mac 2 = (d.seqOf mac 2 + 1) % 65536 ∧ e.regs = d.regs)) ∧
    (d.gptpOn mac = true →
      (due 0 (1000000000 / 2 ^ (-d.syncLog).toNat) → Completes (.gptpSyncTransmit mac t) d (fun e => e.out.tx = d.out.tx ++ [.eth mac 0 (hd (d.seqOf mac 0) ++ [d.syncLog]),
        .eth mac 8 (hd (d.seqOf mac 0) ++ [d.syncLog, ((Nat.max d.now t : Nat) : Int)])] ∧ e.seqOf mac 0 = (d.seqOf mac 0 + 1) % 65536 ∧
        e.regs = d.regs ∧ e.mem = d.mem)) ∧
      (¬ due 0 (1000000000 / 2 ^ (-d.syncLog).toNat) → Does (.gptpSyncTransmit mac t) d d) ∧
      Completes (.pdelayReq mac seq t) d (fun e => ∃ x : Int, (Nat.max d.now t : Nat) ≤ x ∧ e.out.tx = d.out.tx ++
        [.eth mac 3 (hd seq ++ [((Nat.max d.now t : Nat) : Int)]), .eth mac 10 (hd seq ++ [x])] ∧ e.alm = d.alm ∧ e.regs = d.regs) ∧
      (¬ due 2 1000000000 → Does (.pdelayReqTransmit mac t) d d) ∧ (¬ due 11 1000000000 → Does (.announceTransmit mac t) d d) ∧
      (due 2 1000000000 → Completes (.pdelayReqTransmit mac t) d (fun e => e.out.tx = d.out.tx ++ [.eth mac 2 (hd (d.seqOf mac 2) ++ [0])] ∧
        e.seqOf mac 2 = (d.seqOf mac 2 + 1) % 65536 ∧ e.regs = d.regs)) ∧
      (due 11 1000000000 → Completes (.announceTransmit mac t) d (fun e => e.out.tx = d.out.tx ++ [.eth mac 11 (hd (d.seqOf mac 11) ++
        [0, 248, if d.on F.ALM_CFG.STEER then 0x40 else 0xA0])] ∧ e.seqOf mac 11 = (d.seqOf mac 11 + 1) % 65536 ∧ e.regs = d.regs)))) ∧
  (∀ (d : Dev) (t : Nat), d.awake →
    let r := s32 (d.f F.ALM_SEN_RATE.RATE)
    let sel := d.f F.ALM_STAT.SELECTED
    let lim : Int := d.f F.ALM_STEER.LIMIT_PPB
    (d.f F.ALM_STAT.SEN_STATE = 1 → d.alm.steerAt + 1000000 ≤ Nat.max d.now t → -1000000 ≤ r → r ≤ 1000000 →
      Completes (.steerUpdate t) d (fun e => e.alm.steerAt = Nat.max d.now t ∧
        (d.on F.ALM_CFG.STEER = false → s32 (e.f F.ALM_SEN_RATE.RATE) = r + boundInt (-100) 100 (0 - r)) ∧
        (d.on F.ALM_CFG.STEER = true → d.domState sel = 2 ∨ d.domState sel = 3 →
          s32 (e.f F.ALM_SEN_RATE.RATE) = r + boundInt (-100) 100 (boundInt (-lim) lim (r + truncRat (d.trk sel).rate) - r)) ∧
        (d.on F.ALM_CFG.STEER = true → d.domState sel ≠ 2 → d.domState sel ≠ 3 → s32 (e.f F.ALM_SEN_RATE.RATE) = r) ∧
        sameRegsBut [R.ALM_SEN_RATE] d e ∧ e.mem = d.mem ∧ e.coll = d.coll)) ∧
    (d.f F.ALM_STAT.SEN_STATE ≠ 1 ∨ Nat.max d.now t < d.alm.steerAt + 1000000 → Does (.steerUpdate t) d (d.at_ t)))

/-- The vehicle domains (R418, R420 to R424, R429): a sample in ACQUIRE steps the model to the measured time and leads to RATE_ONLY; in
LOCKED it moves the rate by the servo, within 500 ppm; in HOLDOVER it locks again or steps; a domain without samples for LOSS_MS goes to
HOLDOVER and raises ALM_DOMAIN_LOST. A sample of another MAC, transport, delay mechanism, domain number or grandmaster is none of the
domain's. While the vehicle time is valid no sample moves it at the instant of the sample. A snapshot holds all times of one instant.
Choices of the model in it: log entries 130, 131, 132, 137. -/
def Obligations.VehicleDomainsAndTime : Prop :=
  (∀ (d : Dev) (i sec ns t : Nat) (delay : Int) (m : PtpMsg), d.awake → i < 2 → d.alm.doms.length = 2 →
    let taken := d.running = true ∧ d.on (F.ALM_DOM_CFG.EN i) = true ∧ d.f (F.ALM_DOM_CFG.PORT i) = m.mac ∧
      d.on (F.ALM_DOM_CFG.TRANSPORT i) = m.udp ∧ d.on (F.ALM_DOM_CFG.DELAY i) = m.p2p ∧ d.f (F.ALM_DOM_CFG.DOMAIN_NUM i) = m.num ∧
      (d.f (F.ALM_DOM_GM.GM i) = 0 ∨ d.f (F.ALM_DOM_GM.GM i) = m.gm) ∧ d.rst.low ≠ 2
    let now := Nat.max d.now t
    let at0 : Int := (sec * 1000000000 + ns : Nat) + delay
    let o := ((d.trk i).time now).floor - at0
    let stepped := fun (e : Dev) => e.domState i = 2 ∧ (e.trk i).time now = at0 ∧
      e.f (F.ALM_DOM_STEPS.COUNT i) = Nat.min (d.f (F.ALM_DOM_STEPS.COUNT i) + 1) 0xFFFFFFFF
    (¬ taken → Does (.vehicleSyncSample i sec ns delay m t) d d) ∧
    (taken → Completes (.vehicleSyncSample i sec ns delay m t) d (fun e => e.now = now ∧ (e.trk i).validAt = now ∧
      s32 (e.f (F.ALM_DOM_OFS.OFFSET i)) = boundInt (-2147483648) 2147483647 o ∧
      (d.domState i = 1 → stepped e) ∧
      (d.domState i = 3 →
        let n := boundInt (-2147483648) 2147483647 ((d.trk i).integ + o)
        let c := (o * d.f (F.ALM_DOM_SERVO.KP i) + n * d.f (F.ALM_DOM_SERVO.KI i)).tdiv 65536
        e.domState i = 3 ∧ (e.trk i).integ = n ∧ (e.trk i).rate = boundRat (-500000) 500000 ((d.trk i).rate - c) ∧
        (e.trk i).time now = (d.trk i).time now) ∧
      (d.domState i = 4 → if o.natAbs ≤ d.f (F.ALM_DOM_REACQ.REACQ_NS i) then e.domState i = 3 ∧ e.on F.ALM_STAT.VT_VALID = true ∧
          (e.trk i).integ = 0 ∧ (e.trk i).rate = (d.trk i).rate else stepped e) ∧
      (d.domState i = 2 → e.domState i = 3 ∨ e.domState i = 2) ∧
      (d.on F.ALM_STAT.VT_VALID = true → e.vt now = d.vt now) ∧
      e.domState (1 - i) = d.domState (1 - i) ∧ e.trk (1 - i) = d.trk (1 - i) ∧ e.mem = d.mem))) ∧
  (∀ (d : Dev) (i t : Nat), d.awake → i < 2 → d.domState i = 2 ∨ d.domState i = 3 →
    let due := (d.trk i).validAt + d.f (F.ALM_DOM_LIM.LOSS_MS i) * 1000000
    (Nat.max d.now t < due → Does (.domainLoss i t) d d) ∧
    (due ≤ Nat.max d.now t → d.coll.ready = true → Completes (.domainLoss i t) d (fun e => e.domState i = 4 ∧
      e.coll.pending.getLsbD 0x180 = true ∧ e.trk i = d.trk i ∧ e.domState (1 - i) = d.domState (1 - i) ∧
      (d.on F.ALM_STAT.VT_VALID = true → e.vt e.now = d.vt e.now)))) ∧
  (∀ (d : Dev) (i v t : Nat), d.awake → i < 2 →
    (d.on (F.ALM_DOM_CFG.EN i) = true → Completes (.reacq i) d (fun e => e.domState i = 1 ∧
      e.domState (1 - i) = d.domState (1 - i) ∧ e.mem = d.mem)) ∧
    (d.on (F.ALM_DOM_CFG.EN i) = false → Does (.reacq i) d d) ∧
    (239 < bits v 12 5 → Completes (.domainCfgWrite i false v t) d (fun e => e.on F.ALM_CFG.BAD_CFG = true ∧
      sameRegsBut [R.ALM_CFG] d e)) ∧
    (bits v 12 5 ≤ 239 → bitOf v 0 = true → d.on (F.ALM_DOM_CFG.EN i) = false → Completes (.domainCfgWrite i false v t) d (fun e =>
      e.domState i = 1 ∧ e.reg (R.ALM_DOM_CFG i) = BitVec.ofNat 64 (v % 2 ^ 13))) ∧
    (bits v 12 5 ≤ 239 → bitOf v 0 = false → d.on (F.ALM_DOM_CFG.EN i) = true → Completes (.domainCfgWrite i false v t) d (fun e =>
      e.domState i = 0 ∧ e.on (F.ALM_DOM_CFG.EN i) = false)) ∧
    (d.on (F.ALM_DOM_CFG.EN i) = false → Completes (.domainCfgWrite i true v t) d (fun e => e.f (F.ALM_DOM_GM.GM i) = v % 2 ^ 64 ∧
      e.domState i = d.domState i))) ∧
  (∀ (d : Dev) (t : Nat), d.awake →
    (d.resid (Nat.max d.now t) = 0 → Completes (.switchSlewDone t) d (fun e => e.alm.resid = 0 ∧ e.on F.ALM_STAT.SWITCHING = false ∧
      e.alm.doms = d.alm.doms)) ∧
    (d.resid (Nat.max d.now t) ≠ 0 → Does (.switchSlewDone t) d d) ∧
    Completes (.snapshot t) d (fun e =>
      let now := Nat.max d.now t
      e.f (F.ALM_SNAP.TIME 0) = now % 2 ^ 64 ∧ e.on F.ALM_SNAP_CTRL.DONE = true ∧
      e.f (F.ALM_SNAP.TIME 1) = (if d.on F.ALM_STAT.VT_VALID then internalForm (d.vt now) else 0) ∧
      (∀ i, i < 2 → e.f (F.ALM_SNAP.TIME (2 + i)) = if d.domState i < 2 then 0 else internalForm ((d.trk i).time now)) ∧
      e.alm = d.alm ∧ e.mem = d.mem))

/-- The TIO pins (R425 to R428): APPLY refuses staged values that break a rule of R426 with BAD_CFG, and otherwise puts them in force, or
pending while a pulse is out; a pulse leaves the pin at an instant of its mode, with the width in force; an edge that the mode captures
joins a FIFO of 16 entries, or is counted as lost, but a level held for less than 5 ns is no edge, and one in the cycle of an APPLY is
handled under the MODE before it; and a pop gives the oldest entry and how many are left. Choices of the model in it: log entry 134. -/
def Obligations.TriggerPins : Prop :=
  ∀ (d : Dev) (p t : Nat), d.awake → p < 8 → d.alm.tio.length = 8 →
    (d.pinBad p = true → (d.tioPin p).pulseEnd = none → Completes (.tioApply p t) d (fun e => e.on (F.ALM_TIO_CFG.BAD_CFG p) = true ∧
      e.regs.live = d.regs.live ∧ e.regs.pend = d.regs.pend ∧ e.alm = d.alm)) ∧
    (keysRise d.regs.cur = true → d.pinBad p = false → (d.tioPin p).pulseEnd = none → Completes (.tioApply p t) d (fun e =>
      e.live (F.ALM_TIO_CFG.MODE p) = d.f (F.ALM_TIO_CFG.MODE p) ∧ e.live (F.ALM_TIO_START.NS p) = d.f (F.ALM_TIO_START.NS p) ∧
      e.live (F.ALM_TIO_PERIOD.PERIOD p) = d.f (F.ALM_TIO_PERIOD.PERIOD p) ∧ e.live (F.ALM_TIO_WIDTH.WIDTH p) = d.f (F.ALM_TIO_WIDTH.WIDTH p) ∧
      e.on (F.ALM_TIO_CFG.PENDING p) = false ∧ (e.tioPin p).armedAt = Nat.max d.now t ∧ (∀ q, q ≠ p → e.tioPin q = d.tioPin q))) ∧
    (∀ x, d.pinBad p = false → (d.tioPin p).pulseEnd = some x → d.pinTime p (Nat.max d.now t : Nat) < x → Completes (.tioApply p t) d (fun e =>
      e.on (F.ALM_TIO_CFG.PENDING p) = true ∧ e.regs.live = d.regs.live ∧ e.alm = d.alm)) ∧
    (d.running = true → (d.tioPin p).pulseEnd = none → d.pinBlind p = false → ∀ v, (d.at_ t).pinInstant p = some v →
      Completes (.tioPulse p t) d (fun e =>
        e.out.tx = d.out.tx ++ [.pulse p (Nat.max d.now t) (d.pinWidth p) (d.live (F.ALM_TIO_CFG.POL p) == 0)] ∧
        (e.tioPin p).pulseEnd = some (v.toNat + d.pinWidth p) ∧ (e.tioPin p).done = true ∧ (∀ q, q ≠ p → e.tioPin q = d.tioPin q) ∧
        e.regs = d.regs ∧ e.mem = d.mem)) ∧
    (d.running = true → (d.tioPin p).pulseEnd = none → d.pinBlind p = false → (d.at_ t).pinInstant p = none →
      Does (.tioPulse p t) d (d.at_ t)) ∧
    (∀ b ns, d.running = true → (d.tioPin p).pulseEnd = none → ns < 5 → Does (.tioEdge p b ns t) d (d.at_ t)) ∧
    (∀ b ns m k, d.running = true → (d.tioPin p).pulseEnd = none → (d.tioPin p).armedAt = Nat.max d.now t → (d.tioPin p).old = some (m, k) →
      m ≠ 4 → Does (.tioEdge p b ns t) d (d.at_ t)) ∧
    (∀ b ns, d.running = true → (d.tioPin p).pulseEnd = none → 5 ≤ ns → (d.tioPin p).armedAt < Nat.max d.now t →
      d.live (F.ALM_TIO_CFG.MODE p) = 4 → maskHas (d.live (F.ALM_TIO_CFG.EDGE p)) (if b then 0 else 1) = true →
      ((d.tioPin p).fifo.length < 16 → Completes (.tioEdge p b ns t) d (fun e =>
        e.tioPin p = { d.tioPin p with fifo := (d.tioPin p).fifo ++ [(Nat.max d.now t, b)] } ∧ e.regs = d.regs)) ∧
      (16 ≤ (d.tioPin p).fifo.length → Completes (.tioEdge p b ns t) d (fun e =>
        e.f (F.ALM_TIO_CAP_LOST.COUNT p) = Nat.min (d.f (F.ALM_TIO_CAP_LOST.COUNT p) + 1) 0xFFFFFFFF ∧ e.alm = d.alm))) ∧
    ((d.tioPin p).fifo = [] → Completes (.capPop p) d (fun e => e.on (F.ALM_TIO_CAP_HI.VALID p) = false ∧ e.alm = d.alm ∧
      e.out.rdata = leBytes 4 (e.reg (R.ALM_TIO_CAP_HI p)).toNat)) ∧
    (∀ x b l, (d.tioPin p).fifo = (x, b) :: l → l.length < 16 → Completes (.capPop p) d (fun e => e.on (F.ALM_TIO_CAP_HI.VALID p) = true ∧
      e.on (F.ALM_TIO_CAP_HI.RISE p) = b ∧ e.f (F.ALM_TIO_CAP_HI.LEFT p) = l.length ∧
      e.f (F.ALM_TIO_CAP.NS p) = x % 1000000000 + x / 1000000000 % 2 ^ 32 * 2 ^ 32 ∧ e.tioPin p = { d.tioPin p with fifo := l } ∧
      e.out.rdata = leBytes 4 (e.reg (R.ALM_TIO_CAP_HI p)).toNat))

/-- The allocation of operating points (R466 to R473): from the requests, the region with the largest prediction over weight, the lowest
number on a tie, is lowered by one point until the predictions fit the budget, never beyond its floor; if they never fit, every region is at
its floor or its request and FLOOR_LIMITED is set. The result is applied to every region; a change in progress is finished first. A mean
power above the effective cap lowers the next region by one step in a ms. A partition write that is out of range or moves the floor of a
safety partition up is refused. Choices of the model in it: log entries 152, 153, 154, 155. -/
def Obligations.OperatingPointsAreAllocated : Prop :=
  (∀ (d : Dev) (opp : List Nat),
    let low := fun (r : Nat) => r ∈ d.regions ∧ opp.getD r 7 < d.regFloor r
    let w := fun (r : Nat) => d.predict r (opp.getD r 7) / (d.regWeight r : Rat)
    (d.nextLower opp = none ↔ ∀ r, ¬ low r) ∧
    ∀ q, d.nextLower opp = some q → low q ∧ (∀ r, low r → w r ≤ w q ∧ (w r = w q → q ≤ r)) ∧
      ∀ (budget : Rat) (n : Nat), ¬ (d.regions.map (fun r => d.predict r (opp.getD r 7))).foldl (· + ·) 0 ≤ budget →
        d.lowerTo budget (n + 1) opp = d.lowerTo budget n (opp.set q (opp.getD q 0 + 1))) ∧
  (∀ (d : Dev) (budget : Rat),
    let x := d.lowerTo budget 49 ((List.range 6).map d.firstOpp)
    let sum := (d.regions.map (fun r => d.predict r (x.1.getD r 7))).foldl (· + ·) 0
    (x.2 = false → sum ≤ budget) ∧
    (x.2 = true → ¬ sum ≤ budget ∧ ∀ r ∈ d.regions, d.regFloor r ≤ x.1.getD r 7) ∧
    (∀ r ∈ d.regions, d.firstOpp r ≤ x.1.getD r 7 ∧ x.1.getD r 7 ≤ Nat.max (d.firstOpp r) (d.regFloor r))) ∧
  (∀ (d : Dev) (t : Nat), d.awake → (d.tithe = false → Does (.allocation t) d (d.at_ t)) ∧
    (d.tithe = true → keysRise d.regs.cur = true → d.pwr.changing.length = 6 → d.pwr.waiting.length = 6 →
      let d1 := ((d.at_ t).stage (R.PWR_PART_CFG 0) (R.PWR_PART_CFG 16)).enforce (R.PWR_PART_CFG 0) (R.PWR_PART_CFG 16)
      let x := d1.lowerTo ((d.effCap : Rat) - d.basePower) 49 ((List.range 6).map d1.firstOpp)
      Completes (.allocation t) d (fun e =>
        (∀ f, f < 16 → e.live (F.PWR_PART_CFG.FLOOR f) = d.f (F.PWR_PART_CFG.FLOOR f)) ∧
        (∀ r ∈ d.regions, e.f (F.PWR_REG_STAT.REQ r) = d.regRequest r ∧ e.f (F.PWR_REG_STAT.FLOOR r) = d1.regFloor r ∧
          (match d.pwr.changing.getD r none with
           | some k => e.pwr.waiting.getD r none = if k = x.1.getD r 7 then none else some (x.1.getD r 7)
           | none => e.pwr.changing.getD r none = if d.pwr.opp.getD r 0 = x.1.getD r 7 then none else some (x.1.getD r 7))) ∧
        e.on F.PWR_STAT.FLOOR_LIMITED = x.2 ∧ e.pwr.opp = d.pwr.opp ∧ e.mem = d.mem ∧ e.coll = d.coll ∧ e.runs = d.runs))) ∧
  (∀ (d : Dev) (t : Nat), d.awake → d.tithe = true →
    let mean := meanRat (d.pwr.polls.map (fun p => (p : Rat)))
    (mean ≤ (d.effCap : Rat) ∨ Nat.max d.now t < d.pwr.overCapAt + 1000000 → Does (.overCapStep t) d (d.at_ t)) ∧
    (¬ mean ≤ (d.effCap : Rat) → d.pwr.overCapAt + 1000000 ≤ Nat.max d.now t → ∀ r, d.nextLower ((List.range 6).map d.oppTarget) = some r →
      Does (.overCapStep t) d ({ d.at_ t with pwr := { d.pwr with overCapAt := Nat.max d.now t } }.askOpp r (d.oppTarget r + 1)))) ∧
  (∀ (d : Dev) (r t k : Nat), d.awake → r < 6 → k < 8 → d.pwr.changing.getD r none = some k → d.pwr.opp.length = 6 →
    d.pwr.waiting.length = 6 → Completes (.oppChangeDone r t) d (fun e => e.pwr.opp = d.pwr.opp.set r k ∧ e.f (F.PWR_REG_STAT.OPP r) = k ∧
      (match d.pwr.waiting.getD r none with
       | none => e.pwr.changing.getD r none = none
       | some w => e.pwr.changing.getD r none = if w = k then none else some w) ∧ e.pwr.waiting.getD r none = none ∧
      sameRegsBut [R.PWR_REG_STAT r] d e ∧ e.mem = d.mem ∧ e.coll = d.coll)) ∧
  (∀ (d : Dev) (f v : Nat), d.awake → f < 16 →
    (bits v 13 6 = 0 → Does (.pwrPartCfgWrite .pf f v) d (d.set F.PWR_CTRL.BAD_CFG 1)) ∧
    (d.on F.FLT_CTRL.LOCK = false → d.f (F.PWR_PART_CFG.FLOOR f) < bits v 5 3 → d.safetyAny f = true →
      Does (.pwrPartCfgWrite .pf f v) d (d.set F.PWR_CTRL.BAD_CFG 1)) ∧
    (bits v 13 6 ≠ 0 → d.on F.FLT_CTRL.LOCK = true →
      Completes (.pwrPartCfgWrite .pf f v) d (fun e => e.f (F.PWR_PART_CFG.RING_OPP f) = bits v 2 0 ∧
        e.f (F.PWR_PART_CFG.FLOOR f) = d.f (F.PWR_PART_CFG.FLOOR f) ∧ e.f (F.PWR_PART_CFG.WEIGHT f) = bits v 13 6 ∧
        e.on F.PWR_CTRL.BAD_CFG = true ∧ sameRegsBut [R.PWR_PART_CFG f, R.PWR_CTRL] d e ∧ e.pwr = d.pwr ∧ e.mem = d.mem)) ∧
    (bits v 13 6 ≠ 0 → d.on F.FLT_CTRL.LOCK = false → bits v 5 3 ≤ d.f (F.PWR_PART_CFG.FLOOR f) →
      Completes (.pwrPartCfgWrite .pf f v) d (fun e => e.f (F.PWR_PART_CFG.RING_OPP f) = bits v 2 0 ∧
        e.f (F.PWR_PART_CFG.FLOOR f) = bits v 5 3 ∧ e.f (F.PWR_PART_CFG.WEIGHT f) = bits v 13 6 ∧
        sameRegsBut [R.PWR_PART_CFG f] d e ∧ e.regs.live = d.regs.live ∧ e.pwr = d.pwr ∧ e.mem = d.mem ∧ e.coll = d.coll)))

/-- Telemetry and defences (R472, R474, R476 to R478, R523): a sample keeps what the monitors say over 1 ms, and a poll sums the set's
readings and keeps the last 10; a device that stops answering leaves the set and raises PWR_ALERT; a droop counts once per stretch;
THERM_WARN rises and clears with the readings, and each step of 10 ms moves the effective cap by 5 % of CAP_W between the least cap and
CAP_W; an alert and a thermal trip force every region to OPP7 and hold for ALERT_HOLD_MS after their cause has ended. Choices of the model
in it: log entry 153. -/
def Obligations.PowerDefences : Prop :=
  (∀ (d : Dev) (mw : List (Option Nat)) (mon : List (Nat × Nat)) (t : Nat) (l : List Nat), d.awake → d.pwr.telemetry = some l →
    let gone := l.filter (fun i => (mw.getD i none).isNone)
    let pkg := sumNat (l.map (fun i => (mw.getD i none).getD 0))
    let sampled := fun (e : Dev) =>
      e.pwr.samples = d.pwr.samples.filter (fun q => decide (Nat.max d.now t < q.1 + 1000000)) ++ [(Nat.max d.now t, mon)] ∧
      (∀ r, r < d.nReg → e.f (F.PWR_REG_POWER.MW r) = e.pollMean r Prod.fst % 2 ^ 32 ∧ e.f (F.PWR_REG_EST.MW r) = e.pollMean r Prod.snd % 2 ^ 32)
    Completes (.pmbusPoll none mon t) d (fun e => sampled e ∧ e.pwr.polls = d.pwr.polls ∧ e.pwr.telemetry = d.pwr.telemetry ∧
      e.pwr.opp = d.pwr.opp ∧ e.mem = d.mem ∧ e.coll = d.coll) ∧
    Completes (.pmbusPoll (some mw) mon t) d (fun e => sampled e ∧ e.f F.PWR_PKG_POWER.MW = pkg % 2 ^ 32 ∧
      e.pwr.polls = ((d.pwr.polls ++ [pkg]).reverse.take 10).reverse ∧
      e.pwr.telemetry = some (l.filter (fun i => (mw.getD i none).isSome)) ∧ e.pwr.opp = d.pwr.opp ∧ e.mem = d.mem ∧
      (gone = [] → e.coll = d.coll) ∧
      (gone ≠ [] → d.coll.ready = true → e.coll.pending = setBit512 d.coll.pending 0x1E1))) ∧
  (∀ (d : Dev) (n t : Nat), d.awake →
    (n ∈ d.pwr.stretched → Does (.droop n t) d d) ∧
    (n ∉ d.pwr.stretched → d.domainHere n = true → d.mild 0x1E2 → d.coll.ready = true → Completes (.droop n t) d (fun e =>
      e.f F.PWR_DROOP.COUNT = Nat.min (d.f F.PWR_DROOP.COUNT + 1) 0xFFFFFFFF ∧ (n < 6 → e.on (F.PWR_REG_STAT.STRETCH n) = true) ∧
      n ∈ e.pwr.stretched ∧ e.coll.pending = setBit512 d.coll.pending 0x1E2 ∧ e.mem = d.mem ∧ e.ctxs = d.ctxs)) ∧
    (n ∈ d.pwr.stretched → Completes (.stretchEnd n t) d (fun e => n ∉ e.pwr.stretched ∧
      (n < 6 → e.on (F.PWR_REG_STAT.STRETCH n) = false) ∧ e.coll = d.coll ∧ e.mem = d.mem))) ∧
  (∀ (d : Dev) (j h : List Int) (t : Nat), d.awake →
    let hot := d.hot j h d.warnJ d.warnH
    (hot = true → d.on F.PWR_STAT.THERM_WARN = false → d.coll.ready = true → Completes (.thermalWarn j h t) d (fun e =>
      e.on F.PWR_STAT.THERM_WARN = true ∧ e.coll.pending = setBit512 d.coll.pending 0x1E3 ∧
      (∀ r, r < d.nReg → e.f (F.PWR_REG_STAT.TEMP_C r) = ofSigned 8 (j.getD r 0)) ∧ e.mem = d.mem ∧ e.pwr.opp = d.pwr.opp)) ∧
    (hot = true → d.on F.PWR_STAT.THERM_WARN = true → Does (.thermalWarn j h t) d (d.sense j h t)) ∧
    (hot = false → Does (.thermWarnClear j h t) d ((d.sense j h t).set F.PWR_STAT.THERM_WARN 0)) ∧
    (Nat.max d.now t < d.pwr.capStepAt + 10000000 → Does (.thermCapStep j h t) d (d.sense j h t)) ∧
    (d.on F.PWR_STAT.THERM_WARN = true → d.pwr.capStepAt + 10000000 ≤ Nat.max d.now t → Completes (.thermCapStep j h t) d (fun e =>
      e.effCap = Nat.max (d.effCap - 50 * d.f F.PWR_CTRL.CAP_W) (Nat.min (d.f F.PWR_CTRL.CAP_W) d.capMin * 1000) ∧
      e.f F.PWR_STAT.EFF_CAP_W = e.effCap / 1000 ∧ e.coll = d.coll ∧ e.mem = d.mem)) ∧
    (d.on F.PWR_STAT.THERM_WARN = false → d.hot j h (d.warnJ - 2) (d.warnH - 2) = false → d.pwr.capStepAt + 10000000 ≤ Nat.max d.now t →
      Completes (.thermCapStep j h t) d (fun e =>
      e.effCap = Nat.min (d.effCap + 50 * d.f F.PWR_CTRL.CAP_W) (d.f F.PWR_CTRL.CAP_W * 1000) ∧
      e.f F.PWR_STAT.EFF_CAP_W = e.effCap / 1000 ∧ e.coll = d.coll ∧ e.mem = d.mem))) ∧
  (∀ (d : Dev) (j h : List Int) (t : Nat), d.awake → d.coll.ready = true → d.pwr.opp.length = 6 →
    let low := fun (e : Dev) => (∀ r ∈ d.regions, e.pwr.opp.getD r 0 = 7 ∧ e.f (F.PWR_REG_STAT.OPP r) = 7) ∧
      e.pwr.changing = List.replicate 6 none ∧ e.pwr.waiting = List.replicate 6 none ∧ e.mem = d.mem ∧ e.ctxs = d.ctxs
    (d.pwr.alertCause = false → Completes (.pwrAlert t) d (fun e => low e ∧ e.on F.PWR_STAT.ALERT = true ∧ e.pwr.alertCause = true ∧
      e.pwr.alertHold = none ∧ e.coll.pending = setBit512 d.coll.pending 0x1E1)) ∧
    (d.pwr.tripCause = false → d.hot j h 115 105 = true → Completes (.thermalTrip j h t) d (fun e => low e ∧
      e.on F.PWR_STAT.TRIP = true ∧ e.pwr.tripCause = true ∧ e.pwr.tripHold = none ∧ e.coll.pending = setBit512 d.coll.pending 0x1E4))) ∧
  (∀ (d : Dev) (j h : List Int) (t : Nat), d.awake →
    let due := Nat.max d.now t + d.f F.PWR_CTRL.ALERT_HOLD_MS * 1000000
    (d.pwr.alertCause = true → Does (.pwrAlertRelease t) d { d.at_ t with pwr := { d.pwr with alertCause := false, alertHold := some due } }) ∧
    (d.pwr.tripCause = true → d.hot j h 115 105 = false → Completes (.tripCauseEnd j h t) d (fun e =>
      e.pwr.tripCause = false ∧ e.pwr.tripHold = some due ∧ e.on F.PWR_STAT.TRIP = d.on F.PWR_STAT.TRIP ∧ e.pwr.opp = d.pwr.opp ∧
      e.coll = d.coll)) ∧
    (∀ x, d.pwr.alertHold = some x → Nat.max d.now t < x → Does (.forcingHoldExpiry false t) d d) ∧
    (∀ x, d.pwr.alertHold = some x → x ≤ Nat.max d.now t → Completes (.forcingHoldExpiry false t) d (fun e =>
      e.on F.PWR_STAT.ALERT = false ∧ e.pwr.alertHold = none ∧ e.on F.PWR_STAT.TRIP = d.on F.PWR_STAT.TRIP ∧
      (d.on F.PWR_STAT.TRIP = true → e.pwr.changing = d.pwr.changing) ∧ e.pwr.opp = d.pwr.opp ∧ e.coll = d.coll)) ∧
    (∀ x, d.pwr.tripHold = some x → x ≤ Nat.max d.now t → Completes (.forcingHoldExpiry true t) d (fun e =>
      e.on F.PWR_STAT.TRIP = false ∧ e.pwr.tripHold = none ∧ e.on F.PWR_STAT.ALERT = d.on F.PWR_STAT.ALERT ∧
      (d.on F.PWR_STAT.ALERT = true → e.pwr.changing = d.pwr.changing) ∧ e.pwr.opp = d.pwr.opp ∧ e.coll = d.coll)))

/-- The update (R485, R486, R494 to R497): VERIFY stages the image, and its check leaves it verified or names the reason; WRITE programs the
image slot, and the readback keeps or refuses it; ACTIVATE needs a standby pair and, with modules loaded, the same native interface, and in
boot-over-link starts the image at once; HANDOVER, at a tick, makes the staged image the running one on the other pair. A command in a state
that does not list it fails with STATE, and one given while BUSY is ignored. Choices of the model in it: log entries 157, 158, 160. -/
def Obligations.UpdatesAreVerifiedWrittenAndActivated : Prop :=
  let failed := fun (e : Dev) (n : Nat) => e.on F.SEC_UPD_STAT.FAILED = true ∧ e.f F.SEC_UPD_STAT.ERR = n
  (∀ d : Dev, d.awake → d.on F.SEC_UPD_CTRL.BUSY = true → (∀ mem, Does (.verify mem) d d) ∧ Does .updWrite d d ∧ Does .activate d d) ∧
  (∀ d : Dev, d.awake → d.on F.SEC_UPD_CTRL.BUSY = false →
    let st := d.f F.SEC_UPD_STAT.STATE
    let staged := d.sec.staging.take (bfield d.sec.staging 8 4)
    (st ∈ [0, 2, 4, 6] → d.poisonIn (d.f F.SEC_UPD_SRC.ADDR) (d.f F.SEC_UPD_LEN.LENGTH) = [] → Completes (.verify []) d (fun e => e.f F.SEC_UPD_STAT.STATE = 1 ∧ e.on F.SEC_UPD_CTRL.BUSY = true ∧
      e.sec.staging = d.rdHbm (d.f F.SEC_UPD_SRC.ADDR) (d.f F.SEC_UPD_LEN.LENGTH) ∧ e.sec.flash = d.sec.flash ∧
      e.sec.running = d.sec.running ∧ e.mem = d.mem)) ∧
    (∀ g l, st ∈ [0, 2, 4, 6] → d.poisonIn (d.f F.SEC_UPD_SRC.ADDR) (d.f F.SEC_UPD_LEN.LENGTH) = g :: l → d.coll.ready = true →
      Completes (.verify []) d (fun e => e.on F.SEC_UPD_STAT.FAILED = true ∧ e.f F.SEC_UPD_STAT.STATE = 0 ∧ e.sec = d.sec ∧
        e.coll.pending = setBit512 d.coll.pending 0x004 ∧ e.mem.hbm = d.mem.hbm)) ∧
    (st ∈ [0, 2, 4, 6] → ∀ mem, Does (.verify mem) d
      (d.met accRead [(d.f F.SEC_UPD_SRC.ADDR, d.f F.SEC_UPD_LEN.LENGTH)] mem
        (fun e => e.stageImage (d.f F.SEC_UPD_SRC.ADDR) (d.f F.SEC_UPD_LEN.LENGTH)))) ∧
    (st ∉ [0, 2, 4, 6] → ∀ mem, Completes (.verify mem) d (fun e => failed e 0x0C ∧ e.f F.SEC_UPD_STAT.STATE = st ∧ e.sec = d.sec)) ∧
    (st = 2 → Completes .updWrite d (fun e => e.f F.SEC_UPD_STAT.STATE = 3 ∧ e.on F.SEC_UPD_CTRL.BUSY = true ∧
      e.sec.staging = d.sec.staging ∧ e.sec.running = d.sec.running)) ∧
    (st ≠ 2 → Completes .updWrite d (fun e => failed e 0x0C ∧ e.sec = d.sec)) ∧
    (st = 2 ∨ st = 4 → d.sec.overLink = false →
      (d.safe.standby = true → (imgAbi (some staged) = imgAbi d.sec.running ∨ d.mods = []) → Completes .activate d (fun e =>
        e.f F.SEC_UPD_STAT.STATE = 5 ∧ e.on F.SEC_UPD_CTRL.BUSY = true ∧ e.sec.from_ = st ∧ e.sec.running = d.sec.running)) ∧
      (d.safe.standby = false → Completes .activate d (fun e => failed e 0x0B ∧ e.f F.SEC_UPD_STAT.STATE = st ∧ e.sec = d.sec)) ∧
      (d.safe.standby = true → imgAbi (some staged) ≠ imgAbi d.sec.running → d.mods ≠ [] → Completes .activate d (fun e =>
        failed e 0x0A ∧ e.f F.SEC_UPD_STAT.STATE = st ∧ e.sec = d.sec))) ∧
    (st = 2 ∨ st = 4 → d.sec.overLink = true → Completes .activate d (fun e => e.sec.overLink = false ∧ e.coll.ready = true ∧
      e.sec.running = some staged ∧ e.rst.linkUp = false ∧ e.f F.SEC_UPD_STAT.STATE = 0)) ∧
    (st ∉ [2, 4] → Completes .activate d (fun e => failed e 0x0C ∧ e.sec = d.sec))) ∧
  (∀ d : Dev, d.awake → d.f F.SEC_UPD_STAT.STATE = 1 →
    (d.imageErr d.sec.staging = 0 → Completes .verifyDone d (fun e => e.f F.SEC_UPD_STAT.STATE = 2 ∧ e.on F.SEC_UPD_CTRL.BUSY = false ∧
      e.sec = d.sec)) ∧
    (d.imageErr d.sec.staging ≠ 0 → Completes .verifyDone d (fun e => e.f F.SEC_UPD_STAT.STATE = 0 ∧ e.on F.SEC_UPD_CTRL.BUSY = false ∧
      failed e (d.imageErr d.sec.staging) ∧ e.sec = d.sec))) ∧
  (∀ d : Dev, d.awake → d.f F.SEC_UPD_STAT.STATE = 3 →
    Completes (.writeDone true) d (fun e => e.f F.SEC_UPD_STAT.STATE = 4 ∧ e.on F.SEC_UPD_CTRL.BUSY = false ∧
      e.sec.flash = some (d.sec.staging.take (bfield d.sec.staging 8 4))) ∧
    Completes (.writeDone false) d (fun e => e.f F.SEC_UPD_STAT.STATE = 2 ∧ e.on F.SEC_UPD_CTRL.BUSY = false ∧ failed e 0x09 ∧
      e.sec = d.sec)) ∧
  (∀ (d : Dev) (t : Nat), d.awake → d.f F.SEC_UPD_STAT.STATE = 5 → d.safe.standby = true →
    let staged := d.sec.staging.take (bfield d.sec.staging 8 4)
    ((d.at_ t).tickNow = false → Does (.handover t) d d) ∧
    ((d.at_ t).tickNow = true → Completes (.handover t) d (fun e => e.f F.SEC_UPD_STAT.STATE = 6 ∧ e.on F.SEC_UPD_CTRL.BUSY = false ∧ e.sec.running = some staged ∧
      (∀ i, i < 8 → e.f (F.SEC_RUN_DIGEST.DIGEST i) = bfield (sha256 staged) (4 * i) 4 % 2 ^ 32) ∧
      e.safe.pair = 1 - d.safe.pair ∧ e.leap.oldCode = d.liveUnits ∧ e.mods = d.mods ∧ e.runs = d.runs ∧ e.mem = d.mem))) ∧
  (∀ (d : Dev) (b : List Nat), d.imageErr b = 0 → imgHeaderOk b = true ∧ maskHas (b.getD 13 0) d.variantBit = true ∧
    keyHash (bfield b 64 384) (bfield b 448 4) = d.fuses.vendorKeyHash ∧ d.fuses.svn ≤ b.getD 7 0 ∧
    (d.fuses.intKeyEn = true → d.fuses.intRequire = true →
      b.getD 6 0 = 1 ∧ keyHash (bfield b 512 384) (bfield b 896 4) = d.fuses.intKeyHash))

/-- Fuses, anti-rollback, attestation and signature requirements (R482, R488, R491, R493): a fuse once blown stays, and after PROVISIONED
none is blown; SVN_FUSE only rises, to the version of the running image; ATTEST takes the report as it stands, and its end writes report and
signature to an aligned place of partition 0, or gives ALIGN or BOUNDS; a requirement that a loaded unsigned module breaks is refused.
Choices of the model in it: log entry 161. -/
def Obligations.FusesAttestationAndSignatures : Prop :=
  (∀ d : Dev, d.awake →
    (d.fuses.provisioned = true ∨ d.on F.SEC_FUSE_PROG.BUSY = true → Does .fuseGo d d) ∧
    (d.fuses.provisioned = false → d.on F.SEC_FUSE_PROG.BUSY = false → Completes .fuseGo d (fun e =>
      e.sec.fuse = some (d.f F.SEC_FUSE_PROG.FIELD, (List.range 8).flatMap (fun i => leBytes 4 (d.f (F.SEC_ATT_NONCE.NONCE i)))) ∧
      e.on F.SEC_FUSE_PROG.BUSY = true ∧ e.fuses = d.fuses)) ∧
    (∀ field nonce, d.sec.fuse = some (field, nonce) → Completes .fuseBlowDone d (fun e =>
      e.on F.SEC_FUSE_PROG.BUSY = false ∧ e.sec.fuse = none ∧
      e.fuses = (if field = 0 then { d.fuses with intKeyHash := List.zipWith (fun a b => a ||| b) d.fuses.intKeyHash nonce }
        else if field = 1 then { d.fuses with intKeyEn := true }
        else if field = 2 then { d.fuses with intRequire := true } else { d.fuses with provisioned := true })))) ∧
  (∀ d : Dev, d.awake →
    (imgSvn d.sec.running ≤ d.fuses.svn → Does .svnCommit d d) ∧
    (d.fuses.svn < imgSvn d.sec.running → d.on F.SEC_SVN.BUSY = false → Completes .svnCommit d (fun e =>
      e.sec.svn = some (imgSvn d.sec.running) ∧ e.on F.SEC_SVN.BUSY = true ∧ e.fuses = d.fuses)) ∧
    (∀ n, d.sec.svn = some n → Completes .svnBlowDone d (fun e => e.fuses = { d.fuses with svn := Nat.max d.fuses.svn n } ∧
      e.on F.SEC_SVN.BUSY = false ∧ e.sec.svn = none))) ∧
  (∀ d : Dev, d.awake →
    (d.on F.SEC_ATT_CTRL.BUSY = true → Does .attest d d) ∧
    (d.on F.SEC_ATT_CTRL.BUSY = false → Completes .attest d (fun e => e.sec.att = some (d.report, d.f F.SEC_ATT_DST.ADDR) ∧
      e.on F.SEC_ATT_CTRL.BUSY = true ∧ e.mem = d.mem)) ∧
    (∀ body dst, d.sec.att = some (body, dst) →
      (dst % 64 ≠ 0 → Completes .attestDone d (fun e => e.f F.SEC_ATT_CTRL.STATUS = stAlign ∧ e.on F.SEC_ATT_CTRL.BUSY = false ∧
        e.mem = d.mem)) ∧
      (dst % 64 = 0 → d.inPart 0 dst (body.length + 384) = false → Completes .attestDone d (fun e =>
        e.f F.SEC_ATT_CTRL.STATUS = stBounds ∧ e.on F.SEC_ATT_CTRL.BUSY = false ∧ e.mem = d.mem)) ∧
      (dst % 64 = 0 → d.inPart 0 dst (body.length + 384) = true → d.mem.poison = [] → d.stackLost dst = false → Completes .attestDone d (fun e =>
        e.f F.SEC_ATT_CTRL.STATUS = stOk ∧ e.on F.SEC_ATT_CTRL.BUSY = false ∧
        (∀ i, i < body.length → e.mem.hbm.read (dst + i) = BitVec.ofNat 8 (body.getD i 0)) ∧
        (∀ i, i < 384 → e.mem.hbm.read (dst + body.length + i) = Config.identitySignature (body.map (BitVec.ofNat 8)) i) ∧
        ∀ a, a < dst ∨ dst + body.length + 384 ≤ a → e.mem.hbm.read a = d.mem.hbm.read a)))) ∧
  (∀ (d : Dev) (v : Nat), d.awake → bitOf v 16 = false →
    let breaks := fun (m : Module) => m.signed = false ∧ maskHas (v % 65536) m.part = true ∧ maskHas (d.f F.SEC_SIGREQ.REQ) m.part = false
    (d.on F.FLT_CTRL.LOCK = true ∨ (∃ m ∈ d.mods, breaks m.2) → Does (.sigreqWrite .pf v) d (d.set F.SEC_SIGREQ.BAD_CFG 1)) ∧
    (d.on F.FLT_CTRL.LOCK = false → (∀ m ∈ d.mods, ¬ breaks m.2) →
      Completes (.sigreqWrite .pf v) d (fun e => e.f F.SEC_SIGREQ.REQ = v % 65536 ∧ sameRegsBut [R.SEC_SIGREQ] d e)))

/-- Sessions of the replay decoder (R448 to R452, R457): START is refused with BAD_CFG and the status of the first failed check, or opens
the session; STOP ends it; a lane takes the next position while its slot is free, with a budget from the running average; a sample of which
a granule is uncorrectable fails (R141); an emission that completes within its budget, and a placeholder when it does not, write their slot
and are flagged in order, each counted by its status. Choices of the model in it: log entries 22, 146, 147, 150, 151, 172, 183. -/
def Obligations.ReplaySessionsEmitInOrder : Prop :=
  (∀ (d : Dev) (t : Nat), d.awake → d.full = true →
    (d.on F.RPL_CTRL.BUSY = true → Does (.rplStart t) d (d.set F.RPL_CTRL.BAD_CFG 1)) ∧
    (d.on F.RPL_CTRL.BUSY = false → d.startStatus ≠ stOk → Completes (.rplStart t) d (fun e =>
      e.f F.RPL_CTRL.ERR_CODE = d.startStatus ∧ e.on F.RPL_CTRL.BAD_CFG = true ∧ e.on F.RPL_CTRL.BUSY = false ∧
      sameRegsBut [R.RPL_CTRL] d e ∧ e.rpl = d.rpl)) ∧
    (d.on F.RPL_CTRL.BUSY = false → d.startStatus = stOk → Completes (.rplStart t) d (fun e => e.on F.RPL_CTRL.BUSY = true ∧
      e.f F.RPL_POS.NEXT = 0 ∧ (∀ k, k < 2 → e.f (F.RPL_AVG.AVG_NS k) = d.f F.RPL_INIT.INIT_NS) ∧
      e.rpl.next = 0 ∧ e.rpl.flagged = 0 ∧ e.rpl.pos = d.f F.RPL_FIRST.FIRST ∧ e.rpl.lanes = [none, none, none, none] ∧
      e.rpl.ready = [] ∧ e.rpl.c0 = d.partFlag (d.f F.RPL_FLAG.CONS_FLAG) ∧ e.mem = d.mem ∧ e.flags = d.flags)) ∧
    Completes .rplStop d (fun e => e.on F.RPL_CTRL.BUSY = false ∧ e.rpl.lanes = [none, none, none, none] ∧ e.rpl.ready = [] ∧
      sameRegsBut [R.RPL_CTRL] d e ∧ e.mem = d.mem ∧ e.flags = d.flags)) ∧
  (∀ d : Dev, d.startStatus = stOk → d.f F.RPL_FMT.OUT_FMT ≠ 1 ∧ d.f F.RPL_FMT.OUT_FMT ≠ 7 ∧ d.f F.RPL_COUNT.N ≠ 0 ∧
    d.f F.RPL_FIRST.FIRST < d.f F.RPL_COUNT.N ∧ d.rplRange = true ∧ d.f F.RPL_OUT.ADDR % 65536 = 0 ∧
    d.rplHbm (d.f F.RPL_OUT.ADDR) (d.f F.RPL_SLOTS.COUNT * d.slotBytes) = true) ∧
  (∀ (d : Dev) (lane t : Nat), d.awake → lane < 4 → d.rpl.lanes.length = 4 → d.rplOn = true →
    let n := d.f F.RPL_COUNT.N
    let busy := n ≤ d.rpl.pos ∨ (d.rpl.lanes.getD lane none).isSome = true ∨ d.slotFree d.rpl.next = false
    (busy → Does (.laneSampleStart lane t []) d d) ∧
    (¬ busy → Completes (.laneSampleStart lane t []) d (fun e => e.rpl.next = d.rpl.next + 1 ∧
      (d.rpl.pos + 1 < n ∨ d.on F.RPL_CTRL.LOOP = false → e.rpl.pos = d.rpl.pos + 1 ∧ e.regs = d.regs) ∧
      (d.rpl.pos + 1 = n → d.on F.RPL_CTRL.LOOP = true → e.rpl.pos = 0 ∧
        e.f F.RPL_EPOCH.EPOCH = (d.f F.RPL_EPOCH.EPOCH + 1) % 2 ^ 32) ∧
      (∃ x, e.rpl.lanes = d.rpl.lanes.set lane (some x) ∧ x.q = d.rpl.next ∧ x.pos = d.rpl.pos ∧ x.epoch = d.f F.RPL_EPOCH.EPOCH ∧
        x.started = Nat.max d.now t ∧ (d.on F.RPL_CTRL.MODE = false → x.sample = d.rpl.pos) ∧
        (d.on F.RPL_CTRL.MODE = true → x.sample = shuffle (rplKey (d.f F.RPL_SEED.SEED) x.epoch) n d.rpl.pos) ∧
        x.budget = Nat.min (d.f F.RPL_BUDGET.MULT * d.f (F.RPL_AVG.AVG_NS (x.entry.getD 12 0 % 2))) (d.f F.RPL_BUDGET.CEIL_MS * 1000000)) ∧
      e.mem = d.mem ∧ e.flags = d.flags)) ∧
    (¬ busy → ∀ x mem, (d.laneBegin lane t).rpl.lanes.getD lane none = some x →
      Does (.laneSampleStart lane t mem) d ((d.laneBegin lane t).met accFetch (d.tableReads x) mem
        (fun e => e.met accRead (d.streamReads x) (mem.filter MemErr.hbm) (fun e => e))))) ∧
  (∀ (d : Dev) (lane t g acc : Nat) (x : Lane), d.awake → d.rplOn = true → d.rpl.lanes.getD lane none = some x → d.samplePoison x = some (g, acc) →
    Nat.max d.now t ≤ x.started + x.budget + 1 → d.coll.ready = true →
    ((d.at_ t).sampleOf x).status ≠ stOk ∧ ((d.at_ t).sampleOf x).data = [] ∧
    Completes (.emission lane t) d (fun e => e.coll.pending.getLsbD 0x004 = true ∧ e.rpl.lanes = d.rpl.lanes.set lane none)) ∧
  (∀ (d : Dev) (lane t : Nat) (x : Lane), d.awake → d.rplOn = true → d.rpl.lanes.getD lane none = some x → d.rpl.ready = [] →
    d.mem.poison = [] → d.leap.dieLost = [] →
    let now := Nat.max d.now t
    let slot := d.f F.RPL_OUT.ADDR + x.q % d.f F.RPL_SLOTS.COUNT * d.slotBytes
    let kind := x.entry.getD 12 0 % 2
    let done := fun (s : Sample) (e : Dev) => e.rpl.lanes = d.rpl.lanes.set lane none ∧
      (∀ i, i < s.data.length → e.mem.hbm.read (slot + 64 + i) = BitVec.ofNat 8 (s.data.getD i 0)) ∧
      e.mem.hbm.read (slot + 28) = BitVec.ofNat 8 (s.status % 256) ∧
      (∀ a, a < slot ∨ slot + 64 + s.data.length ≤ a → e.mem.hbm.read a = d.mem.hbm.read a) ∧
      (x.q ≠ d.rpl.flagged → e.flags = d.flags ∧ e.rpl.flagged = d.rpl.flagged ∧ e.rpl.ready = [(x.q, s.status, kind, now - x.started)] ∧
        e.regs = d.regs) ∧
      (x.q = d.rpl.flagged → e.rpl.flagged = d.rpl.flagged + 1 ∧ e.rpl.ready = [] ∧ e.f F.RPL_POS.NEXT = (d.rpl.flagged + 1) % 2 ^ 32 ∧
        (∀ k, d.hwFlag d.rplPart (d.f F.RPL_FLAG.OUT_FLAG) = some k → e.flag k = Nat.min (d.flag k + 1) 0xFFFFFFFF) ∧
        (s.status = stLate → e.f F.RPL_LATE.COUNT = Nat.min (d.f F.RPL_LATE.COUNT + 1) 0xFFFFFFFF) ∧
        (s.status = stDim → e.f F.RPL_IMPL.COUNT = Nat.min (d.f F.RPL_IMPL.COUNT + 1) 0xFFFFFFFF) ∧
        (s.status ≠ stOk → s.status ≠ stLate → s.status ≠ stDim →
          e.f F.RPL_ERR.COUNT = Nat.min (d.f F.RPL_ERR.COUNT + 1) 0xFFFFFFFF) ∧
        (s.status = stOk → e.f (F.RPL_AVG.AVG_NS kind) = ((d.f (F.RPL_AVG.AVG_NS kind) : Int) +
          (((now - x.started : Nat) : Int) - d.f (F.RPL_AVG.AVG_NS kind)).tdiv 16).toNat % 2 ^ 32))
    (x.started + x.budget + 1 < now → Does (.emission lane t) d d) ∧
    (now ≤ x.started + x.budget + 1 → Completes (.emission lane t) d (done ((d.at_ t).sampleOf x))) ∧
    (now < x.started + x.budget + 1 → Does (.late lane t) d d) ∧
    (x.started + x.budget + 1 ≤ now → Completes (.late lane t) d (done (badSample stLate))))
end

