-- ==== Sys2Proof/Laws/Maps.lean ====
section
/-!
SUPPORT. The laws of the sparse tables: a read after a write gives the value written, and every other key is left alone.
-/
namespace Sys2Proof.Machine

variable {α : Type}

theorem mget_mset_same (d : α) (m : List (Nat × α)) (k : Nat) (v : α) : mget d (mset m k v) k = v := by
  induction m with
  | nil => simp [mset, mget]
  | cons p m ih =>
    obtain ⟨j, w⟩ := p
    by_cases h1 : k < j
    · simp [mset, mget, h1]
    · by_cases h2 : k = j
      · simp [mset, mget, h2]
      · simp [mset, mget, h1, h2, Ne.symm h2, ih]

theorem mget_mset_ne (d : α) (m : List (Nat × α)) (k i : Nat) (v : α) (h : i ≠ k) : mget d (mset m k v) i = mget d m i := by
  induction m with
  | nil => simp [mset, mget, Ne.symm h]
  | cons p m ih =>
    obtain ⟨j, w⟩ := p
    by_cases h1 : k < j
    · simp [mset, mget, h1, Ne.symm h]
    · by_cases h2 : k = j
      · subst h2; simp [mset, mget, Ne.symm h]
      · by_cases h3 : j = i
        · subst h3; simp [mset, mget, h1, h2]
        · simp [mset, mget, h1, h2, h3, ih]

theorem mget_merase_same (d : α) (m : List (Nat × α)) (k : Nat) : mget d (merase m k) k = d := by
  induction m with
  | nil => simp [merase, mget]
  | cons p m ih =>
    obtain ⟨j, w⟩ := p
    by_cases h : j = k
    · simpa [merase, h] using ih
    · simp only [merase, List.filter_cons, bne_iff_ne, ne_eq, h, not_false_iff, if_true, mget, if_false] at ih ⊢
      exact ih

theorem mget_merase_ne (d : α) (m : List (Nat × α)) (k i : Nat) (h : i ≠ k) : mget d (merase m k) i = mget d m i := by
  induction m with
  | nil => simp [merase, mget]
  | cons p m ih =>
    obtain ⟨j, w⟩ := p
    by_cases hj : j = k
    · subst hj
      simp only [merase, List.filter_cons, bne_self_eq_false, Bool.false_eq_true, if_false, mget, Ne.symm h] at ih ⊢
      exact ih
    · simp only [merase, List.filter_cons, bne_iff_ne, ne_eq, hj, not_false_iff, if_true, mget] at ih ⊢
      rw [ih]

/-- A read after a write gives the value written. -/
@[simp] theorem mget_mput_same [DecidableEq α] (d : α) (m : List (Nat × α)) (k : Nat) (v : α) : mget d (mput d m k v) k = v := by
  unfold mput
  split
  · next h => rw [mget_merase_same, h]
  · exact mget_mset_same d m k v

/-- A write leaves every other key alone. -/
theorem mget_mput_ne [DecidableEq α] (d e : α) (m : List (Nat × α)) (k i : Nat) (v : α) (h : i ≠ k) :
    mget e (mput d m k v) i = mget e m i := by
  unfold mput
  split
  · exact mget_merase_ne e m k i h
  · exact mget_mset_ne e m k i v h

theorem mfind_mmod_same (m : List (Nat × α)) (k : Nat) (f : α → α) : mfind (mmod m k f) k = (mfind m k).map f := by
  induction m with
  | nil => simp [mmod, mfind]
  | cons p m ih =>
    obtain ⟨j, w⟩ := p
    by_cases h : j = k
    · simp [mmod, mfind, h]
    · simpa [mmod, mfind, h] using ih

theorem mfind_mmod_ne (m : List (Nat × α)) (k i : Nat) (f : α → α) (h : i ≠ k) : mfind (mmod m k f) i = mfind m i := by
  induction m with
  | nil => simp [mmod, mfind]
  | cons p m ih =>
    obtain ⟨j, w⟩ := p
    by_cases hj : j = k
    · subst hj; simpa [mmod, mfind, Ne.symm h] using ih
    · by_cases hi : j = i
      · subst hi; simp [mmod, mfind, hj]
      · simpa [mmod, mfind, hj, hi] using ih

theorem mfind_mset_same (m : List (Nat × α)) (k : Nat) (v : α) : mfind (mset m k v) k = some v := by
  induction m with
  | nil => simp [mset, mfind]
  | cons p m ih =>
    obtain ⟨j, w⟩ := p
    by_cases h1 : k < j
    · simp [mset, mfind, h1]
    · by_cases h2 : k = j
      · simp [mset, mfind, h2]
      · simp [mset, mfind, h1, h2, Ne.symm h2, ih]

theorem mfind_mset_ne (m : List (Nat × α)) (k i : Nat) (v : α) (h : i ≠ k) : mfind (mset m k v) i = mfind m i := by
  induction m with
  | nil => simp [mset, mfind, Ne.symm h]
  | cons p m ih =>
    obtain ⟨j, w⟩ := p
    by_cases h1 : k < j
    · simp [mset, mfind, h1, Ne.symm h]
    · by_cases h2 : k = j
      · subst h2; simp [mset, mfind, Ne.symm h]
      · by_cases h3 : j = i
        · subst h3; simp [mset, mfind, h1, h2]
        · simp [mset, mfind, h1, h2, h3, ih]

theorem mfind_merase_same (m : List (Nat × α)) (k : Nat) : mfind (merase m k) k = none := by
  induction m with
  | nil => simp [merase, mfind]
  | cons p m ih =>
    obtain ⟨j, w⟩ := p
    by_cases h : j = k
    · simpa [merase, h] using ih
    · simp only [merase, List.filter_cons, bne_iff_ne, ne_eq, h, not_false_iff, if_true, mfind, if_false] at ih ⊢
      exact ih

theorem mfind_merase_ne (m : List (Nat × α)) (k i : Nat) (h : i ≠ k) : mfind (merase m k) i = mfind m i := by
  induction m with
  | nil => simp [merase, mfind]
  | cons p m ih =>
    obtain ⟨j, w⟩ := p
    by_cases hj : j = k
    · subst hj
      simp only [merase, List.filter_cons, bne_self_eq_false, Bool.false_eq_true, if_false, mfind, Ne.symm h] at ih ⊢
      exact ih
    · simp only [merase, List.filter_cons, bne_iff_ne, ne_eq, hj, not_false_iff, if_true, mfind] at ih ⊢
      rw [ih]

end Sys2Proof.Machine
end

