-- ==== Sys2Proof/Laws/Regs.lean ====
section
/-!
SUPPORT. The laws of register fields: a field reads as written, and every other field of every register is left alone.
-/
namespace Sys2Proof.Machine

/-- A field that lies in a 64-bit register. -/
def Fld.ok (x : Fld) : Bool := decide (x.lo ≤ x.hi) && decide (x.hi < 64)
/-- Two fields of different registers, or of different bits. -/
def Fld.apart (x y : Fld) : Bool := x.off != y.off || decide (y.hi < x.lo) || decide (x.hi < y.lo)

/-- The parts of a number at a field of `w` bits from bit `lo` on. -/
theorem split_at_field (v lo w : Nat) :
    v = v / 2 ^ (lo + w) * 2 ^ (lo + w) + v / 2 ^ lo % 2 ^ w * 2 ^ lo + v % 2 ^ lo := by
  have h1 := Nat.div_add_mod v (2 ^ lo)
  have h2 := Nat.div_add_mod (v / 2 ^ lo) (2 ^ w)
  have h3 : v / 2 ^ lo / 2 ^ w = v / 2 ^ (lo + w) := by rw [Nat.div_div_eq_div_mul, ← Nat.pow_add]
  rw [h3] at h2
  calc v = 2 ^ lo * (v / 2 ^ lo) + v % 2 ^ lo := h1.symm
    _ = 2 ^ lo * (2 ^ w * (v / 2 ^ (lo + w)) + v / 2 ^ lo % 2 ^ w) + v % 2 ^ lo := by rw [h2]
    _ = _ := by rw [Nat.pow_add]; ring

/-- The number with the field replaced, in parts. -/
theorem put_parts (v lo w n : Nat) :
    v - v / 2 ^ lo % 2 ^ w * 2 ^ lo + n % 2 ^ w * 2 ^ lo =
      v / 2 ^ (lo + w) * 2 ^ (lo + w) + n % 2 ^ w * 2 ^ lo + v % 2 ^ lo := by
  have h := split_at_field v lo w
  have : v - v / 2 ^ lo % 2 ^ w * 2 ^ lo = v / 2 ^ (lo + w) * 2 ^ (lo + w) + v % 2 ^ lo := by omega
  omega

theorem put_lt (v lo w n : Nat) (hv : v < 2 ^ 64) (hw : lo + w ≤ 64) :
    v - v / 2 ^ lo % 2 ^ w * 2 ^ lo + n % 2 ^ w * 2 ^ lo < 2 ^ 64 := by
  rw [put_parts]
  have hlo : v % 2 ^ lo < 2 ^ lo := Nat.mod_lt _ (by positivity)
  have hn : n % 2 ^ w + 1 ≤ 2 ^ w := Nat.mod_lt _ (by positivity)
  have hq : v / 2 ^ (lo + w) < 2 ^ (64 - (lo + w)) := by
    apply Nat.div_lt_of_lt_mul
    rw [← Nat.pow_add]
    rwa [show lo + w + (64 - (lo + w)) = 64 by omega]
  have h1 : (n % 2 ^ w + 1) * 2 ^ lo ≤ 2 ^ (lo + w) := by
    rw [Nat.add_comm lo w, Nat.pow_add]
    exact Nat.mul_le_mul_right _ hn
  have h2 : (v / 2 ^ (lo + w) + 1) * 2 ^ (lo + w) ≤ 2 ^ 64 := by
    calc (v / 2 ^ (lo + w) + 1) * 2 ^ (lo + w) ≤ 2 ^ (64 - (lo + w)) * 2 ^ (lo + w) := Nat.mul_le_mul_right _ hq
      _ = 2 ^ 64 := by rw [← Nat.pow_add]; congr 1; omega
  rw [Nat.add_mul] at h1 h2
  omega

/-- Bits above the field. -/
theorem put_above (v lo w n k : Nat) (h : lo + w ≤ k) :
    (v - v / 2 ^ lo % 2 ^ w * 2 ^ lo + n % 2 ^ w * 2 ^ lo) / 2 ^ k = v / 2 ^ k := by
  rw [put_parts]
  have hlo : v % 2 ^ lo < 2 ^ lo := Nat.mod_lt _ (by positivity)
  have hn : n % 2 ^ w + 1 ≤ 2 ^ w := Nat.mod_lt _ (by positivity)
  have h1 : (n % 2 ^ w + 1) * 2 ^ lo ≤ 2 ^ (lo + w) := by
    rw [Nat.add_comm lo w, Nat.pow_add]
    exact Nat.mul_le_mul_right _ hn
  rw [Nat.add_mul] at h1
  obtain ⟨j, rfl⟩ := Nat.exists_eq_add_of_le h
  rw [Nat.pow_add 2 (lo + w) j, ← Nat.div_div_eq_div_mul, ← Nat.div_div_eq_div_mul]
  congr 1
  rw [Nat.add_assoc, Nat.add_comm, Nat.add_mul_div_right _ _ (by positivity), Nat.div_eq_of_lt (by omega), Nat.zero_add]

/-- Bits below the field. -/
theorem put_below (v lo w n : Nat) : (v - v / 2 ^ lo % 2 ^ w * 2 ^ lo + n % 2 ^ w * 2 ^ lo) % 2 ^ lo = v % 2 ^ lo := by
  rw [put_parts, show v / 2 ^ (lo + w) * 2 ^ (lo + w) + n % 2 ^ w * 2 ^ lo + v % 2 ^ lo =
    v % 2 ^ lo + (v / 2 ^ (lo + w) * 2 ^ w + n % 2 ^ w) * 2 ^ lo by rw [Nat.pow_add]; ring, Nat.add_mul_mod_self_right, Nat.mod_mod]

/-- The field. -/
theorem put_at (v lo w n : Nat) :
    (v - v / 2 ^ lo % 2 ^ w * 2 ^ lo + n % 2 ^ w * 2 ^ lo) / 2 ^ lo % 2 ^ w = n % 2 ^ w := by
  rw [put_parts, show v / 2 ^ (lo + w) * 2 ^ (lo + w) + n % 2 ^ w * 2 ^ lo + v % 2 ^ lo =
    v % 2 ^ lo + (v / 2 ^ (lo + w) * 2 ^ w + n % 2 ^ w) * 2 ^ lo by rw [Nat.pow_add]; ring,
    Nat.add_mul_div_right _ _ (by positivity), Nat.div_eq_of_lt (Nat.mod_lt _ (by positivity)), Nat.zero_add, Nat.add_comm,
    Nat.add_mul_mod_self_right, Nat.mod_mod]

theorem toNat_putFld (x : Fld) (v : BitVec 64) (n : Nat) (h : x.ok = true) :
    (putFld x v n).toNat = v.toNat - getFld x v * 2 ^ x.lo + n % 2 ^ (x.hi + 1 - x.lo) * 2 ^ x.lo := by
  simp only [Fld.ok, Bool.and_eq_true, decide_eq_true_eq] at h
  rw [putFld, BitVec.toNat_ofNat, Nat.mod_eq_of_lt]
  exact put_lt _ _ _ _ v.isLt (by omega)

/-- A field reads as written, cut to its width. -/
theorem getFld_putFld_same (x : Fld) (v : BitVec 64) (n : Nat) (h : x.ok = true) :
    getFld x (putFld x v n) = n % 2 ^ (x.hi + 1 - x.lo) := by
  rw [getFld, toNat_putFld x v n h]
  exact put_at _ _ _ _

/-- Every other field of the register is left alone. -/
theorem getFld_putFld_apart (x y : Fld) (v : BitVec 64) (n : Nat) (h : x.ok = true) (hy : y.ok = true)
    (ha : y.hi < x.lo ∨ x.hi < y.lo) : getFld y (putFld x v n) = getFld y v := by
  rw [getFld, getFld, toNat_putFld x v n h]
  simp only [Fld.ok, Bool.and_eq_true, decide_eq_true_eq] at h hy
  rcases ha with ha | ha
  · have hb := put_below v.toNat x.lo (x.hi + 1 - x.lo) n
    have e : ∀ a : Nat, a / 2 ^ y.lo % 2 ^ (y.hi + 1 - y.lo) = a % 2 ^ x.lo % 2 ^ (y.hi + 1) / 2 ^ y.lo := by
      intro a
      rw [Nat.mod_mod_of_dvd _ (Nat.pow_dvd_pow 2 (by omega)), show y.hi + 1 = y.lo + (y.hi + 1 - y.lo) by omega, Nat.pow_add,
        Nat.mod_mul_right_div_self, show y.lo + (y.hi + 1 - y.lo) - y.lo = y.hi + 1 - y.lo by omega]
    rw [e, e v.toNat]
    exact congrArg (fun a => a % 2 ^ (y.hi + 1) / 2 ^ y.lo) hb
  · exact congrArg (· % 2 ^ (y.hi + 1 - y.lo)) (put_above v.toNat x.lo (x.hi + 1 - x.lo) n y.lo (by omega))

/-! ## Registers of the block -/

@[simp] theorem Dev.rst0_setReg (d : Dev) (off o : Nat) (v : BitVec 64) : (d.setReg off v).rst0 o = d.rst0 o := rfl

@[simp] theorem Dev.reg_setReg_same (d : Dev) (off : Nat) (v : BitVec 64) : (d.setReg off v).reg off = v := mget_mput_same _ _ _ _

theorem Dev.reg_setReg_ne (d : Dev) (off o : Nat) (v : BitVec 64) (h : o ≠ off) : (d.setReg off v).reg o = d.reg o :=
  mget_mput_ne _ _ _ _ _ _ h

/-- A field reads as it was set. -/
theorem Dev.f_set_same (d : Dev) (x : Fld) (n : Nat) (h : x.ok = true) : (d.set x n).f x = n % 2 ^ (x.hi + 1 - x.lo) := by
  rw [Dev.f, Dev.set, Dev.reg_setReg_same, getFld_putFld_same x _ n h]

/-- Every other field is left alone. -/
theorem Dev.f_set_apart (d : Dev) (x y : Fld) (n : Nat) (h : x.ok = true) (hy : y.ok = true) (ha : x.apart y = true) :
    (d.set x n).f y = d.f y := by
  by_cases ho : y.off = x.off
  · simp only [Fld.apart, Bool.or_eq_true, bne_iff_ne, ne_eq, decide_eq_true_eq, ho, not_true_eq_false, false_or] at ha
    rw [Dev.f, Dev.set, ho, Dev.reg_setReg_same, getFld_putFld_apart x y _ n h hy ha, Dev.f, ho]
  · rw [Dev.f, Dev.set, Dev.reg_setReg_ne _ _ _ _ ho, Dev.f]

/-- Every other register is left alone. -/
theorem Dev.reg_set_ne (d : Dev) (x : Fld) (n o : Nat) (h : o ≠ x.off) : (d.set x n).reg o = d.reg o :=
  Dev.reg_setReg_ne _ _ _ _ h

end Sys2Proof.Machine
end

