-- ==== Sys2Proof/Laws/State.lean ====
section
/-!
SUPPORT. What each update of the block leaves alone: one lemma per field per update, all true by `rfl`, so that no later proof unfolds
a record update.
-/
namespace Sys2Proof.Machine

variable (d : Dev)

@[simp] theorem Dev.setReg_now (off : Nat) (v : BitVec 64) : (d.setReg off v).now = d.now := rfl
@[simp] theorem Dev.setReg_running (off : Nat) (v : BitVec 64) : (d.setReg off v).running = d.running := rfl
@[simp] theorem Dev.setReg_fresh (off : Nat) (v : BitVec 64) : (d.setReg off v).fresh = d.fresh := rfl
@[simp] theorem Dev.setReg_fuses (off : Nat) (v : BitVec 64) : (d.setReg off v).fuses = d.fuses := rfl
@[simp] theorem Dev.setReg_rst (off : Nat) (v : BitVec 64) : (d.setReg off v).rst = d.rst := rfl
@[simp] theorem Dev.setReg_cfg (off : Nat) (v : BitVec 64) : (d.setReg off v).cfg = d.cfg := rfl
@[simp] theorem Dev.setReg_mem (off : Nat) (v : BitVec 64) : (d.setReg off v).mem = d.mem := rfl
@[simp] theorem Dev.setReg_coll (off : Nat) (v : BitVec 64) : (d.setReg off v).coll = d.coll := rfl
@[simp] theorem Dev.setReg_safe (off : Nat) (v : BitVec 64) : (d.setReg off v).safe = d.safe := rfl
@[simp] theorem Dev.setReg_frame (off : Nat) (v : BitVec 64) : (d.setReg off v).frame = d.frame := rfl
@[simp] theorem Dev.setReg_ctxs (off : Nat) (v : BitVec 64) : (d.setReg off v).ctxs = d.ctxs := rfl
@[simp] theorem Dev.setReg_runs (off : Nat) (v : BitVec 64) : (d.setReg off v).runs = d.runs := rfl
@[simp] theorem Dev.setReg_nextRun (off : Nat) (v : BitVec 64) : (d.setReg off v).nextRun = d.nextRun := rfl
@[simp] theorem Dev.setReg_turns (off : Nat) (v : BitVec 64) : (d.setReg off v).turns = d.turns := rfl
@[simp] theorem Dev.setReg_flags (off : Nat) (v : BitVec 64) : (d.setReg off v).flags = d.flags := rfl
@[simp] theorem Dev.setReg_mods (off : Nat) (v : BitVec 64) : (d.setReg off v).mods = d.mods := rfl
@[simp] theorem Dev.setReg_tdt (off : Nat) (v : BitVec 64) : (d.setReg off v).tdt = d.tdt := rfl
@[simp] theorem Dev.setReg_kv (off : Nat) (v : BitVec 64) : (d.setReg off v).kv = d.kv := rfl
@[simp] theorem Dev.setReg_lnk (off : Nat) (v : BitVec 64) : (d.setReg off v).lnk = d.lnk := rfl
@[simp] theorem Dev.setReg_leap (off : Nat) (v : BitVec 64) : (d.setReg off v).leap = d.leap := rfl
@[simp] theorem Dev.setReg_pwr (off : Nat) (v : BitVec 64) : (d.setReg off v).pwr = d.pwr := rfl
@[simp] theorem Dev.setReg_lam (off : Nat) (v : BitVec 64) : (d.setReg off v).lam = d.lam := rfl
@[simp] theorem Dev.setReg_alm (off : Nat) (v : BitVec 64) : (d.setReg off v).alm = d.alm := rfl
@[simp] theorem Dev.setReg_rpl (off : Nat) (v : BitVec 64) : (d.setReg off v).rpl = d.rpl := rfl
@[simp] theorem Dev.setReg_sec (off : Nat) (v : BitVec 64) : (d.setReg off v).sec = d.sec := rfl
@[simp] theorem Dev.setReg_out (off : Nat) (v : BitVec 64) : (d.setReg off v).out = d.out := rfl

@[simp] theorem Dev.set_now (x : Fld) (n : Nat) : (d.set x n).now = d.now := rfl
@[simp] theorem Dev.set_running (x : Fld) (n : Nat) : (d.set x n).running = d.running := rfl
@[simp] theorem Dev.set_fresh (x : Fld) (n : Nat) : (d.set x n).fresh = d.fresh := rfl
@[simp] theorem Dev.set_fuses (x : Fld) (n : Nat) : (d.set x n).fuses = d.fuses := rfl
@[simp] theorem Dev.set_rst (x : Fld) (n : Nat) : (d.set x n).rst = d.rst := rfl
@[simp] theorem Dev.set_cfg (x : Fld) (n : Nat) : (d.set x n).cfg = d.cfg := rfl
@[simp] theorem Dev.set_mem (x : Fld) (n : Nat) : (d.set x n).mem = d.mem := rfl
@[simp] theorem Dev.set_coll (x : Fld) (n : Nat) : (d.set x n).coll = d.coll := rfl
@[simp] theorem Dev.set_safe (x : Fld) (n : Nat) : (d.set x n).safe = d.safe := rfl
@[simp] theorem Dev.set_frame (x : Fld) (n : Nat) : (d.set x n).frame = d.frame := rfl
@[simp] theorem Dev.set_ctxs (x : Fld) (n : Nat) : (d.set x n).ctxs = d.ctxs := rfl
@[simp] theorem Dev.set_runs (x : Fld) (n : Nat) : (d.set x n).runs = d.runs := rfl
@[simp] theorem Dev.set_nextRun (x : Fld) (n : Nat) : (d.set x n).nextRun = d.nextRun := rfl
@[simp] theorem Dev.set_turns (x : Fld) (n : Nat) : (d.set x n).turns = d.turns := rfl
@[simp] theorem Dev.set_flags (x : Fld) (n : Nat) : (d.set x n).flags = d.flags := rfl
@[simp] theorem Dev.set_mods (x : Fld) (n : Nat) : (d.set x n).mods = d.mods := rfl
@[simp] theorem Dev.set_tdt (x : Fld) (n : Nat) : (d.set x n).tdt = d.tdt := rfl
@[simp] theorem Dev.set_kv (x : Fld) (n : Nat) : (d.set x n).kv = d.kv := rfl
@[simp] theorem Dev.set_lnk (x : Fld) (n : Nat) : (d.set x n).lnk = d.lnk := rfl
@[simp] theorem Dev.set_leap (x : Fld) (n : Nat) : (d.set x n).leap = d.leap := rfl
@[simp] theorem Dev.set_pwr (x : Fld) (n : Nat) : (d.set x n).pwr = d.pwr := rfl
@[simp] theorem Dev.set_lam (x : Fld) (n : Nat) : (d.set x n).lam = d.lam := rfl
@[simp] theorem Dev.set_alm (x : Fld) (n : Nat) : (d.set x n).alm = d.alm := rfl
@[simp] theorem Dev.set_rpl (x : Fld) (n : Nat) : (d.set x n).rpl = d.rpl := rfl
@[simp] theorem Dev.set_sec (x : Fld) (n : Nat) : (d.set x n).sec = d.sec := rfl
@[simp] theorem Dev.set_out (x : Fld) (n : Nat) : (d.set x n).out = d.out := rfl

@[simp] theorem Dev.addSat_now (x : Fld) (n : Nat) : (d.addSat x n).now = d.now := rfl
@[simp] theorem Dev.addSat_running (x : Fld) (n : Nat) : (d.addSat x n).running = d.running := rfl
@[simp] theorem Dev.addSat_fresh (x : Fld) (n : Nat) : (d.addSat x n).fresh = d.fresh := rfl
@[simp] theorem Dev.addSat_fuses (x : Fld) (n : Nat) : (d.addSat x n).fuses = d.fuses := rfl
@[simp] theorem Dev.addSat_rst (x : Fld) (n : Nat) : (d.addSat x n).rst = d.rst := rfl
@[simp] theorem Dev.addSat_cfg (x : Fld) (n : Nat) : (d.addSat x n).cfg = d.cfg := rfl
@[simp] theorem Dev.addSat_mem (x : Fld) (n : Nat) : (d.addSat x n).mem = d.mem := rfl
@[simp] theorem Dev.addSat_coll (x : Fld) (n : Nat) : (d.addSat x n).coll = d.coll := rfl
@[simp] theorem Dev.addSat_safe (x : Fld) (n : Nat) : (d.addSat x n).safe = d.safe := rfl
@[simp] theorem Dev.addSat_frame (x : Fld) (n : Nat) : (d.addSat x n).frame = d.frame := rfl
@[simp] theorem Dev.addSat_ctxs (x : Fld) (n : Nat) : (d.addSat x n).ctxs = d.ctxs := rfl
@[simp] theorem Dev.addSat_runs (x : Fld) (n : Nat) : (d.addSat x n).runs = d.runs := rfl
@[simp] theorem Dev.addSat_nextRun (x : Fld) (n : Nat) : (d.addSat x n).nextRun = d.nextRun := rfl
@[simp] theorem Dev.addSat_turns (x : Fld) (n : Nat) : (d.addSat x n).turns = d.turns := rfl
@[simp] theorem Dev.addSat_flags (x : Fld) (n : Nat) : (d.addSat x n).flags = d.flags := rfl
@[simp] theorem Dev.addSat_mods (x : Fld) (n : Nat) : (d.addSat x n).mods = d.mods := rfl
@[simp] theorem Dev.addSat_tdt (x : Fld) (n : Nat) : (d.addSat x n).tdt = d.tdt := rfl
@[simp] theorem Dev.addSat_kv (x : Fld) (n : Nat) : (d.addSat x n).kv = d.kv := rfl
@[simp] theorem Dev.addSat_lnk (x : Fld) (n : Nat) : (d.addSat x n).lnk = d.lnk := rfl
@[simp] theorem Dev.addSat_leap (x : Fld) (n : Nat) : (d.addSat x n).leap = d.leap := rfl
@[simp] theorem Dev.addSat_pwr (x : Fld) (n : Nat) : (d.addSat x n).pwr = d.pwr := rfl
@[simp] theorem Dev.addSat_lam (x : Fld) (n : Nat) : (d.addSat x n).lam = d.lam := rfl
@[simp] theorem Dev.addSat_alm (x : Fld) (n : Nat) : (d.addSat x n).alm = d.alm := rfl
@[simp] theorem Dev.addSat_rpl (x : Fld) (n : Nat) : (d.addSat x n).rpl = d.rpl := rfl
@[simp] theorem Dev.addSat_sec (x : Fld) (n : Nat) : (d.addSat x n).sec = d.sec := rfl
@[simp] theorem Dev.addSat_out (x : Fld) (n : Nat) : (d.addSat x n).out = d.out := rfl

@[simp] theorem Dev.stage_now (lo hi : Nat) : (d.stage lo hi).now = d.now := rfl
@[simp] theorem Dev.stage_running (lo hi : Nat) : (d.stage lo hi).running = d.running := rfl
@[simp] theorem Dev.stage_fresh (lo hi : Nat) : (d.stage lo hi).fresh = d.fresh := rfl
@[simp] theorem Dev.stage_fuses (lo hi : Nat) : (d.stage lo hi).fuses = d.fuses := rfl
@[simp] theorem Dev.stage_rst (lo hi : Nat) : (d.stage lo hi).rst = d.rst := rfl
@[simp] theorem Dev.stage_cfg (lo hi : Nat) : (d.stage lo hi).cfg = d.cfg := rfl
@[simp] theorem Dev.stage_mem (lo hi : Nat) : (d.stage lo hi).mem = d.mem := rfl
@[simp] theorem Dev.stage_coll (lo hi : Nat) : (d.stage lo hi).coll = d.coll := rfl
@[simp] theorem Dev.stage_safe (lo hi : Nat) : (d.stage lo hi).safe = d.safe := rfl
@[simp] theorem Dev.stage_frame (lo hi : Nat) : (d.stage lo hi).frame = d.frame := rfl
@[simp] theorem Dev.stage_ctxs (lo hi : Nat) : (d.stage lo hi).ctxs = d.ctxs := rfl
@[simp] theorem Dev.stage_runs (lo hi : Nat) : (d.stage lo hi).runs = d.runs := rfl
@[simp] theorem Dev.stage_nextRun (lo hi : Nat) : (d.stage lo hi).nextRun = d.nextRun := rfl
@[simp] theorem Dev.stage_turns (lo hi : Nat) : (d.stage lo hi).turns = d.turns := rfl
@[simp] theorem Dev.stage_flags (lo hi : Nat) : (d.stage lo hi).flags = d.flags := rfl
@[simp] theorem Dev.stage_mods (lo hi : Nat) : (d.stage lo hi).mods = d.mods := rfl
@[simp] theorem Dev.stage_tdt (lo hi : Nat) : (d.stage lo hi).tdt = d.tdt := rfl
@[simp] theorem Dev.stage_kv (lo hi : Nat) : (d.stage lo hi).kv = d.kv := rfl
@[simp] theorem Dev.stage_lnk (lo hi : Nat) : (d.stage lo hi).lnk = d.lnk := rfl
@[simp] theorem Dev.stage_leap (lo hi : Nat) : (d.stage lo hi).leap = d.leap := rfl
@[simp] theorem Dev.stage_pwr (lo hi : Nat) : (d.stage lo hi).pwr = d.pwr := rfl
@[simp] theorem Dev.stage_lam (lo hi : Nat) : (d.stage lo hi).lam = d.lam := rfl
@[simp] theorem Dev.stage_alm (lo hi : Nat) : (d.stage lo hi).alm = d.alm := rfl
@[simp] theorem Dev.stage_rpl (lo hi : Nat) : (d.stage lo hi).rpl = d.rpl := rfl
@[simp] theorem Dev.stage_sec (lo hi : Nat) : (d.stage lo hi).sec = d.sec := rfl
@[simp] theorem Dev.stage_out (lo hi : Nat) : (d.stage lo hi).out = d.out := rfl

@[simp] theorem Dev.enforce_now (lo hi : Nat) : (d.enforce lo hi).now = d.now := rfl
@[simp] theorem Dev.enforce_running (lo hi : Nat) : (d.enforce lo hi).running = d.running := rfl
@[simp] theorem Dev.enforce_fresh (lo hi : Nat) : (d.enforce lo hi).fresh = d.fresh := rfl
@[simp] theorem Dev.enforce_fuses (lo hi : Nat) : (d.enforce lo hi).fuses = d.fuses := rfl
@[simp] theorem Dev.enforce_rst (lo hi : Nat) : (d.enforce lo hi).rst = d.rst := rfl
@[simp] theorem Dev.enforce_cfg (lo hi : Nat) : (d.enforce lo hi).cfg = d.cfg := rfl
@[simp] theorem Dev.enforce_mem (lo hi : Nat) : (d.enforce lo hi).mem = d.mem := rfl
@[simp] theorem Dev.enforce_coll (lo hi : Nat) : (d.enforce lo hi).coll = d.coll := rfl
@[simp] theorem Dev.enforce_safe (lo hi : Nat) : (d.enforce lo hi).safe = d.safe := rfl
@[simp] theorem Dev.enforce_frame (lo hi : Nat) : (d.enforce lo hi).frame = d.frame := rfl
@[simp] theorem Dev.enforce_ctxs (lo hi : Nat) : (d.enforce lo hi).ctxs = d.ctxs := rfl
@[simp] theorem Dev.enforce_runs (lo hi : Nat) : (d.enforce lo hi).runs = d.runs := rfl
@[simp] theorem Dev.enforce_nextRun (lo hi : Nat) : (d.enforce lo hi).nextRun = d.nextRun := rfl
@[simp] theorem Dev.enforce_turns (lo hi : Nat) : (d.enforce lo hi).turns = d.turns := rfl
@[simp] theorem Dev.enforce_flags (lo hi : Nat) : (d.enforce lo hi).flags = d.flags := rfl
@[simp] theorem Dev.enforce_mods (lo hi : Nat) : (d.enforce lo hi).mods = d.mods := rfl
@[simp] theorem Dev.enforce_tdt (lo hi : Nat) : (d.enforce lo hi).tdt = d.tdt := rfl
@[simp] theorem Dev.enforce_kv (lo hi : Nat) : (d.enforce lo hi).kv = d.kv := rfl
@[simp] theorem Dev.enforce_lnk (lo hi : Nat) : (d.enforce lo hi).lnk = d.lnk := rfl
@[simp] theorem Dev.enforce_leap (lo hi : Nat) : (d.enforce lo hi).leap = d.leap := rfl
@[simp] theorem Dev.enforce_pwr (lo hi : Nat) : (d.enforce lo hi).pwr = d.pwr := rfl
@[simp] theorem Dev.enforce_lam (lo hi : Nat) : (d.enforce lo hi).lam = d.lam := rfl
@[simp] theorem Dev.enforce_alm (lo hi : Nat) : (d.enforce lo hi).alm = d.alm := rfl
@[simp] theorem Dev.enforce_rpl (lo hi : Nat) : (d.enforce lo hi).rpl = d.rpl := rfl
@[simp] theorem Dev.enforce_sec (lo hi : Nat) : (d.enforce lo hi).sec = d.sec := rfl
@[simp] theorem Dev.enforce_out (lo hi : Nat) : (d.enforce lo hi).out = d.out := rfl

@[simp] theorem Dev.take_now : (d.take).now = d.now := rfl
@[simp] theorem Dev.take_running : (d.take).running = d.running := rfl
@[simp] theorem Dev.take_fuses : (d.take).fuses = d.fuses := rfl
@[simp] theorem Dev.take_rst : (d.take).rst = d.rst := rfl
@[simp] theorem Dev.take_cfg : (d.take).cfg = d.cfg := rfl
@[simp] theorem Dev.take_regs : (d.take).regs = d.regs := rfl
@[simp] theorem Dev.take_mem : (d.take).mem = d.mem := rfl
@[simp] theorem Dev.take_coll : (d.take).coll = d.coll := rfl
@[simp] theorem Dev.take_safe : (d.take).safe = d.safe := rfl
@[simp] theorem Dev.take_frame : (d.take).frame = d.frame := rfl
@[simp] theorem Dev.take_ctxs : (d.take).ctxs = d.ctxs := rfl
@[simp] theorem Dev.take_runs : (d.take).runs = d.runs := rfl
@[simp] theorem Dev.take_nextRun : (d.take).nextRun = d.nextRun := rfl
@[simp] theorem Dev.take_turns : (d.take).turns = d.turns := rfl
@[simp] theorem Dev.take_flags : (d.take).flags = d.flags := rfl
@[simp] theorem Dev.take_mods : (d.take).mods = d.mods := rfl
@[simp] theorem Dev.take_tdt : (d.take).tdt = d.tdt := rfl
@[simp] theorem Dev.take_kv : (d.take).kv = d.kv := rfl
@[simp] theorem Dev.take_lnk : (d.take).lnk = d.lnk := rfl
@[simp] theorem Dev.take_leap : (d.take).leap = d.leap := rfl
@[simp] theorem Dev.take_pwr : (d.take).pwr = d.pwr := rfl
@[simp] theorem Dev.take_lam : (d.take).lam = d.lam := rfl
@[simp] theorem Dev.take_alm : (d.take).alm = d.alm := rfl
@[simp] theorem Dev.take_rpl : (d.take).rpl = d.rpl := rfl
@[simp] theorem Dev.take_sec : (d.take).sec = d.sec := rfl
@[simp] theorem Dev.take_out : (d.take).out = d.out := rfl

@[simp] theorem Dev.send_now (m : Tx) : (d.send m).now = d.now := rfl
@[simp] theorem Dev.send_running (m : Tx) : (d.send m).running = d.running := rfl
@[simp] theorem Dev.send_fresh (m : Tx) : (d.send m).fresh = d.fresh := rfl
@[simp] theorem Dev.send_fuses (m : Tx) : (d.send m).fuses = d.fuses := rfl
@[simp] theorem Dev.send_rst (m : Tx) : (d.send m).rst = d.rst := rfl
@[simp] theorem Dev.send_cfg (m : Tx) : (d.send m).cfg = d.cfg := rfl
@[simp] theorem Dev.send_regs (m : Tx) : (d.send m).regs = d.regs := rfl
@[simp] theorem Dev.send_mem (m : Tx) : (d.send m).mem = d.mem := rfl
@[simp] theorem Dev.send_coll (m : Tx) : (d.send m).coll = d.coll := rfl
@[simp] theorem Dev.send_safe (m : Tx) : (d.send m).safe = d.safe := rfl
@[simp] theorem Dev.send_frame (m : Tx) : (d.send m).frame = d.frame := rfl
@[simp] theorem Dev.send_ctxs (m : Tx) : (d.send m).ctxs = d.ctxs := rfl
@[simp] theorem Dev.send_runs (m : Tx) : (d.send m).runs = d.runs := rfl
@[simp] theorem Dev.send_nextRun (m : Tx) : (d.send m).nextRun = d.nextRun := rfl
@[simp] theorem Dev.send_turns (m : Tx) : (d.send m).turns = d.turns := rfl
@[simp] theorem Dev.send_flags (m : Tx) : (d.send m).flags = d.flags := rfl
@[simp] theorem Dev.send_mods (m : Tx) : (d.send m).mods = d.mods := rfl
@[simp] theorem Dev.send_tdt (m : Tx) : (d.send m).tdt = d.tdt := rfl
@[simp] theorem Dev.send_kv (m : Tx) : (d.send m).kv = d.kv := rfl
@[simp] theorem Dev.send_lnk (m : Tx) : (d.send m).lnk = d.lnk := rfl
@[simp] theorem Dev.send_leap (m : Tx) : (d.send m).leap = d.leap := rfl
@[simp] theorem Dev.send_pwr (m : Tx) : (d.send m).pwr = d.pwr := rfl
@[simp] theorem Dev.send_lam (m : Tx) : (d.send m).lam = d.lam := rfl
@[simp] theorem Dev.send_alm (m : Tx) : (d.send m).alm = d.alm := rfl
@[simp] theorem Dev.send_rpl (m : Tx) : (d.send m).rpl = d.rpl := rfl
@[simp] theorem Dev.send_sec (m : Tx) : (d.send m).sec = d.sec := rfl

@[simp] theorem Dev.ret_now (l : List Nat) : (d.ret l).now = d.now := rfl
@[simp] theorem Dev.ret_running (l : List Nat) : (d.ret l).running = d.running := rfl
@[simp] theorem Dev.ret_fresh (l : List Nat) : (d.ret l).fresh = d.fresh := rfl
@[simp] theorem Dev.ret_fuses (l : List Nat) : (d.ret l).fuses = d.fuses := rfl
@[simp] theorem Dev.ret_rst (l : List Nat) : (d.ret l).rst = d.rst := rfl
@[simp] theorem Dev.ret_cfg (l : List Nat) : (d.ret l).cfg = d.cfg := rfl
@[simp] theorem Dev.ret_regs (l : List Nat) : (d.ret l).regs = d.regs := rfl
@[simp] theorem Dev.ret_mem (l : List Nat) : (d.ret l).mem = d.mem := rfl
@[simp] theorem Dev.ret_coll (l : List Nat) : (d.ret l).coll = d.coll := rfl
@[simp] theorem Dev.ret_safe (l : List Nat) : (d.ret l).safe = d.safe := rfl
@[simp] theorem Dev.ret_frame (l : List Nat) : (d.ret l).frame = d.frame := rfl
@[simp] theorem Dev.ret_ctxs (l : List Nat) : (d.ret l).ctxs = d.ctxs := rfl
@[simp] theorem Dev.ret_runs (l : List Nat) : (d.ret l).runs = d.runs := rfl
@[simp] theorem Dev.ret_nextRun (l : List Nat) : (d.ret l).nextRun = d.nextRun := rfl
@[simp] theorem Dev.ret_turns (l : List Nat) : (d.ret l).turns = d.turns := rfl
@[simp] theorem Dev.ret_flags (l : List Nat) : (d.ret l).flags = d.flags := rfl
@[simp] theorem Dev.ret_mods (l : List Nat) : (d.ret l).mods = d.mods := rfl
@[simp] theorem Dev.ret_tdt (l : List Nat) : (d.ret l).tdt = d.tdt := rfl
@[simp] theorem Dev.ret_kv (l : List Nat) : (d.ret l).kv = d.kv := rfl
@[simp] theorem Dev.ret_lnk (l : List Nat) : (d.ret l).lnk = d.lnk := rfl
@[simp] theorem Dev.ret_leap (l : List Nat) : (d.ret l).leap = d.leap := rfl
@[simp] theorem Dev.ret_pwr (l : List Nat) : (d.ret l).pwr = d.pwr := rfl
@[simp] theorem Dev.ret_lam (l : List Nat) : (d.ret l).lam = d.lam := rfl
@[simp] theorem Dev.ret_alm (l : List Nat) : (d.ret l).alm = d.alm := rfl
@[simp] theorem Dev.ret_rpl (l : List Nat) : (d.ret l).rpl = d.rpl := rfl
@[simp] theorem Dev.ret_sec (l : List Nat) : (d.ret l).sec = d.sec := rfl

@[simp] theorem Dev.atTime_running (t : Nat) : (d.at_ t).running = d.running := rfl
@[simp] theorem Dev.atTime_fresh (t : Nat) : (d.at_ t).fresh = d.fresh := rfl
@[simp] theorem Dev.atTime_fuses (t : Nat) : (d.at_ t).fuses = d.fuses := rfl
@[simp] theorem Dev.atTime_rst (t : Nat) : (d.at_ t).rst = d.rst := rfl
@[simp] theorem Dev.atTime_cfg (t : Nat) : (d.at_ t).cfg = d.cfg := rfl
@[simp] theorem Dev.atTime_regs (t : Nat) : (d.at_ t).regs = d.regs := rfl
@[simp] theorem Dev.atTime_mem (t : Nat) : (d.at_ t).mem = d.mem := rfl
@[simp] theorem Dev.atTime_coll (t : Nat) : (d.at_ t).coll = d.coll := rfl
@[simp] theorem Dev.atTime_safe (t : Nat) : (d.at_ t).safe = d.safe := rfl
@[simp] theorem Dev.atTime_frame (t : Nat) : (d.at_ t).frame = d.frame := rfl
@[simp] theorem Dev.atTime_ctxs (t : Nat) : (d.at_ t).ctxs = d.ctxs := rfl
@[simp] theorem Dev.atTime_runs (t : Nat) : (d.at_ t).runs = d.runs := rfl
@[simp] theorem Dev.atTime_nextRun (t : Nat) : (d.at_ t).nextRun = d.nextRun := rfl
@[simp] theorem Dev.atTime_turns (t : Nat) : (d.at_ t).turns = d.turns := rfl
@[simp] theorem Dev.atTime_flags (t : Nat) : (d.at_ t).flags = d.flags := rfl
@[simp] theorem Dev.atTime_mods (t : Nat) : (d.at_ t).mods = d.mods := rfl
@[simp] theorem Dev.atTime_tdt (t : Nat) : (d.at_ t).tdt = d.tdt := rfl
@[simp] theorem Dev.atTime_kv (t : Nat) : (d.at_ t).kv = d.kv := rfl
@[simp] theorem Dev.atTime_lnk (t : Nat) : (d.at_ t).lnk = d.lnk := rfl
@[simp] theorem Dev.atTime_leap (t : Nat) : (d.at_ t).leap = d.leap := rfl
@[simp] theorem Dev.atTime_pwr (t : Nat) : (d.at_ t).pwr = d.pwr := rfl
@[simp] theorem Dev.atTime_lam (t : Nat) : (d.at_ t).lam = d.lam := rfl
@[simp] theorem Dev.atTime_alm (t : Nat) : (d.at_ t).alm = d.alm := rfl
@[simp] theorem Dev.atTime_rpl (t : Nat) : (d.at_ t).rpl = d.rpl := rfl
@[simp] theorem Dev.atTime_sec (t : Nat) : (d.at_ t).sec = d.sec := rfl
@[simp] theorem Dev.atTime_out (t : Nat) : (d.at_ t).out = d.out := rfl

@[simp] theorem Dev.setClu_now (k : Nat) (c : Clu) : (d.setClu k c).now = d.now := rfl
@[simp] theorem Dev.setClu_running (k : Nat) (c : Clu) : (d.setClu k c).running = d.running := rfl
@[simp] theorem Dev.setClu_fresh (k : Nat) (c : Clu) : (d.setClu k c).fresh = d.fresh := rfl
@[simp] theorem Dev.setClu_fuses (k : Nat) (c : Clu) : (d.setClu k c).fuses = d.fuses := rfl
@[simp] theorem Dev.setClu_rst (k : Nat) (c : Clu) : (d.setClu k c).rst = d.rst := rfl
@[simp] theorem Dev.setClu_cfg (k : Nat) (c : Clu) : (d.setClu k c).cfg = d.cfg := rfl
@[simp] theorem Dev.setClu_regs (k : Nat) (c : Clu) : (d.setClu k c).regs = d.regs := rfl
@[simp] theorem Dev.setClu_mem (k : Nat) (c : Clu) : (d.setClu k c).mem = d.mem := rfl
@[simp] theorem Dev.setClu_coll (k : Nat) (c : Clu) : (d.setClu k c).coll = d.coll := rfl
@[simp] theorem Dev.setClu_safe (k : Nat) (c : Clu) : (d.setClu k c).safe = d.safe := rfl
@[simp] theorem Dev.setClu_frame (k : Nat) (c : Clu) : (d.setClu k c).frame = d.frame := rfl
@[simp] theorem Dev.setClu_ctxs (k : Nat) (c : Clu) : (d.setClu k c).ctxs = d.ctxs := rfl
@[simp] theorem Dev.setClu_runs (k : Nat) (c : Clu) : (d.setClu k c).runs = d.runs := rfl
@[simp] theorem Dev.setClu_nextRun (k : Nat) (c : Clu) : (d.setClu k c).nextRun = d.nextRun := rfl
@[simp] theorem Dev.setClu_turns (k : Nat) (c : Clu) : (d.setClu k c).turns = d.turns := rfl
@[simp] theorem Dev.setClu_flags (k : Nat) (c : Clu) : (d.setClu k c).flags = d.flags := rfl
@[simp] theorem Dev.setClu_mods (k : Nat) (c : Clu) : (d.setClu k c).mods = d.mods := rfl
@[simp] theorem Dev.setClu_tdt (k : Nat) (c : Clu) : (d.setClu k c).tdt = d.tdt := rfl
@[simp] theorem Dev.setClu_kv (k : Nat) (c : Clu) : (d.setClu k c).kv = d.kv := rfl
@[simp] theorem Dev.setClu_lnk (k : Nat) (c : Clu) : (d.setClu k c).lnk = d.lnk := rfl
@[simp] theorem Dev.setClu_pwr (k : Nat) (c : Clu) : (d.setClu k c).pwr = d.pwr := rfl
@[simp] theorem Dev.setClu_lam (k : Nat) (c : Clu) : (d.setClu k c).lam = d.lam := rfl
@[simp] theorem Dev.setClu_alm (k : Nat) (c : Clu) : (d.setClu k c).alm = d.alm := rfl
@[simp] theorem Dev.setClu_rpl (k : Nat) (c : Clu) : (d.setClu k c).rpl = d.rpl := rfl
@[simp] theorem Dev.setClu_sec (k : Nat) (c : Clu) : (d.setClu k c).sec = d.sec := rfl
@[simp] theorem Dev.setClu_out (k : Nat) (c : Clu) : (d.setClu k c).out = d.out := rfl

@[simp] theorem Dev.modUnit_now (u : Nat) (f : UnitSt → UnitSt) : (d.modUnit u f).now = d.now := rfl
@[simp] theorem Dev.modUnit_running (u : Nat) (f : UnitSt → UnitSt) : (d.modUnit u f).running = d.running := rfl
@[simp] theorem Dev.modUnit_fresh (u : Nat) (f : UnitSt → UnitSt) : (d.modUnit u f).fresh = d.fresh := rfl
@[simp] theorem Dev.modUnit_fuses (u : Nat) (f : UnitSt → UnitSt) : (d.modUnit u f).fuses = d.fuses := rfl
@[simp] theorem Dev.modUnit_rst (u : Nat) (f : UnitSt → UnitSt) : (d.modUnit u f).rst = d.rst := rfl
@[simp] theorem Dev.modUnit_cfg (u : Nat) (f : UnitSt → UnitSt) : (d.modUnit u f).cfg = d.cfg := rfl
@[simp] theorem Dev.modUnit_regs (u : Nat) (f : UnitSt → UnitSt) : (d.modUnit u f).regs = d.regs := rfl
@[simp] theorem Dev.modUnit_mem (u : Nat) (f : UnitSt → UnitSt) : (d.modUnit u f).mem = d.mem := rfl
@[simp] theorem Dev.modUnit_coll (u : Nat) (f : UnitSt → UnitSt) : (d.modUnit u f).coll = d.coll := rfl
@[simp] theorem Dev.modUnit_safe (u : Nat) (f : UnitSt → UnitSt) : (d.modUnit u f).safe = d.safe := rfl
@[simp] theorem Dev.modUnit_frame (u : Nat) (f : UnitSt → UnitSt) : (d.modUnit u f).frame = d.frame := rfl
@[simp] theorem Dev.modUnit_ctxs (u : Nat) (f : UnitSt → UnitSt) : (d.modUnit u f).ctxs = d.ctxs := rfl
@[simp] theorem Dev.modUnit_runs (u : Nat) (f : UnitSt → UnitSt) : (d.modUnit u f).runs = d.runs := rfl
@[simp] theorem Dev.modUnit_nextRun (u : Nat) (f : UnitSt → UnitSt) : (d.modUnit u f).nextRun = d.nextRun := rfl
@[simp] theorem Dev.modUnit_turns (u : Nat) (f : UnitSt → UnitSt) : (d.modUnit u f).turns = d.turns := rfl
@[simp] theorem Dev.modUnit_flags (u : Nat) (f : UnitSt → UnitSt) : (d.modUnit u f).flags = d.flags := rfl
@[simp] theorem Dev.modUnit_mods (u : Nat) (f : UnitSt → UnitSt) : (d.modUnit u f).mods = d.mods := rfl
@[simp] theorem Dev.modUnit_tdt (u : Nat) (f : UnitSt → UnitSt) : (d.modUnit u f).tdt = d.tdt := rfl
@[simp] theorem Dev.modUnit_kv (u : Nat) (f : UnitSt → UnitSt) : (d.modUnit u f).kv = d.kv := rfl
@[simp] theorem Dev.modUnit_lnk (u : Nat) (f : UnitSt → UnitSt) : (d.modUnit u f).lnk = d.lnk := rfl
@[simp] theorem Dev.modUnit_pwr (u : Nat) (f : UnitSt → UnitSt) : (d.modUnit u f).pwr = d.pwr := rfl
@[simp] theorem Dev.modUnit_lam (u : Nat) (f : UnitSt → UnitSt) : (d.modUnit u f).lam = d.lam := rfl
@[simp] theorem Dev.modUnit_alm (u : Nat) (f : UnitSt → UnitSt) : (d.modUnit u f).alm = d.alm := rfl
@[simp] theorem Dev.modUnit_rpl (u : Nat) (f : UnitSt → UnitSt) : (d.modUnit u f).rpl = d.rpl := rfl
@[simp] theorem Dev.modUnit_sec (u : Nat) (f : UnitSt → UnitSt) : (d.modUnit u f).sec = d.sec := rfl
@[simp] theorem Dev.modUnit_out (u : Nat) (f : UnitSt → UnitSt) : (d.modUnit u f).out = d.out := rfl

@[simp] theorem Dev.setWindow_now (n : Nat) (w : Window) : (d.setWindow n w).now = d.now := rfl
@[simp] theorem Dev.setWindow_running (n : Nat) (w : Window) : (d.setWindow n w).running = d.running := rfl
@[simp] theorem Dev.setWindow_fresh (n : Nat) (w : Window) : (d.setWindow n w).fresh = d.fresh := rfl
@[simp] theorem Dev.setWindow_fuses (n : Nat) (w : Window) : (d.setWindow n w).fuses = d.fuses := rfl
@[simp] theorem Dev.setWindow_rst (n : Nat) (w : Window) : (d.setWindow n w).rst = d.rst := rfl
@[simp] theorem Dev.setWindow_cfg (n : Nat) (w : Window) : (d.setWindow n w).cfg = d.cfg := rfl
@[simp] theorem Dev.setWindow_regs (n : Nat) (w : Window) : (d.setWindow n w).regs = d.regs := rfl
@[simp] theorem Dev.setWindow_mem (n : Nat) (w : Window) : (d.setWindow n w).mem = d.mem := rfl
@[simp] theorem Dev.setWindow_coll (n : Nat) (w : Window) : (d.setWindow n w).coll = d.coll := rfl
@[simp] theorem Dev.setWindow_safe (n : Nat) (w : Window) : (d.setWindow n w).safe = d.safe := rfl
@[simp] theorem Dev.setWindow_frame (n : Nat) (w : Window) : (d.setWindow n w).frame = d.frame := rfl
@[simp] theorem Dev.setWindow_ctxs (n : Nat) (w : Window) : (d.setWindow n w).ctxs = d.ctxs := rfl
@[simp] theorem Dev.setWindow_runs (n : Nat) (w : Window) : (d.setWindow n w).runs = d.runs := rfl
@[simp] theorem Dev.setWindow_nextRun (n : Nat) (w : Window) : (d.setWindow n w).nextRun = d.nextRun := rfl
@[simp] theorem Dev.setWindow_turns (n : Nat) (w : Window) : (d.setWindow n w).turns = d.turns := rfl
@[simp] theorem Dev.setWindow_flags (n : Nat) (w : Window) : (d.setWindow n w).flags = d.flags := rfl
@[simp] theorem Dev.setWindow_mods (n : Nat) (w : Window) : (d.setWindow n w).mods = d.mods := rfl
@[simp] theorem Dev.setWindow_tdt (n : Nat) (w : Window) : (d.setWindow n w).tdt = d.tdt := rfl
@[simp] theorem Dev.setWindow_kv (n : Nat) (w : Window) : (d.setWindow n w).kv = d.kv := rfl
@[simp] theorem Dev.setWindow_leap (n : Nat) (w : Window) : (d.setWindow n w).leap = d.leap := rfl
@[simp] theorem Dev.setWindow_pwr (n : Nat) (w : Window) : (d.setWindow n w).pwr = d.pwr := rfl
@[simp] theorem Dev.setWindow_lam (n : Nat) (w : Window) : (d.setWindow n w).lam = d.lam := rfl
@[simp] theorem Dev.setWindow_alm (n : Nat) (w : Window) : (d.setWindow n w).alm = d.alm := rfl
@[simp] theorem Dev.setWindow_rpl (n : Nat) (w : Window) : (d.setWindow n w).rpl = d.rpl := rfl
@[simp] theorem Dev.setWindow_sec (n : Nat) (w : Window) : (d.setWindow n w).sec = d.sec := rfl
@[simp] theorem Dev.setWindow_out (n : Nat) (w : Window) : (d.setWindow n w).out = d.out := rfl

@[simp] theorem Dev.setMap_now (n : Nat) (m : MapEnt) : (d.setMap n m).now = d.now := rfl
@[simp] theorem Dev.setMap_running (n : Nat) (m : MapEnt) : (d.setMap n m).running = d.running := rfl
@[simp] theorem Dev.setMap_fresh (n : Nat) (m : MapEnt) : (d.setMap n m).fresh = d.fresh := rfl
@[simp] theorem Dev.setMap_fuses (n : Nat) (m : MapEnt) : (d.setMap n m).fuses = d.fuses := rfl
@[simp] theorem Dev.setMap_rst (n : Nat) (m : MapEnt) : (d.setMap n m).rst = d.rst := rfl
@[simp] theorem Dev.setMap_cfg (n : Nat) (m : MapEnt) : (d.setMap n m).cfg = d.cfg := rfl
@[simp] theorem Dev.setMap_regs (n : Nat) (m : MapEnt) : (d.setMap n m).regs = d.regs := rfl
@[simp] theorem Dev.setMap_mem (n : Nat) (m : MapEnt) : (d.setMap n m).mem = d.mem := rfl
@[simp] theorem Dev.setMap_coll (n : Nat) (m : MapEnt) : (d.setMap n m).coll = d.coll := rfl
@[simp] theorem Dev.setMap_safe (n : Nat) (m : MapEnt) : (d.setMap n m).safe = d.safe := rfl
@[simp] theorem Dev.setMap_frame (n : Nat) (m : MapEnt) : (d.setMap n m).frame = d.frame := rfl
@[simp] theorem Dev.setMap_ctxs (n : Nat) (m : MapEnt) : (d.setMap n m).ctxs = d.ctxs := rfl
@[simp] theorem Dev.setMap_runs (n : Nat) (m : MapEnt) : (d.setMap n m).runs = d.runs := rfl
@[simp] theorem Dev.setMap_nextRun (n : Nat) (m : MapEnt) : (d.setMap n m).nextRun = d.nextRun := rfl
@[simp] theorem Dev.setMap_turns (n : Nat) (m : MapEnt) : (d.setMap n m).turns = d.turns := rfl
@[simp] theorem Dev.setMap_flags (n : Nat) (m : MapEnt) : (d.setMap n m).flags = d.flags := rfl
@[simp] theorem Dev.setMap_mods (n : Nat) (m : MapEnt) : (d.setMap n m).mods = d.mods := rfl
@[simp] theorem Dev.setMap_tdt (n : Nat) (m : MapEnt) : (d.setMap n m).tdt = d.tdt := rfl
@[simp] theorem Dev.setMap_kv (n : Nat) (m : MapEnt) : (d.setMap n m).kv = d.kv := rfl
@[simp] theorem Dev.setMap_leap (n : Nat) (m : MapEnt) : (d.setMap n m).leap = d.leap := rfl
@[simp] theorem Dev.setMap_pwr (n : Nat) (m : MapEnt) : (d.setMap n m).pwr = d.pwr := rfl
@[simp] theorem Dev.setMap_lam (n : Nat) (m : MapEnt) : (d.setMap n m).lam = d.lam := rfl
@[simp] theorem Dev.setMap_alm (n : Nat) (m : MapEnt) : (d.setMap n m).alm = d.alm := rfl
@[simp] theorem Dev.setMap_rpl (n : Nat) (m : MapEnt) : (d.setMap n m).rpl = d.rpl := rfl
@[simp] theorem Dev.setMap_sec (n : Nat) (m : MapEnt) : (d.setMap n m).sec = d.sec := rfl
@[simp] theorem Dev.setMap_out (n : Nat) (m : MapEnt) : (d.setMap n m).out = d.out := rfl

@[simp] theorem Dev.wrSram_now (p : Place) (bs : List Nat) : (d.wrSram p bs).now = d.now := rfl
@[simp] theorem Dev.wrSram_running (p : Place) (bs : List Nat) : (d.wrSram p bs).running = d.running := rfl
@[simp] theorem Dev.wrSram_fresh (p : Place) (bs : List Nat) : (d.wrSram p bs).fresh = d.fresh := rfl
@[simp] theorem Dev.wrSram_fuses (p : Place) (bs : List Nat) : (d.wrSram p bs).fuses = d.fuses := rfl
@[simp] theorem Dev.wrSram_rst (p : Place) (bs : List Nat) : (d.wrSram p bs).rst = d.rst := rfl
@[simp] theorem Dev.wrSram_cfg (p : Place) (bs : List Nat) : (d.wrSram p bs).cfg = d.cfg := rfl
@[simp] theorem Dev.wrSram_regs (p : Place) (bs : List Nat) : (d.wrSram p bs).regs = d.regs := rfl
@[simp] theorem Dev.wrSram_coll (p : Place) (bs : List Nat) : (d.wrSram p bs).coll = d.coll := rfl
@[simp] theorem Dev.wrSram_safe (p : Place) (bs : List Nat) : (d.wrSram p bs).safe = d.safe := rfl
@[simp] theorem Dev.wrSram_frame (p : Place) (bs : List Nat) : (d.wrSram p bs).frame = d.frame := rfl
@[simp] theorem Dev.wrSram_ctxs (p : Place) (bs : List Nat) : (d.wrSram p bs).ctxs = d.ctxs := rfl
@[simp] theorem Dev.wrSram_runs (p : Place) (bs : List Nat) : (d.wrSram p bs).runs = d.runs := rfl
@[simp] theorem Dev.wrSram_nextRun (p : Place) (bs : List Nat) : (d.wrSram p bs).nextRun = d.nextRun := rfl
@[simp] theorem Dev.wrSram_turns (p : Place) (bs : List Nat) : (d.wrSram p bs).turns = d.turns := rfl
@[simp] theorem Dev.wrSram_flags (p : Place) (bs : List Nat) : (d.wrSram p bs).flags = d.flags := rfl
@[simp] theorem Dev.wrSram_mods (p : Place) (bs : List Nat) : (d.wrSram p bs).mods = d.mods := rfl
@[simp] theorem Dev.wrSram_tdt (p : Place) (bs : List Nat) : (d.wrSram p bs).tdt = d.tdt := rfl
@[simp] theorem Dev.wrSram_kv (p : Place) (bs : List Nat) : (d.wrSram p bs).kv = d.kv := rfl
@[simp] theorem Dev.wrSram_lnk (p : Place) (bs : List Nat) : (d.wrSram p bs).lnk = d.lnk := rfl
@[simp] theorem Dev.wrSram_leap (p : Place) (bs : List Nat) : (d.wrSram p bs).leap = d.leap := rfl
@[simp] theorem Dev.wrSram_pwr (p : Place) (bs : List Nat) : (d.wrSram p bs).pwr = d.pwr := rfl
@[simp] theorem Dev.wrSram_lam (p : Place) (bs : List Nat) : (d.wrSram p bs).lam = d.lam := rfl
@[simp] theorem Dev.wrSram_alm (p : Place) (bs : List Nat) : (d.wrSram p bs).alm = d.alm := rfl
@[simp] theorem Dev.wrSram_rpl (p : Place) (bs : List Nat) : (d.wrSram p bs).rpl = d.rpl := rfl
@[simp] theorem Dev.wrSram_sec (p : Place) (bs : List Nat) : (d.wrSram p bs).sec = d.sec := rfl
@[simp] theorem Dev.wrSram_out (p : Place) (bs : List Nat) : (d.wrSram p bs).out = d.out := rfl

@[simp] theorem Dev.modCtx_now (key : Nat) (f : Ctx → Ctx) : (d.modCtx key f).now = d.now := rfl
@[simp] theorem Dev.modCtx_running (key : Nat) (f : Ctx → Ctx) : (d.modCtx key f).running = d.running := rfl
@[simp] theorem Dev.modCtx_fresh (key : Nat) (f : Ctx → Ctx) : (d.modCtx key f).fresh = d.fresh := rfl
@[simp] theorem Dev.modCtx_fuses (key : Nat) (f : Ctx → Ctx) : (d.modCtx key f).fuses = d.fuses := rfl
@[simp] theorem Dev.modCtx_rst (key : Nat) (f : Ctx → Ctx) : (d.modCtx key f).rst = d.rst := rfl
@[simp] theorem Dev.modCtx_cfg (key : Nat) (f : Ctx → Ctx) : (d.modCtx key f).cfg = d.cfg := rfl
@[simp] theorem Dev.modCtx_regs (key : Nat) (f : Ctx → Ctx) : (d.modCtx key f).regs = d.regs := rfl
@[simp] theorem Dev.modCtx_mem (key : Nat) (f : Ctx → Ctx) : (d.modCtx key f).mem = d.mem := rfl
@[simp] theorem Dev.modCtx_coll (key : Nat) (f : Ctx → Ctx) : (d.modCtx key f).coll = d.coll := rfl
@[simp] theorem Dev.modCtx_safe (key : Nat) (f : Ctx → Ctx) : (d.modCtx key f).safe = d.safe := rfl
@[simp] theorem Dev.modCtx_frame (key : Nat) (f : Ctx → Ctx) : (d.modCtx key f).frame = d.frame := rfl
@[simp] theorem Dev.modCtx_runs (key : Nat) (f : Ctx → Ctx) : (d.modCtx key f).runs = d.runs := rfl
@[simp] theorem Dev.modCtx_nextRun (key : Nat) (f : Ctx → Ctx) : (d.modCtx key f).nextRun = d.nextRun := rfl
@[simp] theorem Dev.modCtx_turns (key : Nat) (f : Ctx → Ctx) : (d.modCtx key f).turns = d.turns := rfl
@[simp] theorem Dev.modCtx_flags (key : Nat) (f : Ctx → Ctx) : (d.modCtx key f).flags = d.flags := rfl
@[simp] theorem Dev.modCtx_mods (key : Nat) (f : Ctx → Ctx) : (d.modCtx key f).mods = d.mods := rfl
@[simp] theorem Dev.modCtx_tdt (key : Nat) (f : Ctx → Ctx) : (d.modCtx key f).tdt = d.tdt := rfl
@[simp] theorem Dev.modCtx_kv (key : Nat) (f : Ctx → Ctx) : (d.modCtx key f).kv = d.kv := rfl
@[simp] theorem Dev.modCtx_lnk (key : Nat) (f : Ctx → Ctx) : (d.modCtx key f).lnk = d.lnk := rfl
@[simp] theorem Dev.modCtx_leap (key : Nat) (f : Ctx → Ctx) : (d.modCtx key f).leap = d.leap := rfl
@[simp] theorem Dev.modCtx_pwr (key : Nat) (f : Ctx → Ctx) : (d.modCtx key f).pwr = d.pwr := rfl
@[simp] theorem Dev.modCtx_lam (key : Nat) (f : Ctx → Ctx) : (d.modCtx key f).lam = d.lam := rfl
@[simp] theorem Dev.modCtx_alm (key : Nat) (f : Ctx → Ctx) : (d.modCtx key f).alm = d.alm := rfl
@[simp] theorem Dev.modCtx_rpl (key : Nat) (f : Ctx → Ctx) : (d.modCtx key f).rpl = d.rpl := rfl
@[simp] theorem Dev.modCtx_sec (key : Nat) (f : Ctx → Ctx) : (d.modCtx key f).sec = d.sec := rfl
@[simp] theorem Dev.modCtx_out (key : Nat) (f : Ctx → Ctx) : (d.modCtx key f).out = d.out := rfl

@[simp] theorem Dev.modTask_now (slot : Nat) (f : Task → Task) : (d.modTask slot f).now = d.now := rfl
@[simp] theorem Dev.modTask_running (slot : Nat) (f : Task → Task) : (d.modTask slot f).running = d.running := rfl
@[simp] theorem Dev.modTask_fresh (slot : Nat) (f : Task → Task) : (d.modTask slot f).fresh = d.fresh := rfl
@[simp] theorem Dev.modTask_fuses (slot : Nat) (f : Task → Task) : (d.modTask slot f).fuses = d.fuses := rfl
@[simp] theorem Dev.modTask_rst (slot : Nat) (f : Task → Task) : (d.modTask slot f).rst = d.rst := rfl
@[simp] theorem Dev.modTask_cfg (slot : Nat) (f : Task → Task) : (d.modTask slot f).cfg = d.cfg := rfl
@[simp] theorem Dev.modTask_regs (slot : Nat) (f : Task → Task) : (d.modTask slot f).regs = d.regs := rfl
@[simp] theorem Dev.modTask_mem (slot : Nat) (f : Task → Task) : (d.modTask slot f).mem = d.mem := rfl
@[simp] theorem Dev.modTask_coll (slot : Nat) (f : Task → Task) : (d.modTask slot f).coll = d.coll := rfl
@[simp] theorem Dev.modTask_safe (slot : Nat) (f : Task → Task) : (d.modTask slot f).safe = d.safe := rfl
@[simp] theorem Dev.modTask_ctxs (slot : Nat) (f : Task → Task) : (d.modTask slot f).ctxs = d.ctxs := rfl
@[simp] theorem Dev.modTask_runs (slot : Nat) (f : Task → Task) : (d.modTask slot f).runs = d.runs := rfl
@[simp] theorem Dev.modTask_nextRun (slot : Nat) (f : Task → Task) : (d.modTask slot f).nextRun = d.nextRun := rfl
@[simp] theorem Dev.modTask_turns (slot : Nat) (f : Task → Task) : (d.modTask slot f).turns = d.turns := rfl
@[simp] theorem Dev.modTask_flags (slot : Nat) (f : Task → Task) : (d.modTask slot f).flags = d.flags := rfl
@[simp] theorem Dev.modTask_mods (slot : Nat) (f : Task → Task) : (d.modTask slot f).mods = d.mods := rfl
@[simp] theorem Dev.modTask_tdt (slot : Nat) (f : Task → Task) : (d.modTask slot f).tdt = d.tdt := rfl
@[simp] theorem Dev.modTask_kv (slot : Nat) (f : Task → Task) : (d.modTask slot f).kv = d.kv := rfl
@[simp] theorem Dev.modTask_lnk (slot : Nat) (f : Task → Task) : (d.modTask slot f).lnk = d.lnk := rfl
@[simp] theorem Dev.modTask_leap (slot : Nat) (f : Task → Task) : (d.modTask slot f).leap = d.leap := rfl
@[simp] theorem Dev.modTask_pwr (slot : Nat) (f : Task → Task) : (d.modTask slot f).pwr = d.pwr := rfl
@[simp] theorem Dev.modTask_lam (slot : Nat) (f : Task → Task) : (d.modTask slot f).lam = d.lam := rfl
@[simp] theorem Dev.modTask_alm (slot : Nat) (f : Task → Task) : (d.modTask slot f).alm = d.alm := rfl
@[simp] theorem Dev.modTask_rpl (slot : Nat) (f : Task → Task) : (d.modTask slot f).rpl = d.rpl := rfl
@[simp] theorem Dev.modTask_sec (slot : Nat) (f : Task → Task) : (d.modTask slot f).sec = d.sec := rfl
@[simp] theorem Dev.modTask_out (slot : Nat) (f : Task → Task) : (d.modTask slot f).out = d.out := rfl

@[simp] theorem Dev.addRun_now (r : Run) : (d.addRun r).now = d.now := rfl
@[simp] theorem Dev.addRun_running (r : Run) : (d.addRun r).running = d.running := rfl
@[simp] theorem Dev.addRun_fresh (r : Run) : (d.addRun r).fresh = d.fresh := rfl
@[simp] theorem Dev.addRun_fuses (r : Run) : (d.addRun r).fuses = d.fuses := rfl
@[simp] theorem Dev.addRun_rst (r : Run) : (d.addRun r).rst = d.rst := rfl
@[simp] theorem Dev.addRun_cfg (r : Run) : (d.addRun r).cfg = d.cfg := rfl
@[simp] theorem Dev.addRun_regs (r : Run) : (d.addRun r).regs = d.regs := rfl
@[simp] theorem Dev.addRun_mem (r : Run) : (d.addRun r).mem = d.mem := rfl
@[simp] theorem Dev.addRun_coll (r : Run) : (d.addRun r).coll = d.coll := rfl
@[simp] theorem Dev.addRun_safe (r : Run) : (d.addRun r).safe = d.safe := rfl
@[simp] theorem Dev.addRun_frame (r : Run) : (d.addRun r).frame = d.frame := rfl
@[simp] theorem Dev.addRun_ctxs (r : Run) : (d.addRun r).ctxs = d.ctxs := rfl
@[simp] theorem Dev.addRun_turns (r : Run) : (d.addRun r).turns = d.turns := rfl
@[simp] theorem Dev.addRun_flags (r : Run) : (d.addRun r).flags = d.flags := rfl
@[simp] theorem Dev.addRun_mods (r : Run) : (d.addRun r).mods = d.mods := rfl
@[simp] theorem Dev.addRun_tdt (r : Run) : (d.addRun r).tdt = d.tdt := rfl
@[simp] theorem Dev.addRun_kv (r : Run) : (d.addRun r).kv = d.kv := rfl
@[simp] theorem Dev.addRun_lnk (r : Run) : (d.addRun r).lnk = d.lnk := rfl
@[simp] theorem Dev.addRun_leap (r : Run) : (d.addRun r).leap = d.leap := rfl
@[simp] theorem Dev.addRun_pwr (r : Run) : (d.addRun r).pwr = d.pwr := rfl
@[simp] theorem Dev.addRun_lam (r : Run) : (d.addRun r).lam = d.lam := rfl
@[simp] theorem Dev.addRun_alm (r : Run) : (d.addRun r).alm = d.alm := rfl
@[simp] theorem Dev.addRun_rpl (r : Run) : (d.addRun r).rpl = d.rpl := rfl
@[simp] theorem Dev.addRun_sec (r : Run) : (d.addRun r).sec = d.sec := rfl
@[simp] theorem Dev.addRun_out (r : Run) : (d.addRun r).out = d.out := rfl

@[simp] theorem Dev.modRun_now (id : Nat) (f : Run → Run) : (d.modRun id f).now = d.now := rfl
@[simp] theorem Dev.modRun_running (id : Nat) (f : Run → Run) : (d.modRun id f).running = d.running := rfl
@[simp] theorem Dev.modRun_fresh (id : Nat) (f : Run → Run) : (d.modRun id f).fresh = d.fresh := rfl
@[simp] theorem Dev.modRun_fuses (id : Nat) (f : Run → Run) : (d.modRun id f).fuses = d.fuses := rfl
@[simp] theorem Dev.modRun_rst (id : Nat) (f : Run → Run) : (d.modRun id f).rst = d.rst := rfl
@[simp] theorem Dev.modRun_cfg (id : Nat) (f : Run → Run) : (d.modRun id f).cfg = d.cfg := rfl
@[simp] theorem Dev.modRun_regs (id : Nat) (f : Run → Run) : (d.modRun id f).regs = d.regs := rfl
@[simp] theorem Dev.modRun_mem (id : Nat) (f : Run → Run) : (d.modRun id f).mem = d.mem := rfl
@[simp] theorem Dev.modRun_coll (id : Nat) (f : Run → Run) : (d.modRun id f).coll = d.coll := rfl
@[simp] theorem Dev.modRun_safe (id : Nat) (f : Run → Run) : (d.modRun id f).safe = d.safe := rfl
@[simp] theorem Dev.modRun_frame (id : Nat) (f : Run → Run) : (d.modRun id f).frame = d.frame := rfl
@[simp] theorem Dev.modRun_ctxs (id : Nat) (f : Run → Run) : (d.modRun id f).ctxs = d.ctxs := rfl
@[simp] theorem Dev.modRun_nextRun (id : Nat) (f : Run → Run) : (d.modRun id f).nextRun = d.nextRun := rfl
@[simp] theorem Dev.modRun_turns (id : Nat) (f : Run → Run) : (d.modRun id f).turns = d.turns := rfl
@[simp] theorem Dev.modRun_flags (id : Nat) (f : Run → Run) : (d.modRun id f).flags = d.flags := rfl
@[simp] theorem Dev.modRun_mods (id : Nat) (f : Run → Run) : (d.modRun id f).mods = d.mods := rfl
@[simp] theorem Dev.modRun_tdt (id : Nat) (f : Run → Run) : (d.modRun id f).tdt = d.tdt := rfl
@[simp] theorem Dev.modRun_kv (id : Nat) (f : Run → Run) : (d.modRun id f).kv = d.kv := rfl
@[simp] theorem Dev.modRun_lnk (id : Nat) (f : Run → Run) : (d.modRun id f).lnk = d.lnk := rfl
@[simp] theorem Dev.modRun_leap (id : Nat) (f : Run → Run) : (d.modRun id f).leap = d.leap := rfl
@[simp] theorem Dev.modRun_pwr (id : Nat) (f : Run → Run) : (d.modRun id f).pwr = d.pwr := rfl
@[simp] theorem Dev.modRun_lam (id : Nat) (f : Run → Run) : (d.modRun id f).lam = d.lam := rfl
@[simp] theorem Dev.modRun_alm (id : Nat) (f : Run → Run) : (d.modRun id f).alm = d.alm := rfl
@[simp] theorem Dev.modRun_rpl (id : Nat) (f : Run → Run) : (d.modRun id f).rpl = d.rpl := rfl
@[simp] theorem Dev.modRun_sec (id : Nat) (f : Run → Run) : (d.modRun id f).sec = d.sec := rfl
@[simp] theorem Dev.modRun_out (id : Nat) (f : Run → Run) : (d.modRun id f).out = d.out := rfl

/-! ## What the updates do to their own field -/

@[simp] theorem Dev.take_fresh : d.take.fresh = d.fresh + 1 := rfl
@[simp] theorem Dev.atTime_now (t : Nat) : (d.at_ t).now = Nat.max d.now t := rfl
@[simp] theorem Dev.send_tx (m : Tx) : (d.send m).out.tx = d.out.tx ++ [m] := rfl
@[simp] theorem Dev.send_rdata (m : Tx) : (d.send m).out.rdata = d.out.rdata := rfl
@[simp] theorem Dev.ret_rdata (l : List Nat) : (d.ret l).out.rdata = l := rfl
@[simp] theorem Dev.ret_poisoned (l : List Nat) : (d.ret l).out.poisoned = false := rfl
@[simp] theorem Dev.ret_tx (l : List Nat) : (d.ret l).out.tx = d.out.tx := rfl

/-! ## Effects on the state -/

/-- An effect leaves the queue alone. -/
@[simp] theorem State.upd_pending (s : State) (f : Dev → Dev) : (s.upd f).pending = s.pending := by
  unfold State.upd; split <;> rfl
@[simp] theorem State.updAlways_pending (s : State) (f : Dev → Dev) : (s.updAlways f).pending = s.pending := rfl
/-- Out of cold reset the effect happens. -/
theorem State.upd_active (s : State) (f : Dev → Dev) (h : s.dev.rst.held = false) : s.upd f = { s with dev := f s.dev } := by
  simp [State.upd, State.updAlways, h]
/-- While PORST_N holds the block, it does not. -/
theorem State.upd_held (s : State) (f : Dev → Dev) (h : s.dev.rst.held = true) : s.upd f = s := by simp [State.upd, h]

end Sys2Proof.Machine
end

