-- ==== Sys2Proof/Laws/Ops.lean ====
section
/-!
SUPPORT. What the shared operations do: how a meaning over the block becomes a completion, and what kills, block resets and fault events
can change.
-/
namespace Sys2Proof.Machine

/-! ## From a meaning to a completion -/

theorem does_upd {c : Instr} {f : Dev → Dev} {d : Dev} (h : ∀ s, exec c s = .next (s.upd f)) (ha : d.awake) : Does c d (f d) := by
  intro q
  rw [h, State.upd_active ⟨q, d⟩ f ha]

theorem does_upd_eq {c : Instr} {d e : Dev} (f : Dev → Dev) (h : ∀ s, exec c s = .next (s.upd f)) (ha : d.awake) (he : f d = e) :
    Does c d e := he ▸ does_upd h ha

theorem does_always {c : Instr} {f : Dev → Dev} {d : Dev} (h : ∀ s, exec c s = .next (s.updAlways f)) : Does c d (f d) := by
  intro q
  rw [h]
  rfl

theorem completes_upd {c : Instr} {f : Dev → Dev} {d : Dev} {P : Dev → Prop} (h : ∀ s, exec c s = .next (s.upd f)) (ha : d.awake)
    (hp : P (f d)) : Completes c d P := ⟨f d, does_upd h ha, hp⟩

/-! ## Kills for a re-run (R249, R250) and block resets (R368) -/

/-- What kills for a re-run can change: commands and their charges, contexts' slices, and on-chip bytes. -/
def KillsOnly (d e : Dev) : Prop :=
  ∃ runs frame ctxs sram fresh,
    e = { d with runs := runs, frame := frame, ctxs := ctxs, mem := { d.mem with sram := sram }, fresh := fresh }

theorem KillsOnly.refl (d : Dev) : KillsOnly d d := ⟨d.runs, d.frame, d.ctxs, d.mem.sram, d.fresh, rfl⟩

theorem KillsOnly.trans {a b c : Dev} (h1 : KillsOnly a b) (h2 : KillsOnly b c) : KillsOnly a c := by
  obtain ⟨r1, f1, x1, m1, n1, rfl⟩ := h1
  obtain ⟨r2, f2, x2, m2, n2, rfl⟩ := h2
  exact ⟨r2, f2, x2, m2, n2, rfl⟩

theorem foldl_killsOnly {α : Type} (f : Dev → α → Dev) (h : ∀ d x, KillsOnly d (f d x)) (l : List α) (d : Dev) :
    KillsOnly d (l.foldl f d) := by
  induction l generalizing d with
  | nil => exact .refl d
  | cons x l ih => exact (h d x).trans (ih _)

theorem Dev.forgetUnits_killsOnly (d : Dev) (us : List Nat) : KillsOnly d (d.forgetUnits us) := by
  unfold Dev.forgetUnits
  apply foldl_killsOnly
  intro d u
  split
  · exact ⟨d.runs, d.frame, d.ctxs, _, _, rfl⟩
  · exact .refl d

theorem Dev.forgetRun_killsOnly (d : Dev) (r : Run) : KillsOnly d (d.forgetRun r) :=
  (Dev.forgetUnits_killsOnly d _).trans
    (foldl_killsOnly _ (fun d _ => ⟨d.runs, d.frame, d.ctxs, _, _, rfl⟩) r.wrote _)

theorem Dev.charge_killsOnly (d : Dev) (id : Nat) (task : Bool) : KillsOnly d (d.charge id task) := by
  unfold Dev.charge
  split
  · exact .refl d
  · split
    · exact .refl d
    · simp only
      split
      · split
        · exact ⟨_, _, d.ctxs, d.mem.sram, d.fresh, rfl⟩
        · exact ⟨_, d.frame, d.ctxs, d.mem.sram, d.fresh, rfl⟩
      · split
        · exact ⟨_, d.frame, _, d.mem.sram, d.fresh, rfl⟩
        · exact ⟨_, d.frame, d.ctxs, d.mem.sram, d.fresh, rfl⟩

theorem Dev.uncharge_killsOnly (d : Dev) (r : Run) : KillsOnly d (d.uncharge r) := by
  unfold Dev.uncharge
  split
  · split
    · exact ⟨d.runs, _, d.ctxs, d.mem.sram, d.fresh, rfl⟩
    · exact .refl d
  · exact ⟨d.runs, d.frame, _, d.mem.sram, d.fresh, rfl⟩

theorem Dev.stopRerun_killsOnly (d : Dev) (id : Nat) (ph : RunPhase) (task : Bool) : KillsOnly d (d.stopRerun id ph task) := by
  unfold Dev.stopRerun
  split
  · exact .refl d
  · rename_i r _
    have h : KillsOnly d (if task then d.charge id true else (d.charge id false).uncharge r) := by
      split
      · exact Dev.charge_killsOnly d id true
      · exact (Dev.charge_killsOnly d id false).trans (Dev.uncharge_killsOnly _ r)
    exact (h.trans (Dev.forgetRun_killsOnly _ _)).trans ⟨_, Dev.frame _, Dev.ctxs _, MemSt.sram _, Dev.fresh _, rfl⟩

theorem Dev.killRerun_killsOnly (d : Dev) (id : Nat) (ph : RunPhase) (task : Bool) : KillsOnly d (d.killRerun id ph task) := by
  unfold Dev.killRerun
  split
  · exact .refl d
  · split
    · exact .refl d
    · exact Dev.stopRerun_killsOnly d id ph task

theorem Dev.abandonEntry_shape (d : Dev) :
    ∃ regs entering, d.abandonEntry = { d with regs := regs, rst := { d.rst with entering := entering } } := by
  unfold Dev.abandonEntry
  split
  · exact ⟨d.regs, d.rst.entering, rfl⟩
  · exact ⟨_, 0, rfl⟩

/-- A block reset adds to the blocks in reset, kills, and abandons the tests in the block and an entry to a low-power state. -/
theorem Dev.startBlockReset_shape (d : Dev) (m : Nat) :
    ∃ regs entering units blocks, KillsOnly { d with
      regs := regs, rst := { d.rst with entering := entering }, leap := { d.leap with units := units },
      coll := { d.coll with blockResets := blocks } } (d.startBlockReset m) := by
  unfold Dev.startBlockReset
  split
  · exact ⟨d.regs, d.rst.entering, d.leap.units, d.coll.blockResets, .refl d⟩
  · obtain ⟨g, en, h⟩ := d.abandonEntry_shape
    simp only [h, Dev.restartTests]
    exact ⟨g, en, _, _, foldl_killsOnly _ (fun d p => Dev.killRerun_killsOnly d _ _ _) _ _⟩

/-! ## A fault event (R363 to R370) -/

/-- What an event can change beside the collector: a block reset's kills and the tests it starts again, the entry to a low-power state that
one abandons, a message, and the time of a chip reset. -/
def ReactsOnly (d e : Dev) : Prop :=
  ∃ runs frame ctxs sram fresh regs entering chip units coll out,
    e = { d with
      runs := runs, frame := frame, ctxs := ctxs, mem := { d.mem with sram := sram }, fresh := fresh, regs := regs,
      rst := { d.rst with entering := entering, chipAt := chip }, leap := { d.leap with units := units }, coll := coll, out := out }

theorem ReactsOnly.refl (d : Dev) : ReactsOnly d d :=
  ⟨d.runs, d.frame, d.ctxs, d.mem.sram, d.fresh, d.regs, d.rst.entering, d.rst.chipAt, d.leap.units, d.coll, d.out, rfl⟩

theorem ReactsOnly.trans {a b c : Dev} (h1 : ReactsOnly a b) (h2 : ReactsOnly b c) : ReactsOnly a c := by
  obtain ⟨r1, f1, x1, m1, n1, g1, e1, p1, u1, c1, o1, rfl⟩ := h1
  obtain ⟨r2, f2, x2, m2, n2, g2, e2, p2, u2, c2, o2, rfl⟩ := h2
  exact ⟨r2, f2, x2, m2, n2, g2, e2, p2, u2, c2, o2, rfl⟩

theorem Dev.send_reactsOnly (d : Dev) (m : Tx) : ReactsOnly d (d.send m) :=
  ⟨d.runs, d.frame, d.ctxs, d.mem.sram, d.fresh, d.regs, d.rst.entering, d.rst.chipAt, d.leap.units, d.coll, _, rfl⟩

theorem Dev.startBlockReset_reactsOnly (d : Dev) (m : Nat) : ReactsOnly d (d.startBlockReset m) := by
  obtain ⟨g, e, u, b, r, f, x, s, n, h⟩ := d.startBlockReset_shape m
  rw [h]
  exact ⟨r, f, x, s, n, g, e, d.rst.chipAt, u, _, d.out, rfl⟩

/-- What the reactions do to the collector: PENDING, the latch, the NMI, and the blocks in reset. -/
theorem Dev.react_coll (d : Dev) (e : FaultEv) (rs : Nat) :
    ∃ blocks, (d.react e rs).coll = { d.coll with
      pending := setBit512 d.coll.pending e.src,
      latch := if maskHas rs 4 then setBit512 d.coll.latch e.src else d.coll.latch,
      nmi := if maskHas rs 1 || (maskHas rs 2 && decide (unitKind e.master ≥ 7)) then d.coll.nmi ++ [(e, d.scopeOf e.master)] else d.coll.nmi,
      blockResets := blocks } := by
  have key : ∀ (x : Dev) (m : Nat), ∃ blocks, (x.startBlockReset m).coll = { x.coll with blockResets := blocks } := by
    intro x m
    obtain ⟨g, en, u, b, r, f, c, s, n, h⟩ := x.startBlockReset_shape m
    exact ⟨b, by rw [h]⟩
  have keep : ∀ x : Dev, x.abandonEntry.coll = x.coll := by
    intro x
    obtain ⟨g, en, h⟩ := x.abandonEntry_shape
    rw [h]
  unfold Dev.react
  simp only
  split_ifs <;> (try rw [keep]) <;> first | exact ⟨_, rfl⟩ | exact key _ _

theorem Dev.react_reactsOnly (d : Dev) (e : FaultEv) (rs : Nat) : ReactsOnly d (d.react e rs) := by
  unfold Dev.react
  simp only
  have h0 : ∀ c : Coll, ReactsOnly d { d with coll := c } := fun c =>
    ⟨d.runs, d.frame, d.ctxs, d.mem.sram, d.fresh, d.regs, d.rst.entering, d.rst.chipAt, d.leap.units, c, d.out, rfl⟩
  have h3 : ∀ (x : Dev) (n : Option Nat), ReactsOnly x (Dev.abandonEntry { x with rst := { x.rst with chipAt := n } }) := fun x n => by
    obtain ⟨g, en, h⟩ := Dev.abandonEntry_shape { x with rst := { x.rst with chipAt := n } }
    rw [h]
    exact ⟨x.runs, x.frame, x.ctxs, x.mem.sram, x.fresh, g, en, n, x.leap.units, x.coll, x.out, rfl⟩
  have h1 : ∀ (x : Dev) (b : Bool) (m : Tx), ReactsOnly x (if b then x.send m else x) := fun x b m => by
    cases b
    · exact .refl x
    · exact Dev.send_reactsOnly x m
  have h2 : ∀ (x : Dev) (b : Bool) (m : Nat), ReactsOnly x (if b then x.startBlockReset m else x) := fun x b m => by
    cases b
    · exact .refl x
    · exact Dev.startBlockReset_reactsOnly x m
  have h4 : ∀ (x : Dev) (b : Bool) (n : Option Nat),
      ReactsOnly x (if b then Dev.abandonEntry { x with rst := { x.rst with chipAt := n } } else x) := fun x b n => by
    cases b
    · exact .refl x
    · exact h3 x n
  exact (((h0 _).trans (h1 _ _ _)).trans (h2 _ _ _)).trans (h4 _ _ _)

theorem Dev.event_reactsOnly (d : Dev) (e : FaultEv) : ReactsOnly d (d.event e) := by
  unfold Dev.event
  split
  · exact .refl d
  · refine ReactsOnly.trans ?_ (Dev.react_reactsOnly _ _ _)
    exact ⟨d.runs, d.frame, d.ctxs, d.mem.sram, d.fresh, d.regs, d.rst.entering, d.rst.chipAt, d.leap.units, _, d.out, rfl⟩

/-! ## What an event leaves in the collector -/

theorem Coll.record_srcs (c : Coll) (e : FaultEv) (b : Bool) : (c.record e b).srcs = c.srcs := by
  unfold Coll.record; simp only; split <;> [rfl; (split <;> rfl)]
theorem Coll.record_severe (c : Coll) (e : FaultEv) (b : Bool) : (c.record e b).severe = c.severe := by
  unfold Coll.record; simp only; split <;> [rfl; (split <;> rfl)]
theorem Coll.record_pending (c : Coll) (e : FaultEv) (b : Bool) : (c.record e b).pending = c.pending := by
  unfold Coll.record; simp only; split <;> [rfl; (split <;> rfl)]

theorem Coll.receive_pending (c : Coll) (e : FaultEv) : (c.receive e).pending = c.pending := by
  unfold Coll.receive; simp only [Coll.record_pending]; split <;> rfl

/-- The counted source has the state that `countEvent` gives. -/
theorem Coll.receive_src_same (c : Coll) (e : FaultEv) :
    (c.receive e).src e.src = (countEvent (c.src e.src) (c.severe.getLsbD e.src) e.t).1 := by
  have h : (c.receive e).srcs = (c.setSrc e.src (countEvent (c.src e.src) (c.severe.getLsbD e.src) e.t).1).srcs := by
    unfold Coll.receive; simp only [Coll.record_srcs]; split <;> rfl
  rw [Coll.src, h]
  exact mget_mput_same _ _ _ _

/-- Every other source is left alone. -/
theorem Coll.receive_src_ne (c : Coll) (e : FaultEv) (i : Nat) (hi : i ≠ e.src) : (c.receive e).src i = c.src i := by
  have h : (c.receive e).srcs = (c.setSrc e.src (countEvent (c.src e.src) (c.severe.getLsbD e.src) e.t).1).srcs := by
    unfold Coll.receive; simp only [Coll.record_srcs]; split <;> rfl
  rw [Coll.src, h]
  exact mget_mput_ne _ _ _ _ _ _ hi

theorem Coll.receive_severe (c : Coll) (e : FaultEv) :
    (c.receive e).severe = if c.isSevere e then setBit512 c.severe e.src else c.severe := by
  unfold Coll.receive; simp only [Coll.record_severe]; split <;> rfl

theorem Coll.receive_first_none (c : Coll) (e : FaultEv) (h : c.first = none) :
    (c.receive e).first = some ⟨e, c.isSevere e⟩ ∧ (c.receive e).mergeCnt = c.mergeCnt ∧ (c.receive e).merged = c.merged := by
  unfold Coll.receive
  simp only
  split <;> simp [Coll.record, Coll.setSrc, h]

/-- A record that is VALID stays, but for an earlier event of the same cycle; the other of the two is merged (R370). -/
theorem Coll.receive_first_some (c : Coll) (e : FaultEv) (r : FirstRec) (h : c.first = some r) :
    (c.receive e).first = some (if e.before r.ev then ⟨e, c.isSevere e⟩ else r) ∧ (c.receive e).mergeCnt = Nat.min (c.mergeCnt + 1) 65535 ∧
    (c.receive e).merged = setBit512 c.merged (if e.before r.ev then r.ev.src else e.src) := by
  unfold Coll.receive
  simp only
  split <;> by_cases hb : e.before r.ev = true <;> simp [Coll.record, Coll.setSrc, h, hb]

/-- The collector after an event of a known source and a known master. -/
theorem Dev.event_coll (d : Dev) (e : FaultEv) (hr : d.coll.ready = true) (hk : sourceKnown e.src = true)
    (hm : masterKnown e.master = true) :
    ∃ latch nmi blocks, (d.event e).coll = { d.coll.receive e with
      pending := setBit512 d.coll.pending e.src, latch := latch, nmi := nmi, blockResets := blocks } := by
  unfold Dev.event
  simp only [hr, hk, hm, Bool.not_true, Bool.or_self, Bool.false_eq_true, if_false]
  obtain ⟨b, hb⟩ := Dev.react_coll { d with coll := d.coll.receive e } e
    (if d.coll.isSevere e then (d.coll.src e.src).severe else (d.coll.src e.src).minor)
  rw [← Coll.receive_pending d.coll e]
  exact ⟨_, _, b, hb⟩

/-- An event whose master names no block with a block reset changes the collector, may send an interrupt, and may set the time of a chip
reset, which abandons an entry to a low-power state. -/
theorem Dev.event_hub (d : Dev) (e : FaultEv) (h : 7 ≤ unitKind e.master) :
    ∃ coll out chip regs entering,
      d.event e = { d with coll := coll, out := out, regs := regs, rst := { d.rst with chipAt := chip, entering := entering } } := by
  unfold Dev.event
  split
  · exact ⟨d.coll, d.out, d.rst.chipAt, d.regs, d.rst.entering, rfl⟩
  · have abandon : ∀ (c : Coll) (o : Out) (n : Option Nat), ∃ coll out chip regs entering,
        Dev.abandonEntry { d with coll := c, out := o, rst := { d.rst with chipAt := n } } =
          { d with coll := coll, out := out, regs := regs, rst := { d.rst with chipAt := chip, entering := entering } } := by
      intro c o n
      obtain ⟨g, en, h⟩ := Dev.abandonEntry_shape { d with coll := c, out := o, rst := { d.rst with chipAt := n } }
      exact ⟨c, o, n, g, en, h⟩
    unfold Dev.react
    simp only [ge_iff_le, h, decide_true, Bool.not_true, Bool.and_false, Bool.false_eq_true, if_false]
    split_ifs <;> first | exact abandon _ _ _ | exact ⟨_, _, d.rst.chipAt, d.regs, d.rst.entering, rfl⟩

theorem Dev.raise_hub (d : Dev) (src master addr acc : Nat) (h : 7 ≤ unitKind master) :
    ∃ coll out chip regs entering, d.raise src master addr acc =
      { d with coll := coll, out := out, regs := regs, rst := { d.rst with chipAt := chip, entering := entering } } :=
  Dev.event_hub _ _ h

/-- A fold of steps that keep a value keeps it. -/
theorem foldl_keeps {α β : Type} (v : Dev → β) (f : Dev → α → Dev) (h : ∀ d x, v (f d x) = v d) (l : List α) (d : Dev) :
    v (l.foldl f d) = v d := by
  induction l generalizing d with
  | nil => rfl
  | cons x l ih => rw [List.foldl_cons, ih, h]

theorem Dev.raise_reactsOnly (d : Dev) (src master addr acc : Nat) : ReactsOnly d (d.raise src master addr acc) :=
  Dev.event_reactsOnly _ _

end Sys2Proof.Machine
end

