-- ==== Sys2Proof/Laws/Engine.lean ====
section
/-!
SUPPORT. What the shared operations of engine instructions do.
-/
namespace Sys2Proof.Machine

/-- What it means that a member has an instruction to issue. -/
theorem Dev.curOp_some {d : Dev} {id g : Nat} {cls op : Nat} {c : Cur} (h : d.curOp id g cls op = some c) :
    ∃ md, mfind d.runs id = some c.r ∧ c.r.runNo.isSome = true ∧ c.r.members[g]? = some c.m ∧ mfind d.mods c.r.modId = some md ∧
      c.m.stall = .none ∧ insAt md.code c.m.pc = some c.i ∧ c.code = md.code ∧ c.i.idx = c.m.pc ∧ c.i.cls = cls ∧ c.i.op = op := by
  unfold Dev.curOp at h
  obtain ⟨x, hx, h⟩ := Option.bind_eq_some_iff.mp h
  split at h <;> simp at h
  next hc =>
  subst h
  unfold Dev.cur at hx
  split at hx
  · simp at hx
  next r hr =>
  split at hx
  · simp at hx
  next hn =>
  split at hx
  · next m md hm hmd =>
    split at hx
    · next hs =>
      obtain ⟨i, hi, rfl⟩ := Option.map_eq_some_iff.mp hx
      refine ⟨md, hr, by cases hq : r.runNo <;> simp_all, hm, hmd, hs, hi, rfl, ?_, hc.1, hc.2⟩
      unfold insAt at hi
      split at hi <;> simp at hi
      subst hi; rfl
    · simp at hx
  · simp at hx

/-- Two changes of one member are one. -/
theorem Dev.modMember_modMember (d : Dev) (id g : Nat) (f h : Member → Member) :
    (d.modMember id g f).modMember id g h = d.modMember id g (fun m => h (f m)) := by
  unfold Dev.modMember Dev.modRun
  simp only [mmod, List.map_map]
  congr 1
  apply List.map_congr_left
  intro p _
  by_cases hp : p.1 = id <;> simp [hp]
  apply List.ext_getElem?
  intro i
  simp only [List.getElem?_mapIdx]
  cases p.2.members[i]? with
  | none => rfl
  | some m => by_cases hi : i = g <;> simp [hi]


end Sys2Proof.Machine
end

