-- ==== Sys2Proof/Laws/Memory.lean ====
section
/-!
SUPPORT. The laws of a memory: a byte reads as written, every other byte is left alone, and every operation keeps the canonical form.
-/
namespace Sys2Proof.Machine

/-! ## Listed bytes -/

theorem findCell_setCell_same (m : List Host.Cell) (a : Nat) (v : Byte) : findCell (setCell m a v) a = some v := by
  induction m with
  | nil => simp [setCell, findCell]
  | cons p m ih =>
    obtain ⟨j, w⟩ := p
    by_cases h1 : a < j
    · simp [setCell, findCell, h1]
    · by_cases h2 : a = j
      · simp [setCell, findCell, h2]
      · simp [setCell, findCell, h1, h2, Ne.symm h2, ih]

theorem findCell_setCell_ne (m : List Host.Cell) (a i : Nat) (v : Byte) (h : i ≠ a) :
    findCell (setCell m a v) i = findCell m i := by
  induction m with
  | nil => simp [setCell, findCell, Ne.symm h]
  | cons p m ih =>
    obtain ⟨j, w⟩ := p
    by_cases h1 : a < j
    · simp [setCell, findCell, h1, Ne.symm h]
    · by_cases h2 : a = j
      · subst h2; simp [setCell, findCell, Ne.symm h]
      · by_cases h3 : j = i
        · subst h3; simp [setCell, findCell, h1, h2]
        · simp [setCell, findCell, h1, h2, h3, ih]

theorem findCell_filter (m : List Host.Cell) (p : Nat → Bool) (i : Nat) :
    findCell (m.filter (fun c => p c.1)) i = if p i then findCell m i else none := by
  induction m with
  | nil => simp [findCell]
  | cons q m ih =>
    obtain ⟨j, w⟩ := q
    by_cases hp : p j
    · by_cases hj : j = i
      · subst hj; simp [findCell, hp]
      · simp [findCell, hp, hj, ih]
    · by_cases hj : j = i
      · subst hj; simp [hp, ih]
      · simp [findCell, hp, hj, ih]

theorem findCell_eraseCell (m : List Host.Cell) (a i : Nat) : findCell (eraseCell m a) i = if i = a then none else findCell m i := by
  have h := findCell_filter m (fun k => k != a) i
  unfold eraseCell
  rw [h]
  by_cases hi : i = a <;> simp [hi]

/-! ## Reading and writing a byte -/

/-- A byte reads as written. -/
@[simp] theorem Mem.read_write_same (m : Mem) (a : Nat) (v : Byte) : (m.write a v).read a = v := by
  unfold Mem.write
  split
  · next h => simp [Mem.read, findCell_eraseCell, Mem.blank, h.1, h.2]
  · simp [Mem.read, findCell_setCell_same]

/-- A write leaves every other byte alone. -/
theorem Mem.read_write_ne (m : Mem) (a i : Nat) (v : Byte) (h : i ≠ a) : (m.write a v).read i = m.read i := by
  unfold Mem.write
  split
  · simp [Mem.read, findCell_eraseCell, Mem.blank, h]
  · simp [Mem.read, findCell_setCell_ne _ _ _ _ h, Mem.blank]

/-- A string of bytes leaves every byte before it and after it alone. -/
theorem Mem.read_writeBytes_out (m : Mem) (a i : Nat) (bs : List Nat) (h : i < a ∨ a + bs.length ≤ i) :
    (m.writeBytes a bs).read i = m.read i := by
  induction bs generalizing m a with
  | nil => rfl
  | cons b bs ih =>
    simp only [List.length_cons] at h
    rw [Mem.writeBytes, ih _ _ (by omega), Mem.read_write_ne _ _ _ _ (by omega)]

/-- A string of bytes reads as written. -/
theorem Mem.read_writeBytes_in (m : Mem) (a i : Nat) (bs : List Nat) (h : i < bs.length) :
    (m.writeBytes a bs).read (a + i) = BitVec.ofNat 8 (bs.getD i 0) := by
  induction bs generalizing m a i with
  | nil => simp at h
  | cons b bs ih =>
    cases i with
    | zero => rw [Mem.writeBytes, Mem.read_writeBytes_out _ _ _ _ (by omega)]; simp
    | succ i =>
      have := ih (m.write a (BitVec.ofNat 8 b)) (a + 1) i (by simpa using h)
      rw [Mem.writeBytes, show a + (i + 1) = a + 1 + i by omega, this]
      simp

/-- Bytes written in their range read back as they were written. -/
theorem Mem.readBytes_writeBytes (m : Mem) (a : Nat) (bs : List Nat) (h : ∀ b ∈ bs, b < 256) :
    (m.writeBytes a bs).readBytes a bs.length = bs := by
  apply List.ext_getElem
  · simp [Mem.readBytes]
  · intro i h1 h2
    have hb := h _ (List.getElem_mem h2)
    simp only [Mem.readBytes, List.getElem_map, List.getElem_range]
    rw [Mem.read_writeBytes_in m a i bs h2]
    simp [List.getD_eq_getElem?_getD, h2]
    omega

/-! ## Ranges of undefined content -/

theorem findUndef_insRange (u : List (Nat × Nat × Nat)) (r : Nat × Nat × Nat) (i : Nat) :
    (findUndef (insRange u r) i).isSome = ((findUndef u i).isSome || (decide (r.1 ≤ i) && decide (i < r.2.1))) := by
  obtain ⟨lo, hi, id⟩ := r
  induction u with
  | nil => by_cases h1 : lo ≤ i <;> by_cases h2 : i < hi <;> simp [insRange, findUndef, h1, h2]
  | cons q u ih =>
    obtain ⟨a, b, c⟩ := q
    simp only [insRange]
    split
    · by_cases h1 : lo ≤ i <;> by_cases h2 : i < hi <;> simp [findUndef, h1, h2]
    · by_cases h : a ≤ i ∧ i < b
      · simp [findUndef, h]
      · simp only [findUndef, h, if_false]; exact ih

theorem findUndef_append (u v : List (Nat × Nat × Nat)) (i : Nat) : findUndef (u ++ v) i = (findUndef u i).or (findUndef v i) := by
  induction u with
  | nil => simp [findUndef]
  | cons q u ih =>
    obtain ⟨a, b, c⟩ := q
    simp only [List.cons_append, findUndef]
    split
    · simp
    · exact ih

/-- Cutting bytes out of a range leaves its other bytes in it. -/
theorem findUndef_cutRange (lo hi : Nat) (r : Nat × Nat × Nat) (i : Nat) (h : i < lo ∨ hi ≤ i) :
    findUndef (cutRange lo hi r) i = findUndef [r] i := by
  obtain ⟨a, b, c⟩ := r
  unfold cutRange
  simp only
  split_ifs <;> simp only [List.append_nil, List.nil_append, List.cons_append, findUndef] <;> (split_ifs <;> first | rfl | omega)

theorem findUndef_cut (u : List (Nat × Nat × Nat)) (lo hi i : Nat) (h : i < lo ∨ hi ≤ i) :
    findUndef (u.flatMap (cutRange lo hi)) i = findUndef u i := by
  induction u with
  | nil => rfl
  | cons q u ih =>
    rw [List.flatMap_cons, findUndef_append, ih, findUndef_cutRange lo hi q i h, ← findUndef_append]
    rfl

/-! ## The canonical form -/

theorem keysRise_cons {α : Type} (p : Nat × α) (m : List (Nat × α)) :
    keysRise (p :: m) = true ↔ keysRise m = true ∧ ∀ q ∈ m, p.1 < q.1 := by
  induction m generalizing p with
  | nil => simp [keysRise]
  | cons q m ih =>
    rw [keysRise, Bool.and_eq_true, decide_eq_true_iff, ih q]
    constructor
    · rintro ⟨h, hm, hq⟩
      refine ⟨⟨hm, hq⟩, ?_⟩
      intro x hx
      rcases List.mem_cons.mp hx with rfl | hx
      · exact h
      · exact Nat.lt_trans h (hq x hx)
    · rintro ⟨⟨hm, hq⟩, hp⟩
      exact ⟨hp q (List.mem_cons_self ..), hm, hq⟩

theorem keysRise_filter {α : Type} (m : List (Nat × α)) (f : Nat × α → Bool) (h : keysRise m = true) :
    keysRise (m.filter f) = true := by
  induction m with
  | nil => rfl
  | cons p m ih =>
    rw [keysRise_cons] at h
    rw [List.filter_cons]
    split
    · rw [keysRise_cons]
      exact ⟨ih h.1, fun q hq => h.2 q (List.mem_filter.mp hq).1⟩
    · exact ih h.1

theorem mem_setCell (m : List Host.Cell) (a : Nat) (v : Byte) (q : Host.Cell) (h : q ∈ setCell m a v) : q = (a, v) ∨ q ∈ m := by
  induction m with
  | nil => simpa [setCell] using h
  | cons p m ih =>
    obtain ⟨j, w⟩ := p
    unfold setCell at h
    split at h
    · simpa using h
    · split at h
      · rcases List.mem_cons.mp h with h | h
        · exact .inl h
        · exact .inr (List.mem_cons_of_mem _ h)
      · rcases List.mem_cons.mp h with h | h
        · exact .inr (by simp [h])
        · rcases ih h with h | h
          · exact .inl h
          · exact .inr (List.mem_cons_of_mem _ h)

theorem keysRise_setCell (m : List Host.Cell) (a : Nat) (v : Byte) (h : keysRise m = true) : keysRise (setCell m a v) = true := by
  induction m with
  | nil => rfl
  | cons p m ih =>
    obtain ⟨j, w⟩ := p
    have hc := (keysRise_cons _ _).mp h
    unfold setCell
    split
    · next hlt =>
      rw [keysRise_cons]
      refine ⟨h, fun q hq => ?_⟩
      rcases List.mem_cons.mp hq with rfl | hq
      · exact hlt
      · exact Nat.lt_trans hlt (hc.2 q hq)
    · split
      · next heq =>
        subst heq
        rw [keysRise_cons]
        exact ⟨hc.1, hc.2⟩
      · next h1 h2 =>
        rw [keysRise_cons]
        refine ⟨ih hc.1, fun q hq => ?_⟩
        rcases mem_setCell m a v q hq with rfl | hq
        · simp only; omega
        · exact hc.2 q hq

theorem Mem.wf_iff (m : Mem) :
    m.wf = true ↔ keysRise m.cells = true ∧ ∀ c ∈ m.cells, c.2 ≠ 0 ∨ (findUndef m.undef c.1).isSome = true := by
  simp [Mem.wf]

/-- A written byte keeps the canonical form. -/
theorem Mem.write_wf (m : Mem) (a : Nat) (v : Byte) (h : m.wf = true) : (m.write a v).wf = true := by
  rw [Mem.wf_iff] at h ⊢
  unfold Mem.write
  split
  · exact ⟨keysRise_filter _ _ h.1, fun c hc => h.2 c (List.mem_filter.mp hc).1⟩
  · next hv =>
    refine ⟨keysRise_setCell _ _ _ h.1, fun c hc => ?_⟩
    rcases mem_setCell _ _ _ _ hc with rfl | hc
    · by_cases h0 : v = 0
      · right
        cases hu : findUndef m.undef a with
        | none => exact absurd ⟨h0, hu⟩ hv
        | some _ => simp
      · exact .inl h0
    · exact h.2 c hc

theorem Mem.writeBytes_wf (m : Mem) (a : Nat) (bs : List Nat) (h : m.wf = true) : (m.writeBytes a bs).wf = true := by
  induction bs generalizing m a with
  | nil => exact h
  | cons b bs ih => exact ih _ _ (Mem.write_wf _ _ _ h)

theorem Mem.forget_wf (m : Mem) (lo hi id : Nat) (h : m.wf = true) : (m.forget lo hi id).wf = true := by
  unfold Mem.forget
  split
  · rw [Mem.wf_iff] at h ⊢
    refine ⟨keysRise_filter _ _ h.1, fun c hc => ?_⟩
    have hm := List.mem_filter.mp hc
    simp only [Bool.not_eq_true', Bool.and_eq_false_iff, decide_eq_false_iff_not, not_le, not_lt] at hm
    rcases h.2 c hm.1 with h0 | h0
    · exact .inl h0
    · right
      rw [findUndef_insRange, findUndef_cut _ _ _ _ hm.2, h0]
      rfl
  · exact h

theorem Mem.zero_wf (m : Mem) (lo hi : Nat) (h : m.wf = true) : (m.zero lo hi).wf = true := by
  rw [Mem.wf_iff] at h ⊢
  refine ⟨keysRise_filter _ _ h.1, fun c hc => ?_⟩
  have hm := List.mem_filter.mp hc
  simp only [Bool.not_eq_true', Bool.and_eq_false_iff, decide_eq_false_iff_not, not_le, not_lt] at hm
  rcases h.2 c hm.1 with h0 | h0
  · exact .inl h0
  · right
    simp only [Mem.zero]
    rw [findUndef_cut _ _ _ _ hm.2, h0]

theorem Mem.empty_wf : Mem.empty.wf = true := rfl

end Sys2Proof.Machine
end

