-- ==== Sys2Proof/Tests/Slice0.lean ====
section
/-!
SUPPORT. Tests. A theorem `test_<part>` gives, for every clause of a part of the obligations that has hypotheses, a state and operands that meet
all of them together. The others are small checks of the model against worked examples and tables of the spec.
-/
namespace Sys2Proof.Tests
set_option Elab.async false
open Sys2Proof Sys2Proof.Machine

/-! ## States for the tests -/

def d0 : Dev := Dev.reset
def putBytes (d : Dev) (a : Nat) (l : List Nat) : Dev := d.wrHbm a l
def runA : Run :=
  { part := 0, ctx := 0, ordo := false, frame := 0, task := 0, cmdIdx := 0, place := 0, pcMask := 0, engMask := 1, modId := 1, entry := 0, argAddr := 0,
    safety := false, phase := .cand, dispatched := false, members := [], prep := [], prepAt := none, xfers := [], keep := [], wrote := [], attn := none, args := [], snap := [], maps := [],
    pins := [], pages := [], pieces := [], signals := [], indexRange := false, scrFail := false, scrUnits := [], runPhys := [],
    recs := [], agree12 := none, troyFailed := false, qmRerun := false, rerun := false, octave := false, guarded := false,
    slicePre := false, src := .scratch, remotes := [], status := 0, endKill := none, dispatchedAt := 0, excluded := 0, exFrom := none,
    chargeFrom := none, freq := 0, undo := [], banked := 0 }
def dRun (r : Run) : Dev := { d0 with runs := [(3, r)], nextRun := 4 }
def setUp : List Nat := leBytes 8 0x100000 ++ leBytes 8 0x200000 ++ [4, 4, 3, 2, 10, 0] ++ List.replicate 42 0
def ctxR : Ctx := ctxOf setUp 0
def dCtx (c : Ctx) : Dev := { d0 with ctxs := [(5, c)], turns := [5] }
def rngA : Nat × Nat := (0, 0xC00000000)
/-- A context 5 of partition 0 with one command at the head of its ring. -/
def dHead (b : List Nat) (st : CmdSt) : Dev := dCtx { ctxR with cmds := [⟨0, b, st, rngA⟩], fetch := 1, tail := 1 }
def desc (l : List Nat) : List Nat := padTo 64 l
/-- A module of the absolute form with one entry of one engine. -/
def mdOf (code : List Nat) (ops : List TDesc) : Module :=
  { part := 0, handle := false, entries := [⟨0, code.length, 1, false, 0, 4, false, 0, 0, 0⟩], code := code, operands := ops, prep := [], rate0 := 0,
    rate1 := 0, nativeAddr := 0x1000000, nativeSize := 0x20000, digest := [], signed := false, slot := 0, unloading := false }
/-- Module 1 is loaded, and command 3 is `r`, of context 5. -/
def dMod (code : List Nat) (ops : List TDesc) (r : Run) : Dev :=
  { dCtx ctxR with runs := [(3, { r with ctx := 5 })], nextRun := 4, mods := [(1, mdOf code ops)] }
/-- An instruction word: class, operation, and other fields by lowest bit. -/
def wd (cls op : Nat) (fs : List (Nat × Nat)) : Nat := fs.foldl (fun w f => w + f.2 * 2 ^ f.1) (cls + 16 * op)
def mem0 : Member := mkMember 0 (engUnit 0 0) 0
def rEx : Run := { runA with ctx := 5, phase := .run 1, dispatched := true, members := [mem0], args := [7, 8, 9, 10] }
/-- Member 0 of command 3 has the first word of `code` to issue. -/
def dEx (code : List Nat) (f : Run → Run) : Dev := dMod code [] (f rEx)
def gang (f : Member → Member) (s : Stall) : Run → Run := fun r => { r with members := [f mem0, { mkMember 1 (engUnit 0 1) 0 with stall := s }] }
def curOf (d : Dev) (g : Nat) : Cur := (d.cur 3 g).getD ⟨runA, mem0, ⟨0, 0, []⟩, []⟩
def same {α : Type} (x : α) : α := x
/-- The word at index 0 heads queue `q` of member 0 of command 3, not started. -/
def dQ (d : Dev) (q : Nat) : Dev := d.modMember 3 0 (fun m => { m with pc := 1, issued := 1, queues := m.queues.mapIdx (fun i x => if i = q then
  [{ ord := 0, at_ := 0, idx := 0, iters := m.iters, loops := m.loops, counts := m.counts, started := none, ac := some 5, done := 0, since := 0,
     reads := [], write := none, touched := [], chk := [] }] else x) })
/-- The instruction at the head of queue `q`, as it issued. -/
def headOf (d : Dev) (q : Nat) : Cur :=
  ((d.queueHead 3 0 q).bind (fun x => d.issued x.1 x.2.1 x.2.2)).getD ⟨runA, mem0, ⟨0, 0, []⟩, []⟩
theorem mayBegin_of {d : Dev} {id g q : Nat} {c : Cur}
    (h : (d.queueHead id g q).any (fun x => decide (x.1 = c.r ∧ x.2.1.mayStart q = true ∧ (q = qAttend → c.r.attendTurn g x.2.2 = true) ∧
      d.issued c.r x.2.1 x.2.2 = some c)) = true) : MayBegin d id g q c := by
  rw [Option.any_eq_true] at h
  obtain ⟨⟨r, m, l⟩, h0, h1⟩ := h
  obtain ⟨h1, h2, h3, h4⟩ := of_decide_eq_true h1
  exact ⟨m, l, by rw [h0, ← h1], h2, h3, h4⟩
def longA : LongIns := ⟨0, 0, 0, [0, 0, 0, 0], [], [0, 0, 0, 0], none, some 60, 0, 0, [], none, [], []⟩
def inQ (l : List LongIns) : Run → Run := fun r => { r with members := [{ mem0 with queues := [l, [], [], []], issued := 9 }] }
def dLong (l : List LongIns) : Dev := dEx [wd 8 1 []] (inQ l)
def extA (lo hi : Nat) : Extent := ⟨false, lo, hi⟩

/-! ## general -/

theorem test_CommandsCompleteAndResetHoldsTheBlock :
    (∃ c : Instr, ∃ d : Dev, (d.rst.held = true) ∧ (¬ ActsInReset c)) :=
  ⟨.lock, { d0 with rst := { d0.rst with held := true } }, rfl, by simp [ActsInReset]⟩

theorem test_EveryStepKeepsTheBlockSound :
    (∃ s : State, ∃ t : State, (s.dev.sound = true) ∧ (step s = .next t)) :=
  ⟨⟨[.lock], d0⟩, ⟨[], d0.lock⟩, by decide +kernel, rfl⟩

theorem test_FlagsOnlyRise :
    (∃ n : Nat, ∃ i : Nat, (i ≠ n)) ∧
    (∃ d : Dev, ∃ n : Nat, ∃ v : Nat, (0xFFFFFFFF < d.flag n + v) ∧ (d.coll.ready = true)) ∧
    (∃ d : Dev, ∃ n : Nat, ∃ v : Nat, (d.flag n + v ≤ 0xFFFFFFFF)) ∧
    (∃ c : Instr, ∃ d : Dev, ∃ e : Dev, ((∀ n, d.flag n ≤ 0xFFFFFFFF)) ∧ (Does c d e)) :=
  ⟨⟨5, 4, by decide +kernel⟩,
    ⟨{ d0 with flags := [(5, 0xFFFFFFFF)] }, 5, 1, by decide +kernel⟩,
    ⟨{ d0 with flags := [(5, 0xFFFFFFFF)] }, 5, 0, by decide +kernel⟩,
    ⟨.lock, d0, d0.lock, fun n => show 0 ≤ 0xFFFFFFFF from by decide, fun _ => rfl⟩⟩

/-! ## regs -/

def dLock : Dev := d0.set F.FLT_CTRL.LOCK 1
def hitOf (d : Dev) (who : Who) (a : Nat) : RegHit := (d.hitReg who a).getD ⟨⟨0, 0, 0, 0, 0, false, 0, 0, []⟩, 0, 0, 0, 0⟩
def dTs : Dev := ({ d0 with regs := { d0.regs with latch := [(latchKey .pf R.SAF_SAFE_TS, 7)] } }).set F.SAF_SAFE_TS.TS 0x500000003
def dLinkUp : Dev := { d0 with rst := { d0.rst with linkUp := true } }
def dDroop : Dev := d0.set F.PWR_DROOP.COUNT 9

theorem test_RegisterReadsAndWrites :
    (∃ d : Dev, ∃ who : Who, ∃ a : Nat, ∃ w : Nat, (d.rst.held = false) ∧ ((∀ n, who ≠ .cfg n)) ∧ ((∀ n, who ≠ .msix n)) ∧ ((∀ n p, who ≠ .bell n p)) ∧ (d.hitReg who a = none) ∧ (w = 4 ∨ w = 8 ∧ d.hitReg who (a + 4) = none)) ∧
    (∃ d : Dev, ∃ who : Who, ∃ a : Nat, ∃ w : Nat, (d.rst.held = false) ∧ ((∀ n, who ≠ .cfg n)) ∧ ((∀ n, who ≠ .msix n)) ∧ ((∀ n p, who ≠ .bell n p)) ∧ (w < 4 ∨ a % w ≠ 0)) ∧
    (∃ d : Dev, ∃ who : Who, ∃ a : Nat, (d.rst.held = false) ∧ ((∀ n, who ≠ .cfg n)) ∧ ((∀ n, who ≠ .msix n)) ∧ ((∀ n p, who ≠ .bell n p)) ∧ (d.hitReg who a = none) ∧ (d.portOpen who = true) ∧ (a % 4 = 0)) ∧
    (∃ d : Dev, ∃ who : Who, ∃ a : Nat, (d.rst.held = false) ∧ ((∀ n, who ≠ .cfg n)) ∧ ((∀ n, who ≠ .msix n)) ∧ ((∀ n p, who ≠ .bell n p)) ∧ (d.hitReg who a = none) ∧ (d.portOpen who = true)) ∧
    (∃ a : Nat, (0x20 ≤ a) ∧ (a < 0x1000 ∨ 0x1040 ≤ a)) ∧
    (∃ lo : Nat, ∃ hi : Nat, ∃ f : FieldDesc, (f.lo ≤ f.hi) ∧ (lo ≤ f.lo) ∧ (f.hi < hi)) ∧
    (∃ d : Dev, ∃ who : Who, ∃ a : Nat, ∃ h : RegHit, (d.rst.held = false) ∧ (d.portOpen who = true) ∧ (a % 4 = 0) ∧ (d.hitReg who a = some h) ∧ (h.r.rc = true)) ∧
    (∃ d : Dev, ∃ who : Who, ∃ a : Nat, ∃ h : RegHit, (d.rst.held = false) ∧ (d.portOpen who = true) ∧ (a % 4 = 0) ∧ (d.hitReg who a = some h) ∧ (h.r.latches = true) ∧ (h.r.rc = false) ∧ ((h.r.addr < R.ALM_TIO_CFG 0 ∨ R.LAM_PORT_CFG 0 ≤ h.r.addr)) ∧ (h.r.addr ≠ R.ALM_KAL_FRAME_LO) ∧ (h.r.addr ≠ R.SAF_WEAR_DATA 0) ∧ (h.r.addr ≠ R.KVU_ENTRY_DATA 0) ∧ (h.z = 0)) ∧
    (∃ d : Dev, ∃ who : Who, ∃ a : Nat, ∃ h : RegHit, ∃ u : BitVec 64, (d.rst.held = false) ∧ (d.portOpen who = true) ∧ (a % 4 = 0) ∧ (d.hitReg who a = some h) ∧ (h.r.latches = true) ∧ (h.r.rc = false) ∧ ((h.r.addr < R.ALM_TIO_CFG 0 ∨ R.LAM_PORT_CFG 0 ≤ h.r.addr)) ∧ (h.r.addr ≠ R.ALM_KAL_FRAME_LO) ∧ (h.r.addr ≠ R.SAF_WEAR_DATA 0) ∧ (h.r.addr ≠ R.KVU_ENTRY_DATA 0) ∧ (h.z ≠ 0) ∧ (mfind d.regs.latch (latchKey who h.key) = some u)) ∧
    (∃ d : Dev, ∃ who : Who, ∃ a : Nat, ∃ h : RegHit, (d.rst.held = false) ∧ (d.portOpen who = true) ∧ (d.hitReg who a = some h) ∧ (h.r.wide = true) ∧ (h.z = 0) ∧ (who ≠ .mgmt) ∧ (h.r.addr ≠ R.FLT_FIRST_ADDR)) ∧
    (∃ d : Dev, ∃ fn : Nat, (d.rst.held = false) ∧ (d.rst.linkUp = true) ∧ (d.rst.warm = false) ∧ (d.sec.overLink = false) ∧ (fn < 16)) ∧
    (∃ d : Dev, ∃ fn : Nat, (d.rst.held = false) ∧ (d.rst.linkUp = true) ∧ (d.rst.warm = false) ∧ (d.sec.overLink = false) ∧ (fn < 16)) ∧
    (∃ d : Dev, ∃ fn : Nat, ∃ page : Nat, (d.rst.held = false) ∧ (d.portOpen (.bell fn page) = true)) ∧
    (∃ d : Dev, ∃ fn : Nat, ∃ n : Nat, ∃ v : Nat, (d.rst.held = false) ∧ (d.rst.linkUp = true) ∧ (d.rst.warm = false) ∧ (d.sec.overLink = false) ∧ (fn < 16) ∧ (d.barsOpen fn = true) ∧ (n < 128) ∧ (v < 2 ^ 32)) ∧
    (∃ d : Dev, ∃ fn : Nat, ∃ n : Nat, ∃ v : Nat, (d.rst.held = false) ∧ (d.rst.linkUp = true) ∧ (d.rst.warm = false) ∧ (d.sec.overLink = false) ∧ (fn < 16) ∧ (d.barsOpen fn = true) ∧ (n < 128) ∧ (v < 2 ^ 32)) :=
  ⟨⟨d0, .pf, 0x3F0, 8, rfl, nofun, nofun, nofun, by decide +kernel⟩,
    ⟨d0, .pf, 0x500002, 4, rfl, nofun, nofun, nofun, by decide +kernel⟩,
    ⟨d0, .pf, 0x3F0, rfl, nofun, nofun, nofun, by decide +kernel⟩,
    ⟨d0, .pf, 0x3F0, rfl, nofun, nofun, nofun, by decide +kernel⟩,
    ⟨0x1040, by decide +kernel⟩,
    ⟨0, 32, ⟨31, 0, .w1c, 0, 0⟩, by decide +kernel⟩,
    ⟨dDroop, .pf, R.PWR_DROOP, hitOf dDroop .pf R.PWR_DROOP, by decide +kernel⟩,
    ⟨dTs, .pf, R.SAF_SAFE_TS, hitOf dTs .pf R.SAF_SAFE_TS, by decide +kernel⟩,
    ⟨dTs, .pf, R.SAF_SAFE_TS + 4, hitOf dTs .pf (R.SAF_SAFE_TS + 4), 7, by decide +kernel⟩,
    ⟨dTs, .pf, R.SAF_SAFE_TS, hitOf dTs .pf R.SAF_SAFE_TS, by decide +kernel⟩,
    ⟨dLinkUp, 15, by decide +kernel⟩,
    ⟨dLinkUp, 0, by decide +kernel⟩,
    ⟨dLinkUp, 3, 2, by decide +kernel⟩,
    ⟨dLinkUp, 15, 127, 2 ^ 32 - 1, by decide +kernel⟩,
    ⟨dLinkUp, 15, 127, 2 ^ 32 - 1, by decide +kernel⟩⟩

theorem test_RegisterWritesThatAct :
    (∃ d : Dev, (d.rst.held = false) ∧ (d.portOpen .pf = true) ∧ (d.sec.overLink = false)) ∧
    (∃ d : Dev, (d.rst.held = false) ∧ (d.portOpen .pf = true) ∧ (d.sec.overLink = false)) ∧
    (∃ d : Dev, (d.rst.held = false) ∧ (d.portOpen .pf = true) ∧ (d.sec.overLink = false)) ∧
    (∃ d : Dev, (d.rst.held = false) ∧ (d.portOpen .pf = true) ∧ (d.sec.overLink = false)) ∧
    (∃ d : Dev, (d.rst.held = false) ∧ (d.portOpen .pf = true) ∧ (d.sec.overLink = false)) ∧
    (∃ d : Dev, (d.rst.held = false) ∧ (d.portOpen .pf = true) ∧ (d.sec.overLink = false)) ∧
    (∃ d : Dev, (d.rst.held = false) ∧ (d.portOpen .pf = true) ∧ (d.sec.overLink = false)) ∧
    (∃ d : Dev, ∃ v : Nat, (d.rst.held = false) ∧ (d.portOpen .pf = true) ∧ (d.sec.overLink = false) ∧ (d.on F.FLT_CTRL.LOCK = true) ∧ (v % 512 ≠ d.f F.PWR_CTRL.CAP_W ∨ bitOf v 9 = false)) ∧
    (∃ d : Dev, ∃ v : Nat, (d.rst.held = false) ∧ (d.portOpen .pf = true) ∧ (d.sec.overLink = false) ∧ (d.on F.FLT_CTRL.LOCK = false) ∧ (d.capMin ≤ v % 512) ∧ (v % 512 ≤ d.capMax) ∧ (1 ≤ bits v 22 13) ∧ (bits v 22 13 ≤ 1000)) ∧
    (∃ d : Dev, ∃ b : MgmtBus, (d.rst.held = false) ∧ (b.assign = none)) ∧
    (∃ d : Dev, ∃ b : MgmtBus, (d.rst.held = false) ∧ (b.assign = none) ∧ (d.answers b = false)) ∧
    (∃ d : Dev, ∃ b : MgmtBus, ∃ a : Nat, ∃ v : Nat, (d.rst.held = false) ∧ (b.assign = none) ∧ (d.answers b = true) ∧ (a ≠ R.PWR_LP_CTRL ∨ bitOf v 2 = false)) ∧
    (∃ d : Dev, ∃ b : MgmtBus, ∃ v : Nat, (d.rst.held = false) ∧ (b.assign = none) ∧ (d.answers b = true) ∧ (bitOf v 2 = true)) ∧
    (∃ d : Dev, ∃ b : MgmtBus, ∃ a : Nat, (d.rst.held = false) ∧ (b.assign = none) ∧ (d.answers b = true) ∧ (a % 4 = 0) ∧ (mgmtReg a = true) ∧ (d.sec.overLink = false)) ∧
    (∃ d : Dev, ∃ b : MgmtBus, ∃ a : Nat, (d.rst.held = false) ∧ (b.assign = none) ∧ (d.answers b = true) ∧ (a % 4 ≠ 0 ∨ mgmtReg a = false)) ∧
    (∃ d : Dev, ∃ b : MgmtBus, (d.rst.held = false) ∧ (b.assign = none) ∧ (d.answers b = true)) ∧
    (∃ d : Dev, ∃ b : MgmtBus, ∃ a : Nat, ∃ w : Nat, (d.rst.held = false) ∧ (b.assign = none) ∧ (w ≠ 4 ∨ a % 4 ≠ 0)) ∧
    (∃ d : Dev, ∃ b : MgmtBus, ∃ n : Nat, (d.rst.held = false) ∧ (b.assign = some n)) ∧
    (∃ d : Dev, (d.rst.held = true)) ∧
    (∃ d : Dev, ∃ dr : List Bool, (d.rst.held = false) ∧ (dr.length = 32) ∧ (d.fuses.stepping < 16) ∧ (d.fuses.partCode < 65536) ∧ (d.fuses.partCode = 0x9600) ∧ (d.fuses.stepping = 1)) ∧
    (∃ d : Dev, ∃ dr : List Bool, (d.rst.held = false) ∧ (dr.length = 32) ∧ (d.fuses.stepping < 16) ∧ (d.fuses.partCode < 65536)) :=
  ⟨⟨d0, by decide +kernel⟩,
    ⟨d0, by decide +kernel⟩,
    ⟨d0, by decide +kernel⟩,
    ⟨d0, by decide +kernel⟩,
    ⟨d0, by decide +kernel⟩,
    ⟨d0, by decide +kernel⟩,
    ⟨d0, by decide +kernel⟩,
    ⟨dLock, 180, by decide +kernel⟩,
    ⟨d0, 220 + 1000 * 8192 + 3072, by decide +kernel⟩,
    ⟨d0, ⟨0x4C, false, none⟩, by decide +kernel⟩,
    ⟨d0, ⟨0x4D, true, none⟩, by decide +kernel⟩,
    ⟨d0, ⟨0x4C, false, none⟩, R.PWR_LP_CTRL, 3, by decide +kernel⟩,
    ⟨{ d0 with rst := { d0.rst with low := 1 } }, ⟨0x4C, false, none⟩, 4, by decide +kernel⟩,
    ⟨d0, ⟨0x4C, false, none⟩, R.PWR_STAT, by decide +kernel⟩,
    ⟨d0, ⟨0x4C, false, none⟩, R.PWR_CTRL, by decide +kernel⟩,
    ⟨d0, ⟨0x4C, false, none⟩, by decide +kernel⟩,
    ⟨d0, ⟨0x4C, false, none⟩, R.PWR_STAT, 8, by decide +kernel⟩,
    ⟨d0, ⟨0x21, true, some 0x21⟩, 0x21, by decide +kernel⟩,
    ⟨{ d0 with rst := { d0.rst with held := true } }, by decide +kernel⟩,
    ⟨d0, List.replicate 32 true, by decide +kernel⟩,
    ⟨d0, List.replicate 32 true, by decide +kernel⟩⟩

/-! ## faults -/

def dSev (n : Nat) : Dev := { d0 with coll := { d0.coll with severe := setBit512 0 n, pending := setBit512 0 n, latch := setBit512 0 n } }
def dPin : Dev := (d0.set F.FLT_PIN.ERR_IN 0).set F.FLT_PIN.ERR_IN_EN 1
def recA : FirstRec := ⟨⟨0x041, 0x8001, 0x123456789, 2, 5⟩, true⟩
def dRec : Dev := { d0 with coll := { d0.coll with first := some recA, mergeCnt := 3 } }
def dBlock : Dev := { dRun { runA with phase := .blockReset 0x2000 } with coll := { d0.coll with blockResets := [0x2000] } }
def dSel (n : Nat) : Dev := d0.set F.FLT_SRC_SEL.ID n

theorem test_FaultWindowsCountAndClassify :
    (∃ d : Dev, ∃ ev : FaultEv, (d.coll.ready = true) ∧ (sourceKnown ev.src = true) ∧ (masterKnown ev.master = true)) ∧
    (∃ d : Dev, ∃ src : Nat, ∃ master : Nat, (d.rst.held = false) ∧ (d.coll.ready = true) ∧ (sourceKnown src = true) ∧ (masterKnown master = true) ∧ (fencedBy src master = none)) ∧
    (∃ d : Dev, ∃ i : Nat, ∃ mask : Nat, (d.rst.held = false) ∧ (i < 16) ∧ (mask < 2 ^ 32)) ∧
    (∃ d : Dev, let fine := fun (d : Dev) => ∀ src, sourceKnown src = true →
      1 ≤ (d.coll.src src).thresh ∧ (d.coll.src src).thresh ≤ 255 ∧ 1 ≤ (d.coll.src src).windowMs ∧ (d.coll.src src).windowMs ≤ 3600000
(d.rst.held = false) ∧ (fine d)) :=
  ⟨⟨d0, ⟨0x041, 0x8001, 5, 1, 9⟩, by decide +kernel⟩,
    ⟨d0, 0x041, 0x8001, by decide +kernel⟩,
    ⟨dSev 0x085, 4, 0xFFFFFFFF, by decide +kernel⟩,
    ⟨d0, by decide +kernel, by intro src h; show 1 ≤ (srcDefault src).thresh ∧ (srcDefault src).thresh ≤ 255 ∧ 1 ≤ (srcDefault src).windowMs ∧ (srcDefault src).windowMs ≤ 3600000; unfold srcDefault; unfold sourceKnown at h; split <;> first | decide | simp_all⟩⟩

theorem test_FaultEventsFenceAndKeepOrder :
    (∃ d : Dev, ∃ src : Nat, ∃ master : Nat, (d.rst.held = false) ∧ (masterKnown master = false) ∧ (fencedBy src master = none)) ∧
    (∃ d : Dev, ∃ a : Detection, ∃ b : Detection, (d.rst.held = false) ∧ (a.master < 65536) ∧ (fencedBy a.src a.master = none) ∧ (fencedBy b.src b.master = none) ∧ ((a.src < b.src ∨ a.src = b.src ∧ a.master < b.master))) ∧
    (∃ d : Dev, ∃ src : Nat, ∃ master : Nat, ∃ u : Nat, (d.rst.held = false) ∧ (fencedBy src master = some u) ∧ (src = 0x045)) ∧
    (∃ d : Dev, ∃ src : Nat, ∃ master : Nat, ∃ t : Nat, ∃ u : Nat, (d.rst.held = false) ∧ (fencedBy src master = some u) ∧ (src ≠ 0x045) ∧ (((d.at_ t).fence u none).leap ≠ d.leap)) ∧
    (∃ d : Dev, ∃ src : Nat, ∃ master : Nat, ∃ t : Nat, ∃ u : Nat, (d.rst.held = false) ∧ (fencedBy src master = some u) ∧ (src ≠ 0x045) ∧ (((d.at_ t).fence u none).leap = d.leap)) ∧
    (∃ d : Dev, ∃ i : Nat, ∃ j : Nat, (d.rst.held = false) ∧ (i < 16) ∧ (j < 32) ∧ (d.coll.severe.getLsbD (32 * i + j) = true)) ∧
    (∃ d : Dev, ∃ i : Nat, ∃ j : Nat, (d.rst.held = false) ∧ (i < 16) ∧ (j < 32) ∧ (d.coll.severe.getLsbD (32 * i + j) = false)) :=
  ⟨⟨d0, 0x041, 0x8FFF, by decide +kernel⟩,
    ⟨d0, ⟨0x041, 0x80A0, 5, 1⟩, ⟨0x050, 0x8001, 5, 1⟩, by decide +kernel⟩,
    ⟨d0, 0x045, regUnit 4 1, regUnit 4 1, by decide +kernel⟩,
    ⟨d0, 0x083, regUnit 4 1, 9, regUnit 4 1, by decide +kernel⟩,
    ⟨{ d0 with leap := { d0.leap with attnFenced := [5] } }, 0x084, regUnit 6 5, 9, regUnit 6 5, by decide +kernel⟩,
    ⟨dSev 0x085, 4, 5, by decide +kernel⟩,
    ⟨dSev 0x085, 15, 31, by decide +kernel⟩⟩

theorem test_FaultEventIsRecordedAndPending :
    (∃ d : Dev, ∃ ev : FaultEv, (d.coll.ready = true) ∧ (sourceKnown ev.src = true) ∧ (masterKnown ev.master = true) ∧ (d.coll.first = none)) ∧
    (∃ d : Dev, ∃ ev : FaultEv, ∃ r : FirstRec, (d.coll.ready = true) ∧ (sourceKnown ev.src = true) ∧ (masterKnown ev.master = true) ∧ (d.coll.first = some r)) ∧
    (∃ d : Dev, ∃ ev : FaultEv, ∃ r : FirstRec, (d.coll.ready = true) ∧ (sourceKnown ev.src = true) ∧ (masterKnown ev.master = true) ∧ (d.coll.first = some r) ∧ (r.ev.t ≠ ev.t ∨ r.ev.src < ev.src ∨ r.ev.src = ev.src ∧ r.ev.master ≤ ev.master)) ∧
    (∃ d : Dev, ∃ ev : FaultEv, ∃ r : FirstRec, (d.coll.ready = true) ∧ (sourceKnown ev.src = true) ∧ (masterKnown ev.master = true) ∧ (d.coll.first = some r) ∧ (r.ev.t = ev.t) ∧ (ev.src < r.ev.src ∨ ev.src = r.ev.src ∧ ev.master < r.ev.master)) ∧
    (∃ d : Dev, ∃ ev : FaultEv, (d.coll.ready = true) ∧ (sourceKnown ev.src = true) ∧ (masterKnown ev.master = true)) ∧
    (∃ d : Dev, (d.rst.held = false)) :=
  ⟨⟨d0, ⟨0x041, 0x8001, 5, 1, 9⟩, by decide +kernel⟩,
    ⟨dRec, ⟨0x041, 0x8001, 5, 1, 9⟩, recA, by decide +kernel⟩,
    ⟨dRec, ⟨0x041, 0x8001, 5, 1, 9⟩, recA, by decide +kernel⟩,
    ⟨dRec, ⟨0x041, 0x8000, 5, 1, 5⟩, recA, by decide +kernel⟩,
    ⟨dRec, ⟨0x041, 0x8001, 5, 1, 9⟩, by decide +kernel⟩,
    ⟨dRec, by decide +kernel⟩⟩

theorem test_CollectorWritesTakeEffect :
    (∃ d : Dev, ∃ i : Nat, ∃ j : Nat, (d.rst.held = false) ∧ (i < 16) ∧ (j < 32)) ∧
    (∃ d : Dev, (d.rst.held = false)) ∧
    (∃ d : Dev, (d.rst.held = false)) ∧
    (∃ d : Dev, ∃ who : Who, ∃ value : Nat, (d.rst.held = false) ∧ ((who = .pf ∧ d.on F.FLT_CTRL.LOCK = false) ∨ who = .computus) ∧ (sourceKnown (d.f F.FLT_SRC_SEL.ID) = true) ∧ (bits value 7 0 ≠ 0)) ∧
    (∃ d : Dev, ∃ who : Who, ∃ value : Nat, (d.rst.held = false) ∧ ((who = .pf ∧ d.on F.FLT_CTRL.LOCK = false) ∨ who = .computus) ∧ (sourceKnown (d.f F.FLT_SRC_SEL.ID) = true) ∧ (bits value 21 0 ≠ 0) ∧ (bits value 21 0 ≤ 3600000)) :=
  ⟨⟨dSev 511, 15, 31, by decide +kernel⟩,
    ⟨dSel 0x1F8, by decide +kernel⟩,
    ⟨dSel 0x1F8, by decide +kernel⟩,
    ⟨dSel 0x1F8, .pf, 255, by decide +kernel⟩,
    ⟨dSel 0x1F8, .computus, 3600000, by decide +kernel⟩⟩

theorem test_RefusedCollectorWritesSetBadCfg :
    (∃ d : Dev, (d.rst.held = false) ∧ (d.on F.FLT_CTRL.LOCK = true)) ∧
    (∃ d : Dev, (d.rst.held = false) ∧ (d.on F.FLT_CTRL.LOCK = true)) ∧
    (∃ d : Dev, (d.rst.held = false) ∧ (d.portOpen .pf = true) ∧ (d.sec.overLink = false) ∧ (d.on F.FLT_CTRL.LOCK = true)) ∧
    (∃ d : Dev, (d.rst.held = false) ∧ (sourceKnown (d.f F.FLT_SRC_SEL.ID) = false)) ∧
    (∃ d : Dev, ∃ value : Nat, (d.rst.held = false) ∧ (bits value 7 0 = 0)) ∧
    (∃ d : Dev, ∃ value : Nat, (d.rst.held = false) ∧ (bits value 21 0 = 0 ∨ 3600000 < bits value 21 0)) :=
  ⟨⟨d0.set F.FLT_CTRL.LOCK 1, by decide +kernel⟩,
    ⟨d0.set F.FLT_CTRL.LOCK 1, by decide +kernel⟩,
    ⟨d0.set F.FLT_CTRL.LOCK 1, by decide +kernel⟩,
    ⟨dSel 0x006, by decide +kernel⟩,
    ⟨d0, 256, by decide +kernel⟩,
    ⟨d0, 3600001, by decide +kernel⟩⟩

theorem test_InjectionsPinsSnapshotsAndBlockResets :
    (∃ d : Dev, ∃ who : Who, ∃ src : Nat, (d.rst.held = false) ∧ ((who = .pf ∧ d.on F.FLT_CTRL.LOCK = false) ∨ who = .computus) ∧ (sourceKnown src = true) ∧ (d.coll.ready = true)) ∧
    (∃ d : Dev, (d.rst.held = false) ∧ (d.on F.FLT_PIN.ERR_IN = false) ∧ (d.on F.FLT_PIN.ERR_IN_EN = true) ∧ (d.coll.ready = true)) ∧
    (∃ d : Dev, (d.rst.held = false)) ∧
    (∃ d : Dev, ∃ r : FirstRec, (d.rst.held = false) ∧ (d.coll.first = some r)) ∧
    (∃ d : Dev, ∃ r : FirstRec, (d.rst.held = false) ∧ (d.coll.first = some r)) ∧
    (∃ d : Dev, ∃ unit : Nat, ∃ id : Nat, ∃ r : Run, (d.rst.held = false) ∧ (unit ∈ d.coll.blockResets) ∧ (mfind d.runs id = some r) ∧ (r.phase = .blockReset unit)) :=
  ⟨⟨d0, .computus, 0x1F8, by decide +kernel⟩,
    ⟨dPin, by decide +kernel⟩,
    ⟨d0.set F.FLT_PIN.ERR_IN 1, by decide +kernel⟩,
    ⟨dRec, recA, by decide +kernel⟩,
    ⟨dRec, recA, by decide +kernel⟩,
    ⟨dBlock, 0x2000, 3, { runA with phase := .blockReset 0x2000 }, by decide +kernel⟩⟩

/-! ## resets -/

def dHeld : Dev := { d0 with rst := { d0.rst with held := true } }
def dWarm : Dev := { d0 with rst := { d0.rst with warm := true } }
def dWarmX : Dev := { d0 with rst := { d0.rst with warm := true }, sec := { d0.sec with running := some [1] } }
def dLow (n : Nat) : Dev := Dev.set { d0 with rst := { d0.rst with low := n } } F.PWR_LP_WAKE.TIME 100
def dEntering (n : Nat) : Dev := { d0 with rst := { d0.rst with entering := n } }
def dHbm (k : Bool) : Dev := { d0 with rst := { d0.rst with hbmReady := false, keepHbm := k } }
def dHot : Dev := Dev.set { dLow 1 with pwr := { d0.pwr with junction := [60, 120] } } F.PWR_LP_CTRL.THERMAL 1

theorem test_PorstPulsesByLength :
    (∃ ns : Nat, (ns < 100)) ∧
    (∃ ns : Nat, (10000 ≤ ns)) ∧
    (∃ ns : Nat, (10000 ≤ ns)) :=
  ⟨⟨99, by decide +kernel⟩,
    ⟨10000, by decide +kernel⟩,
    ⟨10000, by decide +kernel⟩⟩

theorem test_MaskRomBootStartsThePart :
    (∃ d : Dev, ∃ bootsel : Nat, ∃ devs : List Nat, (d.rst.held = true) ∧ (bootsel = 0 ∨ bootsel = 1) ∧ (d.sec.flash = none) ∧ ((∀ i ∈ devs, i < 8))) ∧
    (∃ d : Dev, (d.rst.held = false)) :=
  ⟨⟨dHeld, 1, [1, 3], by decide +kernel⟩,
    ⟨{ d0 with rst := { d0.rst with refclk := false } }, by decide +kernel⟩⟩

theorem test_WarmResetsBegin :
    (∃ d : Dev, (d.rst.held = false) ∧ (d.rst.warm = false) ∧ (d.rst.low ≠ 2)) ∧
    (∃ d : Dev, ∃ t : Nat, ∃ due : Nat, (d.rst.held = false) ∧ (d.rst.warm = false) ∧ (d.rst.low ≠ 2) ∧ (d.rst.chipAt = some due) ∧ (due ≤ t)) ∧
    (∃ d : Dev, (d.rst.held = false) ∧ (d.rst.warm = false) ∧ (d.rst.low = 2)) ∧
    (∃ d : Dev, ∃ t : Nat, (d.rst.held = false) ∧ (d.rst.warm = false) ∧ (d.rst.low = 2) ∧ (d.f F.PWR_LP_WAKE.TIME ≠ 0) ∧ (d.f F.PWR_LP_WAKE.TIME ≤ t)) :=
  ⟨⟨d0.set F.SAF_WARM.WARM_KEEP 1, by decide +kernel⟩,
    ⟨{ d0 with rst := { d0.rst with chipAt := some 40 } }, 40, 40, by decide +kernel⟩,
    ⟨dLow 2, by decide +kernel⟩,
    ⟨dLow 2, 100, by decide +kernel⟩⟩

theorem test_WarmResetsEnd :
    (∃ d : Dev, (d.rst.held = false) ∧ (d.rst.warm = true) ∧ (d.runIntact = true)) ∧
    (∃ d : Dev, ∃ b : List Nat, (d.rst.held = false) ∧ (d.rst.warm = true) ∧ (d.sec.running = some b) ∧ (sha256 b ≠ d.runDigest)) ∧
    (∃ d : Dev, (d.rst.held = false) ∧ (d.rst.hbmReady = false) ∧ (d.rst.low = 0) ∧ (d.frame.switchWait = false) ∧ (d.rst.keepHbm = true)) ∧
    (∃ d : Dev, (d.rst.held = false) ∧ (d.rst.hbmReady = false) ∧ (d.rst.low = 0) ∧ (d.frame.switchWait = false) ∧ (d.rst.keepHbm = false)) ∧
    (∃ d : Dev, (d.rst.held = false) ∧ (d.rst.hbmReady = false) ∧ (d.rst.low = 0) ∧ (d.frame.switchWait = true)) :=
  ⟨⟨dWarm, by decide +kernel⟩,
    ⟨dWarmX, [1], by decide +kernel⟩,
    ⟨dHbm true, by decide +kernel⟩,
    ⟨dHbm false, by decide +kernel⟩,
    ⟨{ dHbm true with frame := { d0.frame with switchWait := true } }, by decide +kernel⟩⟩

theorem test_LowPowerStatesAreEntered :
    (∃ d : Dev, (d.rst.held = false) ∧ (d.lpRefused = true)) ∧
    (∃ d : Dev, (d.rst.held = false) ∧ (d.lpRefused = true)) ∧
    (∃ d : Dev, (d.rst.held = false) ∧ (d.lpRefused = false)) ∧
    (∃ d : Dev, (d.rst.held = false) ∧ (d.lpRefused = false)) ∧
    (∃ d : Dev, (d.rst.held = false) ∧ (d.rst.entering = 1)) ∧
    (∃ d : Dev, (d.rst.held = false) ∧ (d.rst.entering = 2)) :=
  ⟨⟨dLow 1, by decide +kernel⟩,
    ⟨dLow 1, by decide +kernel⟩,
    ⟨d0, by decide +kernel⟩,
    ⟨d0, by decide +kernel⟩,
    ⟨dEntering 1, by decide +kernel⟩,
    ⟨dEntering 2, by decide +kernel⟩⟩

theorem test_WakeLeavesDoze :
    (∃ d : Dev, ∃ who : Who, (d.rst.held = false) ∧ (d.rst.low = 1) ∧ (d.mayWake who = true) ∧ (d.on F.PWR_LP_CTRL.THERMAL = false)) ∧
    (∃ d : Dev, ∃ who : Who, ∃ x : Int, (d.rst.held = false) ∧ (d.rst.low = 1) ∧ (d.mayWake who = true) ∧ (d.on F.PWR_LP_CTRL.THERMAL = true) ∧ (x ∈ d.hereJ d.pwr.junction) ∧ (d.warnJ ≤ x)) :=
  ⟨⟨dLow 1, .pf, by decide +kernel⟩,
    ⟨dHot, .mgmt, 120, by decide +kernel⟩⟩

theorem test_LinkAndFunctionResetsEndContexts :
    (∃ d : Dev, (d.rst.held = false) ∧ (d.rst.warm = false) ∧ (d.rst.low ≠ 2)) ∧
    (∃ d : Dev, ∃ fn : Nat, (d.rst.held = false) ∧ (d.rst.warm = false) ∧ (d.rst.low ≠ 2) ∧ (d.linkResetting = false) ∧ (fn < 16)) ∧
    (∃ d : Dev, (d.rst.held = false) ∧ (d.linkResetting = true)) :=
  ⟨⟨d0, by decide +kernel⟩,
    ⟨d0, 15, by decide +kernel⟩,
    ⟨dRun { runA with phase := .commit, ctx := 9 * 0x100000 }, by decide +kernel⟩⟩

theorem test_ThermalShutdownAndDieLoss :
    (∃ d : Dev, (d.rst.held = false) ∧ (d.rst.warm = false) ∧ (d.rst.low = 0) ∧ (d.rst.entering = 0) ∧ (maskHas (d.coll.src 0x1E4).minor 3 = false) ∧ (maskHas (d.coll.src 0x1E4).severe 3 = false)) ∧
    (∃ d : Dev, ∃ die : Nat, (d.rst.held = false) ∧ (die < 2) ∧ (3 * die < d.nReg) ∧ (die ∉ d.leap.dieLost)) :=
  ⟨⟨d0, by decide +kernel⟩,
    ⟨d0, 1, by decide +kernel⟩⟩

/-! ## safe -/

def evDie : FaultEv := ⟨0x085, 0x0800, 0, 0, 40⟩
def dNmi : Dev := { (d0.set F.SAF_SAFE_CFG.MODE 0).set F.SAF_SAFE_STAT.B_PART 1 with coll := { d0.coll with nmi := [(evDie, 6)] } }
def dNmiA : Dev := { (d0.set F.SAF_SAFE_CFG.MODE 1).set F.SAF_SAFE_CFG.A_MAX 2 with coll := { d0.coll with nmi := [(evDie, 6)] } }
def dNmiW (n : Nat) : Dev := Dev.set { dNmiA with safe := { d0.safe with aFirst := some 7 } } F.SAF_SAFE_STAT.A_COUNT n
def dAWin : Dev := { d0 with safe := { d0.safe with aFirst := some 7 } }
def dManifest (b : List Nat) : Dev := Dev.set { putBytes d0 0x10000 b with safe := { d0.safe with replayDue := true } } F.SAF_RESTART_ADDR.ADDR 0x10000
def dEntry (b : List Nat) : Dev := Dev.set { putBytes d0 0x10000 (leBytes 2 1 ++ List.replicate 62 0 ++ b) with safe := { d0.safe with replay := some 0 } } F.SAF_RESTART_ADDR.ADDR 0x10000
def itemBad : List Nat := 9 :: List.replicate 127 0
def itemReg : List Nat := 3 :: List.replicate 63 0 ++ leBytes 8 R.SAF_WARM ++ leBytes 8 1 ++ [4] ++ List.replicate 47 0
def itemCreate : List Nat := [1, 0, 5, 0] ++ List.replicate 124 0

theorem test_SafeStateBHoldsTheScope :
    (∃ d : Dev, ∃ ev : FaultEv, ∃ scope : Nat, ∃ rest : List (FaultEv × Nat), (d.rst.held = false) ∧ (d.rst.low ≠ 2) ∧ (d.coll.nmi = (ev, scope) :: rest) ∧ (d.on F.SAF_SAFE_STAT.NO_COMPUTUS = false) ∧ (d.f F.SAF_SAFE_CFG.MODE = 0) ∧ (ev.src < 512)) :=
  ⟨dNmi, evDie, 6, [], by decide +kernel⟩

theorem test_SafeStateARestartsUntilTheLimit :
    (∃ d : Dev, ∃ ev : FaultEv, ∃ scope : Nat, ∃ rest : List (FaultEv × Nat), (d.rst.held = false) ∧ (d.rst.low ≠ 2) ∧ (d.coll.nmi = (ev, scope) :: rest) ∧ (d.on F.SAF_SAFE_STAT.NO_COMPUTUS = false) ∧ (d.on F.SAF_SAFE_STAT.A_EXHAUSTED = false) ∧ (d.f F.SAF_SAFE_CFG.MODE = 1) ∧ (ev.src < 512) ∧ (d.safe.aFirst = none) ∧ (d.f F.SAF_SAFE_STAT.A_COUNT < d.f F.SAF_SAFE_CFG.A_MAX)) ∧
    (∃ d : Dev, ∃ ev : FaultEv, ∃ scope : Nat, ∃ rest : List (FaultEv × Nat), ∃ t : Nat, ∃ a : Nat, (d.rst.held = false) ∧ (d.rst.low ≠ 2) ∧ (d.coll.nmi = (ev, scope) :: rest) ∧ (d.on F.SAF_SAFE_STAT.NO_COMPUTUS = false) ∧ (d.on F.SAF_SAFE_STAT.A_EXHAUSTED = false) ∧ (d.f F.SAF_SAFE_CFG.MODE = 1) ∧ (ev.src < 512) ∧ 
let window := d.f F.SAF_SAFE_CFG.A_WINDOW_S * 1000000000
(d.safe.aFirst = some a) ∧ (Nat.max d.now t < a + window) ∧ (d.f F.SAF_SAFE_STAT.A_COUNT < d.f F.SAF_SAFE_CFG.A_MAX)) ∧
    (∃ d : Dev, ∃ ev : FaultEv, ∃ scope : Nat, ∃ rest : List (FaultEv × Nat), ∃ t : Nat, (d.rst.held = false) ∧ (d.rst.low ≠ 2) ∧ (d.coll.nmi = (ev, scope) :: rest) ∧ (d.on F.SAF_SAFE_STAT.NO_COMPUTUS = false) ∧ (d.on F.SAF_SAFE_STAT.A_EXHAUSTED = false) ∧ (d.f F.SAF_SAFE_CFG.MODE = 1) ∧ (ev.src < 512) ∧ 
let window := d.f F.SAF_SAFE_CFG.A_WINDOW_S * 1000000000
((∀ a, d.safe.aFirst = some a → Nat.max d.now t < a + window)) ∧ (d.f F.SAF_SAFE_CFG.A_MAX ≤ d.f F.SAF_SAFE_STAT.A_COUNT)) ∧
    (∃ d : Dev, ∃ ev : FaultEv, ∃ scope : Nat, ∃ rest : List (FaultEv × Nat), ∃ t : Nat, ∃ a : Nat, (d.rst.held = false) ∧ (d.rst.low ≠ 2) ∧ (d.coll.nmi = (ev, scope) :: rest) ∧ (d.on F.SAF_SAFE_STAT.NO_COMPUTUS = false) ∧ (d.on F.SAF_SAFE_STAT.A_EXHAUSTED = false) ∧ (d.f F.SAF_SAFE_CFG.MODE = 1) ∧ (ev.src < 512) ∧ 
let window := d.f F.SAF_SAFE_CFG.A_WINDOW_S * 1000000000
(d.safe.aFirst = some a) ∧ (a + window ≤ Nat.max d.now t) ∧ (0 < d.f F.SAF_SAFE_CFG.A_MAX)) :=
  ⟨⟨dNmiA, evDie, 6, [], by decide +kernel⟩,
    ⟨dNmiW 1, evDie, 6, [], 50, 7, by decide +kernel⟩,
    ⟨dNmiW 2, evDie, 6, [], 50, by decide +kernel⟩,
    ⟨dNmiW 2, evDie, 6, [], 7 + dAWin.f F.SAF_SAFE_CFG.A_WINDOW_S * 1000000000, 7, by decide +kernel⟩⟩

theorem test_SafeStateAWindowCountsItsEntries :
    (∃ s : State, ∃ t : State, ((s.dev.safe.aFirst = none ↔ s.dev.f F.SAF_SAFE_STAT.A_COUNT = 0)) ∧ (step s = .next t)) :=
  ⟨⟨[.lock], d0⟩, ⟨[], d0.lock⟩, by decide +kernel, rfl⟩

theorem test_SafeStateClearsAndWindow :
    (∃ d : Dev, (d.rst.held = false)) ∧
    (∃ d : Dev, ∃ ev : FaultEv, ∃ scope : Nat, ∃ rest : List (FaultEv × Nat), (d.rst.held = false) ∧ (d.rst.low ≠ 2) ∧ (d.coll.nmi = (ev, scope) :: rest)) ∧
    (∃ d : Dev, (d.rst.held = false) ∧ (d.on F.SAF_SAFE_STAT.NO_COMPUTUS = false)) ∧
    (∃ d : Dev, (d.rst.held = false) ∧ (d.on F.SAF_SAFE_STAT.NO_COMPUTUS = true)) ∧
    (∃ d : Dev, ∃ t : Nat, ∃ a : Nat, (d.rst.held = false) ∧ (d.safe.aFirst = some a) ∧ (a + d.f F.SAF_SAFE_CFG.A_WINDOW_S * 1000000000 ≤ t)) :=
  ⟨⟨dNmi, by decide +kernel⟩,
    ⟨dNmi, evDie, 6, [], by decide +kernel⟩,
    ⟨dNmi, by decide +kernel⟩,
    ⟨d0.set F.SAF_SAFE_STAT.NO_COMPUTUS 1, by decide +kernel⟩,
    ⟨dAWin, 7 + dAWin.f F.SAF_SAFE_CFG.A_WINDOW_S * 1000000000, 7, by decide +kernel⟩⟩

theorem test_LockstepMismatchChangesThePair :
    (∃ d : Dev, (d.rst.held = false) ∧ (d.on F.SAF_SAFE_STAT.NO_COMPUTUS = false) ∧ (d.safe.standby = true) ∧ (d.safe.pair < 2)) ∧
    (∃ d : Dev, (d.rst.held = false) ∧ (d.on F.SAF_SAFE_STAT.NO_COMPUTUS = false) ∧ (d.safe.standby = false) ∧ (d.safe.pair < 2)) ∧
    (∃ d : Dev, ∃ pair : Nat, (d.rst.held = false) ∧ (d.on F.SAF_SAFE_STAT.NO_COMPUTUS = false) ∧ (d.safe.standby = true) ∧ (pair < 2) ∧ (pair ≠ d.safe.pair)) :=
  ⟨⟨d0, by decide +kernel⟩,
    ⟨{ d0 with safe := { d0.safe with standby := false } }, by decide +kernel⟩,
    ⟨d0, 1 - d0.safe.pair, by decide +kernel⟩⟩

theorem test_RestartManifestIsReplayed :
    (∃ d : Dev, (d.rst.held = false) ∧ (d.safe.replayDue = true) ∧ (d.canReplay = true) ∧ (d.sec.overLink = false) ∧ (d.f F.SAF_RESTART_ADDR.ADDR ≠ 0) ∧ (d.inHbm (d.f F.SAF_RESTART_ADDR.ADDR) 64 = true) ∧ (d.poisonIn (d.f F.SAF_RESTART_ADDR.ADDR) 64 = []) ∧ (d.manifestStatus (d.f F.SAF_RESTART_ADDR.ADDR) = stOk)) ∧
    (∃ d : Dev, (d.rst.held = false) ∧ (d.safe.replayDue = true) ∧ (d.canReplay = true) ∧ (d.sec.overLink = false) ∧ (d.f F.SAF_RESTART_ADDR.ADDR ≠ 0) ∧ (d.inHbm (d.f F.SAF_RESTART_ADDR.ADDR) 64 = true) ∧ (d.poisonIn (d.f F.SAF_RESTART_ADDR.ADDR) 64 = []) ∧ (bfield (d.rdHbm (d.f F.SAF_RESTART_ADDR.ADDR) 64) 0 2 = 0) ∧ (zeroBytes (d.rdHbm (d.f F.SAF_RESTART_ADDR.ADDR) 64) 2 64 = true)) ∧
    (∃ d : Dev, ∃ i : Nat, ∃ b : List Nat, (d.rst.held = false) ∧ (d.safe.replay = some i) ∧ (d.safe.replayWait = false) ∧ (d.canReplay = true) ∧ (d.poisonIn (d.f F.SAF_RESTART_ADDR.ADDR + 64 + 128 * i) 128 = []) ∧ (d.rdHbm (d.f F.SAF_RESTART_ADDR.ADDR + 64 + 128 * i) 128 = b) ∧ (itemStatus b ≠ stOk)) ∧
    (∃ d : Dev, ∃ i : Nat, ∃ b : List Nat, (d.rst.held = false) ∧ (d.safe.replay = some i) ∧ (d.safe.replayWait = false) ∧ (d.canReplay = true) ∧ (d.poisonIn (d.f F.SAF_RESTART_ADDR.ADDR + 64 + 128 * i) 128 = []) ∧ (d.rdHbm (d.f F.SAF_RESTART_ADDR.ADDR + 64 + 128 * i) 128 = b) ∧ (itemStatus b = stOk) ∧ (b.getD 0 0 = 1)) ∧
    (∃ d : Dev, ∃ i : Nat, ∃ b : List Nat, (d.rst.held = false) ∧ (d.safe.replay = some i) ∧ (d.safe.replayWait = false) ∧ (d.canReplay = true) ∧ (d.poisonIn (d.f F.SAF_RESTART_ADDR.ADDR + 64 + 128 * i) 128 = []) ∧ (d.rdHbm (d.f F.SAF_RESTART_ADDR.ADDR + 64 + 128 * i) 128 = b) ∧ (itemStatus b = stOk) ∧ (b.getD 0 0 = 3) ∧ (b.getD 80 0 = 4 ∨ b.getD 80 0 = 8) ∧ (bfield b 64 8 ≠ R.SCH_ORDO_CTRL)) ∧
    (∃ d : Dev, (d.rst.held = false) ∧ (d.safe.replayDue = true) ∧ (d.canReplay = true) ∧ (d.sec.overLink = false) ∧ (d.f F.SAF_RESTART_ADDR.ADDR ≠ 0) ∧ (d.inHbm (d.f F.SAF_RESTART_ADDR.ADDR) 64 = true)) ∧
    (∃ d : Dev, ∃ i : Nat, (d.rst.held = false) ∧ (d.safe.replay = some i) ∧ (d.safe.replayWait = false) ∧ (d.canReplay = true)) ∧
    (∃ d : Dev, ∃ i : Nat, ∃ g : Nat, ∃ l : List Nat, (d.rst.held = false) ∧ (d.safe.replay = some i) ∧ (d.safe.replayWait = false) ∧ (d.canReplay = true) ∧ (d.poisonIn (d.f F.SAF_RESTART_ADDR.ADDR + 64 + 128 * i) 128 = g :: l)) ∧
    (∃ i : Nat, ∃ st : Nat, (i < 4096) ∧ (st < 256)) :=
  ⟨⟨dManifest (leBytes 2 4096 ++ List.replicate 62 0), by decide +kernel⟩,
    ⟨dManifest (List.replicate 64 0), by decide +kernel⟩,
    ⟨dEntry itemBad, 0, itemBad, by decide +kernel⟩,
    ⟨dEntry itemCreate, 0, itemCreate, by decide +kernel⟩,
    ⟨dEntry itemReg, 0, itemReg, by decide +kernel⟩,
    ⟨dManifest (leBytes 2 4096 ++ List.replicate 62 0), by decide +kernel⟩,
    ⟨dEntry itemReg, 0, by decide +kernel⟩,
    ⟨(dEntry itemReg).setPoison [0x10040, 0x10060], 0, 0x10040, [0x10060], by decide +kernel⟩,
    ⟨4095, 255, by decide +kernel⟩⟩

/-! ## host -/

def dSetup (fn : Nat) (b : List Nat) : Dev := Dev.set { d0 with mem := { d0.mem with host := d0.mem.host.writeBytes 0x1000 b } } (F.HIF_FN_CTX_ADDR.ADDR fn) 0x1000
def setUpBad : List Nat := leBytes 8 0x100001 ++ setUp.drop 8
def hdr (op : Nat) : List Nat := [op, 0, 0, 0, 0, 0, 0, 0] ++ leBytes 8 0x77
def bRun : List Nat := desc (hdr 1 ++ [0])
def bCopy (a b n f : Nat) : List Nat := desc (hdr 2 ++ leBytes 8 a ++ leBytes 8 b ++ leBytes 4 n ++ [f])
def bSignal (n v : Nat) : List Nat := desc (hdr 3 ++ leBytes 2 n ++ [0, 0] ++ leBytes 4 v)
def bWait (n v dl : Nat) : List Nat := desc (hdr 4 ++ leBytes 2 n ++ [0, 0] ++ leBytes 4 v ++ leBytes 8 dl)
def dFetch (b : List Nat) : Dev := { dCtx { ctxR with tail := 1 } with mem := { d0.mem with host := d0.mem.host.writeBytes 0x100000 b } }
def flags5 (d : Dev) (v : Nat) : Dev := { d with flags := [(5, v)] }
def ctxB : Ctx := { ctxR with cmds := [⟨0, bRun, .fetched, rngA⟩] }
def ctxsB (n : Nat) : List (Nat × Ctx) := (List.range n).map (fun i => (i, ctxB))
/-- Every resident context has a command. -/
def dBusy (n : Nat) : Dev := { dSetup 15 setUp with ctxs := ctxsB n }
theorem mfind_const (l : List Nat) (c : Ctx) (k : Nat) : mfind (l.map (fun i => (i, c))) k = if k ∈ l then some c else none := by
  induction l with
  | nil => rfl
  | cons a l ih => by_cases h : a = k <;> simp_all [mfind, eq_comm]
theorem dBusy_ctx (n k : Nat) : (dBusy n).ctx k = if k < n then some ctxB else none := by
  simp only [Dev.ctx, dBusy, ctxsB, mfind_const, List.mem_range]
theorem dBusy_room (n : Nat) (hn : 4096 ≤ n) : (dBusy n).makeRoom = none := by
  have h1 : (dBusy n).residents = n := by
    rw [Dev.residents, List.filter_eq_self.2, dBusy, ctxsB, List.length_map, List.length_range]
    intro p hp
    obtain ⟨i, -, rfl⟩ := List.mem_map.1 hp
    rfl
  have h2 : (dBusy n).idleRes = [] := by
    rw [Dev.idleRes, List.filter_eq_nil_iff]
    intro p hp
    obtain ⟨i, hi, rfl⟩ := List.mem_map.1 hp
    simp [Dev.ctxBusy, dBusy_ctx, List.mem_range.1 hi, ctxB]
  have h3 : ¬ n < 4096 := by omega
  simp [Dev.makeRoom, h1, h2, h3, oldestFetch]
def dFull : Dev := dBusy 4096
def dPoison : Dev := d0.setPoison [128]

theorem test_CreateMakesAContext :
    (∃ d : Dev, ∃ fn : Nat, ∃ ctx : Nat, (d.rst.held = false) ∧ (fn < 16) ∧ (ctx < 4096) ∧ (d.rst.warm = false) ∧ (d.sec.overLink = false) ∧ (d.on (F.HIF_FN_CTX_CMD.BUSY fn) = false) ∧ (d.ctx (ckey fn ctx) = none) ∧ (d.residents < 4096) ∧ (setupStatus (d.rdHost (d.f (F.HIF_FN_CTX_ADDR.ADDR fn)) 64) false = stOk)) ∧
    (∃ d : Dev, ∃ fn : Nat, ∃ ctx : Nat, ∃ c : Ctx, (d.rst.held = false) ∧ (fn < 16) ∧ (ctx < 4096) ∧ (d.rst.warm = false) ∧ (d.sec.overLink = false) ∧ (d.on (F.HIF_FN_CTX_CMD.BUSY fn) = false) ∧ (d.ctx (ckey fn ctx) = some c) ∧ (c.attached = false) ∧ (c.resident = true) ∧ (setupStatus (d.rdHost (d.f (F.HIF_FN_CTX_ADDR.ADDR fn)) 64) false = stOk)) ∧
    (∃ d : Dev, ∃ fn : Nat, ∃ ctx : Nat, (d.rst.held = false) ∧ (fn < 16) ∧ (ctx < 4096) ∧ (d.rst.warm = false) ∧ (d.sec.overLink = false) ∧ (d.on (F.HIF_FN_CTX_CMD.BUSY fn) = false) ∧ (d.ctx (ckey fn ctx) = none) ∧ (setupStatus (d.rdHost (d.f (F.HIF_FN_CTX_ADDR.ADDR fn)) 64) false ≠ stOk)) ∧
    (∃ d : Dev, ∃ fn : Nat, ∃ ctx : Nat, (d.rst.held = false) ∧ (fn < 16) ∧ (ctx < 4096) ∧ (d.rst.warm = false) ∧ (d.sec.overLink = false) ∧ (d.on (F.HIF_FN_CTX_CMD.BUSY fn) = false) ∧ (d.ctx (ckey fn ctx) = none) ∧ (d.makeRoom = none) ∧ (setupStatus (d.rdHost (d.f (F.HIF_FN_CTX_ADDR.ADDR fn)) 64) false = stOk)) :=
  ⟨⟨dSetup 15 setUp, 15, 4095, by decide +kernel⟩,
    ⟨{ dSetup 0 setUp with ctxs := [(5, { ctxR with attached := false })] }, 0, 5, { ctxR with attached := false }, by decide +kernel⟩,
    ⟨dSetup 15 setUpBad, 15, 4095, by decide +kernel⟩,
    ⟨dFull, 15, 4095, rfl, by decide, by decide, rfl, rfl, by decide +kernel, by simp [dFull, dBusy_ctx, ckey], dBusy_room 4096 (by decide), by decide +kernel⟩⟩

theorem test_SetUpBlockChecks :
    (∃ b : List Nat, (b.length = 64)) :=
  ⟨setUp, by decide +kernel⟩

theorem test_DestroyAndAbort :
    (∃ d : Dev, ∃ fn : Nat, ∃ ctx : Nat, ∃ c : Ctx, (d.rst.held = false) ∧ (fn < 16) ∧ (ctx < 4096) ∧ (d.rst.warm = false) ∧ (d.sec.overLink = false) ∧ (d.on (F.HIF_FN_CTX_CMD.BUSY fn) = false) ∧ (d.ctx (ckey fn ctx) = some c) ∧ (c.cmds = []) ∧ (d.pinned (ckey fn ctx) = false)) ∧
    (∃ d : Dev, ∃ fn : Nat, ∃ ctx : Nat, ∃ c : Ctx, (d.rst.held = false) ∧ (fn < 16) ∧ (ctx < 4096) ∧ (d.rst.warm = false) ∧ (d.sec.overLink = false) ∧ (d.on (F.HIF_FN_CTX_CMD.BUSY fn) = false) ∧ (d.ctx (ckey fn ctx) = some c) ∧ (c.cmds = []) ∧ (c.heldTail = none) ∧ (c.fetch = c.tail)) :=
  ⟨⟨dCtx ctxR, 0, 5, ctxR, by decide +kernel⟩,
    ⟨dCtx ctxR, 0, 5, ctxR, by decide +kernel⟩⟩

theorem test_DoorbellsMoveTailAndHead :
    (∃ d : Dev, ∃ fn : Nat, ∃ page : Nat, ∃ value : Nat, ∃ c : Ctx, (d.rst.held = false) ∧ (d.bar4 fn = true) ∧ (d.ctx (ckey fn page) = some c) ∧ (c.attached = true) ∧ (c.resident = true) ∧ (c.ending = none) ∧ (d.rst.low = 0) ∧ (value < 65536) ∧ (value < 2 ^ c.sqLog2)) ∧
    (∃ d : Dev, ∃ fn : Nat, ∃ page : Nat, ∃ value : Nat, ∃ c : Ctx, (d.rst.held = false) ∧ (d.bar4 fn = true) ∧ (d.ctx (ckey fn page) = some c) ∧ (c.attached = true) ∧ (c.resident = true) ∧ (c.ending = none) ∧ (c.cmds = []) ∧ (c.heldTail = none) ∧ (c.heldHead = none) ∧ (d.rst.low = 0) ∧ (value < 65536) ∧ (value < c.size) ∧ ((value + c.size - c.cqHead) % c.size ≤ c.unread)) ∧
    (∃ d : Dev, ∃ fn : Nat, ∃ page : Nat, ∃ value : Nat, ∃ c : Ctx, (d.rst.held = false) ∧ (d.bar4 fn = true) ∧ (d.ctx (ckey fn page) = some c) ∧ (c.attached = true) ∧ (d.rst.low = 1) ∧ (value < 65536) ∧ (value < 2 ^ c.sqLog2)) ∧
    (∃ d : Dev, ∃ fn : Nat, ∃ ctx : Nat, ∃ v : Nat, ∃ c : Ctx, (d.rst.held = false) ∧ (d.ctx (ckey fn ctx) = some c) ∧ (c.resident = true) ∧ (c.ending = none) ∧ (c.cmds = []) ∧ (c.heldTail = some v) ∧ (c.heldHead = none) ∧ (d.rst.low = 0)) ∧
    (∃ d : Dev, ∃ fn : Nat, ∃ ctx : Nat, ∃ c : Ctx, (d.rst.held = false) ∧ (d.ctx (ckey fn ctx) = some c) ∧ (c.resident = false) ∧ (d.atTick = false)) ∧
    (∃ d : Dev, ∃ fn : Nat, ∃ ctx : Nat, ∃ v : Nat, ∃ c : Ctx, (d.rst.held = false) ∧ (d.ctx (ckey fn ctx) = some c) ∧ (c.resident = false) ∧ (d.atTick = true) ∧ (c.ending = none) ∧ (c.cmds = []) ∧ (c.heldTail = some v) ∧ (c.heldHead = none) ∧ (d.rst.low = 0) ∧ (d.residents < 4096) ∧ (d.mem.poison.contains (d.swapAddr (ckey fn ctx)) = false)) ∧
    (∃ d : Dev, ∃ fn : Nat, ∃ page : Nat, ∃ width : Nat, ∃ value : Nat, ∃ c : Ctx, (d.rst.held = false) ∧ (d.bar4 fn = true) ∧ (d.ctx (ckey fn page) = some c) ∧ (width ≠ 4 ∨ 2 ^ c.sqLog2 ≤ value)) ∧
    (∃ d : Dev, ∃ fn : Nat, ∃ page : Nat, ∃ width : Nat, ∃ value : Nat, ∃ c : Ctx, (d.rst.held = false) ∧ (d.bar4 fn = true) ∧ (d.ctx (ckey fn page) = some c) ∧ (width ≠ 4 ∨ c.size ≤ value)) :=
  ⟨⟨dCtx ctxR, 0, 5, 15, ctxR, by decide +kernel⟩,
    ⟨dCtx { ctxR with written := 3, unread := 3 }, 0, 5, 2, { ctxR with written := 3, unread := 3 }, by decide +kernel⟩,
    ⟨{ dCtx ctxR with rst := { d0.rst with low := 1 } }, 0, 5, 15, ctxR, by decide +kernel⟩,
    ⟨dCtx { ctxR with heldTail := some 9 }, 0, 5, 9, { ctxR with heldTail := some 9 }, by decide +kernel⟩,
    ⟨dCtx { ctxR with resident := false, heldTail := some 9 }, 0, 5, { ctxR with resident := false, heldTail := some 9 }, by decide +kernel⟩,
    ⟨{ dCtx { ctxR with resident := false, heldTail := some 9 } with frame := { d0.frame with started := true } }, 0, 5, 9, { ctxR with resident := false, heldTail := some 9 }, by decide +kernel⟩,
    ⟨dCtx ctxR, 0, 5, 4, 16, ctxR, by decide +kernel⟩,
    ⟨dCtx ctxR, 0, 5, 4, 16, ctxR, by decide +kernel⟩⟩

theorem test_DescriptorsAreFetchedInOrder :
    (∃ d : Dev, ∃ fn : Nat, ∃ ctx : Nat, ∃ c : Ctx, (d.rst.held = false) ∧ (d.ctx (ckey fn ctx) = some c) ∧ (c.resident = true) ∧ (c.attached = true) ∧ (c.ending = none) ∧ (d.rst.low = 0) ∧ (d.rst.warm = false) ∧ (d.rst.linkUp = true) ∧ (c.fetch ≠ c.tail) ∧ (c.fetch < 65536) ∧ (2 ≤ c.freeRecs) ∧ (c.cmds = []) ∧ 
let b := d.rdHost (c.sqBase + 64 * c.fetch) 64
(d.validate (ckey fn ctx / 4096) b = stOk)) ∧
    (∃ d : Dev, ∃ fn : Nat, ∃ ctx : Nat, ∃ c : Ctx, (d.rst.held = false) ∧ (d.ctx (ckey fn ctx) = some c) ∧ (c.resident = true) ∧ (c.attached = true) ∧ (c.ending = none) ∧ (d.rst.low = 0) ∧ (d.rst.warm = false) ∧ (d.rst.linkUp = true) ∧ (c.fetch ≠ c.tail) ∧ (c.fetch < 65536) ∧ (2 ≤ c.freeRecs) ∧ (c.cmds = []) ∧ 
let b := d.rdHost (c.sqBase + 64 * c.fetch) 64
(d.validate (ckey fn ctx / 4096) b ≠ stOk)) :=
  ⟨⟨dFetch (bSignal 3 1), 0, 5, { ctxR with tail := 1 }, by decide +kernel⟩,
    ⟨dFetch (desc [3, 0, 1]), 0, 5, { ctxR with tail := 1 }, by decide +kernel⟩⟩

theorem test_NopWritesACompletionRecord :
    (∃ d : Dev, ∃ fn : Nat, ∃ ctx : Nat, ∃ c : Ctx, ∃ k : RingCmd, (d.rst.held = false) ∧ (d.ctx (ckey fn ctx) = some c) ∧ (c.attached = true) ∧ (c.resident = true) ∧ (c.ending = none) ∧ (c.cmds = [k]) ∧ (k.idx < 65536) ∧ (k.st = .fetched) ∧ (k.bytes.getD 0 0 = 0) ∧ (maskHas (k.bytes.getD 1 0) 1 = false) ∧ (d.rst.linkUp = true)) :=
  ⟨dHead (desc (hdr 0)) .fetched, 0, 5, { ctxR with cmds := [⟨0, desc (hdr 0), .fetched, rngA⟩], fetch := 1, tail := 1 }, ⟨0, desc (hdr 0), .fetched, rngA⟩, by decide +kernel⟩

theorem test_RingCommandsTakeEffect :
    (∃ d : Dev, ∃ fn : Nat, ∃ ctx : Nat, ∃ c : Ctx, ∃ b : List Nat, (d.rst.held = false) ∧ (d.headOp (ckey fn ctx) 1 = some b) ∧ (d.ctx (ckey fn ctx) = some c) ∧ (d.held (ckey fn ctx / 4096) = false)) ∧
    (∃ d : Dev, ∃ fn : Nat, ∃ ctx : Nat, ∃ b : List Nat, (d.rst.held = false) ∧ (d.headOp (ckey fn ctx) 2 = some b) ∧ (bfield b 32 4 ≠ 0)) ∧
    (∃ d : Dev, ∃ fn : Nat, ∃ ctx : Nat, ∃ k : RingCmd, (d.rst.held = false) ∧ (d.head (ckey fn ctx) = some k) ∧ (k.st = .copying) ∧ (d.rst.hbmReady = true) ∧ ((copyReads k.bytes).flatMap (fun r => d.poisonIn r.1 r.2) = [])) ∧
    (∃ d : Dev, ∃ fn : Nat, ∃ ctx : Nat, ∃ k : RingCmd, (d.rst.held = false) ∧ (d.head (ckey fn ctx) = some k) ∧ (k.st = .copying) ∧ (d.rst.hbmReady = false)) ∧
    (∃ d : Dev, ∃ fn : Nat, ∃ ctx : Nat, ∃ k : RingCmd, (d.rst.held = false) ∧ (d.head (ckey fn ctx) = some k) ∧ (k.st = .copying) ∧ (d.rst.hbmReady = true)) ∧
    (∃ d : Dev, ∃ fn : Nat, ∃ ctx : Nat, ∃ k : RingCmd, ∃ g : Nat, ∃ l : List Nat, (d.rst.held = false) ∧ (d.head (ckey fn ctx) = some k) ∧ (k.st = .copying) ∧ (d.rst.hbmReady = true) ∧ ((copyReads k.bytes).flatMap (fun r => d.poisonIn r.1 r.2) = g :: l)) ∧
    (∃ d : Dev, ∃ fn : Nat, ∃ ctx : Nat, ∃ b : List Nat, ∃ n : Nat, (d.rst.held = false) ∧ (d.headOp (ckey fn ctx) 3 = some b) ∧ (d.hwFlag (ckey fn ctx / 4096) (bfield b 16 2) = some n)) ∧
    (∃ d : Dev, ∃ fn : Nat, ∃ ctx : Nat, ∃ b : List Nat, ∃ n : Nat, (d.rst.held = false) ∧ (d.headOp (ckey fn ctx) 4 = some b) ∧ (d.hwFlag (ckey fn ctx / 4096) (bfield b 16 2) = some n) ∧ (bfield b 20 4 ≤ d.flag n)) ∧
    (∃ d : Dev, ∃ fn : Nat, ∃ ctx : Nat, ∃ t : Nat, ∃ b : List Nat, ∃ n : Nat, (d.rst.held = false) ∧ (d.headOp (ckey fn ctx) 4 = some b) ∧ (d.hwFlag (ckey fn ctx / 4096) (bfield b 16 2) = some n) ∧ (d.flag n < bfield b 20 4) ∧ (bfield b 24 8 = 0 ∨ Nat.max d.now t < bfield b 24 8)) ∧
    (∃ d : Dev, ∃ fn : Nat, ∃ ctx : Nat, ∃ t : Nat, ∃ b : List Nat, ∃ n : Nat, (d.rst.held = false) ∧ (d.headOp (ckey fn ctx) 4 = some b) ∧ (d.hwFlag (ckey fn ctx / 4096) (bfield b 16 2) = some n) ∧ (d.flag n < bfield b 20 4) ∧ (0 < bfield b 24 8) ∧ (bfield b 24 8 ≤ Nat.max d.now t)) ∧
    (∃ d : Dev, ∃ fn : Nat, ∃ ctx : Nat, ∃ k : RingCmd, ∃ n : Nat, ∃ v : Nat, ∃ dl : Nat, (d.rst.held = false) ∧ (d.head (ckey fn ctx) = some k) ∧ (k.st = .waiting n v dl) ∧ (v ≤ d.flag n)) ∧
    (∃ d : Dev, ∃ fn : Nat, ∃ ctx : Nat, ∃ t : Nat, ∃ k : RingCmd, ∃ n : Nat, ∃ v : Nat, ∃ dl : Nat, (d.rst.held = false) ∧ (d.head (ckey fn ctx) = some k) ∧ (k.st = .waiting n v dl) ∧ (d.flag n < v) ∧ (0 < dl) ∧ (dl ≤ t)) :=
  ⟨⟨dHead bRun .fetched, 0, 5, { ctxR with cmds := [⟨0, bRun, .fetched, rngA⟩], fetch := 1, tail := 1 }, bRun, by decide +kernel⟩,
    ⟨dHead (bCopy 64 0x4000 16 1) .fetched, 0, 5, bCopy 64 0x4000 16 1, by decide +kernel⟩,
    ⟨putBytes (dHead (bCopy 64 0x4000 16 2) .copying) 64 [1, 2, 3], 0, 5, ⟨0, bCopy 64 0x4000 16 2, .copying, rngA⟩, by decide +kernel⟩,
    ⟨{ dHead (bCopy 64 0x4000 64 0) .copying with rst := { d0.rst with hbmReady := false } }, 0, 5, ⟨0, bCopy 64 0x4000 64 0, .copying, rngA⟩, by decide +kernel⟩,
    ⟨putBytes (dHead (bCopy 64 0x4000 64 0) .copying) 64 [1, 2, 3], 0, 5, ⟨0, bCopy 64 0x4000 64 0, .copying, rngA⟩, by decide +kernel⟩,
    ⟨((dHead (bCopy 64 0x4000 64 0) .copying)).setPoison [96], 0, 5, ⟨0, bCopy 64 0x4000 64 0, .copying, rngA⟩, 96, [], by decide +kernel⟩,
    ⟨flags5 (dHead (bSignal 5 7) .fetched) 4, 0, 5, bSignal 5 7, 5, by decide +kernel⟩,
    ⟨flags5 (dHead (bWait 5 9 100) .fetched) 9, 0, 5, bWait 5 9 100, 5, by decide +kernel⟩,
    ⟨flags5 (dHead (bWait 5 9 100) .fetched) 8, 0, 5, 20, bWait 5 9 100, 5, by decide +kernel⟩,
    ⟨flags5 (dHead (bWait 5 9 20) .fetched) 8, 0, 5, 20, bWait 5 9 20, 5, by decide +kernel⟩,
    ⟨flags5 (dHead (bWait 5 9 100) (.waiting 5 9 100)) 9, 0, 5, ⟨0, bWait 5 9 100, (.waiting 5 9 100), rngA⟩, 5, 9, 100, by decide +kernel⟩,
    ⟨flags5 (dHead (bWait 5 9 100) (.waiting 5 9 100)) 8, 0, 5, 100, ⟨0, bWait 5 9 100, (.waiting 5 9 100), rngA⟩, 5, 9, 100, by decide +kernel⟩⟩

theorem test_CoalescingAndLink :
    (∃ d : Dev, ∃ fn : Nat, ∃ ctx : Nat, ∃ t : Nat, ∃ t0 : Nat, ∃ c : Ctx, (d.rst.held = false) ∧ (d.ctx (ckey fn ctx) = some c) ∧ (c.unsigSince = some t0) ∧ (c.coalUs ≠ 0) ∧ (c.vector ≠ 0) ∧ (t0 + c.coalUs * 1000 ≤ t)) ∧
    (∃ d : Dev, ∃ width : Nat, (d.rst.held = false) ∧ (d.rst.linkUp = true) ∧ (width < d.rst.linkWidth) ∧ (width = 1 ∨ width = 2 ∨ width = 4) ∧ (d.coll.ready = true)) ∧
    (∃ d : Dev, ∃ width : Nat, ∃ rate : Nat, (d.rst.held = false) ∧ (d.rst.refclk = true) ∧ (d.rst.low ≠ 2) ∧ (width ∈ [1, 2, 4, 8]) ∧ (1 ≤ rate) ∧ (rate ≤ 5) ∧ (d.rst.linkUp = false ∨ width = d.rst.linkWidth)) ∧
    (∃ d : Dev, ∃ width : Nat, ∃ rate : Nat, (d.rst.held = false) ∧ (d.rst.refclk = true) ∧ (d.rst.low ≠ 2) ∧ (width ∈ [1, 2, 4, 8]) ∧ (1 ≤ rate) ∧ (rate ≤ 5) ∧ (d.rst.linkUp = true) ∧ (width ≠ d.rst.linkWidth)) :=
  ⟨⟨dCtx { ctxR with unsig := 1, unsigSince := some 40 }, 0, 5, 10040, 40, { ctxR with unsig := 1, unsigSince := some 40 }, by decide +kernel⟩,
    ⟨d0, 4, by decide +kernel⟩,
    ⟨d0, 8, 5, by decide +kernel⟩,
    ⟨d0, 4, 1, by decide +kernel⟩⟩

theorem test_Bar2ReadsAndWritesHbm :
    (∃ d : Dev, ∃ addr : Nat, ∃ len : Nat, (d.rst.held = false) ∧ (d.hbmServes = true) ∧ (d.barsOpen 0 = true) ∧ (d.poisonIn addr len = [])) ∧
    (∃ d : Dev, ∃ addr : Nat, ∃ bytes : List Nat, (d.rst.held = false) ∧ (d.hbmServes = true) ∧ (d.barsOpen 0 = true) ∧ (addr + bytes.length ≤ d.bar2Size) ∧ (d.leap.dieLost = []) ∧ (d.poisonIn addr bytes.length = []) ∧ ((∀ i, i < bytes.length → d.inHoldSlot (addr + i) = false))) ∧
    (∃ d : Dev, (d.rst.held = false) ∧ (d.hbmServes = false) ∧ (d.barsOpen 0 = true)) ∧
    (∃ d : Dev, (d.rst.held = false) ∧ (d.hbmServes = false)) ∧
    (∃ d : Dev, (d.rst.held = false) ∧ (d.hbmServes = true) ∧ (d.barsOpen 0 = true)) ∧
    (∃ d : Dev, ∃ addr : Nat, ∃ len : Nat, ∃ g : Nat, (d.rst.held = false) ∧ (d.hbmServes = true) ∧ (d.barsOpen 0 = true) ∧ (g ∈ d.poisonIn addr len) ∧ (d.inHoldSlot g = false) ∧ (g < d.bar2Size) ∧ (d.coll.ready = true)) :=
  ⟨⟨dPoison, 0xC00000000 - 4, 8, by decide +kernel⟩,
    ⟨dPoison, 192, [1, 2, 3], by decide +kernel⟩,
    ⟨{ d0 with rst := { d0.rst with low := 1 } }, by decide +kernel⟩,
    ⟨{ d0 with rst := { d0.rst with low := 1 } }, by decide +kernel⟩,
    ⟨d0, by decide +kernel⟩,
    ⟨dPoison, 130, 4, 128, by decide +kernel⟩⟩

/-! ## kv -/

def bKv (sub a20 a24 a32 a36 : Nat) : List Nat := desc ([8, 0, 0, 0, 0, 0, 0, 0] ++ leBytes 8 0x77 ++ [sub, 0, 0, 0] ++ leBytes 4 a20 ++ leBytes 8 a24 ++ leBytes 4 a32 ++ leBytes 8 a36)
def dKv (b : List Nat) (kv : Kv) : Dev := { dHead b .fetched with kv := kv }
def kvPool : Kv := { d0.kv with pools := [(0, 0x200000, 0x600000)], free := [(0, [(0x200, 9), (0x400, 9)])], caches := [(7, ⟨0, 64, 2, 0⟩)] }
def kvPage (refs pins : Nat) : Kv := { kvPool with entries := [(9, ⟨0x600, 3, 1, true, false, refs, pins, 0, 0, 7, 5⟩)], unused := 10 }

theorem test_PoolsAndCaches :
    (∃ d : Dev, ∃ fn : Nat, ∃ ctx : Nat, ∃ bs : List Nat, (d.rst.held = false) ∧ (fn < 16) ∧ (ctx < 4096) ∧ (d.headSub (ckey fn ctx) 8 0 = some bs) ∧ (bfield bs 32 4 ≠ 0) ∧ (inRange (d.headRange (ckey fn ctx)) (bfield bs 24 8) (bfield bs 32 4 * 0x200000) = true) ∧ (bfield bs 24 8 % 0x200000 = 0) ∧ (d.kv.pools.any (fun p => p.2.1 < bfield bs 24 8 + bfield bs 32 4 * 0x200000 && bfield bs 24 8 < p.2.2) = false)) ∧
    (∃ d : Dev, ∃ fn : Nat, ∃ ctx : Nat, ∃ bs : List Nat, (d.rst.held = false) ∧ (fn < 16) ∧ (ctx < 4096) ∧ (d.headSub (ckey fn ctx) 8 1 = some bs) ∧ (bfield bs 32 4 = 1) ∧ (bfield bs 24 8 % 0x200000 = 0) ∧ (d.unitFree fn (bfield bs 24 8) = true)) ∧
    (∃ d : Dev, ∃ fn : Nat, ∃ ctx : Nat, ∃ bs : List Nat, (d.rst.held = false) ∧ (fn < 16) ∧ (ctx < 4096) ∧ (d.headSub (ckey fn ctx) 8 2 = some bs) ∧ (mfind d.kv.caches (bfield bs 20 4) = none)) ∧
    (∃ d : Dev, ∃ fn : Nat, ∃ ctx : Nat, ∃ bs : List Nat, ∃ c : Cache, (d.rst.held = false) ∧ (fn < 16) ∧ (ctx < 4096) ∧ (d.headSub (ckey fn ctx) 8 3 = some bs) ∧ (mfind d.kv.caches (bfield bs 20 4) = some c) ∧ (c.part = fn) ∧ (d.kv.entries.any (fun p => p.2.valid && p.2.cache == bfield bs 20 4) = false)) :=
  ⟨⟨dKv (bKv 0 0 51537510400 1 0) d0.kv, 0, 5, bKv 0 0 51537510400 1 0, by decide +kernel⟩,
    ⟨dKv (bKv 1 0 4194304 1 0) kvPool, 0, 5, bKv 1 0 4194304 1 0, by decide +kernel⟩,
    ⟨dKv (bKv 2 8 0 0 (64 + 2 * 512)) kvPool, 0, 5, bKv 2 8 0 0 (64 + 2 * 512), by decide +kernel⟩,
    ⟨dKv (bKv 3 7 0 0 0) kvPool, 0, 5, bKv 3 7 0 0 0, ⟨0, 64, 2, 0⟩, by decide +kernel⟩⟩

theorem test_PagesAreCounted :
    (∃ d : Dev, ∃ fn : Nat, ∃ ctx : Nat, ∃ i : Nat, ∃ a : Nat, ∃ bs : List Nat, ∃ c : Cache, ∃ l : List (Nat × Nat), (d.rst.held = false) ∧ (fn < 16) ∧ (ctx < 4096) ∧ (d.headSub (ckey fn ctx) 8 4 = some bs) ∧ (d.cacheOf fn (bfield bs 20 4) = some c) ∧ (bitOf (bfield bs 36 8) 6 = false) ∧ (bits (bfield bs 36 8) 3 0 ≤ 10) ∧ (pageT (bits (bfield bs 36 8) 3 0) (bits (bfield bs 36 8) 5 4) c.kvHeads c.headDim ≠ 0) ∧ (d.nextIndex = some i) ∧ (takeBlock (d.freeBlocks fn) (bits (bfield bs 36 8) 3 0 - 1) = some (a, l))) ∧
    (∃ d : Dev, ∃ fn : Nat, ∃ ctx : Nat, ∃ bs : List Nat, (d.rst.held = false) ∧ (fn < 16) ∧ (ctx < 4096) ∧ (d.headSub (ckey fn ctx) 8 5 = some bs) ∧ (d.refLive (bfield bs 20 4) = true) ∧ ((d.bent (refIdx (bfield bs 20 4))).part = fn) ∧ ((d.bent (refIdx (bfield bs 20 4))).refs < 65535)) ∧
    (∃ d : Dev, ∃ fn : Nat, ∃ ctx : Nat, ∃ bs : List Nat, (d.rst.held = false) ∧ (fn < 16) ∧ (ctx < 4096) ∧ (d.headSub (ckey fn ctx) 8 6 = some bs) ∧ (d.refLive (bfield bs 20 4) = true) ∧ ((d.bent (refIdx (bfield bs 20 4))).part = fn)) ∧
    (∃ d : Dev, ∃ fn : Nat, ∃ ctx : Nat, ∃ bs : List Nat, ∃ i : Nat, ∃ j : Nat, (d.rst.held = false) ∧ (fn < 16) ∧ (ctx < 4096) ∧ (d.headSub (ckey fn ctx) 8 7 = some bs) ∧ (i = refIdx (bfield bs 20 4)) ∧ (d.refLive (bfield bs 20 4) = true) ∧ ((d.bent i).part = fn) ∧ (1 < (d.bent i).refs) ∧ ((d.bent i).pins < 65535) ∧ ((d.allocPage fn (d.bent i).cache (d.bent i).size (d.bent i).fmt false d.pkg).2 = some j) ∧ (i ≠ j)) ∧
    (∃ d : Dev, ∃ fn : Nat, ∃ ctx : Nat, ∃ bs : List Nat, (d.rst.held = false) ∧ (d.headSub (ckey fn ctx) 8 5 = some bs) ∧ (d.refLive (bfield bs 20 4) = false)) :=
  ⟨⟨dKv (bKv 4 7 0 0 (3 + 16)) kvPool, 0, 5, 1, 0x200, bKv 4 7 0 0 (3 + 16), ⟨0, 64, 2, 0⟩, splitBlock 0x200 2 9 [(0x400, 9)], by decide +kernel⟩,
    ⟨dKv (bKv 5 (refOf 9 5) 0 0 0) (kvPage 65534 0), 0, 5, bKv 5 (refOf 9 5) 0 0 0, by decide +kernel⟩,
    ⟨dKv (bKv 6 (refOf 9 5) 0 0 0) (kvPage 1 0), 0, 5, bKv 6 (refOf 9 5) 0 0 0, by decide +kernel⟩,
    ⟨dKv (bKv 7 (refOf 9 5) 0 0 0) (kvPage 2 1), 0, 5, bKv 7 (refOf 9 5) 0 0 0, 9, 10, by decide +kernel⟩,
    ⟨dKv (bKv 5 (refOf 9 6) 0 0 0) (kvPage 2 0), 0, 5, bKv 5 (refOf 9 6) 0 0 0, by decide +kernel⟩⟩

theorem test_PageCopiesAndEntryReads :
    (∃ d : Dev, ∃ fn : Nat, ∃ ctx : Nat, ∃ j : Nat, ∃ k : RingCmd, (d.rst.held = false) ∧ (d.head (ckey fn ctx) = some k) ∧ (k.st = .cow j) ∧ (d.poisonIn (d.bent (refIdx (bfield k.bytes 20 4))).addr (d.bent (refIdx (bfield k.bytes 20 4))).bytes = [])) ∧
    (∃ d : Dev, ∃ fn : Nat, ∃ ctx : Nat, ∃ j : Nat, ∃ k : RingCmd, (d.rst.held = false) ∧ (d.head (ckey fn ctx) = some k) ∧ (k.st = .cow j)) ∧
    (∃ d : Dev, ∃ fn : Nat, ∃ ctx : Nat, ∃ j : Nat, ∃ k : RingCmd, ∃ x : Dev, ∃ g : Nat, ∃ l : List Nat, (d.rst.held = false) ∧ (d.head (ckey fn ctx) = some k) ∧ (k.st = .cow j) ∧ 
let i := refIdx (bfield k.bytes 20 4)
(x.poisonIn (x.bent i).addr (x.bent i).bytes = g :: l)) ∧
    (∃ d : Dev, (d.rst.held = false)) :=
  ⟨⟨{ dHead (bKv 7 (refOf 9 5) 0 0 0) (.cow 10) with kv := { kvPage 1 1 with entries := (kvPage 1 1).entries ++ [(10, ⟨0x200, 3, 1, true, false, 1, 0, 0, 0, 7, 0⟩)] } }, 0, 5, 10, ⟨0, bKv 7 (refOf 9 5) 0 0 0, .cow 10, rngA⟩, by decide +kernel⟩,
    ⟨{ dHead (bKv 7 (refOf 9 5) 0 0 0) (.cow 10) with kv := { kvPage 1 1 with entries := (kvPage 1 1).entries ++ [(10, ⟨0x200, 3, 1, true, false, 1, 0, 0, 0, 7, 0⟩)] } }, 0, 5, 10, ⟨0, bKv 7 (refOf 9 5) 0 0 0, .cow 10, rngA⟩, by decide +kernel⟩,
    ⟨{ dHead (bKv 7 (refOf 9 5) 0 0 0) (.cow 10) with kv := { kvPage 1 1 with entries := (kvPage 1 1).entries ++ [(10, ⟨0x200, 3, 1, true, false, 1, 0, 0, 0, 7, 0⟩)] } }, 0, 5, 10, ⟨0, bKv 7 (refOf 9 5) 0 0 0, .cow 10, rngA⟩, Dev.setPoison ({ dHead (bKv 7 (refOf 9 5) 0 0 0) (.cow 10) with kv := { kvPage 1 1 with entries := (kvPage 1 1).entries ++ [(10, ⟨0x200, 3, 1, true, false, 1, 0, 0, 0, 7, 0⟩)] } }) [0x600020], 0x600020, [], by decide +kernel⟩,
    ⟨Dev.set { d0 with kv := kvPage 1 1 } F.KVU_ENTRY_SEL.INDEX 9, by decide +kernel⟩⟩

/-! ## sched -/

def wEnd : Nat := 0x18
/-- A container with one entry whose code is one END, and a signature block of zeros where `sig`. -/
def container (sig : Bool) : List Nat :=
  leBytes 4 0x4E545253 ++ [1, 0, 0, 0, 1, 0, 0, 0] ++ leBytes 4 1 ++ List.replicate 16 0 ++ leBytes 8 0x1000000 ++
  leBytes 4 (if sig then 1280 else 256) ++ leBytes 4 128 ++ leBytes 4 192 ++ List.replicate 8 0 ++ leBytes 4 (if sig then 256 else 0) ++ List.replicate 64 0 ++
  (leBytes 4 0 ++ leBytes 4 1 ++ [1, 0, 4, 0] ++ List.replicate 52 0) ++ (leBytes 16 wEnd ++ List.replicate 48 0) ++
  (if sig then List.replicate 1024 0 else [])
def bLoad (a n : Nat) : List Nat := desc ([5, 0, 0, 0, 0, 0, 0, 0] ++ leBytes 8 1 ++ leBytes 8 a ++ leBytes 4 n)
def bUnload (n : Nat) : List Nat := desc ([6, 0, 0, 0, 0, 0, 0, 0] ++ leBytes 8 1 ++ leBytes 2 n)
def bTdt (first n a : Nat) : List Nat := desc ([7, 0, 0, 0, 0, 0, 0, 0] ++ leBytes 8 1 ++ leBytes 2 first ++ [0, 0] ++ leBytes 4 n ++ leBytes 8 a)
def dLoad (c : List Nat) : Dev := putBytes (dHead (bLoad 0x10000 c.length) .fetched) 0x10000 c
def dSigned : Dev := putBytes (dHead (bLoad 0x10000 1280) .fetched) 0x10000 ((container true).take 256)
def tdEntry : List Nat := leBytes 8 0x1000 ++ [1, 0, 3, 1] ++ List.replicate 4 0 ++ leBytes 4 4 ++ leBytes 4 1 ++ leBytes 4 1 ++ leBytes 4 1 ++ List.replicate 32 0
def dTdt (part : Nat) : Dev := { putBytes (dHead (bTdt 65534 2 0x10000) .fetched) 0x10000 (tdEntry ++ tdEntry) with
  tdt := [(65535, { descOf tdEntry part with part := part })] }
/-- An Ordo command whose entry in HBM is a NOP now. -/
def dReread : Dev := { putBytes (dMod [wEnd] [] { runA with ordo := true }) 0x10040 [2] with
  frame := { d0.frame with variant := some 0, banks := [[(0, ⟨0, 0, [⟨0, 0, 1, 0⟩], [⟨0, 5, false, false, 50, 1, 0, [], 0, 0, 0, 0, 0x10000, [List.replicate 64 0]⟩]⟩)], []] } }
def rC : Run := { runA with ctx := 5 }
def dCand : Dev := dMod [wEnd] [] runA
def dSlice : Dev := { dCand with runs := [(3, { rC with phase := .run 1, chargeFrom := some 0 })] }
def dSelC : Dev := d0.set F.SCH_CTX_SEL.CTX 5
def dSafeOff : Dev := d0.set (F.SCH_PART_CFG.SAFETY 0) 1
def dClrW : Dev := Dev.set (Dev.set (dHead (desc [4]) (.waiting 16382 9 50)) F.SCH_FLAG_CLR.FIRST 16382) F.SCH_FLAG_CLR.COUNT 2
def dClr (n : Nat) : Dev := Dev.set (Dev.set { d0 with flags := [(16381, 4), (16382, 5), (16383, 6)] } F.SCH_FLAG_CLR.FIRST 16382) F.SCH_FLAG_CLR.COUNT n

theorem test_ModulesAndDescriptorTable :
    (∃ d : Dev, ∃ fn : Nat, ∃ ctx : Nat, ∃ c : List Nat, (d.rst.held = false) ∧ (fn < 16) ∧ (ctx < 4096) ∧ (d.headOp (ckey fn ctx) 5 = some c) ∧ (d.poisonIn (bfield c 16 8) (bfield c 24 4) = []) ∧ 
let src := bfield c 16 8

let len := bfield c 24 4

let b := d.rdHbm src len

let rng := d.headRange (ckey fn ctx)
(d.loadFail fn rng src len b = none) ∧ (((hdrOf b).sigOfs = 0 ∨ d.moduleSigOk (b.take 32 ++ List.replicate 8 0 ++ b.drop 40) (hdrOf b).sigOfs = true))) ∧
    (∃ d : Dev, ∃ fn : Nat, ∃ ctx : Nat, ∃ c : List Nat, ∃ p : Nat × Nat, (d.rst.held = false) ∧ (fn < 16) ∧ (ctx < 4096) ∧ (d.headOp (ckey fn ctx) 5 = some c) ∧ (d.poisonIn (bfield c 16 8) (bfield c 24 4) = []) ∧ 
let src := bfield c 16 8

let len := bfield c 24 4

let b := d.rdHbm src len

let rng := d.headRange (ckey fn ctx)
(d.loadFail fn rng src len b = some p)) ∧
    (∃ d : Dev, ∃ fn : Nat, ∃ ctx : Nat, ∃ c : List Nat, (d.rst.held = false) ∧ (fn < 16) ∧ (ctx < 4096) ∧ (d.headOp (ckey fn ctx) 5 = some c) ∧ (d.poisonIn (bfield c 16 8) (bfield c 24 4) = []) ∧ 
let src := bfield c 16 8

let len := bfield c 24 4

let b := d.rdHbm src len

let rng := d.headRange (ckey fn ctx)
(d.loadFail fn rng src len b = none) ∧ ((hdrOf b).sigOfs ≠ 0) ∧ (d.moduleSigOk (b.take 32 ++ List.replicate 8 0 ++ b.drop 40) (hdrOf b).sigOfs = false)) ∧
    (∃ d : Dev, ∃ fn : Nat, ∃ ctx : Nat, ∃ c : List Nat, (d.rst.held = false) ∧ (d.headOp (ckey fn ctx) 5 = some c)) ∧
    (∃ d : Dev, ∃ fn : Nat, ∃ ctx : Nat, ∃ c : List Nat, (d.rst.held = false) ∧ (fn < 16) ∧ (ctx < 4096) ∧ (d.headOp (ckey fn ctx) 6 = some c) ∧ ((d.modOf fn (bfield c 16 2)).isSome = true) ∧ (d.modInBank (bfield c 16 2) = false)) ∧
    (∃ d : Dev, ∃ fn : Nat, ∃ ctx : Nat, ∃ id : Nat, ∃ k : RingCmd, (d.rst.held = false) ∧ (d.head (ckey fn ctx) = some k) ∧ (k.st = .unloading id) ∧ (d.runs.any (fun p => p.2.modId == id && p.2.dispatched) = false)) ∧
    (∃ d : Dev, ∃ fn : Nat, ∃ ctx : Nat, ∃ id : Nat, ∃ k : RingCmd, (d.rst.held = false) ∧ (d.head (ckey fn ctx) = some k) ∧ (k.st = .unloading id) ∧ (d.runs.any (fun p => p.2.modId == id && p.2.dispatched) = true)) ∧
    (∃ d : Dev, ∃ fn : Nat, ∃ ctx : Nat, ∃ c : List Nat, (d.rst.held = false) ∧ (fn < 16) ∧ (ctx < 4096) ∧ (d.headOp (ckey fn ctx) 7 = some c) ∧ (d.poisonIn (bfield c 24 8) (64 * bfield c 20 4) = []) ∧ 
let first := bfield c 16 2

let n := bfield c 20 4

let entry := fun i => d.rdHbm (bfield c 24 8 + 64 * i) 64

let foreign := fun i => bitOf ((entry i).getD 11 0) 0 = true ∧ ∃ t, mfind d.tdt (first + i) = some t ∧ t.valid = true ∧ t.part ≠ fn
((∀ i, i < n → descFails (entry i) 0 false = [] ∧ ¬ foreign i))) ∧
    (∃ d : Dev, ∃ fn : Nat, ∃ ctx : Nat, ∃ c : List Nat, (d.rst.held = false) ∧ (fn < 16) ∧ (ctx < 4096) ∧ (d.headOp (ckey fn ctx) 7 = some c) ∧ (d.poisonIn (bfield c 24 8) (64 * bfield c 20 4) = []) ∧ 
let first := bfield c 16 2

let n := bfield c 20 4

let entry := fun i => d.rdHbm (bfield c 24 8 + 64 * i) 64

let foreign := fun i => bitOf ((entry i).getD 11 0) 0 = true ∧ ∃ t, mfind d.tdt (first + i) = some t ∧ t.valid = true ∧ t.part ≠ fn
((∃ i, i < n ∧ (descFails (entry i) 0 false ≠ [] ∨ foreign i)))) ∧
    (∃ d : Dev, ∃ fn : Nat, ∃ ctx : Nat, ∃ c : List Nat, (d.rst.held = false) ∧ (d.headOp (ckey fn ctx) 7 = some c) ∧ (bfield c 20 4 ≠ 0)) :=
  ⟨⟨dLoad (container false), 0, 5, bLoad 0x10000 256, by decide +kernel⟩,
    ⟨dLoad (List.replicate 256 0), 0, 5, bLoad 0x10000 256, (1, 0), by decide +kernel⟩,
    ⟨dSigned, 0, 5, bLoad 0x10000 1280, by decide +kernel⟩,
    ⟨dLoad (container false), 0, 5, bLoad 0x10000 256, by decide +kernel⟩,
    ⟨{ dHead (bUnload 1) .fetched with mods := [(1, mdOf [wEnd] [])] }, 0, 5, bUnload 1, by decide +kernel⟩,
    ⟨{ dHead (bUnload 1) (.unloading 1) with mods := [(1, mdOf [wEnd] [])] }, 0, 5, 1, ⟨0, bUnload 1, .unloading 1, rngA⟩, by decide +kernel⟩,
    ⟨{ dHead (bUnload 1) (.unloading 1) with runs := [(3, { runA with dispatched := true })] }, 0, 5, 1, ⟨0, bUnload 1, .unloading 1, rngA⟩, by decide +kernel⟩,
    ⟨dTdt 0, 0, 5, bTdt 65534 2 0x10000, by decide +kernel⟩,
    ⟨dTdt 1, 0, 5, bTdt 65534 2 0x10000, by decide +kernel⟩,
    ⟨dTdt 0, 0, 5, bTdt 65534 2 0x10000, by decide +kernel⟩⟩

theorem test_DispatchStartsARun :
    (∃ d : Dev, ∃ id : Nat, ∃ t : Nat, ∃ r0 : Run, ∃ r : Run, ∃ r' : Run, ∃ m : Module, ∃ en : Entry, (d.rst.held = false) ∧ (mfind d.runs id = some r0) ∧ (d.isCand r0 = true) ∧ (d.rst.warm = false) ∧ (d.rst.low = 0) ∧ (d.rst.entering = 0) ∧ (d.rst.hbmReady = true) ∧ (d.rst.refclk = true) ∧ (d.held r0.part = false) ∧ (d.reread r0 = (r, stOk)) ∧ ((d.entryAddr r).bind (fun a => (d.poisonIn a 64).head?) = none) ∧ (d.dispatchCheck r = stOk) ∧ (d.runEntry r = some (m, en)) ∧ 
let d1 := (d.at_ t).planPreempt
(d1.allFree r = true) ∧ (d1.reserved id r = false) ∧ ((r.dispatched = true ∧ r' = r) ∨ (r.dispatched = false ∧ d1.snapshot r m en = .ok r'))) ∧
    (∃ d : Dev, ∃ id : Nat, ∃ r : Run, (d.rst.held = false) ∧ (mfind d.runs id = some r) ∧ (d.isCand r = true) ∧ (d.rst.warm = false) ∧ (d.rst.low = 0) ∧ (d.rst.entering = 0) ∧ (d.rst.hbmReady = true) ∧ (d.rst.refclk = true) ∧ (d.held r.part = true)) ∧
    (∃ d : Dev, ∃ id : Nat, ∃ r : Run, ∃ st : Nat, (d.rst.held = false) ∧ (mfind d.runs id = some r) ∧ (d.isCand r = true) ∧ (d.rst.warm = false) ∧ (d.rst.low = 0) ∧ (d.rst.entering = 0) ∧ (d.rst.hbmReady = true) ∧ (d.rst.refclk = true) ∧ (d.held r.part = false) ∧ ((d.entryAddr r).bind (fun a => (d.poisonIn a 64).head?) = none) ∧ ((d.reread r).2 = st) ∧ (st ≠ stOk)) ∧
    (∃ d : Dev, ∃ id : Nat, ∃ r : Run, ∃ r' : Run, ∃ st : Nat, (d.rst.held = false) ∧ (mfind d.runs id = some r) ∧ (d.isCand r = true) ∧ (d.rst.warm = false) ∧ (d.rst.low = 0) ∧ (d.rst.entering = 0) ∧ (d.rst.hbmReady = true) ∧ (d.rst.refclk = true) ∧ (d.held r.part = false) ∧ ((d.entryAddr r).bind (fun a => (d.poisonIn a 64).head?) = none) ∧ (d.reread r = (r', stOk)) ∧ (d.dispatchCheck r' = st) ∧ (st ≠ stOk)) ∧
    (∃ d : Dev, ∃ id : Nat, ∃ r : Run, (d.rst.held = false) ∧ (mfind d.runs id = some r) ∧ (d.isCand r = false ∨ d.rst.warm = true ∨ d.rst.low ≠ 0 ∨ d.rst.hbmReady = false ∨ d.rst.refclk = false)) :=
  ⟨⟨dCand, 3, 9, rC, rC, { rC with dispatched := true }, mdOf [wEnd] [], ⟨0, 1, 1, false, 0, 4, false, 0, 0, 0⟩, by decide +kernel⟩,
    ⟨dCand.set F.SAF_SAFE_STAT.B_PART 1, 3, rC, by decide +kernel⟩,
    ⟨dReread, 3, { rC with ordo := true }, stFormat, by decide +kernel⟩,
    ⟨dMod [wEnd] [] { runA with modId := 2 }, 3, { rC with modId := 2 }, { rC with modId := 2 }, stBounds, by decide +kernel⟩,
    ⟨dMod [wEnd] [] { runA with phase := .run 1 }, 3, { rC with phase := .run 1 }, by decide +kernel⟩⟩

theorem test_SlicesAndAssignment :
    (∃ d : Dev, ∃ fn : Nat, ∃ ctx : Nat, ∃ t : Nat, ∃ c : Ctx, (d.rst.held = false) ∧ (d.ctx (ckey fn ctx) = some c) ∧ (ckey fn ctx ∈ d.turns) ∧ (c.slice * 50000 ≤ (d.at_ t).sliceCharge (ckey fn ctx))) ∧
    (∃ d : Dev, ∃ value : Nat, ∃ c : Ctx, (d.rst.held = false) ∧ (d.ctx (ckey (d.f F.SCH_CTX_SEL.PART) (d.f F.SCH_CTX_SEL.CTX)) = some c) ∧ (bits value 9 2 ≠ 0)) ∧
    (∃ d : Dev, ∃ value : Nat, (d.rst.held = false) ∧ (d.ctx (ckey (d.f F.SCH_CTX_SEL.PART) (d.f F.SCH_CTX_SEL.CTX)) = none ∨ bits value 9 2 = 0)) ∧
    (∃ d : Dev, (d.rst.held = false) ∧ (keysRise d.regs.cur = true) ∧ (d.partBad = false)) ∧
    (∃ d : Dev, (d.rst.held = false) ∧ (d.partBad = true)) ∧
    (∃ d : Dev, (d.rst.held = false) ∧ (16384 < d.f F.SCH_FLAG_CLR.FIRST + d.f F.SCH_FLAG_CLR.COUNT)) :=
  ⟨⟨dSlice, 0, 5, 50000, ctxR, by decide +kernel⟩,
    ⟨Dev.set (dCtx ctxR) F.SCH_CTX_SEL.CTX 5, 0x3FF, ctxR, by decide +kernel⟩,
    ⟨dSelC, 4, by decide +kernel⟩,
    ⟨d0, by decide +kernel⟩,
    ⟨dSafeOff, by decide +kernel⟩,
    ⟨dClr 3, by decide +kernel⟩⟩

theorem test_FlagClearZeroesARangeThatNothingWaitsOn :
    (∃ d : Dev, ∃ w : Waiting, (d.rst.held = false) ∧ (d.f F.SCH_FLAG_CLR.FIRST + d.f F.SCH_FLAG_CLR.COUNT ≤ 16384) ∧ 
let inRange := fun n => d.f F.SCH_FLAG_CLR.FIRST ≤ n ∧ n < d.f F.SCH_FLAG_CLR.FIRST + d.f F.SCH_FLAG_CLR.COUNT
(w ∈ d.waits) ∧ (inRange w.flag)) ∧
    (∃ d : Dev, ∃ w : Waiting, (d.rst.held = false) ∧ (d.f F.SCH_FLAG_CLR.FIRST + d.f F.SCH_FLAG_CLR.COUNT ≤ 16384) ∧ 
let inRange := fun n => d.f F.SCH_FLAG_CLR.FIRST ≤ n ∧ n < d.f F.SCH_FLAG_CLR.FIRST + d.f F.SCH_FLAG_CLR.COUNT
(w ∈ d.waits) ∧ (inRange w.flag)) ∧
    (∃ d : Dev, (d.rst.held = false) ∧ (d.f F.SCH_FLAG_CLR.FIRST + d.f F.SCH_FLAG_CLR.COUNT ≤ 16384) ∧ 
let inRange := fun n => d.f F.SCH_FLAG_CLR.FIRST ≤ n ∧ n < d.f F.SCH_FLAG_CLR.FIRST + d.f F.SCH_FLAG_CLR.COUNT
((∀ w ∈ d.waits, ¬ inRange w.flag))) :=
  ⟨⟨dClrW, ⟨0, 5, true, 16382, [], 0x8070, 50⟩, by decide +kernel⟩,
    ⟨dClrW, ⟨0, 5, true, 16382, [], 0x8070, 50⟩, by decide +kernel⟩,
    ⟨dClr 2, by decide +kernel⟩⟩

/-! ## frame -/

def dStart : Dev := { d0 with running := true, frame := { d0.frame with started := true, vigilDone := true, tick := 100, nextTick := 200 } }
def dIn : Dev := { dStart with frame := { dStart.frame with vigilDone := false, agreeDone := false } }
def dKal (p ph o : Nat) : Dev := ((d0.set F.ALM_KAL_PERIOD.PERIOD_NS p).set F.ALM_KAL_PHASE.PHASE_NS ph).set F.ALM_VIGIL_OFFSET.OFFSET_NS o
def rosterMsg : List Nat := List.replicate 1216 0
/-- The CRC-64 of zeros is 0. -/
theorem crc64_zeros : ∀ n, crc64 (List.replicate n 0) = 0
  | 0 => rfl
  | n + 1 => crc64_zeros n
def dGroup (lead : Nat) : Dev := (((dIn.set F.LNK_GROUP.EN 1).set F.LNK_GROUP.LEADER lead).set F.LNK_GROUP_MEM.PKG 7).set F.LNK_GROUP_MEM.VALID 1
def dGroupUp : Dev := (((dGroup 0).set F.LNK_TOPO.SIZE_X 7).set (F.LNK_PORT_STAT.STATE 0) 2).set (F.LNK_PORT_STAT.STATE 1) 2
def slotA : Slot := ⟨0, 5, false, false, 50, 1, 0, [], 0, 0, 0, 0, 0, [List.replicate 64 0]⟩
def varA : Variant := ⟨0, 0, [⟨0, 0, 1, 0⟩], [slotA]⟩
def varB : Variant := ⟨0, 0, [⟨0, 0, 1, 0⟩, ⟨9, 1, 0, 0⟩], [slotA]⟩
def dPlan (ph : Option Nat) : Dev := { dIn with frame := { dIn.frame with banks := [[(0, varA)], []], variant := some 0, agreeDone := true, phase := ph } }
def taskA : Task := ⟨0, true, false, none, 0, 49, [], 0, []⟩
def runO : Run := { runA with ctx := 5, ordo := true, phase := .run 1, dispatched := true, chargeFrom := some 0 }
def dTask : Dev := { dPlan (some 0) with runs := [(3, runO)], nextRun := 4, frame := { (dPlan (some 0)).frame with tasks := [taskA] } }
def dPhase (e : Bool) : Dev := { dTask with frame := { dTask.frame with banks := [[(0, varB)], []], tasks := [{ taskA with ended := e }] } }
def dImage (b : List Nat) : Dev := (putBytes d0 0x100000 b).set F.SCH_ORDO_SRC.ADDR 0x100000

theorem test_KalendsSettingsAndFrameRead :
    (∃ d : Dev, (d.rst.held = false) ∧ (5000000 ≤ d.f F.ALM_KAL_PERIOD.PERIOD_NS) ∧ (d.f F.ALM_KAL_PERIOD.PERIOD_NS ≤ 200000000) ∧ (d.f F.ALM_KAL_PHASE.PHASE_NS < d.f F.ALM_KAL_PERIOD.PERIOD_NS) ∧ (1000000 ≤ d.f F.ALM_VIGIL_OFFSET.OFFSET_NS) ∧ (d.f F.ALM_VIGIL_OFFSET.OFFSET_NS ≤ d.f F.ALM_KAL_PERIOD.PERIOD_NS)) ∧
    (∃ d : Dev, (d.rst.held = false) ∧ (d.f F.ALM_KAL_PERIOD.PERIOD_NS < 5000000 ∨ 200000000 < d.f F.ALM_KAL_PERIOD.PERIOD_NS ∨
      d.f F.ALM_KAL_PERIOD.PERIOD_NS ≤ d.f F.ALM_KAL_PHASE.PHASE_NS ∨ d.f F.ALM_VIGIL_OFFSET.OFFSET_NS < 1000000 ∨
      d.f F.ALM_KAL_PERIOD.PERIOD_NS < d.f F.ALM_VIGIL_OFFSET.OFFSET_NS)) ∧
    (∃ d : Dev, (d.rst.held = false)) :=
  ⟨⟨dKal 200000000 199999999 200000000, by decide +kernel⟩,
    ⟨dKal 5000000 5000000 1000000, by decide +kernel⟩,
    ⟨{ dStart with frame := { dStart.frame with frameNo := 0x700000009 } }, by decide +kernel⟩⟩

theorem test_KalendsTickStartsTheNextFrame :
    (∃ d : Dev, (d.rst.held = false) ∧ (d.running = true) ∧ (d.rst.warm = false) ∧ (d.rst.low ≠ 2) ∧ (d.frame.started = true) ∧ (d.frame.vigilDone = true)) ∧
    (∃ d : Dev, (d.rst.held = false) ∧ (d.running = true) ∧ (d.rst.warm = true ∨ d.rst.low = 2) ∧ (d.frame.started = true)) :=
  ⟨⟨dStart, by decide +kernel⟩,
    ⟨{ dStart with rst := { d0.rst with warm := true } }, by decide +kernel⟩⟩

theorem test_VigilEndsTheFramesCommands :
    (∃ d : Dev, (d.rst.held = false) ∧ (d.frame.started = true) ∧ (d.frame.vigilDone = false)) :=
  ⟨dTask, by decide +kernel⟩

theorem test_RosterAgreement :
    (∃ d : Dev, ∃ bytes : List Nat, (d.rst.held = false) ∧ ((d.route (d.f F.LNK_GROUP_MEM.PKG % 2 ^ 15)).isSome = true) ∧ (d.groupMember = true) ∧ (d.frame.started = true) ∧ (d.frame.agreeDone = false) ∧ (d.on F.ALM_STAT.FREE_START = false) ∧ (crc64 (bytes.drop 64) = bfield bytes 16 8) ∧ ((bytes.drop 64).length = 1152)) ∧
    (∃ d : Dev, ∃ member : Nat, (d.rst.held = false) ∧ (d.frame.started = true) ∧ (d.frame.agreeDone = false) ∧ (d.groupLeader = true) ∧ (d.groupPkgs.contains member = true)) ∧
    (∃ d : Dev, (d.rst.held = false) ∧ (d.frame.started = true) ∧ (d.frame.agreeDone = false) ∧ (d.groupLeader = true) ∧ (d.groupMember = false) ∧ (d.coll.ready = true)) :=
  ⟨⟨dGroupUp, rosterMsg, by decide +kernel, by decide +kernel, by decide +kernel, by decide +kernel, by decide +kernel, by decide +kernel, by rw [rosterMsg, List.drop_replicate, crc64_zeros]; decide +kernel, by rw [rosterMsg, List.drop_replicate, List.length_replicate]⟩,
    ⟨dGroup 1, 7, by decide +kernel⟩,
    ⟨dGroup 1, by decide +kernel⟩⟩

theorem test_PhasesAndBudgets :
    (∃ d : Dev, ∃ v : Variant, ∃ p : PhaseEntry, ∃ t : Nat, (d.rst.held = false) ∧ (d.plan = some v) ∧ (v.phases[0]? = some p) ∧ (d.frame.phase = none) ∧ (d.frame.started = true) ∧ (d.frame.vigilDone = false) ∧ (d.frame.agreeDone = true) ∧ (d.frame.tick + p.startNs ≤ t)) ∧
    (∃ d : Dev, ∃ v : Variant, ∃ x : PhaseEntry, ∃ p : PhaseEntry, ∃ n : Nat, ∃ t : Nat, (d.rst.held = false) ∧ (d.plan = some v) ∧ (v.phases[n]? = some x) ∧ (v.phases[n + 1]? = some p) ∧ (d.frame.phase = some n) ∧ (d.frame.started = true) ∧ (d.frame.vigilDone = false) ∧ (d.frame.tick + p.startNs ≤ Nat.max d.now t) ∧ ((∀ i, i < x.taskCount → (d.task (x.firstTask + i)).all Task.ended = true))) ∧
    (∃ d : Dev, ∃ v : Variant, ∃ x : PhaseEntry, ∃ p : PhaseEntry, ∃ n : Nat, ∃ i : Nat, ∃ k : Task, (d.rst.held = false) ∧ (d.plan = some v) ∧ (v.phases[n]? = some x) ∧ (v.phases[n + 1]? = some p) ∧ (d.frame.phase = some n) ∧ (i < x.taskCount) ∧ (d.task (x.firstTask + i) = some k) ∧ (k.ended = false)) ∧
    (∃ d : Dev, ∃ id : Nat, ∃ t : Nat, ∃ r : Run, ∃ k : Task, ∃ s : Slot, (d.rst.held = false) ∧ (mfind d.runs id = some r) ∧ (r.ordo = true) ∧ (r.frame = d.frame.frameNo) ∧ (r.holds = true) ∧ (r.inCommit = false) ∧ (r.endKill = none) ∧ (((d.at_ t).charge id true).task r.task = some k) ∧ (((d.at_ t).charge id true).slotOf r.task = some s) ∧ (s.budget ≤ k.charge) ∧ (d.coll.ready = true) ∧ ((r.members.head?).all (fun m => masterKnown m.phys) = true)) :=
  ⟨⟨dPlan none, varA, ⟨0, 0, 1, 0⟩, 100, by decide +kernel⟩,
    ⟨dPhase true, varB, ⟨0, 0, 1, 0⟩, ⟨9, 1, 0, 0⟩, 0, 109, by decide +kernel⟩,
    ⟨dPhase false, varB, ⟨0, 0, 1, 0⟩, ⟨9, 1, 0, 0⟩, 0, 0, taskA, by decide +kernel⟩,
    ⟨dTask, 3, 1, runO, { taskA with charge := 50 }, slotA, by decide +kernel⟩⟩

theorem test_OrdoImagesAreCheckedAndCopied :
    (∃ d : Dev, ∃ l : List (Nat × Variant), (d.rst.held = false) ∧ (d.on F.SCH_ORDO_CTRL.BUSY = false) ∧ (d.on F.SCH_ORDO_CTRL.PENDING = false) ∧ (d.rst.hbmReady = true) ∧ ((d.switchReads (d.f F.SCH_ORDO_SRC.ADDR)).all (fun x => (d.poisonIn x.1 x.2).isEmpty) = true) ∧ (d.image (d.f F.SCH_ORDO_SRC.ADDR) = .ok l)) ∧
    (∃ d : Dev, ∃ x : ImgErr, (d.rst.held = false) ∧ (d.on F.SCH_ORDO_CTRL.BUSY = false) ∧ (d.on F.SCH_ORDO_CTRL.PENDING = false) ∧ (d.rst.hbmReady = true) ∧ ((d.switchReads (d.f F.SCH_ORDO_SRC.ADDR)).all (fun x => (d.poisonIn x.1 x.2).isEmpty) = true) ∧ (d.image (d.f F.SCH_ORDO_SRC.ADDR) = .error x)) ∧
    (∃ d : Dev, (d.rst.held = false) ∧ (d.on F.SCH_ORDO_CTRL.BUSY = false) ∧ (d.on F.SCH_ORDO_CTRL.PENDING = false) ∧ (d.rst.hbmReady = true)) ∧
    (∃ d : Dev, (d.rst.held = false) ∧ (d.on F.SCH_ORDO_CTRL.BUSY = false) ∧ (d.on F.SCH_ORDO_CTRL.PENDING = false) ∧ (d.rst.hbmReady = false)) ∧
    (∃ d : Dev, (d.rst.held = false) ∧ (d.on F.SCH_ORDO_CTRL.BUSY = true ∨ d.on F.SCH_ORDO_CTRL.PENDING = true)) ∧
    (∃ d : Dev, ∃ l : List (Nat × Variant), (d.rst.held = false) ∧ (d.frame.copying = some l) ∧ (d.frame.banks.length = 2)) :=
  ⟨⟨d0, [], by decide +kernel⟩,
    ⟨dImage [1], ⟨stZero, 0, 0, 0⟩, by decide +kernel⟩,
    ⟨dImage [1], by decide +kernel⟩,
    ⟨{ dImage [1] with rst := { d0.rst with hbmReady := false } }, by decide +kernel⟩,
    ⟨d0.set F.SCH_ORDO_CTRL.BUSY 1, by decide +kernel⟩,
    ⟨{ d0 with frame := { d0.frame with copying := some [(0, varA)] } }, [(0, varA)], by decide +kernel⟩⟩

/-! ## engine -/

def opT (base dt : Nat) (dims strides : List Nat) : Operand := ⟨⟨base, dt, 0, 0, false, 0, true, 0, 0, dims, strides, 0⟩, base, []⟩
/-- A word of a class and operation with operand table entries 0 to 3 in its slots. -/
def wOp (cls op : Nat) (fs : List (Nat × Nat)) (n : Nat) : Nat := wd cls op ([(10, n), (72, 1), (96, 2)] ++ fs)
/-- The next instruction is `w`, its operands are `l`, and the own scratchpad of its engine holds `mem`. -/
def dOp (code : List Nat) (l : List Operand) (mem : List (Nat × List Nat)) : Dev :=
  mem.foldl (fun d p => Dev.wrSram d ⟨0, p.1⟩ p.2) (dEx (code ++ [8]) (fun r => { r with snap := (List.range l.length).zip l }))
def okOr {α : Type} (x : Except Nat α) (y : α) : α := match x with
  | .ok v => v
  | .error _ => y
def accZ : Acc2 := ⟨⟨0, 0⟩, 0, (opT 0 0 [] []).desc⟩
def ewOc (d : Dev) (c : Cur) (op : Nat) : EwOp := okOr (d.ewOps c 0 op) ⟨accZ, none, none, accZ⟩
def ewO (d : Dev) (op : Nat) : EwOp := ewOc d (curOf d 0) op
def accC (d : Dev) (c : Cur) (n : Nat) (w : Bool) : Acc2 := okOr (d.opd c 0 n w stFormat) accZ
def acc (d : Dev) (n : Nat) (w : Bool) : Acc2 := accC d (curOf d 0) n w
def fpV (l : List Nat) : List Nat := l.flatMap (leBytes 4)
/-- Four rows of FP32 operands: 1.5, -2, NaN and infinity; 3, 0.25, 1 and -1e30; OUT; and zeros. -/
def memE : List (Nat × List Nat) := [(0, fpV [0x3FC00000, 0xC0000000, 0x7FC00000, 0x7F800000]), (0x400, fpV [0x40400000, 0x3E800000, 0x3F800000, 0xF149F2CA]),
  (0x1000, fpV [0x3F800000, 0x40000000])]
def opsE (dt : Nat) : List Operand := [opT 0 dt [2, 2, 1, 1] [128, 0, 0], opT 0x400 dt [1, 2, 1, 1] [128, 0, 0], opT 0x800 dt [2, 2, 1, 1] [128, 0, 0], opT 0x1000 dt [2, 1, 1, 1] [0, 0, 0]]
def dEw (op dt : Nat) (fs : List (Nat × Nat)) (x : Nat) : Dev := dOp [wOp 1 op fs 1, 3 + x * 2 ^ 24] (opsE dt) memE
/-- REQUANT to INT8: scale 3, shift 2, zero point 5; the inputs are INT32. -/
def dRq (x : Nat) : Dev := dOp [wOp 1 0x11 [(120, 1)] 1, x] [opT 0 7 [2, 2, 1, 1] [128, 0, 0], opT 0x400 7 [1, 1, 1, 1] [0, 0, 0], opT 0x800 1 [2, 2, 1, 1] [128, 0, 0]] memE
def rqX : Nat := 3 * 2 ^ 24 + (2 + 5 * 256) * 2 ^ 56
def dRed (op dt f : Nat) : Dev := dOp [wOp 1 op [(120, f), (124, 1)] 1, 0] [opT 0 dt [2, 2, 1, 1] [128, 0, 0], opT 0 dt [1] [], opT 0x800 dt [2, 1, 1, 1] [0, 0, 0]] memE
def dOpt (op n : Nat) : Dev := dOp ([wOp 1 op [] n, 3 + 0x3F000000 * 2 ^ 24 + 0x3C23D70A * 2 ^ 56] ++ List.replicate (n - 1) 0)
  [opT 0 8 [2, 1, 1, 1] [0, 0, 0], opT 0x400 8 [2, 1, 1, 1] [0, 0, 0], opT 0x800 8 [2, 1, 1, 1] [0, 0, 0], opT 0x1000 8 [2, 1, 1, 1] [0, 0, 0]] memE
/-- A product of two 2 by 2 INT8 matrices: [[1, 2], [3, 4]] and [[1, 1], [0, 1]]; OUT is INT32. -/
def opMm (base dt ly : Nat) : Operand := ⟨⟨base, dt, ly, 0, false, 0, true, 0, 0, [2, 2, 1, 1], [0, 0, 0], 0⟩, base, []⟩
def dMmO (l : List Operand) (k : Nat) : Dev := dOp [wOp 0 0 [] 1, 2 * 2 ^ 72 + 2 * 2 ^ 85 + k * 2 ^ 98] l [(0, [1, 2]), (128, [3, 4]), (0x4000, [1, 1]), (0x4080, [0, 1])]
def dMm : Dev := dMmO [opMm 0 1 1, opMm 0x4000 1 2, opMm 0x8000 7 3] 2
def mmOc (d : Dev) (c : Cur) : MmOp := okOr (d.mmOps c 0 c.mmF) ⟨accZ, accZ, accZ, none, none, none⟩
def mmO (d : Dev) : MmOp := mmOc d (curOf d 0)

theorem test_ElementWiseInstructionsIssue :
    (∃ p : (Nat → Nat → Nat → Instr) × Nat, ∃ d : Dev, ∃ id : Nat, ∃ g : Nat, ∃ c : Cur, (p ∈ [(Instr.ewCvt, 0x00), (.ewAdd, 0x01), (.ewSub, 0x02), (.ewMul, 0x03), (.ewFma, 0x04), (.ewMax, 0x05), (.ewMin, 0x06),
      (.ewAbs, 0x07), (.ewNeg, 0x08), (.ewRelu, 0x09), (.ewClamp, 0x0A), (.ewAffine, 0x0B), (.ewExp, 0x0C), (.ewRecip, 0x0D),
      (.ewSqrt, 0x0E), (.ewRsqrt, 0x0F), (.ewReluGrad, 0x10)]) ∧ (d.rst.held = false) ∧ (d.curOp id g 1 p.2 = some c) ∧ (c.stalls qArray = false) ∧ 
let f := ewFields c.i

let ins := ewIns c p.2

let out := c.desc 2

let admitted := (if f.int then opInt p.2 = true ∧ ∀ a ∈ ins, isInt a.dtype = true else opFp p.2 = true) ∧
      ∀ a ∈ out :: ins, a.layout = 0 ∨ a.layout = 3
(¬ admitted)) ∧
    (∃ p : (Nat → Nat → Nat → Instr) × Nat, ∃ d : Dev, ∃ id : Nat, ∃ g : Nat, ∃ c : Cur, ∃ s : Nat, (p ∈ [(Instr.ewCvt, 0x00), (.ewAdd, 0x01), (.ewSub, 0x02), (.ewMul, 0x03), (.ewFma, 0x04), (.ewMax, 0x05), (.ewMin, 0x06),
      (.ewAbs, 0x07), (.ewNeg, 0x08), (.ewRelu, 0x09), (.ewClamp, 0x0A), (.ewAffine, 0x0B), (.ewExp, 0x0C), (.ewRecip, 0x0D),
      (.ewSqrt, 0x0E), (.ewRsqrt, 0x0F), (.ewReluGrad, 0x10)]) ∧ (d.rst.held = false) ∧ (d.curOp id g 1 p.2 = some c) ∧ (c.stalls qArray = false) ∧ 
let f := ewFields c.i

let ins := ewIns c p.2

let out := c.desc 2

let admitted := (if f.int then opInt p.2 = true ∧ ∀ a ∈ ins, isInt a.dtype = true else opFp p.2 = true) ∧
      ∀ a ∈ out :: ins, a.layout = 0 ∨ a.layout = 3
(admitted) ∧ (d.ewOps c g p.2 = .error s)) ∧
    (∃ p : (Nat → Nat → Nat → Instr) × Nat, ∃ d : Dev, ∃ id : Nat, ∃ g : Nat, ∃ c : Cur, ∃ o : EwOp, (p ∈ [(Instr.ewCvt, 0x00), (.ewAdd, 0x01), (.ewSub, 0x02), (.ewMul, 0x03), (.ewFma, 0x04), (.ewMax, 0x05), (.ewMin, 0x06),
      (.ewAbs, 0x07), (.ewNeg, 0x08), (.ewRelu, 0x09), (.ewClamp, 0x0A), (.ewAffine, 0x0B), (.ewExp, 0x0C), (.ewRecip, 0x0D),
      (.ewSqrt, 0x0E), (.ewRsqrt, 0x0F), (.ewReluGrad, 0x10)]) ∧ (d.rst.held = false) ∧ (d.curOp id g 1 p.2 = some c) ∧ (c.stalls qArray = false) ∧ 
let f := ewFields c.i

let ins := ewIns c p.2

let out := c.desc 2

let admitted := (if f.int then opInt p.2 = true ∧ ∀ a ∈ ins, isInt a.dtype = true else opFp p.2 = true) ∧
      ∀ a ∈ out :: ins, a.layout = 0 ∨ a.layout = 3

let shaped := (∀ a ∈ ins, ∀ n ∈ [0, 1, 2, 3], a.dim n = 1 ∨ a.dim n = out.dim n) ∧
      (p.2 = 0x0A → if f.int then toSigned 32 f.s0 ≤ toSigned 32 f.s1 else
        (ofBits32 f.s0).gt (ofBits32 f.s1) = false ∨ ((ofBits32 f.s0).isZero = true ∧ (ofBits32 f.s1).isZero = true))
(admitted) ∧ (d.ewOps c g p.2 = .ok o) ∧ 
let apart := (o.ins.filter o.out.overlaps).length ≤ 1 ∧ ∀ a ∈ o.ins, o.out.overlaps a = true → o.out.same a = true
(shaped) ∧ (apart) ∧ (ewUnaligned c o = [])) ∧
    (∃ p : (Nat → Nat → Nat → Instr) × Nat, ∃ d : Dev, ∃ id : Nat, ∃ g : Nat, ∃ c : Cur, ∃ o : EwOp, (p ∈ [(Instr.ewCvt, 0x00), (.ewAdd, 0x01), (.ewSub, 0x02), (.ewMul, 0x03), (.ewFma, 0x04), (.ewMax, 0x05), (.ewMin, 0x06),
      (.ewAbs, 0x07), (.ewNeg, 0x08), (.ewRelu, 0x09), (.ewClamp, 0x0A), (.ewAffine, 0x0B), (.ewExp, 0x0C), (.ewRecip, 0x0D),
      (.ewSqrt, 0x0E), (.ewRsqrt, 0x0F), (.ewReluGrad, 0x10)]) ∧ (d.rst.held = false) ∧ (d.curOp id g 1 p.2 = some c) ∧ (c.stalls qArray = false) ∧ 
let f := ewFields c.i

let ins := ewIns c p.2

let out := c.desc 2

let admitted := (if f.int then opInt p.2 = true ∧ ∀ a ∈ ins, isInt a.dtype = true else opFp p.2 = true) ∧
      ∀ a ∈ out :: ins, a.layout = 0 ∨ a.layout = 3

let shaped := (∀ a ∈ ins, ∀ n ∈ [0, 1, 2, 3], a.dim n = 1 ∨ a.dim n = out.dim n) ∧
      (p.2 = 0x0A → if f.int then toSigned 32 f.s0 ≤ toSigned 32 f.s1 else
        (ofBits32 f.s0).gt (ofBits32 f.s1) = false ∨ ((ofBits32 f.s0).isZero = true ∧ (ofBits32 f.s1).isZero = true))
(admitted) ∧ (d.ewOps c g p.2 = .ok o) ∧ 
let apart := (o.ins.filter o.out.overlaps).length ≤ 1 ∧ ∀ a ∈ o.ins, o.out.overlaps a = true → o.out.same a = true
(¬ (shaped ∧ apart))) ∧
    (∃ p : (Nat → Nat → Nat → Instr) × Nat, ∃ d : Dev, ∃ id : Nat, ∃ g : Nat, ∃ c : Cur, ∃ o : EwOp, (p ∈ [(Instr.ewCvt, 0x00), (.ewAdd, 0x01), (.ewSub, 0x02), (.ewMul, 0x03), (.ewFma, 0x04), (.ewMax, 0x05), (.ewMin, 0x06),
      (.ewAbs, 0x07), (.ewNeg, 0x08), (.ewRelu, 0x09), (.ewClamp, 0x0A), (.ewAffine, 0x0B), (.ewExp, 0x0C), (.ewRecip, 0x0D),
      (.ewSqrt, 0x0E), (.ewRsqrt, 0x0F), (.ewReluGrad, 0x10)]) ∧ (d.rst.held = false) ∧ (d.curOp id g 1 p.2 = some c) ∧ (c.stalls qArray = false) ∧ 
let f := ewFields c.i

let ins := ewIns c p.2

let out := c.desc 2

let admitted := (if f.int then opInt p.2 = true ∧ ∀ a ∈ ins, isInt a.dtype = true else opFp p.2 = true) ∧
      ∀ a ∈ out :: ins, a.layout = 0 ∨ a.layout = 3

let shaped := (∀ a ∈ ins, ∀ n ∈ [0, 1, 2, 3], a.dim n = 1 ∨ a.dim n = out.dim n) ∧
      (p.2 = 0x0A → if f.int then toSigned 32 f.s0 ≤ toSigned 32 f.s1 else
        (ofBits32 f.s0).gt (ofBits32 f.s1) = false ∨ ((ofBits32 f.s0).isZero = true ∧ (ofBits32 f.s1).isZero = true))
(admitted) ∧ (d.ewOps c g p.2 = .ok o) ∧ 
let apart := (o.ins.filter o.out.overlaps).length ≤ 1 ∧ ∀ a ∈ o.ins, o.out.overlaps a = true → o.out.same a = true
(shaped) ∧ (apart) ∧ (ewUnaligned c o ≠ [])) ∧
    (∃ d : Dev, ∃ id : Nat, ∃ g : Nat, ∃ c : Cur, (d.rst.held = false) ∧ (d.curOp id g 1 0x11 = some c) ∧ (c.stalls qArray = false) ∧ 
let f := ewFields c.i
(bits f.s1 7 6 ≠ 0 ∨ bits f.s1 31 16 ≠ 0)) ∧
    (∃ d : Dev, ∃ id : Nat, ∃ g : Nat, ∃ c : Cur, ∃ o : EwOp, (d.rst.held = false) ∧ (d.curOp id g 1 0x11 = some c) ∧ (c.stalls qArray = false) ∧ 
let f := ewFields c.i

let s := bits f.s1 5 0

let z := toSigned 8 (bits f.s1 15 8)
(d.ewOps c g 0x11 = .ok o) ∧ (bits f.s1 7 6 = 0) ∧ (bits f.s1 31 16 = 0) ∧ (o.out.t.dtype ∈ [0, 1, 7]) ∧ (s ≠ 63) ∧ ((o.out.t.dtype = 0 → -8 ≤ z ∧ z ≤ 7)) ∧ (f.int = true) ∧ (isInt o.a.t.dtype = true) ∧ ((o.a.t.layout = 0 ∨ o.a.t.layout = 3)) ∧ ((o.out.t.layout = 0 ∨ o.out.t.layout = 3)) ∧ ((∀ n ∈ [0, 1, 2, 3], o.a.t.dim n = 1 ∨ o.a.t.dim n = o.out.t.dim n)) ∧ ((o.out.overlaps o.a = true → o.out.same o.a = true)) ∧ (ewUnaligned c o = [])) ∧
    (∃ d : Dev, ∃ id : Nat, ∃ g : Nat, ∃ mx : Bool, ∃ c : Cur, ∃ o : EwOp, (d.rst.held = false) ∧ (d.curOp id g 1 (if mx then 0x13 else 0x12) = some c) ∧ (c.stalls qArray = false) ∧ (d.ewOps c g (if mx then 0x13 else 0x12) = .ok o) ∧ 
let f := ewFields c.i
((f.int = true → isInt o.a.t.dtype = true)) ∧ ((o.a.t.layout = 0 ∨ o.a.t.layout = 3)) ∧ ((o.out.t.layout = 0 ∨ o.out.t.layout = 3)) ∧ ((∀ n ∈ [0, 1, 2, 3], o.out.t.dim n = if n = f.axis then 1 else o.a.t.dim n)) ∧ ((o.out.overlaps o.a = true → o.out.same o.a = true)) ∧ (ewUnaligned c o = [])) :=
  ⟨⟨(Instr.ewCvt, 0x00), dEw 0x00 8 [(120, 1)] 0, 3, 0, curOf (dEw 0x00 8 [(120, 1)] 0) 0, ⟨List.Mem.head _, by decide +kernel⟩⟩,
    ⟨(Instr.ewCvt, 0x00), dOp [wOp 1 0 [] 1, 0] [⟨⟨0, 8, 0, 1, false, 0, true, 0, 0, [2, 2, 1, 1], [128, 0, 0], 0⟩, 0, []⟩ /- -/ , opT 0x400 8 [1] [], opT 0x800 8 [2, 2, 1, 1] [128, 0, 0]] memE, 3, 0, curOf (dOp [wOp 1 0 [] 1, 0] [⟨⟨0, 8, 0, 1, false, 0, true, 0, 0, [2, 2, 1, 1], [128, 0, 0], 0⟩, 0, []⟩ /- -/ , opT 0x400 8 [1] [], opT 0x800 8 [2, 2, 1, 1] [128, 0, 0]] memE) 0, stFormat, ⟨List.Mem.head _, by decide +kernel⟩⟩,
    ⟨(Instr.ewCvt, 0x00), dEw 0x00 8 [] (0), 3, 0, curOf (dEw 0x00 8 [] (0)) 0, ewO (dEw 0x00 8 [] (0)) 0x00, ⟨List.Mem.head _, by decide +kernel⟩⟩,
    ⟨(Instr.ewCvt, 0x00), dOp [wOp 1 0 [] 1, 0] [opT 0 8 [2, 2, 1, 1] [128, 0, 0], opT 0x400 8 [1] [], opT 0x800 8 [1, 2, 1, 1] [128, 0, 0], opT 0x1000 8 [1] []] memE, 3, 0, curOf (dOp [wOp 1 0 [] 1, 0] [opT 0 8 [2, 2, 1, 1] [128, 0, 0], opT 0x400 8 [1] [], opT 0x800 8 [1, 2, 1, 1] [128, 0, 0], opT 0x1000 8 [1] []] memE) 0, ewO (dOp [wOp 1 0 [] 1, 0] [opT 0 8 [2, 2, 1, 1] [128, 0, 0], opT 0x400 8 [1] [], opT 0x800 8 [1, 2, 1, 1] [128, 0, 0], opT 0x1000 8 [1] []] memE) 0, ⟨List.Mem.head _, by decide +kernel⟩⟩,
    ⟨(Instr.ewCvt, 0x00), dOp [wOp 1 0 [] 1, 0] [opT 0 8 [2, 2, 1, 1] [128, 0, 0], opT 0x400 8 [1] [], opT 0x802 8 [2, 2, 1, 1] [128, 0, 0], opT 0x1000 8 [1] []] memE, 3, 0, curOf (dOp [wOp 1 0 [] 1, 0] [opT 0 8 [2, 2, 1, 1] [128, 0, 0], opT 0x400 8 [1] [], opT 0x802 8 [2, 2, 1, 1] [128, 0, 0], opT 0x1000 8 [1] []] memE) 0, ewO (dOp [wOp 1 0 [] 1, 0] [opT 0 8 [2, 2, 1, 1] [128, 0, 0], opT 0x400 8 [1] [], opT 0x802 8 [2, 2, 1, 1] [128, 0, 0], opT 0x1000 8 [1] []] memE) 0, ⟨List.Mem.head _, by decide +kernel⟩⟩,
    ⟨dRq (2 ^ 62), 3, 0, curOf (dRq (2 ^ 62)) 0, by decide +kernel⟩,
    ⟨dRq rqX, 3, 0, curOf (dRq rqX) 0, ewO (dRq rqX) 0x11, by decide +kernel⟩,
    ⟨dRed 0x12 8 0, 3, 0, false, curOf (dRed 0x12 8 0) 0, ewO (dRed 0x12 8 0) 0x12, by decide +kernel⟩⟩

theorem test_ElementWiseResults :
    (∃ d : Dev, ∃ id : Nat, ∃ g : Nat, ∃ c : Cur, ∃ o : EwOp, (d.rst.held = false) ∧ (MayBegin d id g qArray c) ∧ (c.i.cls = 1) ∧ (c.i.op ≤ 0x10) ∧ (d.ewOps c g c.i.op = .ok o)) ∧
    (∃ d : Dev, ∃ id : Nat, ∃ g : Nat, ∃ c : Cur, ∃ o : EwOp, (d.rst.held = false) ∧ (MayBegin d id g qArray c) ∧ (c.i.cls = 1) ∧ (c.i.op = 0x11) ∧ (d.ewOps c g 0x11 = .ok o)) ∧
    (∃ d : Dev, ∃ id : Nat, ∃ g : Nat, ∃ mx : Bool, ∃ c : Cur, ∃ o : EwOp, (d.rst.held = false) ∧ (MayBegin d id g qArray c) ∧ (c.i.cls = 1) ∧ (c.i.op = (if mx then 0x13 else 0x12)) ∧ (d.ewOps c g c.i.op = .ok o)) :=
  ⟨⟨dQ (dEw 0x00 8 [] (0)) qArray, 3, 0, headOf (dQ (dEw 0x00 8 [] (0)) qArray) qArray, ewOc (dQ (dEw 0x00 8 [] (0)) qArray) (headOf (dQ (dEw 0x00 8 [] (0)) qArray) qArray) 0x00, by decide +kernel, mayBegin_of (by decide +kernel), by decide +kernel, by decide +kernel, by decide +kernel⟩,
    ⟨dQ (dRq rqX) qArray, 3, 0, headOf (dQ (dRq rqX) qArray) qArray, ewOc (dQ (dRq rqX) qArray) (headOf (dQ (dRq rqX) qArray) qArray) 0x11, by decide +kernel, mayBegin_of (by decide +kernel), by decide +kernel, by decide +kernel, by decide +kernel⟩,
    ⟨dQ (dRed 0x12 8 0) qArray, 3, 0, false, headOf (dQ (dRed 0x12 8 0) qArray) qArray, ewOc (dQ (dRed 0x12 8 0) qArray) (headOf (dQ (dRed 0x12 8 0) qArray) qArray) 0x12, by decide +kernel, mayBegin_of (by decide +kernel), by decide +kernel, by decide +kernel, by decide +kernel⟩⟩

theorem test_OptimisersUpdateInPlace :
    (∃ d : Dev, ∃ id : Nat, ∃ g : Nat, ∃ c : Cur, ∃ w : Acc2, ∃ gr : Acc2, ∃ m : Acc2, (d.rst.held = false) ∧ (d.curOp id g 1 0x14 = some c) ∧ (c.stalls qArray = false) ∧ (d.optOps c g 0x14 = .ok [w, gr, m]) ∧ ((ewFields c.i).int = false) ∧ ((∀ a ∈ [w.t, gr.t, m.t], (a.layout = 0 ∨ a.layout = 3) ∧ a.dtype = 8)) ∧ ((w.t.sameDims gr.t = true ∧ w.t.sameDims m.t = true)) ∧ ((gr.overlaps w = false ∧ m.overlaps w = false ∧ m.overlaps gr = false)) ∧ (c.unaligned 0 w = []) ∧ (c.unaligned 1 gr = []) ∧ (c.unaligned 2 m = [])) ∧
    (∃ d : Dev, ∃ id : Nat, ∃ g : Nat, ∃ c : Cur, ∃ w : Acc2, ∃ gr : Acc2, ∃ m : Acc2, ∃ v : Acc2, (d.rst.held = false) ∧ (d.curOp id g 1 0x15 = some c) ∧ (c.stalls qArray = false) ∧ (d.optOps c g 0x15 = .ok [w, gr, m, v]) ∧ ((ewFields c.i).int = false) ∧ ((∀ a ∈ [w.t, gr.t, m.t, v.t], (a.layout = 0 ∨ a.layout = 3) ∧ a.dtype = 8)) ∧ ((w.t.sameDims gr.t = true ∧ w.t.sameDims m.t = true ∧ w.t.sameDims v.t = true)) ∧ ((gr.overlaps w = false ∧ m.overlaps w = false ∧ m.overlaps gr = false ∧ v.overlaps w = false ∧ v.overlaps gr = false ∧
      v.overlaps m = false)) ∧ (c.unaligned 0 w = []) ∧ (c.unaligned 1 gr = []) ∧ (c.unaligned 2 m = []) ∧ (c.unaligned 3 v = [])) ∧
    (∃ d : Dev, ∃ id : Nat, ∃ g : Nat, ∃ c : Cur, ∃ w : Acc2, ∃ gr : Acc2, ∃ m : Acc2, (d.rst.held = false) ∧ (MayBegin d id g qArray c) ∧ (c.i.cls = 1) ∧ (c.i.op = 0x14) ∧ (d.optOps c g 0x14 = .ok [w, gr, m]) ∧ ((w.t.sameDims gr.t = true ∧ w.t.sameDims m.t = true)) ∧ (m.overlaps w = false)) ∧
    (∃ d : Dev, ∃ id : Nat, ∃ g : Nat, ∃ c : Cur, ∃ w : Acc2, ∃ gr : Acc2, ∃ m : Acc2, ∃ v : Acc2, (d.rst.held = false) ∧ (MayBegin d id g qArray c) ∧ (c.i.cls = 1) ∧ (c.i.op = 0x15) ∧ (d.optOps c g 0x15 = .ok [w, gr, m, v]) ∧ ((w.t.sameDims gr.t = true ∧ w.t.sameDims m.t = true ∧ w.t.sameDims v.t = true)) ∧ ((m.overlaps w = false ∧ v.overlaps w = false ∧ v.overlaps m = false))) :=
  ⟨⟨dOpt 0x14 1, 3, 0, curOf (dOpt 0x14 1) 0, acc (dOpt 0x14 1) 0 true, acc (dOpt 0x14 1) 1 false, acc (dOpt 0x14 1) 2 true, by decide +kernel⟩,
    ⟨dOpt 0x15 3, 3, 0, curOf (dOpt 0x15 3) 0, acc (dOpt 0x15 3) 0 true, acc (dOpt 0x15 3) 1 false, acc (dOpt 0x15 3) 2 true, acc (dOpt 0x15 3) 3 true, by decide +kernel⟩,
    ⟨dQ (dOpt 0x14 1) qArray, 3, 0, headOf (dQ (dOpt 0x14 1) qArray) qArray, accC (dQ (dOpt 0x14 1) qArray) (headOf (dQ (dOpt 0x14 1) qArray) qArray) 0 true, accC (dQ (dOpt 0x14 1) qArray) (headOf (dQ (dOpt 0x14 1) qArray) qArray) 1 false, accC (dQ (dOpt 0x14 1) qArray) (headOf (dQ (dOpt 0x14 1) qArray) qArray) 2 true, by decide +kernel, mayBegin_of (by decide +kernel), by decide +kernel, by decide +kernel, by decide +kernel, by decide +kernel, by decide +kernel⟩,
    ⟨dQ (dOpt 0x15 3) qArray, 3, 0, headOf (dQ (dOpt 0x15 3) qArray) qArray, accC (dQ (dOpt 0x15 3) qArray) (headOf (dQ (dOpt 0x15 3) qArray) qArray) 0 true, accC (dQ (dOpt 0x15 3) qArray) (headOf (dQ (dOpt 0x15 3) qArray) qArray) 1 false, accC (dQ (dOpt 0x15 3) qArray) (headOf (dQ (dOpt 0x15 3) qArray) qArray) 2 true, accC (dQ (dOpt 0x15 3) qArray) (headOf (dQ (dOpt 0x15 3) qArray) qArray) 3 true, by decide +kernel, mayBegin_of (by decide +kernel), by decide +kernel, by decide +kernel, by decide +kernel, by decide +kernel, by decide +kernel⟩⟩

theorem test_MatmulAndScruple :
    (∃ d : Dev, ∃ id : Nat, ∃ g : Nat, ∃ c : Cur, ∃ s : Nat, (d.rst.held = false) ∧ (d.curOp id g 0 0 = some c) ∧ (c.stalls qArray = false) ∧ (d.mmOps c g c.mmF = .error s)) ∧
    (∃ d : Dev, ∃ id : Nat, ∃ g : Nat, ∃ c : Cur, ∃ o : MmOp, (d.rst.held = false) ∧ (d.curOp id g 0 0 = some c) ∧ (c.stalls qArray = false) ∧ (d.mmOps c g c.mmF = .ok o) ∧ 
let st := firstStatus (d.mmChecks c c.mmF ++ mmPlaced o ++ mmUnaligned c o)
(st = 0)) ∧
    (∃ d : Dev, ∃ id : Nat, ∃ g : Nat, ∃ c : Cur, ∃ o : MmOp, (d.rst.held = false) ∧ (d.curOp id g 0 0 = some c) ∧ (c.stalls qArray = false) ∧ (d.mmOps c g c.mmF = .ok o) ∧ 
let st := firstStatus (d.mmChecks c c.mmF ++ mmPlaced o ++ mmUnaligned c o)
(st ≠ 0)) ∧
    (∃ d : Dev, ∃ id : Nat, ∃ g : Nat, ∃ c : Cur, ∃ o : MmOp, (d.rst.held = false) ∧ (MayBegin d id g qArray c) ∧ (c.i.cls = 0) ∧ (d.mmOps c g c.mmF = .ok o) ∧ (o.out.t.dim 0 = c.mmF.n) ∧ (o.out.t.dim 1 = c.mmF.m)) ∧
    (∃ d : Dev, ∃ g : Nat, ∃ oct : Bool, ∃ f : MmF, ∃ o : MmOp, ∃ p : List Nat, ∃ x : Nat, (mmInt o.a.t.dtype = true) ∧ (x ∈ (d.mmRun g oct f o p []).2.2)) ∧
    (∃ oct : Bool, ∃ f : MmF, ∃ o : MmOp, ∃ u : Upset, ∃ i3 : Nat, ∃ i2 : Nat, ∃ m : Nat, ∃ n : Nat, (mmInt o.a.t.dtype = true) ∧ (u.flip % 2 ^ 48 ≠ 0) ∧ (i3 < o.out.t.dim 3) ∧ (i2 < o.out.t.dim 2) ∧ (m < f.m) ∧ (n < f.n) ∧ (mmVisit oct f o.out.t i3 i2 m n = (u.visit, u.row, u.col))) ∧
    (∃ d : Dev, ∃ id : Nat, ∃ g : Nat, ∃ q : Nat, ∃ t : Nat, ∃ r : Run, ∃ m : Member, ∃ l : LongIns, (d.rst.held = false) ∧ (q < 4) ∧ (d.queueHead id g q = some (r, m, l)) ∧ (l.ripe (d.acRate (unitRegion m.phys)) t = true) ∧ (d.touchedPoison l.touched = none) ∧ ((maskHas (d.coll.src 0x040).minor 2 = false ∧ maskHas (d.coll.src 0x040).severe 2 = false)) ∧ (d.coll.ready = true) ∧ (1 ∈ l.chk)) :=
  ⟨⟨dMmO [opMm 0 1 1, opMm 0x4000 1 2, ⟨⟨0, 7, 3, 1, false, 0, true, 0, 0, [2, 2, 1, 1], [0, 0, 0], 0⟩, 0, []⟩] 2, 3, 0, curOf (dMmO [opMm 0 1 1, opMm 0x4000 1 2, ⟨⟨0, 7, 3, 1, false, 0, true, 0, 0, [2, 2, 1, 1], [0, 0, 0], 0⟩, 0, []⟩] 2) 0, stBounds, by decide +kernel⟩,
    ⟨dMm, 3, 0, curOf dMm 0, mmO dMm, by decide +kernel⟩,
    ⟨dMmO [opMm 0 1 1, opMm 0x4000 1 2, opMm 0x8000 7 3] 3, 3, 0, curOf (dMmO [opMm 0 1 1, opMm 0x4000 1 2, opMm 0x8000 7 3] 3) 0, mmO (dMmO [opMm 0 1 1, opMm 0x4000 1 2, opMm 0x8000 7 3] 3), by decide +kernel⟩,
    ⟨dQ dMm qArray, 3, 0, headOf (dQ dMm qArray) qArray, mmOc (dQ dMm qArray) (headOf (dQ dMm qArray) qArray), by decide +kernel, mayBegin_of (by decide +kernel), by decide +kernel, by decide +kernel, by decide +kernel, by decide +kernel⟩,
    ⟨dMm, 0, false, (curOf dMm 0).mmF, mmO dMm, [], 0, by decide +kernel⟩,
    ⟨false, (curOf dMm 0).mmF, mmO dMm, ⟨0, 1, 0, 4⟩, 0, 0, 1, 0, by decide +kernel⟩,
    ⟨dLong [⟨0, 0, 0, [0, 0, 0, 0], [], [0, 0, 0, 0], some 4, some 60, 0, 4, [], none, [], [0, 1, 2, 1]⟩], 3, 0, 0, 104, { inQ [⟨0, 0, 0, [0, 0, 0, 0], [], [0, 0, 0, 0], some 4, some 60, 0, 4, [], none, [], [0, 1, 2, 1]⟩] rEx with ctx := 5 }, { mem0 with queues := [[⟨0, 0, 0, [0, 0, 0, 0], [], [0, 0, 0, 0], some 4, some 60, 0, 4, [], none, [], [0, 1, 2, 1]⟩], [], [], []], issued := 9 }, ⟨0, 0, 0, [0, 0, 0, 0], [], [0, 0, 0, 0], some 4, some 60, 0, 4, [], none, [], [0, 1, 2, 1]⟩, by decide +kernel⟩⟩

theorem test_WrittenElementsReadBack : ∃ d : Dev, ∃ a : Acc2, d.rst.held = false ∧ a.t.writable = true ∧ a.t.coords.length = 4 ∧ ¬ a.covers 7 :=
  ⟨dEw 0 8 [] 0, acc (dEw 0 8 [] 0) 2 true, by decide +kernel, by decide +kernel, by decide +kernel,
    by rintro ⟨s, hs, h⟩; revert s; decide +kernel⟩

/-! ## engine2 -/

def rate0 (d : Dev) : Dev :=
  let x := F.MEM_RSV.RATE 0 0
  { d with regs := { d.regs with live := mset d.regs.live x.off (putFld x 0 100) } }
def onChip (s : MvSrc) : Bool := match s with
  | .chip _ => true
  | .hbm _ _ => false
def noMask : AtOp := ⟨accZ, accZ, some accZ, ⟨2, 1, 0, []⟩⟩
def opD (base dt space : Nat) (dims strides : List Nat) : Operand := ⟨⟨base, dt, 0, space, false, 0, true, 0, 0, dims, strides, 0⟩, base, []⟩
def dMv (op : Nat) (a b : Operand) (f : Run → Run) : Dev :=
  Dev.modRun (putBytes (dOp [wOp 2 op [] 0] [a, b] [(0x40, [1, 2, 3, 4, 9, 9, 9, 9, 5, 6, 7, 8])]) 0x20000 [11, 12, 13, 14, 15, 16, 17]) 3 f
/-- Two runs of three INT4 elements from HBM; their odd half bytes become zero. -/
def dMove : Dev := dMv 0 (opD 0x20000 0 1 [3, 2, 1, 1] [64, 0, 0]) (opD 0x80 0 0 [3, 2, 1, 1] [64, 0, 0]) same
def dPublish (f : Run → Run) : Dev := rate0 <| dMv 1 (opD 0x40 1 0 [4, 1, 1, 1] [0, 0, 0]) (opD 0x20000 1 1 [4, 1, 1, 1] [0, 0, 0]) f
def pcM (n : Nat) : Piece := ⟨0, opD 0x40 1 0 [n] [], opD 0x20000 1 1 [4] []⟩
def mvO (d : Dev) (c : Cur) : Acc2 := okOr (d.opd c 0 1 true stBounds) accZ
def mvS (d : Dev) (c : Cur) : MvSrc := okOr (d.mvSrc c 0) (.chip accZ)
def pubD (d : Dev) : Operand := okOr (d.pubDst (curOf d 0) 0) (opT 0 0 [] [])
def frm (d : Dev) (n : Nat) : Operand := okOr ((curOf d 0).form 0 n) (opT 0 0 [] [])
/-- A transposing REBOLT from LINEAR to BOLT_A. -/
def opB (base dt ly : Nat) (dims : List Nat) : Operand := ⟨⟨base, dt, ly, 0, false, 0, true, 0, 0, dims, [0, 0, 0], 0⟩, base, []⟩
def dRebA (a b : Nat) : Dev := dOp [wOp 3 0 [(120, 1)] 0] [opT a 1 [3, 2, 1, 1] [128, 0, 0], opB b 1 1 [2, 3, 1, 1]] [(0, [1, 2, 3]), (0x80, [4, 5, 6]), (0x410, [7])]
def dReb : Dev := dRebA 0 0x400
/-- A 2 by 2 window over a 3 by 2 image of one channel, padded on the left by 1, with stride 2. -/
def winX : Nat := 2 + 2 * 2 ^ 13 + 2 * 2 ^ 26 + 2 ^ 39 + 2 ^ 52 + 2 ^ 65 + 2 ^ 78 + 2 ^ 126
def dWinP (b : Nat) : Dev := dOp [wd 3 1 [(10, 1), (72, 1), (96, 0xFD)], winX] [opT 0 1 [1, 3, 2, 1] [128, 512, 0], opT b 1 [4, 2, 1, 1] [128, 0, 0]]
  [(0, [1]), (0x80, [2]), (0x100, [3]), (0x200, [4]), (0x280, [5]), (0x300, [6]), (0x804, [9])]
def dWin : Dev := dWinP 0x800
/-- DATA of three rows, the indices 2, -1 and 2, and VALS. -/
def dGtA (op dt md b : Nat) : Dev := dOp [wOp 4 op [(122, 1), (120, md)] 0] [opT 0 dt [2, 3, 1, 1] [128, 0, 0], opT 0x400 7 [3, 1, 1, 1] [0, 0, 0], opT b dt [2, 3, 1, 1] [128, 0, 0]]
  [(0, fpV [0x3F800000, 0x40000000]), (0x80, fpV [0x40400000, 0x7F800000]), (0x100, fpV [0x33800000, 0x3F000000]), (0x400, fpV [2, 0xFFFFFFFF, 2]),
   (0x800, fpV [0x3F800000, 0x3E800000]), (0x880, fpV [5, 6]), (0x900, fpV [0xBF800000, 0xFF800000])]
def dGt (op dt md : Nat) : Dev := dGtA op dt md 0x800
def gtO (d : Dev) (c : Cur) (op : Nat) : GtOp := okOr (d.gtOps c 0 op) ⟨accZ, accZ, accZ⟩
/-- An ATTEND of one query row of dimension 2 over three positions in one page of FP8, on operands in the cluster scratchpad. -/
def cspA : Nat := 5 * 2 ^ 23
def cspOf (mem : List (Nat × List Nat)) (d : Dev) : Dev := mem.foldl (fun d p => Dev.wrSram d ⟨cspUnit 0, p.1⟩ p.2) d
def opC (ofs dt : Nat) (dims strides : List Nat) : Operand := opT (cspA + ofs) dt dims strides
def plA : PageList := ⟨2, 1, 0, [⟨0x40000, 1, 8, 3, 62⟩]⟩
def dAt (mask : Nat) (dir : List Nat) : Dev :=
  cspOf [(0, [0x38, 0x40]), (0x400, leBytes 4 1 ++ leBytes 4 2 ++ List.replicate 56 0 ++ dir)]
    (Dev.modRun (putBytes (putBytes (dOp [wOp 5 0 [] 1, 3 + 2 * 2 ^ 56 + 2 ^ 65 + mask * 2 ^ 77 + 0x3F800000 * 2 ^ 78]
      [opC 0 3 [2, 1, 1, 1] [0, 0, 0], opC 0x200 8 [2, 1, 1, 1] [0, 0, 0], opC 0x400 2 [640, 1, 1, 1] [0, 0, 0], opD 0x30000 7 1 [4, 1, 1, 1] [0, 0, 0]] [])
      0x40000 [0x80, 0x3F, 0, 0x40]) 0x40040 ([0x38, 0x38] ++ List.replicate 62 0 ++ [0x30, 0x3C] ++ List.replicate 62 0 ++ [0x28, 0xB8]))
      3 (fun r => { r with pages := [(0, plA)] }))
def dAt6 (mask : Nat) (dir : List Nat) : Dev := Dev.modRun (dAt mask dir) 3 (fun r => { r with
  snap := r.snap.map (fun p => if p.1 = 1 then (1, opC 0x200 6 [2, 1, 1, 1] [0, 0, 0]) else p) })
/-- The same with another operand Q. -/
def dAtQ (q : Operand) : Dev := Dev.modRun (dAt6 0 []) 3 (fun r => { r with snap := r.snap.map (fun p => if p.1 = 0 then (0, q) else p) })
def atF' (d : Dev) : AtF := atFields (curOf d 0).i

theorem test_MoveAndPublish :
    (∃ d : Dev, ∃ id : Nat, ∃ g : Nat, ∃ c : Cur, ∃ s : MvSrc, ∃ o : Acc2, (d.rst.held = false) ∧ (d.curOp id g 2 0 = some c) ∧ (c.stalls qMove = false) ∧ (d.mvSrc c g = .ok s) ∧ (d.opd c g 1 true stBounds = .ok o) ∧ ((c.desc 0).dtype = (c.desc 1).dtype) ∧ ((c.desc 0).layout = (c.desc 1).layout) ∧ ((∀ n ∈ [0, 1, 2, 3], (c.desc 0).dim n = (c.desc 1).dim n)) ∧ ((∀ a, s = .chip a → o.overlaps a = false)) ∧ (mvUnaligned c s = []) ∧ (o.unaligned 64 (c.gstride 1) = [])) ∧
    (∃ d : Dev, ∃ id : Nat, ∃ g : Nat, ∃ c : Cur, ∃ s : MvSrc, ∃ o : Acc2, (d.rst.held = false) ∧ (d.curOp id g 2 0 = some c) ∧ (c.stalls qMove = false) ∧ (d.mvSrc c g = .ok s) ∧ (d.opd c g 1 true stBounds = .ok o) ∧ ((c.desc 0).dtype = (c.desc 1).dtype) ∧ ((c.desc 0).layout = (c.desc 1).layout) ∧ ((∀ n ∈ [0, 1, 2, 3], (c.desc 0).dim n = (c.desc 1).dim n)) ∧ ((∀ a, s = .chip a → o.overlaps a = false)) ∧ (mvUnaligned c s ≠ [] ∨ o.unaligned 64 (c.gstride 1) ≠ [])) ∧
    (∃ d : Dev, ∃ id : Nat, ∃ g : Nat, ∃ c : Cur, ∃ s : MvSrc, ∃ o : Acc2, (d.rst.held = false) ∧ (MayBegin d id g qMove c) ∧ (c.i.cls = 2) ∧ (d.mvSrc c g = .ok s) ∧ (d.opd c g 1 true stBounds = .ok o) ∧ ((c.desc 0).dtype = (c.desc 1).dtype) ∧ ((c.desc 0).layout = (c.desc 1).layout) ∧ ((∀ n ∈ [0, 1, 2, 3], (c.desc 0).dim n = (c.desc 1).dim n))) ∧
    (∃ d : Dev, ∃ id : Nat, ∃ g : Nat, ∃ c : Cur, ∃ o : Operand, ∃ q : Operand, ∃ a : Acc2, (d.rst.held = false) ∧ (d.curOp id g 2 1 = some c) ∧ (c.form g 0 = .ok o) ∧ (d.opd c g 0 false stFormat = .ok a) ∧ (d.pubDst c g = .ok q) ∧ (mvEqual c = []) ∧ (d.pubLimits c.r ⟨g, o, q⟩ = []) ∧ (a.unaligned 64 (c.gstride 0) = []) ∧ (devAligned q (c.gstride 1) = true)) ∧
    (∃ d : Dev, ∃ id : Nat, ∃ g : Nat, ∃ c : Cur, ∃ o : Operand, ∃ q : Operand, ∃ a : Acc2, (d.rst.held = false) ∧ (d.curOp id g 2 1 = some c) ∧ (c.form g 0 = .ok o) ∧ (d.opd c g 0 false stFormat = .ok a) ∧ (d.pubDst c g = .ok q) ∧ (mvEqual c = []) ∧ (64 ≤ c.r.pieces.length)) ∧
    (∃ d : Dev, ∃ id : Nat, ∃ g : Nat, ∃ c : Cur, ∃ o : Operand, ∃ q : Operand, ∃ a : Acc2, (d.rst.held = false) ∧ (d.curOp id g 2 1 = some c) ∧ (c.form g 0 = .ok o) ∧ (d.opd c g 0 false stFormat = .ok a) ∧ (d.pubDst c g = .ok q) ∧ (mvEqual c = []) ∧ (c.r.safety = true) ∧ (0x1000000 < sumNat ((c.r.pieces ++ [(⟨g, o, q⟩ : Piece)]).map (fun x => x.src.desc.bytes)))) :=
  ⟨⟨dMove, 3, 0, curOf (dMove) 0, mvS (dMove) (curOf (dMove) 0), mvO (dMove) (curOf (dMove) 0), by decide +kernel, by decide +kernel, by decide +kernel, by decide +kernel, by decide +kernel, by decide +kernel, by decide +kernel, by decide +kernel, (fun a h => absurd ((show onChip (mvS (dMove) (curOf dMove 0)) = false by decide +kernel).symm.trans (congrArg onChip h)) Bool.false_ne_true), by decide +kernel, by decide +kernel⟩,
    ⟨dMv 0 (opD 0x20000 0 1 [3, 2, 1, 1] [64, 0, 0]) (opD 0x90 0 0 [3, 2, 1, 1] [64, 0, 0]) same, 3, 0, curOf (dMv 0 (opD 0x20000 0 1 [3, 2, 1, 1] [64, 0, 0]) (opD 0x90 0 0 [3, 2, 1, 1] [64, 0, 0]) same) 0, mvS (dMv 0 (opD 0x20000 0 1 [3, 2, 1, 1] [64, 0, 0]) (opD 0x90 0 0 [3, 2, 1, 1] [64, 0, 0]) same) (curOf (dMv 0 (opD 0x20000 0 1 [3, 2, 1, 1] [64, 0, 0]) (opD 0x90 0 0 [3, 2, 1, 1] [64, 0, 0]) same) 0), mvO (dMv 0 (opD 0x20000 0 1 [3, 2, 1, 1] [64, 0, 0]) (opD 0x90 0 0 [3, 2, 1, 1] [64, 0, 0]) same) (curOf (dMv 0 (opD 0x20000 0 1 [3, 2, 1, 1] [64, 0, 0]) (opD 0x90 0 0 [3, 2, 1, 1] [64, 0, 0]) same) 0), by decide +kernel, by decide +kernel, by decide +kernel, by decide +kernel, by decide +kernel, by decide +kernel, by decide +kernel, by decide +kernel, (fun a h => absurd ((show onChip (mvS (dMv 0 (opD 0x20000 0 1 [3, 2, 1, 1] [64, 0, 0]) (opD 0x90 0 0 [3, 2, 1, 1] [64, 0, 0]) same) (curOf (dMv 0 (opD 0x20000 0 1 [3, 2, 1, 1] [64, 0, 0]) (opD 0x90 0 0 [3, 2, 1, 1] [64, 0, 0]) same) 0)) = false by decide +kernel).symm.trans (congrArg onChip h)) Bool.false_ne_true), by decide +kernel⟩,
    ⟨dQ dMove qMove, 3, 0, headOf (dQ dMove qMove) qMove, mvS (dQ dMove qMove) (headOf (dQ dMove qMove) qMove), mvO (dQ dMove qMove) (headOf (dQ dMove qMove) qMove), by decide +kernel, mayBegin_of (by decide +kernel), by decide +kernel, by decide +kernel, by decide +kernel, by decide +kernel, by decide +kernel, by decide +kernel⟩,
    ⟨dPublish same, 3, 0, curOf (dPublish same) 0, frm (dPublish same) 0, pubD (dPublish same), acc (dPublish same) 0 false, by decide +kernel⟩,
    ⟨dPublish (fun r => { r with pieces := List.replicate 64 (pcM 4) }), 3, 0, curOf (dPublish (fun r => { r with pieces := List.replicate 64 (pcM 4) })) 0, frm (dPublish (fun r => { r with pieces := List.replicate 64 (pcM 4) })) 0, pubD (dPublish (fun r => { r with pieces := List.replicate 64 (pcM 4) })), acc (dPublish (fun r => { r with pieces := List.replicate 64 (pcM 4) })) 0 false, by decide +kernel⟩,
    ⟨dPublish (fun r => { r with safety := true, pieces := [pcM 0x1000000] }), 3, 0, curOf (dPublish (fun r => { r with safety := true, pieces := [pcM 0x1000000] })) 0, frm (dPublish (fun r => { r with safety := true, pieces := [pcM 0x1000000] })) 0, pubD (dPublish (fun r => { r with safety := true, pieces := [pcM 0x1000000] })), acc (dPublish (fun r => { r with safety := true, pieces := [pcM 0x1000000] })) 0 false, by decide +kernel⟩⟩

theorem test_ReboltAndWindow :
    (∃ d : Dev, ∃ id : Nat, ∃ g : Nat, ∃ c : Cur, ∃ s : Acc2, ∃ o : Acc2, (d.rst.held = false) ∧ (d.curOp id g 3 0 = some c) ∧ (c.stalls qMove = false) ∧ (d.opd c g 0 false stBounds = .ok s) ∧ (d.opd c g 1 true stBounds = .ok o) ∧ (s.t.dtype = o.t.dtype) ∧ ((if cvTransposed c then o.t.dim 0 = s.t.dim 1 ∧ o.t.dim 1 = s.t.dim 0 else o.t.dim 0 = s.t.dim 0 ∧ o.t.dim 1 = s.t.dim 1)) ∧ (o.t.dim 2 = s.t.dim 2) ∧ (o.t.dim 3 = s.t.dim 3) ∧ 
let apart := s.overlaps o = false ∧ s.own = true ∧ o.own = true

let aligned := c.unaligned 0 s = [] ∧ c.unaligned 1 o = []
(apart) ∧ (aligned)) ∧
    (∃ d : Dev, ∃ id : Nat, ∃ g : Nat, ∃ c : Cur, ∃ s : Acc2, ∃ o : Acc2, (d.rst.held = false) ∧ (d.curOp id g 3 0 = some c) ∧ (c.stalls qMove = false) ∧ (d.opd c g 0 false stBounds = .ok s) ∧ (d.opd c g 1 true stBounds = .ok o) ∧ (s.t.dtype = o.t.dtype) ∧ ((if cvTransposed c then o.t.dim 0 = s.t.dim 1 ∧ o.t.dim 1 = s.t.dim 0 else o.t.dim 0 = s.t.dim 0 ∧ o.t.dim 1 = s.t.dim 1)) ∧ (o.t.dim 2 = s.t.dim 2) ∧ (o.t.dim 3 = s.t.dim 3) ∧ 
let apart := s.overlaps o = false ∧ s.own = true ∧ o.own = true
(¬ apart)) ∧
    (∃ d : Dev, ∃ id : Nat, ∃ g : Nat, ∃ c : Cur, ∃ s : Acc2, ∃ o : Acc2, (d.rst.held = false) ∧ (d.curOp id g 3 0 = some c) ∧ (c.stalls qMove = false) ∧ (d.opd c g 0 false stBounds = .ok s) ∧ (d.opd c g 1 true stBounds = .ok o) ∧ (s.t.dtype = o.t.dtype) ∧ ((if cvTransposed c then o.t.dim 0 = s.t.dim 1 ∧ o.t.dim 1 = s.t.dim 0 else o.t.dim 0 = s.t.dim 0 ∧ o.t.dim 1 = s.t.dim 1)) ∧ (o.t.dim 2 = s.t.dim 2) ∧ (o.t.dim 3 = s.t.dim 3) ∧ 
let apart := s.overlaps o = false ∧ s.own = true ∧ o.own = true

let aligned := c.unaligned 0 s = [] ∧ c.unaligned 1 o = []
(apart) ∧ (¬ aligned)) ∧
    (∃ d : Dev, ∃ id : Nat, ∃ g : Nat, ∃ ow : Nat, ∃ oh : Nat, ∃ c : Cur, ∃ s : Acc2, ∃ o : Acc2, (d.rst.held = false) ∧ (d.curOp id g 3 1 = some c) ∧ (c.stalls qMove = false) ∧ (d.opd c g 0 false stBounds = .ok s) ∧ (d.opd c g 1 true stBounds = .ok o) ∧ 
let f := winFields c.i
((f.const = true → dtBits s.t.dtype ≤ 16 → bits (c.i.slot 2) 23 16 = 0)) ∧ (s.t.dtype = o.t.dtype) ∧ (s.t.layout = 0) ∧ ((o.t.layout = 0 ∨ o.t.layout = 1)) ∧ ((s.t.dtype = 0 → s.t.dim 0 % 2 = 0)) ∧ (f.dw * (f.kw - 1) + 1 ≤ s.t.dim 1 + f.pl + f.pr) ∧ (ow = (s.t.dim 1 + f.pl + f.pr - f.dw * (f.kw - 1) - 1) / f.sw + 1) ∧ (f.dh * (f.kh - 1) + 1 ≤ s.t.dim 2 + f.pt + f.pb) ∧ (oh = (s.t.dim 2 + f.pt + f.pb - f.dh * (f.kh - 1) - 1) / f.sh + 1) ∧ ((o.t.dim 0 = f.kh * f.kw * s.t.dim 0 ∧ o.t.dim 1 = oh * ow ∧ o.t.dim 2 = s.t.dim 3 ∧ o.t.dim 3 = 1)) ∧ 
let aligned := c.unaligned 0 s = [] ∧ c.unaligned 1 o = []
(s.overlaps o = false) ∧ (aligned)) ∧
    (∃ d : Dev, ∃ id : Nat, ∃ g : Nat, ∃ ow : Nat, ∃ oh : Nat, ∃ c : Cur, ∃ s : Acc2, ∃ o : Acc2, (d.rst.held = false) ∧ (d.curOp id g 3 1 = some c) ∧ (c.stalls qMove = false) ∧ (d.opd c g 0 false stBounds = .ok s) ∧ (d.opd c g 1 true stBounds = .ok o) ∧ 
let f := winFields c.i
((f.const = true → dtBits s.t.dtype ≤ 16 → bits (c.i.slot 2) 23 16 = 0)) ∧ (s.t.dtype = o.t.dtype) ∧ (s.t.layout = 0) ∧ ((o.t.layout = 0 ∨ o.t.layout = 1)) ∧ ((s.t.dtype = 0 → s.t.dim 0 % 2 = 0)) ∧ (f.dw * (f.kw - 1) + 1 ≤ s.t.dim 1 + f.pl + f.pr) ∧ (ow = (s.t.dim 1 + f.pl + f.pr - f.dw * (f.kw - 1) - 1) / f.sw + 1) ∧ (f.dh * (f.kh - 1) + 1 ≤ s.t.dim 2 + f.pt + f.pb) ∧ (oh = (s.t.dim 2 + f.pt + f.pb - f.dh * (f.kh - 1) - 1) / f.sh + 1) ∧ ((o.t.dim 0 = f.kh * f.kw * s.t.dim 0 ∧ o.t.dim 1 = oh * ow ∧ o.t.dim 2 = s.t.dim 3 ∧ o.t.dim 3 = 1)) ∧ (s.overlaps o = true)) ∧
    (∃ d : Dev, ∃ id : Nat, ∃ g : Nat, ∃ ow : Nat, ∃ oh : Nat, ∃ c : Cur, ∃ s : Acc2, ∃ o : Acc2, (d.rst.held = false) ∧ (d.curOp id g 3 1 = some c) ∧ (c.stalls qMove = false) ∧ (d.opd c g 0 false stBounds = .ok s) ∧ (d.opd c g 1 true stBounds = .ok o) ∧ 
let f := winFields c.i
((f.const = true → dtBits s.t.dtype ≤ 16 → bits (c.i.slot 2) 23 16 = 0)) ∧ (s.t.dtype = o.t.dtype) ∧ (s.t.layout = 0) ∧ ((o.t.layout = 0 ∨ o.t.layout = 1)) ∧ ((s.t.dtype = 0 → s.t.dim 0 % 2 = 0)) ∧ (f.dw * (f.kw - 1) + 1 ≤ s.t.dim 1 + f.pl + f.pr) ∧ (ow = (s.t.dim 1 + f.pl + f.pr - f.dw * (f.kw - 1) - 1) / f.sw + 1) ∧ (f.dh * (f.kh - 1) + 1 ≤ s.t.dim 2 + f.pt + f.pb) ∧ (oh = (s.t.dim 2 + f.pt + f.pb - f.dh * (f.kh - 1) - 1) / f.sh + 1) ∧ ((o.t.dim 0 = f.kh * f.kw * s.t.dim 0 ∧ o.t.dim 1 = oh * ow ∧ o.t.dim 2 = s.t.dim 3 ∧ o.t.dim 3 = 1)) ∧ 
let aligned := c.unaligned 0 s = [] ∧ c.unaligned 1 o = []
(s.overlaps o = false) ∧ (¬ aligned)) ∧
    (∃ d : Dev, ∃ id : Nat, ∃ g : Nat, ∃ c : Cur, ∃ s : Acc2, ∃ o : Acc2, (d.rst.held = false) ∧ (MayBegin d id g qMove c) ∧ (c.i.cls = 3) ∧ (d.opd c g 0 false stBounds = .ok s) ∧ (d.opd c g 1 true stBounds = .ok o) ∧ (c.i.op = 0)) ∧
    (∃ d : Dev, ∃ id : Nat, ∃ g : Nat, ∃ c : Cur, ∃ s : Acc2, ∃ o : Acc2, ∃ ow : Nat, ∃ oh : Nat, (d.rst.held = false) ∧ (MayBegin d id g qMove c) ∧ (c.i.cls = 3) ∧ (d.opd c g 0 false stBounds = .ok s) ∧ (d.opd c g 1 true stBounds = .ok o) ∧ 
let f := winFields c.i
(c.i.op = 1) ∧ (winDims f s.t = some (ow, oh))) :=
  ⟨⟨dReb, 3, 0, curOf (dReb) 0, acc (dReb) 0 false, acc (dReb) 1 true, by decide +kernel⟩,
    ⟨dRebA 0 0, 3, 0, curOf (dRebA 0 0) 0, acc (dRebA 0 0) 0 false, acc (dRebA 0 0) 1 true, by decide +kernel⟩,
    ⟨dRebA 3 0x400, 3, 0, curOf (dRebA 3 0x400) 0, acc (dRebA 3 0x400) 0 false, acc (dRebA 3 0x400) 1 true, by decide +kernel⟩,
    ⟨dWin, 3, 0, 2, 1, curOf (dWin) 0, acc (dWin) 0 false, acc (dWin) 1 true, by decide +kernel⟩,
    ⟨dWinP 0, 3, 0, 2, 1, curOf (dWinP 0) 0, acc (dWinP 0) 0 false, acc (dWinP 0) 1 true, by decide +kernel⟩,
    ⟨dWinP 0x803, 3, 0, 2, 1, curOf (dWinP 0x803) 0, acc (dWinP 0x803) 0 false, acc (dWinP 0x803) 1 true, by decide +kernel⟩,
    ⟨dQ (dReb) qMove, 3, 0, headOf (dQ (dReb) qMove) qMove, accC (dQ (dReb) qMove) (headOf (dQ (dReb) qMove) qMove) 0 false, accC (dQ (dReb) qMove) (headOf (dQ (dReb) qMove) qMove) 1 true, by decide +kernel, mayBegin_of (by decide +kernel), by decide +kernel, by decide +kernel, by decide +kernel, by decide +kernel⟩,
    ⟨dQ (dWin) qMove, 3, 0, headOf (dQ (dWin) qMove) qMove, accC (dQ (dWin) qMove) (headOf (dQ (dWin) qMove) qMove) 0 false, accC (dQ (dWin) qMove) (headOf (dQ (dWin) qMove) qMove) 1 true, 2, 1, by decide +kernel, mayBegin_of (by decide +kernel), by decide +kernel, by decide +kernel, by decide +kernel, by decide +kernel, by decide +kernel⟩⟩

theorem test_GatherScatterAndAdd :
    (∃ p : (Nat → Nat → Nat → Instr) × Nat, ∃ d : Dev, ∃ id : Nat, ∃ g : Nat, ∃ c : Cur, ∃ o : GtOp, (p ∈ [(Instr.gather, 0), (.scatter, 1), (.scatterAdd, 2)]) ∧ (d.rst.held = false) ∧ (d.curOp id g 4 p.2 = some c) ∧ (c.stalls qGather = false) ∧ (d.gtOps c g p.2 = .ok o) ∧ 
let a := o.data.t

let x := o.index.t

let v := o.vals.t

let ax := gtAxis c
((x.dtype = 7 ∧ x.layout = 0 ∧ a.layout = 0 ∧ v.layout = 0 ∧ a.dtype = v.dtype ∧ (a.dtype = 0 → p.2 ≠ 2 ∧ ax ≠ 0))) ∧ ((x.dim 1 = 1 ∧ x.dim 2 = 1 ∧ x.dim 3 = 1 ∧ gtUsed c ≤ x.dim 0 ∧ ∀ n ∈ [0, 1, 2, 3], v.dim n = if n = ax then x.dim 0 else a.dim n)) ∧ 
let apart := o.index.overlaps o.data = false ∧ o.index.overlaps o.vals = false ∧ o.data.overlaps o.vals = false

let aligned := c.unaligned 0 o.data = [] ∧ c.unaligned 1 o.index = [] ∧ c.unaligned 2 o.vals = []
(apart) ∧ (aligned)) ∧
    (∃ p : (Nat → Nat → Nat → Instr) × Nat, ∃ d : Dev, ∃ id : Nat, ∃ g : Nat, ∃ c : Cur, ∃ o : GtOp, (p ∈ [(Instr.gather, 0), (.scatter, 1), (.scatterAdd, 2)]) ∧ (d.rst.held = false) ∧ (d.curOp id g 4 p.2 = some c) ∧ (c.stalls qGather = false) ∧ (d.gtOps c g p.2 = .ok o) ∧ 
let a := o.data.t

let x := o.index.t

let v := o.vals.t

let ax := gtAxis c
((x.dtype = 7 ∧ x.layout = 0 ∧ a.layout = 0 ∧ v.layout = 0 ∧ a.dtype = v.dtype ∧ (a.dtype = 0 → p.2 ≠ 2 ∧ ax ≠ 0))) ∧ ((x.dim 1 = 1 ∧ x.dim 2 = 1 ∧ x.dim 3 = 1 ∧ gtUsed c ≤ x.dim 0 ∧ ∀ n ∈ [0, 1, 2, 3], v.dim n = if n = ax then x.dim 0 else a.dim n)) ∧ 
let apart := o.index.overlaps o.data = false ∧ o.index.overlaps o.vals = false ∧ o.data.overlaps o.vals = false
(¬ apart)) ∧
    (∃ p : (Nat → Nat → Nat → Instr) × Nat, ∃ d : Dev, ∃ id : Nat, ∃ g : Nat, ∃ c : Cur, ∃ o : GtOp, (p ∈ [(Instr.gather, 0), (.scatter, 1), (.scatterAdd, 2)]) ∧ (d.rst.held = false) ∧ (d.curOp id g 4 p.2 = some c) ∧ (c.stalls qGather = false) ∧ (d.gtOps c g p.2 = .ok o) ∧ 
let a := o.data.t

let x := o.index.t

let v := o.vals.t

let ax := gtAxis c
((x.dtype = 7 ∧ x.layout = 0 ∧ a.layout = 0 ∧ v.layout = 0 ∧ a.dtype = v.dtype ∧ (a.dtype = 0 → p.2 ≠ 2 ∧ ax ≠ 0))) ∧ ((x.dim 1 = 1 ∧ x.dim 2 = 1 ∧ x.dim 3 = 1 ∧ gtUsed c ≤ x.dim 0 ∧ ∀ n ∈ [0, 1, 2, 3], v.dim n = if n = ax then x.dim 0 else a.dim n)) ∧ 
let apart := o.index.overlaps o.data = false ∧ o.index.overlaps o.vals = false ∧ o.data.overlaps o.vals = false

let aligned := c.unaligned 0 o.data = [] ∧ c.unaligned 1 o.index = [] ∧ c.unaligned 2 o.vals = []
(apart) ∧ (¬ aligned)) ∧
    (∃ d : Dev, ∃ id : Nat, ∃ g : Nat, ∃ c : Cur, ∃ a : Acc2, ∃ x : Acc2, ∃ v : Acc2, (d.rst.held = false) ∧ (MayBegin d id g qGather c) ∧ (c.i.cls = 4) ∧ (c.i.op < 3) ∧ (d.gtOps c g c.i.op = .ok ⟨a, x, v⟩) ∧ 
let ax := gtAxis c

let u := gtUsed c
((∀ n ∈ [0, 1, 2, 3], v.t.dim n = if n = ax then x.t.dim 0 else a.t.dim n)) ∧ (u ≤ x.t.dim 0) ∧ ((x.overlaps a = false ∧ x.overlaps v = false ∧ a.overlaps v = false)) ∧ (c.i.op = 0)) ∧
    (∃ d : Dev, ∃ id : Nat, ∃ g : Nat, ∃ c : Cur, ∃ a : Acc2, ∃ x : Acc2, ∃ v : Acc2, (d.rst.held = false) ∧ (MayBegin d id g qGather c) ∧ (c.i.cls = 4) ∧ (c.i.op < 3) ∧ (d.gtOps c g c.i.op = .ok ⟨a, x, v⟩) ∧ 
let ax := gtAxis c

let u := gtUsed c
((∀ n ∈ [0, 1, 2, 3], v.t.dim n = if n = ax then x.t.dim 0 else a.t.dim n)) ∧ (u ≤ x.t.dim 0) ∧ ((x.overlaps a = false ∧ x.overlaps v = false ∧ a.overlaps v = false)) ∧ (c.i.op = 1)) ∧
    (∃ d : Dev, ∃ id : Nat, ∃ g : Nat, ∃ c : Cur, ∃ a : Acc2, ∃ x : Acc2, ∃ v : Acc2, (d.rst.held = false) ∧ (MayBegin d id g qGather c) ∧ (c.i.cls = 4) ∧ (c.i.op < 3) ∧ (d.gtOps c g c.i.op = .ok ⟨a, x, v⟩) ∧ 
let ax := gtAxis c

let u := gtUsed c
((∀ n ∈ [0, 1, 2, 3], v.t.dim n = if n = ax then x.t.dim 0 else a.t.dim n)) ∧ (u ≤ x.t.dim 0) ∧ ((x.overlaps a = false ∧ x.overlaps v = false ∧ a.overlaps v = false)) ∧ (c.i.op = 2)) :=
  ⟨⟨(Instr.gather, 0), dGtA 0 8 0 0x800, 3, 0, curOf (dGtA 0 8 0 0x800) 0, gtO (dGtA 0 8 0 0x800) (curOf (dGtA 0 8 0 0x800) 0) 0, ⟨List.Mem.head _, by decide +kernel⟩⟩,
    ⟨(Instr.gather, 0), dGtA 0 8 0 0x80, 3, 0, curOf (dGtA 0 8 0 0x80) 0, gtO (dGtA 0 8 0 0x80) (curOf (dGtA 0 8 0 0x80) 0) 0, ⟨List.Mem.head _, by decide +kernel⟩⟩,
    ⟨(Instr.gather, 0), dGtA 0 8 0 0x802, 3, 0, curOf (dGtA 0 8 0 0x802) 0, gtO (dGtA 0 8 0 0x802) (curOf (dGtA 0 8 0 0x802) 0) 0, ⟨List.Mem.head _, by decide +kernel⟩⟩,
    ⟨dQ (dGt 0 8 0) qGather, 3, 0, headOf (dQ (dGt 0 8 0) qGather) qGather, accC (dQ (dGt 0 8 0) qGather) (headOf (dQ (dGt 0 8 0) qGather) qGather) 0 false, accC (dQ (dGt 0 8 0) qGather) (headOf (dQ (dGt 0 8 0) qGather) qGather) 1 false, accC (dQ (dGt 0 8 0) qGather) (headOf (dQ (dGt 0 8 0) qGather) qGather) 2 true, by decide +kernel, mayBegin_of (by decide +kernel), by decide +kernel, by decide +kernel, by decide +kernel, by decide +kernel, by decide +kernel, by decide +kernel, by decide +kernel⟩,
    ⟨dQ (dGt 1 8 0) qGather, 3, 0, headOf (dQ (dGt 1 8 0) qGather) qGather, accC (dQ (dGt 1 8 0) qGather) (headOf (dQ (dGt 1 8 0) qGather) qGather) 0 true, accC (dQ (dGt 1 8 0) qGather) (headOf (dQ (dGt 1 8 0) qGather) qGather) 1 false, accC (dQ (dGt 1 8 0) qGather) (headOf (dQ (dGt 1 8 0) qGather) qGather) 2 false, by decide +kernel, mayBegin_of (by decide +kernel), by decide +kernel, by decide +kernel, by decide +kernel, by decide +kernel, by decide +kernel, by decide +kernel, by decide +kernel⟩,
    ⟨dQ (dGt 2 8 0) qGather, 3, 0, headOf (dQ (dGt 2 8 0) qGather) qGather, accC (dQ (dGt 2 8 0) qGather) (headOf (dQ (dGt 2 8 0) qGather) qGather) 0 true, accC (dQ (dGt 2 8 0) qGather) (headOf (dQ (dGt 2 8 0) qGather) qGather) 1 false, accC (dQ (dGt 2 8 0) qGather) (headOf (dQ (dGt 2 8 0) qGather) qGather) 2 false, by decide +kernel, mayBegin_of (by decide +kernel), by decide +kernel, by decide +kernel, by decide +kernel, by decide +kernel, by decide +kernel, by decide +kernel, by decide +kernel⟩⟩

theorem test_AttendComputesEveryRow :
    (∃ d : Dev, ∃ id : Nat, ∃ g : Nat, ∃ c : Cur, ∃ q : Acc2, ∃ o : Acc2, ∃ m : Option Acc2, ∃ pl : PageList, (d.rst.held = false) ∧ (d.curOp id g 5 0 = some c) ∧ (c.stalls qAttend = false) ∧ (d.atOps c g (atFields c.i) = (.ok q, .ok o, .ok m)) ∧ (mfind c.r.pages c.i.idx = some pl) ∧ 
let head := m.toList.flatMap (fun x => d.maskHeader x (q.t.dim 1))

let placed := atPlaced c q = true ∧ atPlaced c o = true ∧ (∀ x ∈ m, atPlaced c x = true ∧ o.overlaps x = false) ∧ o.overlaps q = false

let aligned := c.unaligned 0 q = [] ∧ c.unaligned 1 o = [] ∧ ∀ x ∈ m, c.unaligned 2 x = []

let chk := d.atChecks c (atFields c.i) (some pl) ++ head
(chk = []) ∧ (placed) ∧ (aligned)) ∧
    (∃ d : Dev, ∃ id : Nat, ∃ g : Nat, ∃ c : Cur, ∃ q : Acc2, ∃ o : Acc2, ∃ m : Option Acc2, ∃ pl : PageList, (d.rst.held = false) ∧ (d.curOp id g 5 0 = some c) ∧ (c.stalls qAttend = false) ∧ (d.atOps c g (atFields c.i) = (.ok q, .ok o, .ok m)) ∧ (mfind c.r.pages c.i.idx = some pl) ∧ 
let head := m.toList.flatMap (fun x => d.maskHeader x (q.t.dim 1))

let placed := atPlaced c q = true ∧ atPlaced c o = true ∧ (∀ x ∈ m, atPlaced c x = true ∧ o.overlaps x = false) ∧ o.overlaps q = false

let chk := d.atChecks c (atFields c.i) (some pl) ++ head
(chk = []) ∧ (¬ placed)) ∧
    (∃ d : Dev, ∃ id : Nat, ∃ g : Nat, ∃ c : Cur, ∃ q : Acc2, ∃ o : Acc2, ∃ m : Option Acc2, ∃ pl : PageList, (d.rst.held = false) ∧ (d.curOp id g 5 0 = some c) ∧ (c.stalls qAttend = false) ∧ (d.atOps c g (atFields c.i) = (.ok q, .ok o, .ok m)) ∧ (mfind c.r.pages c.i.idx = some pl) ∧ 
let head := m.toList.flatMap (fun x => d.maskHeader x (q.t.dim 1))

let placed := atPlaced c q = true ∧ atPlaced c o = true ∧ (∀ x ∈ m, atPlaced c x = true ∧ o.overlaps x = false) ∧ o.overlaps q = false

let aligned := c.unaligned 0 q = [] ∧ c.unaligned 1 o = [] ∧ ∀ x ∈ m, c.unaligned 2 x = []

let chk := d.atChecks c (atFields c.i) (some pl) ++ head
(chk = []) ∧ (placed) ∧ (¬ aligned)) ∧
    (∃ d : Dev, ∃ id : Nat, ∃ g : Nat, ∃ c : Cur, ∃ q : Acc2, ∃ o : Acc2, ∃ m : Option Acc2, ∃ pl : PageList, (d.rst.held = false) ∧ (d.curOp id g 5 0 = some c) ∧ (c.stalls qAttend = false) ∧ (d.atOps c g (atFields c.i) = (.ok q, .ok o, .ok m)) ∧ (mfind c.r.pages c.i.idx = some pl) ∧ 
let head := m.toList.flatMap (fun x => d.maskHeader x (q.t.dim 1))

let placed := atPlaced c q = true ∧ atPlaced c o = true ∧ (∀ x ∈ m, atPlaced c x = true ∧ o.overlaps x = false) ∧ o.overlaps q = false

let aligned := c.unaligned 0 q = [] ∧ c.unaligned 1 o = [] ∧ ∀ x ∈ m, c.unaligned 2 x = []

let chk := d.atChecks c (atFields c.i) (some pl) ++ head
(chk ≠ []) ∧ (placed) ∧ (aligned)) ∧
    (∃ d : Dev, ∃ id : Nat, ∃ g : Nat, ∃ c : Cur, ∃ q : Acc2, ∃ o : Acc2, ∃ m : Option Acc2, ∃ pl : PageList, (d.rst.held = false) ∧ (MayBegin d id g qAttend c) ∧ (c.i.cls = 5) ∧ (d.atOps c g (atFields c.i) = (.ok q, .ok o, .ok m)) ∧ (mfind c.r.pages c.i.idx = some pl) ∧ 
let f := atFields c.i

let op : AtOp := ⟨q, o, m, pl⟩
(d.atDirs c.oct op = none) ∧ (o.t.dim 1 = q.t.dim 1) ∧ (o.t.dim 2 = f.heads) ∧ (o.t.dim 3 = 1) ∧ (o.t.dim 0 = pl.headDim + (if pl.spread = 2 then 2 else 0))) ∧
    (∃ d : Dev, ∃ id : Nat, ∃ g : Nat, ∃ c : Cur, ∃ q : Acc2, ∃ o : Acc2, ∃ m : Option Acc2, ∃ pl : PageList, ∃ st : Nat, (d.rst.held = false) ∧ (MayBegin d id g qAttend c) ∧ (c.i.cls = 5) ∧ (d.atOps c g (atFields c.i) = (.ok q, .ok o, .ok m)) ∧ (mfind c.r.pages c.i.idx = some pl) ∧ 
let op : AtOp := ⟨q, o, m, pl⟩
(d.atDirs c.oct op = some st)) ∧
    (∃ d : Dev, ∃ o : AtOp, ∃ i : Nat, (o.pl.spread ≠ 2) ∧ ((∀ j, d.admits o i j = false))) :=
  ⟨⟨dAt6 0 [], 3, 0, curOf (dAt6 0 []) 0, acc (dAt6 0 []) 0 false, acc (dAt6 0 []) 1 true, none, plA, by decide +kernel⟩,
    ⟨dAtQ (opT 0 3 [2, 1, 1, 1] [0, 0, 0]), 3, 0, curOf (dAtQ (opT 0 3 [2, 1, 1, 1] [0, 0, 0])) 0, acc (dAtQ (opT 0 3 [2, 1, 1, 1] [0, 0, 0])) 0 false, acc (dAtQ (opT 0 3 [2, 1, 1, 1] [0, 0, 0])) 1 true, none, plA, by decide +kernel⟩,
    ⟨dAtQ (opC 1 3 [2, 1, 1, 1] [0, 0, 0]), 3, 0, curOf (dAtQ (opC 1 3 [2, 1, 1, 1] [0, 0, 0])) 0, acc (dAtQ (opC 1 3 [2, 1, 1, 1] [0, 0, 0])) 0 false, acc (dAtQ (opC 1 3 [2, 1, 1, 1] [0, 0, 0])) 1 true, none, plA, by decide +kernel⟩,
    ⟨dAt 0 [], 3, 0, curOf (dAt 0 []) 0, acc (dAt 0 []) 0 false, acc (dAt 0 []) 1 true, none, plA, by decide +kernel⟩,
    ⟨dQ (dAt6 0 []) qAttend, 3, 0, headOf (dQ (dAt6 0 []) qAttend) qAttend, accC (dQ (dAt6 0 []) qAttend) (headOf (dQ (dAt6 0 []) qAttend) qAttend) 0 false, accC (dQ (dAt6 0 []) qAttend) (headOf (dQ (dAt6 0 []) qAttend) qAttend) 1 true, none, plA, by decide +kernel, mayBegin_of (by decide +kernel), by decide +kernel, by decide +kernel, by decide +kernel, by decide +kernel, by decide +kernel, by decide +kernel, by decide +kernel, by decide +kernel⟩,
    ⟨dQ (dAt6 1 [3, 0, 0, 0, 1, 0, 0, 0]) qAttend, 3, 0, headOf (dQ (dAt6 1 [3, 0, 0, 0, 1, 0, 0, 0]) qAttend) qAttend, accC (dQ (dAt6 1 [3, 0, 0, 0, 1, 0, 0, 0]) qAttend) (headOf (dQ (dAt6 1 [3, 0, 0, 0, 1, 0, 0, 0]) qAttend) qAttend) 0 false, accC (dQ (dAt6 1 [3, 0, 0, 0, 1, 0, 0, 0]) qAttend) (headOf (dQ (dAt6 1 [3, 0, 0, 0, 1, 0, 0, 0]) qAttend) qAttend) 1 true, some (accC (dQ (dAt6 1 [3, 0, 0, 0, 1, 0, 0, 0]) qAttend) (headOf (dQ (dAt6 1 [3, 0, 0, 0, 1, 0, 0, 0]) qAttend) qAttend) 2 false), plA, stFormat, by decide +kernel, mayBegin_of (by decide +kernel), by decide +kernel, by decide +kernel, by decide +kernel, by decide +kernel⟩,
    ⟨d0, noMask, 0, ⟨by decide, fun j => by simp [Dev.admits, Dev.maskDir, noMask, show d0.maskBytes accZ 4 4 = 0 from by decide +kernel]⟩⟩⟩

/-! ## short -/

def wSig (n v : Nat) : Nat := wd 6 0 [(48, n), (62, v)]
def wWait (n v : Nat) : Nat := wd 6 1 [(48, n), (62, v)]
def full64 : List (Nat × Nat) := (List.range 64).map (fun i => (i, 1))
def dStall (v : Nat) : Dev := { dEx [wWait 4 9] (fun r => { r with members := [{ mem0 with stall := .wait ⟨4, 9, 50⟩ }] }) with flags := [(4, v)] }
def rStall : Run := { rEx with members := [{ mem0 with stall := .wait ⟨4, 9, 50⟩ }] }
def dHold : Dev := Dev.set (dEx [wd 8 1 []] (fun r => { r with safety := true })) (F.SAF_OCT_HOLD.ADDR 0) 4
def unripe (f : Member → Member) : Member → Member := fun m => { f m with queues := [[longA], [], [], []] }

theorem test_CountsAndLoops :
    (∃ d : Dev, ∃ id : Nat, ∃ g : Nat, ∃ c : Cur, (d.rst.held = false) ∧ (d.curOp id g 8 0 = some c)) ∧
    (∃ d : Dev, ∃ id : Nat, ∃ g : Nat, ∃ c : Cur, (d.rst.held = false) ∧ (d.curOp id g 7 2 = some c)) ∧
    (∃ d : Dev, ∃ id : Nat, ∃ g : Nat, ∃ c : Cur, (d.rst.held = false) ∧ (d.curOp id g 8 3 = some c)) ∧
    (∃ d : Dev, ∃ id : Nat, ∃ g : Nat, ∃ c : Cur, (d.rst.held = false) ∧ (d.curOp id g 8 2 = some c) ∧ (c.m.drained = true)) ∧
    (∃ d : Dev, ∃ id : Nat, ∃ g : Nat, ∃ c : Cur, (d.rst.held = false) ∧ (d.curOp id g 8 2 = some c) ∧ (c.m.drained = false)) ∧
    (∃ d : Dev, ∃ id : Nat, ∃ g : Nat, ∃ c : Cur, ∃ md : Module, ∃ en : Entry, (d.rst.held = false) ∧ 
let l := iLevel c.i.w
(d.curOp id g 7 0 = some c) ∧ (d.runEntry c.r = some (md, en)) ∧ 
let n := if bitOf c.i.w 50 then c.m.counts.getD l 0 else bits c.i.w 82 51
(n = 0)) ∧
    (∃ d : Dev, ∃ id : Nat, ∃ g : Nat, ∃ c : Cur, ∃ md : Module, ∃ en : Entry, (d.rst.held = false) ∧ 
let l := iLevel c.i.w
(d.curOp id g 7 0 = some c) ∧ (d.runEntry c.r = some (md, en)) ∧ 
let n := if bitOf c.i.w 50 then c.m.counts.getD l 0 else bits c.i.w 82 51
(n ≠ 0)) ∧
    (∃ d : Dev, ∃ id : Nat, ∃ g : Nat, ∃ c : Cur, ∃ b : Ins, (d.rst.held = false) ∧ 
let l := iLevel c.i.w
(keysRise d.runs = true) ∧ (d.curOp id g 7 1 = some c) ∧ 
let n := c.m.iters.getD l 0 + 1
(n < c.m.latched.getD l 0) ∧ (insAt c.code (c.m.loops.getD l 0) = some b)) ∧
    (∃ d : Dev, ∃ id : Nat, ∃ g : Nat, ∃ c : Cur, (d.rst.held = false) ∧ 
let l := iLevel c.i.w
(keysRise d.runs = true) ∧ (d.curOp id g 7 1 = some c) ∧ 
let n := c.m.iters.getD l 0 + 1
(c.m.latched.getD l 0 ≤ n)) :=
  ⟨⟨dEx [8] same, 3, 0, curOf (dEx [8] same) 0, by decide +kernel⟩,
    ⟨dEx [wd 7 2 [(48, 3), (51, 4294967295)]] same, 3, 0, curOf (dEx [wd 7 2 [(48, 3), (51, 4294967295)]] same) 0, by decide +kernel⟩,
    ⟨dEx [wd 8 3 [(48, 2), (50, 3)]] same, 3, 0, curOf (dEx [wd 8 3 [(48, 2), (50, 3)]] same) 0, by decide +kernel⟩,
    ⟨dEx [wd 8 2 [(48, 1), (50, 255)]] (fun r => { r with members := [{ mem0 with aflags := 5 }] }), 3, 0, curOf (dEx [wd 8 2 [(48, 1), (50, 255)]] (fun r => { r with members := [{ mem0 with aflags := 5 }] })) 0, by decide +kernel⟩,
    ⟨dEx [wd 8 2 []] (inQ [longA]), 3, 0, curOf (dEx [wd 8 2 []] (inQ [longA])) 0, by decide +kernel⟩,
    ⟨dEx [7, 8, wd 7 1 [], wd 8 1 []] same, 3, 0, curOf (dEx [7, 8, wd 7 1 [], wd 8 1 []] same) 0, mdOf [7, 8, wd 7 1 [], wd 8 1 []] [], ⟨0, 4, 1, false, 0, 4, false, 0, 0, 0⟩, by decide +kernel⟩,
    ⟨dEx [wd 7 0 [(50, 1)], wd 7 1 [], wd 8 1 []] (fun r => { r with members := [{ mem0 with counts := [2, 0, 0, 0] }] }), 3, 0, curOf (dEx [wd 7 0 [(50, 1)], wd 7 1 [], wd 8 1 []] (fun r => { r with members := [{ mem0 with counts := [2, 0, 0, 0] }] })) 0, mdOf [wd 7 0 [(50, 1)], wd 7 1 [], wd 8 1 []] [], ⟨0, 3, 1, false, 0, 4, false, 0, 0, 0⟩, by decide +kernel⟩,
    ⟨dEx [wd 7 0 [(51, 2)], wd 7 1 [], wd 8 1 []] (fun r => { r with members := [{ mem0 with pc := 1, latched := [2, 0, 0, 0], loops := [0] }] }), 3, 0, curOf (dEx [wd 7 0 [(51, 2)], wd 7 1 [], wd 8 1 []] (fun r => { r with members := [{ mem0 with pc := 1, latched := [2, 0, 0, 0], loops := [0] }] })) 0, ⟨0, wd 7 0 [(51, 2)], []⟩, by decide +kernel⟩,
    ⟨dEx [wd 7 0 [(51, 2)], wd 7 1 [], wd 8 1 []] (fun r => { r with members := [{ mem0 with pc := 1, iters := [1, 0, 0, 0], latched := [2, 0, 0, 0], loops := [0] }] }), 3, 0, curOf (dEx [wd 7 0 [(51, 2)], wd 7 1 [], wd 8 1 []] (fun r => { r with members := [{ mem0 with pc := 1, iters := [1, 0, 0, 0], latched := [2, 0, 0, 0], loops := [0] }] })) 0, by decide +kernel⟩⟩

theorem test_SignalsAndWaits :
    (∃ d : Dev, ∃ id : Nat, ∃ g : Nat, ∃ c : Cur, (d.rst.held = false) ∧ (d.curOp id g 6 0 = some c) ∧ (d.syFlag c.r.part g c.i.w = none)) ∧
    (∃ d : Dev, ∃ id : Nat, ∃ g : Nat, ∃ c : Cur, ∃ n : Nat, (d.rst.held = false) ∧ (d.curOp id g 6 0 = some c) ∧ 
let v := bits c.i.w 93 62
(d.syFlag c.r.part g c.i.w = some n) ∧ (v = 0)) ∧
    (∃ d : Dev, ∃ id : Nat, ∃ g : Nat, ∃ c : Cur, ∃ n : Nat, (d.rst.held = false) ∧ (d.curOp id g 6 0 = some c) ∧ 
let v := bits c.i.w 93 62
(d.syFlag c.r.part g c.i.w = some n) ∧ (v ≠ 0) ∧ ((mfind c.r.signals n).isSome = true ∨ c.r.signals.length < 64)) ∧
    (∃ d : Dev, ∃ id : Nat, ∃ g : Nat, ∃ c : Cur, ∃ n : Nat, (d.rst.held = false) ∧ (d.curOp id g 6 0 = some c) ∧ 
let v := bits c.i.w 93 62
(d.syFlag c.r.part g c.i.w = some n) ∧ (v ≠ 0) ∧ (mfind c.r.signals n = none) ∧ (64 ≤ c.r.signals.length)) ∧
    (∃ d : Dev, ∃ id : Nat, ∃ g : Nat, ∃ c : Cur, (d.rst.held = false) ∧ (d.curOp id g 6 1 = some c) ∧ (d.syFlag c.r.part g c.i.w = none)) ∧
    (∃ d : Dev, ∃ id : Nat, ∃ g : Nat, ∃ c : Cur, ∃ n : Nat, (d.rst.held = false) ∧ (d.curOp id g 6 1 = some c) ∧ 
let v := bits c.i.w 93 62
(d.syFlag c.r.part g c.i.w = some n) ∧ (v ≤ d.flag n)) ∧
    (∃ d : Dev, ∃ id : Nat, ∃ g : Nat, ∃ t : Nat, ∃ c : Cur, ∃ n : Nat, (d.rst.held = false) ∧ (d.curOp id g 6 1 = some c) ∧ 
let v := bits c.i.w 93 62

let x := bits (c.i.x 0) 63 0

let due := x ≠ 0 ∧ x ≤ Nat.max d.now t ∧ d.vigilFirst c.r x = false
(d.syFlag c.r.part g c.i.w = some n) ∧ (d.flag n < v) ∧ (¬ due)) ∧
    (∃ d : Dev, ∃ id : Nat, ∃ g : Nat, ∃ t : Nat, ∃ c : Cur, ∃ n : Nat, (d.rst.held = false) ∧ (d.curOp id g 6 1 = some c) ∧ 
let v := bits c.i.w 93 62

let x := bits (c.i.x 0) 63 0

let due := x ≠ 0 ∧ x ≤ Nat.max d.now t ∧ d.vigilFirst c.r x = false
(d.syFlag c.r.part g c.i.w = some n) ∧ (d.flag n < v) ∧ (due) ∧ ((maskHas (d.coll.src 0x0C3).minor 2 = false ∧ maskHas (d.coll.src 0x0C3).severe 2 = false)) ∧ (c.r.phase = .run 1) ∧ (id < d.nextRun)) ∧
    (∃ d : Dev, ∃ id : Nat, ∃ g : Nat, ∃ r : Run, ∃ w : WaitSt, ∃ i : Ins, (d.rst.held = false) ∧ (d.syStall id g = some (r, w, i)) ∧ (w.value ≤ d.flag w.flag)) ∧
    (∃ d : Dev, ∃ id : Nat, ∃ g : Nat, ∃ r : Run, ∃ w : WaitSt, ∃ i : Ins, (d.rst.held = false) ∧ (d.syStall id g = some (r, w, i)) ∧ (d.flag w.flag < w.value)) ∧
    (∃ d : Dev, ∃ id : Nat, ∃ g : Nat, ∃ t : Nat, ∃ r : Run, ∃ w : WaitSt, ∃ i : Ins, (d.rst.held = false) ∧ (d.syStall id g = some (r, w, i)) ∧ (w.value ≤ d.flag w.flag ∨ w.deadline = 0 ∨ t < w.deadline ∨ d.vigilFirst r w.deadline = true)) ∧
    (∃ d : Dev, ∃ id : Nat, ∃ g : Nat, ∃ t : Nat, ∃ r : Run, ∃ w : WaitSt, ∃ i : Ins, (d.rst.held = false) ∧ (d.syStall id g = some (r, w, i)) ∧ (d.flag w.flag < w.value) ∧ (w.deadline ≠ 0) ∧ (w.deadline ≤ t) ∧ (d.vigilFirst r w.deadline = false) ∧ ((maskHas (d.coll.src 0x0C3).minor 2 = false ∧ maskHas (d.coll.src 0x0C3).severe 2 = false)) ∧ (r.phase = .run 1) ∧ (id < d.nextRun)) :=
  ⟨⟨(dEx [wSig 9 1] same).set (F.HIF_PF_FN_FLAGS.COUNT 0) 8, 3, 0, curOf ((dEx [wSig 9 1] same).set (F.HIF_PF_FN_FLAGS.COUNT 0) 8) 0, by decide +kernel⟩,
    ⟨dEx [wSig 4 0] same, 3, 0, curOf (dEx [wSig 4 0] same) 0, 4, by decide +kernel⟩,
    ⟨dEx [wSig 4 4294967295] (fun r => { r with signals := full64.take 63 }), 3, 0, curOf (dEx [wSig 4 4294967295] (fun r => { r with signals := full64.take 63 })) 0, 4, by decide +kernel⟩,
    ⟨dEx [wSig 64 1] (fun r => { r with signals := full64 }), 3, 0, curOf (dEx [wSig 64 1] (fun r => { r with signals := full64 })) 0, 64, by decide +kernel⟩,
    ⟨(dEx [wWait 9 1] same).set (F.HIF_PF_FN_FLAGS.COUNT 0) 8, 3, 0, curOf ((dEx [wWait 9 1] same).set (F.HIF_PF_FN_FLAGS.COUNT 0) 8) 0, by decide +kernel⟩,
    ⟨dEx [wWait 4 0] same, 3, 0, curOf (dEx [wWait 4 0] same) 0, 4, by decide +kernel⟩,
    ⟨dEx [wWait 4 9 + 1024, 10] same, 3, 0, 9, curOf (dEx [wWait 4 9 + 1024, 10] same) 0, 4, by decide +kernel⟩,
    ⟨dEx [wWait 4 9 + 1024, 9] same, 3, 0, 9, curOf (dEx [wWait 4 9 + 1024, 9] same) 0, 4, by decide +kernel⟩,
    ⟨dStall 9, 3, 0, { rStall with ctx := 5 }, ⟨4, 9, 50⟩, ⟨0, wWait 4 9, []⟩, by decide +kernel⟩,
    ⟨dStall 8, 3, 0, { rStall with ctx := 5 }, ⟨4, 9, 50⟩, ⟨0, wWait 4 9, []⟩, by decide +kernel⟩,
    ⟨dStall 8, 3, 0, 49, { rStall with ctx := 5 }, ⟨4, 9, 50⟩, ⟨0, wWait 4 9, []⟩, by decide +kernel⟩,
    ⟨dStall 8, 3, 0, 50, { rStall with ctx := 5 }, ⟨4, 9, 50⟩, ⟨0, wWait 4 9, []⟩, by decide +kernel⟩⟩

theorem test_BarriersAndEnd :
    (∃ d : Dev, ∃ id : Nat, ∃ g : Nat, ∃ c : Cur, (d.rst.held = false) ∧ (d.curOp id g 6 2 = some c) ∧ (c.m.drained = false)) ∧
    (∃ d : Dev, ∃ id : Nat, ∃ g : Nat, ∃ c : Cur, (d.rst.held = false) ∧ (d.curOp id g 6 2 = some c) ∧ (keysRise d.runs = true) ∧ (c.m.drained = true) ∧ (c.r.members.length = 1)) ∧
    (∃ d : Dev, ∃ id : Nat, ∃ g : Nat, ∃ c : Cur, (d.rst.held = false) ∧ (d.curOp id g 6 2 = some c) ∧ 
let rest := fun (p : Stall → Prop) => ∀ q ∈ c.r.members.zipIdx, q.2 ≠ g → p q.1.stall
(c.m.drained = true) ∧ (c.r.members.length ≠ 1) ∧ ((rest (fun s => s ≠ .ended) ∨ ¬ rest (fun s => s = .barrier ∨ s = .ended)))) ∧
    (∃ d : Dev, ∃ id : Nat, ∃ g : Nat, ∃ c : Cur, (d.rst.held = false) ∧ (d.curOp id g 6 2 = some c) ∧ 
let rest := fun (p : Stall → Prop) => ∀ q ∈ c.r.members.zipIdx, q.2 ≠ g → p q.1.stall
(c.m.drained = true) ∧ (¬ rest (fun s => s ≠ .ended)) ∧ (rest (fun s => s = .barrier ∨ s = .ended))) ∧
    (∃ d : Dev, ∃ id : Nat, ∃ r : Run, ∃ md : Module, (d.rst.held = false) ∧ (mfind d.runs id = some r) ∧ (mfind d.mods r.modId = some md) ∧ (r.runNo.isSome = true) ∧ (r.members ≠ []) ∧ ((∀ m ∈ r.members, m.stall = .barrier))) ∧
    (∃ d : Dev, ∃ id : Nat, ∃ r : Run, ∃ md : Module, (d.rst.held = false) ∧ (mfind d.runs id = some r) ∧ (mfind d.mods r.modId = some md) ∧ (r.runNo.isSome = true) ∧ (r.members ≠ []) ∧ ((∃ m ∈ r.members, m.stall ≠ .barrier))) ∧
    (∃ d : Dev, ∃ id : Nat, ∃ g : Nat, ∃ c : Cur, (d.rst.held = false) ∧ (d.curOp id g 8 1 = some c) ∧ (c.m.drained = false)) ∧
    (∃ d : Dev, ∃ id : Nat, ∃ g : Nat, ∃ c : Cur, (d.rst.held = false) ∧ (d.curOp id g 8 1 = some c) ∧ 
let rest := fun (p : Stall → Prop) => ∀ q ∈ c.r.members.zipIdx, q.2 ≠ g → p q.1.stall
(c.m.drained = true) ∧ (¬ rest (fun s => s = .barrier ∨ s = .ended))) ∧
    (∃ d : Dev, ∃ id : Nat, ∃ g : Nat, ∃ c : Cur, (d.rst.held = false) ∧ (d.curOp id g 8 1 = some c) ∧ 
let rest := fun (p : Stall → Prop) => ∀ q ∈ c.r.members.zipIdx, q.2 ≠ g → p q.1.stall
(c.m.drained = true) ∧ (rest (fun s => s = .barrier ∨ s = .ended)) ∧ (¬ rest (fun s => s = .ended))) ∧
    (∃ d : Dev, ∃ id : Nat, ∃ g : Nat, ∃ c : Cur, (d.rst.held = false) ∧ (d.curOp id g 8 1 = some c) ∧ 
let rest := fun (p : Stall → Prop) => ∀ q ∈ c.r.members.zipIdx, q.2 ≠ g → p q.1.stall
(c.m.drained = true) ∧ (rest (fun s => s = .ended)) ∧ (c.r.phase = .run 1) ∧ (c.r.safety = false) ∧ (c.r.scrFail = false) ∧ (c.r.qmRerun = false)) ∧
    (∃ d : Dev, ∃ id : Nat, ∃ g : Nat, ∃ c : Cur, (d.rst.held = false) ∧ (d.curOp id g 8 1 = some c) ∧ 
let rest := fun (p : Stall → Prop) => ∀ q ∈ c.r.members.zipIdx, q.2 ≠ g → p q.1.stall
(c.m.drained = true) ∧ (rest (fun s => s = .ended)) ∧ (c.r.phase = .run 1) ∧ (c.r.safety = false) ∧ (c.r.scrFail = false) ∧ (c.r.qmRerun = true)) ∧
    (∃ d : Dev, ∃ id : Nat, ∃ g : Nat, ∃ c : Cur, (d.rst.held = false) ∧ (d.curOp id g 8 1 = some c) ∧ 
let rest := fun (p : Stall → Prop) => ∀ q ∈ c.r.members.zipIdx, q.2 ≠ g → p q.1.stall
(c.m.drained = true) ∧ (rest (fun s => s = .ended)) ∧ (c.r.phase = .run 1) ∧ (c.r.safety = false) ∧ (c.r.scrFail = true) ∧ (c.r.qmRerun = false)) ∧
    (∃ d : Dev, ∃ id : Nat, ∃ g : Nat, ∃ c : Cur, (d.rst.held = false) ∧ (d.curOp id g 8 1 = some c) ∧ 
let rest := fun (p : Stall → Prop) => ∀ q ∈ c.r.members.zipIdx, q.2 ≠ g → p q.1.stall
(c.m.drained = true) ∧ (rest (fun s => s = .ended)) ∧ (c.r.phase = .run 1) ∧ (c.r.safety = false) ∧ (c.r.scrFail = true) ∧ (c.r.qmRerun = true) ∧ (id < d.nextRun)) ∧
    (∃ d : Dev, ∃ id : Nat, ∃ g : Nat, ∃ c : Cur, (d.rst.held = false) ∧ (d.curOp id g 8 1 = some c) ∧ 
let rest := fun (p : Stall → Prop) => ∀ q ∈ c.r.members.zipIdx, q.2 ≠ g → p q.1.stall
(c.m.drained = true) ∧ (rest (fun s => s = .ended)) ∧ (c.r.phase = .run 1) ∧ (c.r.safety = true) ∧ (d.inHbm (d.slotAddr c.r.part false) (slotLen (d.record c.r).lens) = true)) :=
  ⟨⟨dEx [wd 6 2 []] (inQ [longA]), 3, 0, curOf (dEx [wd 6 2 []] (inQ [longA])) 0, by decide +kernel⟩,
    ⟨dEx [wd 6 2 []] same, 3, 0, curOf (dEx [wd 6 2 []] same) 0, by decide +kernel⟩,
    ⟨dEx [wd 6 2 []] (gang same .none), 3, 0, curOf (dEx [wd 6 2 []] (gang same .none)) 0, by decide +kernel⟩,
    ⟨dEx [wd 6 2 []] (gang same .ended), 3, 0, curOf (dEx [wd 6 2 []] (gang same .ended)) 0, by decide +kernel⟩,
    ⟨dEx [wd 6 2 [], 8] (gang (fun m => { m with stall := .barrier }) .barrier), 3, gang (fun m => { m with stall := .barrier }) .barrier rEx, mdOf [wd 6 2 [], 8] [], by decide +kernel⟩,
    ⟨dEx [wd 6 2 [], 8] (gang (fun m => { m with stall := .barrier }) .none), 3, gang (fun m => { m with stall := .barrier }) .none rEx, mdOf [wd 6 2 [], 8] [], by decide +kernel⟩,
    ⟨dEx [wd 8 1 []] (inQ [longA]), 3, 0, curOf (dEx [wd 8 1 []] (inQ [longA])) 0, by decide +kernel⟩,
    ⟨dEx [wd 8 1 []] (gang same .none), 3, 0, curOf (dEx [wd 8 1 []] (gang same .none)) 0, by decide +kernel⟩,
    ⟨dEx [wd 8 1 []] (gang same .barrier), 3, 0, curOf (dEx [wd 8 1 []] (gang same .barrier)) 0, by decide +kernel⟩,
    ⟨dEx [wd 8 1 []] (gang same .ended), 3, 0, curOf (dEx [wd 8 1 []] (gang same .ended)) 0, by decide +kernel⟩,
    ⟨dEx [wd 8 1 []] (fun r => { r with qmRerun := true }), 3, 0, curOf (dEx [wd 8 1 []] (fun r => { r with qmRerun := true })) 0, by decide +kernel⟩,
    ⟨dEx [wd 8 1 []] (fun r => { r with scrFail := true }), 3, 0, curOf (dEx [wd 8 1 []] (fun r => { r with scrFail := true })) 0, by decide +kernel⟩,
    ⟨dEx [wd 8 1 []] (fun r => { r with scrFail := true, qmRerun := true }), 3, 0, curOf (dEx [wd 8 1 []] (fun r => { r with scrFail := true, qmRerun := true })) 0, by decide +kernel⟩,
    ⟨dHold, 3, 0, curOf (dHold) 0, by decide +kernel⟩⟩

theorem test_LongInstructionsStartAndComplete :
    (∃ d : Dev, ∃ id : Nat, ∃ g : Nat, ∃ q : Nat, ∃ r : Run, ∃ m : Member, ∃ l : LongIns, (d.rst.held = false) ∧ (q < 4) ∧ (d.queueHead id g q = some (r, m, l)) ∧ 
let ready := l.started = none ∧ (∀ o ∈ m.queues.flatten, o.ord < l.ord →
        (∀ x ∈ l.reads, ∀ w ∈ o.write, x.meets w = false) ∧
        (∀ w ∈ l.write, (∀ x ∈ o.write, w.meets x = false) ∧ ∀ x ∈ o.reads, w.meets x = false)) ∧
      (q = qAttend → r.attendTurn g l = true)
(¬ ready)) ∧
    (∃ d : Dev, ∃ id : Nat, ∃ g : Nat, ∃ q : Nat, ∃ t : Nat, ∃ ups : List Upset, ∃ r : Run, ∃ m : Member, ∃ l : LongIns, ∃ c : Cur, ∃ st : Nat, (d.rst.held = false) ∧ (q < 4) ∧ (d.queueHead id g q = some (r, m, l)) ∧ 
let ready := l.started = none ∧ (∀ o ∈ m.queues.flatten, o.ord < l.ord →
        (∀ x ∈ l.reads, ∀ w ∈ o.write, x.meets w = false) ∧
        (∀ w ∈ l.write, (∀ x ∈ o.write, w.meets x = false) ∧ ∀ x ∈ o.reads, w.meets x = false)) ∧
      (q = qAttend → r.attendTurn g l = true)
(ready) ∧ (d.issued r m l = some c) ∧ (((d.at_ t).runIns g c ups).stop = some st)) ∧
    (∃ d : Dev, ∃ id : Nat, ∃ g : Nat, ∃ q : Nat, ∃ t : Nat, ∃ r : Run, ∃ m : Member, ∃ l : LongIns, (d.rst.held = false) ∧ (q < 4) ∧ (d.queueHead id g q = some (r, m, l)) ∧ 
let ripe := (∃ s, l.started = some s ∧ match l.ac with
      | some n => l.since ≤ t ∧ 2000 * n < l.done + (t - l.since) * d.acRate (unitRegion m.phys) + d.acRate (unitRegion m.phys) ∧
          l.done + (t - l.since) * d.acRate (unitRegion m.phys) < 2000 * n + d.acRate (unitRegion m.phys)
      | none => s ≤ t)
(¬ ripe)) ∧
    (∃ d : Dev, ∃ id : Nat, ∃ g : Nat, ∃ q : Nat, ∃ t : Nat, ∃ r : Run, ∃ m : Member, ∃ l : LongIns, (d.rst.held = false) ∧ (q < 4) ∧ (d.queueHead id g q = some (r, m, l)) ∧ 
let ripe := (∃ s, l.started = some s ∧ match l.ac with
      | some n => l.since ≤ t ∧ 2000 * n < l.done + (t - l.since) * d.acRate (unitRegion m.phys) + d.acRate (unitRegion m.phys) ∧
          l.done + (t - l.since) * d.acRate (unitRegion m.phys) < 2000 * n + d.acRate (unitRegion m.phys)
      | none => s ≤ t)
(ripe) ∧ (d.touchedPoison l.touched = none) ∧ ((∀ x ∈ l.chk, x = 0))) ∧
    (∃ d : Dev, ∃ id : Nat, ∃ g : Nat, ∃ q : Nat, ∃ t : Nat, ∃ r : Run, ∃ m : Member, ∃ l : LongIns, ∃ a : Nat, (d.rst.held = false) ∧ (q < 4) ∧ (d.queueHead id g q = some (r, m, l)) ∧ 
let ripe := (∃ s, l.started = some s ∧ match l.ac with
      | some n => l.since ≤ t ∧ 2000 * n < l.done + (t - l.since) * d.acRate (unitRegion m.phys) + d.acRate (unitRegion m.phys) ∧
          l.done + (t - l.since) * d.acRate (unitRegion m.phys) < 2000 * n + d.acRate (unitRegion m.phys)
      | none => s ≤ t)
(ripe) ∧ (d.touchedPoison l.touched = some a) ∧ ((maskHas (d.coll.src 0x004).minor 2 = false ∧ maskHas (d.coll.src 0x004).severe 2 = false)) ∧ (d.coll.ready = true) ∧ (id < d.nextRun)) ∧
    (∃ d : Dev, ∃ id : Nat, ∃ g : Nat, ∃ q : Nat, ∃ t : Nat, ∃ r : Run, ∃ m : Member, ∃ l : LongIns, ∃ w : MemErr, ∃ x : Extent, (d.rst.held = false) ∧ (q < 4) ∧ (d.queueHead id g q = some (r, m, l)) ∧ 
let ripe := (∃ s, l.started = some s ∧ match l.ac with
      | some n => l.since ≤ t ∧ 2000 * n < l.done + (t - l.since) * d.acRate (unitRegion m.phys) + d.acRate (unitRegion m.phys) ∧
          l.done + (t - l.since) * d.acRate (unitRegion m.phys) < 2000 * n + d.acRate (unitRegion m.phys)
      | none => s ≤ t)
(ripe) ∧ (d.touchedPoison l.touched = none) ∧ ((∀ x ∈ l.chk, x = 0)) ∧ (x ∈ l.touched) ∧ (x.dev = w.hbm) ∧ (x.lo ≤ w.addr) ∧ (w.addr < x.hi) ∧ (w.hbm = false) ∧ (w.correctable = false) ∧ (keyUnit w.addr ≠ hubMem) ∧ ((maskHas (d.coll.src 0x001).minor 2 = false ∧ maskHas (d.coll.src 0x001).severe 2 = false)) ∧ (d.coll.ready = true) ∧ (r.holds = true)) ∧
    (∃ l : List Nat, ((∀ s ∈ l, s ∈ [stReserved, stFormat, stZero, stStale, stBounds, stAlign]))) ∧
    (∃ l : List Nat, ((∀ s ∈ l, s ∈ [stReserved, stFormat, stZero, stStale, stBounds, stAlign])) ∧ (stReserved ∈ l)) ∧
    (∃ l : List Nat, ((∀ s ∈ l, s ∈ [stReserved, stFormat, stZero, stStale, stBounds, stAlign])) ∧ (stReserved ∉ l) ∧ (stFormat ∈ l)) ∧
    (∃ l : List Nat, ((∀ s ∈ l, s ∈ [stReserved, stFormat, stZero, stStale, stBounds, stAlign])) ∧ (stReserved ∉ l) ∧ (stFormat ∉ l) ∧ (stZero ∈ l)) ∧
    (∃ l : List Nat, ((∀ s ∈ l, s ∈ [stReserved, stFormat, stZero, stStale, stBounds, stAlign])) ∧ (l ≠ []) ∧ ((∀ s ∈ l, s = stBounds ∨ s = stAlign)) ∧ (stBounds ∈ l)) ∧
    (∃ l : List Nat, ((∀ s ∈ l, s ∈ [stReserved, stFormat, stZero, stStale, stBounds, stAlign])) ∧ (l ≠ []) ∧ ((∀ s ∈ l, s = stAlign))) :=
  ⟨⟨dLong [{ longA with reads := [extA 0 64], write := some (extA 64 128), started := some 4 }], 3, 0, 0, { inQ [{ longA with reads := [extA 0 64], write := some (extA 64 128), started := some 4 }] rEx with ctx := 5 }, { mem0 with queues := [[{ longA with reads := [extA 0 64], write := some (extA 64 128), started := some 4 }], [], [], []], issued := 9 }, { longA with reads := [extA 0 64], write := some (extA 64 128), started := some 4 }, by decide +kernel⟩,
    ⟨dQ (dAt6 1 [3, 0, 0, 0, 1, 0, 0, 0]) qAttend, 3, 0, 3, 104, [], (((dQ (dAt6 1 [3, 0, 0, 0, 1, 0, 0, 0]) qAttend).queueHead 3 0 3).getD (runA, mem0, longA)).1, (((dQ (dAt6 1 [3, 0, 0, 0, 1, 0, 0, 0]) qAttend).queueHead 3 0 3).getD (runA, mem0, longA)).2.1, (((dQ (dAt6 1 [3, 0, 0, 0, 1, 0, 0, 0]) qAttend).queueHead 3 0 3).getD (runA, mem0, longA)).2.2, headOf (dQ (dAt6 1 [3, 0, 0, 0, 1, 0, 0, 0]) qAttend) qAttend, stFormat, by decide +kernel⟩,
    ⟨dLong [{ longA with started := some 4, since := 4 }], 3, 0, 0, 103, { inQ [{ longA with started := some 4, since := 4 }] rEx with ctx := 5 }, { mem0 with queues := [[{ longA with started := some 4, since := 4 }], [], [], []], issued := 9 }, { longA with started := some 4, since := 4 }, by decide +kernel, by decide +kernel, by decide +kernel, by intro _ hr; obtain ⟨s, h, k⟩ := (show ∃ s, _ ∧ _ from hr); obtain rfl := Option.some.inj (show some 4 = some s from h); exact absurd (show _ ∧ _ ∧ _ from k).2.1 (by decide +kernel)⟩,
    ⟨dLong [{ longA with started := some 4, since := 4 }], 3, 0, 0, 104, { inQ [{ longA with started := some 4, since := 4 }] rEx with ctx := 5 }, { mem0 with queues := [[{ longA with started := some 4, since := 4 }], [], [], []], issued := 9 }, { longA with started := some 4, since := 4 }, by decide +kernel, by decide +kernel, by decide +kernel, ⟨4, rfl, show _ ∧ _ ∧ _ from ⟨by decide +kernel, by decide +kernel, by decide +kernel⟩⟩, by decide +kernel, by decide +kernel⟩,
    ⟨Dev.setPoison (dLong [{ longA with started := some 4, since := 4, touched := [⟨true, 100, 300⟩] }]) [128], 3, 0, 0, 104, { inQ [{ longA with started := some 4, since := 4, touched := [⟨true, 100, 300⟩] }] rEx with ctx := 5 }, { mem0 with queues := [[{ longA with started := some 4, since := 4, touched := [⟨true, 100, 300⟩] }], [], [], []], issued := 9 }, { longA with started := some 4, since := 4, touched := [⟨true, 100, 300⟩] }, 128, by decide +kernel, by decide +kernel, by decide +kernel, ⟨4, rfl, show _ ∧ _ ∧ _ from ⟨by decide +kernel, by decide +kernel, by decide +kernel⟩⟩, by decide +kernel⟩,
    ⟨dLong [{ longA with started := some 4, since := 4, touched := [extA 64 128] }], 3, 0, 0, 104, { inQ [{ longA with started := some 4, since := 4, touched := [extA 64 128] }] rEx with ctx := 5 }, { mem0 with queues := [[{ longA with started := some 4, since := 4, touched := [extA 64 128] }], [], [], []], issued := 9 }, { longA with started := some 4, since := 4, touched := [extA 64 128] }, ⟨false, 64, false⟩, extA 64 128, by decide +kernel, by decide +kernel, by decide +kernel, ⟨4, rfl, show _ ∧ _ ∧ _ from ⟨by decide +kernel, by decide +kernel, by decide +kernel⟩⟩, by decide +kernel⟩,
    ⟨[stReserved, stAlign], by decide +kernel⟩,
    ⟨[stReserved, stFormat], by decide +kernel⟩,
    ⟨[stFormat, stZero], by decide +kernel⟩,
    ⟨[stZero, stBounds], by decide +kernel⟩,
    ⟨[stAlign, stBounds], by decide +kernel⟩,
    ⟨[stAlign], by decide +kernel⟩⟩

theorem test_PrepCoresAndRegionDma :
    (∃ d : Dev, ∃ id : Nat, ∃ g : Nat, ∃ l : Nat, ∃ u : Nat, ∃ r : Run, ∃ x : Xact, (d.rst.held = false) ∧ (mfind d.runs id = some r) ∧ (r.runNo.isSome = true) ∧ (r.prep[g]? = some (l, u)) ∧ (r.prepAt.isSome = true) ∧ 
let reach := d.prepTarget r (l / 2) u
(xTargets reach reach x = none)) ∧
    (∃ d : Dev, ∃ id : Nat, ∃ g : Nat, ∃ l : Nat, ∃ u : Nat, ∃ r : Run, ∃ x : Xact, ∃ ts : List Target, (d.rst.held = false) ∧ (mfind d.runs id = some r) ∧ (r.runNo.isSome = true) ∧ (r.prep[g]? = some (l, u)) ∧ (r.prepAt.isSome = true) ∧ 
let reach := d.prepTarget r (l / 2) u
(xTargets reach reach x = some ts) ∧ (xAligned x ts = false)) ∧
    (∃ d : Dev, ∃ id : Nat, ∃ g : Nat, ∃ l : Nat, ∃ u : Nat, ∃ r : Run, ∃ x : Xact, ∃ v : Bool, ∃ a : Nat, ∃ n : Nat, ∃ y : Target, (d.rst.held = false) ∧ (mfind d.runs id = some r) ∧ (r.runNo.isSome = true) ∧ (r.prep[g]? = some (l, u)) ∧ (r.prepAt.isSome = true) ∧ 
let reach := d.prepTarget r (l / 2) u
(x = .load v a n) ∧ (reach a n = some y) ∧ (xAligned x [y] = true)) ∧
    (∃ d : Dev, ∃ id : Nat, ∃ g : Nat, ∃ l : Nat, ∃ u : Nat, ∃ r : Run, ∃ x : Xact, ∃ v : Bool, ∃ a : Nat, ∃ bs : List Nat, ∃ p : Place, (d.rst.held = false) ∧ (mfind d.runs id = some r) ∧ (r.runNo.isSome = true) ∧ (r.prep[g]? = some (l, u)) ∧ (r.prepAt.isSome = true) ∧ 
let reach := d.prepTarget r (l / 2) u
(x = .store v a bs) ∧ (reach a bs.length = some (.chip p)) ∧ (xAligned x [.chip p] = true)) ∧
    (∃ d : Dev, ∃ id : Nat, ∃ g : Nat, ∃ l : Nat, ∃ u : Nat, ∃ r : Run, ∃ x : Xact, ∃ v : Bool, ∃ a : Nat, ∃ bs : List Nat, ∃ b : Nat, (d.rst.held = false) ∧ (mfind d.runs id = some r) ∧ (r.runNo.isSome = true) ∧ (r.prep[g]? = some (l, u)) ∧ (r.prepAt.isSome = true) ∧ 
let reach := d.prepTarget r (l / 2) u
(x = .store v a bs) ∧ (reach a bs.length = some (.hbm b)) ∧ (xAligned x [.hbm b] = true)) ∧
    (∃ d : Dev, ∃ id : Nat, ∃ src : Nat, ∃ dst : Nat, ∃ n : Nat, ∃ r : Run, (d.rst.held = false) ∧ (mfind d.runs id = some r) ∧ (r.runNo.isSome = true) ∧ 
let k := placeReg r.place
(d.dmaTarget r k src n false = none ∨ d.dmaTarget r k dst n true = none)) ∧
    (∃ d : Dev, ∃ id : Nat, ∃ src : Nat, ∃ dst : Nat, ∃ n : Nat, ∃ r : Run, ∃ s : Target, ∃ y : Target, (d.rst.held = false) ∧ (mfind d.runs id = some r) ∧ (r.runNo.isSome = true) ∧ 
let k := placeReg r.place

let x := Xact.move src dst n
(d.dmaTarget r k src n false = some s) ∧ (d.dmaTarget r k dst n true = some y) ∧ (xAligned x [s, y] = false)) ∧
    (∃ d : Dev, ∃ id : Nat, ∃ src : Nat, ∃ dst : Nat, ∃ n : Nat, ∃ r : Run, ∃ s : Target, ∃ p : Place, (d.rst.held = false) ∧ (mfind d.runs id = some r) ∧ (r.runNo.isSome = true) ∧ 
let k := placeReg r.place

let x := Xact.move src dst n
(d.dmaTarget r k src n false = some s) ∧ (d.dmaTarget r k dst n true = some (.chip p)) ∧ (xAligned x [s, .chip p] = true)) ∧
    (∃ d : Dev, ∃ id : Nat, ∃ src : Nat, ∃ dst : Nat, ∃ n : Nat, ∃ r : Run, ∃ s : Target, ∃ b : Nat, (d.rst.held = false) ∧ (mfind d.runs id = some r) ∧ (r.runNo.isSome = true) ∧ 
let k := placeReg r.place

let x := Xact.move src dst n
(d.dmaTarget r k src n false = some s) ∧ (d.dmaTarget r k dst n true = some (.hbm b)) ∧ (xAligned x [s, .hbm b] = true)) ∧
    (∃ y : Target, ∃ b : Nat, (y = .hbm b)) ∧
    (∃ y : Target, ∃ b : Nat, (y = .hbm b)) ∧
    (∃ a : Nat, (a < 0x40000)) ∧
    (∃ a : Nat, (0x40000 ≤ a) ∧ (a < 0x100000000)) ∧
    (∃ a : Nat, (a < 0x100000000)) ∧
    (∃ a : Nat, (0x200000000 ≤ a) ∧ (a < 0x100000000000)) ∧
    (∃ a : Nat, (0x200000000 ≤ a) ∧ (a < 0x100000000000)) ∧
    (∃ d : Dev, ∃ a : Nat, ∃ n : Nat, (0x100000000000 ≤ a) ∧ (d.inHbm (a - 0x100000000000) n = true)) ∧
    (∃ d : Dev, ∃ a : Nat, ∃ n : Nat, (0x100000000000 ≤ a) ∧ (d.inHbm (a - 0x100000000000) n = true)) ∧
    (∃ d : Dev, ∃ a : Nat, ∃ n : Nat, (0x100000000000 ≤ a) ∧ (d.inHbm (a - 0x100000000000) n = false)) ∧
    (∃ d : Dev, ∃ a : Nat, ∃ n : Nat, (0x100000000000 ≤ a) ∧ (d.inHbm (a - 0x100000000000) n = false)) ∧
    (∃ d : Dev, ∃ a : Nat, ∃ n : Nat, (0x100000000000 ≤ a) ∧ (d.inHbm (a - 0x100000000000) n = false) ∧ (inRoster (a - 0x100000000000) n = true)) ∧
    (∃ a : Nat, ∃ n : Nat, ∃ s : Sel, (0x100000000 ≤ a) ∧ (a < 0x200000000) ∧ (spDecode (a - 0x100000000) = some s) ∧ (s.room < n)) ∧
    (∃ a : Nat, ∃ n : Nat, ∃ s : Sel, (0x100000000 ≤ a) ∧ (a < 0x200000000) ∧ (spDecode (a - 0x100000000) = some s) ∧ (s.room < n)) ∧
    (∃ a : Nat, ∃ n : Nat, ∃ j : Nat, ∃ e : Nat, ∃ o : Nat, (0x100000000 ≤ a) ∧ (a < 0x200000000) ∧ (spDecode (a - 0x100000000) = some (.eng j e o)) ∧ (n ≤ Sel.room (.eng j e o))) ∧
    (∃ a : Nat, ∃ n : Nat, ∃ j : Nat, ∃ e : Nat, ∃ o : Nat, (0x100000000 ≤ a) ∧ (a < 0x200000000) ∧ (spDecode (a - 0x100000000) = some (.eng j e o)) ∧ (n ≤ Sel.room (.eng j e o))) ∧
    (∃ d : Dev, ∃ a : Nat, ∃ n : Nat, ∃ j : Nat, ∃ o : Nat, (0x100000000 ≤ a) ∧ (a < 0x200000000) ∧ (spDecode (a - 0x100000000) = some (.clu j o)) ∧ (n ≤ Sel.room (.clu j o)) ∧ (d.cluOut j = false)) ∧
    (∃ d : Dev, ∃ a : Nat, ∃ n : Nat, ∃ j : Nat, ∃ o : Nat, (0x100000000 ≤ a) ∧ (a < 0x200000000) ∧ (spDecode (a - 0x100000000) = some (.clu j o)) ∧ (n ≤ Sel.room (.clu j o)) ∧ (d.cluOut j = false)) ∧
    (∃ d : Dev, ∃ a : Nat, ∃ n : Nat, ∃ j : Nat, ∃ o : Nat, (0x100000000 ≤ a) ∧ (a < 0x200000000) ∧ (spDecode (a - 0x100000000) = some (.reg j o)) ∧ (n ≤ Sel.room (.reg j o)) ∧ (d.regOut j = false)) ∧
    (∃ d : Dev, ∃ a : Nat, ∃ n : Nat, ∃ j : Nat, ∃ o : Nat, (0x100000000 ≤ a) ∧ (a < 0x200000000) ∧ (spDecode (a - 0x100000000) = some (.reg j o)) ∧ (n ≤ Sel.room (.reg j o)) ∧ (d.regOut j = false)) ∧
    (∃ d : Dev, ∃ a : Nat, ∃ s : Sel, (0x100000000 ≤ a) ∧ (a < 0x200000000) ∧ (spDecode (a - 0x100000000) = some s) ∧ ((∃ j o, s = .clu j o ∧ d.cluOut j = true) ∨ (∃ j o, s = .reg j o ∧ d.regOut j = true))) ∧
    (∃ d : Dev, ∃ a : Nat, ∃ s : Sel, (0x100000000 ≤ a) ∧ (a < 0x200000000) ∧ (spDecode (a - 0x100000000) = some s) ∧ ((∃ j o, s = .clu j o ∧ d.cluOut j = true) ∨ (∃ j o, s = .reg j o ∧ d.regOut j = true))) ∧
    (∃ d : Dev, ∃ id : Nat, ∃ g : Nat, ∃ q : Nat, ∃ t : Nat, ∃ r : Run, ∃ x : Xfer, (d.rst.held = false) ∧ (q = qPrep ∨ q = qDma) ∧ (mfind d.runs id = some r) ∧ (r.xfers.find? (fun y => y.queue == q && y.g == g) = some x) ∧ 
let due := ∀ n, x.fc = some n → endsAt n x.done x.since (d.fcRate r.die) t = true
(¬ due)) ∧
    (∃ d : Dev, ∃ id : Nat, ∃ g : Nat, ∃ q : Nat, ∃ t : Nat, ∃ r : Run, ∃ x : Xfer, (d.rst.held = false) ∧ (q = qPrep ∨ q = qDma) ∧ (mfind d.runs id = some r) ∧ (r.xfers.find? (fun y => y.queue == q && y.g == g) = some x) ∧ 
let due := ∀ n, x.fc = some n → endsAt n x.done x.since (d.fcRate r.die) t = true
(due) ∧ (d.touchedPoison x.touched = none)) ∧
    (∃ d : Dev, ∃ id : Nat, ∃ g : Nat, ∃ q : Nat, ∃ t : Nat, ∃ r : Run, ∃ x : Xfer, ∃ a : Nat, (d.rst.held = false) ∧ (q = qPrep ∨ q = qDma) ∧ (mfind d.runs id = some r) ∧ (r.xfers.find? (fun y => y.queue == q && y.g == g) = some x) ∧ 
let due := ∀ n, x.fc = some n → endsAt n x.done x.since (d.fcRate r.die) t = true
(due) ∧ (d.touchedPoison x.touched = some a) ∧ (r.holds = true) ∧ (r.inCommit = false) ∧ (id < d.nextRun) ∧ ((maskHas (d.coll.src 0x004).minor 2 = false ∧ maskHas (d.coll.src 0x004).severe 2 = false)) ∧ (d.coll.ready = true)) :=
  ⟨⟨dEx [8] (fun r => same { r with prep := [(0, pcUnit 0 0)], prepAt := some 64 }), 3, 0, 0, pcUnit 0 0, same { rEx with prep := [(0, pcUnit 0 0)], prepAt := some 64 }, .load false 0x3FFFF 2, by decide +kernel⟩,
    ⟨dEx [8] (fun r => same { r with prep := [(0, pcUnit 0 0)], prepAt := some 64 }), 3, 0, 0, pcUnit 0 0, same { rEx with prep := [(0, pcUnit 0 0)], prepAt := some 64 }, .load true 0x20 8, [.chip ⟨pcUnit 0 0, 0x20⟩], by decide +kernel⟩,
    ⟨dEx [8] (fun r => same { r with prep := [(0, pcUnit 0 0)], prepAt := some 64 }), 3, 0, 0, pcUnit 0 0, same { rEx with prep := [(0, pcUnit 0 0)], prepAt := some 64 }, .load true 0x3FFC0 64, true, 0x3FFC0, 64, .chip ⟨pcUnit 0 0, 0x3FFC0⟩, by decide +kernel⟩,
    ⟨dEx [8] (fun r => same { r with prep := [(0, pcUnit 0 0)], prepAt := some 64 }), 3, 0, 0, pcUnit 0 0, same { rEx with prep := [(0, pcUnit 0 0)], prepAt := some 64 }, .store false (0x100000000 + 5 * 2 ^ 23) [1, 2], false, 0x100000000 + 5 * 2 ^ 23, [1, 2], ⟨cspUnit 0, 0⟩, by decide +kernel⟩,
    ⟨dEx [8] (fun r => same { r with prep := [(0, pcUnit 0 0)], prepAt := some 64 }), 3, 0, 0, pcUnit 0 0, same { rEx with prep := [(0, pcUnit 0 0)], prepAt := some 64 }, .store false (0x100000000000 + 64) (List.replicate 64 7), false, 0x100000000000 + 64, List.replicate 64 7, 64, by decide +kernel⟩,
    ⟨dEx [8] (fun r => same { r with prep := [(0, pcUnit 0 0)], prepAt := some 64 }), 3, 0x100, 0x100000000000, 4, same { rEx with prep := [(0, pcUnit 0 0)], prepAt := some 64 }, by decide +kernel⟩,
    ⟨dEx [8] (fun r => same { r with prep := [(0, pcUnit 0 0)], prepAt := some 64 }), 3, 0x100000000 + 64, 0x100000000000, 4, same { rEx with prep := [(0, pcUnit 0 0)], prepAt := some 64 }, .chip ⟨engUnit 0 0, 64⟩, .hbm 0, by decide +kernel⟩,
    ⟨dEx [8] (fun r => same { r with prep := [(0, pcUnit 0 0)], prepAt := some 64 }), 3, 0x100000000000 + 0x10000, 0x100000000 + 64, 4, same { rEx with prep := [(0, pcUnit 0 0)], prepAt := some 64 }, .hbm 0x10000, ⟨engUnit 0 0, 64⟩, by decide +kernel⟩,
    ⟨dEx [8] (fun r => same { r with prep := [(0, pcUnit 0 0)], prepAt := some 64 }), 3, 0x100000000 + 64, 0x100000000000, 64, same { rEx with prep := [(0, pcUnit 0 0)], prepAt := some 64 }, .chip ⟨engUnit 0 0, 64⟩, 0, by decide +kernel⟩,
    ⟨.hbm 128, 128, by decide +kernel⟩,
    ⟨.hbm 128, 128, by decide +kernel⟩,
    ⟨0x3FFFE, by decide +kernel⟩,
    ⟨0x40000, by decide +kernel⟩,
    ⟨0xFFFFFFFF, by decide +kernel⟩,
    ⟨0x200000000, by decide +kernel⟩,
    ⟨0xFFFFFFFFFFF, by decide +kernel⟩,
    ⟨d0, 0x100000000000 + 0xBFFFFFFFC, 4, by decide +kernel⟩,
    ⟨d0, 0x100000000000, 4, by decide +kernel⟩,
    ⟨d0, 0x100000000000 + 0xBFFFFFFFD, 4, by decide +kernel⟩,
    ⟨d0, 0x100000000000 + 0xC00000000, 4, by decide +kernel⟩,
    ⟨d0, 0x100000000000 + 0x1000000000, 4, by decide +kernel⟩,
    ⟨0x1000FFFFE, 4, .eng 0 0 0xFFFFE, by decide +kernel⟩,
    ⟨0x1000FFFFE, 4, .eng 0 0 0xFFFFE, by decide +kernel⟩,
    ⟨0x100000040, 4, 0, 0, 0x40, by decide +kernel⟩,
    ⟨0x100000040, 4, 0, 0, 0x40, by decide +kernel⟩,
    ⟨d0, 0x102800040, 4, 0, 0x40, by decide +kernel⟩,
    ⟨d0, 0x102800040, 4, 0, 0x40, by decide +kernel⟩,
    ⟨d0, 0x11C000040, 4, 0, 0x40, by decide +kernel⟩,
    ⟨d0, 0x11C000040, 4, 0, 0x40, by decide +kernel⟩,
    ⟨{ d0 with leap := { d0.leap with regFenced := [0] } }, 0x102800040, .clu 0 0x40, by decide +kernel, by decide +kernel, by decide +kernel, .inl ⟨0, 0x40, rfl, by decide +kernel⟩⟩,
    ⟨{ d0 with leap := { d0.leap with regFenced := [0] } }, 0x102800040, .clu 0 0x40, by decide +kernel, by decide +kernel, by decide +kernel, .inl ⟨0, 0x40, rfl, by decide +kernel⟩⟩,
    ⟨dEx [8] (fun r => { r with xfers := [⟨qPrep, 0, some 6, 0, 0, [extA 0 64], []⟩] }), 3, 0, qPrep, 4, { rEx with xfers := [⟨qPrep, 0, some 6, 0, 0, [extA 0 64], []⟩] }, ⟨qPrep, 0, some 6, 0, 0, [extA 0 64], []⟩, by decide +kernel, by decide +kernel, by decide +kernel, by decide +kernel, fun h => absurd (h 6 rfl) (by decide +kernel)⟩,
    ⟨dEx [8] (fun r => { r with xfers := [⟨qDma, 0, some 6, 0, 0, [extA 0 64], []⟩] }), 3, 0, qDma, 5, { rEx with xfers := [⟨qDma, 0, some 6, 0, 0, [extA 0 64], []⟩] }, ⟨qDma, 0, some 6, 0, 0, [extA 0 64], []⟩, by decide +kernel, by decide +kernel, by decide +kernel, by decide +kernel, by intro n h; obtain rfl := Option.some.inj (show some 6 = some n from h); decide +kernel, by decide +kernel⟩,
    ⟨Dev.setPoison (dEx [8] (fun r => { r with xfers := [⟨qDma, 0, some 6, 0, 0, [⟨true, 100, 300⟩], []⟩] })) [128], 3, 0, qDma, 5, { rEx with xfers := [⟨qDma, 0, some 6, 0, 0, [⟨true, 100, 300⟩], []⟩] }, ⟨qDma, 0, some 6, 0, 0, [⟨true, 100, 300⟩], []⟩, 128, by decide +kernel, by decide +kernel, by decide +kernel, by decide +kernel, by intro n h; obtain rfl := Option.some.inj (show some 6 = some n from h); decide +kernel, by decide +kernel⟩⟩

/-! ## mem -/

def keyA : Nat := cspUnit 0 * 0x1000000
def rMarch : Run := { runA with phase := .march ⟨true, keyA + 65, false⟩ }
def dMarchOf (d : Dev) : Dev := { d with runs := [(3, rMarch)], nextRun := 4, mem := { d.mem with marches := [keyA + 64] } }
def dMarch : Dev := dMarchOf d0
def dScrub : Dev := { d0 with mem := { d0.mem with scrubAt := [(cspUnit 3, 64)] } }
def dReady : Dev := { d0 with mem := { d0.mem with sramRepairDue := [keyA + 64, keyA + 128], rowsReady := [keyA + 64, keyA + 128] } }
def dRow3 (d : Dev) : Dev := { d with mem := { d.mem with hbmRows := [(155, 3)] } }
def dDue (n : Nat) : Dev := { d0 with mem := { d0.mem with sramRepairDue := (List.range n).map (fun i => keyA + 64 * (i + 2)) } }
def dMarchFull : Dev := dMarchOf (dDue 8)
def dPois (l : List Nat) : Dev := { d0 with mem := { d0.mem with poison := l } }
def dNoSpare : Dev := { d0 with mem := { d0.mem with lanesSpare := List.replicate 32 0, rowsSpare := [0, 0] } }
def dRsvBad : Dev := d0.set (F.MEM_RSV.RATE 0 0) 0xFFFFFF
def dClu (f : Clu → Clu) : Dev := d0.modClu 0 f
def dUnit (f : UnitSt → UnitSt) : Dev := d0.modUnit (engUnit 0 0) f
def loanA : Loan := ⟨0, 0, 1, 4, 0, some true⟩
def dNoSpareE : Dev := { dClu (fun c => { c with spare := 7 }) with frame := { d0.frame with nextTick := 1000000 } }

theorem test_MemoryErrorsAndRepairs :
    (∃ d : Dev, ∃ mem : Nat, ∃ off : Nat, ∃ flips : Nat, (d.rst.held = false) ∧ (d.memOn mem = true) ∧ (off = mget 0 d.mem.scrubAt mem) ∧ (d.coll.ready = true) ∧ (flips = 1)) ∧
    (∃ d : Dev, ∃ mem : Nat, ∃ off : Nat, ∃ flips : Nat, (d.rst.held = false) ∧ (d.memOn mem = true) ∧ (off = mget 0 d.mem.scrubAt mem) ∧ (d.coll.ready = true) ∧ (2 ≤ flips) ∧ (mem ≠ hubMem)) ∧
    (∃ d : Dev, ∃ mem : Nat, ∃ off : Nat, ∃ flips : Nat, (d.rst.held = false) ∧ (d.memOn mem = true) ∧ (off = mget 0 d.mem.scrubAt mem) ∧ (d.coll.ready = true) ∧ (2 ≤ flips) ∧ (mem = hubMem)) ∧
    (∃ d : Dev, ∃ mem : Nat, ∃ off : Nat, ∃ flips : Nat, (d.rst.held = false) ∧ (d.memOn mem = true) ∧ (off = mget 0 d.mem.scrubAt mem) ∧ (d.coll.ready = true) ∧ (flips = 0)) ∧
    (∃ d : Dev, ∃ mem : Nat, ∃ off : Nat, (d.rst.held = false) ∧ (d.memOn mem = false ∨ off ≠ mget 0 d.mem.scrubAt mem)) ∧
    (∃ d : Dev, ∃ addr : Nat, ∃ flips : Nat, (d.rst.held = false) ∧ (d.on F.MEM_PATROL.EN = true) ∧ (d.inHbm addr 1 = true) ∧ (d.stackLost addr = false) ∧ (d.coll.ready = true) ∧ 
let g := addr / 64 * 64
(flips = 1) ∧ (g ∉ d.mem.poison)) ∧
    (∃ d : Dev, ∃ addr : Nat, ∃ flips : Nat, (d.rst.held = false) ∧ (d.on F.MEM_PATROL.EN = true) ∧ (d.inHbm addr 1 = true) ∧ (d.stackLost addr = false) ∧ (d.coll.ready = true) ∧ 
let g := addr / 64 * 64
(2 ≤ flips ∨ g ∈ d.mem.poison)) ∧
    (∃ d : Dev, ∃ addr : Nat, ∃ flips : Nat, (d.rst.held = false) ∧ (d.on F.MEM_PATROL.EN = true) ∧ (d.inHbm addr 1 = true) ∧ (d.stackLost addr = false) ∧ (d.coll.ready = true) ∧ 
let g := addr / 64 * 64
(flips = 0) ∧ (g ∉ d.mem.poison)) ∧
    (∃ d : Dev, ∃ key : Nat, (d.rst.held = false) ∧ 
let row := key / 64 * 64
(row ∉ d.mem.marches)) ∧
    (∃ d : Dev, ∃ key : Nat, (d.rst.held = false) ∧ 
let row := key / 64 * 64
(row ∈ d.mem.marches)) ∧
    (∃ d : Dev, ∃ key : Nat, (d.rst.held = false) ∧ 
let row := key / 64 * 64

let due := d.mem.sramRepairDue.filter (fun x => keyMacro x == keyMacro row && x != row)
(row ∈ d.mem.marches) ∧ (due.length < d.rowsLeft row)) ∧
    (∃ d : Dev, ∃ key : Nat, (d.rst.held = false) ∧ 
let row := key / 64 * 64

let due := d.mem.sramRepairDue.filter (fun x => keyMacro x == keyMacro row && x != row)
(row ∈ d.mem.marches) ∧ (d.rowsLeft row ≤ due.length) ∧ (d.unitExists (keyUnit row) = true) ∧ (unitKind (keyUnit row) ∈ [0, 1, 3, 4]) ∧ (d.leap.clus.length = 24)) ∧
    (∃ d : Dev, ∃ mem : Nat, (d.rst.held = false) ∧ (d.mem.rowsReady.any (fun key => keyUnit key == mem) = false ∨ d.diesOn = false)) ∧
    (∃ d : Dev, ∃ mem : Nat, (d.rst.held = false) ∧ (d.diesOn = true) ∧ (d.mem.rowsReady.any (fun key => keyUnit key == mem) = true) ∧ ((unitKind mem = 3 ∧ d.runs.any (fun q => q.2.holds && q.2.onClu (unitClu mem)) = false ∨
        unitKind mem = 4 ∧ d.runs.any (fun q => q.2.holds && [0, 1, 2, 3].any (fun j => q.2.onClu (unitRegion mem * 4 + j))) = false))) ∧
    (∃ d : Dev, ∃ stack : Nat, ∃ lane : Nat, ∃ t : Nat, ∃ marginal : Bool, (d.rst.held = false) ∧ (stack < d.nStacks) ∧ (lane < 1024) ∧ (stack ∉ d.leap.dieLost) ∧ 
let due := marginal = true ∨ 16 ≤ mget 0 (d.at_ t).patrolTurn.mem.hbmLanes (stack * 1024 + lane)
(¬ due)) ∧
    (∃ d : Dev, ∃ stack : Nat, ∃ lane : Nat, ∃ t : Nat, ∃ marginal : Bool, (d.rst.held = false) ∧ (stack < d.nStacks) ∧ (lane < 1024) ∧ (stack ∉ d.leap.dieLost) ∧ 
let ch := (stack * 1024 + lane) / 64

let due := marginal = true ∨ 16 ≤ mget 0 (d.at_ t).patrolTurn.mem.hbmLanes (stack * 1024 + lane)
(due) ∧ (d.mem.lanesSpare.getD ch 0 ≠ 0)) ∧
    (∃ d : Dev, ∃ stack : Nat, ∃ lane : Nat, ∃ t : Nat, ∃ marginal : Bool, (d.rst.held = false) ∧ (stack < d.nStacks) ∧ (lane < 1024) ∧ (stack ∉ d.leap.dieLost) ∧ 
let ch := (stack * 1024 + lane) / 64

let due := marginal = true ∨ 16 ≤ mget 0 (d.at_ t).patrolTurn.mem.hbmLanes (stack * 1024 + lane)
(due) ∧ (d.mem.lanesSpare.getD ch 0 = 0) ∧ (d.coll.ready = true)) ∧
    (∃ d : Dev, ∃ stack : Nat, ∃ row : Nat, ∃ t : Nat, (d.rst.held = false) ∧ (stack < d.nStacks) ∧ (stack ∉ d.leap.dieLost) ∧ 
let due := 3 ≤ mget 0 (d.at_ t).patrolTurn.mem.hbmRows (stack + 2 * row)
(¬ due)) ∧
    (∃ d : Dev, ∃ stack : Nat, ∃ row : Nat, ∃ t : Nat, (d.rst.held = false) ∧ (stack < d.nStacks) ∧ (stack ∉ d.leap.dieLost) ∧ 
let due := 3 ≤ mget 0 (d.at_ t).patrolTurn.mem.hbmRows (stack + 2 * row)
(due) ∧ (d.mem.rowsSpare.getD stack 0 ≠ 0)) ∧
    (∃ d : Dev, ∃ stack : Nat, ∃ row : Nat, ∃ t : Nat, (d.rst.held = false) ∧ (stack < d.nStacks) ∧ (stack ∉ d.leap.dieLost) ∧ 
let due := 3 ≤ mget 0 (d.at_ t).patrolTurn.mem.hbmRows (stack + 2 * row)
(due) ∧ (d.mem.rowsSpare.getD stack 0 = 0) ∧ (d.coll.ready = true)) ∧
    (∃ d : Dev, (d.rst.held = false) ∧ (keysRise d.regs.cur = true) ∧ (d.rsvBad = false)) ∧
    (∃ d : Dev, (d.rst.held = false) ∧ (d.rsvBad = true)) :=
  ⟨⟨dScrub, cspUnit 3, 64, 1, by decide +kernel⟩,
    ⟨dScrub, cspUnit 3, 64, 2, by decide +kernel⟩,
    ⟨d0, hubMem, 0, 3, by decide +kernel⟩,
    ⟨dScrub, cspUnit 3, 64, 0, by decide +kernel⟩,
    ⟨dScrub, cspUnit 3, 72, by decide +kernel⟩,
    ⟨dPois [0x10080], 0x10040, 1, by decide +kernel⟩,
    ⟨dPois [0x10040], 0x10040, 1, by decide +kernel⟩,
    ⟨d0, 0x10040, 0, by decide +kernel⟩,
    ⟨d0, keyA + 65, by decide +kernel⟩,
    ⟨dMarch, keyA + 65, by decide +kernel⟩,
    ⟨dMarch, keyA + 65, by decide +kernel⟩,
    ⟨dMarchFull, keyA + 65, by decide +kernel⟩,
    ⟨d0, cspUnit 0, by decide +kernel⟩,
    ⟨dReady, cspUnit 0, by decide +kernel⟩,
    ⟨d0, 1, 1023, 9, false, by decide +kernel⟩,
    ⟨d0, 1, 1023, 9, true, by decide +kernel⟩,
    ⟨dNoSpare, 1, 1023, 9, true, by decide +kernel⟩,
    ⟨d0, 1, 77, 9, by decide +kernel⟩,
    ⟨dRow3 d0, 1, 77, 9, by decide +kernel⟩,
    ⟨dRow3 dNoSpare, 1, 77, 9, by decide +kernel⟩,
    ⟨d0, by decide +kernel⟩,
    ⟨dRsvBad, by decide +kernel⟩⟩

theorem test_LeapRotatesAndLends :
    (∃ d : Dev, ∃ k : Nat, ∃ t : Nat, (d.rst.held = false) ∧ (d.leap.clus.length = 24) ∧ (d.cluOut k = false) ∧ (d.diesOn = true) ∧ ((d.clu k).spare ≠ 7) ∧ ((d.clu k).lent = false) ∧ ((d.clu k).engDue = none) ∧ ((d.clu k).engPrev + d.rotNs ≤ t)) ∧
    (∃ d : Dev, ∃ k : Nat, ∃ t : Nat, (d.rst.held = false) ∧ (d.leap.clus.length = 24) ∧ (d.cluOut k = false) ∧ (d.diesOn = true) ∧ ((d.clu k).pcSpare ≠ 3) ∧ ((d.clu k).pcDue = none) ∧ ((d.clu k).pcPrev + d.rotNs ≤ t)) ∧
    (∃ d : Dev, ∃ unit : Nat → Nat, ∃ l : List Nat, ∃ p : Nat, (d.oldest unit l = some p)) ∧
    (∃ d : Dev, ∃ unit : Nat → Nat, ∃ l : List Nat, ∃ p : Nat, ∃ q : Nat, (d.oldest unit l = some p) ∧ (q ∈ l)) ∧
    (∃ d : Dev, ∃ k : Nat, ∃ p : Nat, (d.rst.held = false) ∧ (d.leap.clus.length = 24) ∧ (d.cluOut k = false) ∧ (d.diesOn = true) ∧ 
let c := d.clu k
(c.engDue = some p) ∧ (c.spare ≠ 7) ∧ (c.lent = false) ∧ ((d.unitSt (engUnit k c.spare)).testing = false) ∧ (p ∈ c.le) ∧ (d.leHeld (4 * k + c.le.idxOf p) = false) ∧ (d.unitHeld (engUnit k p) = false) ∧ (d.unitKept (engUnit k p) = false) ∧ (d.unitHeld (engUnit k c.spare) = false)) ∧
    (∃ d : Dev, ∃ k : Nat, ∃ p : Nat, (d.rst.held = false) ∧ (d.leap.clus.length = 24) ∧ (d.cluOut k = false) ∧ (d.diesOn = true) ∧ 
let c := d.clu k
(c.pcDue = some p) ∧ (c.pcSpare ≠ 3) ∧ ((d.unitSt (pcUnit k c.pcSpare)).testing = false) ∧ (p ∈ c.pc) ∧ (d.coreHeld (2 * k + c.pc.idxOf p) = false) ∧ (d.unitHeld (pcUnit k p) = false) ∧ (d.unitKept (pcUnit k p) = false) ∧ (d.unitHeld (pcUnit k c.pcSpare) = false)) ∧
    (∃ d : Dev, ∃ k : Nat, (d.rst.held = false) ∧ (d.leap.clus.length = 24) ∧ (d.cluOut k = false) ∧ 
let c := d.clu k
(c.seqActive ∈ c.seqFenced) ∧ (1 - c.seqActive ∉ c.seqFenced) ∧ (d.coll.ready = true)) ∧
    (∃ d : Dev, ∃ k : Nat, (d.rst.held = false) ∧ (d.leap.clus.length = 24) ∧ (d.cluOut k = false) ∧ 
let c := d.clu k
(c.seqActive ∉ c.seqFenced) ∧ (1 - c.seqActive ∉ c.seqFenced) ∧ (d.codeTurn k = true)) ∧
    (∃ d : Dev, ∃ k : Nat, (d.rst.held = false) ∧ (d.leap.clus.length = 24) ∧ (d.cluOut k = false) ∧ 
let c := d.clu k
(c.seqActive ∉ c.seqFenced) ∧ (d.codeTurn k = false)) ∧
    (∃ d : Dev, ∃ k : Nat, ∃ p : Nat, ∃ j : Nat, (d.rst.held = false) ∧ (d.leap.clus.length = 24) ∧ (d.cluOut k = false) ∧ (d.diesOn = true) ∧ ((d.clu k).loanAsk = some p) ∧ (p ∈ (d.clu k).le) ∧ ((d.clu k).loan = none) ∧ (d.leHeld (4 * k + (d.clu k).le.idxOf p) = false) ∧ ((d.unitSt (engUnit k p)).slicing = false) ∧ (d.unitKept (engUnit k p) = false) ∧ (d.lender k = some j)) ∧
    (∃ d : Dev, ∃ k : Nat, ∃ t : Nat, ∃ l : Loan, (d.rst.held = false) ∧ (d.leap.clus.length = 24) ∧ (d.diesOn = true) ∧ ((d.clu k).loan = some l) ∧ (l.tested.isSome = true) ∧ (l.began + d.rotNs ≤ t) ∧ (d.leHeld (4 * k + l.le) = false) ∧ 
let j := k / 4 * 4 + l.lender
(j ≠ k) ∧ (j < 24) ∧ (d.unitKept (engUnit j l.phys) = false)) ∧
    (∃ c : Clu, (c.spare = 7 ∨ 7 ∉ c.le)) ∧
    (∃ c : Clu, (c.spare ≠ 7) ∧ (7 ∈ c.le)) :=
  ⟨⟨d0, 0, 2000000000, by decide +kernel⟩,
    ⟨d0, 0, 2000000000, by decide +kernel⟩,
    ⟨dUnit (fun s => { s with lastPass := 5 }), fun u => u, [2, 0, 1], 1, by decide +kernel⟩,
    ⟨dUnit (fun s => { s with lastPass := 5 }), fun u => u, [2, 0, 1], 1, 0, by decide +kernel⟩,
    ⟨dClu (fun c => { c with engDue := some 2 }), 0, 2, by decide +kernel⟩,
    ⟨dClu (fun c => { c with pcDue := some 1 }), 0, 1, by decide +kernel⟩,
    ⟨dClu (fun c => { c with seqFenced := [0] }), 0, by decide +kernel⟩,
    ⟨{ d0 with leap := { d0.leap with oldCode := [seqUnit 0 0] } }, 0, by decide +kernel⟩,
    ⟨d0, 0, by decide +kernel⟩,
    ⟨dClu (fun c => { c with loanAsk := some 1, spare := 7 }), 0, 1, 1, by decide +kernel⟩,
    ⟨(dClu (fun c => { c with loan := some loanA })).modClu 1 (fun c => { c with lent := true }), 0, 2000000000, loanA, by decide +kernel⟩,
    ⟨cluReset, by decide +kernel⟩,
    ⟨{ cluReset with le := [0, 7, 2, 3] }, by decide +kernel⟩⟩

theorem test_EmberTestsAndWear :
    (∃ d : Dev, ∃ unit : Nat, (d.rst.held = false) ∧ (d.diesOn = true) ∧ ((d.unitSt unit).testing = true)) ∧
    (∃ d : Dev, ∃ unit : Nat, ∃ pass : Bool, ∃ rows : List Nat, (d.rst.held = false) ∧ (d.diesOn = true) ∧ (d.leap.clus.length = 24) ∧ (d.unitExists unit = true) ∧ (unitKind unit ≤ 1 ∨ unitKind unit = 6 ∧ d.attnOk (unitRegion unit) = true) ∧ (d.coll.ready = true) ∧ (pass = false ∨ rows ≠ []) ∧ ((d.unitSt unit).testing = true)) ∧
    (∃ d : Dev, ∃ unit : Nat, ∃ pass : Bool, ∃ rows : List Nat, (d.rst.held = false) ∧ (d.diesOn = true) ∧ (d.leap.clus.length = 24) ∧ (d.unitExists unit = true) ∧ (unitKind unit ≤ 1 ∨ unitKind unit = 6 ∧ d.attnOk (unitRegion unit) = true) ∧ (d.coll.ready = true) ∧ (pass = false ∨ rows ≠ []) ∧ ((d.unitSt unit).slicing = true)) ∧
    (∃ d : Dev, ∃ unit : Nat, ∃ t : Nat, (d.rst.held = false) ∧ ((d.at_ t).mayslice unit = true)) ∧
    (∃ d : Dev, ∃ unit : Nat, ∃ t : Nat, (d.rst.held = false) ∧ ((d.at_ t).mayslice unit = false)) ∧
    (∃ d : Dev, ∃ unit : Nat, (d.rst.held = false) ∧ (d.diesOn = true) ∧ ((d.unitSt unit).slicing = true) ∧ ((d.unitSt unit).slices + d.sliceCycles unit < testCycles unit)) ∧
    (∃ d : Dev, ∃ unit : Nat, (d.rst.held = false) ∧ (d.diesOn = true) ∧ ((d.unitSt unit).slicing = true) ∧ (testCycles unit ≤ (d.unitSt unit).slices + d.sliceCycles unit)) ∧
    (∃ d : Dev, ∃ unit : Nat, ∃ t : Nat, (d.rst.held = false) ∧ (d.unitExists unit = true) ∧ (unitKind unit ∈ [0, 1, 6]) ∧ (d.unitState unit ≠ 3) ∧ (d.coll.ready = true) ∧ ((maskHas (d.coll.src 0x086).minor 2 = false ∧ maskHas (d.coll.src 0x086).severe 2 = false)) ∧ 
let x := t - (d.unitSt unit).lastPass
(x % d.intervalNs = 0) ∧ ((d.unitSt unit).deferred < x)) ∧
    (∃ d : Dev, ∃ k : Nat, ∃ t : Nat, (d.rst.held = false) ∧ (d.leap.clus.length = 24) ∧ (d.cluOut k = false) ∧ (d.diesOn = true) ∧ (1 - (d.clu k).seqActive ∉ (d.clu k).seqFenced) ∧ ((d.clu k).seqTest + 100000000 ≤ t) ∧ (d.coll.ready = true)) ∧
    (∃ d : Dev, ∃ k : Nat, ∃ t : Nat, (d.rst.held = false) ∧ (d.leap.clus.length = 24) ∧ (d.cluOut k = false) ∧ (d.diesOn = true) ∧ (1 - (d.clu k).seqActive ∉ (d.clu k).seqFenced) ∧ ((d.clu k).seqTest + 100000000 ≤ t) ∧ (d.coll.ready = true)) ∧
    (∃ d : Dev, ∃ t : Nat, (d.rst.held = false) ∧ (d.safe.standby = true) ∧ (d.safe.pairTest + d.intervalNs ≤ t) ∧ (d.coll.ready = true)) ∧
    (∃ d : Dev, ∃ t : Nat, (d.rst.held = false) ∧ (d.safe.standby = true) ∧ (d.safe.pairTest + d.intervalNs ≤ t) ∧ (d.coll.ready = true)) ∧
    (∃ d : Dev, ∃ t : Nat, (d.rst.held = false) ∧ (d.leap.wornAt + 3600000000000 ≤ t)) ∧
    (∃ d : Dev, ∃ who : Who, (d.rst.held = false) ∧ (who = .pf ∨ who = .computus)) :=
  ⟨⟨dUnit (fun s => { s with testing := true, slices := 7 }), engUnit 0 0, by decide +kernel⟩,
    ⟨dUnit (fun s => { s with testing := true }), engUnit 0 0, true, [64], by decide +kernel⟩,
    ⟨dUnit (fun s => { s with slicing := true }), engUnit 0 0, false, [], by decide +kernel⟩,
    ⟨dNoSpareE, engUnit 0 0, 5, by decide +kernel⟩,
    ⟨d0, engUnit 0 0, 2000000000, by decide +kernel⟩,
    ⟨dUnit (fun s => { s with slicing := true }), engUnit 0 0, by decide +kernel⟩,
    ⟨dUnit (fun s => { s with slicing := true, slices := 239999 }), engUnit 0 0, by decide +kernel⟩,
    ⟨d0, engUnit 0 0, d0.intervalNs, by decide +kernel⟩,
    ⟨d0, 0, 2000000000, by decide +kernel⟩,
    ⟨d0, 0, 2000000000, by decide +kernel⟩,
    ⟨d0, 2000000000, by decide +kernel⟩,
    ⟨d0, 2000000000, by decide +kernel⟩,
    ⟨d0, 3600000000000, by decide +kernel⟩,
    ⟨d0, Who.pf, by decide +kernel⟩⟩

/-! ## octave -/

def tdA (base space : Nat) : TDesc := ⟨base, 1, 0, space, false, 0, true, 0, 0, [4, 2, 1, 1], [8, 16, 16], 0⟩
def pcA : Piece := ⟨0, ⟨tdA 0x40 0, 0x40, []⟩, ⟨tdA 0x20000 1, 0x20000, []⟩⟩
/-- A piece whose destination is window 0x10000000000, the first local map entry. -/
def pcW : Piece := ⟨0, ⟨tdA 0x80 0, 0x80, []⟩, ⟨tdA 0x10000000000 1, 0x10000000000, []⟩⟩
def mapA : MapEnt := ⟨true, 0, 1, 3, 9, 16⟩
def rPub : Run := { rEx with
  phase := .accepted, pieces := [pcA, pcW], maps := [(0, mapA)], signals := [(4, 2)],
  recs := [(1, ⟨[pcA, pcW], [[[1, 2, 3, 4], [5, 6, 7, 8]], [[0, 0, 0, 0], [0, 0, 0, 0]]], [8, 8], [(4, 2)], 0, false, true⟩)] }
/-- Port 0 leads to package 1 in a ring of three. -/
def lgUp (d : Dev) : Dev := Dev.set (Dev.set d F.LNK_TOPO.SIZE_X 2) (F.LNK_PORT_STAT.STATE 0) 2
def dPub (r : Run) : Dev := Dev.wrSram { lgUp (dMod [8] [] r) with flags := [(4, 5)] } ⟨0, 0x40⟩ [1, 2, 3, 4, 9, 9, 9, 9, 5, 6, 7, 8]
def remA : Remote := ⟨1, 3, 9, 0, 0, [1, 2], 77, 0, 0, false⟩
def rCom (x : Remote) : Run := { rEx with phase := .commit, remotes := [x], signals := [(4, 2)] }
def recO (c : Bool) : RunRec := ⟨[pcA], [[[1, 2, 3, 4], [5, 6, 7, 8]]], [8], [(4, 2)], 0, false, c⟩
def recB (c : Bool) : RunRec := { recO c with flags := 1 }
def rStage (p : RunPhase) (l : List (Nat × RunRec)) : Run := { rEx with phase := p, pieces := [pcA], recs := l, safety := true, octave := true, signals := [(4, 2)] }
/-- Slots A and B of partition 0 stand at device address 0x2000000. -/
def dStage (r : Run) : Dev :=
  ((Dev.set (dPub r) (F.SAF_OCT_HOLD.ADDR 0) 1).wrHbm 0x2000000 [1, 2, 3, 4, 5, 6, 7, 8]).wrHbm 0x3000000 [1, 2, 3, 4, 5, 6, 7, 9]
def mdA : Module := mdOf [8] []
def enA : Entry := ⟨0, 1, 1, false, 0, 4, false, 0, 0, 0⟩
/-- Another command holds the engine that command 3 would take next. -/
def taken (d : Dev) : Dev := { d with runs := d.runs ++ [(4, { rEx with ctx := 6 })] }
def noSpare (d : Dev) : Dev := d.modClu 0 (fun c => { c with spare := 7 })

theorem test_CommandsCommit :
    (∃ d : Dev, ∃ run : Nat, ∃ r : Run, (d.rst.held = false) ∧ (mfind d.runs run = some r) ∧ (r.phase = .accepted) ∧ ((∀ i, i < r.ordered.length → d.pieceStop r [] i = none))) ∧
    (∃ d : Dev, ∃ run : Nat, ∃ r : Run, ∃ w : MemErr, (d.rst.held = false) ∧ (mfind d.runs run = some r) ∧ (r.phase = .accepted) ∧ (w.hbm = false) ∧ (w.correctable = false) ∧ (keyUnit w.addr ≠ hubMem) ∧ ((maskHas (d.coll.src 0x001).minor 2 = false ∧ maskHas (d.coll.src 0x001).severe 2 = false)) ∧ (d.commitSlices r ≠ []) ∧ ((∀ x ∈ d.commitSlices r, x.1 < r.ordered.length ∧ errIn (d.pieceTouched r x.1) w = true))) ∧
    (∃ d : Dev, ∃ run : Nat, ∃ i : Nat, ∃ r : Run, ∃ x : Remote, (d.rst.held = false) ∧ (mfind d.runs run = some r) ∧ (r.phase = .commit) ∧ (r.remotes[i]? = some x) ∧ (x.settled = false)) ∧
    (∃ d : Dev, ∃ run : Nat, ∃ i : Nat, ∃ r : Run, ∃ x : Remote, (d.rst.held = false) ∧ (mfind d.runs run = some r) ∧ (r.phase = .commit) ∧ (r.remotes[i]? = some x) ∧ (x.settled = false)) ∧
    (∃ d : Dev, ∃ run : Nat, ∃ i : Nat, ∃ r : Run, ∃ x : Remote, (d.rst.held = false) ∧ (mfind d.runs run = some r) ∧ (r.phase = .commit) ∧ (r.remotes[i]? = some x) ∧ (x.settled = false) ∧ (x.tries = 0) ∧ (x.bytes ≠ []) ∧ ((d.route x.pkg).isSome = true)) ∧
    (∃ d : Dev, ∃ run : Nat, ∃ i : Nat, ∃ r : Run, ∃ x : Remote, (d.rst.held = false) ∧ (mfind d.runs run = some r) ∧ (r.phase = .commit) ∧ (r.remotes[i]? = some x) ∧ (x.settled = false) ∧ (d.coll.ready = true) ∧ (masterKnown r.gang0 = true)) ∧
    (∃ d : Dev, ∃ run : Nat, ∃ r : Run, (d.rst.held = false) ∧ (mfind d.runs run = some r) ∧ (r.phase = .commit) ∧ (r.remotes.all (fun x => x.settled) = true) ∧ (run < d.nextRun) ∧ (r.remotes.all (fun x => x.st == 0) = true) ∧ (keysRise r.signals = true)) ∧
    (∃ d : Dev, ∃ run : Nat, ∃ r : Run, ∃ x : Remote, (d.rst.held = false) ∧ (mfind d.runs run = some r) ∧ (r.phase = .commit) ∧ (r.remotes.all (fun x => x.settled) = true) ∧ (run < d.nextRun) ∧ (r.remotes.find? (fun x => x.st != 0) = some x)) :=
  ⟨⟨dPub rPub, 3, rPub, by decide +kernel⟩,
    ⟨dPub { rPub with pieces := [pcA], recs := [(1, recO true)] }, 3, { rPub with pieces := [pcA], recs := [(1, recO true)] }, ⟨false, 0x42, false⟩, by decide +kernel⟩,
    ⟨dPub (rCom remA), 3, 0, rCom remA, remA, by decide +kernel⟩,
    ⟨dPub (rCom remA), 3, 0, rCom remA, remA, by decide +kernel⟩,
    ⟨dPub (rCom remA), 3, 0, rCom remA, remA, by decide +kernel⟩,
    ⟨dPub (rCom remA), 3, 0, rCom remA, remA, by decide +kernel⟩,
    ⟨dPub (rCom { remA with settled := true }), 3, rCom { remA with settled := true }, by decide +kernel⟩,
    ⟨dPub (rCom { remA with settled := true, st := stStale }), 3, rCom { remA with settled := true, st := stStale }, { remA with settled := true, st := stStale }, by decide +kernel⟩⟩

theorem test_OctaveRunsAndVerdicts :
    (∃ d : Dev, ∃ run : Nat, ∃ r : Run, ∃ m : Module, ∃ en : Entry, (d.rst.held = false) ∧ (mfind d.runs run = some r) ∧ (r.phase = .hold) ∧ (d.runEntry r = some (m, en)) ∧ 
let es := Dev.octBind 4 (fun k => if (d.clu k).spare = 7 ∨ (d.clu k).lent then none else some (engUnit k (d.clu k).spare))
      (r.members.map (fun m => (m.le, m.phys)))

let ps := Dev.octBind 2 (fun k => if (d.clu k).pcSpare = 3 then none else some (pcUnit k (d.clu k).pcSpare)) r.prep
((es.2.2 ++ ps.2.2).any d.unitHeld = false) ∧ (es.2.1 ++ ps.2.1 = [])) ∧
    (∃ d : Dev, ∃ run : Nat, ∃ r : Run, ∃ m : Module, ∃ en : Entry, ∃ u : Nat, (d.rst.held = false) ∧ (mfind d.runs run = some r) ∧ (r.phase = .hold) ∧ (d.runEntry r = some (m, en)) ∧ 
let es := Dev.octBind 4 (fun k => if (d.clu k).spare = 7 ∨ (d.clu k).lent then none else some (engUnit k (d.clu k).spare))
      (r.members.map (fun m => (m.le, m.phys)))

let ps := Dev.octBind 2 (fun k => if (d.clu k).pcSpare = 3 then none else some (pcUnit k (d.clu k).pcSpare)) r.prep
((es.2.2 ++ ps.2.2).any d.unitHeld = false) ∧ (es.2.1 ++ ps.2.1 = [u]) ∧ (d.coll.ready = true) ∧ (masterKnown u = true)) ∧
    (∃ d : Dev, ∃ run : Nat, ∃ r : Run, ∃ a : RunRec, ∃ b : RunRec, (d.rst.held = false) ∧ (mfind d.runs run = some r) ∧ (r.phase = .compare) ∧ (mfind r.recs 1 = some a) ∧ (mfind r.recs 2 = some b) ∧ (d.slotPoison r.part false a.lens = none) ∧ (agree a b (d.rdSlot r.part false a.lens) b.bytes = true)) ∧
    (∃ d : Dev, ∃ run : Nat, ∃ r : Run, ∃ a : RunRec, ∃ b : RunRec, (d.rst.held = false) ∧ (mfind d.runs run = some r) ∧ (r.phase = .compare) ∧ (mfind r.recs 1 = some a) ∧ (mfind r.recs 2 = some b) ∧ (d.slotPoison r.part false a.lens = none) ∧ (agree a b (d.rdSlot r.part false a.lens) b.bytes = false) ∧ (d.coll.ready = true) ∧ ((maskHas (d.coll.src 0x041).minor 2 = false ∧ maskHas (d.coll.src 0x041).severe 2 = false)) ∧ (masterKnown ((mget [] r.runPhys 2).headD 0) = true)) ∧
    (∃ d : Dev, ∃ run : Nat, ∃ r : Run, (d.rst.held = false) ∧ (mfind d.runs run = some r) ∧ (r.phase = .slotB)) ∧
    (∃ d : Dev, ∃ run : Nat, ∃ r : Run, ∃ m : Module, ∃ en : Entry, (d.rst.held = false) ∧ (mfind d.runs run = some r) ∧ (r.phase = .troy) ∧ (d.bound r = true) ∧ (d.runEntry r = some (m, en)) ∧ (d.freeFor run r = false)) ∧
    (∃ d : Dev, ∃ run : Nat, ∃ r : Run, ∃ m : Module, ∃ en : Entry, (d.rst.held = false) ∧ (mfind d.runs run = some r) ∧ (r.phase = .troy) ∧ (d.bound r = true) ∧ (d.runEntry r = some (m, en)) ∧ (d.freeFor run r = true)) ∧
    (∃ d : Dev, ∃ run : Nat, ∃ r : Run, (d.rst.held = false) ∧ (mfind d.runs run = some r) ∧ (r.phase = .final) ∧ (run < d.nextRun) ∧ (r.part < 16) ∧ (r.ctx < 4096) ∧ (r.task < 1024) ∧ ((maskHas (d.coll.src 0x041).minor 2 = false ∧ maskHas (d.coll.src 0x041).severe 2 = false)) ∧ ((maskHas (d.coll.src 0x042).minor 2 = false ∧ maskHas (d.coll.src 0x042).severe 2 = false)) ∧ 
let r1 := mfind r.recs 1

let r2 := mfind r.recs 2

let r3 := mfind r.recs 3

let lens := lensOf

let clean := fun (x : Option RunRec) => (x.map RunRec.clean).getD false

let b1 := d.rdSlot r.part false (lens r1)

let b2 := d.rdSlot r.part true (lens r2)

let b3 := (r3.map RunRec.bytes).getD []

let a12 := r.agree12.getD (agreeOpt r1 r2 b1 b2)

let v := verdictOf a12 (agreeOpt r3 r1 b3 b1) (agreeOpt r3 r2 b3 b2) (clean r1) (clean r2) (clean r3)
(d.slotPoison r.part false (lens r1) = none) ∧ (d.slotPoison r.part true (lens r2) = none) ∧ (v.code = 5)) ∧
    (∃ d : Dev, ∃ run : Nat, ∃ r : Run, ∃ c : RunRec, (d.rst.held = false) ∧ (mfind d.runs run = some r) ∧ (r.phase = .final) ∧ (run < d.nextRun) ∧ (r.part < 16) ∧ (r.ctx < 4096) ∧ (r.task < 1024) ∧ ((maskHas (d.coll.src 0x041).minor 2 = false ∧ maskHas (d.coll.src 0x041).severe 2 = false)) ∧ ((maskHas (d.coll.src 0x042).minor 2 = false ∧ maskHas (d.coll.src 0x042).severe 2 = false)) ∧ 
let r1 := mfind r.recs 1

let r2 := mfind r.recs 2

let r3 := mfind r.recs 3

let lens := lensOf

let clean := fun (x : Option RunRec) => (x.map RunRec.clean).getD false

let b1 := d.rdSlot r.part false (lens r1)

let b2 := d.rdSlot r.part true (lens r2)

let b3 := (r3.map RunRec.bytes).getD []

let a12 := r.agree12.getD (agreeOpt r1 r2 b1 b2)

let v := verdictOf a12 (agreeOpt r3 r1 b3 b1) (agreeOpt r3 r2 b3 b2) (clean r1) (clean r2) (clean r3)
(d.slotPoison r.part false (lens r1) = none) ∧ (d.slotPoison r.part true (lens r2) = none) ∧ (v.code ≠ 5) ∧ (mfind r.recs v.run = some c)) ∧
    (∃ d : Dev, ∃ run : Nat, ∃ r : Run, (d.rst.held = false) ∧ (mfind d.runs run = some r) ∧ (r.phase = .hold)) ∧
    (∃ d : Dev, ∃ run : Nat, ∃ r : Run, (d.rst.held = false) ∧ (mfind d.runs run = some r) ∧ (r.phase = .compare)) ∧
    (∃ d : Dev, ∃ run : Nat, ∃ r : Run, (d.rst.held = false) ∧ (mfind d.runs run = some r) ∧ (r.phase = .slotB)) ∧
    (∃ d : Dev, ∃ run : Nat, ∃ r : Run, (d.rst.held = false) ∧ (mfind d.runs run = some r) ∧ (r.phase = .final)) ∧
    (∃ a12 : Bool, ∃ a13 : Bool, ∃ a23 : Bool, ∃ c1 : Bool, ∃ c2 : Bool, ∃ c3 : Bool, let v := verdictOf a12 a13 a23 c1 c2 c3
(v.code = 4)) ∧
    (∃ c1 : Bool, ∃ c2 : Bool, ∃ c3 : Bool, (c1 = false) ∧ (c2 = false) ∧ (c3 = false)) :=
  ⟨⟨dStage (rStage .hold [(1, recO true)]), 3, rStage .hold [(1, recO true)], mdA, enA, by decide +kernel⟩,
    ⟨noSpare (dStage (rStage .hold [(1, recO true)])), 3, rStage .hold [(1, recO true)], mdA, enA, 0, by decide +kernel⟩,
    ⟨dStage (rStage .compare [(1, recO true), (2, recO true)]), 3, rStage .compare [(1, recO true), (2, recO true)], recO true, recO true, by decide +kernel⟩,
    ⟨dStage (rStage .compare [(1, recO true), (2, recB true)]), 3, rStage .compare [(1, recO true), (2, recB true)], recO true, recB true, by decide +kernel⟩,
    ⟨dStage (rStage .slotB []), 3, rStage .slotB [], by decide +kernel⟩,
    ⟨taken (dStage (rStage .troy [])), 3, rStage .troy [], mdA, enA, by decide +kernel⟩,
    ⟨dStage (rStage .troy []), 3, rStage .troy [], mdA, enA, by decide +kernel⟩,
    ⟨dStage (rStage RunPhase.final [(1, recO true), (2, recB true), (3, { recO true with flags := 2 })]), 3, rStage RunPhase.final [(1, recO true), (2, recB true), (3, { recO true with flags := 2 })], by decide +kernel⟩,
    ⟨dStage (rStage RunPhase.final [(1, recO true), (2, recB true), (3, recO true)]), 3, rStage RunPhase.final [(1, recO true), (2, recB true), (3, recO true)], recO true, by decide +kernel⟩,
    ⟨dStage (rStage .hold [(1, recO true)]), 3, rStage .hold [(1, recO true)], by decide +kernel⟩,
    ⟨dStage (rStage .compare [(1, recO true), (2, recO true)]), 3, rStage .compare [(1, recO true), (2, recO true)], by decide +kernel⟩,
    ⟨dStage (rStage .slotB []), 3, rStage .slotB [], by decide +kernel⟩,
    ⟨dStage (rStage RunPhase.final [(1, recO true), (2, recB true), (3, recO true)]), 3, rStage RunPhase.final [(1, recO true), (2, recB true), (3, recO true)], by decide +kernel⟩,
    ⟨false, false, false, true, false, false, by decide +kernel⟩,
    ⟨false, false, false, by decide +kernel⟩⟩

/-! ## league -/

def bSpan (sub win : Nat) (a size arg : Nat) : List Nat := desc ([9, 0, 0, 0, 0, 0, 0, 0] ++ leBytes 8 0x77 ++ [sub, 0, 0, 0] ++ leBytes 4 win ++ leBytes 8 a ++ leBytes 4 size ++ leBytes 8 arg)
/-- Function 0 owns 1 GiB of HBM and 8 hardware flags from flag 32 on; the package is number 0 of a ring of 3 in X. -/
def dLg (d : Dev) : Dev :=
  Dev.set (Dev.set (Dev.set (Dev.set d (F.MEM_PART_RANGE.SIZE 0) 16) (F.HIF_PF_FN_FLAGS.COUNT 0) 8) (F.HIF_PF_FN_FLAGS.BASE 0) 32) F.LNK_TOPO.SIZE_X 2
/-- Port 0 is up. -/
def dUp : Dev := Dev.set (dLg d0) (F.LNK_PORT_STAT.STATE 0) 2
def dSpan (b : List Nat) (st : CmdSt) : Dev := Dev.set (dLg (dHead b st)) (F.LNK_PORT_STAT.STATE 0) 2
def bOpen : List Nat := bSpan 0 7 0x10000 (16 + 64 + 3 * 128 + 2 ^ 21) 0
/-- Window 7 is open to every sender, read and write, at 0x10000, with flag 3, in epoch 9. -/
def winA : Window := ⟨true, 0, 5, 0x10000, 16, true, true, 3, true, 0, 9⟩
def dWinA (d : Dev) : Dev := d.setWindow 7 winA
def dMapA (d : Dev) : Dev := d.setMap 2 ⟨true, 0, 1, 3, 9, 16⟩
def dFlag32 (d : Dev) : Dev := { d with flags := [(35, 8)] }
def dPort (s : Nat) : Dev := Dev.set (dLg d0) (F.LNK_PORT_STAT.STATE 0) s
/-- Port 0 has had `n` failures in succession, and two flits wait for their acknowledgement. -/
def dFlit (n : Nat) : Dev := { dUp with lnk := { dUp.lnk with rxFails := dUp.lnk.rxFails.set 0 n, txBuf := dUp.lnk.txBuf.set 0 [(3, .mirrorAck 1, 0), (5, .mirrorAck 1, 0)] } }
def dGrp (leader : Nat) : Dev := Dev.set (Dev.set (Dev.set (Dev.set dUp F.LNK_GROUP.EN 1) F.LNK_GROUP.LEADER leader) F.LNK_GROUP_MEM.VALID 1) F.LNK_GROUP_MEM.PKG 1
def pullB (n : Nat) : List Nat := bSpan 4 2 0x20000 n 64

theorem test_SpanWindowsAndMaps :
    (∃ d : Dev, ∃ fn : Nat, ∃ ctx : Nat, ∃ b : List Nat, (d.rst.held = false) ∧ (fn < 16) ∧ (ctx < 4096) ∧ (d.headSub (ckey fn ctx) 9 0 = some b) ∧ 
let size := bfield b 32 4
(16 ≤ bits size 4 0) ∧ (bits size 4 0 ≤ 30) ∧ ((d.window (bfield b 20 4)).opened = false) ∧ (d.inPart fn (bfield b 24 8) (2 ^ bits size 4 0) = true) ∧ ((d.hwFlag fn (bits size 20 7)).isSome = true)) ∧
    (∃ d : Dev, ∃ fn : Nat, ∃ ctx : Nat, ∃ b : List Nat, (d.rst.held = false) ∧ (fn < 16) ∧ (ctx < 4096) ∧ (d.headSub (ckey fn ctx) 9 1 = some b) ∧ ((d.window (bfield b 20 4)).opened = true) ∧ ((d.window (bfield b 20 4)).part = fn)) ∧
    (∃ d : Dev, ∃ fn : Nat, ∃ ctx : Nat, ∃ b : List Nat, (d.rst.held = false) ∧ (fn < 16) ∧ (ctx < 4096) ∧ (d.headSub (ckey fn ctx) 9 2 = some b) ∧ ((d.window (bfield b 20 4)).opened = true) ∧ ((d.window (bfield b 20 4)).part = fn)) ∧
    (∃ d : Dev, ∃ fn : Nat, ∃ ctx : Nat, ∃ b : List Nat, (d.rst.held = false) ∧ (fn < 16) ∧ (ctx < 4096) ∧ (d.headSub (ckey fn ctx) 9 3 = some b) ∧ ((d.mapEnt (bfield b 20 4)).set_ = false ∨ (d.mapEnt (bfield b 20 4)).part = fn) ∧ 
let arg := bfield b 36 8
(bits arg 45 41 = 0 ∨ 16 ≤ bits arg 45 41 ∧ bits arg 45 41 ≤ 30)) :=
  ⟨⟨dSpan bOpen .fetched, 0, 5, bOpen, by decide +kernel⟩,
    ⟨dWinA (dSpan (bSpan 1 7 0 0 0) .fetched), 0, 5, bSpan 1 7 0 0 0, by decide +kernel⟩,
    ⟨dWinA (dSpan (bSpan 2 7 0 0 0) .fetched), 0, 5, bSpan 2 7 0 0 0, by decide +kernel⟩,
    ⟨dSpan (bSpan 3 2 0 0 (1 + 3 * 2 ^ 15 + 9 * 2 ^ 25 + 30 * 2 ^ 41)) .fetched, 0, 5, bSpan 3 2 0 0 (1 + 3 * 2 ^ 15 + 9 * 2 ^ 25 + 30 * 2 ^ 41), by decide +kernel⟩⟩

theorem test_PullsReadRemoteWindows :
    (∃ d : Dev, ∃ fn : Nat, ∃ ctx : Nat, ∃ b : List Nat, (d.rst.held = false) ∧ (fn < 16) ∧ (ctx < 4096) ∧ (d.headSub (ckey fn ctx) 9 4 = some b) ∧ 
let m := d.mapEnt (bfield b 20 4)
(m.set_ = true) ∧ (m.part = fn) ∧ (bfield b 32 4 ≠ 0) ∧ ((d.route m.pkg).isSome = true)) ∧
    (∃ d : Dev, ∃ fn : Nat, ∃ ctx : Nat, ∃ b : List Nat, (d.rst.held = false) ∧ (fn < 16) ∧ (ctx < 4096) ∧ (d.headSub (ckey fn ctx) 9 4 = some b) ∧ 
let m := d.mapEnt (bfield b 20 4)
(m.set_ = true) ∧ (m.part = fn) ∧ (bfield b 32 4 ≠ 0) ∧ (d.route m.pkg = none)) ∧
    (∃ d : Dev, ∃ fn : Nat, ∃ ctx : Nat, ∃ status : Nat, ∃ k : RingCmd, (d.rst.held = false) ∧ (d.head (ckey fn ctx) = some k) ∧ (k.st = .pulling) ∧ (status = 0)) ∧
    (∃ d : Dev, ∃ fn : Nat, ∃ ctx : Nat, ∃ status : Nat, ∃ k : RingCmd, (d.rst.held = false) ∧ (d.head (ckey fn ctx) = some k) ∧ (k.st = .pulling) ∧ (status ≠ 0)) ∧
    (∃ d : Dev, ∃ p : Nat, ∃ sender : Nat, ∃ win : Nat, ∃ epoch : Nat, ∃ off : Nat, ∃ len : Nat, (d.rst.held = false) ∧ (d.portLive p = true) ∧ 
let w := d.window win

let open_ := w.rw = true ∧ w.admits sender = true ∧ off + len ≤ 2 ^ w.log2
(open_) ∧ (w.epoch = epoch) ∧ (d.poisonIn (w.addr + off) len = [])) ∧
    (∃ d : Dev, ∃ p : Nat, ∃ sender : Nat, ∃ win : Nat, ∃ epoch : Nat, ∃ off : Nat, ∃ len : Nat, ∃ g : Nat, ∃ l : List Nat, (d.rst.held = false) ∧ (d.portLive p = true) ∧ 
let w := d.window win

let open_ := w.rw = true ∧ w.admits sender = true ∧ off + len ≤ 2 ^ w.log2
((d.route sender).isSome = true) ∧ (open_) ∧ (w.epoch = epoch) ∧ (d.poisonIn (w.addr + off) len = g :: l) ∧ (d.coll.ready = true)) ∧
    (∃ d : Dev, ∃ p : Nat, ∃ sender : Nat, ∃ win : Nat, ∃ epoch : Nat, ∃ off : Nat, ∃ len : Nat, (d.rst.held = false) ∧ (d.portLive p = true) ∧ 
let w := d.window win

let open_ := w.rw = true ∧ w.admits sender = true ∧ off + len ≤ 2 ^ w.log2
(open_) ∧ (w.epoch = epoch)) ∧
    (∃ d : Dev, ∃ p : Nat, ∃ sender : Nat, ∃ win : Nat, ∃ epoch : Nat, ∃ off : Nat, ∃ len : Nat, (d.rst.held = false) ∧ (d.portLive p = true) ∧ 
let w := d.window win

let open_ := w.rw = true ∧ w.admits sender = true ∧ off + len ≤ 2 ^ w.log2
(open_) ∧ (w.epoch ≠ epoch)) ∧
    (∃ d : Dev, ∃ p : Nat, ∃ sender : Nat, ∃ win : Nat, ∃ off : Nat, ∃ len : Nat, (d.rst.held = false) ∧ (d.portLive p = true) ∧ 
let w := d.window win

let open_ := w.rw = true ∧ w.admits sender = true ∧ off + len ≤ 2 ^ w.log2
(¬ open_)) :=
  ⟨⟨dMapA (dSpan (pullB 16) .fetched), 0, 5, pullB 16, by decide +kernel⟩,
    ⟨(dMapA (dSpan (pullB 16) .fetched)).set (F.LNK_PORT_STAT.STATE 0) 0, 0, 5, pullB 16, by decide +kernel⟩,
    ⟨dSpan (pullB 2) .pulling, 0, 5, 0, ⟨0, pullB 2, .pulling, rngA⟩, by decide +kernel⟩,
    ⟨dSpan (pullB 2) .pulling, 0, 5, stDenied, ⟨0, pullB 2, .pulling, rngA⟩, by decide +kernel⟩,
    ⟨dWinA dUp, 0, 1, 7, 9, 64, 16, by decide +kernel⟩,
    ⟨(dWinA dUp).setPoison [0x10040], 0, 1, 7, 9, 64, 16, 0x10040, [], by decide +kernel⟩,
    ⟨dWinA dUp, 0, 1, 7, 9, 64, 16, by decide +kernel⟩,
    ⟨dWinA dUp, 0, 1, 7, 8, 64, 16, by decide +kernel⟩,
    ⟨dWinA dUp, 0, 1, 7, 65535, 16, by decide +kernel⟩⟩

theorem test_PiecesAreWrittenOrRefused :
    (∃ d : Dev, ∃ p : Nat, ∃ sender : Nat, ∃ seq : Nat, ∃ win : Nat, ∃ epoch : Nat, ∃ off : Nat, ∃ crc : Nat, ∃ bytes : List Nat, (d.rst.held = false) ∧ (d.portLive p = true) ∧ (d.seen sender seq = false) ∧ ((d.route sender).isSome = true) ∧ 
let w := d.window win
(crc64 bytes = crc) ∧ (w.admits sender = true) ∧ (off + bytes.length ≤ 2 ^ w.log2) ∧ (w.epoch = epoch) ∧ (d.poisonIn (w.addr + off) bytes.length = []) ∧ (d.stackLost (w.addr + off) = false)) ∧
    (∃ d : Dev, ∃ p : Nat, ∃ sender : Nat, ∃ seq : Nat, ∃ crc : Nat, ∃ again : Bool, ∃ bytes : List Nat, (d.rst.held = false) ∧ (d.portLive p = true) ∧ (d.seen sender seq = false) ∧ ((d.route sender).isSome = true) ∧ (crc64 bytes ≠ crc) ∧ (again = false)) ∧
    (∃ d : Dev, ∃ p : Nat, ∃ sender : Nat, ∃ seq : Nat, ∃ crc : Nat, ∃ again : Bool, ∃ bytes : List Nat, (d.rst.held = false) ∧ (d.portLive p = true) ∧ (d.seen sender seq = false) ∧ ((d.route sender).isSome = true) ∧ (crc64 bytes ≠ crc) ∧ (again = true) ∧ (d.coll.ready = true) ∧ (p < 6)) ∧
    (∃ d : Dev, ∃ p : Nat, ∃ sender : Nat, ∃ seq : Nat, ∃ win : Nat, ∃ off : Nat, ∃ crc : Nat, ∃ bytes : List Nat, (d.rst.held = false) ∧ (d.portLive p = true) ∧ (d.seen sender seq = false) ∧ ((d.route sender).isSome = true) ∧ 
let w := d.window win
(crc64 bytes = crc) ∧ (w.admits sender = false ∨ 2 ^ w.log2 < off + bytes.length)) ∧
    (∃ d : Dev, ∃ p : Nat, ∃ sender : Nat, ∃ seq : Nat, ∃ win : Nat, ∃ epoch : Nat, ∃ off : Nat, ∃ crc : Nat, ∃ bytes : List Nat, (d.rst.held = false) ∧ (d.portLive p = true) ∧ (d.seen sender seq = false) ∧ ((d.route sender).isSome = true) ∧ 
let w := d.window win
(crc64 bytes = crc) ∧ (w.admits sender = true) ∧ (off + bytes.length ≤ 2 ^ w.log2) ∧ (w.epoch ≠ epoch) ∧ (d.coll.ready = true) ∧ (p < 6)) :=
  ⟨⟨dWinA dUp, 0, 1, 0, 7, 9, 64, crc64 [1, 2, 3], [1, 2, 3], by decide +kernel⟩,
    ⟨dWinA dUp, 0, 1, 0, 0, false, [1, 2, 3], by decide +kernel⟩,
    ⟨dWinA dUp, 0, 1, 0, 0, true, [1, 2, 3], by decide +kernel⟩,
    ⟨dWinA dUp, 0, 1, 0, 7, 65535, crc64 [1, 2, 3], [1, 2, 3], by decide +kernel⟩,
    ⟨dWinA dUp, 0, 1, 0, 7, 8, 64, crc64 [1, 2, 3], [1, 2, 3], by decide +kernel⟩⟩

theorem test_ArrivalMarksRaiseTheFlag :
    (∃ d : Dev, ∃ p : Nat, ∃ sender : Nat, ∃ seq : Nat, ∃ win : Nat, ∃ epoch : Nat, ∃ n : Nat, (d.rst.held = false) ∧ (d.portLive p = true) ∧ (d.seen sender seq = false) ∧ ((d.route sender).isSome = true) ∧ 
let w := d.window win
(w.admits sender = true) ∧ (w.epoch = epoch) ∧ (w.flagEn = true) ∧ (d.hwFlag w.part w.arrive = some n) ∧ (d.flag n < 0xFFFFFFFF)) :=
  ⟨dFlag32 (dWinA dUp), 0, 1, 0, 7, 9, 35, by decide +kernel⟩

theorem test_PortsTrainFailAndRecover :
    (∃ d : Dev, ∃ value : Nat, ∃ p : Nat, (d.rst.held = false) ∧ (d.full = true) ∧ (p < 6) ∧ (d.portWanted p = false) ∧ (bitOf value 6 = true) ∧ (bitOf value p = true) ∧ ((d.neighbour p).isSome = true)) ∧
    (∃ d : Dev, ∃ p : Nat, ∃ peer : Nat, (d.rst.held = false) ∧ (d.full = true) ∧ (p < 6) ∧ (d.f (F.LNK_PORT_STAT.STATE p) = 1) ∧ (d.neighbour p = some peer) ∧ (peer < 32768)) ∧
    (∃ d : Dev, ∃ p : Nat, ∃ peer : Nat, (d.rst.held = false) ∧ (d.full = true) ∧ (p < 6) ∧ (d.f (F.LNK_PORT_STAT.STATE p) = 1) ∧ (d.neighbour p ≠ some peer) ∧ (peer < 32768) ∧ (d.coll.ready = true)) ∧
    (∃ d : Dev, ∃ p : Nat, ∃ lane : Nat, (d.rst.held = false) ∧ (d.full = true) ∧ (p < 6) ∧ (lane < 4) ∧ (d.f (F.LNK_PORT_STAT.STATE p) ≠ 0) ∧ (d.f (F.LNK_PORT_STAT.LANE_FAIL p) = 0) ∧ (d.coll.ready = true)) ∧
    (∃ d : Dev, ∃ p : Nat, ∃ lane : Nat, (d.rst.held = false) ∧ (d.full = true) ∧ (p < 6) ∧ (lane < 5) ∧ (d.f (F.LNK_PORT_STAT.STATE p) ≠ 0) ∧ (d.f (F.LNK_PORT_STAT.LANE_FAIL p) ≠ 0) ∧ (maskHas (d.f (F.LNK_PORT_STAT.LANE_FAIL p)) lane = false) ∧ (d.coll.ready = true)) ∧
    (∃ d : Dev, ∃ p : Nat, ∃ f : Flit, (d.rst.held = false) ∧ (d.portLive p = true) ∧ (f.again = none) ∧ (f.seq = d.lnk.rxSeq.getD p 0) ∧ (f.dst = d.pkg)) ∧
    (∃ d : Dev, ∃ p : Nat, ∃ f : Flit, (d.rst.held = false) ∧ (d.portLive p = true) ∧ (f.again = none) ∧ (f.seq ≠ d.lnk.rxSeq.getD p 0)) ∧
    (∃ d : Dev, ∃ p : Nat, ∃ f : Flit, ∃ q : Nat, (d.rst.held = false) ∧ (d.portLive p = true) ∧ (f.again = none) ∧ (f.seq = d.lnk.rxSeq.getD p 0) ∧ (f.dst ≠ d.pkg) ∧ (d.route f.dst = some q)) ∧
    (∃ d : Dev, ∃ p : Nat, ∃ f : Flit, ∃ n : Nat, (d.rst.held = false) ∧ (d.portLive p = true) ∧ (f.again = some n) ∧ (f.seq ≠ d.lnk.rxSeq.getD p 0)) ∧
    (∃ d : Dev, ∃ p : Nat, (d.rst.held = false) ∧ (d.portLive p = true) ∧ (d.lnk.rxFails.getD p 0 < 7)) ∧
    (∃ d : Dev, ∃ p : Nat, (d.rst.held = false) ∧ (d.portLive p = true) ∧ (d.lnk.rxFails.getD p 0 = 7) ∧ (d.coll.ready = true)) ∧
    (∃ d : Dev, ∃ p : Nat, (d.rst.held = false) ∧ (p < 6) ∧ (d.f (F.LNK_PORT_STAT.STATE p) ≠ 0) ∧ (d.coll.ready = true)) :=
  ⟨⟨dLg d0, 65, 0, by decide +kernel⟩,
    ⟨dPort 1, 0, 1, by decide +kernel⟩,
    ⟨dPort 1, 0, 2, by decide +kernel⟩,
    ⟨dUp, 0, 2, by decide +kernel⟩,
    ⟨dUp.set (F.LNK_PORT_STAT.LANE_FAIL 0) 16, 0, 2, by decide +kernel⟩,
    ⟨dFlit 3, 0, ⟨0, 4, none, 0, [9]⟩, by decide +kernel⟩,
    ⟨dFlit 3, 0, ⟨1, 4, none, 0, [9]⟩, by decide +kernel⟩,
    ⟨dFlit 3, 0, ⟨0, 4, none, 1, [9]⟩, 0, by decide +kernel⟩,
    ⟨dFlit 3, 0, ⟨1, 4, some 5, 0, [9]⟩, 5, by decide +kernel⟩,
    ⟨dFlit 6, 0, by decide +kernel⟩,
    ⟨dFlit 7, 0, by decide +kernel⟩,
    ⟨dUp, 0, by decide +kernel⟩⟩

theorem test_MirroredWrites :
    (∃ d : Dev, ∃ addr : Nat, ∃ bytes : List Nat, (d.rst.held = false) ∧ (d.groupMember = true) ∧ (d.inHbm addr bytes.length = true) ∧ (d.poisonIn addr bytes.length = []) ∧ (d.stackLost addr = false) ∧ (d.rst.hbmReady = true) ∧ ((d.route (d.groupPkgs.headD 0)).isSome = true)) ∧
    (∃ d : Dev, ∃ member : Nat, (d.rst.held = false) ∧ (d.groupLeader = true) ∧ (d.groupPkgs.contains member = true)) :=
  ⟨⟨dGrp 0, 0x10000, [1, 2, 3], by decide +kernel⟩,
    ⟨dGrp 1, 1, by decide +kernel⟩⟩

/-! ## lam -/

/-- Camera stream 0: port 0, channel 0, 4 by 2 pixels of RAW8, 3 buffers from 0x100000 on. -/
def camSet : Dev :=
  [(F.LAM_STR_CFG.DT 0, 0x2A), (F.LAM_STR_DIM.WIDTH 0, 4), (F.LAM_STR_DIM.HEIGHT 0, 2), (F.LAM_STR_TMO.LINE_TMO 0, 10), (F.LAM_STR_TMO.FRAME_TMO 0, 10),
    (F.LAM_STR_RING.ADDR 0, 0x100000), (F.LAM_STR_BUFS.COUNT 0, 3), (F.LAM_STR_CFG.EN 0, 1), (F.LAM_PORT_CFG.EN 0, 1), (F.LAM_PORT_STAT.TRAINED 0, 1),
    (F.LAM_PORT_LAT.LAT_NS 0, 5)].foldl (fun d p => Dev.set d p.1 p.2) d0
def dCam : Dev := Dev.strApply camSet 0
def camF (n : Nat) : CamFrame := ⟨1, 0x110000, 7, 1000, 2000, n, 0x2A, 990, 1990, []⟩
def dFrame (n : Nat) : Dev := dCam.modStrm 0 (fun r => { r with frame := some (camF n) })
def cam0 : CamCfg := camCfg dCam.live 0
def bufA : LamBuf := ⟨2, 0x120000, 900, 77, 128, 6, 0⟩
def dHdr : Dev := dCam.modStrm 0 (fun r => { r with hdr := [bufA] })
/-- Lidar link 0: a POINTS link of one point a datagram with three signed 16-bit coordinates in units of 1 / 256 m. -/
def lidF (t o : Nat) : Nat := t + 2 * 16 + 128 + 16 * 256 + o * 2 ^ 17 + 0x3B800000 * 2 ^ 32
def lidSet (points split : Nat) : Dev :=
  [(F.LAM_LID_CFG.PATH 0, points), (F.LAM_LID_CFG.SPLIT 0, split), (F.LAM_LID_CFG.PKT_LOSS_MAX 0, 1), (F.LAM_LID_CFG.DROP_PCT 0, 50), (F.LAM_LID_MAXPTS.MAX_POINTS 0, 10),
    (F.LAM_LID_CAP.CAP 0, 1), (F.LAM_LID_LAYOUT0.BLOCKS 0, 1), (F.LAM_LID_LAYOUT0.PPB 0, 1), (F.LAM_LID_LIMIT.LIMIT 0, 0x42C80000), (F.LAM_LID_TIMEWIN.TIME_WIN 0, 1000),
    (F.LAM_LID_TMO.GAP_TMO 0, 10), (F.LAM_LID_TMO.SWEEP_TMO 0, 10), (F.LAM_LID_RING.ADDR 0, 0x200000), (F.LAM_LID_BUFS.COUNT 0, 3), (F.LAM_LID_CFG.EN 0, 1),
    (F.LAM_LID_UDP.DST_PORT 0, 2368), (F.LAM_LID_FIELD.FIELD 0 0, lidF 1 0), (F.LAM_LID_FIELD.FIELD 0 1, lidF 2 2), (F.LAM_LID_FIELD.FIELD 0 2, lidF 3 4)].foldl
    (fun d p => Dev.set d p.1 p.2) d0
def dLid (points split : Nat) : Dev := Dev.lidApply (lidSet points split) 0
def swA : Sweep := ⟨1, 0x210000, 7, 1000, 2000, some 990, 1990, 3, 72, 3, 0, 0, 2⟩
def dSweep (points split : Nat) (w : Sweep) : Dev := (dLid points split).modStrm 32 (fun r => { r with sweep := some w })
/-- An Ethernet frame with an IPv4 UDP datagram to port 2368, its checksum given. -/
def ethA (ck : List Nat) : List Nat :=
  List.replicate 12 0xAA ++ [8, 0] ++ [0x45, 0, 0, 34, 0, 0, 0, 0, 64, 17, 0, 0, 10, 0, 0, 1, 10, 0, 0, 2] ++ [1, 2, 9, 0x40, 0, 14] ++ ck ++ [0, 1, 0, 2, 0x80, 0xFF]
def payA : List Nat := [0, 1, 0, 2, 0x80, 0xFF]

theorem test_CameraPortsStreamsAndFrameStart :
    (∃ d : Dev, ∃ p : Nat, ∃ value : Nat, (d.rst.held = false) ∧ (p < 16) ∧ (d.on (F.LAM_PORT_CFG.EN p) = false) ∧ (bits value 15 8 ≠ 0) ∧ (bits value 15 8 ≤ (if bits value 1 1 = 0 then 45 else 60))) ∧
    (∃ d : Dev, ∃ p : Nat, ∃ value : Nat, (d.rst.held = false) ∧ (p < 16) ∧ (d.on (F.LAM_PORT_CFG.EN p) = true) ∧ (bits value 0 0 = 0)) ∧
    (∃ d : Dev, ∃ p : Nat, (d.rst.held = false) ∧ (p < 16) ∧ (d.on (F.LAM_PORT_CFG.EN p) = true)) ∧
    (∃ d : Dev, ∃ n : Nat, (d.rst.held = false) ∧ (n < 32) ∧ (keysRise d.regs.cur = true) ∧ (d.camOk (camCfg d.f n) = true) ∧ ((d.strm n).frame = none)) ∧
    (∃ d : Dev, ∃ n : Nat, (d.rst.held = false) ∧ (n < 32) ∧ (d.camOk (camCfg d.f n) = true) ∧ ((d.strm n).frame ≠ none)) ∧
    (∃ d : Dev, ∃ n : Nat, (d.rst.held = false) ∧ (n < 32) ∧ (d.camOk (camCfg d.f n) = false)) ∧
    (∃ d : Dev, ∃ p : Nat, ∃ vc : Nat, (d.rst.held = false) ∧ (d.csiLive p = true) ∧ (d.lamOn = true) ∧ (4 ≤ vc)) ∧
    (∃ d : Dev, ∃ p : Nat, ∃ vc : Nat, (d.rst.held = false) ∧ (d.csiLive p = true) ∧ (d.lamOn = true) ∧ (4 ≤ vc)) ∧
    (∃ d : Dev, ∃ p : Nat, ∃ vc : Nat, ∃ s : Nat, ∃ c : CamCfg, (d.rst.held = false) ∧ (d.csiLive p = true) ∧ (d.lamOn = true) ∧ (vc < 4) ∧ ((∀ q ∈ d.strsOf p vc, (d.strm q.1).frame = none ∧ d.on (F.LAM_STR_CFG.PENDING q.1) = false)) ∧ ((s, c) ∈ d.openable p vc)) ∧
    (∃ d : Dev, ∃ n : Nat, (d.rst.held = false) ∧ (n < 32)) ∧
    (∃ d : Dev, ∃ l : Nat, (d.rst.held = false) ∧ (l < 4)) :=
  ⟨⟨Dev.set d0 (F.LAM_PORT_CFG.EN 15) 0, 15, 11529, by decide +kernel⟩,
    ⟨dCam, 0, 4 + 2, by decide +kernel⟩,
    ⟨dCam, 0, by decide +kernel⟩,
    ⟨camSet, 0, by decide +kernel⟩,
    ⟨dFrame 0, 0, by decide +kernel⟩,
    ⟨Dev.set camSet (F.LAM_STR_DIM.WIDTH 0) 0, 0, by decide +kernel⟩,
    ⟨dCam, 0, 4, by decide +kernel⟩,
    ⟨dCam, 0, 4, by decide +kernel⟩,
    ⟨dCam, 0, 0, 0, cam0, by decide +kernel⟩,
    ⟨dCam, 0, by decide +kernel⟩,
    ⟨dCam, 0, by decide +kernel⟩⟩

theorem test_CameraLinesAndFrameEnds :
    (∃ d : Dev, ∃ p : Nat, ∃ vc : Nat, ∃ dt : Nat, ∃ payload : List Nat, ∃ t : Nat, ∃ s : Nat, ∃ c : CamCfg, ∃ f : CamFrame, (d.rst.held = false) ∧ (d.csiLive p = true) ∧ (d.lamOn = true) ∧ (vc < 4) ∧ (dt ≠ 0x12) ∧ (csiBits dt ≠ 0) ∧ ((d.openable p vc).find? (fun q => q.2.any || q.2.dt == dt) = some (s, c)) ∧ ((d.strm s).frame = some f) ∧ (c.lineReason f dt true payload.length t = 0) ∧ (c.fmt ≠ 7) ∧ (d.leap.dieLost = [])) ∧
    (∃ d : Dev, ∃ p : Nat, ∃ vc : Nat, ∃ dt : Nat, ∃ crcOk : Bool, ∃ payload : List Nat, ∃ t : Nat, ∃ s : Nat, ∃ c : CamCfg, ∃ f : CamFrame, (d.rst.held = false) ∧ (d.csiLive p = true) ∧ (d.lamOn = true) ∧ (vc < 4) ∧ (dt ≠ 0x12) ∧ (csiBits dt ≠ 0) ∧ ((d.openable p vc).find? (fun q => q.2.any || q.2.dt == dt) = some (s, c)) ∧ ((d.strm s).frame = some f) ∧ (c.lineReason f dt crcOk payload.length t ≠ 0) ∧ (d.coll.ready = true)) ∧
    (∃ d : Dev, ∃ p : Nat, (d.rst.held = false) ∧ (d.csiLive p = true) ∧ (d.lamOn = true)) ∧
    (∃ d : Dev, ∃ p : Nat, ∃ vc : Nat, ∃ t : Nat, ∃ s : Nat, ∃ c : CamCfg, ∃ f : CamFrame, (d.rst.held = false) ∧ (d.csiLive p = true) ∧ (d.lamOn = true) ∧ (vc < 4) ∧ ((d.strsOf p vc).filter (fun q => (d.strm q.1).frame.isSome) = [(s, c)]) ∧ ((d.strm s).frame = some f) ∧ (t ≤ f.startT + c.frameTmo * 100000) ∧ (c.h ≤ f.lines) ∧ (c.fmt ≠ 7) ∧ (1 ≤ c.h) ∧ (d.leap.dieLost = [])) ∧
    (∃ d : Dev, ∃ p : Nat, ∃ vc : Nat, ∃ t : Nat, ∃ s : Nat, ∃ c : CamCfg, ∃ f : CamFrame, (d.rst.held = false) ∧ (d.csiLive p = true) ∧ (d.lamOn = true) ∧ (vc < 4) ∧ ((d.strsOf p vc).filter (fun q => (d.strm q.1).frame.isSome) = [(s, c)]) ∧ ((d.strm s).frame = some f) ∧ (t ≤ f.startT + c.frameTmo * 100000) ∧ (f.lines < c.h)) ∧
    (∃ d : Dev, ∃ p : Nat, ∃ vc : Nat, (d.rst.held = false) ∧ (d.csiLive p = true) ∧ (d.lamOn = true) ∧ (vc < 4)) ∧
    (∃ d : Dev, ∃ n : Nat, ∃ b : LamBuf, ∃ bs : List LamBuf, (d.rst.held = false) ∧ (n < 36) ∧ ((d.strm n).hdr = b :: bs) ∧ (d.mirrored b.mirror = true)) ∧
    (∃ d : Dev, ∃ n : Nat, ∃ t : Nat, ∃ f : CamFrame, (d.rst.held = false) ∧ (n < 32) ∧ ((d.strm n).frame = some f) ∧ (d.coll.ready = true) ∧ (f.lastT + (camCfg d.live n).lineTmo * 1000 < t) ∧ (f.lines < (camCfg d.live n).h)) ∧
    (∃ d : Dev, ∃ n : Nat, ∃ t : Nat, ∃ f : CamFrame, (d.rst.held = false) ∧ (n < 32) ∧ ((d.strm n).frame = some f) ∧ (d.coll.ready = true) ∧ (f.startT + (camCfg d.live n).frameTmo * 100000 < t)) :=
  ⟨⟨dFrame 1, 0, 0, 0x2A, [1, 2, 3, 4], 2500, 0, cam0, camF 1, by decide +kernel⟩,
    ⟨dFrame 1, 0, 0, 0x2A, false, [1, 2, 3, 4], 2500, 0, cam0, camF 1, by decide +kernel⟩,
    ⟨dFrame 1, 0, by decide +kernel⟩,
    ⟨dFrame 2, 0, 0, 2500, 0, cam0, camF 2, by decide +kernel⟩,
    ⟨dFrame 1, 0, 0, 2500, 0, cam0, camF 1, by decide +kernel⟩,
    ⟨dCam, 0, 0, by decide +kernel⟩,
    ⟨dHdr, 0, bufA, [], by decide +kernel⟩,
    ⟨dFrame 1, 0, 20000, camF 1, by decide +kernel⟩,
    ⟨dFrame 2, 0, 2000000, camF 2, by decide +kernel⟩⟩

theorem test_LidarSweeps :
    (∃ d : Dev, ∃ l : Nat, (d.rst.held = false) ∧ (l < 4) ∧ (keysRise d.regs.cur = true) ∧ (d.lidOk (lidCfg d.f l) = true) ∧ ((d.strm (32 + l)).sweep = none)) ∧
    (∃ d : Dev, ∃ l : Nat, (d.rst.held = false) ∧ (l < 4) ∧ (d.lidOk (lidCfg d.f l) = true) ∧ ((d.strm (32 + l)).sweep ≠ none)) ∧
    (∃ d : Dev, ∃ l : Nat, (d.rst.held = false) ∧ (l < 4) ∧ (d.lidOk (lidCfg d.f l) = false)) ∧
    (∃ d : Dev, ∃ mac : Nat, ∃ t : Nat, ∃ src : Nat, ∃ port : Nat, ∃ bytes : List Nat, ∃ p : List Nat, ∃ bad : Bool, (d.rst.held = false) ∧ (mac < 4) ∧ (bytes.length ≤ 9014) ∧ (d.lamOn = true) ∧ (d.on (F.LAM_LID_CFG.EN mac) = true) ∧ (udpOf bytes = some (src, port, p, bad)) ∧ ((d.live (F.LAM_LID_UDP.DST_PORT mac) = 0 ∨ d.live (F.LAM_LID_UDP.DST_PORT mac) = port)) ∧ ((d.live (F.LAM_LID_SRC_IP.SRC_IP mac) = 0 ∨ d.live (F.LAM_LID_SRC_IP.SRC_IP mac) = src)) ∧ 
let now := d.at_ t

let start := (d.strm (32 + mac)).sweep.isNone = true ∧ (d.strm (32 + mac)).skip = false ∧ d.on (F.LAM_LID_CFG.PENDING mac) = true

let x := if start then now.lidTake mac else now

let c := lidCfg x.live mac
(c.points = true) ∧ (bad = false) ∧ (c.need ≤ p.length) ∧ (d.sweepLate mac t = 0)) ∧
    (∃ d : Dev, ∃ mac : Nat, ∃ t : Nat, ∃ src : Nat, ∃ port : Nat, ∃ bytes : List Nat, ∃ p : List Nat, ∃ bad : Bool, ∃ w : Sweep, (d.rst.held = false) ∧ (mac < 4) ∧ (bytes.length ≤ 9014) ∧ (d.lamOn = true) ∧ (d.on (F.LAM_LID_CFG.EN mac) = true) ∧ (udpOf bytes = some (src, port, p, bad)) ∧ ((d.live (F.LAM_LID_UDP.DST_PORT mac) = 0 ∨ d.live (F.LAM_LID_UDP.DST_PORT mac) = port)) ∧ ((d.live (F.LAM_LID_SRC_IP.SRC_IP mac) = 0 ∨ d.live (F.LAM_LID_SRC_IP.SRC_IP mac) = src)) ∧ 
let now := d.at_ t

let start := (d.strm (32 + mac)).sweep.isNone = true ∧ (d.strm (32 + mac)).skip = false ∧ d.on (F.LAM_LID_CFG.PENDING mac) = true

let x := if start then now.lidTake mac else now

let c := lidCfg x.live mac
(bad = true ∨ p.length < c.need) ∧ ((d.strm (32 + mac)).sweep = some w) ∧ (d.sweepLate mac t = 0) ∧ (w.lost < c.lossMax)) ∧
    (∃ d : Dev, ∃ mac : Nat, ∃ t : Nat, ∃ src : Nat, ∃ port : Nat, ∃ bytes : List Nat, ∃ p : List Nat, ∃ bad : Bool, ∃ w : Sweep, (d.rst.held = false) ∧ (mac < 4) ∧ (bytes.length ≤ 9014) ∧ (d.lamOn = true) ∧ (d.on (F.LAM_LID_CFG.EN mac) = true) ∧ (udpOf bytes = some (src, port, p, bad)) ∧ ((d.live (F.LAM_LID_UDP.DST_PORT mac) = 0 ∨ d.live (F.LAM_LID_UDP.DST_PORT mac) = port)) ∧ ((d.live (F.LAM_LID_SRC_IP.SRC_IP mac) = 0 ∨ d.live (F.LAM_LID_SRC_IP.SRC_IP mac) = src)) ∧ 
let now := d.at_ t

let start := (d.strm (32 + mac)).sweep.isNone = true ∧ (d.strm (32 + mac)).skip = false ∧ d.on (F.LAM_LID_CFG.PENDING mac) = true

let x := if start then now.lidTake mac else now

let c := lidCfg x.live mac
(bad = true ∨ p.length < c.need) ∧ ((d.strm (32 + mac)).sweep = some w) ∧ (d.sweepLate mac t = 0) ∧ (c.lossMax ≤ w.lost)) ∧
    (∃ d : Dev, ∃ mac : Nat, ∃ t : Nat, ∃ src : Nat, ∃ port : Nat, ∃ bytes : List Nat, ∃ p : List Nat, ∃ bad : Bool, ∃ w : Sweep, (d.rst.held = false) ∧ (mac < 4) ∧ (bytes.length ≤ 9014) ∧ (d.lamOn = true) ∧ (d.on (F.LAM_LID_CFG.EN mac) = true) ∧ (udpOf bytes = some (src, port, p, bad)) ∧ ((d.live (F.LAM_LID_UDP.DST_PORT mac) = 0 ∨ d.live (F.LAM_LID_UDP.DST_PORT mac) = port)) ∧ ((d.live (F.LAM_LID_SRC_IP.SRC_IP mac) = 0 ∨ d.live (F.LAM_LID_SRC_IP.SRC_IP mac) = src)) ∧ 
let now := d.at_ t

let start := (d.strm (32 + mac)).sweep.isNone = true ∧ (d.strm (32 + mac)).skip = false ∧ d.on (F.LAM_LID_CFG.PENDING mac) = true

let x := if start then now.lidTake mac else now

let c := lidCfg x.live mac
(bad = false) ∧ (c.need ≤ p.length) ∧ (c.points = false) ∧ (c.split = 2) ∧ ((d.strm (32 + mac)).sweep = some w) ∧ (d.sweepLate mac t = 0) ∧ (w.used + up64 (16 + p.length) ≤ c.cap * 65536) ∧ (d.poisonIn (w.addr + 64 + w.used) (up64 (16 + p.length)) = []) ∧ (d.stackLost (w.addr + 64 + w.used) = false)) ∧
    (∃ d : Dev, ∃ l : Nat, ∃ b : Nat, ∃ j : Nat, ∃ t : Nat, ∃ p : List Nat, ∃ w : Sweep, ((d.strm (32 + l)).sweep = some w) ∧ 
let c := lidCfg d.live l

let xyz := d.coords l c b j p

let ts := c.timeOf b j p t

let first : Int := (w.firstTs.map (fun n => (n : Int))).getD ts
(c.field 8 = none) ∧ (xyz.all (fun x => x.finite && !x.abs.gt (ofBits32 c.limit)) = true) ∧ (0 ≤ ts) ∧ (ts ≤ t) ∧ ((t : Int) ≤ ts + c.timeWin) ∧ ((ts - first).natAbs ≤ 2147483647) ∧ (w.count ≠ c.maxPts) ∧ (d.poisonIn (w.addr + 64 + 24 * w.count) 24 = []) ∧ (d.stackLost (w.addr + 64 + 24 * w.count) = false)) ∧
    (∃ d : Dev, ∃ l : Nat, ∃ b : Nat, ∃ j : Nat, ∃ t : Nat, ∃ p : List Nat, ∃ w : Sweep, ∃ a : Nat, ((d.strm (32 + l)).sweep = some w) ∧ 
let c := lidCfg d.live l

let xyz := d.coords l c b j p

let ts := c.timeOf b j p t

let first : Int := (w.firstTs.map (fun n => (n : Int))).getD ts
(c.field 8 = none) ∧ (xyz.all (fun x => x.finite && !x.abs.gt (ofBits32 c.limit)) = true) ∧ (0 ≤ ts) ∧ (ts ≤ t) ∧ ((t : Int) ≤ ts + c.timeWin) ∧ ((ts - first).natAbs ≤ 2147483647) ∧ (w.count ≠ c.maxPts) ∧ (d.poisonIn (w.addr + 64 + 24 * w.count) 24 = []) ∧ (d.stackLost (w.addr + 64 + 24 * w.count) = false) ∧ (a < w.addr + 64 + 24 * w.count ∨ w.addr + 64 + 24 * w.count + 24 ≤ a)) ∧
    (∃ d : Dev, ∃ l : Nat, ∃ b : Nat, ∃ j : Nat, ∃ t : Nat, ∃ p : List Nat, ∃ w : Sweep, ∃ i : Nat, ((d.strm (32 + l)).sweep = some w) ∧ 
let c := lidCfg d.live l

let xyz := d.coords l c b j p

let ts := c.timeOf b j p t

let first : Int := (w.firstTs.map (fun n => (n : Int))).getD ts
(c.field 8 = none) ∧ (xyz.all (fun x => x.finite && !x.abs.gt (ofBits32 c.limit)) = true) ∧ (0 ≤ ts) ∧ (ts ≤ t) ∧ ((t : Int) ≤ ts + c.timeWin) ∧ ((ts - first).natAbs ≤ 2147483647) ∧ (w.count ≠ c.maxPts) ∧ (d.poisonIn (w.addr + 64 + 24 * w.count) 24 = []) ∧ (d.stackLost (w.addr + 64 + 24 * w.count) = false) ∧ (i < 3)) ∧
    (∃ d : Dev, ∃ l : Nat, let c := lidCfg d.live l
(c.points = true) ∧ (c.split = 2) ∧ (1 ≤ c.ppb) ∧ ((d.strm (32 + l)).sweep.isSome = true)) ∧
    (∃ d : Dev, ∃ l : Nat, ∃ t : Nat, (d.rst.held = false) ∧ (l < 4) ∧ (d.sweepLate l t = 1) ∧ (d.coll.ready = true)) ∧
    (∃ d : Dev, ∃ l : Nat, ∃ t : Nat, ∃ w : Sweep, (d.rst.held = false) ∧ (l < 4) ∧ ((d.strm (32 + l)).sweep = some w) ∧ (d.coll.ready = true) ∧ (w.startT + (lidCfg d.live l).sweep * 100000 < t)) :=
  ⟨⟨lidSet 1 2, 0, by decide +kernel⟩,
    ⟨dSweep 1 2 swA, 0, by decide +kernel⟩,
    ⟨lidSet 1 3, 0, by decide +kernel⟩,
    ⟨dSweep 1 2 swA, 0, 2500, 0x0A000001, 2368, ethA [0, 0], payA, false, by decide +kernel⟩,
    ⟨dSweep 1 2 { swA with lost := 0 }, 0, 2500, 0x0A000001, 2368, ethA [0, 1], payA, true, { swA with lost := 0 }, by decide +kernel⟩,
    ⟨dSweep 1 2 { swA with lost := 1 }, 0, 2500, 0x0A000001, 2368, ethA [0, 1], payA, true, { swA with lost := 1 }, by decide +kernel⟩,
    ⟨dSweep 0 2 swA, 0, 2500, 0x0A000001, 2368, ethA [0, 0], payA, false, swA, by decide +kernel⟩,
    ⟨dSweep 1 2 swA, 0, 0, 0, 2500, payA, swA, by decide +kernel⟩,
    ⟨dSweep 1 2 swA, 0, 0, 0, 2500, payA, swA, 5, by decide +kernel⟩,
    ⟨dSweep 1 2 swA, 0, 0, 0, 2500, payA, swA, 1, by decide +kernel⟩,
    ⟨dSweep 1 2 swA, 0, by decide +kernel⟩,
    ⟨dSweep 1 2 swA, 0, 20000, by decide +kernel⟩,
    ⟨dSweep 1 2 swA, 0, 2000000, swA, by decide +kernel⟩⟩

/-! ## alm -/

def sets (d : Dev) (l : List (Fld × Nat)) : Dev := l.foldl (fun d p => Dev.set d p.1 p.2) d
def dRunning (d : Dev) : Dev := { d with running := true, now := 1000 }
def dFollow : Dev := sets d0 [(F.ALM_CFG.ROLE, 1)]
def dFollowUp (st : Nat) : Dev := sets (dRunning dFollow) [(F.ALM_STAT.SEN_STATE, st)]
def dGrand : Dev := sets (dRunning d0) [(F.ALM_STAT.SEN_STATE, 1), (F.ALM_CFG.GPTP_PORTS, 15)]
def dGrandLg : Dev := sets dGrand [(F.LNK_PORT_STAT.STATE 0, 2)]
def dFollowLg : Dev := sets (dFollowUp 2) [(F.LNK_PORT_STAT.STATE 0, 2)]
/-- MAC 3 sent its last message of one kind at 999 ns. -/
def dSent (k : Nat) : Dev := { dGrand with alm := { dGrand.alm with sent := [(k, 999)] } }
def trA : Tracker := ⟨5, 100, 250, 7, some (3, 900), 7, 900⟩
/-- Domain 0 is enabled and in a state, and domain 1 is off; the vehicle time has a residual of 40 ns. -/
def dDom (st v : Nat) : Dev :=
  sets { dRunning d0 with alm := { d0.alm with doms := [trA, ⟨0, 0, 0, 0, none, 0, 0⟩], resid := 40, residAt := 1000 } }
    [(F.ALM_DOM_CFG.EN 0, 1), (F.ALM_DOM_CFG.DELAY 0, 1), (F.ALM_STAT.A_STATE, st), (F.ALM_STAT.VT_VALID, v), (F.ALM_DOM_SERVO.KP 0, 655), (F.ALM_DOM_SERVO.KI 0, 65), (F.ALM_DOM_LIM.LOSS_MS 0, 1),
     (F.ALM_DOM_REACQ.REACQ_NS 0, 100), (F.ALM_DOM_LIM.LOCK_NS 0, 50), (F.ALM_SLEW.SLEW_PPB, 1000)]
def dTio (m : Nat) (l : List (Fld × Nat)) : Dev :=
  sets (dRunning d0) ([(F.ALM_TIO_CFG.MODE 7, m), (F.ALM_TIO_PERIOD.PERIOD 7, 1000), (F.ALM_TIO_WIDTH.WIDTH 7, 100), (F.ALM_TIO_START.NS 7, 2500), (F.ALM_TIO_CFG.EDGE 7, 3)] ++ l)
def dPinUp (m : Nat) (f : Tio → Tio) : Dev := Dev.modPin (Dev.tioApply (dTio m []) 7 1000) 7 f
def fifo16 : List (Nat × Bool) := List.replicate 16 (5, true)

theorem test_SensorDomainStartsAndIsKept :
    (∃ d : Dev, (d.rst.held = false) ∧ (d.running = true)) ∧
    (∃ d : Dev, (d.rst.held = false) ∧ (d.running = false) ∧ (d.almUp = true) ∧ (d.follows = false)) ∧
    (∃ d : Dev, (d.rst.held = false) ∧ (d.follows = true) ∧ (d.almUp = true) ∧ (d.on F.ALM_STAT.FREE_START = false) ∧ (d.running = false)) ∧
    (∃ d : Dev, (d.rst.held = false) ∧ (d.follows = true) ∧ (d.almUp = true) ∧ (d.on F.ALM_STAT.FREE_START = false) ∧ (d.running = true)) ∧
    (∃ d : Dev, (d.rst.held = false) ∧ (d.follows = true) ∧ (d.almUp = true) ∧ (d.running = false)) ∧
    (∃ d : Dev, (d.rst.held = false) ∧ (d.f F.ALM_STAT.SEN_STATE ≠ 2)) ∧
    (∃ d : Dev, (d.rst.held = false) ∧ (d.f F.ALM_STAT.SEN_STATE = 2) ∧ (d.coll.ready = true)) ∧
    (∃ d : Dev, ∃ mac : Nat, (d.rst.held = false) ∧ (d.gptpOn mac = false) ∧ (d.gptpLg mac true = false)) ∧
    (∃ d : Dev, ∃ mac : Nat, (d.rst.held = false) ∧ (d.gptpOn mac = false) ∧ (d.gptpLg mac false = false)) ∧
    (∃ d : Dev, ∃ mac : Nat, (d.rst.held = false) ∧ (d.gptpOn mac = false) ∧ (d.gptpLg mac false = false)) ∧
    (∃ d : Dev, ∃ mac : Nat, (d.rst.held = false) ∧ (d.gptpOn mac = false)) ∧
    (∃ d : Dev, ∃ mac : Nat, ∃ t : Nat, (d.rst.held = false) ∧ 
let due := fun (kind interval : Nat) => ∀ s, mfind d.alm.sent (16 * mac + kind) = some s → s + interval ≤ Nat.max d.now t
(d.gptpLg mac true = true) ∧ (due 0 (1000000000 / 2 ^ (-d.syncLog).toNat))) ∧
    (∃ d : Dev, ∃ mac : Nat, ∃ t : Nat, (d.rst.held = false) ∧ 
let due := fun (kind interval : Nat) => ∀ s, mfind d.alm.sent (16 * mac + kind) = some s → s + interval ≤ Nat.max d.now t
(d.gptpLg mac false = true) ∧ (due 2 1000000000)) ∧
    (∃ d : Dev, ∃ mac : Nat, ∃ t : Nat, (d.rst.held = false) ∧ 
let due := fun (kind interval : Nat) => ∀ s, mfind d.alm.sent (16 * mac + kind) = some s → s + interval ≤ Nat.max d.now t
(d.gptpOn mac = true) ∧ (due 0 (1000000000 / 2 ^ (-d.syncLog).toNat))) ∧
    (∃ d : Dev, ∃ mac : Nat, ∃ t : Nat, (d.rst.held = false) ∧ 
let due := fun (kind interval : Nat) => ∀ s, mfind d.alm.sent (16 * mac + kind) = some s → s + interval ≤ Nat.max d.now t
(d.gptpOn mac = true) ∧ (¬ due 0 (1000000000 / 2 ^ (-d.syncLog).toNat))) ∧
    (∃ d : Dev, ∃ mac : Nat, (d.rst.held = false) ∧ (d.gptpOn mac = true)) ∧
    (∃ d : Dev, ∃ mac : Nat, ∃ t : Nat, (d.rst.held = false) ∧ 
let due := fun (kind interval : Nat) => ∀ s, mfind d.alm.sent (16 * mac + kind) = some s → s + interval ≤ Nat.max d.now t
(d.gptpOn mac = true) ∧ (¬ due 2 1000000000)) ∧
    (∃ d : Dev, ∃ mac : Nat, ∃ t : Nat, (d.rst.held = false) ∧ 
let due := fun (kind interval : Nat) => ∀ s, mfind d.alm.sent (16 * mac + kind) = some s → s + interval ≤ Nat.max d.now t
(d.gptpOn mac = true) ∧ (¬ due 11 1000000000)) ∧
    (∃ d : Dev, ∃ mac : Nat, ∃ t : Nat, (d.rst.held = false) ∧ 
let due := fun (kind interval : Nat) => ∀ s, mfind d.alm.sent (16 * mac + kind) = some s → s + interval ≤ Nat.max d.now t
(d.gptpOn mac = true) ∧ (due 2 1000000000)) ∧
    (∃ d : Dev, ∃ mac : Nat, ∃ t : Nat, (d.rst.held = false) ∧ 
let due := fun (kind interval : Nat) => ∀ s, mfind d.alm.sent (16 * mac + kind) = some s → s + interval ≤ Nat.max d.now t
(d.gptpOn mac = true) ∧ (due 11 1000000000)) ∧
    (∃ d : Dev, ∃ t : Nat, (d.rst.held = false) ∧ 
let r := s32 (d.f F.ALM_SEN_RATE.RATE)
(d.f F.ALM_STAT.SEN_STATE = 1) ∧ (d.alm.steerAt + 1000000 ≤ Nat.max d.now t) ∧ (-1000000 ≤ r) ∧ (r ≤ 1000000)) ∧
    (∃ d : Dev, ∃ t : Nat, (d.rst.held = false) ∧ (d.f F.ALM_STAT.SEN_STATE ≠ 1 ∨ Nat.max d.now t < d.alm.steerAt + 1000000)) :=
  ⟨⟨dRunning d0, by decide +kernel⟩,
    ⟨d0, by decide +kernel⟩,
    ⟨dFollow, by decide +kernel⟩,
    ⟨dFollowUp 3, by decide +kernel⟩,
    ⟨dFollow, by decide +kernel⟩,
    ⟨dGrand, by decide +kernel⟩,
    ⟨dFollowUp 2, by decide +kernel⟩,
    ⟨d0, 3, by decide +kernel⟩,
    ⟨d0, 3, by decide +kernel⟩,
    ⟨d0, 3, by decide +kernel⟩,
    ⟨d0, 3, by decide +kernel⟩,
    ⟨dGrandLg, 4, 2000000, by decide +kernel⟩,
    ⟨dFollowLg, 4, 2000000, by decide +kernel⟩,
    ⟨dGrand, 3, 2000000, by decide +kernel⟩,
    ⟨dSent 48, 3, 2000000, by decide +kernel⟩,
    ⟨dGrand, 3, by decide +kernel⟩,
    ⟨dSent 50, 3, 2000000, by decide +kernel⟩,
    ⟨dSent 59, 3, 2000000, by decide +kernel⟩,
    ⟨dGrand, 3, 2000000, by decide +kernel⟩,
    ⟨dGrand, 3, 2000000, by decide +kernel⟩,
    ⟨dGrand, 2000000, by decide +kernel⟩,
    ⟨dGrand, 9, by decide +kernel⟩⟩

theorem test_VehicleDomainsAndTime :
    (∃ d : Dev, ∃ i : Nat, ∃ m : PtpMsg, (d.rst.held = false) ∧ (i < 2) ∧ (d.alm.doms.length = 2) ∧ 
let taken := d.running = true ∧ d.on (F.ALM_DOM_CFG.EN i) = true ∧ d.f (F.ALM_DOM_CFG.PORT i) = m.mac ∧
      d.on (F.ALM_DOM_CFG.TRANSPORT i) = m.udp ∧ d.on (F.ALM_DOM_CFG.DELAY i) = m.p2p ∧ d.f (F.ALM_DOM_CFG.DOMAIN_NUM i) = m.num ∧
      (d.f (F.ALM_DOM_GM.GM i) = 0 ∨ d.f (F.ALM_DOM_GM.GM i) = m.gm) ∧ d.rst.low ≠ 2
(¬ taken)) ∧
    (∃ d : Dev, ∃ i : Nat, ∃ m : PtpMsg, (d.rst.held = false) ∧ (i < 2) ∧ (d.alm.doms.length = 2) ∧ 
let taken := d.running = true ∧ d.on (F.ALM_DOM_CFG.EN i) = true ∧ d.f (F.ALM_DOM_CFG.PORT i) = m.mac ∧
      d.on (F.ALM_DOM_CFG.TRANSPORT i) = m.udp ∧ d.on (F.ALM_DOM_CFG.DELAY i) = m.p2p ∧ d.f (F.ALM_DOM_CFG.DOMAIN_NUM i) = m.num ∧
      (d.f (F.ALM_DOM_GM.GM i) = 0 ∨ d.f (F.ALM_DOM_GM.GM i) = m.gm) ∧ d.rst.low ≠ 2
(taken)) ∧
    (∃ d : Dev, ∃ i : Nat, ∃ t : Nat, (d.rst.held = false) ∧ (i < 2) ∧ (d.domState i = 2 ∨ d.domState i = 3) ∧ 
let due := (d.trk i).validAt + d.f (F.ALM_DOM_LIM.LOSS_MS i) * 1000000
(Nat.max d.now t < due)) ∧
    (∃ d : Dev, ∃ i : Nat, ∃ t : Nat, (d.rst.held = false) ∧ (i < 2) ∧ (d.domState i = 2 ∨ d.domState i = 3) ∧ 
let due := (d.trk i).validAt + d.f (F.ALM_DOM_LIM.LOSS_MS i) * 1000000
(due ≤ Nat.max d.now t) ∧ (d.coll.ready = true)) ∧
    (∃ d : Dev, ∃ i : Nat, (d.rst.held = false) ∧ (i < 2) ∧ (d.on (F.ALM_DOM_CFG.EN i) = true)) ∧
    (∃ d : Dev, ∃ i : Nat, (d.rst.held = false) ∧ (i < 2) ∧ (d.on (F.ALM_DOM_CFG.EN i) = false)) ∧
    (∃ d : Dev, ∃ i : Nat, ∃ v : Nat, (d.rst.held = false) ∧ (i < 2) ∧ (239 < bits v 12 5)) ∧
    (∃ d : Dev, ∃ i : Nat, ∃ v : Nat, (d.rst.held = false) ∧ (i < 2) ∧ (bits v 12 5 ≤ 239) ∧ (bitOf v 0 = true) ∧ (d.on (F.ALM_DOM_CFG.EN i) = false)) ∧
    (∃ d : Dev, ∃ i : Nat, ∃ v : Nat, (d.rst.held = false) ∧ (i < 2) ∧ (bits v 12 5 ≤ 239) ∧ (bitOf v 0 = false) ∧ (d.on (F.ALM_DOM_CFG.EN i) = true)) ∧
    (∃ d : Dev, ∃ i : Nat, (d.rst.held = false) ∧ (i < 2) ∧ (d.on (F.ALM_DOM_CFG.EN i) = false)) ∧
    (∃ d : Dev, ∃ t : Nat, (d.rst.held = false) ∧ (d.resid (Nat.max d.now t) = 0)) ∧
    (∃ d : Dev, ∃ t : Nat, (d.rst.held = false) ∧ (d.resid (Nat.max d.now t) ≠ 0)) ∧
    (∃ d : Dev, (d.rst.held = false)) :=
  ⟨⟨d0, 0, ⟨0, false, true, 0, 9⟩, by decide +kernel⟩,
    ⟨dDom 3 1, 0, ⟨0, false, true, 0, 9⟩, by decide +kernel⟩,
    ⟨dDom 3 1, 0, 2000, by decide +kernel⟩,
    ⟨dDom 3 1, 0, 1000900, by decide +kernel⟩,
    ⟨dDom 3 1, 0, by decide +kernel⟩,
    ⟨d0, 0, by decide +kernel⟩,
    ⟨d0, 0, 240 * 32 + 1, by decide +kernel⟩,
    ⟨d0, 0, 1, by decide +kernel⟩,
    ⟨dDom 3 1, 0, 0, by decide +kernel⟩,
    ⟨d0, 0, by decide +kernel⟩,
    ⟨dDom 3 1, 40001000, by decide +kernel⟩,
    ⟨dDom 3 1, 2000, by decide +kernel⟩,
    ⟨dDom 3 1, by decide +kernel⟩⟩

theorem test_TriggerPins :
    (∃ d : Dev, ∃ p : Nat, (d.rst.held = false) ∧ (p < 8) ∧ (d.alm.tio.length = 8) ∧ (d.pinBad p = true) ∧ ((d.tioPin p).pulseEnd = none)) ∧
    (∃ d : Dev, ∃ p : Nat, (d.rst.held = false) ∧ (p < 8) ∧ (d.alm.tio.length = 8) ∧ (keysRise d.regs.cur = true) ∧ (d.pinBad p = false) ∧ ((d.tioPin p).pulseEnd = none)) ∧
    (∃ d : Dev, ∃ p : Nat, ∃ t : Nat, ∃ x : Nat, (d.rst.held = false) ∧ (p < 8) ∧ (d.alm.tio.length = 8) ∧ (d.pinBad p = false) ∧ ((d.tioPin p).pulseEnd = some x) ∧ (d.pinTime p (Nat.max d.now t : Nat) < x)) ∧
    (∃ d : Dev, ∃ p : Nat, ∃ t : Nat, ∃ v : Int, (d.rst.held = false) ∧ (p < 8) ∧ (d.alm.tio.length = 8) ∧ (d.running = true) ∧ ((d.tioPin p).pulseEnd = none) ∧ (d.pinBlind p = false) ∧ ((d.at_ t).pinInstant p = some v)) ∧
    (∃ d : Dev, ∃ p : Nat, ∃ t : Nat, (d.rst.held = false) ∧ (p < 8) ∧ (d.alm.tio.length = 8) ∧ (d.running = true) ∧ ((d.tioPin p).pulseEnd = none) ∧ (d.pinBlind p = false) ∧ ((d.at_ t).pinInstant p = none)) ∧
    (∃ d : Dev, ∃ p : Nat, ∃ ns : Nat, (d.rst.held = false) ∧ (p < 8) ∧ (d.alm.tio.length = 8) ∧ (d.running = true) ∧ ((d.tioPin p).pulseEnd = none) ∧ (ns < 5)) ∧
    (∃ d : Dev, ∃ p : Nat, ∃ t : Nat, ∃ m : Nat, ∃ k : Nat, (d.rst.held = false) ∧ (p < 8) ∧ (d.alm.tio.length = 8) ∧ (d.running = true) ∧ ((d.tioPin p).pulseEnd = none) ∧ ((d.tioPin p).armedAt = Nat.max d.now t) ∧ ((d.tioPin p).old = some (m, k)) ∧ (m ≠ 4)) ∧
    (∃ d : Dev, ∃ p : Nat, ∃ t : Nat, ∃ b : Bool, ∃ ns : Nat, (d.rst.held = false) ∧ (p < 8) ∧ (d.alm.tio.length = 8) ∧ (d.running = true) ∧ ((d.tioPin p).pulseEnd = none) ∧ (5 ≤ ns) ∧ ((d.tioPin p).armedAt < Nat.max d.now t) ∧ (d.live (F.ALM_TIO_CFG.MODE p) = 4) ∧ (maskHas (d.live (F.ALM_TIO_CFG.EDGE p)) (if b then 0 else 1) = true) ∧ ((d.tioPin p).fifo.length < 16)) ∧
    (∃ d : Dev, ∃ p : Nat, ∃ t : Nat, ∃ b : Bool, ∃ ns : Nat, (d.rst.held = false) ∧ (p < 8) ∧ (d.alm.tio.length = 8) ∧ (d.running = true) ∧ ((d.tioPin p).pulseEnd = none) ∧ (5 ≤ ns) ∧ ((d.tioPin p).armedAt < Nat.max d.now t) ∧ (d.live (F.ALM_TIO_CFG.MODE p) = 4) ∧ (maskHas (d.live (F.ALM_TIO_CFG.EDGE p)) (if b then 0 else 1) = true) ∧ (16 ≤ (d.tioPin p).fifo.length)) ∧
    (∃ d : Dev, ∃ p : Nat, (d.rst.held = false) ∧ (p < 8) ∧ (d.alm.tio.length = 8) ∧ ((d.tioPin p).fifo = [])) ∧
    (∃ d : Dev, ∃ p : Nat, ∃ x : Nat, ∃ b : Bool, ∃ l : List (Nat × Bool), (d.rst.held = false) ∧ (p < 8) ∧ (d.alm.tio.length = 8) ∧ ((d.tioPin p).fifo = (x, b) :: l) ∧ (l.length < 16)) :=
  ⟨⟨dTio 2 [(F.ALM_TIO_PERIOD.PERIOD 7, 109)], 7, by decide +kernel⟩,
    ⟨dTio 1 [], 7, by decide +kernel⟩,
    ⟨(dTio 1 []).modPin 7 (fun k => { k with pulseEnd := some 1401 }), 7, 1400, 1401, by decide +kernel⟩,
    ⟨dPinUp 1 same, 7, 2500, 2500, by decide +kernel⟩,
    ⟨dPinUp 1 same, 7, 2499, by decide +kernel⟩,
    ⟨dPinUp 4 same, 7, 4, by decide +kernel⟩,
    ⟨dPinUp 4 (fun k => { k with armedAt := 1400, old := some (1, 3) }), 7, 1400, 1, 3, by decide +kernel⟩,
    ⟨dPinUp 4 same, 7, 1400, true, 5, by decide +kernel⟩,
    ⟨dPinUp 4 (fun k => { k with fifo := fifo16 }), 7, 1400, true, 5, by decide +kernel⟩,
    ⟨dTio 1 [], 7, by decide +kernel⟩,
    ⟨dPinUp 4 (fun k => { k with fifo := [(3000000007, true), (9, false)] }), 7, 3000000007, true, [(9, false)], by decide +kernel⟩⟩

/-! ## pwr -/

def setsP (d : Dev) (l : List (Fld × Nat)) : Dev := l.foldl (fun d p => Dev.set d p.1 p.2) d
/-- Partition 0 is a safety partition and owns every cluster; its floor in force is `fl`. -/
def dTithe (fl : Nat) : Dev :=
  let d := setsP d0 [(F.PWR_PART_CFG.FLOOR 0, fl), (F.SCH_PART_CFG.SAFETY 0, 1), (F.PWR_CTRL.CAP_W, 130)]
  let d := (d.stage (R.PWR_PART_CFG 0) (R.PWR_PART_CFG 16)).enforce (R.PWR_PART_CFG 0) (R.PWR_PART_CFG 16)
  (d.stage (R.SCH_PART_CFG 0) (R.SCH_PART_CFG 16)).enforce (R.SCH_PART_CFG 0) (R.SCH_PART_CFG 16)
def pw (f : Pwr → Pwr) (d : Dev) : Dev := { d with pwr := f d.pwr }
def dTele : Dev := pw (fun p => { p with telemetry := some [0, 1, 2], samples := [(5, [(100, 200)])] }) d0
def dWarn (d : Dev) : Dev := setsP d [(F.PWR_STAT.THERM_WARN, 1)]

theorem test_OperatingPointsAreAllocated :
    (∃ d : Dev, ∃ opp : List Nat, ∃ q : Nat, (d.nextLower opp = some q)) ∧
    (∃ d : Dev, ∃ opp : List Nat, ∃ q : Nat, ∃ r : Nat, let low := fun (r : Nat) => r ∈ d.regions ∧ opp.getD r 7 < d.regFloor r
(d.nextLower opp = some q) ∧ (low r)) ∧
    (∃ d : Dev, ∃ opp : List Nat, ∃ q : Nat, ∃ r : Nat, let low := fun (r : Nat) => r ∈ d.regions ∧ opp.getD r 7 < d.regFloor r

let w := fun (r : Nat) => d.predict r (opp.getD r 7) / (d.regWeight r : Rat)
(d.nextLower opp = some q) ∧ (low r) ∧ (w r = w q)) ∧
    (∃ d : Dev, ∃ opp : List Nat, ∃ q : Nat, ∃ budget : Rat, (d.nextLower opp = some q) ∧ (¬ (d.regions.map (fun r => d.predict r (opp.getD r 7))).foldl (· + ·) 0 ≤ budget)) ∧
    (∃ d : Dev, ∃ budget : Rat, let x := d.lowerTo budget 49 ((List.range 6).map d.firstOpp)
(x.2 = false)) ∧
    (∃ d : Dev, ∃ budget : Rat, let x := d.lowerTo budget 49 ((List.range 6).map d.firstOpp)
(x.2 = true)) ∧
    (∃ d : Dev, ∃ budget : Rat, ∃ r : Nat, let x := d.lowerTo budget 49 ((List.range 6).map d.firstOpp)
(x.2 = true) ∧ (r ∈ d.regions)) ∧
    (∃ d : Dev, ∃ r : Nat, (r ∈ d.regions)) ∧
    (∃ d : Dev, (d.rst.held = false) ∧ (d.tithe = false)) ∧
    (∃ d : Dev, (d.rst.held = false) ∧ (d.tithe = true) ∧ (keysRise d.regs.cur = true) ∧ (d.pwr.changing.length = 6) ∧ (d.pwr.waiting.length = 6)) ∧
    (∃ d : Dev, ∃ t : Nat, (d.rst.held = false) ∧ (d.tithe = true) ∧ 
let mean := meanRat (d.pwr.polls.map (fun p => (p : Rat)))
(mean ≤ (d.effCap : Rat) ∨ Nat.max d.now t < d.pwr.overCapAt + 1000000)) ∧
    (∃ d : Dev, ∃ t : Nat, ∃ r : Nat, (d.rst.held = false) ∧ (d.tithe = true) ∧ 
let mean := meanRat (d.pwr.polls.map (fun p => (p : Rat)))
(¬ mean ≤ (d.effCap : Rat)) ∧ (d.pwr.overCapAt + 1000000 ≤ Nat.max d.now t) ∧ (d.nextLower ((List.range 6).map d.oppTarget) = some r)) ∧
    (∃ d : Dev, ∃ r : Nat, ∃ k : Nat, (d.rst.held = false) ∧ (r < 6) ∧ (k < 8) ∧ (d.pwr.changing.getD r none = some k) ∧ (d.pwr.opp.length = 6) ∧ (d.pwr.waiting.length = 6)) ∧
    (∃ d : Dev, ∃ f : Nat, ∃ v : Nat, (d.rst.held = false) ∧ (f < 16) ∧ (bits v 13 6 = 0)) ∧
    (∃ d : Dev, ∃ f : Nat, ∃ v : Nat, (d.rst.held = false) ∧ (f < 16) ∧ (d.on F.FLT_CTRL.LOCK = false) ∧ (d.f (F.PWR_PART_CFG.FLOOR f) < bits v 5 3) ∧ (d.safetyAny f = true)) ∧
    (∃ d : Dev, ∃ f : Nat, ∃ v : Nat, (d.rst.held = false) ∧ (f < 16) ∧ (bits v 13 6 ≠ 0) ∧ (d.on F.FLT_CTRL.LOCK = true)) ∧
    (∃ d : Dev, ∃ f : Nat, ∃ v : Nat, (d.rst.held = false) ∧ (f < 16) ∧ (bits v 13 6 ≠ 0) ∧ (d.on F.FLT_CTRL.LOCK = false) ∧ (bits v 5 3 ≤ d.f (F.PWR_PART_CFG.FLOOR f))) :=
  ⟨⟨dTithe 5, [7, 3, 3, 4, 4, 4], 1, by decide +kernel⟩,
    ⟨dTithe 5, [7, 3, 3, 4, 4, 4], 1, 2, by decide +kernel⟩,
    ⟨dTithe 5, [7, 3, 3, 4, 4, 4], 1, 2, by decide +kernel⟩,
    ⟨dTithe 5, [7, 3, 3, 4, 4, 4], 1, 1000, by decide +kernel⟩,
    ⟨dTithe 5, 100000, by decide +kernel⟩,
    ⟨dTithe 5, 1000, by decide +kernel⟩,
    ⟨dTithe 5, 1000, 2, by decide +kernel⟩,
    ⟨dTithe 5, 2, by decide +kernel⟩,
    ⟨setsP d0 [(F.PWR_STAT.ALERT, 1)], by decide +kernel⟩,
    ⟨pw (fun p => { p with changing := p.changing.set 1 (some 4) }) (dTithe 5), by decide +kernel⟩,
    ⟨pw (fun p => { p with polls := [60000] }) (dTithe 5), 9, by decide +kernel⟩,
    ⟨pw (fun p => { p with polls := [200000] }) (dTithe 5), 2000000, 0, by decide +kernel⟩,
    ⟨pw (fun p => { p with changing := p.changing.set 2 (some 3), waiting := p.waiting.set 2 (some 5) }) (dTithe 5), 2, 3, by decide +kernel⟩,
    ⟨dTithe 5, 0, 63, by decide +kernel⟩,
    ⟨dTithe 5, 0, 1 + 6 * 8 + 64, by decide +kernel⟩,
    ⟨(dTithe 5).set F.FLT_CTRL.LOCK 1, 0, 1 + 5 * 8 + 64, by decide +kernel⟩,
    ⟨dTithe 5, 0, 1 + 5 * 8 + 64, by decide +kernel⟩⟩

theorem test_PowerDefences :
    (∃ d : Dev, ∃ l : List Nat, (d.rst.held = false) ∧ (d.pwr.telemetry = some l)) ∧
    (∃ d : Dev, ∃ l : List Nat, (d.rst.held = false) ∧ (d.pwr.telemetry = some l)) ∧
    (∃ d : Dev, ∃ n : Nat, (d.rst.held = false) ∧ (n ∈ d.pwr.stretched)) ∧
    (∃ d : Dev, ∃ n : Nat, (d.rst.held = false) ∧ (n ∉ d.pwr.stretched) ∧ (d.domainHere n = true) ∧ ((maskHas (d.coll.src 0x1E2).minor 2 = false ∧ maskHas (d.coll.src 0x1E2).severe 2 = false)) ∧ (d.coll.ready = true)) ∧
    (∃ d : Dev, ∃ n : Nat, (d.rst.held = false) ∧ (n ∈ d.pwr.stretched)) ∧
    (∃ d : Dev, ∃ j : List Int, ∃ h : List Int, (d.rst.held = false) ∧ 
let hot := d.hot j h d.warnJ d.warnH
(hot = true) ∧ (d.on F.PWR_STAT.THERM_WARN = false) ∧ (d.coll.ready = true)) ∧
    (∃ d : Dev, ∃ j : List Int, ∃ h : List Int, (d.rst.held = false) ∧ 
let hot := d.hot j h d.warnJ d.warnH
(hot = true) ∧ (d.on F.PWR_STAT.THERM_WARN = true)) ∧
    (∃ d : Dev, ∃ j : List Int, ∃ h : List Int, (d.rst.held = false) ∧ 
let hot := d.hot j h d.warnJ d.warnH
(hot = false)) ∧
    (∃ d : Dev, ∃ t : Nat, (d.rst.held = false) ∧ (Nat.max d.now t < d.pwr.capStepAt + 10000000)) ∧
    (∃ d : Dev, ∃ t : Nat, (d.rst.held = false) ∧ (d.on F.PWR_STAT.THERM_WARN = true) ∧ (d.pwr.capStepAt + 10000000 ≤ Nat.max d.now t)) ∧
    (∃ d : Dev, ∃ j : List Int, ∃ h : List Int, ∃ t : Nat, (d.rst.held = false) ∧ (d.on F.PWR_STAT.THERM_WARN = false) ∧ (d.hot j h (d.warnJ - 2) (d.warnH - 2) = false) ∧ (d.pwr.capStepAt + 10000000 ≤ Nat.max d.now t)) ∧
    (∃ d : Dev, (d.rst.held = false) ∧ (d.coll.ready = true) ∧ (d.pwr.opp.length = 6) ∧ (d.pwr.alertCause = false)) ∧
    (∃ d : Dev, ∃ j : List Int, ∃ h : List Int, (d.rst.held = false) ∧ (d.coll.ready = true) ∧ (d.pwr.opp.length = 6) ∧ (d.pwr.tripCause = false) ∧ (d.hot j h 115 105 = true)) ∧
    (∃ d : Dev, (d.rst.held = false) ∧ (d.pwr.alertCause = true)) ∧
    (∃ d : Dev, ∃ j : List Int, ∃ h : List Int, (d.rst.held = false) ∧ (d.pwr.tripCause = true) ∧ (d.hot j h 115 105 = false)) ∧
    (∃ d : Dev, ∃ t : Nat, ∃ x : Nat, (d.rst.held = false) ∧ (d.pwr.alertHold = some x) ∧ (Nat.max d.now t < x)) ∧
    (∃ d : Dev, ∃ t : Nat, ∃ x : Nat, (d.rst.held = false) ∧ (d.pwr.alertHold = some x) ∧ (x ≤ Nat.max d.now t)) ∧
    (∃ d : Dev, ∃ t : Nat, ∃ x : Nat, (d.rst.held = false) ∧ (d.pwr.tripHold = some x) ∧ (x ≤ Nat.max d.now t)) :=
  ⟨⟨dTele, [0, 1, 2], by decide +kernel⟩,
    ⟨dTele, [0, 1, 2], by decide +kernel⟩,
    ⟨pw (fun p => { p with stretched := [3] }) d0, 3, by decide +kernel⟩,
    ⟨d0, 3, by decide +kernel⟩,
    ⟨pw (fun p => { p with stretched := [3, 6] }) d0, 3, by decide +kernel⟩,
    ⟨d0, [120, 60, 60, 60, 60, 60, 50, 50], [40, 40], by decide +kernel⟩,
    ⟨dWarn d0, [120, 60, 60, 60, 60, 60, 50, 50], [40, 40], by decide +kernel⟩,
    ⟨d0, [40, 40, 40, 40, 40, 40, 40, 40], [40, 40], by decide +kernel⟩,
    ⟨dWarn d0, 9, by decide +kernel⟩,
    ⟨dWarn d0, 20000000, by decide +kernel⟩,
    ⟨pw (fun p => { p with capCut := 20000 }) d0, [40, 40, 40, 40, 40, 40, 40, 40], [40, 40], 20000000, by decide +kernel⟩,
    ⟨d0, by decide +kernel⟩,
    ⟨d0, [40, 40, 40, 40, 40, 40, 40, 40], [40, 105], by decide +kernel⟩,
    ⟨pw (fun p => { p with alertCause := true }) d0, by decide +kernel⟩,
    ⟨pw (fun p => { p with tripCause := true }) d0, [40, 40, 40, 40, 40, 40, 40, 40], [40, 40], by decide +kernel⟩,
    ⟨pw (fun p => { p with alertHold := some 50 }) d0, 9, 50, by decide +kernel⟩,
    ⟨pw (fun p => { p with alertHold := some 50 }) d0, 50, 50, by decide +kernel⟩,
    ⟨pw (fun p => { p with tripHold := some 50 }) d0, 50, 50, by decide +kernel⟩⟩

/-! ## sec -/

/-- An RSA-3072 key made for these tests, and its hash by an outside SHA-256. -/
def keyN : Nat :=
  [0x5d9a6b8ca39a0a8ba40c74da6eb06301548fd75c81d7987ca914703ea1bc20b4d0e1fb4c22baeceba07358ccbf924fbd,
   0x33a8f592b91530b9bc07fa733a57eed111b35ec62f7efbde80cee6359c70c48020e7c33b82ddda7b3779ac88b66b2188,
   0x22bdb6c7fbb94008ea1a8961a32a03925988a75658d4a9928871fc423343fba1d4010da663f3fa14f7b955dde970d2e4,
   0xa1aaaf3b618d6fc03c647a766e8899ce160f72173441bb0127a32633e0289b1cd7cc47bff790dda3d06d6eb1885c5f4d,
   0x3c5cd4bb2d3a29556755b0c502cd8074d57fc59adbd168d210d3868a7933157f4eeee705d8886f2364c760cf5032876f,
   0x3ac4336ac0287e45345473187df5f7eedb1f17c5e60202242bf007dff4a64a3610ee205cecd4f331691bee9dedf4e47e,
   0x654b13d04b4b542fe05f5da54e6f7e4ab534d546ff9f71cf67be097d12121bcb68f71790b7f7f39230af9eb0d56a0cc2,
   0xbea80042327c2ab1b5489d9c1be05546c0eeb3a7f36296cbf6fd46c5e1d073c76d8682402d0373c464ab8efeef4537e6].foldr (fun x v => x + 2 ^ 384 * v) 0
def keyH : List Nat := [221, 53, 133, 67, 212, 193, 113, 165, 155, 229, 27, 9, 121, 253, 208, 47, 20, 212, 255, 255, 158, 27, 5, 234, 74, 225, 174, 159, 231, 121, 34, 46]
/-- An image of both signatures, made outside the model with that key: no code, a zero configuration block, SVN 2, interface 3. -/
def sigV : Nat :=
  [0x676c7d93bf0f3cfc13bb2626bc474063e6504fc4f961644430f3ba57716ff7f97ae2d4309c4958400a7795fa40ae64db,
   0xf22eea79fb70c1ca3d361e1d16a12e4f16bff131d8e11d6099240565763b90ca709cbb1e85587275c6aa32d5747226b1,
   0x9f44897f189b694517c3ff87a7347abaa08c83f55c9360af77ee2ef56456ae4ef0bbd1ba10b7b4c3e5104e98c34669a2,
   0x1a3d9df0283cef6f7e2e6320836862654f5f1cf6ca2017fdb13964faed52044518b7c766272e0b888e7138e9fb82c932,
   0x76b7746f562889287cae4ec9b7694adde63559bbcf461f4bed5ef59a6293face6aad55f4ecf034b8dc4acbe8d3c9445f,
   0x42b9184a59b8556cc74efa80009cd3114c28a956de254c19251bfb0809549247ff983a9a268eca62a3c91ebdaedfe9c3,
   0xc48ccccca3fe60f83174e10235a77a6192ca4ae8183beb5f1a314b6153af228c91fae8e2d6ab8cd47cfc5fc68e227295,
   0x6c8771102b1bda60118fc6949f151ce032d1207c74bfa494092dcb2d53bca501c5b82aea5b2105b3fdf0945f8b4b5966].foldr (fun x v => x + 2 ^ 384 * v) 0
def sigI : Nat :=
  [0x11849a11ba6c27165f4c28cfd8320b41b3ed89ae5176e85630a32ca71c1f8d40a4c28f76c7c5ea811dadaf3af0376baa,
   0x1d8682d36f4fcd1666ce1cf36ffa6761d70a65166426fddec4110044abe92377eb794464075f0497df2b5e320489c411,
   0xfad9835f6cb3b0a6b5eb35a67d60b66cf5b53c59485510178a49adadae5a085b4e0f350cc34b51f5e5ebfc5c5c32cad3,
   0x984f18d0835d8bf4783433316830feb313d73ff5ed263b96721f2c2d29142756292c333d71ce6b8810a1b4931e1e407d,
   0xcdcbe6bf5a9c7569151dc4c5753388b24f1c6c997c40b69c43a83c423178ad5ed590d0500da4d91eef0d790208aeffcf,
   0xc6c2da97bf0e780f6822f237143139b27d33587a28c7ee6cc601441b53884d556966f6864c500b7973010a66ab03e5b8,
   0x37765dd3a15a2ecfa30908b4a0de6128dfc608446c53c9ac0e6c891b56dacc373fef190d1c5a19a65e8840cf1e595604,
   0x2c4143c2e12bd56f7fa9ea430927219edb69d7cd3134506a5dff899f01561e706a56a676e01cf0691f4acbd79ad18c66].foldr (fun x v => x + 2 ^ 384 * v) 0
def img : List Nat :=
  let key := leBytes 384 keyN ++ leBytes 4 65537
  leBytes 4 0x57464743 ++ [1, 0, 1, 2] ++ leBytes 4 2048 ++ [3, 7, 0, 0] ++ leBytes 4 1280 ++ leBytes 4 0 ++ leBytes 4 1024 ++ leBytes 4 256 ++
  List.replicate 32 0 ++ key ++ List.replicate 60 0 ++ key ++ List.replicate 380 0 ++ leBytes 384 sigV ++ leBytes 384 sigI
/-- A part whose fuses hold that key for the vendor and the integrator, and require the integrator's signature; it has staged the image. -/
def dImg : Dev :=
  let d := d0.set F.SEC_UPD_STAT.STATE 1
  { d with fuses := { d.fuses with vendorKeyHash := keyH, intKeyHash := keyH, intKeyEn := true, intRequire := true, svn := 2 },
            sec := { d.sec with staging := img } }

def secOf (f : Sec → Sec) (d : Dev) : Dev := { d with sec := f d.sec }
def updAt (st : Nat) : Dev := d0.set F.SEC_UPD_STAT.STATE st
def standby (b : Bool) (d : Dev) : Dev := { d with safe := { d.safe with standby := b } }
/-- An image that is only its header, of a given length and interface. -/
def hdrImg (abi : Nat) : List Nat := leBytes 8 0 ++ leBytes 4 64 ++ [abi] ++ List.replicate 51 0
def fused (f : Fuses → Fuses) : Dev := { d0 with fuses := f d0.fuses }
/-- The next tick of the frame grid is due at 33 ms. -/
def ticks (d : Dev) : Dev := { d with running := true, frame := { d.frame with started := true, nextTick := 33000000 } }
def md1 : Module := mdOf [] []

/-- The image that an outside RSA and SHA-256 signed is accepted, every check of Table 5 made. -/
theorem test_signedImage : dImg.imageErr img = 0 := by decide +kernel

theorem test_UpdatesAreVerifiedWrittenAndActivated :
    (∃ d : Dev, (d.rst.held = false) ∧ (d.on F.SEC_UPD_CTRL.BUSY = true)) ∧
    (∃ d : Dev, (d.rst.held = false) ∧ (d.on F.SEC_UPD_CTRL.BUSY = true)) ∧
    (∃ d : Dev, (d.rst.held = false) ∧ (d.on F.SEC_UPD_CTRL.BUSY = true)) ∧
    (∃ d : Dev, (d.rst.held = false) ∧ (d.on F.SEC_UPD_CTRL.BUSY = false) ∧ 
let st := d.f F.SEC_UPD_STAT.STATE
(st ∈ [0, 2, 4, 6]) ∧ (d.poisonIn (d.f F.SEC_UPD_SRC.ADDR) (d.f F.SEC_UPD_LEN.LENGTH) = [])) ∧
    (∃ d : Dev, ∃ g : Nat, ∃ l : List Nat, (d.rst.held = false) ∧ (d.on F.SEC_UPD_CTRL.BUSY = false) ∧ 
let st := d.f F.SEC_UPD_STAT.STATE
(st ∈ [0, 2, 4, 6]) ∧ (d.poisonIn (d.f F.SEC_UPD_SRC.ADDR) (d.f F.SEC_UPD_LEN.LENGTH) = g :: l) ∧ (d.coll.ready = true)) ∧
    (∃ d : Dev, (d.rst.held = false) ∧ (d.on F.SEC_UPD_CTRL.BUSY = false) ∧ 
let st := d.f F.SEC_UPD_STAT.STATE
(st ∈ [0, 2, 4, 6])) ∧
    (∃ d : Dev, (d.rst.held = false) ∧ (d.on F.SEC_UPD_CTRL.BUSY = false) ∧ 
let st := d.f F.SEC_UPD_STAT.STATE
(st ∉ [0, 2, 4, 6])) ∧
    (∃ d : Dev, (d.rst.held = false) ∧ (d.on F.SEC_UPD_CTRL.BUSY = false) ∧ 
let st := d.f F.SEC_UPD_STAT.STATE
(st = 2)) ∧
    (∃ d : Dev, (d.rst.held = false) ∧ (d.on F.SEC_UPD_CTRL.BUSY = false) ∧ 
let st := d.f F.SEC_UPD_STAT.STATE
(st ≠ 2)) ∧
    (∃ d : Dev, (d.rst.held = false) ∧ (d.on F.SEC_UPD_CTRL.BUSY = false) ∧ 
let st := d.f F.SEC_UPD_STAT.STATE

let staged := d.sec.staging.take (bfield d.sec.staging 8 4)
(st = 2 ∨ st = 4) ∧ (d.sec.overLink = false) ∧ (d.safe.standby = true) ∧ ((imgAbi (some staged) = imgAbi d.sec.running ∨ d.mods = []))) ∧
    (∃ d : Dev, (d.rst.held = false) ∧ (d.on F.SEC_UPD_CTRL.BUSY = false) ∧ 
let st := d.f F.SEC_UPD_STAT.STATE
(st = 2 ∨ st = 4) ∧ (d.sec.overLink = false) ∧ (d.safe.standby = false)) ∧
    (∃ d : Dev, (d.rst.held = false) ∧ (d.on F.SEC_UPD_CTRL.BUSY = false) ∧ 
let st := d.f F.SEC_UPD_STAT.STATE

let staged := d.sec.staging.take (bfield d.sec.staging 8 4)
(st = 2 ∨ st = 4) ∧ (d.sec.overLink = false) ∧ (d.safe.standby = true) ∧ (imgAbi (some staged) ≠ imgAbi d.sec.running) ∧ (d.mods ≠ [])) ∧
    (∃ d : Dev, (d.rst.held = false) ∧ (d.on F.SEC_UPD_CTRL.BUSY = false) ∧ 
let st := d.f F.SEC_UPD_STAT.STATE
(st = 2 ∨ st = 4) ∧ (d.sec.overLink = true)) ∧
    (∃ d : Dev, (d.rst.held = false) ∧ (d.on F.SEC_UPD_CTRL.BUSY = false) ∧ 
let st := d.f F.SEC_UPD_STAT.STATE
(st ∉ [2, 4])) ∧
    (∃ d : Dev, (d.rst.held = false) ∧ (d.f F.SEC_UPD_STAT.STATE = 1) ∧ (d.imageErr d.sec.staging = 0)) ∧
    (∃ d : Dev, (d.rst.held = false) ∧ (d.f F.SEC_UPD_STAT.STATE = 1) ∧ (d.imageErr d.sec.staging ≠ 0)) ∧
    (∃ d : Dev, (d.rst.held = false) ∧ (d.f F.SEC_UPD_STAT.STATE = 3)) ∧
    (∃ d : Dev, (d.rst.held = false) ∧ (d.f F.SEC_UPD_STAT.STATE = 3)) ∧
    (∃ d : Dev, ∃ t : Nat, (d.rst.held = false) ∧ (d.f F.SEC_UPD_STAT.STATE = 5) ∧ (d.safe.standby = true) ∧ ((d.at_ t).tickNow = false)) ∧
    (∃ d : Dev, ∃ t : Nat, (d.rst.held = false) ∧ (d.f F.SEC_UPD_STAT.STATE = 5) ∧ (d.safe.standby = true) ∧ ((d.at_ t).tickNow = true)) ∧
    (∃ d : Dev, ∃ b : List Nat, (d.imageErr b = 0)) ∧
    (∃ d : Dev, ∃ b : List Nat, (d.imageErr b = 0)) ∧
    (∃ d : Dev, ∃ b : List Nat, (d.imageErr b = 0)) ∧
    (∃ d : Dev, ∃ b : List Nat, (d.imageErr b = 0)) ∧
    (∃ d : Dev, ∃ b : List Nat, (d.imageErr b = 0) ∧ (d.fuses.intKeyEn = true) ∧ (d.fuses.intRequire = true)) :=
  ⟨⟨d0.set F.SEC_UPD_CTRL.BUSY 1, by decide +kernel⟩,
    ⟨d0.set F.SEC_UPD_CTRL.BUSY 1, by decide +kernel⟩,
    ⟨d0.set F.SEC_UPD_CTRL.BUSY 1, by decide +kernel⟩,
    ⟨(updAt 6).set F.SEC_UPD_LEN.LENGTH 64, by decide +kernel⟩,
    ⟨Dev.setPoison ((updAt 6).set F.SEC_UPD_LEN.LENGTH 128) [0x40], 64, [], by decide +kernel⟩,
    ⟨(updAt 4).set F.SEC_UPD_LEN.LENGTH 64, by decide +kernel⟩,
    ⟨updAt 5, by decide +kernel⟩,
    ⟨updAt 2, by decide +kernel⟩,
    ⟨updAt 4, by decide +kernel⟩,
    ⟨standby true (secOf (fun s => { s with staging := hdrImg 1 }) (updAt 2)), by decide +kernel⟩,
    ⟨standby false (updAt 4), by decide +kernel⟩,
    ⟨{ standby true (secOf (fun s => { s with staging := hdrImg 1 }) (updAt 4)) with mods := [(1, md1)] }, by decide +kernel⟩,
    ⟨secOf (fun s => { s with staging := hdrImg 1, overLink := true }) (updAt 2), by decide +kernel⟩,
    ⟨updAt 6, by decide +kernel⟩,
    ⟨dImg, ⟨by decide +kernel, by decide +kernel, test_signedImage⟩⟩,
    ⟨updAt 1, by decide +kernel⟩,
    ⟨updAt 3, by decide +kernel⟩,
    ⟨updAt 3, by decide +kernel⟩,
    ⟨ticks (standby true (updAt 5)), 32999999, by decide +kernel⟩,
    ⟨ticks (standby true (secOf (fun s => { s with staging := hdrImg 1 }) (updAt 5))), 33000000, by decide +kernel⟩,
    ⟨dImg, img, test_signedImage⟩,
    ⟨dImg, img, test_signedImage⟩,
    ⟨dImg, img, test_signedImage⟩,
    ⟨dImg, img, test_signedImage⟩,
    ⟨dImg, img, ⟨test_signedImage, by decide +kernel⟩⟩⟩

theorem test_FusesAttestationAndSignatures :
    (∃ d : Dev, (d.rst.held = false) ∧ (d.fuses.provisioned = true ∨ d.on F.SEC_FUSE_PROG.BUSY = true)) ∧
    (∃ d : Dev, (d.rst.held = false) ∧ (d.fuses.provisioned = false) ∧ (d.on F.SEC_FUSE_PROG.BUSY = false)) ∧
    (∃ d : Dev, ∃ field : Nat, ∃ nonce : List Nat, (d.rst.held = false) ∧ (d.sec.fuse = some (field, nonce))) ∧
    (∃ d : Dev, (d.rst.held = false) ∧ (imgSvn d.sec.running ≤ d.fuses.svn)) ∧
    (∃ d : Dev, (d.rst.held = false) ∧ (d.fuses.svn < imgSvn d.sec.running) ∧ (d.on F.SEC_SVN.BUSY = false)) ∧
    (∃ d : Dev, ∃ n : Nat, (d.rst.held = false) ∧ (d.sec.svn = some n)) ∧
    (∃ d : Dev, (d.rst.held = false) ∧ (d.on F.SEC_ATT_CTRL.BUSY = true)) ∧
    (∃ d : Dev, (d.rst.held = false) ∧ (d.on F.SEC_ATT_CTRL.BUSY = false)) ∧
    (∃ d : Dev, ∃ body : List Nat, ∃ dst : Nat, (d.rst.held = false) ∧ (d.sec.att = some (body, dst)) ∧ (dst % 64 ≠ 0)) ∧
    (∃ d : Dev, ∃ body : List Nat, ∃ dst : Nat, (d.rst.held = false) ∧ (d.sec.att = some (body, dst)) ∧ (dst % 64 = 0) ∧ (d.inPart 0 dst (body.length + 384) = false)) ∧
    (∃ d : Dev, ∃ body : List Nat, ∃ dst : Nat, (d.rst.held = false) ∧ (d.sec.att = some (body, dst)) ∧ (dst % 64 = 0) ∧ (d.inPart 0 dst (body.length + 384) = true) ∧ (d.mem.poison = []) ∧ (d.stackLost dst = false)) ∧
    (∃ d : Dev, ∃ v : Nat, (d.rst.held = false) ∧ (bitOf v 16 = false) ∧ 
let breaks := fun (m : Module) => m.signed = false ∧ maskHas (v % 65536) m.part = true ∧ maskHas (d.f F.SEC_SIGREQ.REQ) m.part = false
(d.on F.FLT_CTRL.LOCK = true ∨ (∃ m ∈ d.mods, breaks m.2))) ∧
    (∃ d : Dev, ∃ v : Nat, (d.rst.held = false) ∧ (bitOf v 16 = false) ∧ 
let breaks := fun (m : Module) => m.signed = false ∧ maskHas (v % 65536) m.part = true ∧ maskHas (d.f F.SEC_SIGREQ.REQ) m.part = false
(d.on F.FLT_CTRL.LOCK = false) ∧ ((∀ m ∈ d.mods, ¬ breaks m.2))) :=
  ⟨⟨fused (fun f => { f with provisioned := true }), by decide +kernel⟩,
    ⟨d0, by decide +kernel⟩,
    ⟨secOf (fun s => { s with fuse := some (0, List.replicate 32 5) }) d0, 0, List.replicate 32 5, by decide +kernel⟩,
    ⟨d0, by decide +kernel⟩,
    ⟨secOf (fun s => { s with running := some (leBytes 7 0 ++ [3]) }) d0, by decide +kernel⟩,
    ⟨secOf (fun s => { s with svn := some 3 }) d0, 3, by decide +kernel⟩,
    ⟨d0.set F.SEC_ATT_CTRL.BUSY 1, by decide +kernel⟩,
    ⟨d0, by decide +kernel⟩,
    ⟨secOf (fun s => { s with att := some ([71, 84, 65, 84], 65) }) d0, [71, 84, 65, 84], 65, by decide +kernel⟩,
    ⟨secOf (fun s => { s with att := some ([71, 84, 65, 84], 0x1000000000) }) d0, [71, 84, 65, 84], 0x1000000000, by decide +kernel⟩,
    ⟨(secOf (fun s => { s with att := some ([71, 84, 65, 84], 64) }) d0).set (F.MEM_PART_RANGE.SIZE 0) 16, [71, 84, 65, 84], 64, by decide +kernel⟩,
    ⟨{ d0 with mods := [(1, md1)] }, 1, by decide +kernel⟩,
    ⟨{ d0 with mods := [(1, { md1 with signed := true })] }, 1, by decide +kernel⟩⟩

/-! ## rpl -/

def rsets (d : Dev) (l : List (Fld × Nat)) : Dev := l.foldl (fun d p => Dev.set d p.1 p.2) d
/-- A replay of two Fathom samples of partition 0 in two slots, as START takes it: table, slots and streams in HBM. -/
def dRpl : Dev :=
  rsets d0 [(F.HIF_PF_FN_FLAGS.COUNT 0, 8), (F.MEM_PART_RANGE.SIZE 0, 16), (F.RPL_TABLE.ADDR, 0x2000), (F.RPL_COUNT.N, 2), (F.RPL_OUT.ADDR, 0x10000),
    (F.RPL_SLOTS.COUNT, 2), (F.RPL_SLOTS.UNITS, 1), (F.RPL_FLAG.OUT_FLAG, 3), (F.RPL_FLAG.CONS_FLAG, 4), (F.RPL_MAX.MAX_W, 64), (F.RPL_MAX.MAX_H, 64),
    (F.RPL_MAXPTS.MAX_POINTS, 100), (F.RPL_BUDGET.MULT, 4), (F.RPL_BUDGET.CEIL_MS, 10), (F.RPL_INIT.INIT_NS, 5000)]
/-- A Fathom sweep of two points in steps of one half. -/
def sweep : List Nat :=
  leBytes 4 0x4D485446 ++ leBytes 4 1 ++ leBytes 4 2 ++ leBytes 4 0x3F000000 ++ leBytes 8 0 ++ leBytes 4 14 ++ leBytes 4 0 ++
  [2, 1, 4, 9, 7, 1, 0] ++ [2, 0, 0, 200, 7, 1, 3]
def rEntry : List Nat := leBytes 8 0x4000 ++ leBytes 4 46 ++ [1, 0, 0, 0] ++ leBytes 16 0x1234
/-- The session under way. -/
def dPlay (f : Rpl → Rpl) : Dev :=
  let d := putBytes (putBytes (dRpl.set F.RPL_CTRL.BUSY 1) 0x2000 (rEntry ++ rEntry)) 0x4000 sweep
  let d := rsets d [(F.RPL_AVG.AVG_NS 0, 5000), (F.RPL_AVG.AVG_NS 1, 6000)]
  { d with rpl := f { d.rpl with next := 0, pos := 0, flagged := 0, lanes := [none, none, none, none], ready := [] } }
def lane0 (q : Nat) : Lane := ⟨q, q, 0, q, rEntry, 100, 20000⟩
def inLane (q : Nat) : Rpl → Rpl := fun r => { r with next := q + 1, pos := q + 1, lanes := r.lanes.set 2 (some (lane0 q)) }

theorem test_ReplaySessionsEmitInOrder :
    (∃ d : Dev, (d.rst.held = false) ∧ (d.full = true) ∧ (d.on F.RPL_CTRL.BUSY = true)) ∧
    (∃ d : Dev, (d.rst.held = false) ∧ (d.full = true) ∧ (d.on F.RPL_CTRL.BUSY = false) ∧ (d.startStatus ≠ stOk)) ∧
    (∃ d : Dev, (d.rst.held = false) ∧ (d.full = true) ∧ (d.on F.RPL_CTRL.BUSY = false) ∧ (d.startStatus = stOk)) ∧
    (∃ d : Dev, (d.rst.held = false) ∧ (d.full = true)) ∧
    (∃ d : Dev, (d.startStatus = stOk)) ∧
    (∃ d : Dev, ∃ lane : Nat, (d.rst.held = false) ∧ (lane < 4) ∧ (d.rpl.lanes.length = 4) ∧ (d.rplOn = true) ∧ 
let n := d.f F.RPL_COUNT.N

let busy := n ≤ d.rpl.pos ∨ (d.rpl.lanes.getD lane none).isSome = true ∨ d.slotFree d.rpl.next = false
(busy)) ∧
    (∃ d : Dev, ∃ lane : Nat, (d.rst.held = false) ∧ (lane < 4) ∧ (d.rpl.lanes.length = 4) ∧ (d.rplOn = true) ∧ 
let n := d.f F.RPL_COUNT.N

let busy := n ≤ d.rpl.pos ∨ (d.rpl.lanes.getD lane none).isSome = true ∨ d.slotFree d.rpl.next = false
(¬ busy)) ∧
    (∃ d : Dev, ∃ lane : Nat, ∃ t : Nat, ∃ x : Lane, (d.rst.held = false) ∧ (lane < 4) ∧ (d.rpl.lanes.length = 4) ∧ (d.rplOn = true) ∧ 
let n := d.f F.RPL_COUNT.N

let busy := n ≤ d.rpl.pos ∨ (d.rpl.lanes.getD lane none).isSome = true ∨ d.slotFree d.rpl.next = false
(¬ busy) ∧ ((d.laneBegin lane t).rpl.lanes.getD lane none = some x)) ∧
    (∃ d : Dev, ∃ lane : Nat, ∃ t : Nat, ∃ g : Nat, ∃ acc : Nat, ∃ x : Lane, (d.rst.held = false) ∧ (d.rplOn = true) ∧ (d.rpl.lanes.getD lane none = some x) ∧ (d.samplePoison x = some (g, acc)) ∧ (Nat.max d.now t ≤ x.started + x.budget + 1) ∧ (d.coll.ready = true)) ∧
    (∃ d : Dev, ∃ lane : Nat, ∃ t : Nat, ∃ g : Nat, ∃ acc : Nat, ∃ x : Lane, (d.rst.held = false) ∧ (d.rplOn = true) ∧ (d.rpl.lanes.getD lane none = some x) ∧ (d.samplePoison x = some (g, acc)) ∧ (Nat.max d.now t ≤ x.started + x.budget + 1) ∧ (d.coll.ready = true)) ∧
    (∃ d : Dev, ∃ lane : Nat, ∃ t : Nat, ∃ g : Nat, ∃ acc : Nat, ∃ x : Lane, (d.rst.held = false) ∧ (d.rplOn = true) ∧ (d.rpl.lanes.getD lane none = some x) ∧ (d.samplePoison x = some (g, acc)) ∧ (Nat.max d.now t ≤ x.started + x.budget + 1) ∧ (d.coll.ready = true)) ∧
    (∃ d : Dev, ∃ lane : Nat, ∃ t : Nat, ∃ x : Lane, (d.rst.held = false) ∧ (d.rplOn = true) ∧ (d.rpl.lanes.getD lane none = some x) ∧ (d.rpl.ready = []) ∧ (d.mem.poison = []) ∧ (d.leap.dieLost = []) ∧ 
let now := Nat.max d.now t
(x.started + x.budget + 1 < now)) ∧
    (∃ d : Dev, ∃ lane : Nat, ∃ t : Nat, ∃ x : Lane, (d.rst.held = false) ∧ (d.rplOn = true) ∧ (d.rpl.lanes.getD lane none = some x) ∧ (d.rpl.ready = []) ∧ (d.mem.poison = []) ∧ (d.leap.dieLost = []) ∧ 
let now := Nat.max d.now t
(now ≤ x.started + x.budget + 1)) ∧
    (∃ d : Dev, ∃ lane : Nat, ∃ t : Nat, ∃ x : Lane, (d.rst.held = false) ∧ (d.rplOn = true) ∧ (d.rpl.lanes.getD lane none = some x) ∧ (d.rpl.ready = []) ∧ (d.mem.poison = []) ∧ (d.leap.dieLost = []) ∧ 
let now := Nat.max d.now t
(now < x.started + x.budget + 1)) ∧
    (∃ d : Dev, ∃ lane : Nat, ∃ t : Nat, ∃ x : Lane, (d.rst.held = false) ∧ (d.rplOn = true) ∧ (d.rpl.lanes.getD lane none = some x) ∧ (d.rpl.ready = []) ∧ (d.mem.poison = []) ∧ (d.leap.dieLost = []) ∧ 
let now := Nat.max d.now t
(x.started + x.budget + 1 ≤ now)) :=
  ⟨⟨dRpl.set F.RPL_CTRL.BUSY 1, by decide +kernel⟩,
    ⟨dRpl.set F.RPL_FIRST.FIRST 2, by decide +kernel⟩,
    ⟨dRpl, by decide +kernel⟩,
    ⟨dPlay (inLane 0), by decide +kernel⟩,
    ⟨dRpl, by decide +kernel⟩,
    ⟨dPlay (fun r => { r with pos := 2, next := 2 }), 2, by decide +kernel⟩,
    ⟨(dPlay (fun r => { r with pos := 1, next := 1 })).set F.RPL_CTRL.LOOP 1, 2, by decide +kernel⟩,
    ⟨dPlay same, 2, 900, (((dPlay same).laneBegin 2 900).rpl.lanes.getD 2 none).getD (lane0 0), by decide +kernel⟩,
    ⟨(dPlay (inLane 0)).setPoison [0x4000], 2, 900, 0x4000, accRead, lane0 0, by decide +kernel⟩,
    ⟨(dPlay (inLane 0)).setPoison [0x4000], 2, 900, 0x4000, accRead, lane0 0, by decide +kernel⟩,
    ⟨(dPlay (inLane 0)).setPoison [0x4000], 2, 900, 0x4000, accRead, lane0 0, by decide +kernel⟩,
    ⟨dPlay (inLane 0), 2, 20200, lane0 0, by decide +kernel⟩,
    ⟨dPlay (inLane 0), 2, 900, lane0 0, by decide +kernel⟩,
    ⟨dPlay (inLane 1), 2, 900, lane0 1, by decide +kernel⟩,
    ⟨dPlay (inLane 1), 2, 30000, lane0 1, by decide +kernel⟩⟩

/-! ## Worked examples of the spec -/

/-- The unit identifier of the example after R15. -/
theorem test_unitIdentifier : engUnit 18 4 = 0x0AA0 := by decide

/-- The value of HIF_CAP that the example after R4 reads on a GV-9400. -/
theorem test_capability : (fused (fun f => { f with partCode := 0x9400 })).cap = 0x00000F75 := by decide +kernel

/-- CD_CLU_LEAP of the example after R38, before and after physical engine 3 is fenced. -/
theorem test_leapWord :
    (d0.modClu 0 (fun c => { c with le := [2, 3, 4, 0], spare := 1, pc := [1, 2], pcSpare := 0, seqActive := 1 })).leapWord 0 = 0x2090111A ∧
    (d0.modClu 0 (fun c => { c with le := [2, 1, 4, 0], spare := 7, engFenced := [3], pc := [1, 2], pcSpare := 0, seqActive := 1 })).leapWord 0 =
      0x2094710A := by decide +kernel

/-- The tick of the example after R63. -/
theorem test_tick : tickFrom 0 33333333 39999999000 = 39999999600 := by decide +kernel

/-- The scratchpad addresses of the example after R130. -/
theorem test_scratchpadAddress : spDecode 0x3C400200 = some (.reg 1 0x400200) ∧ spDecode 0x28801000 = some (.eng 6 1 0x1000) := by decide

/-- A tensor of the given type, layout and sizes. -/
def tens (dt lay : Nat) (dims : List Nat) : TDesc := ⟨0, dt, lay, 0, false, 1, true, 0, 0, dims, [0, 0, 0], 0⟩
/-- The Bolt places of the examples after R156 and R165, in half bytes. -/
theorem test_boltPlaces :
    (tens 1 1 [300, 100, 1, 1]).at_ 260 70 0 0 = 2 * 0xA304 ∧ (tens 1 1 [300, 100, 1, 1]).block = 49152 ∧
    (tens 0 2 [300, 90, 1, 1]).at_ 299 5 0 0 = 2 * 0x4295 + 1 ∧ (tens 8 3 [512, 256, 1, 1]).at_ 300 130 0 0 = 2 * 328880 := by decide +kernel

/-- The requantisation of the example after R176. -/
theorem test_requantisation : [5, 7, -5].map (fun a => (requant 1 a 1073741824 31 10).1) = [12, 14, 8] := by decide +kernel

/-- The sums of the example after R181: each product is added in turn. -/
theorem test_bf16Sum :
    let x := fun b => fmtBf16.unpack b
    let s0 := (Num.fma (x 0x4580) (x 0x4580) numZero).1
    let s1 := (Num.fma (x 0x3F80) (x 0x3F80) s0).1
    s0.toBits32 = 0x4B800000 ∧ (Num.fma (x 0x3F80) (x 0x3F80) s1).1.toBits32 = 0x4B800000 ∧ (s1.toFp fmtBf16 .even false).1 = 0x4B80 := by
  decide +kernel

/-- The stochastic rounding of the example after R183. -/
theorem test_stochasticRounding :
    ((ofBits32 0x3F804000).toFp fmtBf16 (.epact 0xC1234567) false).1 = 0x3F81 ∧
    ((ofBits32 0x3F804000).toFp fmtBf16 (.epact 0x12345678) false).1 = 0x3F80 := by decide +kernel

/-- The instruction words of the example after R222, read from their bytes. -/
theorem test_instructionWord :
    let i : Ins := ⟨0, leNat [0x00, 0x14, 0xED, 0x00, 0x00, 0x00, 0x10, 0x00, 0x03, 0x11, 0x00, 0x03, 0x12, 0x00, 0x01, 0x00],
      [0x000004B0258064000000000000000000]⟩
    iCls i.w = 0 ∧ iOp i.w = 0 ∧ iExt i.w = 1 ∧ iRd0 i.w = 1 ∧ iRd1 i.w = 2 ∧ iWr i.w = 3 ∧ [0, 1, 2, 3].map (iSelf i.w) = [true, true, true, false] ∧
    [0, 1, 2].map i.slot = [0x030010, 0x030011, 0x010012] ∧ (mmFields i).m = 100 ∧ (mmFields i).n = 300 ∧ (mmFields i).k = 300 ∧
    (mmFields i).acc = false ∧ (mmFields i).v0 = none := by decide +kernel

/-- The window of the example after R256: its output, and the half byte that its element is read from. -/
theorem test_windowShape : winOut 20 2 2 2 3 1 = some 20 ∧ winOut 12 0 0 2 3 1 = some 8 ∧ (tens 1 1 [576, 160, 1, 1]).at_ 453 79 0 0 = 2 * 0x107C5 := by
  decide +kernel

/-- The indices of the example after R274, and its sums in order. -/
theorem test_gatherIndices :
    [3, -1, 3, 12, 9].map (gtResolve 0 10) = [some 3, none, some 3, none, some 9] ∧
    [3, -1, 3, 12, 9].map (gtResolve 1 10) = [some 3, some 9, some 3, some 2, some 9] ∧
    [3, -1, 3, 12, 9].map (gtResolve 2 10) = [some 3, some 0, some 3, some 9, some 9] ∧
    (addElement 5 0x3C00 0x1000).1 = 0x3C00 := by decide +kernel

/-- The ref of the example after R297 and the page sizes of the example after R287. -/
theorem test_pages :
    refOf 0x123 5 = 0x00140123 ∧ refOf 0xA40 2 = 0x00080A40 ∧ pageT 10 0 8 128 = 1023 ∧ pageT 8 0 8 128 = 255 ∧
    scaleB 8 + (3 * pageT 10 0 8 128 + 10) * rowB 128 0 + 5 = 0x603C5 := by decide +kernel

def cam5 : CamCfg :=
  { camCfg (fun _ => 0) 0 with path := 1, fmt := 4, planar := true, w := 1920, h := 1080, dt := 0x2B, cm := [], ofs := [], mean := [0x44000000, 0x44000000, 0x44000000],
                               scale := [0x3B000000, 0x3B000000, 0x3B000000] }
/-- The buffer and the pixel of stream 5 in the examples after R76 and R82. -/
theorem test_bayerPixel :
    cam5.pitch = 3840 ∧ cam5.dataOfs = 8704 ∧ cam5.length = 12450304 ∧ cam5.units = 190 ∧
    demosaic 0 1 1 3 [600, 500, 610] [490, 300, 505] [620, 510, 630] = [615, 501, 300] ∧
    [cam5.norm 0 615, cam5.norm 1 501, cam5.norm 2 300] = [leBytes 2 0x3270, leBytes 2 0xA580, leBytes 2 0xB6A0] := by decide +kernel

/-- The image, the jitter and the pixel of the example after R461. -/
theorem test_augmentation :
    (1920 - 1024 + 1) * 0x80000000 / 2 ^ 32 = 448 ∧ (1080 - 768 + 1) * 0x40000000 / 2 ^ 32 = 78 ∧
    (((ofBits32 0x43000000).add ((ofBits32 0x40800000).mul (fraction 0xC0000000)).1).1).toBits32 = 0x42FC0000 ∧
    (((ofBits32 0x3C000000).mul (num1.add ((ofBits32 0x3E000000).mul (fraction 0x20000000)).1).1).1).toBits32 = 0x3C040000 ∧
    CamCfg.norm { cam5 with mean := [0x42FC0000], scale := [0x3C040000] } 0 200 = leBytes 2 0x38C5 := by decide +kernel

/-- Source 3 with THRESH 3 and a window of 1,000 ms. -/
def dHbmCe : Dev :=
  { d0 with now := 9999999990, coll := d0.coll.setSrc 3 { d0.coll.src 3 with thresh := 3, minor := 1, severe := 3, windowMs := 1000 } }
/-- The first event of the example after R376. -/
theorem test_firstCorrection :
    let e := dHbmCe.faultEvent 3 0x79C0 0x0000000712345640 1 10000000000
    firstInfo (e.recFor .pf) = 0x820379C0 ∧ e.srcCnt 3 % 256 = 1 ∧ (e.coll.src 3).winEnd = some 11000000000 ∧ e.coll.severe = 0 ∧
    e.coll.pending = 8 := by decide +kernel
/-- The record of the example after R516. -/
theorem test_linkDownRecord : firstInfo ⟨some ⟨⟨0x1C1, 0x8041, 0, 6, 0⟩, false⟩, 0, 0⟩ = 0x8DC18041 := by decide +kernel

/-- The partitions of the example after R473, with their powers learned and a base of 43 W. -/
def dSplit (cap : Nat) : Dev :=
  let d := setsP d0 [(F.PWR_CTRL.CAP_W, cap), (F.SCH_PART_CFG.SAFETY 1, 1), (F.PWR_PART_CFG.FLOOR 1, 2), (F.PWR_PART_CFG.WEIGHT 1, 32),
    (F.PWR_PART_CFG.WEIGHT 2, 16), (F.SCH_CLU_PART.PART 0, 0x11111111), (F.SCH_CLU_PART.PART 1, 0x22222222), (F.SCH_CLU_PART.PART 2, 0x22222222)]
  let d := (d.stage (R.SCH_CLU_PART 0) (R.SCH_CLU_PART 3)).enforce (R.SCH_CLU_PART 0) (R.SCH_CLU_PART 3)
  let d := (d.stage (R.SCH_PART_CFG 0) (R.SCH_PART_CFG 16)).enforce (R.SCH_PART_CFG 0) (R.SCH_PART_CFG 16)
  pw (fun p => { p with polls := [43000], learned := [(0, [26000]), (1, [26000])] }) d
/-- The points that the allocation reaches there, at a cap of 175 W and of 60 W. -/
theorem test_powerAllocation :
    (List.range 6).map ((dSplit 175).allocate).oppTarget = [0, 0, 1, 1, 1, 1] ∧
    (List.range 6).map ((dSplit 60).allocate).oppTarget = [2, 2, 7, 7, 7, 7] ∧ ((dSplit 60).allocate).on F.PWR_STAT.FLOOR_LIMITED = true := by
  decide +kernel

/-! ## The queue -/

/-- A waiting command is run and leaves the queue; the rest of the queue stays. -/
theorem test_queue :
    (match step ⟨[.lock, .warm], d0⟩ with
     | .next s => s.pending == [.warm] && s.dev.on F.FLT_CTRL.LOCK
     | _ => false) = true := by decide +kernel
/-- An empty queue lets 1 ns pass. -/
theorem test_idle :
    (match step ⟨[], { d0 with running := true }⟩ with
     | .next s => s.dev.now == d0.now + 1
     | _ => false) = true := by decide +kernel
/-- Commands that are well formed. -/
theorem test_wellFormed :
    ([.warm, .create 15 4095, .registerWrite (.vf 15) 0x2FFFFFC 4 0xFFFFFFFF 0, .matmul 0 15 (2 ^ 64 - 1), .portTrained 5 32767 0] : List Instr).all
      Instr.wf = true := by decide

/-! ## Ill-formed commands

One command for each check of WellFormed, at the first value beyond the range. -/
def ill0 : List Instr :=
  [.maskRomBoot 2 0 false [], .maskRomBoot 0 0 false [7, 8], .functionReset 16, .keepWakeTime (2 ^ 64), .wake (.vf 16) [],
    .faultEvent [⟨0, 0, 0, 0⟩, ⟨512, 0, 0, 0⟩] 0, .faultEvent [⟨0, 0, 0, 0⟩, ⟨0, 65536, 0, 0⟩] 0,
    .faultEvent [⟨0, 0, 0, 0⟩, ⟨0, 0, 2 ^ 64, 0⟩] 0, .faultEvent [⟨0, 0, 0, 0⟩, ⟨0, 0, 0, 8⟩] 0, .faultEvent [] (2 ^ 64), .severeClear 16 0,
    .severeClear 0 (2 ^ 32), .pendingClear 16 0, .pendingClear 0 (2 ^ 32), .fltSrcCfgWrite (.vf 16) false 0, .fltSrcCfgWrite .pf false (2 ^ 32),
    .inject (.vf 16) 0 0, .inject .pf 512 0, .inject .pf 0 (2 ^ 64), .firstRecordSnapshot (.vf 16), .bPartClear 65536, .rosterReceive [1, 256],
    .rosterDigestReturn 32768 0, .rosterDigestReturn 0 (2 ^ 64), .lamPortCfgWrite 16 0, .lamPortCfgWrite 0 (2 ^ 32), .frameStart 16 0 false 0,
    .frameStart 0 16 false 0, .frameStart 0 0 false (2 ^ 64), .line 16 0 0 false false false [] 0, .line 0 16 0 false false false [] 0,
    .line 0 0 64 false false false [] 0, .line 0 0 0 false false false [1, 256] 0, .line 0 0 0 false false false [] (2 ^ 64),
    .frameEnd 16 0 false 0, .frameEnd 0 16 false 0, .frameEnd 0 0 false (2 ^ 64), .frameHeaderWritten 36 0, .frameHeaderWritten 0 (2 ^ 64),
    .lineTimeout 32 0]
theorem test_illFormed0 : ill0.all (fun i => !i.wf) = true := by decide +kernel
def ill1 : List Instr :=
  [.lineTimeout 0 (2 ^ 64), .frameTimeout 32 0, .frameTimeout 0 (2 ^ 64), .strApply 32, .streamDisable 36, .lidApply 4,
    .ethernetFrame 4 [] false 0, .ethernetFrame 0 [1, 256] false 0, .ethernetFrame 0 [] false (2 ^ 64), .gapTimeout 4 0, .gapTimeout 0 (2 ^ 64),
    .sweepTimeout 4 0, .sweepTimeout 0 (2 ^ 64), .readClear (.vf 16) 0, .readClear .pf 0x3000000, .create 16 0, .create 0 4096, .destroy 16 0,
    .destroy 0 4096, .abort 16 0, .abort 0 4096, .sqTail 16 0 0 0 0 [], .sqTail 0 4096 0 0 0 [], .sqTail 0 0 0 0 (2 ^ 64) [],
    .cqHead 16 0 0 0 0 [], .cqHead 0 4096 0 0 0 [], .cqHead 0 0 0 0 (2 ^ 64) [], .heldDoorbellResume 16 0 [], .heldDoorbellResume 0 4096 [],
    .descriptorFetch 16 0, .descriptorFetch 0 4096, .coalTimer 16 0 0, .coalTimer 0 4096 0, .coalTimer 0 0 (2 ^ 64), .bar2Write 0 [1, 256] [],
    .ringNop 16 0, .ringNop 0 4096, .ringRun 16 0, .ringRun 0 4096, .ringCopy 16 0]
theorem test_illFormed1 : ill1.all (fun i => !i.wf) = true := by decide +kernel
def ill2 : List Instr :=
  [.ringCopy 0 4096, .copyDone 16 0 0 [], .copyDone 0 4096 0 [], .copyDone 0 0 (2 ^ 64) [], .ringSignal 16 0, .ringSignal 0 4096,
    .ringWait 16 0 0, .ringWait 0 4096 0, .ringWait 0 0 (2 ^ 64), .waitRelease 16 0, .waitRelease 0 4096, .waitExpired 16 0 0,
    .waitExpired 0 4096 0, .waitExpired 0 0 (2 ^ 64), .moduleLoad 16 0 [], .moduleLoad 0 4096 [], .moduleUnload 16 0, .moduleUnload 0 4096,
    .unloadComplete 16 0, .unloadComplete 0 4096, .tdtWrite 16 0 [], .tdtWrite 0 4096 [], .poolGrant 16 0, .poolGrant 0 4096, .poolReclaim 16 0,
    .poolReclaim 0 4096, .cacheCreate 16 0, .cacheCreate 0 4096, .cacheDestroy 16 0, .cacheDestroy 0 4096, .pageAlloc 16 0, .pageAlloc 0 4096,
    .pageShare 16 0, .pageShare 0 4096, .pageFree 16 0, .pageFree 0 4096, .pageCow 16 0, .pageCow 0 4096, .cowCopyDone 16 0 [],
    .cowCopyDone 0 4096 []]
theorem test_illFormed2 : ill2.all (fun i => !i.wf) = true := by decide +kernel
def ill3 : List Instr :=
  [.spanOpen 16 0, .spanOpen 0 4096, .spanClose 16 0, .spanClose 0 4096, .spanAdvance 16 0, .spanAdvance 0 4096, .spanMap 16 0, .spanMap 0 4096,
    .spanPull 16 0, .spanPull 0 4096, .pullDone 16 0 0 [], .pullDone 0 4096 0 [], .pullDone 0 0 256 [], .pullDone 0 0 0 [1, 256],
    .pieceArrival 6 0 0 0 0 0 0 false [] 0, .pieceArrival 0 0 0 1024 0 0 0 false [] 0, .pieceArrival 0 0 0 0 65536 0 0 false [] 0,
    .pieceArrival 0 0 0 0 0 0 0 false [1, 256] 0, .pieceArrival 0 0 0 0 0 0 0 false [] (2 ^ 64), .arrivalMark 6 0 0 0 0 0,
    .arrivalMark 0 0 0 1024 0 0, .arrivalMark 0 0 0 0 65536 0, .arrivalMark 0 0 0 0 0 (2 ^ 64), .lnkCtrlWrite (2 ^ 32), .portTrained 6 0 0,
    .portTrained 0 32768 0, .portTrained 0 0 (2 ^ 64), .laneFail 6 0 0, .laneFail 0 5 0, .laneFail 0 0 (2 ^ 64),
    .flitReceive 6 (⟨0, 0, none, 0, []⟩) false, .flitReceive 0 (⟨0, 0, none, 32768, []⟩) false,
    .flitReceive 0 (⟨0, 0, none, 0, List.replicate 257 0⟩) false, .portDown 6 0, .portDown 0 (2 ^ 64), .mirrorReceive 0 [1, 256],
    .sliceExpiry 16 0 0, .sliceExpiry 0 4096 0, .sliceExpiry 0 0 (2 ^ 64), .schCtxSchedWrite (2 ^ 32)]
theorem test_illFormed3 : ill3.all (fun i => !i.wf) = true := by decide +kernel
def ill4 : List Instr :=
  [.matmul 0 16 0, .matmul 0 0 (2 ^ 64), .ewCvt 0 16 0, .ewCvt 0 0 (2 ^ 64), .ewAdd 0 16 0, .ewAdd 0 0 (2 ^ 64), .ewSub 0 16 0,
    .ewSub 0 0 (2 ^ 64), .ewMul 0 16 0, .ewMul 0 0 (2 ^ 64), .ewFma 0 16 0, .ewFma 0 0 (2 ^ 64), .ewMax 0 16 0, .ewMax 0 0 (2 ^ 64),
    .ewMin 0 16 0, .ewMin 0 0 (2 ^ 64), .ewAbs 0 16 0, .ewAbs 0 0 (2 ^ 64), .ewNeg 0 16 0, .ewNeg 0 0 (2 ^ 64), .ewRelu 0 16 0,
    .ewRelu 0 0 (2 ^ 64), .ewClamp 0 16 0, .ewClamp 0 0 (2 ^ 64), .ewAffine 0 16 0, .ewAffine 0 0 (2 ^ 64), .ewExp 0 16 0, .ewExp 0 0 (2 ^ 64),
    .ewRecip 0 16 0, .ewRecip 0 0 (2 ^ 64), .ewSqrt 0 16 0, .ewSqrt 0 0 (2 ^ 64), .ewRsqrt 0 16 0, .ewRsqrt 0 0 (2 ^ 64), .ewReluGrad 0 16 0,
    .ewReluGrad 0 0 (2 ^ 64), .ewRequant 0 16 0, .ewRequant 0 0 (2 ^ 64), .reduceSum 0 16 0, .reduceSum 0 0 (2 ^ 64)]
theorem test_illFormed4 : ill4.all (fun i => !i.wf) = true := by decide +kernel
def ill5 : List Instr :=
  [.reduceMax 0 16 0, .reduceMax 0 0 (2 ^ 64), .sgdMom 0 16 0, .sgdMom 0 0 (2 ^ 64), .adamw 0 16 0, .adamw 0 0 (2 ^ 64), .mvMove 0 16 0,
    .mvMove 0 0 (2 ^ 64), .mvPublish 0 16 0, .mvPublish 0 0 (2 ^ 64), .rebolt 0 16 0, .rebolt 0 0 (2 ^ 64), .window 0 16 0, .window 0 0 (2 ^ 64),
    .gather 0 16 0, .gather 0 0 (2 ^ 64), .scatter 0 16 0, .scatter 0 0 (2 ^ 64), .scatterAdd 0 16 0, .scatterAdd 0 0 (2 ^ 64), .attend 0 16 0,
    .attend 0 0 (2 ^ 64), .sySignal 0 16 0, .sySignal 0 0 (2 ^ 64), .syWait 0 16 0, .syWait 0 0 (2 ^ 64), .syWaitRelease 0 16 0,
    .syWaitRelease 0 0 (2 ^ 64), .syWaitExpired 0 16 0, .syWaitExpired 0 0 (2 ^ 64), .barrier 0 16 0, .barrier 0 0 (2 ^ 64), .loopBegin 0 16 0,
    .loopBegin 0 0 (2 ^ 64), .loopEnd 0 16 0, .loopEnd 0 0 (2 ^ 64), .setcount 0 16 0, .setcount 0 0 (2 ^ 64), .ctNop 0 16 0, .ctNop 0 0 (2 ^ 64)]
theorem test_illFormed5 : ill5.all (fun i => !i.wf) = true := by decide +kernel
def ill6 : List Instr :=
  [.ctEnd 0 16 0, .ctEnd 0 0 (2 ^ 64), .rdflags 0 16 0, .rdflags 0 0 (2 ^ 64), .ldarg 0 16 0, .ldarg 0 0 (2 ^ 64),
    .instructionStart 0 16 0 0 [] [] none, .instructionStart 0 0 0 (2 ^ 64) [] [] none, .instructionStart 0 0 6 0 [] [] none,
    .instructionStart 0 0 0 0 [] [] ((some (.store false 0 [1, 256]))), .instructionComplete 0 16 0 0 [], .instructionComplete 0 0 0 (2 ^ 64) [],
    .instructionComplete 0 0 6 0 [], .rotationDue 24 false 0, .rotationDue 0 false (2 ^ 64), .leapRotation 24 false 0,
    .leapRotation 0 false (2 ^ 64), .emberTestDone 65536 false [] 0, .emberTestDone 0 false [] (2 ^ 64), .sequencerSwitchover 24 0,
    .sequencerSwitchover 0 (2 ^ 64), .emberSliceStart 65536 0, .emberSliceStart 0 (2 ^ 64), .emberSliceEnd 65536 false [] 0,
    .emberSliceEnd 0 false [] (2 ^ 64), .emberDeferred 65536 0, .emberDeferred 0 (2 ^ 64), .loanBegin 24 0, .loanBegin 0 (2 ^ 64), .loanEnd 24 0,
    .loanEnd 0 (2 ^ 64), .standbySeqTest 24 false 0, .standbySeqTest 0 false (2 ^ 64), .wearRead (.vf 16), .gptpSyncTransmit 10 0,
    .gptpSyncTransmit 0 (2 ^ 64), .pdelayReq 10 0 0, .pdelayReq 0 0 (2 ^ 64), .pdelayReqTransmit 10 0, .pdelayReqTransmit 0 (2 ^ 64)]
theorem test_illFormed6 : ill6.all (fun i => !i.wf) = true := by decide +kernel
def ill7 : List Instr :=
  [.vehicleSyncSample 2 0 0 0 (⟨0, false, false, 0, 0⟩) 0, .vehicleSyncSample 0 0 1000000000 0 (⟨0, false, false, 0, 0⟩) 0,
    .vehicleSyncSample 0 0 0 0 (⟨4, false, false, 0, 0⟩) 0, .vehicleSyncSample 0 0 0 0 (⟨0, false, false, 256, 0⟩) 0,
    .vehicleSyncSample 0 0 0 0 (⟨0, false, false, 0, 2 ^ 64⟩) 0, .vehicleSyncSample 0 0 0 0 (⟨0, false, false, 0, 0⟩) (2 ^ 64), .domainLoss 2 0,
    .domainLoss 0 (2 ^ 64), .reacq 2, .domainCfgWrite 2 false 0 0, .domainCfgWrite 0 false (2 ^ 64) 0, .domainCfgWrite 0 false 0 (2 ^ 64),
    .tioApply 8 0, .tioApply 0 (2 ^ 64), .tioPulse 8 0, .tioPulse 0 (2 ^ 64), .tioEdge 8 false 0 0, .tioEdge 0 false 0 (2 ^ 64), .capPop 8,
    .laneSampleStart 4 0 [], .laneSampleStart 0 (2 ^ 64) [], .emission 4 0, .emission 0 (2 ^ 64), .late 4 0, .late 0 (2 ^ 64),
    .oppChangeDone 6 0, .oppChangeDone 0 (2 ^ 64), .droop 8 0, .droop 0 (2 ^ 64), .stretchEnd 8 0, .stretchEnd 0 (2 ^ 64),
    .pwrPartCfgWrite (.vf 16) 0 0, .pwrPartCfgWrite .pf 16 0, .pwrPartCfgWrite .pf 0 (2 ^ 32), .sigreqWrite (.vf 16) 0,
    .sigreqWrite .pf (2 ^ 32), .registerWrite (.vf 16) 0 1 0 0, .registerWrite .pf 0x4000000 1 0 0, .registerWrite .pf 0 9 0 0,
    .registerWrite .pf 0 1 256 0]
theorem test_illFormed7 : ill7.all (fun i => !i.wf) = true := by decide +kernel
def ill8 : List Instr :=
  [.registerWrite .pf 0 1 0 (2 ^ 64), .lowHalfRead (.vf 16) 0 1, .lowHalfRead .pf 0x4000000 1, .lowHalfRead .pf 0 3, .jtagAccess 16 [],
    .csi2LinkTrained 16 false, .hostLinkTrained 3 1, .hostLinkTrained 1 0, .hostLinkTrained 1 6, .dieLost 2 0, .dieLost 0 (2 ^ 64),
    .pullRequestArrival 6 0 0 0 0 0 0 [], .pullRequestArrival 0 0 1024 0 0 0 0 [], .pullRequestArrival 0 0 0 65536 0 0 0 [],
    .pullRequestArrival 0 0 0 0 0 0 (2 ^ 64) [], .announceTransmit 4 0, .announceTransmit 0 (2 ^ 64), .chipResetStart (2 ^ 64),
    .thermalShutdown (2 ^ 64), .errInEdge (2 ^ 64), .safeStateEntry (2 ^ 64), .aWindowExpiry (2 ^ 64), .lockstepMismatch 2 0,
    .lockstepMismatch 0 (2 ^ 64), .phaseStart (2 ^ 64), .budgetOverrun 0 (2 ^ 64), .pcieLaneFail 3, .pieceAck 0 0 .ack (2 ^ 64),
    .mirrorAck 32768, .dispatch 0 (2 ^ 64) [], .commitStart 0 (2 ^ 64) [], .commitEnd 0 (2 ^ 64), .holdCopyDone 0 (2 ^ 64) [],
    .comparePassDone 0 (2 ^ 64) [], .slotBCopyDone 0 (2 ^ 64) [], .troyKernelsDone 0 [] (2 ^ 64), .verdict 0 (2 ^ 64) [],
    .marchTestDone 0 false (2 ^ 64), .scrubRead 0 0 0 (2 ^ 64), .patrolRead 0 0 (2 ^ 64)]
theorem test_illFormed8 : ill8.all (fun i => !i.wf) = true := by decide +kernel
def ill9 : List Instr :=
  [.hbmLaneRepair 2 0 false 0, .hbmLaneRepair 0 1024 false 0, .hbmLaneRepair 0 0 false (2 ^ 64), .hbmRowRepair 2 0 0,
    .hbmRowRepair 0 0 (2 ^ 64), .standbyComputusTest false (2 ^ 64), .wearJournal (2 ^ 64), .followerSync (2 ^ 64) 0 0,
    .followerSync 0 0 (2 ^ 64), .followerSyncLoss (2 ^ 64), .switchSlewDone (2 ^ 64), .steerUpdate (2 ^ 64), .snapshot (2 ^ 64),
    .rplStart (2 ^ 64), .allocation (2 ^ 64), .overCapStep (2 ^ 64), .pmbusPoll (some (List.replicate 7 none)) (List.replicate 6 (0, 0)) 0,
    .pmbusPoll none (List.replicate 5 (0, 0)) 0, .pmbusPoll none (List.replicate 6 (0, 0)) (2 ^ 64),
    .thermalWarn (List.replicate 7 0) (List.replicate 2 0) 0, .thermalWarn (List.replicate 8 0) (List.replicate 1 0) 0,
    .thermalWarn (List.replicate 8 0) (List.replicate 2 0) (2 ^ 64), .thermCapStep (List.replicate 7 0) (List.replicate 2 0) 0,
    .thermCapStep (List.replicate 8 0) (List.replicate 1 0) 0, .thermCapStep (List.replicate 8 0) (List.replicate 2 0) (2 ^ 64),
    .pwrAlert (2 ^ 64), .thermalTrip (List.replicate 7 0) (List.replicate 2 0) 0, .thermalTrip (List.replicate 8 0) (List.replicate 1 0) 0,
    .thermalTrip (List.replicate 8 0) (List.replicate 2 0) (2 ^ 64), .forcingHoldExpiry false (2 ^ 64), .handover (2 ^ 64),
    .mgmtAccess (⟨128, false, none⟩) false 0 0, .mgmtAccess (⟨0, true, some 128⟩) false 0 0, .errInRise (2 ^ 64), .pwrAlertRelease (2 ^ 64),
    .tripCauseEnd (List.replicate 7 0) (List.replicate 2 0) 0, .tripCauseEnd (List.replicate 8 0) (List.replicate 1 0) 0,
    .tripCauseEnd (List.replicate 8 0) (List.replicate 2 0) (2 ^ 64), .thermWarnClear (List.replicate 7 0) (List.replicate 2 0) 0,
    .thermWarnClear (List.replicate 8 0) (List.replicate 1 0) 0]
theorem test_illFormed9 : ill9.all (fun i => !i.wf) = true := by decide +kernel
def ill10 : List Instr :=
  [.thermWarnClear (List.replicate 8 0) (List.replicate 2 0) (2 ^ 64)]
theorem test_illFormed10 : ill10.all (fun i => !i.wf) = true := by decide +kernel

/-- The checks on who makes an access. -/
theorem test_illFormedWho : [Who.vf 0, .vf 16, .cfg 16, .msix 16, .bell 16 0, .bell 0 4096].all (fun w => !w.wf) = true := by decide

end Sys2Proof.Tests
end

section
/-!
PROOFS. The state after reset (O4), and register accesses (O6).
-/
namespace Sys2Proof.Machine

/-! ## The state after reset -/

/-- A memory with nothing listed holds zeros (R503). -/
theorem Mem.read_empty (a : Nat) : Mem.empty.read a = 0 := rfl

/-- A register that is not listed reads its reset value (R10). -/
theorem Dev.reg_of_unlisted (d : Dev) (h : d.regs.cur = []) (o : Nat) : d.reg o = d.rst0 o := by
  rw [Dev.reg, h, mget]

/-- The block after reset meets the invariant that every command keeps. -/
theorem Dev.reset_sound : Dev.reset.sound = true := by decide +kernel

/-- CAP_W resets to the package power of the modelled part (R472). -/
theorem Dev.reset_capW : Dev.reset.f F.PWR_CTRL.CAP_W = 175 := by decide +kernel

/-- Settles O4: HBM and the register table are empty after reset, so every byte reads 0 and every register its reset value; the block is
sound, and the other members are those that the reset state lists. -/
theorem resetState : Obligations.ResetState := by
  refine ⟨rfl, Dev.reset_sound, rfl, ?collector, ?resets, ?tables, ?hbm, ?poison, ?registers, Dev.reset_capW⟩
  case collector => exact ⟨rfl, rfl, rfl, rfl, rfl⟩
  case resets => exact ⟨rfl, rfl, rfl, rfl, rfl⟩
  case tables => exact ⟨rfl, rfl, rfl, rfl, rfl⟩
  case hbm => exact Mem.read_empty
  case poison => rfl
  case registers => exact Dev.reg_of_unlisted _ rfl

/-! ## A host write in the cycle of a write of Computus -/

/-- A command leaves one block. -/
theorem Does.unique {c : Instr} {d e₁ e₂ : Dev} (h₁ : Does c d e₁) (h₂ : Does c d e₂) : e₁ = e₂ := by
  have h := (h₁ []).symm.trans (h₂ [])
  injection h with h
  injection h

/-- REGISTER_WRITE carries out the access at its time. -/
theorem does_registerWrite {d : Dev} (who : Who) (a w v t : Nat) (ha : d.awake) :
    Does (.registerWrite who a w v t) d ((d.at_ t).portWrite who a w v) :=
  does_upd (f := fun d => (d.at_ t).portWrite who a w v) (fun _ => rfl) ha

/-- The block right after reset, after Computus has written a cap of 100 W at time 0. -/
def Dev.computusCap : Dev := (Dev.reset.at_ 0).portWrite .computus R.PWR_CTRL 4 0x14C64

/-- It is reached from reset by one command. -/
theorem does_computusCap : Does (.registerWrite .computus R.PWR_CTRL 4 0x14C64 0) Dev.reset Dev.computusCap :=
  does_registerWrite _ _ _ _ _ rfl

/-- The host's write of 120 W at the same time comes first and that of Computus second (R515), so the cap stays at 100 W. -/
theorem Dev.computusCap_hostWrite_capW :
    ((Dev.computusCap.at_ 0).portWrite .pf R.PWR_CTRL 4 0x14C78).f F.PWR_CTRL.CAP_W = 100 := by decide +kernel

/-- No reset holds that block, and it is open to the host. -/
theorem Dev.computusCap_open :
    Dev.computusCap.awake ∧ Dev.computusCap.portOpen .pf = true ∧ Dev.computusCap.sec.overLink = false :=
  ⟨(by decide +kernel : Dev.computusCap.rst.held = false), by decide +kernel, by decide +kernel⟩

/-- The host's write passes every check: no LOCK, and a cap in the range of the part. -/
theorem Dev.computusCap_hostWrite_checks :
    Dev.computusCap.on F.FLT_CTRL.LOCK = false ∧ Dev.computusCap.capMin ≤ 0x14C78 % 512 ∧ 0x14C78 % 512 ≤ Dev.computusCap.capMax := by
  decide +kernel

/-- Refutes O6: a host write of CAP_W = 120, in range and without LOCK, is said to leave 120 there; but where Computus has written
CAP_W = 100 in the same nanosecond, a state one command after reset, its write comes second (R515) and CAP_W is 100. The statement has no
hypothesis on `regs.lastC`, which remembers that write. -/
theorem not_registerAccesses : ¬ Obligations.RegisterAccesses := by
  rintro ⟨-, -, capWrites, -⟩
  obtain ⟨awake, opened, decoded⟩ := Dev.computusCap_open
  obtain ⟨unlocked, above, below⟩ := Dev.computusCap_hostWrite_checks
  obtain ⟨-, taken⟩ := capWrites Dev.computusCap 0x14C78 0 awake opened decoded
  obtain ⟨e, does, cap, -⟩ := taken unlocked above below (by decide) (by decide)
  rw [does.unique (does_registerWrite _ _ _ _ _ awake), Dev.computusCap_hostWrite_capW] at cap
  exact absurd cap (by decide)

end Sys2Proof.Machine
end

section
/-!
PROOFS. What every step keeps (O3). The invariant reads a few parts of the block only, so an operation keeps it when it leaves those parts
alone, when it puts into them what a lemma about memories, tables or lists allows, or when it is made of operations that keep it: one lemma
for each operation of the model, in the model's order, and one for each command.
-/
namespace Sys2Proof.Machine

/-- What `Dev.sound` asks of the parts of a block. -/
structure Sound (d : Dev) : Prop where
  hbm : d.mem.hbm.wf = true
  sram : d.mem.sram.wf = true
  host : d.mem.host.wf = true
  cur : keysRise d.regs.cur = true
  clus : d.leap.clus.length = 24
  journal : d.leap.journal.length = 24
  runs : keysRise d.runs = true
  below : ∀ q ∈ d.runs, q.1 < d.nextRun
  opp : d.pwr.opp.length = 6
  changing : d.pwr.changing.length = 6
  waiting : d.pwr.waiting.length = 6
  doms : d.alm.doms.length = 2
  tio : d.alm.tio.length = 8

theorem Dev.sound_iff {d : Dev} : d.sound = true ↔ Sound d := by
  simp only [Dev.sound, Dev.memWf, Bool.and_eq_true, decide_eq_true_eq, List.all_eq_true]
  constructor
  · rintro ⟨⟨⟨⟨⟨⟨⟨⟨⟨⟨⟨⟨h1, h2⟩, h3⟩, h4⟩, h5⟩, h6⟩, h7⟩, h8⟩, h9⟩, h10⟩, h11⟩, h12⟩, h13⟩
    exact ⟨h1, h2, h3, h4, h5, h6, h7, h8, h9, h10, h11, h12, h13⟩
  · rintro ⟨h1, h2, h3, h4, h5, h6, h7, h8, h9, h10, h11, h12, h13⟩
    exact ⟨⟨⟨⟨⟨⟨⟨⟨⟨⟨⟨⟨h1, h2⟩, h3⟩, h4⟩, h5⟩, h6⟩, h7⟩, h8⟩, h9⟩, h10⟩, h11⟩, h12⟩, h13⟩

/-- The invariant as a function of the parts it reads. -/
def soundOf (hbm sram host : Mem) (cur : List (Nat × BitVec 64)) (clus journal : List Clu) (runs : List (Nat × Run)) (nextRun : Nat)
    (opp : List Nat) (changing waiting : List (Option Nat)) (doms : List Tracker) (tio : List Tio) : Bool :=
  (hbm.wf && sram.wf && host.wf) && keysRise cur && decide (clus.length = 24) && decide (journal.length = 24) &&
  keysRise runs && runs.all (fun q => decide (q.1 < nextRun)) &&
  decide (opp.length = 6) && decide (changing.length = 6) && decide (waiting.length = 6) &&
  decide (doms.length = 2) && decide (tio.length = 8)

theorem soundOf_dev (d : Dev) : soundOf d.mem.hbm d.mem.sram d.mem.host d.regs.cur d.leap.clus d.leap.journal d.runs d.nextRun
  d.pwr.opp d.pwr.changing d.pwr.waiting d.alm.doms d.alm.tio = d.sound := rfl

theorem Dev.sound_mk (now : Nat) (running : Bool) (fresh : Nat) (fuses : Fuses) (rst : Rst) (cfg : List (Nat × CfgFn)) (regs : Regs)
    (mem : MemSt) (coll : Coll) (safe : Safe) (frame : Frame) (ctxs : List (Nat × Ctx)) (runs : List (Nat × Run)) (nextRun : Nat)
    (turns : List Nat) (flags : List (Nat × Nat)) (mods : List (Nat × Module)) (tdt : List (Nat × TDesc)) (kv : Kv) (lnk : Lnk)
    (leap : Leap) (pwr : Pwr) (lam : List (Nat × Stream)) (alm : Alm) (rpl : Rpl) (sec : Sec) (out : Out) :
    Dev.sound ⟨now, running, fresh, fuses, rst, cfg, regs, mem, coll, safe, frame, ctxs, runs, nextRun, turns, flags, mods, tdt, kv, lnk,
        leap, pwr, lam, alm, rpl, sec, out⟩ =
      soundOf mem.hbm mem.sram mem.host regs.cur leap.clus leap.journal runs nextRun pwr.opp pwr.changing pwr.waiting alm.doms alm.tio := rfl

theorem Dev.sound_ite (c : Prop) [Decidable c] (a b : Dev) : (if c then a else b).sound = if c then a.sound else b.sound := apply_ite ..

/-! ## Tables and folds -/

theorem keysRise_iff_pairwise {α : Type} (m : List (Nat × α)) : keysRise m = true ↔ m.Pairwise (fun p q => p.1 < q.1) := by
  induction m with
  | nil => simp [keysRise]
  | cons p m ih => rw [keysRise_cons, List.pairwise_cons, ih, and_comm]

/-- Whether keys rise is a matter of the keys alone. -/
theorem keysRise_of_keys_eq {α β : Type} {m : List (Nat × α)} {n : List (Nat × β)} (hk : n.map Prod.fst = m.map Prod.fst)
    (h : keysRise m = true) : keysRise n = true := by
  rw [keysRise_iff_pairwise, ← List.pairwise_map (f := Prod.fst) (R := (· < ·))] at h ⊢
  rwa [hk]

theorem mem_mset {α : Type} (m : List (Nat × α)) (k : Nat) (v : α) (q : Nat × α) (h : q ∈ mset m k v) : q = (k, v) ∨ q ∈ m := by
  induction m with
  | nil => simpa [mset] using h
  | cons p m ih =>
    unfold mset at h
    split at h
    · simpa using h
    · split at h <;> rcases List.mem_cons.mp h with h | h
      · exact .inl h
      · exact .inr (List.mem_cons_of_mem _ h)
      · exact .inr (by simp [h])
      · exact (ih h).imp id (List.mem_cons_of_mem _)

theorem keysRise_mset {α : Type} (m : List (Nat × α)) (k : Nat) (v : α) (h : keysRise m = true) : keysRise (mset m k v) = true := by
  induction m with
  | nil => rfl
  | cons p m ih =>
    have hc := (keysRise_cons _ _).mp h
    unfold mset
    split
    · next hlt =>
      refine (keysRise_cons _ _).mpr ⟨h, fun q hq => ?_⟩
      rcases List.mem_cons.mp hq with rfl | hq
      · exact hlt
      · exact Nat.lt_trans hlt (hc.2 q hq)
    · split
      · next heq => exact (keysRise_cons _ _).mpr ⟨hc.1, heq ▸ hc.2⟩
      · next hlt hne =>
        refine (keysRise_cons _ _).mpr ⟨ih hc.1, fun q hq => ?_⟩
        rcases mem_mset m k v q hq with rfl | hq
        · simp only; omega
        · exact hc.2 q hq

theorem keysRise_mput {α : Type} [DecidableEq α] (d : α) (m : List (Nat × α)) (k : Nat) (v : α) (h : keysRise m = true) :
    keysRise (mput d m k v) = true := by
  unfold mput
  split
  · exact keysRise_filter _ _ h
  · exact keysRise_mset _ _ _ h

theorem mmod_keys {α : Type} (m : List (Nat × α)) (k : Nat) (f : α → α) : (mmod m k f).map Prod.fst = m.map Prod.fst := by
  rw [mmod, List.map_map]
  refine List.map_congr_left (fun p _ => ?_)
  by_cases h : p.1 = k <;> simp [h]

/-- Canonical memory stays so when listed bytes are dropped. -/
theorem Mem.filter_wf (m : Mem) (p : Host.Cell → Bool) (h : m.wf = true) : (⟨m.cells.filter p, m.undef⟩ : Mem).wf = true := by
  rw [Mem.wf_iff] at h ⊢
  exact ⟨keysRise_filter _ _ h.1, fun c hc => h.2 c (List.mem_filter.mp hc).1⟩

/-- A fold of steps that keep a property keeps it. -/
theorem foldl_induct {α β : Type} (P : β → Prop) (f : β → α → β) (h : ∀ b x, P b → P (f b x)) (l : List α) {b : β} (hb : P b) :
    P (l.foldl f b) := by
  induction l generalizing b with
  | nil => exact hb
  | cons x l ih => exact ih (h b x hb)

theorem foldl_sound {α : Type} (f : Dev → α → Dev) (h : ∀ d x, d.sound = true → (f d x).sound = true) (l : List α) {d : Dev}
    (hd : d.sound = true) : (l.foldl f d).sound = true :=
  foldl_induct (fun d => d.sound = true) f h l hd

/-! ## Updates of one part -/

/-- Commands under the same numbers keep the invariant. -/
theorem Dev.runs_sound {d : Dev} (h : d.sound = true) (rs : List (Nat × Run)) (hk : rs.map Prod.fst = d.runs.map Prod.fst) :
    ({ d with runs := rs } : Dev).sound = true := by
  have s := Dev.sound_iff.mp h
  refine Dev.sound_iff.mpr { s with runs := keysRise_of_keys_eq hk s.runs, below := fun q hq => ?_ }
  have hm : q.1 ∈ d.runs.map Prod.fst := hk ▸ List.mem_map_of_mem hq
  obtain ⟨p, hp, he⟩ := List.mem_map.mp hm
  exact he ▸ s.below p hp

theorem Dev.mapRuns_sound {d : Dev} (h : d.sound = true) (f : Nat × Run → Nat × Run) (hf : ∀ q, (f q).1 = q.1) :
    ({ d with runs := d.runs.map f } : Dev).sound = true :=
  Dev.runs_sound h _ (by rw [List.map_map]; exact List.map_congr_left (fun q _ => hf q))

theorem Dev.mmodRuns_sound {d : Dev} (h : d.sound = true) (id : Nat) (f : Run → Run) :
    ({ d with runs := mmod d.runs id f } : Dev).sound = true := Dev.runs_sound h _ (mmod_keys _ _ _)

/-- Fewer commands keep the invariant. -/
theorem Dev.filterRuns_sound {d : Dev} (h : d.sound = true) (p : Nat × Run → Bool) :
    ({ d with runs := d.runs.filter p } : Dev).sound = true := by
  have s := Dev.sound_iff.mp h
  exact Dev.sound_iff.mpr { s with runs := keysRise_filter _ _ s.runs, below := fun q hq => s.below q (List.mem_filter.mp hq).1 }

theorem Dev.hbm_sound {d : Dev} (h : d.sound = true) {m : Mem} (hm : m.wf = true) :
    ({ d with mem := { d.mem with hbm := m } } : Dev).sound = true :=
  Dev.sound_iff.mpr { Dev.sound_iff.mp h with hbm := hm }

theorem Dev.sram_sound {d : Dev} (h : d.sound = true) {m : Mem} (hm : m.wf = true) :
    ({ d with mem := { d.mem with sram := m } } : Dev).sound = true :=
  Dev.sound_iff.mpr { Dev.sound_iff.mp h with sram := hm }

theorem Dev.hbm_wf {d : Dev} (h : d.sound = true) : d.mem.hbm.wf = true := (Dev.sound_iff.mp h).hbm
theorem Dev.sram_wf {d : Dev} (h : d.sound = true) : d.mem.sram.wf = true := (Dev.sound_iff.mp h).sram

theorem Dev.forgetHbm_sound {d : Dev} (h : d.sound = true) (lo hi id : Nat) :
    ({ d with mem := { d.mem with hbm := d.mem.hbm.forget lo hi id } } : Dev).sound = true :=
  Dev.hbm_sound h (Mem.forget_wf _ _ _ _ (Dev.hbm_wf h))

theorem Dev.forgetSram_sound {d : Dev} (h : d.sound = true) (lo hi id : Nat) :
    ({ d with mem := { d.mem with sram := d.mem.sram.forget lo hi id } } : Dev).sound = true :=
  Dev.sram_sound h (Mem.forget_wf _ _ _ _ (Dev.sram_wf h))

theorem Dev.wrSramAt_sound {d : Dev} (h : d.sound = true) (k : Nat) (bs : List Nat) :
    ({ d with mem := { d.mem with sram := d.mem.sram.writeBytes k bs } } : Dev).sound = true :=
  Dev.sram_sound h (Mem.writeBytes_wf _ _ _ (Dev.sram_wf h))

/-- A binding map with as many clusters keeps the invariant. -/
theorem Dev.clus_sound {d : Dev} (h : d.sound = true) {l : List Clu} (hl : l.length = d.leap.clus.length) :
    ({ d with leap := { d.leap with clus := l } } : Dev).sound = true :=
  Dev.sound_iff.mpr { Dev.sound_iff.mp h with clus := hl.trans (Dev.sound_iff.mp h).clus }

theorem Dev.coll_sound {d : Dev} (h : d.sound = true) (c : Coll) : ({ d with coll := c } : Dev).sound = true := h

theorem sound_of_ite {c : Prop} [Decidable c] {a b : Dev} (ha : a.sound = true) (hb : b.sound = true) :
    (if c then a else b).sound = true := by
  split
  · exact ha
  · exact hb

/-- Leap's other tables are free. -/
theorem Dev.leap_sound {d : Dev} (h : d.sound = true) {l : Leap} (hc : l.clus = d.leap.clus) (hj : l.journal = d.leap.journal) :
    ({ d with leap := l } : Dev).sound = true :=
  Dev.sound_iff.mpr { Dev.sound_iff.mp h with
    clus := (congrArg List.length hc).trans (Dev.sound_iff.mp h).clus, journal := (congrArg List.length hj).trans (Dev.sound_iff.mp h).journal }

/-- Tithe's other tables are free. -/
theorem Dev.pwr_sound {d : Dev} (h : d.sound = true) {p : Pwr} (ho : p.opp = d.pwr.opp) (hc : p.changing = d.pwr.changing)
    (hw : p.waiting = d.pwr.waiting) : ({ d with pwr := p } : Dev).sound = true :=
  have s := Dev.sound_iff.mp h
  Dev.sound_iff.mpr { s with
    opp := (congrArg List.length ho).trans s.opp, changing := (congrArg List.length hc).trans s.changing,
    waiting := (congrArg List.length hw).trans s.waiting }

/-- So are the tables about memory errors and repairs. -/
theorem Dev.mem_sound {d : Dev} (h : d.sound = true) {m : MemSt} (hh : m.hbm = d.mem.hbm) (hs : m.sram = d.mem.sram)
    (ho : m.host = d.mem.host) : ({ d with mem := m } : Dev).sound = true :=
  have s := Dev.sound_iff.mp h
  Dev.sound_iff.mpr { s with hbm := hh ▸ s.hbm, sram := hs ▸ s.sram, host := ho ▸ s.host }

theorem Dev.opp_sound {d : Dev} (h : d.sound = true) (r k : Nat) :
    ({ d with pwr := { d.pwr with opp := d.pwr.opp.set r k } } : Dev).sound = true :=
  Dev.sound_iff.mpr { Dev.sound_iff.mp h with opp := (List.length_set ..).trans (Dev.sound_iff.mp h).opp }

theorem Dev.changing_sound {d : Dev} (h : d.sound = true) (r : Nat) (k : Option Nat) :
    ({ d with pwr := { d.pwr with changing := d.pwr.changing.set r k } } : Dev).sound = true :=
  Dev.sound_iff.mpr { Dev.sound_iff.mp h with changing := (List.length_set ..).trans (Dev.sound_iff.mp h).changing }

theorem Dev.waiting_sound {d : Dev} (h : d.sound = true) (r : Nat) (k : Option Nat) :
    ({ d with pwr := { d.pwr with waiting := d.pwr.waiting.set r k } } : Dev).sound = true :=
  Dev.sound_iff.mpr { Dev.sound_iff.mp h with waiting := (List.length_set ..).trans (Dev.sound_iff.mp h).waiting }

theorem Dev.frame_sound {d : Dev} (h : d.sound = true) (f : Frame) : ({ d with frame := f } : Dev).sound = true := h
theorem Dev.ctxs_sound {d : Dev} (h : d.sound = true) (l : List (Nat × Ctx)) : ({ d with ctxs := l } : Dev).sound = true := h
theorem Dev.lnk_sound {d : Dev} (h : d.sound = true) (l : Lnk) : ({ d with lnk := l } : Dev).sound = true := h
theorem Dev.rst_sound {d : Dev} (h : d.sound = true) (r : Rst) : ({ d with rst := r } : Dev).sound = true := h
theorem Dev.mods_sound {d : Dev} (h : d.sound = true) (l : List (Nat × Module)) : ({ d with mods := l } : Dev).sound = true := h

/-! ## Every operation keeps the block sound -/

section
variable {d : Dev} (h : d.sound)
include h

/-! ### Shared operations -/

theorem Dev.setReg_sound (off : Nat) (v : BitVec 64) : (d.setReg off v).sound :=
  Dev.sound_iff.mpr { Dev.sound_iff.mp h with cur := keysRise_mput _ _ _ _ (Dev.sound_iff.mp h).cur }

theorem Dev.set_sound (x : Fld) (n : Nat) : (d.set x n).sound := by
  simp only [Dev.set, h, Dev.setReg_sound]

theorem Dev.addSat_sound (x : Fld) (n : Nat) : (d.addSat x n).sound := by
  simp only [Dev.addSat, h, Dev.set_sound]

theorem Dev.stage_sound (lo hi : Nat) : (d.stage lo hi).sound := h

theorem Dev.enforce_sound (lo hi : Nat) : (d.enforce lo hi).sound := h

theorem Dev.take_sound : (d.take).sound := h

theorem Dev.send_sound (m : Tx) : (d.send m).sound := h

theorem Dev.ret_sound (l : List Nat) : (d.ret l).sound := h

theorem Dev.atTime_sound (t : Nat) : (d.at_ t).sound := h

theorem Dev.countPoison_sound : (d.countPoison).sound := by
  simp only [Dev.countPoison, h, Dev.set_sound]

theorem Dev.setPoison_sound (l : List Nat) : (d.setPoison l).sound := by
  simp only [Dev.setPoison, h, Dev.countPoison_sound, Dev.sound_mk, soundOf_dev]

theorem Dev.wrHbm_sound (a : Nat) (bs : List Nat) : (d.wrHbm a bs).sound := by
  unfold Dev.wrHbm
  have step : ∀ (m : Mem) (i : Nat), m.wf = true → (if ((d.poisonIn a bs.length).filter (fun g =>
      !(decide (a ≤ g) && decide (g + 64 ≤ a + bs.length)))).contains ((a + i) / 64 * 64) then m
      else m.write (a + i) (BitVec.ofNat 8 (bs.getD i 0))).wf = true := fun m i hm => by
    split
    · exact hm
    · exact Mem.write_wf _ _ _ hm
  dsimp only
  split
  · exact h
  · split
    · exact Dev.hbm_sound h (Mem.writeBytes_wf _ _ _ (Dev.hbm_wf h))
    · exact Dev.setPoison_sound (Dev.hbm_sound h (foldl_induct (fun m : Mem => m.wf = true) _ step _ (Dev.hbm_wf h))) _

theorem Dev.wrHost_sound (a : Nat) (bs : List Nat) : (d.wrHost a bs).sound := by
  unfold Dev.wrHost
  split
  · exact Dev.sound_iff.mpr { Dev.sound_iff.mp h with host := Mem.writeBytes_wf _ _ _ (Dev.sound_iff.mp h).host }
  · exact h

theorem Dev.forgetUnits_sound (us : List Nat) : (d.forgetUnits us).sound := by
  refine foldl_sound _ (fun d u h => ?_) us h
  split
  · exact Dev.take_sound (Dev.forgetSram_sound h _ _ _)
  · exact h

theorem Dev.forgetRun_sound (r : Run) : (d.forgetRun r).sound :=
  foldl_sound _ (fun _ _ h => Dev.take_sound (Dev.forgetSram_sound h _ _ _)) _ (Dev.forgetUnits_sound h _)

theorem Dev.charge_sound (id : Nat) (task : Bool) : (d.charge id task).sound := by
  unfold Dev.charge
  split
  · exact h
  · split
    · exact h
    · have hc := fun f => Dev.mmodRuns_sound h id f
      grind only [= Dev.sound_mk]

theorem Dev.uncharge_sound (r : Run) : (d.uncharge r).sound := by
  simp only [Dev.uncharge, h, Dev.sound_mk, soundOf_dev, Dev.sound_ite, ite_self]

theorem Dev.stopRerun_sound (id : Nat) (ph : RunPhase) (task : Bool) : (d.stopRerun id ph task).sound := by
  unfold Dev.stopRerun
  split
  · exact h
  · have hc : (if task then d.charge id true else (d.charge id false).uncharge ‹Run›).sound = true := by
      split
      · exact Dev.charge_sound h _ _
      · exact Dev.uncharge_sound (Dev.charge_sound h _ _) _
    exact Dev.mmodRuns_sound (Dev.forgetRun_sound hc _) _ _

theorem Dev.killRerun_sound (id : Nat) (ph : RunPhase) (task : Bool) : (d.killRerun id ph task).sound := by
  unfold Dev.killRerun
  split <;> simp only [h, Dev.stopRerun_sound, Dev.sound_ite, ite_self]

theorem Dev.abandonEntry_sound : (d.abandonEntry).sound := by
  simp only [Dev.abandonEntry, h, Dev.set_sound, Dev.sound_mk, soundOf_dev, Dev.sound_ite, ite_self]

theorem Dev.restartTests_sound (m : Nat) : (d.restartTests m).sound := h

theorem Dev.startBlockReset_sound (m : Nat) : (d.startBlockReset m).sound := by
  unfold Dev.startBlockReset
  split
  · exact h
  · exact foldl_sound _ (fun _ _ h => Dev.killRerun_sound h _ _ _) _ (Dev.coll_sound (Dev.restartTests_sound (Dev.abandonEntry_sound h) _)
      _)

theorem Dev.react_sound (e : FaultEv) (rs : Nat) : (d.react e rs).sound := by
  grind only [Dev.react, = Dev.sound_mk, = soundOf_dev, Dev.send_sound, Dev.abandonEntry_sound, Dev.startBlockReset_sound]

theorem Dev.event_sound (e : FaultEv) : (d.event e).sound := by
  simp only [Dev.event, h, Dev.react_sound, Dev.sound_mk, soundOf_dev, Dev.sound_ite, ite_self]

theorem Dev.raise_sound (src master addr acc : Nat) : (d.raise src master addr acc).sound := by
  simp only [Dev.raise, h, Dev.event_sound]

theorem Dev.flagAdd_sound (n v : Nat) : (d.flagAdd n v).sound := by
  simp only [Dev.flagAdd, h, Dev.raise_sound, Dev.sound_mk, soundOf_dev, Dev.sound_ite, ite_self]

theorem Dev.fnEvent_sound (fn ev : Nat) : (d.fnEvent fn ev).sound := by
  simp only [Dev.fnEvent, h, Dev.set_sound, Dev.send_sound, Dev.sound_ite, ite_self]

/-! ### Bindings -/

theorem Dev.setClu_sound (k : Nat) (c : Clu) : (d.setClu k c).sound := Dev.clus_sound h (List.length_set ..)

theorem Dev.modClu_sound (k : Nat) (f : Clu → Clu) : (d.modClu k f).sound := by
  simp only [Dev.modClu, h, Dev.setClu_sound]

theorem Dev.modUnit_sound (u : Nat) (f : UnitSt → UnitSt) : (d.modUnit u f).sound := h

theorem Dev.setWindow_sound (n : Nat) (w : Window) : (d.setWindow n w).sound := h

theorem Dev.setMap_sound (n : Nat) (m : MapEnt) : (d.setMap n m).sound := h

theorem Dev.closeWhere_sound (p : Window → Bool) : (d.closeWhere p).sound := foldl_sound _ (fun _ _ h => Dev.setWindow_sound h _ _) _ h

theorem Dev.settle_sound : (d.settle).sound := Dev.mapRuns_sound h _ (fun _ => rfl)

theorem Dev.wrSram_sound (p : Place) (bs : List Nat) : (d.wrSram p bs).sound := Dev.wrSramAt_sound h _ _

/-! ### Configuration space -/

theorem Dev.modCfg_sound (fn : Nat) (f : CfgFn → CfgFn) : (d.modCfg fn f).sound := h

theorem Dev.resetCfg_sound : (d.resetCfg).sound := h

theorem Dev.cfgRead_sound (fn off : Nat) : (d.cfgRead fn off).sound := by
  simp only [Dev.cfgRead, h, Dev.ret_sound, Dev.sound_ite, ite_self]

theorem Dev.barWrite_sound (fn bar n v : Nat) : (d.barWrite fn bar n v).sound := by
  simp only [Dev.barWrite, h, Dev.modCfg_sound, Dev.sound_ite, ite_self]

theorem Dev.cfgWrite_sound (fn off v : Nat) : (d.cfgWrite fn off v).sound := by
  unfold Dev.cfgWrite
  split
  · exact h
  · split <;> simp only [h, Dev.barWrite_sound, Dev.modCfg_sound, Dev.sound_ite, ite_self]

theorem Dev.msixRead_sound (fn off : Nat) : (d.msixRead fn off).sound := by
  simp only [Dev.msixRead, h, Dev.ret_sound, Dev.sound_ite, ite_self]

theorem Dev.msixWrite_sound (fn off v : Nat) : (d.msixWrite fn off v).sound := by
  simp only [Dev.msixWrite, h, Dev.modCfg_sound, Dev.sound_ite, ite_self]

/-! ### The Bushel table -/

theorem Dev.setBent_sound (i : Nat) (b : Bushel) : (d.setBent i b).sound := h

theorem Dev.setFree_sound (f : Nat) (l : List (Nat × Nat)) : (d.setFree f l).sound := h

theorem Dev.settleEntry_sound (i : Nat) : (d.settleEntry i).sound := by
  simp only [Dev.settleEntry, h, Dev.setBent_sound, Dev.setFree_sound, Dev.sound_mk, soundOf_dev, Dev.sound_ite, ite_self]

theorem Dev.unpin_sound (i : Nat) : (d.unpin i).sound := by
  simp only [Dev.unpin, h, Dev.setBent_sound, Dev.settleEntry_sound]

theorem Dev.unpinAll_sound (l : List Nat) : (d.unpinAll l).sound := foldl_sound _ (fun _ _ h => Dev.unpin_sound h _) _ h

theorem Dev.pin_sound (i : Nat) : (d.pin i).sound := h

theorem Dev.allocPage_sound (part cache size fmt : Nat) (foreign : Bool) (package : Nat) : (d.allocPage part cache size fmt foreign
    package).1.sound := by
  unfold Dev.allocPage
  split <;> simp only [h, Dev.addSat_sound, Dev.setBent_sound, Dev.setFree_sound, Dev.sound_mk, soundOf_dev]

theorem Dev.kvReset_sound (f : Nat) : (d.kvReset f).sound := by
  simp +contextual only [Dev.kvReset, h, Dev.setBent_sound, Dev.sound_mk, soundOf_dev, foldl_sound, implies_true]

/-! ### What Tithe learns -/

theorem Dev.addEnergy_sound (mon : List (Nat × Nat)) : (d.addEnergy mon).sound := h

theorem Dev.energyNow_sound : (d.energyNow).sound := h

theorem Dev.openPhase_sound : (d.openPhase).sound := h

theorem Dev.closePhase_sound : (d.closePhase).sound := by
  grind only [Dev.closePhase, = Dev.sound_mk, = soundOf_dev, Dev.energyNow_sound]

/-! ### The life of a command -/

theorem Dev.modCtx_sound (key : Nat) (f : Ctx → Ctx) : (d.modCtx key f).sound := h

theorem Dev.signalRec_sound (key : Nat) (atOnce : Bool) : (d.signalRec key atOnce).sound := by
  unfold Dev.signalRec
  split <;> simp only [h, Dev.send_sound, Dev.modCtx_sound, Dev.sound_ite, ite_self]

theorem Dev.emit_sound (key : Nat) (r : Rec) : (d.emit key r).sound := by
  grind only [Dev.emit, Dev.wrHost_sound, Dev.modCtx_sound, Dev.signalRec_sound]

theorem Dev.emitFree_sound (key : Nat) (r : Rec) : (d.emitFree key r).sound := by
  grind only [Dev.emitFree, Dev.set_sound, Dev.raise_sound, Dev.fnEvent_sound, Dev.emit_sound]

theorem Dev.endHead_sound (key status detail slow info : Nat) : (d.endHead key status detail slow info).sound := by
  grind only [Dev.endHead, = Dev.sound_mk, = soundOf_dev, Dev.modCtx_sound, Dev.emit_sound]

theorem Dev.setHead_sound (key : Nat) (st : CmdSt) : (d.setHead key st).sound := h

theorem Dev.kvSettle_sound (f : Nat) : (d.kvSettle f).sound := by
  simp only [Dev.kvSettle, h, Dev.kvReset_sound, Dev.sound_mk, soundOf_dev, Dev.sound_ite, ite_self]

theorem Dev.kvEnd_sound (f : Nat) : (d.kvEnd f).sound := by
  simp only [Dev.kvEnd, h, Dev.kvSettle_sound, Dev.sound_mk, soundOf_dev]

theorem Dev.dropRun_sound (id : Nat) : (d.dropRun id).sound := by
  unfold Dev.dropRun
  split
  · exact h
  · exact Dev.kvSettle_sound (Dev.filterRuns_sound (Dev.forgetRun_sound (Dev.unpinAll_sound (Dev.charge_sound h _ _) _) _) _) _

theorem Dev.someGranules_sound (n : Nat) (go : Dev → Nat → Dev) (hgo : ∀ d i, d.sound = true → (go d i).sound = true) : (d.someGranules n
    go).sound := by
  refine foldl_sound _ (fun e i h => ?_) _ h
  split
  · exact hgo _ _ h
  · exact h

theorem Dev.mixHbm_sound (a : Nat) (new : List Nat) : (d.mixHbm a new).sound := by
  simp +contextual only [Dev.mixHbm, h, Dev.wrHbm_sound, Dev.someGranules_sound, implies_true]

theorem Dev.copyMix_sound (bs : List Nat) : (d.copyMix bs).sound := by
  simp +contextual only [Dev.copyMix, h, Dev.wrHost_sound, Dev.someGranules_sound, Dev.mixHbm_sound, Dev.sound_ite, ite_self,
    implies_true]

theorem Dev.pullMix_sound (bs : List Nat) : (d.pullMix bs).sound :=
  Dev.someGranules_sound h _ _ (fun _ _ h => Dev.take_sound (Dev.setPoison_sound (Dev.forgetHbm_sound h _ _ _) _))

theorem Dev.stopHead_sound (k : RingCmd) : (d.stopHead k).sound := by
  unfold Dev.stopHead
  split <;> simp only [h, Dev.dropRun_sound, Dev.copyMix_sound, Dev.pullMix_sound]

theorem Dev.countSlow_sound (key x : Nat) : (d.countSlow key x).sound := h

theorem Dev.noteSlow_sound (r : Run) (v : Option Nat) : (d.noteSlow r v).sound := by
  unfold Dev.noteSlow
  split <;> simp only [h, Dev.modCtx_sound, Dev.countSlow_sound, Dev.sound_mk, soundOf_dev, Dev.sound_ite, ite_self]

theorem Dev.cutHead_sound (key : Nat) (k : RingCmd) (status : Nat) : (d.cutHead key k status).sound := by
  grind only [Dev.cutHead, Dev.endHead_sound, Dev.stopHead_sound, Dev.noteSlow_sound]

theorem Dev.dropCtx_sound (key : Nat) : (d.dropCtx key).sound := h

theorem Dev.freeCtx_sound (key : Nat) : (d.freeCtx key).sound := by
  simp only [Dev.freeCtx, h, Dev.closeWhere_sound, Dev.dropCtx_sound]

theorem Dev.opDone_sound (fn status : Nat) : (d.opDone fn status).sound := by
  grind only [Dev.opDone, Dev.set_sound, Dev.fnEvent_sound]

theorem Dev.pump_sound (key n : Nat) : (d.pump key n).sound := by
  induction n generalizing d with
  | zero => exact h
  | succ n ih =>
    unfold Dev.pump
    grind only [Dev.endHead_sound, Dev.cutHead_sound, Dev.freeCtx_sound, Dev.opDone_sound, Dev.modCtx_sound,
      Dev.emit_sound]

theorem Dev.leaveTurn_sound (key : Nat) : (d.leaveTurn key).sound := by
  simp only [Dev.leaveTurn, h, Dev.sound_mk, soundOf_dev, Dev.sound_ite, ite_self]

theorem Dev.pumpCtx_sound (key : Nat) : (d.pumpCtx key).sound := by
  unfold Dev.pumpCtx
  split
  · exact h
  · exact Dev.leaveTurn_sound (Dev.pump_sound h _ _) _

theorem Dev.complete_sound (key status detail slow info : Nat) : (d.complete key status detail slow info).sound := by
  simp only [Dev.complete, h, Dev.endHead_sound, Dev.pumpCtx_sound]

theorem Dev.modTask_sound (slot : Nat) (f : Task → Task) : (d.modTask slot f).sound := h

theorem Dev.addRun_sound (r : Run) : (d.addRun r).sound := by
  have s := Dev.sound_iff.mp h
  refine Dev.sound_iff.mpr { s with runs := keysRise_mset _ _ _ s.runs, below := fun q hq => ?_ }
  rcases mem_mset _ _ _ q hq with rfl | hq
  · exact Nat.lt_succ_self _
  · exact Nat.lt_succ_of_lt (s.below q hq)

theorem Dev.modRun_sound (id : Nat) (f : Run → Run) : (d.modRun id f).sound := Dev.mmodRuns_sound h _ _

theorem Dev.pushTask_sound (slot : Nat) : (d.pushTask slot).sound := by
  grind only [Dev.pushTask, Dev.addRun_sound]

theorem Dev.phaseDone_sound : (d.phaseDone).sound := by
  unfold Dev.phaseDone
  split <;> simp only [h, Dev.closePhase_sound, Dev.sound_ite, ite_self]

theorem Dev.endTaskCmd_sound (r : Run) (status cause slow : Nat) : (d.endTaskCmd r status cause slow).sound := by
  grind only [Dev.endTaskCmd, Dev.emitFree_sound, Dev.modTask_sound, Dev.pushTask_sound, Dev.phaseDone_sound]

theorem Dev.finish_sound (id status cause : Nat) : (d.finish id status cause).sound := by
  grind only [Dev.finish, = Dev.sound_mk, = soundOf_dev, Dev.dropRun_sound, Dev.noteSlow_sound, Dev.complete_sound, Dev.endTaskCmd_sound]

theorem Dev.killFinal_sound (id status cause : Nat) : (d.killFinal id status cause).sound := by
  unfold Dev.killFinal
  split <;> simp only [h, Dev.finish_sound, Dev.sound_ite, ite_self]

theorem Dev.killHeads_sound (p : Nat → Bool) (status : Nat) : (d.killHeads p status).sound := by
  refine foldl_sound _ (fun d q h => ?_) _ h
  split
  · exact h
  · split <;> simp only [h, Dev.complete_sound, Dev.stopHead_sound]

theorem Dev.killWhere_sound (p : Run → Bool) (status cause : Nat) : (d.killWhere p status cause).sound :=
  foldl_sound _ (fun _ _ h => Dev.killFinal_sound h _ _ _) _ h

/-! ### Waits on flags -/

theorem Dev.diagnose_sound (x : Waiting) : (d.diagnose x).sound := by
  grind only [Dev.diagnose, Dev.setReg_sound, Dev.set_sound, Dev.addSat_sound, Dev.raise_sound]

/-! ### Candidates -/

theorem Dev.forgetMem_sound (u : Nat) : (d.forgetMem u).sound := Dev.take_sound (Dev.forgetSram_sound h _ _ _)

theorem Dev.killOn_sound (p : Nat → Bool) (but : Option Nat) : (d.killOn p but).sound :=
  foldl_sound _ (fun _ _ h => Dev.killRerun_sound h _ _ _) _ h

theorem Dev.killClu_sound (k : Nat) : (d.killClu k).sound := foldl_sound _ (fun _ _ h => Dev.killRerun_sound h _ _ _) _ h

theorem Dev.emptyMems_sound (us : List Nat) : (d.emptyMems us).sound := foldl_sound _ (fun _ _ h => Dev.forgetMem_sound h _) _ h

/-! ### Images and security -/

theorem Dev.runImage_sound (img : Option (List Nat)) : (d.runImage img).sound := foldl_sound _ (fun _ _ h => Dev.set_sound h _ _) _ h

theorem Dev.readRole_sound : (d.readRole).sound := by
  simp only [Dev.readRole, h, Dev.set_sound]

theorem Dev.sigreqWrite_sound (who : Who) (value : Nat) : (d.sigreqWrite who value).sound := by
  simp only [Dev.sigreqWrite, h, Dev.set_sound, Dev.sound_ite, ite_self]

theorem Dev.fuseGo_sound : (d.fuseGo).sound := by
  simp only [Dev.fuseGo, h, Dev.set_sound, Dev.sound_mk, soundOf_dev, Dev.sound_ite, ite_self]

theorem Dev.fuseDone_sound : (d.fuseDone).sound := by
  unfold Dev.fuseDone
  split <;> simp only [h, Dev.set_sound, Dev.sound_mk, soundOf_dev]

theorem Dev.svnCommit_sound : (d.svnCommit).sound := by
  simp only [Dev.svnCommit, h, Dev.set_sound, Dev.sound_mk, soundOf_dev, Dev.sound_ite, ite_self]

theorem Dev.svnDone_sound : (d.svnDone).sound := by
  unfold Dev.svnDone
  split <;> simp only [h, Dev.set_sound, Dev.sound_mk, soundOf_dev]

theorem Dev.attest_sound : (d.attest).sound := by
  simp only [Dev.attest, h, Dev.set_sound, Dev.sound_mk, soundOf_dev, Dev.sound_ite, ite_self]

theorem Dev.attestDone_sound : (d.attestDone).sound := by
  unfold Dev.attestDone
  split
  · exact h
  · have hb : (Dev.set { d with sec := { d.sec with att := none } } F.SEC_ATT_CTRL.BUSY 0).sound = true := Dev.set_sound h _ _
    exact sound_of_ite h (sound_of_ite (Dev.set_sound hb _ _) (sound_of_ite (Dev.set_sound hb _ _) (Dev.set_sound (Dev.wrHbm_sound hb _ _)
      _ _)))

theorem Dev.updState_sound (n : Nat) : (d.updState n).sound := by
  simp only [Dev.updState, h, Dev.set_sound]

theorem Dev.updFail_sound (reason : Nat) : (d.updFail reason).sound := by
  simp only [Dev.updFail, h, Dev.set_sound]

theorem Dev.updCmd_sound (states : List Nat) (go : Dev → Dev) (hgo : ∀ d, d.sound = true → (go d).sound = true) : (d.updCmd states
    go).sound := by
  simp only [Dev.updCmd, h, hgo, Dev.updFail_sound, Dev.sound_ite, ite_self]

theorem Dev.verifyDone_sound : (d.verifyDone).sound := by
  grind only [Dev.verifyDone, Dev.set_sound, Dev.updState_sound, Dev.updFail_sound]

theorem Dev.updWrite_sound : (d.updWrite).sound := by
  grind only [Dev.updWrite, = Dev.sound_mk, = soundOf_dev, Dev.set_sound, Dev.updState_sound, Dev.updCmd_sound]

theorem Dev.writeDone_sound (ok : Bool) : (d.writeDone ok).sound := by
  grind only [Dev.writeDone, = Dev.sound_mk, = soundOf_dev, Dev.set_sound, Dev.updState_sound, Dev.updFail_sound]

theorem Dev.abandonAct_sound : (d.abandonAct).sound := by
  grind only [Dev.abandonAct, Dev.set_sound, Dev.updState_sound, Dev.updFail_sound]

theorem Dev.startFirmware_sound : (d.startFirmware).sound := by
  simp only [Dev.startFirmware, h, Dev.readRole_sound, Dev.sound_mk, soundOf_dev]

theorem Dev.activate_sound : (d.activate).sound := by
  grind only [Dev.activate, = Dev.sound_mk, = soundOf_dev, Dev.set_sound, Dev.runImage_sound, Dev.updState_sound, Dev.updFail_sound,
    Dev.updCmd_sound, Dev.startFirmware_sound]

theorem Dev.handover_sound (t : Nat) : (d.handover t).sound := by
  grind only [Dev.handover, = Dev.sound_mk, = soundOf_dev, Dev.set_sound, Dev.atTime_sound, Dev.runImage_sound, Dev.updState_sound]

/-! ### Leap -/

omit h in
theorem Dev.track_sound (d : Dev) (us : List Nat) {e : Dev} (h : e.sound = true) : (d.track us e).sound = true := by
  refine foldl_sound _ (fun e u h => ?_) us h
  simp only [h, Dev.sound_ite, Dev.modUnit_sound, ite_self]

theorem Dev.journalLeap_sound : (d.journalLeap).sound :=
  Dev.sound_iff.mpr { Dev.sound_iff.mp h with journal := (Dev.sound_iff.mp h).clus }

theorem Dev.journalWear_sound : (d.journalWear).sound := h

theorem Dev.rowDue_sound (key : Nat) : (d.rowDue key).sound := by
  simp only [Dev.rowDue, h, Dev.sound_mk, soundOf_dev, Dev.sound_ite, ite_self]

theorem Dev.applyRows_sound (p : Nat → Bool) : (d.applyRows p).sound := by
  simp +contextual only [Dev.applyRows, h, Dev.modUnit_sound, Dev.sound_mk, soundOf_dev, foldl_sound, implies_true]

theorem Dev.abandon_sound (u : Nat) : (d.abandon u).sound := h

omit h in
theorem Dev.fenced_sound (d : Dev) (k : Nat) {e : Dev} (h : e.sound = true) (src master : Nat) : (d.fenced k e src master).sound = true :=
  Dev.raise_sound (Dev.journalWear_sound (Dev.journalLeap_sound (Dev.track_sound d _ h))) _ _ _ _

theorem Dev.dropLoan_sound (k : Nat) : (d.dropLoan k).sound := by
  grind only [Dev.dropLoan, Dev.modClu_sound, Dev.abandon_sound]

theorem Dev.fenceEng_sound (k p : Nat) (but : Option Nat) : (d.fenceEng k p but).sound := by
  grind only [Dev.fenceEng, Dev.modClu_sound, Dev.killOn_sound, Dev.abandon_sound, Dev.fenced_sound, Dev.dropLoan_sound]

theorem Dev.fencePc_sound (k p : Nat) (but : Option Nat) : (d.fencePc k p but).sound := by
  grind only [Dev.fencePc, Dev.modClu_sound, Dev.killOn_sound, Dev.abandon_sound, Dev.fenced_sound]

theorem Dev.fenceClu_sound (k : Nat) : (d.fenceClu k).sound := by
  unfold Dev.fenceClu
  split
  · exact h
  · refine Dev.fenced_sound d k (Dev.modClu_sound (Dev.forgetMem_sound (foldl_sound _ (fun _ _ h => Dev.abandon_sound h _) _ ?_) _) _ _) _
      _
    have h := Dev.dropLoan_sound (Dev.killClu_sound h k) k
    split
    · exact Dev.dropLoan_sound h _
    · exact h

theorem Dev.fenceSeq_sound (k s : Nat) : (d.fenceSeq k s).sound := by
  grind only [Dev.fenceSeq, Dev.modClu_sound, Dev.killClu_sound, Dev.track_sound, Dev.journalLeap_sound, Dev.journalWear_sound,
    Dev.fenced_sound, Dev.fenceClu_sound]

theorem Dev.fenceReg_sound (r master : Nat) : (d.fenceReg r master).sound := by
  have killed := Dev.killOn_sound (foldl_sound Dev.killClu (fun _ _ h => Dev.killClu_sound h _) ([0, 1, 2, 3].map (fun j => 4 * r + j)) h)
    (fun u => u == regUnit 6 r) none
  have bare := foldl_sound (fun (e : Dev) k => (cluUnits k).foldl Dev.abandon (e.dropLoan k))
    (fun _ _ h => foldl_sound _ (fun _ _ h => Dev.abandon_sound h _) _ (Dev.dropLoan_sound h _))
    ([0, 1, 2, 3].map (fun j => 4 * r + j)) (Dev.abandon_sound killed (regUnit 6 r))
  have empty := foldl_sound Dev.forgetMem (fun _ _ h => Dev.forgetMem_sound h _)
    (([0, 1, 2, 3].map (fun j => 4 * r + j)).map cspUnit) (Dev.forgetMem_sound bare (regUnit 4 r))
  unfold Dev.fenceReg
  refine sound_of_ite h (Dev.raise_sound (Dev.journalWear_sound (Dev.journalLeap_sound (Dev.track_sound d _ ?_))) _ _ _ _)
  revert empty
  generalize List.foldl Dev.forgetMem _ _ = e
  exact fun he => Dev.leap_sound he rfl rfl

theorem Dev.fenceAttn_sound (r : Nat) (but : Option Nat) : (d.fenceAttn r but).sound := by
  grind only [Dev.fenceAttn, = Dev.sound_mk, = soundOf_dev, Dev.raise_sound, Dev.killOn_sound, Dev.track_sound, Dev.journalLeap_sound,
    Dev.journalWear_sound, Dev.abandon_sound]

theorem Dev.fence_sound (u : Nat) (but : Option Nat) : (d.fence u but).sound := by
  grind only [Dev.fence, Dev.fenceEng_sound, Dev.fencePc_sound, Dev.fenceClu_sound, Dev.fenceSeq_sound, Dev.fenceReg_sound,
    Dev.fenceAttn_sound]

theorem Dev.faultEvent_sound (src master addr acc t : Nat) : (d.faultEvent src master addr acc t).sound := by
  grind only [Dev.faultEvent, Dev.atTime_sound, Dev.event_sound, Dev.fence_sound]

theorem Dev.faultEvents_sound (evs : List Detection) (t : Nat) : (d.faultEvents evs t).sound :=
  foldl_sound _ (fun _ _ h => Dev.faultEvent_sound h _ _ _ _ _) _ h

theorem Dev.switchover_sound (k t : Nat) : (d.switchover k t).sound := by
  grind only [Dev.switchover, Dev.atTime_sound, Dev.raise_sound, Dev.modClu_sound, Dev.track_sound, Dev.journalLeap_sound]

theorem Dev.rotationDue_sound (k : Nat) (pc : Bool) (t : Nat) : (d.rotationDue k pc t).sound := by
  simp only [Dev.rotationDue, h, Dev.atTime_sound, Dev.modClu_sound, Dev.sound_ite, ite_self]

theorem Dev.newCode_sound (u : Nat) : (d.newCode u).sound := h

theorem Dev.underTest_sound (u : Nat) : (d.underTest u).sound := by
  grind only [Dev.underTest, Dev.modUnit_sound, Dev.applyRows_sound, Dev.newCode_sound]

theorem Dev.rotate_sound (k : Nat) (pc : Bool) (t : Nat) : (d.rotate k pc t).sound := by
  grind only [Dev.rotate, Dev.atTime_sound, Dev.modClu_sound, Dev.track_sound, Dev.journalLeap_sound, Dev.underTest_sound]

theorem Dev.passed_sound (u : Nat) : (d.passed u).sound := by
  simp only [Dev.passed, h, Dev.addSat_sound, Dev.modUnit_sound]

theorem Dev.failed_sound (u : Nat) : (d.failed u).sound := by
  simp only [Dev.failed, h, Dev.raise_sound, Dev.fence_sound]

theorem Dev.rowsFailed_sound (u : Nat) (rows : List Nat) : (d.rowsFailed u rows).sound :=
  foldl_sound _ (fun _ _ h => Dev.rowDue_sound h _) _ h

theorem Dev.testDone_sound (u : Nat) (pass : Bool) (rows : List Nat) (t : Nat) : (d.testDone u pass rows t).sound := by
  grind only [Dev.testDone, Dev.atTime_sound, Dev.modClu_sound, Dev.passed_sound, Dev.failed_sound, Dev.rowsFailed_sound]

theorem Dev.sliceStart_sound (u t : Nat) : (d.sliceStart u t).sound := by
  grind only [Dev.sliceStart, Dev.atTime_sound, Dev.modUnit_sound, Dev.newCode_sound]

theorem Dev.sliceEnd_sound (u : Nat) (pass : Bool) (rows : List Nat) (t : Nat) : (d.sliceEnd u pass rows t).sound := by
  grind only [Dev.sliceEnd, Dev.atTime_sound, Dev.modUnit_sound, Dev.passed_sound, Dev.failed_sound, Dev.rowsFailed_sound]

theorem Dev.deferredTest_sound (u t : Nat) : (d.deferredTest u t).sound := by
  grind only [Dev.deferredTest, Dev.addSat_sound, Dev.atTime_sound, Dev.raise_sound, Dev.modClu_sound, Dev.modUnit_sound]

theorem Dev.loanBegin_sound (k t : Nat) : (d.loanBegin k t).sound := by
  grind only [Dev.loanBegin, Dev.atTime_sound, Dev.modClu_sound, Dev.modUnit_sound, Dev.track_sound]

theorem Dev.loanEnd_sound (k t : Nat) : (d.loanEnd k t).sound := by
  grind only [Dev.loanEnd, Dev.atTime_sound, Dev.modClu_sound, Dev.track_sound, Dev.journalLeap_sound]

theorem Dev.standbySeqTest_sound (k : Nat) (pass : Bool) (t : Nat) : (d.standbySeqTest k pass t).sound := by
  grind only [Dev.standbySeqTest, Dev.atTime_sound, Dev.modClu_sound, Dev.newCode_sound, Dev.passed_sound, Dev.failed_sound]

theorem Dev.standbyComputusTest_sound (pass : Bool) (t : Nat) : (d.standbyComputusTest pass t).sound := by
  grind only [Dev.standbyComputusTest, = Dev.sound_mk, = soundOf_dev, Dev.addSat_sound, Dev.atTime_sound, Dev.raise_sound,
    Dev.abandonAct_sound]

theorem Dev.wearJournal_sound (t : Nat) : (d.wearJournal t).sound := by
  simp only [Dev.wearJournal, h, Dev.atTime_sound, Dev.journalWear_sound, Dev.sound_mk, soundOf_dev, Dev.sound_ite, ite_self]

theorem Dev.wearRead_sound (who : Who) : (d.wearRead who).sound := by
  simp only [Dev.wearRead, h, Dev.ret_sound, Dev.sound_mk, soundOf_dev, Dev.sound_ite, ite_self]

/-! ### Memory errors and repairs -/

theorem Dev.sramCe_sound (key acc : Nat) : (d.sramCe key acc).sound := by
  grind only [Dev.sramCe, = Dev.sound_mk, = soundOf_dev, Dev.addSat_sound, Dev.raise_sound, Dev.modUnit_sound, Dev.rowDue_sound]

theorem Dev.sramUe_sound (key acc : Nat) : (d.sramUe key acc).sound := by
  simp only [Dev.sramUe, h, Dev.addSat_sound, Dev.raise_sound, Dev.sound_mk, soundOf_dev, Dev.sound_ite, ite_self]

theorem Dev.patrolTurn_sound : (d.patrolTurn).sound := Dev.mem_sound h rfl rfl rfl

theorem Dev.rowSeen_sound (a n : Nat) : (d.rowSeen a n).sound := h

theorem Dev.hbmCe_sound (a acc : Nat) : (d.hbmCe a acc).sound := by
  grind only [Dev.hbmCe, = Dev.sound_mk, = soundOf_dev, Dev.addSat_sound, Dev.take_sound, Dev.raise_sound, Dev.patrolTurn_sound,
    Dev.rowSeen_sound]

theorem Dev.poisonAt_sound (a : Nat) : (d.poisonAt a).sound := by
  simp only [Dev.poisonAt, h, Dev.setPoison_sound, Dev.sound_ite, ite_self]

theorem Dev.hbmUeAt_sound (a acc : Nat) : (d.hbmUeAt a acc).sound := by
  grind only [Dev.hbmUeAt, Dev.addSat_sound, Dev.raise_sound, Dev.patrolTurn_sound, Dev.rowSeen_sound, Dev.poisonAt_sound]

theorem Dev.killUe_sound (id a acc : Nat) : (d.killUe id a acc).sound := by
  simp only [Dev.killUe, h, Dev.killFinal_sound, Dev.hbmUeAt_sound]

theorem Dev.stopMarch_sound (id : Nat) (e : MemErr) : (d.stopMarch id e).sound := by
  unfold Dev.stopMarch
  split <;> simp only [h, Dev.stopRerun_sound, Dev.modRun_sound]

theorem Dev.memErr_sound (id acc : Nat) (e : MemErr) : (d.memErr id acc e).sound := by
  simp only [Dev.memErr, h, Dev.killFinal_sound, Dev.sramCe_sound, Dev.sramUe_sound, Dev.hbmCe_sound, Dev.killUe_sound,
    Dev.stopMarch_sound, Dev.sound_ite, ite_self]

theorem Dev.memErrs_sound (id : Nat) (touched : List Extent) (es : List MemErr) (rmw : optParam (List Extent) []) : (d.memErrs id touched
    es rmw).sound :=
  foldl_sound _ (fun _ _ h => Dev.memErr_sound h _ _ _) _ h

theorem Dev.met_sound (acc : Nat) (ranges : List (Nat × Nat)) (es : List MemErr) (go : Dev → Dev) (hgo : ∀ d, d.sound = true → (go
    d).sound = true) : (d.met acc ranges es go).sound := by
  have step : ∀ (d : Dev) (e : MemErr), d.sound = true →
      (if e.hbm then (if !e.correctable then d.poisonAt e.addr
        else if d.mem.poison.contains (e.addr / 64 * 64) then d else d.hbmCe e.addr acc)
      else if e.correctable then d.sramCe e.addr acc else d.sramUe e.addr acc).sound = true := fun d e h => by
    simp only [h, Dev.sound_ite, Dev.poisonAt_sound, Dev.hbmCe_sound, Dev.sramCe_sound, Dev.sramUe_sound, ite_self]
  have all := fun es => foldl_sound _ step es h
  unfold Dev.met
  exact sound_of_ite (all _) (hgo _ (all _))

theorem Dev.marchDone_sound (key : Nat) (hard : Bool) (t : Nat) : (d.marchDone key hard t).sound := by
  unfold Dev.marchDone
  have h1 : ({ d.at_ t with
      mem := { (d.at_ t).mem with marches := (d.at_ t).mem.marches.filter (fun x => x != key / 64 * 64) } } : Dev).sound = true := h
  have h2 := Dev.mapRuns_sound h1 (fun p => (p.1, p.2.marched (key / 64 * 64))) (fun _ => rfl)
  have h3 := Dev.mapRuns_sound h2 (fun p => (p.1, if p.2.keep.contains (keyUnit (key / 64 * 64)) then { p.2 with keep := [] } else p.2))
    (fun _ => rfl)
  exact sound_of_ite h (sound_of_ite h2 (sound_of_ite (Dev.rowDue_sound h3 _) (Dev.fence_sound h3 _ _)))

theorem Dev.scrubRead_sound (mem off flips t : Nat) : (d.scrubRead mem off flips t).sound := by
  simp only [Dev.scrubRead, h, Dev.atTime_sound, Dev.sramCe_sound, Dev.sramUe_sound, Dev.sound_mk, soundOf_dev, Dev.sound_ite, ite_self]

theorem Dev.patrolRead_sound (addr flips t : Nat) : (d.patrolRead addr flips t).sound := by
  simp only [Dev.patrolRead, h, Dev.atTime_sound, Dev.hbmCe_sound, Dev.hbmUeAt_sound, Dev.sound_ite, ite_self]

theorem Dev.rowRepair_sound (mem : Nat) : (d.rowRepair mem).sound := by
  simp only [Dev.rowRepair, h, Dev.applyRows_sound, Dev.sound_mk, soundOf_dev, Dev.sound_ite, ite_self]

theorem Dev.exhausted_sound (s : Nat) : (d.exhausted s).sound := by
  simp only [Dev.exhausted, h, Dev.raise_sound]

theorem Dev.laneRepair_sound (s lane : Nat) (marginal : Bool) (t : Nat) : (d.laneRepair s lane marginal t).sound := by
  have ht := Dev.patrolTurn_sound (Dev.atTime_sound h t)
  unfold Dev.laneRepair
  generalize (d.at_ t).patrolTurn = e at ht ⊢
  refine sound_of_ite h (sound_of_ite ht ?_)
  have hk : ({ e with mem := { e.mem with hbmLanes := merase e.mem.hbmLanes (s * 1024 + lane) } } : Dev).sound = true := Dev.mem_sound ht
    rfl rfl rfl
  refine sound_of_ite (Dev.exhausted_sound hk _) (Dev.addSat_sound ?_ _ _)
  exact Dev.mem_sound hk rfl rfl rfl

theorem Dev.hbmRowRepair_sound (s row t : Nat) : (d.hbmRowRepair s row t).sound := by
  have ht := Dev.patrolTurn_sound (Dev.atTime_sound h t)
  unfold Dev.hbmRowRepair
  generalize (d.at_ t).patrolTurn = e at ht ⊢
  refine sound_of_ite h (sound_of_ite ht ?_)
  have hk : ({ e with mem := { e.mem with hbmRows := merase e.mem.hbmRows (s + 2 * row) } } : Dev).sound = true := Dev.mem_sound ht rfl
    rfl rfl
  refine sound_of_ite (Dev.exhausted_sound hk _) (Dev.addSat_sound ?_ _ _)
  exact Dev.mem_sound hk rfl rfl rfl

theorem Dev.rsvApply_sound : (d.rsvApply).sound := by
  simp only [Dev.rsvApply, h, Dev.set_sound, Dev.stage_sound, Dev.sound_ite, ite_self]

/-! ### The host link -/

theorem Dev.swapOut_sound (key : Nat) : (d.swapOut key).sound := by
  unfold Dev.swapOut
  split
  · exact h
  · refine sound_of_ite (Dev.take_sound (Dev.setPoison_sound (Dev.forgetHbm_sound ?_ _ _ _) _)) ?_ <;>
      exact Dev.modCtx_sound (sound_of_ite (Dev.send_sound h _) h) _ _

theorem Dev.makeRoom_sound : ∀ e, d.makeRoom = some e → e.sound := by
  grind only [Dev.makeRoom, Dev.swapOut_sound]

theorem Dev.swapTake_sound (key : Nat) : (d.swapTake key).sound := by
  grind only [Dev.swapTake, Dev.raise_sound, Dev.modCtx_sound, Dev.freeCtx_sound, Dev.hbmUeAt_sound]

theorem Dev.swapIn_sound (key : Nat) (mem : List MemErr) : (d.swapIn key mem).sound := by
  simp +contextual only [Dev.swapIn, h, Dev.met_sound, Dev.swapTake_sound, implies_true]

theorem Dev.heldBells_sound (key : Nat) : (d.heldBells key).sound := by
  simp only [Dev.heldBells, h, Dev.modCtx_sound, Dev.pumpCtx_sound]

theorem Dev.ctxCmd_sound (fn ctx op : Nat) (go : Dev → Dev) (hgo : ∀ d, d.sound = true → (go d).sound = true) : (d.ctxCmd fn ctx op
    go).sound := by
  simp only [Dev.ctxCmd, h, hgo, Dev.set_sound, Dev.sound_ite, ite_self]

theorem Dev.createCtx_sound (key : Nat) (b : List Nat) : (d.createCtx key b).1.sound := by
  grind only [Dev.createCtx, = Dev.sound_mk, = soundOf_dev, Dev.makeRoom_sound]

theorem Dev.create_sound (fn ctx : Nat) : (d.create fn ctx).sound := by
  simp only [Dev.create, h, Dev.opDone_sound, Dev.createCtx_sound]

theorem Dev.endCtx_sound (fn key : Nat) (destroy : Bool) : (d.endCtx fn key destroy).sound := by
  grind only [Dev.endCtx, Dev.set_sound, Dev.modCtx_sound, Dev.opDone_sound, Dev.pumpCtx_sound]

theorem Dev.dbErr_sound (fn page : Nat) : (d.dbErr fn page).sound := by
  grind only [Dev.dbErr, Dev.set_sound, Dev.raise_sound, Dev.fnEvent_sound]

theorem Dev.bellAct_sound (key : Nat) (mem : List MemErr) (first : Bool) : (d.bellAct key mem first).sound := by
  grind only [Dev.bellAct, Dev.fnEvent_sound, Dev.makeRoom_sound, Dev.swapIn_sound, Dev.heldBells_sound]

theorem Dev.ringBell_sound (key : Nat) (mem : List MemErr) (hold : Ctx → Ctx) : (d.ringBell key mem hold).sound := by
  simp only [Dev.ringBell, h, Dev.modCtx_sound, Dev.bellAct_sound]

theorem Dev.sqTail_sound (fn page off width value : Nat) (mem : List MemErr) : (d.sqTail fn page off width value mem).sound := by
  unfold Dev.sqTail
  split <;> simp only [h, Dev.dbErr_sound, Dev.ringBell_sound, Dev.sound_ite, ite_self]

theorem Dev.cqHead_sound (fn page off width value : Nat) (mem : List MemErr) : (d.cqHead fn page off width value mem).sound := by
  unfold Dev.cqHead
  split <;> simp only [h, Dev.dbErr_sound, Dev.ringBell_sound, Dev.sound_ite, ite_self]

theorem Dev.bellResume_sound (key : Nat) (mem : List MemErr) : (d.bellResume key mem).sound := by
  simp only [Dev.bellResume, h, Dev.bellAct_sound, Dev.sound_ite, ite_self]

theorem Dev.fetchDesc_sound (key : Nat) : (d.fetchDesc key).sound := by
  unfold Dev.fetchDesc
  split <;> simp only [h, Dev.modCtx_sound, Dev.pumpCtx_sound, Dev.sound_ite, ite_self]

theorem Dev.coalTimer_sound (key t : Nat) : (d.coalTimer key t).sound := by
  grind only [Dev.coalTimer, Dev.send_sound, Dev.atTime_sound, Dev.modCtx_sound]

theorem Dev.laneDown_sound (width : Nat) : (d.laneDown width).sound := by
  simp only [Dev.laneDown, h, Dev.raise_sound, Dev.sound_mk, soundOf_dev, Dev.sound_ite, ite_self]

theorem Dev.linkTrained_sound (width rate : Nat) : (d.linkTrained width rate).sound := by
  simp only [Dev.linkTrained, h, Dev.sound_mk, soundOf_dev, Dev.sound_ite, ite_self]

theorem Dev.bar2Data_sound (addr len : Nat) : (d.bar2Data addr len).sound := by
  unfold Dev.bar2Data
  split <;> simp only [h, Dev.ret_sound, Dev.hbmUeAt_sound, Dev.sound_mk, soundOf_dev]

theorem Dev.bar2Read_sound (addr len : Nat) (mem : List MemErr) : (d.bar2Read addr len mem).sound := by
  simp +contextual only [Dev.bar2Read, h, Dev.ret_sound, Dev.met_sound, Dev.bar2Data_sound, Dev.sound_ite, ite_self, implies_true]

theorem Dev.bar2Store_sound (addr n : Nat) (bytes : List Nat) : (d.bar2Store addr n bytes).sound := by
  refine foldl_sound _ (fun _ _ h => Dev.hbmUeAt_sound h _ _) _ (sound_of_ite ?_ (Dev.wrHbm_sound h _ _))
  exact foldl_sound _ (fun _ _ h => sound_of_ite h (Dev.wrHbm_sound h _ _)) _ h

theorem Dev.bar2Write_sound (addr : Nat) (bytes : List Nat) (mem : List MemErr) : (d.bar2Write addr bytes mem).sound := by
  simp +contextual only [Dev.bar2Write, h, Dev.met_sound, Dev.bar2Store_sound, Dev.sound_ite, ite_self, implies_true]

theorem Dev.ringNop_sound (key : Nat) : (d.ringNop key).sound := by
  unfold Dev.ringNop
  split <;> simp only [h, Dev.complete_sound]

theorem Dev.ringRun_sound (key : Nat) : (d.ringRun key).sound := by
  unfold Dev.ringRun
  split <;> simp only [h, Dev.modCtx_sound, Dev.setHead_sound, Dev.complete_sound, Dev.addRun_sound, Dev.sound_mk, soundOf_dev,
    Dev.sound_ite, ite_self]

theorem Dev.ringCopy_sound (key : Nat) : (d.ringCopy key).sound := by
  unfold Dev.ringCopy
  split <;> simp only [h, Dev.setHead_sound, Dev.complete_sound, Dev.sound_ite, ite_self]

theorem Dev.hubUe_sound (key g acc : Nat) : (d.hubUe key g acc).sound := by
  simp only [Dev.hubUe, h, Dev.complete_sound, Dev.hbmUeAt_sound]

theorem Dev.copyEnd_sound (key : Nat) (b : List Nat) : (d.copyEnd key b).sound := by
  unfold Dev.copyEnd
  split <;> simp only [h, Dev.wrHbm_sound, Dev.wrHost_sound, Dev.copyMix_sound, Dev.complete_sound, Dev.hubUe_sound, Dev.sound_ite,
    ite_self]

theorem Dev.copyDone_sound (key t : Nat) (mem : List MemErr) : (d.copyDone key t mem).sound := by
  grind only [Dev.copyDone, Dev.atTime_sound, Dev.met_sound, Dev.copyEnd_sound]

theorem Dev.ringSignal_sound (key : Nat) : (d.ringSignal key).sound := by
  grind only [Dev.ringSignal, Dev.flagAdd_sound, Dev.complete_sound]

theorem Dev.expireHead_sound (key n dl : Nat) : (d.expireHead key n dl).sound := by
  simp only [Dev.expireHead, h, Dev.complete_sound, Dev.diagnose_sound]

theorem Dev.ringWait_sound (key t : Nat) : (d.ringWait key t).sound := by
  grind only [Dev.ringWait, Dev.atTime_sound, Dev.setHead_sound, Dev.complete_sound, Dev.expireHead_sound]

theorem Dev.waitRelease_sound (key : Nat) : (d.waitRelease key).sound := by
  grind only [Dev.waitRelease, Dev.complete_sound]

theorem Dev.waitExpired_sound (key t : Nat) : (d.waitExpired key t).sound := by
  grind only [Dev.waitExpired, Dev.atTime_sound, Dev.expireHead_sound]

/-! ### The fault collector -/

theorem Dev.severeClear_sound (i mask : Nat) : (d.severeClear i mask).sound := h

theorem Dev.pendingClear_sound (i mask : Nat) : (d.pendingClear i mask).sound := h

theorem Dev.validClear_sound : (d.validClear).sound := h

theorem Dev.fltBad_sound : (d.fltBad).sound := by
  simp only [Dev.fltBad, h, Dev.set_sound]

theorem Dev.srcCfgWrite_sound (who : Who) (win : Bool) (value : Nat) : (d.srcCfgWrite who win value).sound := by
  simp only [Dev.srcCfgWrite, h, Dev.fltBad_sound, Dev.sound_mk, soundOf_dev, Dev.sound_ite, ite_self]

theorem Dev.lock_sound : (d.lock).sound := by
  simp only [Dev.lock, h, Dev.set_sound]

theorem Dev.inject_sound (who : Who) (src t : Nat) : (d.inject who src t).sound := by
  grind only [Dev.inject, Dev.set_sound, Dev.atTime_sound, Dev.event_sound, Dev.fltBad_sound]

theorem Dev.recordSnapshot_sound (who : Who) : (d.recordSnapshot who).sound := by
  unfold Dev.recordSnapshot
  dsimp only
  (repeat' split) <;> simp +contextual only [h, Dev.ret_sound, Dev.sound_mk, soundOf_dev]

theorem Dev.errInEdge_sound (t : Nat) : (d.errInEdge t).sound := by
  grind only [Dev.errInEdge, Dev.set_sound, Dev.atTime_sound, Dev.event_sound]

theorem Dev.errInRise_sound (t : Nat) : (d.errInRise t).sound := by
  simp only [Dev.errInRise, h, Dev.set_sound, Dev.atTime_sound]

theorem Dev.blockResetDone_sound (unit : Nat) : (d.blockResetDone unit).sound := by
  unfold Dev.blockResetDone
  refine sound_of_ite h (Dev.mapRuns_sound (Dev.emptyMems_sound (Dev.coll_sound h _) _) _ (fun p => ?_))
  split <;> rfl

/-! ### Tensors -/

theorem Dev.wrEl_sound (a : Acc2) (i0 i1 i2 i3 v : Nat) : (d.wrEl a i0 i1 i2 i3 v).sound :=
  sound_of_ite (Dev.sram_sound h (Mem.write_wf _ _ _ (Dev.sram_wf h))) (Dev.wrSramAt_sound h _ _)

/-! ### Operands and issue -/

theorem Dev.modMember_sound (id g : Nat) (f : Member → Member) : (d.modMember id g f).sound := by
  simp only [Dev.modMember, h, Dev.modRun_sound]

theorem Dev.advance_sound (id g : Nat) (i : Ins) : (d.advance id g i).sound := by
  simp only [Dev.advance, h, Dev.modMember_sound]

theorem Dev.arbEarly_sound (id : Nat) (r : Run) : (d.arbEarly id r).sound := by
  grind only [Dev.arbEarly, Dev.addSat_sound, Dev.charge_sound, Dev.raise_sound, Dev.modRun_sound]

theorem Dev.toFinal_sound (id : Nat) : (d.toFinal id).sound := by
  simp only [Dev.toFinal, h, Dev.modRun_sound]

theorem Dev.endOwn_sound (id status : Nat) : (d.endOwn id status).sound := by
  grind only [Dev.endOwn, Dev.addSat_sound, Dev.finish_sound, Dev.arbEarly_sound, Dev.toFinal_sound]

theorem Dev.enqueue_sound (id g : Nat) (c : Cur) (q : Nat) (ac : Option Nat) (regs : List (Nat × Extent)) : (d.enqueue id g c q ac
    regs).sound := by
  simp only [Dev.enqueue, h, Dev.modMember_sound]

theorem Done.idle_sound : (Done.idle d).d.sound := h

/-! ### Routes -/

theorem Dev.intoFlits_sound (p : Nat) (m : Tx) : (d.intoFlits p m).sound := h

theorem Dev.sendLg_sound (pkg : Nat) (m : Tx) : (d.sendLg pkg m).sound := by
  unfold Dev.sendLg
  split <;> simp only [h, Dev.send_sound, Dev.intoFlits_sound]

/-! ### Cameras -/

theorem Dev.modStrm_sound (s : Nat) (f : Stream → Stream) : (d.modStrm s f).sound := h

theorem Dev.seqStart_sound (s : Nat) : (d.seqStart s).sound := by
  simp only [Dev.seqStart, h, Dev.set_sound, Dev.modStrm_sound]

theorem Dev.lamDrop_sound (s : Nat) : (d.lamDrop s).sound := by
  simp only [Dev.lamDrop, h, Dev.addSat_sound, Dev.raise_sound]

theorem Dev.lamMirror_sound (a : Nat) (bs : List Nat) : (d.lamMirror a bs).sound := by
  simp +contextual only [Dev.lamMirror, h, Dev.sendLg_sound, Dev.sound_mk, soundOf_dev, Dev.sound_ite, ite_self, foldl_sound,
    implies_true]

theorem Dev.lamWrite_sound (a : Nat) (bs : List Nat) : (d.lamWrite a bs).sound := by
  simp only [Dev.lamWrite, h, Dev.wrHbm_sound, Dev.lamMirror_sound]

theorem Dev.lamZero_sound (a n : Nat) : (d.lamZero a n).sound := by
  have hz : (if d.stackLost a then d else { d with mem := { d.mem with hbm := d.mem.hbm.zero a (a + n) } }).sound = true :=
    sound_of_ite h (Dev.hbm_sound h (Mem.zero_wf _ _ _ (Dev.hbm_wf h)))
  exact Dev.lamMirror_sound (sound_of_ite hz (Dev.setPoison_sound hz _)) _ _

theorem Dev.lamFail_sound (s reason master : Nat) : (d.lamFail s reason master).sound := by
  grind only [Dev.lamFail, Dev.set_sound, Dev.addSat_sound, Dev.raise_sound, Dev.modStrm_sound]

theorem Dev.lamPass_sound (s idx addr seq firstTs length : Nat) (hdr : List Nat) : (d.lamPass s idx addr seq firstTs length hdr).sound :=
    by
  simp only [Dev.lamPass, h, Dev.modStrm_sound, Dev.lamWrite_sound]

theorem Dev.headerWritten_sound (s t : Nat) : (d.headerWritten s t).sound := by
  grind only [Dev.headerWritten, Dev.set_sound, Dev.atTime_sound, Dev.modStrm_sound]

theorem Dev.portCfgWrite_sound (p value : Nat) : (d.portCfgWrite p value).sound := by
  grind only [Dev.portCfgWrite, Dev.set_sound, Dev.stage_sound, Dev.enforce_sound]

theorem Dev.linkUpDown_sound (p : Nat) (up : Bool) : (d.linkUpDown p up).sound := by
  simp only [Dev.linkUpDown, h, Dev.set_sound, Dev.sound_ite, ite_self]

theorem Dev.strTake_sound (s : Nat) : (d.strTake s).sound := by
  simp only [Dev.strTake, h, Dev.set_sound, Dev.enforce_sound]

theorem Dev.strApply_sound (s : Nat) : (d.strApply s).sound := by
  grind only [Dev.strApply, Dev.set_sound, Dev.stage_sound, Dev.strTake_sound]

theorem Dev.strDisable_sound (s : Nat) : (d.strDisable s).sound := by
  simp only [Dev.strDisable, h, Dev.set_sound, Dev.modStrm_sound]

theorem Dev.eccNote_sound (p : Nat) (ecc : Bool) : (d.eccNote p ecc).sound := by
  simp only [Dev.eccNote, h, Dev.addSat_sound, Dev.sound_ite, ite_self]

theorem Dev.vcxPacket_sound (p t : Nat) : (d.vcxPacket p t).sound := by
  simp only [Dev.vcxPacket, h, Dev.addSat_sound, Dev.atTime_sound, Dev.sound_ite, ite_self]

theorem Dev.camFail_sound (s p reason : Nat) : (d.camFail s p reason).sound := by
  simp only [Dev.camFail, h, Dev.lamFail_sound]

theorem Dev.wrPixels_sound (c : CamCfg) (a y depth : Nat) (px : List (List Nat)) : (d.wrPixels c a y depth px).sound := by
  simp +contextual only [Dev.wrPixels, h, Dev.lamWrite_sound, Dev.sound_ite, ite_self, foldl_sound, implies_true]

theorem Dev.wrBayer_sound (c : CamCfg) (a y : Nat) (up row dn : List Nat) : (d.wrBayer c a y up row dn).sound := by
  simp only [Dev.wrBayer, h, Dev.wrPixels_sound]

theorem Dev.frameStart_sound (p vc : Nat) (ecc : Bool) (t : Nat) : (d.frameStart p vc ecc t).sound := by
  unfold Dev.frameStart
  dsimp only
  have he := Dev.eccNote_sound h p ecc
  refine sound_of_ite h (sound_of_ite (Dev.vcxPacket_sound he _ _) (foldl_sound _ (fun d q h => ?_) _
    (foldl_sound _ (fun d q h => ?_) _ (Dev.atTime_sound he _))))
  · have hs := Dev.seqStart_sound h q.1
    refine sound_of_ite hs ?_
    split
    · exact Dev.lamDrop_sound hs _
    · exact Dev.modStrm_sound hs _ _
  · have hc : (if (d.strm q.1).frame.isSome then d.camFail q.1 p 6 else d).sound = true := sound_of_ite (Dev.camFail_sound h _ _ _) h
    exact sound_of_ite (Dev.strTake_sound hc _) hc

theorem Dev.storeLine_sound (s : Nat) (c : CamCfg) (f : CamFrame) (dt : Nat) (payload : List Nat) (t : Nat) : (d.storeLine s c f dt
    payload t).sound := by
  grind only [Dev.storeLine, Dev.modStrm_sound, Dev.lamWrite_sound, Dev.wrPixels_sound, Dev.wrBayer_sound]

theorem Dev.line_sound (p vc dt : Nat) (ecc crcOk hdrOk : Bool) (payload : List Nat) (t : Nat) : (d.line p vc dt ecc crcOk hdrOk payload
    t).sound := by
  unfold Dev.line
  dsimp only
  have ht := Dev.atTime_sound h t
  have he := Dev.eccNote_sound ht p ecc
  have hc : (if crcOk then (d.at_ t).eccNote p ecc else ((d.at_ t).eccNote p ecc).addSat (F.LAM_PORT_CRC_ERR.COUNT p) 1).sound = true :=
    sound_of_ite he (Dev.addSat_sound he _ _)
  refine sound_of_ite h (sound_of_ite ?_ (sound_of_ite (Dev.addSat_sound he _ _) (sound_of_ite hc ?_)))
  · exact foldl_sound _ (fun _ _ h => Dev.camFail_sound h _ _ _) _ (Dev.addSat_sound ht _ _)
  · refine foldl_sound _ (fun d q h => ?_) _ hc
    split
    · exact h
    · exact sound_of_ite (Dev.storeLine_sound h _ _ _ _ _ _) (Dev.camFail_sound h _ _ _)

theorem Dev.frameEnd_sound (p vc : Nat) (ecc : Bool) (t : Nat) : (d.frameEnd p vc ecc t).sound := by
  unfold Dev.frameEnd
  dsimp only
  have he := Dev.eccNote_sound h p ecc
  refine sound_of_ite h (sound_of_ite (Dev.vcxPacket_sound he _ _) (foldl_sound _ (fun d q h => ?_) _ (Dev.atTime_sound he _)))
  obtain ⟨s, c⟩ := q
  dsimp only
  split
  · exact h
  · refine sound_of_ite (Dev.camFail_sound h _ _ _) (sound_of_ite (Dev.camFail_sound h _ _ _) ?_)
    exact Dev.lamPass_sound (Dev.lamZero_sound (sound_of_ite (Dev.wrBayer_sound h _ _ _ _ _ _) h) _ _) _ _ _ _ _ _ _

theorem Dev.lineTimeout_sound (s t : Nat) : (d.lineTimeout s t).sound := by
  unfold Dev.lineTimeout
  split <;> simp only [h, Dev.atTime_sound, Dev.camFail_sound, Dev.sound_ite, ite_self]

theorem Dev.frameTimeout_sound (s t : Nat) : (d.frameTimeout s t).sound := by
  unfold Dev.frameTimeout
  split <;> simp only [h, Dev.atTime_sound, Dev.camFail_sound, Dev.sound_ite, ite_self]

/-! ### Lidar -/

theorem Dev.lidTake_sound (l : Nat) : (d.lidTake l).sound := by
  simp only [Dev.lidTake, h, Dev.set_sound, Dev.enforce_sound]

theorem Dev.lidApply_sound (l : Nat) : (d.lidApply l).sound := by
  grind only [Dev.lidApply, Dev.set_sound, Dev.stage_sound, Dev.lidTake_sound]

theorem Dev.openSweep_sound (l t : Nat) : (d.openSweep l t).sound := by
  have hp : (if d.on (F.LAM_LID_CFG.PENDING l) then d.lidTake l else d).sound = true := sound_of_ite (Dev.lidTake_sound h _) h
  unfold Dev.openSweep
  dsimp only
  split
  · exact Dev.modStrm_sound (Dev.lamDrop_sound (Dev.seqStart_sound hp _) _) _ _
  · exact Dev.modStrm_sound (Dev.seqStart_sound hp _) _ _

theorem Dev.modSweep_sound (s : Nat) (f : Sweep → Sweep) : (d.modSweep s f).sound := h

theorem Dev.lidFail_sound (l reason : Nat) : (d.lidFail l reason).sound := by
  simp only [Dev.lidFail, h, Dev.lamFail_sound]

theorem Dev.endSweep_sound (l : Nat) : (d.endSweep l).sound := by
  grind only [Dev.endSweep, Dev.modStrm_sound, Dev.lamPass_sound, Dev.lidFail_sound]

theorem Dev.lamTick_sound : (d.lamTick).sound := by
  simp +contextual only [Dev.lamTick, h, Dev.endSweep_sound, Dev.sound_ite, ite_self, foldl_sound, implies_true]

theorem Dev.takePoint_sound (l : Nat) (c : LidCfg) (b j : Nat) (p : List Nat) (t : Nat) : (d.takePoint l c b j p t).sound := by
  grind only [Dev.takePoint, Dev.lamWrite_sound, Dev.modSweep_sound, Dev.lidFail_sound]

theorem Dev.azimuth_sound (s : Nat) (c : LidCfg) (b j : Nat) (p : List Nat) : (d.azimuth s c b j p).1.sound := by
  unfold Dev.azimuth
  split <;> simp only [h, Dev.modStrm_sound]

theorem Dev.storeRec_sound (l : Nat) (p : List Nat) (t : Nat) : (d.storeRec l p t).sound := by
  grind only [Dev.storeRec, Dev.lamWrite_sound, Dev.modSweep_sound]

theorem Dev.needSweep_sound (l t : Nat) : (d.needSweep l t).sound := by
  simp only [Dev.needSweep, h, Dev.openSweep_sound, Dev.sound_ite, ite_self]

omit h in
theorem Dev.points_sound (l : Nat) (p : List Nat) (t n : Nat) {d : Dev} (h : d.sound = true) (b j : Nat) :
    (Dev.points l p t n d b j).sound = true := by
  induction n generalizing d b j with
  | zero => exact h
  | succ n ih =>
    unfold Dev.points
    grind only [Dev.azimuth_sound, Dev.endSweep_sound, Dev.needSweep_sound, Dev.storeRec_sound, Dev.takePoint_sound]

theorem Dev.allPoints_sound (l : Nat) (p : List Nat) (t : Nat) : (d.allPoints l p t).sound := Dev.points_sound _ _ _ _ h _ _

theorem Dev.storePacket_sound (l : Nat) (p : List Nat) (t : Nat) : (d.storePacket l p t).sound := by
  have hr : (if (lidCfg d.live l).split = 2 then (d, false) else (lidCfg d.live l).pointList.foldl (fun (q : Dev × Bool) bj =>
      ((q.1.azimuth (32 + l) (lidCfg d.live l) bj.1 bj.2 p).1, q.2 || (q.1.azimuth (32 + l) (lidCfg d.live l) bj.1 bj.2 p).2))
      (d, false)).1.sound = true := by
    split
    · exact h
    · refine foldl_induct (fun q : Dev × Bool => q.1.sound = true) _ (fun q bj hq => ?_) _ h
      exact Dev.azimuth_sound hq _ _ _ _ _
  unfold Dev.storePacket
  dsimp only
  revert hr
  generalize (if (lidCfg d.live l).split = 2 then (d, false) else _) = r
  intro hr
  have hd : (if r.2 then r.1.endSweep l else r.1).sound = true := sound_of_ite (Dev.endSweep_sound hr _) hr
  generalize (if r.2 = true then r.1.endSweep l else r.1) = e at hd ⊢
  grind only [Dev.endSweep_sound, Dev.needSweep_sound, Dev.allPoints_sound, Dev.storeRec_sound]

theorem Dev.datagram_sound (l : Nat) (p : List Nat) (bad : Bool) (t : Nat) : (d.datagram l p bad t).sound := by
  grind only [Dev.datagram, Dev.lidTake_sound, Dev.modSweep_sound, Dev.lidFail_sound, Dev.allPoints_sound, Dev.storePacket_sound]

theorem Dev.ethFrame_sound (mac : Nat) (bytes : List Nat) (fcsOk : Bool) (t : Nat) : (d.ethFrame mac bytes fcsOk t).sound := by
  grind only [Dev.ethFrame, Dev.atTime_sound, Dev.datagram_sound]

theorem Dev.gapTimeout_sound (l t : Nat) : (d.gapTimeout l t).sound := by
  simp only [Dev.gapTimeout, h, Dev.atTime_sound, Dev.lidFail_sound, Dev.sound_ite, ite_self]

theorem Dev.sweepTimeout_sound (l t : Nat) : (d.sweepTimeout l t).sound := by
  unfold Dev.sweepTimeout
  split <;> simp only [h, Dev.atTime_sound, Dev.lidFail_sound, Dev.sound_ite, ite_self]

/-! ### Tithe -/

theorem Dev.askOpp_sound (r k : Nat) : (d.askOpp r k).sound := by
  have s := Dev.sound_iff.mp h
  unfold Dev.askOpp
  split
  · exact Dev.sound_iff.mpr { s with waiting := (List.length_set ..).trans s.waiting }
  · exact sound_of_ite h (Dev.sound_iff.mpr { s with changing := (List.length_set ..).trans s.changing })

theorem Dev.reachOpp_sound (r k : Nat) : (d.reachOpp r k).sound :=
  Dev.set_sound (Dev.opp_sound (Dev.energyNow_sound (Dev.settle_sound h)) r k) _ _

theorem Dev.allocate_sound : (d.allocate).sound := by
  refine Dev.set_sound (foldl_sound _ (fun d r h => ?_) _ (Dev.enforce_sound (Dev.stage_sound h _ _) _ _)) _ _
  exact Dev.askOpp_sound (Dev.set_sound (Dev.set_sound h _ _) _ _) _ _

theorem Dev.overCap_sound (t : Nat) : (d.overCap t).sound := by
  grind only [Dev.overCap, = Dev.sound_mk, = soundOf_dev, Dev.atTime_sound, Dev.askOpp_sound]

theorem Dev.oppDone_sound (r t : Nat) : (d.oppDone r t).sound := by
  unfold Dev.oppDone
  split
  · exact h
  · next k _ =>
    have hd := Dev.waiting_sound (Dev.changing_sound (Dev.reachOpp_sound (Dev.atTime_sound h t) r k) r none) r none
    dsimp only
    split
    · exact hd
    · exact Dev.askOpp_sound hd _ _

theorem Dev.sample_sound (mon : List (Nat × Nat)) : (d.sample mon).sound :=
  foldl_sound _ (fun _ _ h => Dev.set_sound (Dev.set_sound h _ _) _ _) _ (Dev.pwr_sound (Dev.addEnergy_sound h _) rfl rfl rfl)

theorem Dev.poll_sound (mw : List (Option Nat)) : (d.poll mw).sound := by
  simp +contextual only [Dev.poll, h, Dev.set_sound, Dev.raise_sound, Dev.sound_mk, soundOf_dev, foldl_sound, implies_true]

theorem Dev.powerCompare_sound : (d.powerCompare).sound := by
  simp only [Dev.powerCompare, h, Dev.set_sound, Dev.raise_sound, Dev.sound_mk, soundOf_dev, Dev.sound_ite, ite_self]

theorem Dev.droop_sound (n t : Nat) : (d.droop n t).sound := by
  grind only [Dev.droop, = Dev.sound_mk, = soundOf_dev, Dev.set_sound, Dev.addSat_sound, Dev.atTime_sound, Dev.raise_sound,
    Dev.settle_sound]

theorem Dev.stretchEnd_sound (n t : Nat) : (d.stretchEnd n t).sound := by
  grind only [Dev.stretchEnd, = Dev.sound_mk, = soundOf_dev, Dev.set_sound, Dev.atTime_sound, Dev.settle_sound]

theorem Dev.sense_sound (junction hbm : List Int) (t : Nat) : (d.sense junction hbm t).sound := by
  have ht : ({ d.at_ t with pwr := { (d.at_ t).pwr with junction := junction, hbmTemp := hbm } } : Dev).sound = true :=
    Dev.pwr_sound (Dev.atTime_sound h t) rfl rfl rfl
  exact Dev.set_sound (Dev.set_sound (foldl_sound _ (fun _ _ h => Dev.set_sound h _ _) _ ht) _ _) _ _

theorem Dev.thermWarn_sound (junction hbm : List Int) (t : Nat) : (d.thermWarn junction hbm t).sound := by
  simp only [Dev.thermWarn, h, Dev.set_sound, Dev.raise_sound, Dev.sense_sound, Dev.sound_mk, soundOf_dev, Dev.sound_ite, ite_self]

theorem Dev.warnClear_sound (junction hbm : List Int) (t : Nat) : (d.warnClear junction hbm t).sound := by
  simp only [Dev.warnClear, h, Dev.set_sound, Dev.sense_sound, Dev.sound_ite, ite_self]

theorem Dev.capStep_sound (junction hbm : List Int) (t : Nat) : (d.capStep junction hbm t).sound := by
  simp only [Dev.capStep, h, Dev.set_sound, Dev.sense_sound, Dev.sound_mk, soundOf_dev, Dev.sound_ite, ite_self]

theorem Dev.forceLow_sound : (d.forceLow).sound := by
  refine foldl_sound _ (fun _ _ h => Dev.reachOpp_sound h _ _) _ ?_
  exact Dev.sound_iff.mpr { Dev.sound_iff.mp h with changing := List.length_replicate, waiting := List.length_replicate }

theorem Dev.alert_sound (t : Nat) : (d.alert t).sound := by
  have ht : ({ d.at_ t with pwr := { (d.at_ t).pwr with alertCause := true, alertHold := none } } : Dev).sound = true :=
    Dev.pwr_sound (Dev.atTime_sound h t) rfl rfl rfl
  unfold Dev.alert
  exact sound_of_ite h (Dev.raise_sound (Dev.forceLow_sound (Dev.set_sound ht _ _)) _ _ _ _)

theorem Dev.alertRelease_sound (t : Nat) : (d.alertRelease t).sound := by
  simp only [Dev.alertRelease, h, Dev.atTime_sound, Dev.sound_mk, soundOf_dev, Dev.sound_ite, ite_self]

theorem Dev.trip_sound (junction hbm : List Int) (t : Nat) : (d.trip junction hbm t).sound := by
  have hs := Dev.sense_sound h junction hbm t
  unfold Dev.trip
  dsimp only
  generalize d.sense junction hbm t = e at hs ⊢
  have ht : ({ e with pwr := { e.pwr with tripCause := true, tripHold := none } } : Dev).sound = true := Dev.pwr_sound hs rfl rfl rfl
  exact sound_of_ite hs (Dev.raise_sound (Dev.forceLow_sound (Dev.set_sound ht _ _)) _ _ _ _)

theorem Dev.tripEnd_sound (junction hbm : List Int) (t : Nat) : (d.tripEnd junction hbm t).sound := by
  simp only [Dev.tripEnd, h, Dev.sense_sound, Dev.sound_mk, soundOf_dev, Dev.sound_ite, ite_self]

theorem Dev.holdExpiry_sound (trip : Bool) (t : Nat) : (d.holdExpiry trip t).sound := by
  grind only [Dev.holdExpiry, = Dev.sound_mk, = soundOf_dev, Dev.set_sound, Dev.atTime_sound, Dev.allocate_sound]

theorem Dev.pwrBad_sound : (d.pwrBad).sound := by
  simp only [Dev.pwrBad, h, Dev.set_sound]

theorem Dev.partCfg_sound (who : Who) (f value : Nat) : (d.partCfg who f value).sound := by
  grind only [Dev.partCfg, Dev.set_sound, Dev.pwrBad_sound]

/-! ### ATTEND -/

theorem Dev.atRun_sound (oct : Bool) (f : AtF) (o : AtOp) : (d.atRun oct f o).1.sound := by
  unfold Dev.atRun
  refine foldl_induct (fun s : Dev × Nat => s.1.sound = true) _ (fun s x hs => ?_) _ h
  refine foldl_induct (fun s : Dev × Nat => s.1.sound = true) _ (fun s i hs => ?_) _ hs
  dsimp only
  refine foldl_induct (fun w : Dev × Nat => w.1.sound = true) _ (fun w b hw => ?_) _ hs
  exact Dev.wrEl_sound hw _ _ _ _ _ _

theorem Dev.attend_sound (id g t : Nat) : (d.attend id g t).sound := by
  grind only [Dev.attend, Dev.atTime_sound, Dev.endOwn_sound, Dev.enqueue_sound]

theorem Dev.atDo_sound (g : Nat) (c : Cur) : (d.atDo g c).d.sound := by
  unfold Dev.atDo
  dsimp only
  split
  · split
    · exact Dev.take_sound (Dev.forgetSram_sound h _ _ _)
    · exact Dev.atRun_sound h _ _ _
  · exact h

/-! ### Runs and commits -/

theorem Dev.forgetFor_sound (id : Nat) (r : Run) : (d.forgetFor id r).sound := by
  have hc := foldl_sound (fun d k => d.forgetMem (cspUnit k)) (fun _ _ h => Dev.forgetMem_sound h _)
    (r.clusters.filter (fun k => !((d.forgetUnits r.units).runs.filter (fun q => q.1 != id && q.2.holds)).any (fun q => q.2.onClu k)))
    (Dev.forgetUnits_sound h r.units)
  exact sound_of_ite hc (Dev.forgetMem_sound hc _)

theorem Dev.startRun_sound (id n : Nat) (engs cores : List (Nat × Nat)) (attn : Option Nat) : (d.startRun id n engs cores attn).sound :=
    by
  unfold Dev.startRun
  split
  · exact h
  · have hr := foldl_sound (fun (d : Dev) u => d.modUnit u (fun s => { s with turn := false })) (fun _ _ h => Dev.modUnit_sound h _ _)
    exact sound_of_ite (hr _ (Dev.forgetFor_sound (Dev.modRun_sound h _ _) _ _))
      (foldl_sound _ (fun _ _ h => Dev.wrSram_sound h _ _) _ (hr _ (Dev.forgetFor_sound (Dev.modRun_sound h _ _) _ _)))

theorem Dev.wrSlot_sound (part : Nat) (c : RunRec) (b : Bool) : (d.wrSlot part c b).sound := by
  simp +contextual only [Dev.wrSlot, h, Dev.wrHbm_sound, foldl_sound, implies_true]

theorem Dev.runEnded_sound (id : Nat) : (d.runEnded id).sound := by
  unfold Dev.runEnded
  split
  · exact h
  · dsimp only
    split
    · refine sound_of_ite (sound_of_ite (Dev.modRun_sound (Dev.wrSlot_sound h _ _ _) _ _) (Dev.finish_sound h _ _ _)) (sound_of_ite ?_ ?_)
      · exact sound_of_ite (Dev.addSat_sound (Dev.modRun_sound h _ _) _ _) (Dev.modRun_sound h _ _)
      · exact sound_of_ite (Dev.finish_sound (Dev.addSat_sound h _ _) _ _ _) (Dev.modRun_sound (Dev.charge_sound h _ _) _ _)
    · exact sound_of_ite (Dev.modRun_sound h _ _) (Dev.modRun_sound (Dev.wrSlot_sound (Dev.charge_sound h _ _) _ _ _) _ _)
    · exact Dev.toFinal_sound (Dev.modRun_sound h _ _) _
    · exact h

theorem Dev.holdDone_sound (id t : Nat) : (d.holdDone id t).sound := by
  unfold Dev.holdDone
  split
  · exact h
  · refine sound_of_ite h (sound_of_ite h ?_)
    have hb := fun us vs => foldl_sound (fun (d : Dev) u => (d.addSat F.SAF_OCT_SAME_ENGINE.COUNT 1).raise 0x044 u ‹Run›.addr 5)
      (fun _ _ h => Dev.raise_sound (Dev.addSat_sound h _ _) _ _ _ _) us
      (foldl_sound Dev.abandon (fun _ _ h => Dev.abandon_sound h _) vs (Dev.atTime_sound h t))
    exact sound_of_ite (hb _ _) (Dev.startRun_sound (Dev.modRun_sound (Dev.addSat_sound (hb _ _) _ _) _ _) _ _ _ _ _)

theorem Dev.readStage_sound (id : Nat) (ph : RunPhase) (touched : Run → List Extent) (mem : List MemErr) (go : Dev → Dev) (hgo : ∀ d,
    d.sound = true → (go d).sound = true) : (d.readStage id ph touched mem go).sound := by
  unfold Dev.readStage
  split <;> simp only [h, hgo, Dev.memErrs_sound, Dev.sound_ite, ite_self]

theorem Dev.disagree_sound (r : Run) : (d.disagree r).sound := by
  simp only [Dev.disagree, h, Dev.addSat_sound, Dev.raise_sound]

theorem Dev.compareDone_sound (id t : Nat) : (d.compareDone id t).sound := by
  grind only [Dev.compareDone, Dev.atTime_sound, Dev.charge_sound, Dev.modRun_sound, Dev.killUe_sound, Dev.wrSlot_sound,
    Dev.disagree_sound]

theorem Dev.slotBDone_sound (id t : Nat) : (d.slotBDone id t).sound := by
  unfold Dev.slotBDone
  split <;> simp only [h, Dev.atTime_sound, Dev.modRun_sound, Dev.sound_ite, ite_self]

theorem Dev.arbLast_sound (r : Run) (verdict : Nat) : (d.arbLast r verdict).sound := by
  simp only [Dev.arbLast, h, Dev.setReg_sound, Dev.set_sound]

theorem Dev.troyDone_sound (id : Nat) (failing : List Nat) (t : Nat) : (d.troyDone id failing t).sound := by
  unfold Dev.troyDone
  split
  · exact h
  · have hb := fun l f => Dev.modRun_sound (foldl_sound (fun (d : Dev) u => (d.raise 0x045 u 0 5).fence u (some id))
      (fun _ _ h => Dev.fence_sound (Dev.raise_sound h _ _ _ _) _ _) l (Dev.atTime_sound h t)) id f
    refine sound_of_ite h ?_
    dsimp only
    split
    · exact hb _ _
    · refine sound_of_ite (hb _ _) (sound_of_ite (Dev.finish_sound (sound_of_ite (Dev.arbLast_sound (hb _ _) _ _) (hb _ _)) _ _ _)
        (sound_of_ite (hb _ _) (sound_of_ite (Dev.startRun_sound (hb _ _) _ _ _ _ _)
          (Dev.startRun_sound (Dev.modRun_sound (hb _ _) _ _) _ _ _ _ _))))

theorem Dev.verdict_sound (id t : Nat) : (d.verdict id t).sound := by
  grind only [Dev.verdict, Dev.addSat_sound, Dev.atTime_sound, Dev.raise_sound, Dev.modRun_sound, Dev.finish_sound, Dev.killUe_sound,
    Dev.disagree_sound, Dev.arbLast_sound]

theorem Dev.nextSeq_sound (pkg : Nat) : (d.nextSeq pkg).sound := h

theorem Dev.commitSlice_sound (id : Nat) (x : Dest × List Nat) : (d.commitSlice id x).sound := by
  grind only [Dev.commitSlice, Dev.wrHbm_sound, Dev.modRun_sound, Dev.sendLg_sound, Dev.nextSeq_sound]

theorem Dev.commitStart_sound (id t : Nat) (mem : List MemErr) : (d.commitStart id t mem).sound := by
  have errs := fun l => foldl_sound (fun (d : Dev) (e : MemErr) =>
      if e.hbm then (if e.correctable then d.hbmCe e.addr accRead else d.poisonAt e.addr)
      else if e.correctable then d.sramCe e.addr accRead else d) (fun _ _ h => sound_of_ite (sound_of_ite (Dev.hbmCe_sound h _ _)
        (Dev.poisonAt_sound h _)) (sound_of_ite (Dev.sramCe_sound h _ _) h)) l (Dev.atTime_sound h t)
  have slices := fun l f (x : List (Nat × Dest × List Nat)) => foldl_sound (fun (d : Dev) (x : Nat × Dest × List Nat) => d.commitSlice id
    x.2)
    (fun _ _ h => Dev.commitSlice_sound h _ _) x (Dev.modRun_sound (errs l) id f)
  unfold Dev.commitStart
  split
  · exact h
  · refine sound_of_ite h ?_
    dsimp only
    split
    · exact slices _ _ _
    · exact Dev.stopMarch_sound (foldl_sound _ (fun _ _ h => Dev.sramUe_sound h _ _) _ (slices _ _ _)) _ _
    · exact Dev.finish_sound (Dev.hbmUeAt_sound (slices _ _ _) _ _) _ _ _

theorem Dev.sendMarks_sound (id : Nat) : (d.sendMarks id).sound := by
  unfold Dev.sendMarks
  split
  · exact h
  · exact foldl_sound _ (fun _ _ h => Dev.modRun_sound (Dev.sendLg_sound (Dev.nextSeq_sound h _) _ _) _ _) _ h

theorem Dev.pieceAck_sound (id i : Nat) (reply : PieceReply) (t : Nat) : (d.pieceAck id i reply t).sound := by
  grind only [Dev.pieceAck, Dev.atTime_sound, Dev.raise_sound, Dev.modRun_sound, Dev.sendLg_sound, Dev.sendMarks_sound]

theorem Dev.applySignals_sound (l : List (Nat × Nat)) : (d.applySignals l).sound := by
  simp +contextual only [Dev.applySignals, h, Dev.flagAdd_sound, foldl_sound, implies_true]

theorem Dev.noteOuts_sound (r : Run) : (d.noteOuts r).sound := by
  simp only [Dev.noteOuts, h, Dev.modTask_sound, Dev.sound_ite, ite_self]

theorem Dev.commitEnd_sound (id t : Nat) : (d.commitEnd id t).sound := by
  grind only [Dev.commitEnd, Dev.atTime_sound, Dev.finish_sound, Dev.applySignals_sound, Dev.noteOuts_sound]

/-! ### Dispatch and slices -/

theorem Dev.preempt_sound (id : Nat) : (d.preempt id).sound := by
  unfold Dev.preempt
  split <;> simp only [h, Dev.killRerun_sound, Dev.modCtx_sound]

theorem Dev.planPreempt_sound : (d.planPreempt).sound := by
  simp +contextual only [Dev.planPreempt, h, Dev.preempt_sound, foldl_sound, implies_true]

theorem Dev.launch_sound (id : Nat) (r : Run) : (d.launch id r).sound := by
  simp only [Dev.launch, h, Dev.modRun_sound, Dev.startRun_sound]

theorem Dev.fetched_sound (id : Nat) (r : Run) (mem : List MemErr) (go : Dev → Dev) (hgo : ∀ d, d.sound = true → (go d).sound = true) :
    (d.fetched id r mem go).sound := by
  grind only [Dev.fetched, Dev.killUe_sound, Dev.met_sound]

theorem Dev.dispatch_sound (id t : Nat) (mem : List MemErr) : (d.dispatch id t mem).sound := by
  unfold Dev.dispatch
  split
  · exact h
  · have ht := Dev.atTime_sound h t
    have hp := Dev.planPreempt_sound ht
    refine sound_of_ite h (sound_of_ite (Dev.finish_sound ht _ _ _) (sound_of_ite
      (Dev.fetched_sound ht _ _ _ _ (fun _ h => Dev.finish_sound h _ _ _))
      (sound_of_ite hp (sound_of_ite (Dev.launch_sound hp _ _) (Dev.fetched_sound hp _ _ _ _ (fun d h => ?_))))))
    split
    · exact h
    · split
      · exact Dev.finish_sound h _ _ _
      · exact Dev.finish_sound (Dev.addSat_sound h _ _) _ _ _
      · exact Dev.killUe_sound h _ _ _
      · exact Dev.launch_sound (foldl_sound _ (fun _ _ h => Dev.pin_sound h _) _ h) _ _

theorem Dev.sliceExpiry_sound (key t : Nat) : (d.sliceExpiry key t).sound := by
  unfold Dev.sliceExpiry
  split
  · exact h
  · have ht := Dev.atTime_sound h t
    have hc := fun l => foldl_sound (fun (d : Dev) (q : Nat × Run) => (d.charge q.1 true).modRun q.1 (fun r => { r with banked := 0 }))
      (fun _ _ h => Dev.modRun_sound (Dev.charge_sound h _ _) _ _) l ht
    refine sound_of_ite ht (foldl_sound _ (fun _ _ h => Dev.modRun_sound (Dev.preempt_sound h _) _ _) _ ?_)
    exact hc _

theorem Dev.ctxSchedWrite_sound (value : Nat) : (d.ctxSchedWrite value).sound := by
  simp only [Dev.ctxSchedWrite, h, Dev.set_sound, Dev.modCtx_sound, Dev.sound_ite, ite_self]

theorem Dev.partApply_sound : (d.partApply).sound := by
  simp only [Dev.partApply, h, Dev.set_sound, Dev.stage_sound, Dev.sound_ite, ite_self]

theorem Dev.flagClear_sound : (d.flagClear).sound := by
  simp only [Dev.flagClear, h, Dev.set_sound, Dev.sound_mk, soundOf_dev, Dev.sound_ite, ite_self]

/-! ### The frame -/

theorem Dev.kalApply_sound : (d.kalApply).sound := by
  simp only [Dev.kalApply, h, Dev.set_sound, Dev.stage_sound, Dev.sound_ite, ite_self]

theorem Dev.frameLoRead_sound : (d.frameLoRead).sound := h

theorem Dev.setRosterOf_sound (l : List RosterEntry) (no tick : Nat) : (d.setRosterOf l no tick).sound := h

theorem Dev.setRoster_sound (l : List RosterEntry) : (d.setRoster l).sound := h

theorem Dev.ringRoster_sound : (d.ringRoster).sound := by
  simp only [Dev.ringRoster, h, Dev.wrHbm_sound, Dev.sound_ite, ite_self]

theorem Dev.freezeRoster_sound : (d.freezeRoster).sound := by
  have roster : (if d.groupMember then d.setRoster d.absentRoster else
      ((List.range 36).map (fun s => (s, d.rosterEntry s))).foldl (fun d x => d.modStrm x.1 (fun _ => x.2.2))
        (d.setRoster (((List.range 36).map (fun s => (s, d.rosterEntry s))).map (fun x => x.2.1)))).sound = true :=
    sound_of_ite (Dev.setRoster_sound h _) (foldl_sound _ (fun _ _ h => Dev.modStrm_sound h _ _) _ (Dev.setRoster_sound h _))
  unfold Dev.freezeRoster
  dsimp only
  revert roster
  generalize (if d.groupMember = true then d.setRoster d.absentRoster else _) = e
  intro he
  have hp : ({ e with lam := e.lam.map (fun q => (q.1, q.2.promote)) } : Dev).take.sound = true := he
  revert hp
  generalize Dev.take _ = e
  intro he
  have hr : (if e.groupMember then e else e.ringRoster).sound = true := sound_of_ite he (Dev.ringRoster_sound he)
  exact sound_of_ite (b := ite _ e e.ringRoster) (foldl_sound _ (fun _ _ h => Dev.sendLg_sound h _ _) _ hr) hr

theorem Dev.rosterReceive_sound (bytes : List Nat) : (d.rosterReceive bytes).sound := by
  grind only [Dev.rosterReceive, = Dev.sound_mk, = soundOf_dev, Dev.sendLg_sound, Dev.setRosterOf_sound, Dev.ringRoster_sound]

theorem Dev.digestReturn_sound (member digest : Nat) : (d.digestReturn member digest).sound := by
  simp only [Dev.digestReturn, h, Dev.sound_mk, soundOf_dev, Dev.sound_ite, ite_self]

theorem Dev.agreeTimeout_sound : (d.agreeTimeout).sound := by
  grind only [Dev.agreeTimeout, = Dev.sound_mk, = soundOf_dev, Dev.take_sound, Dev.atTime_sound, Dev.raise_sound, Dev.setRoster_sound]

theorem Dev.refuseImage_sound (e : ImgErr) : (d.refuseImage e).sound := by
  grind only [Dev.refuseImage, Dev.set_sound]

theorem Dev.imgTake_sound (src : Nat) : (d.imgTake src).sound := by
  -- Unfolded as a function: on `imgTake d src` the kernel would run the reads of the image.
  have e : Dev.imgTake = Dev.imgTake := rfl
  conv at e => rhs; delta Dev.imgTake
  rw [e]
  beta_reduce
  generalize List.findSome? _ _ = bad
  generalize d.image src = image
  cases bad with
  | some g => exact Dev.refuseImage_sound (Dev.take_sound (Dev.hbmUeAt_sound h _ _)) _
  | none =>
    cases image with
    | error e => exact Dev.refuseImage_sound h _
    | ok l => exact Dev.set_sound (Dev.frame_sound h _) _ _

theorem Dev.switchNow_sound (mem : List MemErr) : (d.switchNow mem).sound := by
  simp +contextual only [Dev.switchNow, h, Dev.met_sound, Dev.imgTake_sound, implies_true]

theorem Dev.ordoSwitch_sound (mem : List MemErr) : (d.ordoSwitch mem).sound := by
  simp only [Dev.ordoSwitch, h, Dev.set_sound, Dev.switchNow_sound, Dev.sound_mk, soundOf_dev, Dev.sound_ite, ite_self]

theorem Dev.bankResident_sound (mem : List MemErr) : (d.bankResident mem).sound := by
  refine foldl_sound _ (fun d key h => ?_) _ h
  have room : ∀ e, d.makeRoom = some e → e.sound = true := Dev.makeRoom_sound h
  grind only [Dev.swapIn_sound, Dev.heldBells_sound]

theorem Dev.ordoCopyDone_sound (mem : List MemErr) : (d.ordoCopyDone mem).sound := by
  grind only [Dev.ordoCopyDone, = Dev.sound_mk, = soundOf_dev, Dev.set_sound, Dev.bankResident_sound]

theorem Dev.release_sound (v : Variant) (t : Nat) : (d.release v t).sound := by
  unfold Dev.release
  split <;> simp only [h, Dev.modTask_sound, Dev.pushTask_sound, Dev.sound_ite, ite_self]

theorem Dev.phaseStart_sound (t : Nat) : (d.phaseStart t).sound := by
  unfold Dev.phaseStart
  have start := fun e => Dev.openPhase_sound (Dev.frame_sound (Dev.closePhase_sound (Dev.atTime_sound h t)) e)
  split
  · exact h
  · dsimp only
    split
    · exact h
    · exact sound_of_ite h (Dev.phaseDone_sound (Dev.planPreempt_sound
        (foldl_sound _ (fun _ _ h => Dev.release_sound h _ _) _ (start _))))

theorem Dev.budgetOverrun_sound (id t : Nat) : (d.budgetOverrun id t).sound := by
  grind only [Dev.budgetOverrun, Dev.atTime_sound, Dev.charge_sound, Dev.raise_sound, Dev.modRun_sound, Dev.killFinal_sound]

theorem Dev.resultRecord_sound (f : Nat) (bs : List Nat) : (d.resultRecord f bs).sound := by
  simp only [Dev.resultRecord, h, Dev.set_sound, Dev.addSat_sound, Dev.wrHbm_sound, Dev.wrHost_sound, Dev.sound_ite, ite_self]

theorem Dev.writeRecords_sound (v : Variant) (known : List (Nat × Nat)) : (d.writeRecords v known).sound := by
  refine foldl_sound _ (fun d t h => ?_) _ h
  split
  · exact foldl_sound _ (fun _ _ h => Dev.resultRecord_sound h _ _) _ h
  · exact h

theorem Dev.vigilRecords_sound (v : Variant) (known : List (Nat × Nat)) : (d.vigilRecords v known).sound := by
  simp +contextual only [Dev.vigilRecords, h, Dev.emitFree_sound, foldl_sound, implies_true]

theorem Dev.dueNow_sound : (d.dueNow).sound := Dev.mapRuns_sound h _ (fun _ => rfl)

theorem Dev.vigilCopies_sound : (d.vigilCopies).sound := by
  refine foldl_sound _ (fun d q h => ?_) _ h
  split
  · exact h
  · exact sound_of_ite h (sound_of_ite (Dev.complete_sound (Dev.stopHead_sound (Dev.take_sound h) _) _ _ _ _ _) (Dev.take_sound h))

theorem Dev.closeFrame_sound : (d.closeFrame).sound := by
  have hv : ({ d with
      frame := { d.frame with vigilDone := true },
      mem := { d.mem with rowsReady := d.mem.sramRepairDue.filter (fun key => unitKind (keyUnit key) == 3 || unitKind (keyUnit key) == 4)
        } } : Dev).sound = true :=
    h
  have hk := Dev.killWhere_sound (Dev.vigilCopies_sound (Dev.dueNow_sound hv)) (fun r => r.ordo && r.dispatched && !r.inCommit)
    stInvalidated 8
  have hf := fun l => foldl_sound (fun (d : Dev) (q : Nat × Run) => d.dropRun q.1) (fun _ _ h => Dev.dropRun_sound h _) l hk
  exact sound_of_ite (Dev.closePhase_sound (hf _)) (hf _)

theorem Dev.vigil_sound : (d.vigil).sound := by
  have hc := Dev.closeFrame_sound (Dev.atTime_sound h d.vigilTime)
  unfold Dev.vigil
  dsimp only
  refine sound_of_ite h ?_
  split
  · exact Dev.take_sound (Dev.vigilRecords_sound (Dev.writeRecords_sound hc _ _) _ _)
  · exact sound_of_ite (Dev.take_sound (foldl_sound _ (fun _ _ h => Dev.resultRecord_sound h _ _) _ hc)) hc

theorem Dev.activateBank_sound : (d.activateBank).sound := by
  simp only [Dev.activateBank, h, Dev.set_sound, Dev.sound_ite, ite_self]

theorem Dev.selectVariant_sound : (d.selectVariant).sound := by
  grind only [Dev.selectVariant, = Dev.sound_mk, = soundOf_dev, Dev.set_sound, Dev.raise_sound, Dev.openPhase_sound]

theorem Dev.frameStats_sound : (d.frameStats).sound := by
  have hf := fun l => foldl_sound (fun (d : Dev) f => (d.set (F.SCH_PART_SLOW.PEAK f) ((mget [] d.frame.partSlow f).foldl Nat.max 0)).set
    (F.SCH_PART_SLOW.AVG f) (if mget [] d.frame.partSlow f = [] then 0 else sumNat (mget [] d.frame.partSlow f) /
      (mget [] d.frame.partSlow f).length)) (fun _ _ h => Dev.set_sound (Dev.set_sound h _ _) _ _) (List.range 16) (Dev.ctxs_sound h l)
  exact Dev.frame_sound (hf _) _

theorem Dev.lateStats_sound : (d.lateStats).sound := by
  simp +contextual only [Dev.lateStats, h, Dev.countSlow_sound, Dev.sound_mk, soundOf_dev, foldl_sound, implies_true]

theorem Dev.tickBells_sound (mem : List MemErr) : (d.tickBells mem).sound := by
  simp +contextual only [Dev.tickBells, h, Dev.bellAct_sound, foldl_sound, implies_true]

theorem Dev.takeAssignment_sound : (d.takeAssignment).sound :=
  sound_of_ite h (foldl_sound _ (fun _ _ h => Dev.preempt_sound h _) _ (Dev.set_sound (Dev.enforce_sound h _ _) _ _))

theorem Dev.takeRsv_sound : (d.takeRsv).sound := by
  simp only [Dev.takeRsv, h, Dev.set_sound, Dev.enforce_sound, Dev.sound_ite, ite_self]

theorem Dev.takeEmber_sound : (d.takeEmber).sound := h

theorem Dev.takeRelease_sound : (d.takeRelease).sound := by
  simp only [Dev.takeRelease, h, Dev.set_sound, Dev.sound_mk, soundOf_dev]

theorem Dev.newFrame_sound : (d.newFrame).sound := by
  simp only [Dev.newFrame, h, Dev.set_sound, Dev.enforce_sound, Dev.sound_mk, soundOf_dev, Dev.sound_ite, ite_self]

/-! ### Almanac -/

theorem Dev.setTrk_sound (i : Nat) (k : Tracker) : (d.setTrk i k).sound := by
  have hs : ({ d with alm := { d.alm with doms := d.alm.doms.set i k } } : Dev).sound = true :=
    Dev.sound_iff.mpr { Dev.sound_iff.mp h with doms := (List.length_set ..).trans (Dev.sound_iff.mp h).doms }
  exact Dev.set_sound hs _ _

theorem Dev.setDom_sound (i st : Nat) : (d.setDom i st).sound := by
  simp only [Dev.setDom, h, Dev.set_sound]

theorem Dev.setResid_sound (e : Rat) : (d.setResid e).sound := by
  simp only [Dev.setResid, h, Dev.set_sound, Dev.sound_mk, soundOf_dev]

theorem Dev.keepVt_sound (g : Dev → Dev) (hg : ∀ d, d.sound = true → (g d).sound = true) : (d.keepVt g).sound := by
  simp only [Dev.keepVt, h, hg, Dev.setResid_sound, Dev.sound_ite, ite_self]

theorem Dev.reselect_sound (sample : Option Nat) : (d.reselect sample).sound := by
  simp +contextual only [Dev.reselect, h, Dev.set_sound, Dev.keepVt_sound, Dev.sound_ite, ite_self, implies_true]

theorem Dev.watchHold_sound (g : Dev → Dev) (hg : ∀ d, d.sound = true → (g d).sound = true) : (d.watchHold g).sound := by
  simp only [Dev.watchHold, h, hg, Dev.raise_sound, Dev.sound_ite, ite_self]

theorem Dev.lockDom_sound (i : Nat) : (d.lockDom i).sound := by
  grind only [Dev.lockDom, Dev.set_sound, Dev.setTrk_sound, Dev.setDom_sound, Dev.reselect_sound]

theorem Dev.stepDom_sound (i : Nat) (m : Int) : (d.stepDom i m).sound := by
  grind only [Dev.stepDom, Dev.addSat_sound, Dev.setTrk_sound, Dev.setDom_sound, Dev.keepVt_sound]

theorem Dev.rateOnly_sound (i : Nat) (o : Int) : (d.rateOnly i o).sound := by
  simp only [Dev.rateOnly, h, Dev.setTrk_sound, Dev.lockDom_sound, Dev.sound_ite, ite_self]

theorem Dev.servo_sound (i : Nat) (o : Int) : (d.servo i o).sound := by
  simp only [Dev.servo, h, Dev.setTrk_sound]

theorem Dev.vehicleSample_sound (i seconds nanos : Nat) (delay : Int) (msg : PtpMsg) (t : Nat) : (d.vehicleSample i seconds nanos delay
    msg t).sound := by
  grind only [Dev.vehicleSample, Dev.set_sound, Dev.atTime_sound, Dev.setTrk_sound, Dev.reselect_sound, Dev.watchHold_sound,
    Dev.lockDom_sound, Dev.stepDom_sound, Dev.rateOnly_sound, Dev.servo_sound]

theorem Dev.domainLoss_sound (i t : Nat) : (d.domainLoss i t).sound := by
  grind only [Dev.domainLoss, Dev.atTime_sound, Dev.raise_sound, Dev.setDom_sound, Dev.reselect_sound, Dev.watchHold_sound]

theorem Dev.toDom_sound (i st : Nat) : (d.toDom i st).sound := by
  grind only [Dev.toDom, Dev.setTrk_sound, Dev.setDom_sound, Dev.reselect_sound]

theorem Dev.restartDom_sound (i st : Nat) : (d.restartDom i st).sound := by
  simp +contextual only [Dev.restartDom, h, Dev.watchHold_sound, Dev.toDom_sound, implies_true]

theorem Dev.reacq_sound (i : Nat) : (d.reacq i).sound := by
  simp only [Dev.reacq, h, Dev.restartDom_sound, Dev.sound_ite, ite_self]

theorem Dev.almBad_sound : (d.almBad).sound := by
  simp only [Dev.almBad, h, Dev.set_sound]

theorem Dev.domainCfg_sound (i : Nat) (gm : Bool) (value t : Nat) : (d.domainCfg i gm value t).sound := by
  grind only [Dev.domainCfg, Dev.setReg_sound, Dev.set_sound, Dev.atTime_sound, Dev.watchHold_sound, Dev.toDom_sound,
    Dev.restartDom_sound, Dev.almBad_sound]

theorem Dev.slewDone_sound (t : Nat) : (d.slewDone t).sound := by
  simp only [Dev.slewDone, h, Dev.atTime_sound, Dev.setResid_sound, Dev.sound_ite, ite_self]

theorem Dev.steer_sound (t : Nat) : (d.steer t).sound := by
  simp only [Dev.steer, h, Dev.set_sound, Dev.atTime_sound, Dev.sound_mk, soundOf_dev, Dev.sound_ite, ite_self]

theorem Dev.stepTime_sound (v : Nat) : (d.stepTime v).sound := by
  have s := Dev.sound_iff.mp (Dev.mapRuns_sound h (fun q => (q.1, { q.2 with
      dispatchedAt := q.2.dispatchedAt + v - d.now, exFrom := q.2.exFrom.map (fun x => x + v - d.now),
      chargeFrom := q.2.chargeFrom.map (fun x => x + v - d.now),
      members := q.2.members.map (fun m => { m with queues := m.queues.map (fun l => l.map (fun i => { i with
        at_ := i.at_ + v - d.now, since := i.since + v - d.now, started := i.started.map (fun x => x + v - d.now) })) }),
      xfers := q.2.xfers.map (fun x => { x with since := x.since + v - d.now }) })) (fun _ => rfl))
  exact Dev.sound_iff.mpr { s with clus := (List.length_map ..).trans s.clus }

theorem Dev.startTime_sound (v st : Nat) : (d.startTime v st).sound := by
  simp only [Dev.startTime, h, Dev.set_sound, Dev.stepTime_sound, Dev.sound_mk, soundOf_dev]

theorem Dev.sensorStart_sound : (d.sensorStart).sound := by
  simp only [Dev.sensorStart, h, Dev.startTime_sound, Dev.sound_ite, ite_self]

theorem Dev.followerSync_sound (origin : Nat) (rate : Int) (t : Nat) : (d.followerSync origin rate t).sound := by
  grind only [Dev.followerSync, Dev.set_sound, Dev.atTime_sound, Dev.startTime_sound]

theorem Dev.freeStart_sound : (d.freeStart).sound := by
  grind only [Dev.freeStart, Dev.set_sound, Dev.raise_sound, Dev.startTime_sound]

theorem Dev.syncLoss_sound (t : Nat) : (d.syncLoss t).sound := by
  grind only [Dev.syncLoss, Dev.set_sound, Dev.atTime_sound, Dev.raise_sound]

theorem Dev.gptp_sound (mac kind seq : Nat) (l : List Int) : (d.gptp mac kind seq l).sound := by
  simp only [Dev.gptp, h, Dev.send_sound, Dev.intoFlits_sound, Dev.sound_ite, ite_self]

theorem Dev.bumpSeq_sound (mac kind : Nat) : (d.bumpSeq mac kind).sound := h

theorem Dev.gptpSync_sound (mac t : Nat) : (d.gptpSync mac t).sound := by
  grind only [Dev.gptpSync, Dev.atTime_sound, Dev.gptp_sound, Dev.bumpSeq_sound]

theorem Dev.pdelayAnswer_sound (mac seq t : Nat) : (d.pdelayAnswer mac seq t).sound := by
  grind only [Dev.pdelayAnswer, Dev.take_sound, Dev.atTime_sound, Dev.gptp_sound]

theorem Dev.pdelaySend_sound (mac t : Nat) : (d.pdelaySend mac t).sound := by
  grind only [Dev.pdelaySend, Dev.atTime_sound, Dev.gptp_sound, Dev.bumpSeq_sound]

theorem Dev.announce_sound (mac t : Nat) : (d.announce mac t).sound := by
  grind only [Dev.announce, Dev.atTime_sound, Dev.gptp_sound, Dev.bumpSeq_sound]

theorem Dev.almSnapshot_sound (t : Nat) : (d.almSnapshot t).sound := by
  grind only [Dev.almSnapshot, Dev.set_sound, Dev.atTime_sound]

theorem Dev.modPin_sound (p : Nat) (g : Tio → Tio) : (d.modPin p g).sound :=
  Dev.sound_iff.mpr { Dev.sound_iff.mp h with tio := (List.length_set ..).trans (Dev.sound_iff.mp h).tio }

theorem Dev.pinEffect_sound (p at0 : Nat) : (d.pinEffect p at0).sound := by
  grind only [Dev.pinEffect, Dev.set_sound, Dev.enforce_sound, Dev.modPin_sound]

theorem Dev.pinSettle_sound (p : Nat) : (d.pinSettle p).sound := by
  unfold Dev.pinSettle
  split <;> simp only [h, Dev.modPin_sound, Dev.pinEffect_sound, Dev.sound_ite, ite_self]

theorem Dev.pinsSettle_sound : (d.pinsSettle).sound := foldl_sound _ (fun _ _ h => Dev.pinSettle_sound h _) _ h

theorem Dev.tioApply_sound (p t : Nat) : (d.tioApply p t).sound := by
  grind only [Dev.tioApply, Dev.set_sound, Dev.stage_sound, Dev.atTime_sound, Dev.pinEffect_sound, Dev.pinSettle_sound]

theorem Dev.tioPulse_sound (p t : Nat) : (d.tioPulse p t).sound := by
  grind only [Dev.tioPulse, Dev.set_sound, Dev.send_sound, Dev.atTime_sound, Dev.modPin_sound, Dev.pinSettle_sound]

theorem Dev.tioEdge_sound (p : Nat) (rising : Bool) (ns t : Nat) : (d.tioEdge p rising ns t).sound := by
  simp only [Dev.tioEdge, h, Dev.addSat_sound, Dev.atTime_sound, Dev.modPin_sound, Dev.pinSettle_sound, Dev.sound_ite, ite_self]

theorem Dev.capPop_sound (p : Nat) : (d.capPop p).sound := by
  grind only [Dev.capPop, Dev.set_sound, Dev.ret_sound, Dev.modPin_sound]

/-! ### CV instructions -/

theorem Dev.zeroRuns_sound (a : Acc2) : (d.zeroRuns a).sound :=
  foldl_sound _ (fun _ _ h => Dev.sram_sound h (Mem.zero_wf _ _ _ (Dev.sram_wf h))) _ h

theorem Dev.fillWhole_sound (o : Acc2) (val : Nat × Nat × Nat × Nat → Nat) : (d.fillWhole o val).sound := by
  simp +contextual only [Dev.fillWhole, h, Dev.wrEl_sound, Dev.zeroRuns_sound, foldl_sound, implies_true]

theorem Dev.cvIssue_sound (id g t op : Nat) (own : Bool) (chk : Cur → List Nat) (time : Cur → Acc2 → Acc2 → Nat) : (d.cvIssue id g t op
    own chk time).sound := by
  grind only [Dev.cvIssue, Dev.atTime_sound, Dev.endOwn_sound, Dev.enqueue_sound]

theorem Dev.cvFill_sound (g : Nat) (c : Cur) (val : Acc2 → Nat × Nat × Nat × Nat → Nat) : (d.cvFill g c val).d.sound := by
  unfold Dev.cvFill
  split <;> simp only [h, Done.idle_sound, Dev.fillWhole_sound]

theorem Dev.rebolt_sound (id g t : Nat) : (d.rebolt id g t).sound := by
  simp only [Dev.rebolt, h, Dev.cvIssue_sound]

theorem Dev.window'_sound (id g t : Nat) : (d.window' id g t).sound := by
  simp only [Dev.window', h, Dev.cvIssue_sound]

theorem Dev.cvDo_sound (g : Nat) (c : Cur) : (d.cvDo g c).d.sound := by
  unfold Dev.cvDo
  split <;> simp only [h, Dev.cvFill_sound]

/-! ### Element-wise instructions -/

theorem Dev.ewFill_sound (oct : Bool) (ups : List Upset) (out : Acc2) (val : Nat × Nat × Nat × Nat → Nat × Nat) : (d.ewFill oct ups out
    val).1.sound := by
  unfold Dev.ewFill
  refine foldl_induct (fun s : Dev × Nat => s.1.sound = true) _ (fun s b hs => ?_) _ h
  refine foldl_induct (fun s : Dev × Nat => s.1.sound = true) _ (fun s q hs => ?_) _ hs
  exact Dev.wrEl_sound hs _ _ _ _ _ _

theorem Dev.ewIssue_sound (id g t op : Nat) (extra : EwF → TDesc → List Nat) (shape : EwF → List TDesc → TDesc → List Nat) : (d.ewIssue id
    g t op extra shape).sound := by
  grind only [Dev.ewIssue, Dev.atTime_sound, Dev.endOwn_sound, Dev.enqueue_sound]

theorem Dev.ewMap_sound (id g t op : Nat) : (d.ewMap id g t op).sound := by
  simp only [Dev.ewMap, h, Dev.ewIssue_sound]

theorem Dev.ewRequant_sound (id g t : Nat) : (d.ewRequant id g t).sound := by
  simp only [Dev.ewRequant, h, Dev.ewIssue_sound]

theorem Dev.ewReduce_sound (id g t op : Nat) : (d.ewReduce id g t op).sound := by
  simp only [Dev.ewReduce, h, Dev.ewIssue_sound]

theorem Dev.optIssue_sound (id g t op : Nat) : (d.optIssue id g t op).sound := by
  grind only [Dev.optIssue, Dev.atTime_sound, Dev.endOwn_sound, Dev.enqueue_sound]

theorem Dev.sgdMom_sound (id g t : Nat) : (d.sgdMom id g t).sound := by
  simp only [Dev.sgdMom, h, Dev.optIssue_sound]

theorem Dev.adamw_sound (id g t : Nat) : (d.adamw id g t).sound := by
  simp only [Dev.adamw, h, Dev.optIssue_sound]

theorem Dev.optDo_sound (g : Nat) (c : Cur) (ups : List Upset) : (d.optDo g c ups).d.sound := by
  unfold Dev.optDo
  split
  · dsimp only [Done.idle]
    refine foldl_induct (fun s : Dev × Nat => s.1.sound = true) _ (fun s b hs => ?_) _ h
    refine foldl_induct (fun s : Dev × Nat => s.1.sound = true) _ (fun s q hs => ?_) _ hs
    refine foldl_sound _ (fun d p h => ?_) _ hs
    split
    · exact Dev.wrEl_sound h _ _ _ _ _ _
    · exact h
  · exact h

theorem Dev.ewDo_sound (g : Nat) (c : Cur) (ups : List Upset) : (d.ewDo g c ups).d.sound := by
  grind only [Dev.ewDo, Done.idle_sound, Dev.ewFill_sound, Dev.optDo_sound]

/-! ### Short instructions -/

theorem Dev.sySignal_sound (id g t : Nat) : (d.sySignal id g t).sound := by
  grind only [Dev.sySignal, Dev.atTime_sound, Dev.modRun_sound, Dev.modMember_sound, Dev.advance_sound, Dev.endOwn_sound]

theorem Dev.syExpire_sound (id : Nat) (w : WaitSt) : (d.syExpire id w).sound := by
  grind only [Dev.syExpire, Dev.diagnose_sound, Dev.endOwn_sound]

theorem Dev.syWait_sound (id g t : Nat) : (d.syWait id g t).sound := by
  grind only [Dev.syWait, Dev.atTime_sound, Dev.modMember_sound, Dev.advance_sound, Dev.endOwn_sound, Dev.syExpire_sound]

theorem Dev.syRelease_sound (id g t : Nat) : (d.syRelease id g t).sound := by
  grind only [Dev.syRelease, Dev.atTime_sound, Dev.modMember_sound, Dev.advance_sound]

theorem Dev.syExpired_sound (id g t : Nat) : (d.syExpired id g t).sound := by
  unfold Dev.syExpired
  split <;> simp only [h, Dev.atTime_sound, Dev.syExpire_sound, Dev.sound_ite, ite_self]

theorem Dev.barrier_sound (id g t : Nat) : (d.barrier id g t).sound := by
  grind only [Dev.barrier, Dev.atTime_sound, Dev.modRun_sound, Dev.modMember_sound, Dev.endOwn_sound]

theorem Dev.barrierRelease_sound (id : Nat) : (d.barrierRelease id).sound := by
  grind only [Dev.barrierRelease, Dev.modRun_sound]

theorem Dev.ctEnd_sound (id g t : Nat) : (d.ctEnd id g t).sound := by
  grind only [Dev.ctEnd, Dev.atTime_sound, Dev.modMember_sound, Dev.endOwn_sound, Dev.runEnded_sound]

theorem Dev.loopBegin_sound (id g t : Nat) : (d.loopBegin id g t).sound := by
  unfold Dev.loopBegin
  split <;> simp only [h, Dev.atTime_sound, Dev.modMember_sound]

theorem Dev.loopEnd_sound (id g t : Nat) : (d.loopEnd id g t).sound := by
  unfold Dev.loopEnd
  split <;> simp only [h, Dev.atTime_sound, Dev.modMember_sound]

theorem Dev.setCount_sound (id g : Nat) (i : Ins) (v : Nat) : (d.setCount id g i v).sound := by
  simp only [Dev.setCount, h, Dev.modMember_sound, Dev.advance_sound]

theorem Dev.ctSetcount_sound (id g t : Nat) : (d.ctSetcount id g t).sound := by
  unfold Dev.ctSetcount
  split <;> simp only [h, Dev.atTime_sound, Dev.setCount_sound]

theorem Dev.ctNop_sound (id g t : Nat) : (d.ctNop id g t).sound := by
  unfold Dev.ctNop
  split <;> simp only [h, Dev.atTime_sound, Dev.advance_sound]

theorem Dev.rdflags_sound (id g t : Nat) : (d.rdflags id g t).sound := by
  unfold Dev.rdflags
  split <;> simp only [h, Dev.atTime_sound, Dev.setCount_sound, Dev.sound_ite, ite_self]

theorem Dev.ldarg_sound (id g t : Nat) : (d.ldarg id g t).sound := by
  unfold Dev.ldarg
  split <;> simp only [h, Dev.atTime_sound, Dev.setCount_sound]

/-! ### GT instructions -/

theorem Acc2.put_sound (a : Acc2) (q : Nat × Nat × Nat × Nat) (v : Nat) : (Acc2.put d a q v).sound := by
  simp only [Acc2.put, h, Dev.wrEl_sound]

theorem Dev.gtSlice_sound (op mode ax : Nat) (o : GtOp) (j : Nat) : (d.gtSlice op mode ax o j).1.sound := by
  unfold Dev.gtSlice
  dsimp only
  split
  · exact sound_of_ite (foldl_sound _ (fun _ _ h => Acc2.put_sound h _ _ _) _ h) h
  · refine foldl_induct (fun s : Dev × Nat => s.1.sound = true) _ (fun s q hs => ?_) _ h
    split
    · exact Acc2.put_sound hs _ _ _
    · split <;> exact Acc2.put_sound hs _ _ _

theorem Dev.gt_sound (id g t op : Nat) : (d.gt id g t op).sound := by
  grind only [Dev.gt, Dev.atTime_sound, Dev.endOwn_sound, Dev.enqueue_sound]

theorem Dev.gtDo_sound (g : Nat) (c : Cur) : (d.gtDo g c).d.sound := by
  unfold Dev.gtDo
  split
  · exact h
  · dsimp only [Done.idle]
    refine foldl_induct (fun s : Dev × Nat × Bool => s.1.sound = true) _ (fun s j hs => ?_) _ h
    exact Dev.gtSlice_sound hs _ _ _ _ _

/-! ### KV descriptors -/

theorem Dev.kvWrite_sound (bs : List Nat) (i ref : Nat) : (d.kvWrite bs i ref).sound := by
  simp only [Dev.kvWrite, h, Dev.wrHbm_sound, Dev.wrHost_sound, Dev.sound_ite, ite_self]

theorem Dev.kvDone_sound (key : Nat) (bs : List Nat) (i ref : Nat) : (d.kvDone key bs i ref).sound := by
  simp only [Dev.kvDone, h, Dev.complete_sound, Dev.kvWrite_sound]

theorem Dev.kvRefuse_sound (key st : Nat) : (d.kvRefuse key st).sound := by
  simp only [Dev.kvRefuse, h, Dev.addSat_sound, Dev.complete_sound, Dev.sound_ite, ite_self]

theorem Dev.poolGrant_sound (key : Nat) : (d.poolGrant key).sound := by
  unfold Dev.poolGrant
  split <;> simp only [h, Dev.setFree_sound, Dev.complete_sound, Dev.sound_mk, soundOf_dev, Dev.sound_ite, ite_self]

theorem Dev.poolReclaim_sound (key : Nat) : (d.poolReclaim key).sound := by
  unfold Dev.poolReclaim
  split <;> simp only [h, Dev.setFree_sound, Dev.complete_sound, Dev.sound_mk, soundOf_dev, Dev.sound_ite, ite_self]

theorem Dev.cacheCreate_sound (key : Nat) : (d.cacheCreate key).sound := by
  unfold Dev.cacheCreate
  split <;> simp only [h, Dev.complete_sound, Dev.sound_mk, soundOf_dev, Dev.sound_ite, ite_self]

theorem Dev.cacheDestroy_sound (key : Nat) : (d.cacheDestroy key).sound := by
  unfold Dev.cacheDestroy
  split <;> simp only [h, Dev.complete_sound, Dev.sound_mk, soundOf_dev, Dev.sound_ite, ite_self]

theorem Dev.pageAlloc_sound (key : Nat) : (d.pageAlloc key).sound := by
  grind only [Dev.pageAlloc, Dev.allocPage_sound, Dev.complete_sound, Dev.kvDone_sound]

theorem Dev.pageShare_sound (key : Nat) : (d.pageShare key).sound := by
  grind only [Dev.pageShare, Dev.setBent_sound, Dev.kvDone_sound, Dev.kvRefuse_sound]

theorem Dev.pageFree_sound (key : Nat) : (d.pageFree key).sound := by
  grind only [Dev.pageFree, Dev.setBent_sound, Dev.settleEntry_sound, Dev.kvDone_sound, Dev.kvRefuse_sound]

theorem Dev.pageCow_sound (key : Nat) : (d.pageCow key).sound := by
  grind only [Dev.pageCow, Dev.setBent_sound, Dev.allocPage_sound, Dev.setHead_sound, Dev.kvDone_sound, Dev.kvRefuse_sound]

theorem Dev.cowEnd_sound (key i j : Nat) (bs : List Nat) : (d.cowEnd key i j bs).sound := by
  unfold Dev.cowEnd
  dsimp only
  split
  · exact Dev.hubUe_sound (Dev.unpin_sound (Dev.take_sound (Dev.forgetHbm_sound h _ _ _)) _) _ _ _
  · exact Dev.kvDone_sound (Dev.addSat_sound (Dev.unpin_sound (Dev.wrHbm_sound h _ _) _) _ _) _ _ _ _

theorem Dev.cowCopyDone_sound (key : Nat) (mem : List MemErr) : (d.cowCopyDone key mem).sound := by
  grind only [Dev.cowCopyDone, Dev.met_sound, Dev.cowEnd_sound]

theorem Dev.entryRead_sound : (d.entryRead).sound := h

/-! ### MATMUL -/

theorem Dev.mmRun_sound (g : Nat) (oct : Bool) (f : MmF) (o : MmOp) (p : List Nat) (ups : List Upset) : (d.mmRun g oct f o p ups).1.sound
    := by
  unfold Dev.mmRun
  refine foldl_induct (fun s : Dev × Nat × List Nat => s.1.sound = true) _ (fun s i3 hs => ?_) _ h
  refine foldl_induct (fun s : Dev × Nat × List Nat => s.1.sound = true) _ (fun s i2 hs => ?_) _ hs
  refine foldl_induct (fun s : Dev × Nat × List Nat => s.1.sound = true) _ (fun s tile hs => ?_) _ hs
  dsimp only
  refine foldl_induct (fun w : Dev × Nat => w.1.sound = true) _ (fun w c hw => ?_) _ hs
  exact Dev.wrEl_sound hw _ _ _ _ _ _

theorem Dev.scruple_sound (id phys addr : Nat) (chk : List Nat) : (d.scruple id phys addr chk).sound :=
  foldl_sound _ (fun _ _ h => sound_of_ite (Dev.raise_sound (Dev.modRun_sound (Dev.addSat_sound h _ _) _ _) _ _ _ _)
    (sound_of_ite (Dev.addSat_sound h _ _) h)) _ h

theorem Dev.matmul_sound (id g t : Nat) : (d.matmul id g t).sound := by
  grind only [Dev.matmul, Dev.atTime_sound, Dev.endOwn_sound, Dev.enqueue_sound]

theorem Dev.mmDo_sound (g : Nat) (c : Cur) (ups : List Upset) : (d.mmDo g c ups).d.sound := by
  grind only [Dev.mmDo, Done.idle_sound, Dev.mmRun_sound]

/-! ### Modules -/

theorem Dev.translate_sound (key f : Nat) (b : List Nat) : (d.translate key f b).sound := by
  have hm := Dev.forgetHbm_sound h (moduleOf f b).nativeAddr ((moduleOf f b).nativeAddr + (moduleOf f b).nativeSize) d.fresh
  exact Dev.complete_sound (Dev.setPoison_sound (Dev.take_sound (Dev.mods_sound hm (mset d.mods (freeId d.mods 65535 1) (moduleOf f b))))
    _) _ _ _ _ _

theorem Dev.loadAt_sound (key src len : Nat) : (d.loadAt key src len).sound := by
  grind only [Dev.loadAt, Dev.complete_sound, Dev.hubUe_sound, Dev.translate_sound]

theorem Dev.moduleLoad_sound (key : Nat) (mem : List MemErr) : (d.moduleLoad key mem).sound := by
  grind only [Dev.moduleLoad, Dev.met_sound, Dev.loadAt_sound]

theorem Dev.moduleUnload_sound (key : Nat) : (d.moduleUnload key).sound := by
  unfold Dev.moduleUnload
  split <;> simp only [h, Dev.setHead_sound, Dev.complete_sound, Dev.sound_mk, soundOf_dev, Dev.sound_ite, ite_self]

theorem Dev.unloadComplete_sound (key : Nat) : (d.unloadComplete key).sound := by
  grind only [Dev.unloadComplete, = Dev.sound_mk, = soundOf_dev, Dev.complete_sound]

theorem Dev.tdtStore_sound (key first n src : Nat) : (d.tdtStore key first n src).sound := by
  grind only [Dev.tdtStore, = Dev.sound_mk, = soundOf_dev, Dev.complete_sound, Dev.hubUe_sound]

theorem Dev.tdtWrite_sound (key : Nat) (mem : List MemErr) : (d.tdtWrite key mem).sound := by
  grind only [Dev.tdtWrite, Dev.complete_sound, Dev.met_sound, Dev.tdtStore_sound]

theorem Dev.stageImage_sound (src len : Nat) : (d.stageImage src len).sound := by
  grind only [Dev.stageImage, = Dev.sound_mk, = soundOf_dev, Dev.set_sound, Dev.take_sound, Dev.updState_sound, Dev.updFail_sound,
    Dev.hbmUeAt_sound]

theorem Dev.verify_sound (mem : List MemErr) : (d.verify mem).sound := by
  grind only [Dev.verify, Dev.updCmd_sound, Dev.met_sound, Dev.stageImage_sound]

/-! ### MV instructions -/

theorem Dev.wrRuns_sound (a : Acc2) (l : List (List Nat)) : (d.wrRuns a l).sound :=
  foldl_sound _ (fun _ _ h => Dev.wrSramAt_sound h _ _) _ h

theorem Dev.mvMove_sound (id g t : Nat) : (d.mvMove id g t).sound := by
  grind only [Dev.mvMove, Dev.atTime_sound, Dev.endOwn_sound, Dev.enqueue_sound]

theorem Dev.mvDo_sound (g : Nat) (c : Cur) : (d.mvDo g c).d.sound := by
  unfold Dev.mvDo
  split <;> simp only [h, Done.idle_sound, Dev.wrRuns_sound]

theorem Dev.mvPublish_sound (id g t : Nat) : (d.mvPublish id g t).sound := by
  grind only [Dev.mvPublish, Dev.atTime_sound, Dev.modRun_sound, Dev.advance_sound, Dev.endOwn_sound]

/-! ### The replay decoder -/

theorem Dev.rplStart_sound (t : Nat) : (d.rplStart t).sound := by
  grind only [Dev.rplStart, = Dev.sound_mk, = soundOf_dev, Dev.set_sound, Dev.atTime_sound]

theorem Dev.rplStop_sound : (d.rplStop).sound := by
  simp only [Dev.rplStop, h, Dev.set_sound, Dev.sound_mk, soundOf_dev]

theorem Dev.laneBegin_sound (lane t : Nat) : (d.laneBegin lane t).sound := by
  simp only [Dev.laneBegin, h, Dev.set_sound, Dev.atTime_sound, Dev.sound_mk, soundOf_dev, Dev.sound_ite, ite_self]

theorem Dev.laneStart_sound (lane t : Nat) (mem : List MemErr) : (d.laneStart lane t mem).sound := by
  grind only [Dev.laneStart, Dev.met_sound, Dev.laneBegin_sound]

theorem Dev.wrSample_sound (ln : Lane) (s : Sample) : (d.wrSample ln s).sound := by
  grind only [Dev.wrSample, Dev.take_sound, Dev.wrHbm_sound]

theorem Dev.flagReady_sound (n : Nat) : (d.flagReady n).sound := by
  induction n generalizing d with
  | zero => exact h
  | succ n ih =>
    unfold Dev.flagReady
    grind only [= Dev.sound_mk, = soundOf_dev, Dev.flagAdd_sound, Dev.set_sound, Dev.addSat_sound]

theorem Dev.finishLane_sound (lane : Nat) (ln : Lane) (s : Sample) : (d.finishLane lane ln s).sound := by
  simp only [Dev.finishLane, h, Dev.wrSample_sound, Dev.flagReady_sound, Dev.sound_mk, soundOf_dev]

theorem Dev.emission_sound (lane t : Nat) : (d.emission lane t).sound := by
  grind only [Dev.emission, Dev.atTime_sound, Dev.hbmUeAt_sound, Dev.finishLane_sound]

theorem Dev.late_sound (lane t : Nat) : (d.late lane t).sound := by
  unfold Dev.late
  split <;> simp only [h, Dev.atTime_sound, Dev.finishLane_sound, Dev.sound_ite, ite_self]

/-! ### League -/

theorem Dev.spanOpen_sound (key : Nat) : (d.spanOpen key).sound := by
  unfold Dev.spanOpen
  split <;> simp only [h, Dev.setWindow_sound, Dev.complete_sound, Dev.sound_ite, ite_self]

theorem Dev.spanClose_sound (key : Nat) : (d.spanClose key).sound := by
  unfold Dev.spanClose
  split <;> simp only [h, Dev.setWindow_sound, Dev.complete_sound, Dev.sound_ite, ite_self]

theorem Dev.spanAdvance_sound (key : Nat) : (d.spanAdvance key).sound := by
  unfold Dev.spanAdvance
  split <;> simp only [h, Dev.setWindow_sound, Dev.complete_sound, Dev.sound_ite, ite_self]

theorem Dev.spanMap_sound (key : Nat) : (d.spanMap key).sound := by
  unfold Dev.spanMap
  split <;> simp only [h, Dev.setMap_sound, Dev.complete_sound, Dev.sound_ite, ite_self]

theorem Dev.spanPull_sound (key : Nat) : (d.spanPull key).sound := by
  unfold Dev.spanPull
  split <;> simp only [h, Dev.setHead_sound, Dev.complete_sound, Dev.sendLg_sound, Dev.sound_ite, ite_self]

theorem Dev.pullDone_sound (key status : Nat) (bytes : List Nat) : (d.pullDone key status bytes).sound := by
  unfold Dev.pullDone
  split <;> simp only [h, Dev.wrHbm_sound, Dev.complete_sound, Dev.sound_ite, ite_self]

theorem Dev.noteSeq_sound (sender seq : Nat) : (d.noteSeq sender seq).sound := h

theorem Dev.askAgain_sound (sender seq : Nat) : (d.askAgain sender seq).sound := by
  simp only [Dev.askAgain, h, Dev.addSat_sound, Dev.sendLg_sound, Dev.sound_mk, soundOf_dev]

theorem Dev.denyPiece_sound (sender : Nat) : (d.denyPiece sender).sound := by
  simp only [Dev.denyPiece, h, Dev.addSat_sound, Dev.sendLg_sound]

theorem Dev.dropEpoch_sound (p sender win : Nat) : (d.dropEpoch p sender win).sound := by
  grind only [Dev.dropEpoch, Dev.addSat_sound, Dev.raise_sound, Dev.sendLg_sound]

theorem Dev.pieceArrival_sound (p sender seq win epoch off crc : Nat) (again : Bool) (bytes : List Nat) (t : Nat) : (d.pieceArrival p
    sender seq win epoch off crc again bytes t).sound := by
  grind only [Dev.pieceArrival, Dev.atTime_sound, Dev.wrHbm_sound, Dev.raise_sound, Dev.sendLg_sound, Dev.noteSeq_sound,
    Dev.askAgain_sound, Dev.denyPiece_sound, Dev.dropEpoch_sound]

theorem Dev.arrivalMark_sound (p sender seq win epoch t : Nat) : (d.arrivalMark p sender seq win epoch t).sound := by
  grind only [Dev.arrivalMark, Dev.atTime_sound, Dev.flagAdd_sound, Dev.sendLg_sound, Dev.noteSeq_sound, Dev.denyPiece_sound,
    Dev.dropEpoch_sound]

theorem Dev.pullAnswer_sound (sender a len : Nat) : (d.pullAnswer sender a len).sound := by
  unfold Dev.pullAnswer
  split <;> simp only [h, Dev.hbmUeAt_sound, Dev.sendLg_sound]

theorem Dev.pullRequest_sound (p sender win epoch off len t : Nat) (mem : List MemErr) : (d.pullRequest p sender win epoch off len t
    mem).sound := by
  simp +contextual only [Dev.pullRequest, h, Dev.atTime_sound, Dev.met_sound, Dev.sendLg_sound, Dev.pullAnswer_sound, Dev.sound_ite,
    ite_self, implies_true]

theorem Dev.resend_sound (id i : Nat) (x : Remote) : (d.resend id i x).sound := by
  simp only [Dev.resend, h, Dev.modRun_sound, Dev.sendLg_sound, Dev.sound_ite, ite_self]

theorem Dev.reroute_sound (old : Nat → Option Nat) : (d.reroute old).sound := by
  refine foldl_sound _ (fun d q h => ?_) _ (foldl_sound _ (fun d q h => ?_) _ h)
  · split
    · exact h
    · exact sound_of_ite h (sound_of_ite h (sound_of_ite (Dev.complete_sound (Dev.pullMix_sound h _) _ _ _ _ _) (Dev.sendLg_sound h _ _)))
  · refine sound_of_ite h (foldl_sound _ (fun d i h => ?_) _ h)
    split
    · exact sound_of_ite h (Dev.resend_sound h _ _ _)
    · exact h

theorem Dev.forward_sound (f : Flit) : (d.forward f).sound := by
  unfold Dev.forward
  split <;> simp only [h, Dev.send_sound, Dev.intoFlits_sound]

theorem Dev.portOff_sound (p : Nat) : (d.portOff p).sound :=
  foldl_sound _ (fun _ _ h => Dev.forward_sound h _) _ (Dev.reroute_sound (Dev.set_sound (Dev.lnk_sound h _) _ _) _)

theorem Dev.portFault_sound (p : Nat) : (d.portFault p).sound := by
  grind only [Dev.portFault, Dev.addSat_sound, Dev.raise_sound, Dev.portOff_sound]

theorem Dev.train_sound (p : Nat) : (d.train p).sound := by
  simp only [Dev.train, h, Dev.setReg_sound, Dev.send_sound, Dev.sound_mk, soundOf_dev, Dev.sound_ite, ite_self]

theorem Dev.lnkCtrl_sound (value : Nat) : (d.lnkCtrl value).sound := by
  unfold Dev.lnkCtrl
  refine sound_of_ite h (foldl_sound _ (fun _ _ h => sound_of_ite (Dev.train_sound h _) (sound_of_ite (Dev.portOff_sound h _) h)) _ ?_)
  exact Dev.set_sound (Dev.set_sound (sound_of_ite (Dev.set_sound h _ _) h) _ _) _ _

theorem Dev.portTrained_sound (p peer t : Nat) : (d.portTrained p peer t).sound := by
  grind only [Dev.portTrained, Dev.set_sound, Dev.atTime_sound, Dev.raise_sound]

theorem Dev.laneFail_sound (p lane t : Nat) : (d.laneFail p lane t).sound := by
  grind only [Dev.laneFail, Dev.set_sound, Dev.atTime_sound, Dev.raise_sound, Dev.portFault_sound]

theorem Dev.acked_sound (p : Nat) (f : Flit) : (d.acked p f).sound := by
  unfold Dev.acked
  split <;> simp +contextual only [h, Dev.addSat_sound, Dev.send_sound, Dev.sound_mk, soundOf_dev, foldl_sound, implies_true]

theorem Dev.flit_sound (p : Nat) (f : Flit) (crcOk : Bool) : (d.flit p f crcOk).sound := by
  simp only [Dev.flit, h, Dev.send_sound, Dev.forward_sound, Dev.portFault_sound, Dev.acked_sound, Dev.sound_mk, soundOf_dev,
    Dev.sound_ite, ite_self]

theorem Dev.mirrorReceive_sound (addr : Nat) (bytes : List Nat) : (d.mirrorReceive addr bytes).sound := by
  simp only [Dev.mirrorReceive, h, Dev.wrHbm_sound, Dev.sendLg_sound, Dev.sound_ite, ite_self]

theorem Dev.mirrorAck_sound (member : Nat) : (d.mirrorAck member).sound := by
  simp only [Dev.mirrorAck, h, Dev.sound_mk, soundOf_dev, Dev.sound_ite, ite_self]

/-! ### Resets and low power -/

theorem Dev.keepRegs_sound (p : Nat → Bool) : (d.keepRegs p).sound :=
  Dev.sound_iff.mpr { Dev.sound_iff.mp h with cur := keysRise_filter _ _ (Dev.sound_iff.mp h).cur }

theorem Dev.resetFn_sound (fn : Nat) : (d.resetFn fn).sound :=
  Dev.sound_iff.mpr { Dev.sound_iff.mp h with cur := keysRise_filter _ _ (Dev.sound_iff.mp h).cur }

theorem Dev.loseSram_sound : (d.loseSram).sound :=
  Dev.take_sound (Dev.mem_sound (Dev.forgetSram_sound h 0 (0x9000 * 0x1000000) d.fresh) rfl rfl rfl)

theorem Dev.dropSlices_sound : (d.dropSlices).sound := Dev.clus_sound h (List.length_map ..)

theorem Dev.rotAfresh_sound : (d.rotAfresh).sound := Dev.clus_sound h (List.length_map ..)

theorem Dev.rollBack_sound (l : List (Nat × List Nat × Bool)) : (d.rollBack l).sound := by
  refine foldl_sound _ (fun e x h => sound_of_ite (Dev.take_sound h) (Dev.setPoison_sound ?_ _)) _ h
  exact Dev.hbm_sound (Dev.take_sound h) (Mem.writeBytes_wf _ _ _ (Dev.hbm_wf h))

theorem Dev.cutShort_sound : (d.cutShort).sound := by
  refine foldl_sound _ (fun d q h => Dev.rollBack_sound h _) _ (foldl_sound _ (fun d q h => ?_) _ h)
  split
  · exact h
  · split
    · exact Dev.copyMix_sound h _
    · exact Dev.pullMix_sound h _
    · exact Dev.mixHbm_sound h _ _
    · exact h

theorem Dev.clearPart_sound (setup : Bool) : (d.clearPart setup).sound := by
  have hk := Dev.keepRegs_sound (Dev.cutShort_sound h) (fun o => islandReg o || (setup && setupReg o))
  have hp := foldl_sound (fun (d : Dev) f => d.set (F.PWR_PART_CFG.RING_OPP f)
    (getFld (F.PWR_PART_CFG.RING_OPP f) (d.rst0 (R.PWR_PART_CFG f)))) (fun _ _ h => Dev.set_sound h _ _) (List.range 16) hk
  unfold Dev.clearPart
  extract_lets d1 z causes d2 d3
  have s : Sound d3 := Dev.sound_iff.mp hp
  clear_value d3 causes
  have final : ∀ e : Dev, Sound e → (if causes.1 || causes.2 then e.forceLow else e).sound = true := fun e he =>
    sound_of_ite (Dev.forceLow_sound (Dev.sound_iff.mpr he)) (Dev.sound_iff.mpr he)
  refine final _ (Dev.sound_iff.mp (Dev.set_sound (Dev.set_sound (Dev.set_sound (Dev.countPoison_sound (Dev.applyRows_sound
    (Dev.dropSlices_sound (Dev.loseSram_sound (Dev.sound_iff.mpr ?_))) _)) _ _) _ _) _ _))
  exact { s with runs := rfl, below := fun _ hq => absurd hq List.not_mem_nil, opp := rfl, changing := rfl, waiting := rfl }

theorem Dev.porst_sound (ns : Nat) : (d.porst ns).sound := by
  simp only [Dev.porst, h, Dev.take_sound, Dev.sound_mk, soundOf_dev, Dev.sound_ite, ite_self]

theorem Dev.coldClear_sound (bootsel mgmtAddr : Nat) (refclk : Bool) (devs : List Nat) : (d.coldClear bootsel mgmtAddr refclk devs).sound
    := by
  have s := Dev.sound_iff.mp h
  have hc : (d.leap.journal.map Clu.restored).length = 24 := (List.length_map ..).trans s.journal
  refine Dev.applyRows_sound (Dev.loseSram_sound (Dev.sound_iff.mpr ?_)) _
  exact { Dev.sound_iff.mp Dev.reset_sound with
    hbm := Mem.empty_wf, sram := s.sram, host := s.host, cur := keysRise_filter _ _ s.cur, clus := hc, journal := hc,
    below := fun _ hq => absurd hq List.not_mem_nil }

theorem Dev.enterOverLink_sound (src : Nat) : (d.enterOverLink src).sound := by
  simp only [Dev.enterOverLink, h, Dev.set_sound, Dev.sound_mk, soundOf_dev]

theorem Dev.bootFlash_sound : (d.bootFlash).sound := by
  simp only [Dev.bootFlash, h, Dev.runImage_sound, Dev.startFirmware_sound, Dev.enterOverLink_sound, Dev.sound_ite, ite_self]

theorem Dev.maskRomBoot_sound (bootsel mgmtAddr : Nat) (refclk : Bool) (devs : List Nat) : (d.maskRomBoot bootsel mgmtAddr refclk
    devs).sound := by
  simp only [Dev.maskRomBoot, h, Dev.coldClear_sound, Dev.enterOverLink_sound, Dev.bootFlash_sound, Dev.sound_ite, ite_self]

theorem Dev.refclkDetect_sound : (d.refclkDetect).sound := h

theorem Dev.warmBegin_sound (cause : Nat) (keep : Bool) : (d.warmBegin cause keep).sound := by
  grind only [Dev.warmBegin, = Dev.sound_mk, = soundOf_dev, Dev.set_sound, Dev.addSat_sound, Dev.clearPart_sound]

theorem Dev.warmStart_sound (cause : Nat) (keep : Bool) : (d.warmStart cause keep).sound := by
  simp only [Dev.warmStart, h, Dev.warmBegin_sound, Dev.sound_ite, ite_self]

theorem Dev.partZero_sound : (d.partZero).sound := by
  unfold Dev.partZero
  refine sound_of_ite h (Dev.setPoison_sound ?_ _)
  exact Dev.hbm_sound h (Mem.filter_wf _ _ (Dev.hbm_wf h))

theorem Dev.warmWrite_sound : (d.warmWrite).sound := by
  simp only [Dev.warmWrite, h, Dev.warmStart_sound, Dev.sound_ite, ite_self]

theorem Dev.chipStart_sound (t : Nat) : (d.chipStart t).sound := by
  unfold Dev.chipStart
  split <;> simp only [h, Dev.atTime_sound, Dev.warmStart_sound, Dev.sound_ite, ite_self]

theorem Dev.warmRestart_sound : (d.warmRestart).sound := by
  unfold Dev.warmRestart
  have hs := Dev.set_sound (Dev.rotAfresh_sound (Dev.rst_sound h { d.rst with warm := false })) F.SAF_WARM.WARM_KEEP 0
  exact sound_of_ite h (sound_of_ite (foldl_sound _ (fun _ _ h => sound_of_ite (Dev.train_sound h _) h) _ hs) (Dev.enterOverLink_sound hs
    _))

theorem Dev.hbmAvailable_sound (mem : List MemErr) : (d.hbmAvailable mem).sound := by
  unfold Dev.hbmAvailable
  have hz : (if d.rst.keepHbm then d else Dev.setPoison { d with mem := { d.mem with hbm := ⟨[], []⟩ } } []).sound = true :=
    sound_of_ite h (Dev.setPoison_sound (Dev.hbm_sound h Mem.empty_wf) _)
  exact sound_of_ite h (sound_of_ite (Dev.switchNow_sound (Dev.set_sound (Dev.frame_sound (Dev.rst_sound hz _) _) _ _) _)
    (Dev.rst_sound hz _))

theorem Dev.cutReplay_sound (key n : Nat) : (d.cutReplay key n).sound := by
  simp only [Dev.cutReplay, h, Dev.take_sound, Dev.sound_mk, soundOf_dev, Dev.sound_ite, ite_self]

theorem Dev.endRings_sound (p : Nat → Bool) (link : Bool) : (d.endRings p link).sound := by
  unfold Dev.endRings
  refine foldl_sound _ (fun d key h => ?_) _ (foldl_sound _ (fun d q h => ?_) _ (foldl_sound _ (fun d key h => ?_) _
    (foldl_sound _ (fun d key h => ?_) _ h)))
  · have hc := Dev.cutReplay_sound h key 0
    exact sound_of_ite hc (Dev.dropCtx_sound hc _)
  · exact sound_of_ite (Dev.dropRun_sound h _) (Dev.modCtx_sound (Dev.modRun_sound h _ _) _ _)
  · split
    · exact h
    · split
      · exact Dev.cowCopyDone_sound h _ _
      · exact Dev.endHead_sound (Dev.mods_sound h _) _ _ _ _ _
      · exact Dev.copyMix_sound h _
      · exact Dev.pullMix_sound h _
      · exact h
  · exact Dev.modCtx_sound (Dev.cutReplay_sound h _ _) _ _

theorem Dev.takeOver_sound : (d.takeOver).sound := by
  refine Dev.mapRuns_sound (Dev.coll_sound (Dev.abandonEntry_sound h) _) _ (fun q => ?_)
  split <;> rfl

theorem Dev.linkReset_sound : (d.linkReset).sound :=
  sound_of_ite h (foldl_sound _ (fun _ _ h => Dev.resetFn_sound h _) _ (Dev.rst_sound (Dev.resetCfg_sound (Dev.emptyMems_sound
    (Dev.endRings_sound (Dev.takeOver_sound h) _ _) _)) _))

theorem Dev.functionReset_sound (f : Nat) : (d.functionReset f).sound := by
  grind only [Dev.functionReset, = Dev.sound_mk, = soundOf_dev, Dev.closeWhere_sound, Dev.modCfg_sound, Dev.kvEnd_sound,
    Dev.killWhere_sound, Dev.emptyMems_sound, Dev.rplStop_sound, Dev.resetFn_sound, Dev.endRings_sound, Dev.takeOver_sound]

theorem Dev.lpRequest_sound (n : Nat) : (d.lpRequest n).sound := by
  simp only [Dev.lpRequest, h, Dev.set_sound, Dev.sound_mk, soundOf_dev, Dev.sound_ite, ite_self]

theorem Dev.allHoldover_sound : (d.allHoldover).sound :=
  Dev.watchHold_sound h _ (fun _ h => foldl_sound _ (fun _ _ h => sound_of_ite (Dev.setDom_sound h _ _) h) _ h)

theorem Dev.lpEntered_sound : (d.lpEntered).sound := by
  grind only [Dev.lpEntered, = Dev.sound_mk, = soundOf_dev, Dev.set_sound, Dev.take_sound, Dev.loseSram_sound, Dev.dropSlices_sound,
    Dev.clearPart_sound, Dev.allHoldover_sound]

theorem Dev.testAll_sound : (d.testAll).sound := by
  simp +contextual only [Dev.testAll, h, Dev.modUnit_sound, foldl_sound, implies_true]

theorem Dev.wake_sound (who : Who) (mem : List MemErr) : (d.wake who mem).sound := by
  unfold Dev.wake
  refine sound_of_ite h ?_
  split
  · exact h
  · refine sound_of_ite (Dev.set_sound h _ _) (foldl_sound _ (fun _ _ h => Dev.bellAct_sound h _ _ _) _ ?_)
    exact Dev.rotAfresh_sound (Dev.testAll_sound (Dev.set_sound (Dev.set_sound (Dev.rst_sound h _) _ _) _ _))
  · exact Dev.warmStart_sound h _ _

theorem Dev.keepWake_sound (t : Nat) : (d.keepWake t).sound := by
  simp only [Dev.keepWake, h, Dev.atTime_sound, Dev.warmStart_sound, Dev.sound_ite, ite_self]

theorem Dev.thermalOff_sound (t : Nat) : (d.thermalOff t).sound := by
  grind only [Dev.thermalOff, = Dev.sound_mk, = soundOf_dev, Dev.set_sound, Dev.take_sound, Dev.atTime_sound, Dev.raise_sound,
    Dev.killHeads_sound, Dev.killWhere_sound]

theorem Dev.loseDie_sound (die t : Nat) : (d.loseDie die t).sound := by
  unfold Dev.loseDie
  split
  · exact h
  · extract_lets d' units killed lent switched leap gone oldMem forgotten
    have hk : killed.sound = true := Dev.killOn_sound (foldl_sound _ (fun _ _ h => Dev.killClu_sound h _) _ (Dev.atTime_sound h t)) _ _
    have hl : lent.sound = true :=
      foldl_sound _ (fun _ _ h => Dev.dropLoan_sound h _) _ (foldl_sound _ (fun _ _ h => Dev.abandon_sound h _) _ hk)
    have hs : switched.sound = true := foldl_sound _ (fun _ _ h => Dev.forgetMem_sound h _) _ hl
    clear_value switched
    have hg : gone.sound = true := Dev.leap_sound hs rfl rfl
    clear_value gone
    have hf : forgotten.sound = true := Dev.take_sound (Dev.hbm_sound hg (Mem.forget_wf _ _ _ _ (Dev.hbm_wf hg)))
    clear_value forgotten
    exact Dev.raise_sound (Dev.track_sound _ _ hf) _ _ _ _

/-! ### Safe states -/

theorem Dev.stopCommits_sound (mask : Nat) : (d.stopCommits mask).sound :=
  foldl_sound _ (fun _ _ h => sound_of_ite (Dev.modTask_sound (Dev.modRun_sound h _ _) _ _) (Dev.modRun_sound h _ _)) _ h

theorem Dev.stopParts_sound (mask : Nat) : (d.stopParts mask).sound := by
  have he := fun l => foldl_sound (fun (d : Dev) (q : Nat × Run) => d.dropRun q.1) (fun _ _ h => Dev.dropRun_sound h _) l
    (Dev.phaseDone_sound (Dev.frame_sound (Dev.stopCommits_sound h mask)
      { (d.stopCommits mask).frame with tasks := (d.stopCommits mask).frame.tasks.map ((d.stopCommits mask).withdraw mask) }))
  exact Dev.killHeads_sound (Dev.killWhere_sound (he _) _ _ _) _ _

theorem Dev.enterB_sound (mask : Nat) : (d.enterB mask).sound := by
  simp only [Dev.enterB, h, Dev.set_sound, Dev.stopParts_sound, Dev.sound_mk, soundOf_dev]

theorem Dev.bPartClear_sound (mask : Nat) : (d.bPartClear mask).sound := by
  simp only [Dev.bPartClear, h, Dev.sound_mk, soundOf_dev, Dev.sound_ite, ite_self]

theorem Dev.windowEnd_sound (t : Nat) : (d.windowEnd t).sound := by
  unfold Dev.windowEnd
  split <;> simp only [h, Dev.set_sound, Dev.atTime_sound, Dev.sound_mk, soundOf_dev, Dev.sound_ite, ite_self]

theorem Dev.enterA_sound : (d.enterA).sound := by
  grind only [Dev.enterA, = Dev.sound_mk, = soundOf_dev, Dev.set_sound, Dev.addSat_sound, Dev.warmBegin_sound, Dev.partZero_sound]

theorem Dev.latch_sound (src : Nat) : (d.latch src).sound := h

theorem Dev.safeLast_sound (e : FaultEv) (kind : Nat) : (d.safeLast e kind).sound := by
  grind only [Dev.safeLast, Dev.set_sound]

theorem Dev.safeEntry_sound (t : Nat) : (d.safeEntry t).sound := by
  unfold Dev.safeEntry
  split
  · exact h
  · next e scope rest _ =>
    have hc : ({ d with coll := { d.coll with nmi := rest } } : Dev).sound = true := h
    have hl := fun k => Dev.safeLast_sound (Dev.latch_sound (Dev.windowEnd_sound (Dev.atTime_sound hc t) t) e.src) e k
    refine sound_of_ite h ?_
    dsimp only
    split
    · exact Dev.enterB_sound (hl _) _
    · exact Dev.enterA_sound (hl _)
    · exact Dev.enterB_sound (Dev.set_sound (hl _) _ _) _

theorem Dev.lockstep_sound (pair t : Nat) : (d.lockstep pair t).sound := by
  grind only [Dev.lockstep, = Dev.sound_mk, = soundOf_dev, Dev.set_sound, Dev.atTime_sound, Dev.raise_sound, Dev.abandonAct_sound,
    Dev.enterB_sound, Dev.latch_sound]

/-! ### The Kalends tick -/

theorem Dev.closeTick_sound : (d.closeTick).sound := by
  grind only [Dev.closeTick, Dev.atTime_sound, Dev.closePhase_sound, Dev.powerCompare_sound, Dev.vigil_sound, Dev.frameStats_sound,
    Dev.lateStats_sound]

theorem Dev.tickBank_sound (mem : List MemErr) : (d.tickBank mem).sound := by
  simp only [Dev.tickBank, h, Dev.bankResident_sound, Dev.activateBank_sound, Dev.sound_mk, soundOf_dev, Dev.sound_ite, ite_self]

theorem Dev.openTick_sound (mem : List MemErr) : (d.openTick mem).sound := by
  grind only [Dev.openTick, Dev.lamTick_sound, Dev.freezeRoster_sound, Dev.selectVariant_sound, Dev.tickBells_sound,
    Dev.takeAssignment_sound, Dev.takeRsv_sound, Dev.takeEmber_sound, Dev.takeRelease_sound, Dev.newFrame_sound, Dev.tickBank_sound]

theorem Dev.kalendsTick_sound (mem : List MemErr) : (d.kalendsTick mem).sound := by
  grind only [Dev.kalendsTick, Dev.atTime_sound, Dev.takeEmber_sound, Dev.takeRelease_sound, Dev.newFrame_sound, Dev.closeTick_sound,
    Dev.openTick_sound]

/-! ### Register accesses -/

theorem Dev.store_sound (x : Wr) : (d.store x).sound := by
  simp only [Dev.store, h, Dev.setReg_sound]

theorem Dev.storeIf_sound (x : Wr) (ok : Bool) : (d.storeIf x ok).sound := by
  simp only [Dev.storeIf, h, Dev.store_sound, Dev.sound_ite, ite_self]

theorem Dev.wrHif_sound (x : Wr) : (d.wrHif x).sound := by
  simp +contextual only [Dev.wrHif, h, Dev.ctxCmd_sound, Dev.create_sound, Dev.endCtx_sound, Dev.warmWrite_sound, Dev.store_sound,
    Dev.storeIf_sound, Dev.sound_ite, ite_self, implies_true]

theorem Dev.wrFlt_sound (x : Wr) : (d.wrFlt x).sound := by
  simp only [Dev.wrFlt, h, Dev.severeClear_sound, Dev.pendingClear_sound, Dev.validClear_sound, Dev.fltBad_sound, Dev.srcCfgWrite_sound,
    Dev.lock_sound, Dev.inject_sound, Dev.store_sound, Dev.storeIf_sound, Dev.sound_ite, ite_self]

theorem Dev.lockedStore_sound (x : Wr) (bad : Fld) (ok : Bool) : (d.lockedStore x bad ok).sound := by
  simp only [Dev.lockedStore, h, Dev.set_sound, Dev.store_sound, Dev.sound_ite, ite_self]

theorem Dev.wrSaf_sound (x : Wr) : (d.wrSaf x).sound := by
  simp only [Dev.wrSaf, h, Dev.bPartClear_sound, Dev.store_sound, Dev.storeIf_sound, Dev.lockedStore_sound, Dev.sound_ite, ite_self]

theorem Dev.wrAlm_sound (x : Wr) : (d.wrAlm x).sound := by
  have hs := Dev.store_sound h x
  have hp := Dev.setReg_sound (Dev.pinsSettle_sound h) x.h.key
  unfold Dev.wrAlm
  dsimp only
  refine sound_of_ite (sound_of_ite (Dev.kalApply_sound hs) hs) (sound_of_ite (sound_of_ite (Dev.almSnapshot_sound h _) h)
    (sound_of_ite (sound_of_ite (Dev.domainCfg_sound h _ _ _ _) h) (sound_of_ite (sound_of_ite (Dev.domainCfg_sound h _ _ _ _) h)
    (sound_of_ite (sound_of_ite (Dev.tioApply_sound (hp _) _ _) (hp _)) (sound_of_ite (sound_of_ite (Dev.almBad_sound h) ?_)
    (sound_of_ite (sound_of_ite (Dev.almBad_sound h) hs) (sound_of_ite (sound_of_ite hs (Dev.almBad_sound h)) (Dev.storeIf_sound h _
      _))))))))
  exact Dev.store_sound (d := { d with alm := { d.alm with resid := _, residAt := _ } }) h x

theorem Dev.wrLam_sound (x : Wr) : (d.wrLam x).sound := by
  grind only [Dev.wrLam, Dev.set_sound, Dev.portCfgWrite_sound, Dev.strApply_sound, Dev.strDisable_sound, Dev.lidApply_sound,
    Dev.rplStart_sound, Dev.rplStop_sound, Dev.store_sound, Dev.storeIf_sound]

theorem Dev.wrPwr_sound (x : Wr) : (d.wrPwr x).sound := by
  grind only [Dev.wrPwr, Dev.set_sound, Dev.partCfg_sound, Dev.lpRequest_sound, Dev.wake_sound, Dev.store_sound, Dev.storeIf_sound,
    Dev.lockedStore_sound]

theorem Dev.wrLnk_sound (x : Wr) : (d.wrLnk x).sound := by
  simp only [Dev.wrLnk, h, Dev.set_sound, Dev.lnkCtrl_sound, Dev.store_sound, Dev.storeIf_sound, Dev.sound_ite, ite_self]

theorem Dev.wrSec_sound (x : Wr) : (d.wrSec x).sound := by
  grind only [Dev.wrSec, Dev.sigreqWrite_sound, Dev.fuseGo_sound, Dev.svnCommit_sound, Dev.attest_sound, Dev.updWrite_sound,
    Dev.activate_sound, Dev.rsvApply_sound, Dev.verify_sound, Dev.store_sound, Dev.storeIf_sound]

theorem Dev.wrSch_sound (x : Wr) : (d.wrSch x).sound := by
  simp only [Dev.wrSch, h, Dev.set_sound, Dev.ctxSchedWrite_sound, Dev.partApply_sound, Dev.flagClear_sound, Dev.ordoSwitch_sound,
    Dev.store_sound, Dev.storeIf_sound, Dev.sound_ite, ite_self]

theorem Dev.wrReg_sound (x : Wr) : (d.wrReg x).sound := by
  unfold Dev.wrReg
  split <;> simp only [h, Dev.wrHif_sound, Dev.wrFlt_sound, Dev.wrSaf_sound, Dev.wrAlm_sound, Dev.wrLam_sound, Dev.wrPwr_sound,
    Dev.wrLnk_sound, Dev.wrSec_sound, Dev.wrSch_sound]

theorem Dev.access_sound (x : Wr) : (d.access x).sound := by
  grind only [Dev.access, = Dev.sound_mk, = soundOf_dev, Dev.wrReg_sound]

theorem Dev.wr32_sound (who : Who) (a value : Nat) : (d.wr32 who a value).sound := by
  unfold Dev.wr32
  split <;> simp only [h, Dev.access_sound]

theorem Dev.regWrite_sound (who : Who) (a width value : Nat) : (d.regWrite who a width value).sound := by
  grind only [Dev.regWrite, Dev.access_sound, Dev.wr32_sound]

theorem Dev.portWrite_sound (who : Who) (addr width value : Nat) : (d.portWrite who addr width value).sound := by
  unfold Dev.portWrite
  split <;> simp only [h, Dev.cfgWrite_sound, Dev.msixWrite_sound, Dev.sqTail_sound, Dev.cqHead_sound, Dev.regWrite_sound, Dev.sound_ite,
    ite_self]

theorem Dev.readClear_sound (who : Who) (a : Nat) : (d.readClear who a).sound := by
  unfold Dev.readClear
  split <;> simp only [h, Dev.setReg_sound, Dev.ret_sound, Dev.modCtx_sound, Dev.sound_ite, ite_self]

theorem Dev.readHalf_sound (who : Who) (a : Nat) (h : RegHit) : (d.readHalf who a h).sound := by
  grind only [Dev.readHalf, = Dev.sound_mk, = soundOf_dev, Dev.ret_sound]

theorem Dev.read32_sound (who : Who) (a : Nat) : (d.read32 who a).sound := by
  unfold Dev.read32
  split <;> simp only [h, Dev.ret_sound, Dev.wearRead_sound, Dev.recordSnapshot_sound, Dev.frameLoRead_sound, Dev.pinsSettle_sound,
    Dev.capPop_sound, Dev.entryRead_sound, Dev.readClear_sound, Dev.readHalf_sound, Dev.sound_ite, ite_self]

theorem Dev.readLive_sound (who : Who) (a : Nat) : (d.readLive who a).sound := by
  unfold Dev.readLive
  split <;> simp only [h, Dev.ret_sound, Dev.read32_sound, Dev.sound_ite, ite_self]

theorem Dev.readSpan_sound (who : Who) (a n : Nat) : (d.readSpan who a n).sound := by
  have hr := foldl_induct (fun p : Dev × List Nat => p.1.sound = true)
    (fun p i => (p.1.readLive who (a / 4 * 4 + 4 * i), p.2 ++ (p.1.readLive who (a / 4 * 4 + 4 * i)).out.rdata))
    (fun p i hp => Dev.readLive_sound hp _ _) (List.range (ceilDiv (a % 4 + n) 4)) (b := (d, [])) h
  exact Dev.ret_sound hr _

theorem Dev.readReg_sound (who : Who) (a n : Nat) : (d.readReg who a n).sound := by
  grind only [Dev.readReg, Dev.ret_sound, Dev.recordSnapshot_sound, Dev.read32_sound, Dev.readSpan_sound]

theorem Dev.portRead_sound (who : Who) (addr width : Nat) : (d.portRead who addr width).sound := by
  unfold Dev.portRead
  split <;> simp only [h, Dev.ret_sound, Dev.cfgRead_sound, Dev.msixRead_sound, Dev.readReg_sound, Dev.sound_ite, ite_self]

theorem Dev.mgmtAccess_sound (bus : MgmtBus) (write : Bool) (a value : Nat) : (d.mgmtAccess bus write a value).sound := by
  simp only [Dev.mgmtAccess, h, Dev.ret_sound, Dev.wake_sound, Dev.sound_mk, soundOf_dev, Dev.sound_ite, ite_self]

theorem Dev.jtag_sound (ir : Nat) (dr : List Bool) : (d.jtag ir dr).sound := by
  simp only [Dev.jtag, h, Dev.take_sound, Dev.ret_sound, Dev.sound_ite, ite_self]

/-! ### The restart manifest -/

theorem Dev.setReplay_sound (at' : Option Nat) (wait : Bool) : (d.setReplay at' wait).sound := h

theorem Dev.replayFail_sound (i st : Nat) : (d.replayFail i st).sound := by
  grind only [Dev.replayFail, Dev.set_sound, Dev.setReplay_sound]

theorem Dev.replayHead_sound (a : Nat) : (d.replayHead a).sound := by
  grind only [Dev.replayHead, Dev.take_sound, Dev.hbmUeAt_sound, Dev.setReplay_sound, Dev.replayFail_sound]

theorem Dev.restartReplay_sound (mem : List MemErr) : (d.restartReplay mem).sound := by
  simp +contextual only [Dev.restartReplay, h, Dev.set_sound, Dev.met_sound, Dev.replayFail_sound, Dev.replayHead_sound, Dev.sound_mk,
    soundOf_dev, Dev.sound_ite, ite_self, implies_true]

theorem Dev.replayOk_sound (i n : Nat) : (d.replayOk i n).sound := by
  simp only [Dev.replayOk, h, Dev.set_sound, Dev.setReplay_sound, Dev.sound_ite, ite_self]

theorem Dev.replayEnd_sound (i n st : Nat) : (d.replayEnd i n st).sound := by
  simp only [Dev.replayEnd, h, Dev.replayFail_sound, Dev.replayOk_sound, Dev.sound_ite, ite_self]

theorem Dev.replayCommand_sound (i key : Nat) (b : List Nat) (mem : List MemErr) : (d.replayCommand i key b mem).sound := by
  have room : ∀ e, d.makeRoom = some e → e.sound = true := Dev.makeRoom_sound h
  unfold Dev.replayCommand
  split
  · exact Dev.replayFail_sound h _ _
  · split
    · exact Dev.replayFail_sound h _ _
    · next e he =>
      have hs : e.sound = true := by
        split at he
        · exact Option.some.inj he ▸ h
        · obtain ⟨x, hx, rfl⟩ := Option.map_eq_some_iff.mp he
          exact Dev.swapIn_sound (room x hx) _ _
      exact sound_of_ite (Dev.replayFail_sound hs _ _) (Dev.pumpCtx_sound (Dev.modCtx_sound (Dev.setReplay_sound hs _ _) _ _) _)

theorem Dev.replayWrite_sound (i n a w value : Nat) : (d.replayWrite i n a w value).sound := by
  simp only [Dev.replayWrite, h, Dev.take_sound, Dev.regWrite_sound, Dev.setReplay_sound, Dev.replayFail_sound, Dev.replayOk_sound,
    Dev.sound_ite, ite_self]

theorem Dev.replayRun_sound (i n a : Nat) (mem : List MemErr) : (d.replayRun i n a mem).sound := by
  grind only [Dev.replayRun, Dev.take_sound, Dev.hbmUeAt_sound, Dev.createCtx_sound, Dev.replayFail_sound, Dev.replayEnd_sound,
    Dev.replayCommand_sound, Dev.replayWrite_sound]

theorem Dev.manifestEntry_sound (mem : List MemErr) : (d.manifestEntry mem).sound := by
  grind only [Dev.manifestEntry, Dev.met_sound, Dev.replayOk_sound, Dev.replayEnd_sound, Dev.replayRun_sound]

/-! ### Long instructions -/

theorem Dev.runIns_sound (g : Nat) (c : Cur) (ups : List Upset) : (d.runIns g c ups).d.sound := by
  unfold Dev.runIns
  split <;> simp only [h, Done.idle_sound, Dev.atDo_sound, Dev.cvDo_sound, Dev.ewDo_sound, Dev.gtDo_sound, Dev.mmDo_sound, Dev.mvDo_sound]

theorem Dev.modHead_sound (id g q : Nat) (f : LongIns → LongIns) : (d.modHead id g q f).sound := by
  simp only [Dev.modHead, h, Dev.modMember_sound]

omit h in
theorem Dev.begun_sound (d : Dev) (id g q : Nat) {x : Done} (h : x.d.sound = true) (mem : List MemErr) :
    (d.begun id g q x mem).sound = true := by
  unfold Dev.begun
  split
  · exact Dev.endOwn_sound h _ _
  · exact Dev.memErrs_sound (Dev.modRun_sound (Dev.modHead_sound (Dev.modMember_sound h _ _ _) _ _ _ _) _ _) _ _ _ _

theorem Dev.insStart_sound (id g q t : Nat) (mem : List MemErr) (ups : List Upset) : (d.insStart id g q t mem ups).sound := by
  grind only [Dev.insStart, Dev.atTime_sound, Dev.runIns_sound, Dev.begun_sound]

theorem Dev.wrTarget_sound (bs : List Nat) (y : Target) : (d.wrTarget bs y).sound := by
  cases y with
  | chip p => exact Dev.wrSram_sound h p bs
  | hbm a => exact Dev.wrHbm_sound h a bs
  | roster _ => exact h

theorem Dev.xRun_sound (x : Xact) (ts : List Target) : (d.xRun x ts).sound := by
  unfold Dev.xRun
  split <;> simp only [h, Dev.wrTarget_sound]

theorem Dev.xBegin_sound (id q g : Nat) (x : Xact) (ts : Option (List Target)) (lat : Target → Option (Nat × Nat)) (mem : List MemErr) :
    (d.xBegin id q g x ts lat mem).sound := by
  unfold Dev.xBegin
  split
  · exact Dev.endOwn_sound h _ _
  · exact sound_of_ite (Dev.endOwn_sound h _ _) (Dev.memErrs_sound (Dev.modRun_sound (Dev.xRun_sound h _ _) _ _) _ _ _ _)

theorem Dev.xStart_sound (id g q t : Nat) (mem : List MemErr) (x : Xact) : (d.xStart id g q t mem x).sound := by
  grind only [Dev.xStart, Dev.atTime_sound, Dev.xBegin_sound]

theorem Dev.insComplete_sound (id g q t : Nat) (mem : List MemErr) : (d.insComplete id g q t mem).sound := by
  grind only [Dev.insComplete, Dev.atTime_sound, Dev.killUe_sound, Dev.memErrs_sound, Dev.modMember_sound, Dev.scruple_sound]

theorem Dev.xComplete_sound (id g q t : Nat) (mem : List MemErr) : (d.xComplete id g q t mem).sound := by
  grind only [Dev.xComplete, Dev.atTime_sound, Dev.modRun_sound, Dev.killUe_sound, Dev.memErrs_sound]

end

/-! ## Every command keeps the block sound -/

theorem updAlways_sound {s t : State} {f : Dev → Dev} (hf : ∀ d, d.sound = true → (f d).sound = true) (hs : s.dev.sound = true)
    (h : (.next (s.updAlways f) : Res) = .next t) : t.dev.sound = true := by
  cases h
  exact hf _ hs
theorem upd_sound {s t : State} {f : Dev → Dev} (hf : ∀ d, d.sound = true → (f d).sound = true) (hs : s.dev.sound = true)
    (h : (.next (s.upd f) : Res) = .next t) : t.dev.sound = true := by
  cases h
  unfold State.upd
  split
  · exact hs
  · exact hf _ hs

/-- Every command that is carried out leaves a sound block. -/
theorem exec_sound {s t : State} (hs : s.dev.sound) (i : Instr) (h : exec i s = .next t) : t.dev.sound :=
  match i, h with
  | .porstNAssert _, h => updAlways_sound (fun _ h => Dev.porst_sound h ..) hs h
  | .maskRomBoot _ _ _ _, h => updAlways_sound (fun _ h => Dev.maskRomBoot_sound h ..) hs h
  | .refclkDetect, h => upd_sound (fun _ h => Dev.refclkDetect_sound h) hs h
  | .warm, h => upd_sound (fun _ h => Dev.warmWrite_sound h) hs h
  | .chipResetStart _, h => upd_sound (fun _ h => Dev.chipStart_sound h ..) hs h
  | .warmResetRestart, h => upd_sound (fun _ h => Dev.warmRestart_sound h) hs h
  | .hbmAvailable _, h => upd_sound (fun _ h => Dev.hbmAvailable_sound h ..) hs h
  | .linkReset, h => upd_sound (fun _ h => Dev.linkReset_sound h) hs h
  | .functionReset _, h => upd_sound (fun _ h => Dev.functionReset_sound h ..) hs h
  | .blockResetComplete _, h => upd_sound (fun _ h => Dev.blockResetDone_sound h ..) hs h
  | .doze, h => upd_sound (fun _ h => Dev.lpRequest_sound h ..) hs h
  | .keep, h => upd_sound (fun _ h => Dev.lpRequest_sound h ..) hs h
  | .lowPowerEntered, h => upd_sound (fun _ h => Dev.lpEntered_sound h) hs h
  | .wake _ _, h => upd_sound (fun _ h => Dev.wake_sound h ..) hs h
  | .keepWakeTime _, h => upd_sound (fun _ h => Dev.keepWake_sound h ..) hs h
  | .thermalShutdown _, h => upd_sound (fun _ h => Dev.thermalOff_sound h ..) hs h
  | .faultEvent _ _, h => upd_sound (fun _ h => Dev.faultEvents_sound h ..) hs h
  | .severeClear _ _, h => upd_sound (fun _ h => Dev.severeClear_sound h ..) hs h
  | .pendingClear _ _, h => upd_sound (fun _ h => Dev.pendingClear_sound h ..) hs h
  | .validClear, h => upd_sound (fun _ h => Dev.validClear_sound h) hs h
  | .fltSrcCfgWrite _ _ _, h => upd_sound (fun _ h => Dev.srcCfgWrite_sound h ..) hs h
  | .lock, h => upd_sound (fun _ h => Dev.lock_sound h) hs h
  | .inject _ _ _, h => upd_sound (fun _ h => Dev.inject_sound h ..) hs h
  | .firstRecordSnapshot _, h => upd_sound (fun _ h => Dev.recordSnapshot_sound h ..) hs h
  | .errInEdge _, h => upd_sound (fun _ h => Dev.errInEdge_sound h ..) hs h
  | .safeStateEntry _, h => upd_sound (fun _ h => Dev.safeEntry_sound h ..) hs h
  | .bPartClear _, h => upd_sound (fun _ h => Dev.bPartClear_sound h ..) hs h
  | .aWindowExpiry _, h => upd_sound (fun _ h => Dev.windowEnd_sound h ..) hs h
  | .restartReplay _, h => upd_sound (fun _ h => Dev.restartReplay_sound h ..) hs h
  | .manifestEntry _, h => upd_sound (fun _ h => Dev.manifestEntry_sound h ..) hs h
  | .lockstepMismatch _ _, h => upd_sound (fun _ h => Dev.lockstep_sound h ..) hs h
  | .kalendsTick _, h => upd_sound (fun _ h => Dev.kalendsTick_sound h ..) hs h
  | .kalApply, h => upd_sound (fun _ h => Dev.kalApply_sound h) hs h
  | .frameLoRead, h => upd_sound (fun _ h => Dev.frameLoRead_sound h) hs h
  | .vigil, h => upd_sound (fun _ h => Dev.vigil_sound h) hs h
  | .rosterReceive _, h => upd_sound (fun _ h => Dev.rosterReceive_sound h ..) hs h
  | .rosterDigestReturn _ _, h => upd_sound (fun _ h => Dev.digestReturn_sound h ..) hs h
  | .rosterAgreementTimeout, h => upd_sound (fun _ h => Dev.agreeTimeout_sound h) hs h
  | .phaseStart _, h => upd_sound (fun _ h => Dev.phaseStart_sound h ..) hs h
  | .budgetOverrun _ _, h => upd_sound (fun _ h => Dev.budgetOverrun_sound h ..) hs h
  | .ordoSwitch _, h => upd_sound (fun _ h => Dev.ordoSwitch_sound h ..) hs h
  | .ordoCopyDone _, h => upd_sound (fun _ h => Dev.ordoCopyDone_sound h ..) hs h
  | .lamPortCfgWrite _ _, h => upd_sound (fun _ h => sound_of_ite (Dev.portCfgWrite_sound h ..) h) hs h
  | .frameStart _ _ _ _, h => upd_sound (fun _ h => Dev.frameStart_sound h ..) hs h
  | .line _ _ _ _ _ _ _ _, h => upd_sound (fun _ h => Dev.line_sound h ..) hs h
  | .frameEnd _ _ _ _, h => upd_sound (fun _ h => Dev.frameEnd_sound h ..) hs h
  | .frameHeaderWritten _ _, h => upd_sound (fun _ h => Dev.headerWritten_sound h ..) hs h
  | .lineTimeout _ _, h => upd_sound (fun _ h => sound_of_ite (Dev.lineTimeout_sound h ..) h) hs h
  | .frameTimeout _ _, h => upd_sound (fun _ h => sound_of_ite (Dev.frameTimeout_sound h ..) h) hs h
  | .strApply _, h => upd_sound (fun _ h => sound_of_ite (Dev.strApply_sound h ..) h) hs h
  | .streamDisable _, h => upd_sound (fun _ h => sound_of_ite (Dev.strDisable_sound h ..) h) hs h
  | .lidApply _, h => upd_sound (fun _ h => sound_of_ite (Dev.lidApply_sound h ..) h) hs h
  | .ethernetFrame _ _ _ _, h => upd_sound (fun _ h => Dev.ethFrame_sound h ..) hs h
  | .gapTimeout _ _, h => upd_sound (fun _ h => Dev.gapTimeout_sound h ..) hs h
  | .sweepTimeout _ _, h => upd_sound (fun _ h => Dev.sweepTimeout_sound h ..) hs h
  | .readClear _ _, h => upd_sound (fun _ h => sound_of_ite (Dev.readClear_sound h ..) h) hs h
  | .create _ _, h => upd_sound (fun _ h => Dev.ctxCmd_sound h _ _ _ _ fun _ h => Dev.create_sound h ..) hs h
  | .destroy _ _, h => upd_sound (fun _ h => Dev.ctxCmd_sound h _ _ _ _ fun _ h => Dev.endCtx_sound h ..) hs h
  | .abort _ _, h => upd_sound (fun _ h => Dev.ctxCmd_sound h _ _ _ _ fun _ h => Dev.endCtx_sound h ..) hs h
  | .sqTail _ _ _ _ _ _, h => upd_sound (fun _ h => sound_of_ite (Dev.sqTail_sound h ..) h) hs h
  | .cqHead _ _ _ _ _ _, h => upd_sound (fun _ h => sound_of_ite (Dev.cqHead_sound h ..) h) hs h
  | .heldDoorbellResume _ _ _, h => upd_sound (fun _ h => Dev.bellResume_sound h ..) hs h
  | .descriptorFetch _ _, h => upd_sound (fun _ h => Dev.fetchDesc_sound h ..) hs h
  | .coalTimer _ _ _, h => upd_sound (fun _ h => Dev.coalTimer_sound h ..) hs h
  | .pcieLaneFail _, h => upd_sound (fun _ h => Dev.laneDown_sound h ..) hs h
  | .bar2Read _ _ _, h => upd_sound (fun _ h => Dev.bar2Read_sound h ..) hs h
  | .bar2Write _ _ _, h => upd_sound (fun _ h => Dev.bar2Write_sound h ..) hs h
  | .ringNop _ _, h => upd_sound (fun _ h => Dev.ringNop_sound h ..) hs h
  | .ringRun _ _, h => upd_sound (fun _ h => Dev.ringRun_sound h ..) hs h
  | .ringCopy _ _, h => upd_sound (fun _ h => Dev.ringCopy_sound h ..) hs h
  | .copyDone _ _ _ _, h => upd_sound (fun _ h => Dev.copyDone_sound h ..) hs h
  | .ringSignal _ _, h => upd_sound (fun _ h => Dev.ringSignal_sound h ..) hs h
  | .ringWait _ _ _, h => upd_sound (fun _ h => Dev.ringWait_sound h ..) hs h
  | .waitRelease _ _, h => upd_sound (fun _ h => Dev.waitRelease_sound h ..) hs h
  | .waitExpired _ _ _, h => upd_sound (fun _ h => Dev.waitExpired_sound h ..) hs h
  | .moduleLoad _ _ _, h => upd_sound (fun _ h => Dev.moduleLoad_sound h ..) hs h
  | .moduleUnload _ _, h => upd_sound (fun _ h => Dev.moduleUnload_sound h ..) hs h
  | .unloadComplete _ _, h => upd_sound (fun _ h => Dev.unloadComplete_sound h ..) hs h
  | .tdtWrite _ _ _, h => upd_sound (fun _ h => Dev.tdtWrite_sound h ..) hs h
  | .poolGrant _ _, h => upd_sound (fun _ h => Dev.poolGrant_sound h ..) hs h
  | .poolReclaim _ _, h => upd_sound (fun _ h => Dev.poolReclaim_sound h ..) hs h
  | .cacheCreate _ _, h => upd_sound (fun _ h => Dev.cacheCreate_sound h ..) hs h
  | .cacheDestroy _ _, h => upd_sound (fun _ h => Dev.cacheDestroy_sound h ..) hs h
  | .pageAlloc _ _, h => upd_sound (fun _ h => Dev.pageAlloc_sound h ..) hs h
  | .pageShare _ _, h => upd_sound (fun _ h => Dev.pageShare_sound h ..) hs h
  | .pageFree _ _, h => upd_sound (fun _ h => Dev.pageFree_sound h ..) hs h
  | .pageCow _ _, h => upd_sound (fun _ h => Dev.pageCow_sound h ..) hs h
  | .cowCopyDone _ _ _, h => upd_sound (fun _ h => Dev.cowCopyDone_sound h ..) hs h
  | .kvuEntryRead, h => upd_sound (fun _ h => Dev.entryRead_sound h) hs h
  | .spanOpen _ _, h => upd_sound (fun _ h => Dev.spanOpen_sound h ..) hs h
  | .spanClose _ _, h => upd_sound (fun _ h => Dev.spanClose_sound h ..) hs h
  | .spanAdvance _ _, h => upd_sound (fun _ h => Dev.spanAdvance_sound h ..) hs h
  | .spanMap _ _, h => upd_sound (fun _ h => Dev.spanMap_sound h ..) hs h
  | .spanPull _ _, h => upd_sound (fun _ h => Dev.spanPull_sound h ..) hs h
  | .pullDone _ _ _ _, h => upd_sound (fun _ h => Dev.pullDone_sound h ..) hs h
  | .pieceArrival _ _ _ _ _ _ _ _ _ _, h => upd_sound (fun _ h => Dev.pieceArrival_sound h ..) hs h
  | .arrivalMark _ _ _ _ _ _, h => upd_sound (fun _ h => Dev.arrivalMark_sound h ..) hs h
  | .pieceAck _ _ _ _, h => upd_sound (fun _ h => Dev.pieceAck_sound h ..) hs h
  | .lnkCtrlWrite _, h => upd_sound (fun _ h => Dev.lnkCtrl_sound h ..) hs h
  | .portTrained _ _ _, h => upd_sound (fun _ h => Dev.portTrained_sound h ..) hs h
  | .laneFail _ _ _, h => upd_sound (fun _ h => Dev.laneFail_sound h ..) hs h
  | .flitReceive _ _ _, h => upd_sound (fun _ h => Dev.flit_sound h ..) hs h
  | .portDown _ _, h => upd_sound (fun _ h => sound_of_ite (Dev.portFault_sound (Dev.atTime_sound h _) ..) h) hs h
  | .mirrorReceive _ _, h => upd_sound (fun _ h => Dev.mirrorReceive_sound h ..) hs h
  | .mirrorAck _, h => upd_sound (fun _ h => Dev.mirrorAck_sound h ..) hs h
  | .dispatch _ _ _, h => upd_sound (fun _ h => Dev.dispatch_sound h ..) hs h
  | .sliceExpiry _ _ _, h => upd_sound (fun _ h => Dev.sliceExpiry_sound h ..) hs h
  | .partApply, h => upd_sound (fun _ h => Dev.partApply_sound h) hs h
  | .schCtxSchedWrite _, h => upd_sound (fun _ h => Dev.ctxSchedWrite_sound h ..) hs h
  | .flagClear, h => upd_sound (fun _ h => Dev.flagClear_sound h) hs h
  | .matmul _ _ _, h => upd_sound (fun _ h => Dev.matmul_sound h ..) hs h
  | .ewCvt _ _ _, h => upd_sound (fun _ h => Dev.ewMap_sound h ..) hs h
  | .ewAdd _ _ _, h => upd_sound (fun _ h => Dev.ewMap_sound h ..) hs h
  | .ewSub _ _ _, h => upd_sound (fun _ h => Dev.ewMap_sound h ..) hs h
  | .ewMul _ _ _, h => upd_sound (fun _ h => Dev.ewMap_sound h ..) hs h
  | .ewFma _ _ _, h => upd_sound (fun _ h => Dev.ewMap_sound h ..) hs h
  | .ewMax _ _ _, h => upd_sound (fun _ h => Dev.ewMap_sound h ..) hs h
  | .ewMin _ _ _, h => upd_sound (fun _ h => Dev.ewMap_sound h ..) hs h
  | .ewAbs _ _ _, h => upd_sound (fun _ h => Dev.ewMap_sound h ..) hs h
  | .ewNeg _ _ _, h => upd_sound (fun _ h => Dev.ewMap_sound h ..) hs h
  | .ewRelu _ _ _, h => upd_sound (fun _ h => Dev.ewMap_sound h ..) hs h
  | .ewClamp _ _ _, h => upd_sound (fun _ h => Dev.ewMap_sound h ..) hs h
  | .ewAffine _ _ _, h => upd_sound (fun _ h => Dev.ewMap_sound h ..) hs h
  | .ewExp _ _ _, h => upd_sound (fun _ h => Dev.ewMap_sound h ..) hs h
  | .ewRecip _ _ _, h => upd_sound (fun _ h => Dev.ewMap_sound h ..) hs h
  | .ewSqrt _ _ _, h => upd_sound (fun _ h => Dev.ewMap_sound h ..) hs h
  | .ewRsqrt _ _ _, h => upd_sound (fun _ h => Dev.ewMap_sound h ..) hs h
  | .ewReluGrad _ _ _, h => upd_sound (fun _ h => Dev.ewMap_sound h ..) hs h
  | .ewRequant _ _ _, h => upd_sound (fun _ h => Dev.ewRequant_sound h ..) hs h
  | .reduceSum _ _ _, h => upd_sound (fun _ h => Dev.ewReduce_sound h ..) hs h
  | .reduceMax _ _ _, h => upd_sound (fun _ h => Dev.ewReduce_sound h ..) hs h
  | .sgdMom _ _ _, h => upd_sound (fun _ h => Dev.sgdMom_sound h ..) hs h
  | .adamw _ _ _, h => upd_sound (fun _ h => Dev.adamw_sound h ..) hs h
  | .mvMove _ _ _, h => upd_sound (fun _ h => Dev.mvMove_sound h ..) hs h
  | .mvPublish _ _ _, h => upd_sound (fun _ h => Dev.mvPublish_sound h ..) hs h
  | .rebolt _ _ _, h => upd_sound (fun _ h => Dev.rebolt_sound h ..) hs h
  | .window _ _ _, h => upd_sound (fun _ h => Dev.window'_sound h ..) hs h
  | .gather _ _ _, h => upd_sound (fun _ h => Dev.gt_sound h ..) hs h
  | .scatter _ _ _, h => upd_sound (fun _ h => Dev.gt_sound h ..) hs h
  | .scatterAdd _ _ _, h => upd_sound (fun _ h => Dev.gt_sound h ..) hs h
  | .attend _ _ _, h => upd_sound (fun _ h => Dev.attend_sound h ..) hs h
  | .sySignal _ _ _, h => upd_sound (fun _ h => Dev.sySignal_sound h ..) hs h
  | .syWait _ _ _, h => upd_sound (fun _ h => Dev.syWait_sound h ..) hs h
  | .syWaitRelease _ _ _, h => upd_sound (fun _ h => Dev.syRelease_sound h ..) hs h
  | .syWaitExpired _ _ _, h => upd_sound (fun _ h => Dev.syExpired_sound h ..) hs h
  | .barrier _ _ _, h => upd_sound (fun _ h => Dev.barrier_sound h ..) hs h
  | .barrierRelease _, h => upd_sound (fun _ h => Dev.barrierRelease_sound h ..) hs h
  | .loopBegin _ _ _, h => upd_sound (fun _ h => Dev.loopBegin_sound h ..) hs h
  | .loopEnd _ _ _, h => upd_sound (fun _ h => Dev.loopEnd_sound h ..) hs h
  | .setcount _ _ _, h => upd_sound (fun _ h => Dev.ctSetcount_sound h ..) hs h
  | .ctNop _ _ _, h => upd_sound (fun _ h => Dev.ctNop_sound h ..) hs h
  | .ctEnd _ _ _, h => upd_sound (fun _ h => Dev.ctEnd_sound h ..) hs h
  | .rdflags _ _ _, h => upd_sound (fun _ h => Dev.rdflags_sound h ..) hs h
  | .ldarg _ _ _, h => upd_sound (fun _ h => Dev.ldarg_sound h ..) hs h
  | .instructionStart _ _ _ _ _ _ (some _), h => upd_sound (fun _ h => sound_of_ite (Dev.xStart_sound h ..) h) hs h
  | .instructionStart _ _ _ _ _ _ none, h => upd_sound (fun _ h => Dev.insStart_sound h ..) hs h
  | .instructionComplete _ _ _ _ _, h => upd_sound (fun _ h => sound_of_ite (Dev.xComplete_sound h ..) (Dev.insComplete_sound h ..)) hs h
  | .commitStart _ _ _, h => upd_sound (fun _ h => Dev.commitStart_sound h ..) hs h
  | .commitEnd _ _, h => upd_sound (fun _ h => Dev.commitEnd_sound h ..) hs h
  | .holdCopyDone _ _ _, h => upd_sound (fun _ h => Dev.readStage_sound h _ _ _ _ _ fun _ h => Dev.holdDone_sound h ..) hs h
  | .comparePassDone _ _ _, h => upd_sound (fun _ h => Dev.readStage_sound h _ _ _ _ _ fun _ h => Dev.compareDone_sound h ..) hs h
  | .slotBCopyDone _ _ _, h => upd_sound (fun _ h => Dev.readStage_sound h _ _ _ _ _ fun _ h => Dev.slotBDone_sound h ..) hs h
  | .troyKernelsDone _ _ _, h => upd_sound (fun _ h => Dev.troyDone_sound h ..) hs h
  | .verdict _ _ _, h => upd_sound (fun _ h => Dev.readStage_sound h _ _ _ _ _ fun _ h => Dev.verdict_sound h ..) hs h
  | .marchTestDone _ _ _, h => upd_sound (fun _ h => Dev.marchDone_sound h ..) hs h
  | .scrubRead _ _ _ _, h => upd_sound (fun _ h => Dev.scrubRead_sound h ..) hs h
  | .rowRepairApply _, h => upd_sound (fun _ h => Dev.rowRepair_sound h ..) hs h
  | .patrolRead _ _ _, h => upd_sound (fun _ h => Dev.patrolRead_sound h ..) hs h
  | .hbmLaneRepair _ _ _ _, h => upd_sound (fun _ h => Dev.laneRepair_sound h ..) hs h
  | .hbmRowRepair _ _ _, h => upd_sound (fun _ h => Dev.hbmRowRepair_sound h ..) hs h
  | .rsvApply, h => upd_sound (fun _ h => Dev.rsvApply_sound h) hs h
  | .rotationDue _ _ _, h => upd_sound (fun _ h => Dev.rotationDue_sound h ..) hs h
  | .leapRotation _ _ _, h => upd_sound (fun _ h => Dev.rotate_sound h ..) hs h
  | .emberTestDone _ _ _ _, h => upd_sound (fun _ h => Dev.testDone_sound h ..) hs h
  | .sequencerSwitchover _ _, h => upd_sound (fun _ h => Dev.switchover_sound h ..) hs h
  | .emberSliceStart _ _, h => upd_sound (fun _ h => Dev.sliceStart_sound h ..) hs h
  | .emberSliceEnd _ _ _ _, h => upd_sound (fun _ h => Dev.sliceEnd_sound h ..) hs h
  | .emberDeferred _ _, h => upd_sound (fun _ h => Dev.deferredTest_sound h ..) hs h
  | .loanBegin _ _, h => upd_sound (fun _ h => Dev.loanBegin_sound h ..) hs h
  | .loanEnd _ _, h => upd_sound (fun _ h => Dev.loanEnd_sound h ..) hs h
  | .standbySeqTest _ _ _, h => upd_sound (fun _ h => Dev.standbySeqTest_sound h ..) hs h
  | .standbyComputusTest _ _, h => upd_sound (fun _ h => Dev.standbyComputusTest_sound h ..) hs h
  | .wearJournal _, h => upd_sound (fun _ h => Dev.wearJournal_sound h ..) hs h
  | .wearRead _, h => upd_sound (fun _ h => Dev.wearRead_sound h ..) hs h
  | .sensorDomainStart, h => upd_sound (fun _ h => Dev.sensorStart_sound h) hs h
  | .followerSync _ _ _, h => upd_sound (fun _ h => Dev.followerSync_sound h ..) hs h
  | .followerFreeStart, h => upd_sound (fun _ h => Dev.freeStart_sound h) hs h
  | .followerSyncLoss _, h => upd_sound (fun _ h => Dev.syncLoss_sound h ..) hs h
  | .gptpSyncTransmit _ _, h => upd_sound (fun _ h => Dev.gptpSync_sound h ..) hs h
  | .pdelayReq _ _ _, h => upd_sound (fun _ h => Dev.pdelayAnswer_sound h ..) hs h
  | .pdelayReqTransmit _ _, h => upd_sound (fun _ h => Dev.pdelaySend_sound h ..) hs h
  | .vehicleSyncSample _ _ _ _ _ _, h => upd_sound (fun _ h => sound_of_ite (Dev.vehicleSample_sound h ..) h) hs h
  | .domainLoss _ _, h => upd_sound (fun _ h => sound_of_ite (Dev.domainLoss_sound h ..) h) hs h
  | .reacq _, h => upd_sound (fun _ h => sound_of_ite (Dev.reacq_sound h ..) h) hs h
  | .domainCfgWrite _ _ _ _, h => upd_sound (fun _ h => sound_of_ite (Dev.domainCfg_sound h ..) h) hs h
  | .switchSlewDone _, h => upd_sound (fun _ h => Dev.slewDone_sound h ..) hs h
  | .steerUpdate _, h => upd_sound (fun _ h => Dev.steer_sound h ..) hs h
  | .snapshot _, h => upd_sound (fun _ h => Dev.almSnapshot_sound h ..) hs h
  | .tioApply _ _, h => upd_sound (fun _ h => sound_of_ite (Dev.tioApply_sound h ..) h) hs h
  | .tioPulse _ _, h => upd_sound (fun _ h => sound_of_ite (Dev.tioPulse_sound h ..) h) hs h
  | .tioEdge _ _ _ _, h => upd_sound (fun _ h => sound_of_ite (Dev.tioEdge_sound h ..) h) hs h
  | .capPop _, h => upd_sound (fun _ h => sound_of_ite (Dev.capPop_sound h ..) h) hs h
  | .rplStart _, h => upd_sound (fun _ h => Dev.rplStart_sound h ..) hs h
  | .rplStop, h => upd_sound (fun _ h => sound_of_ite (Dev.rplStop_sound h) h) hs h
  | .laneSampleStart _ _ _, h => upd_sound (fun _ h => Dev.laneStart_sound h ..) hs h
  | .emission _ _, h => upd_sound (fun _ h => Dev.emission_sound h ..) hs h
  | .late _ _, h => upd_sound (fun _ h => Dev.late_sound h ..) hs h
  | .allocation _, h => upd_sound (fun _ h => sound_of_ite (Dev.allocate_sound (Dev.atTime_sound h _)) (Dev.atTime_sound h _)) hs h
  | .overCapStep _, h => upd_sound (fun _ h => Dev.overCap_sound h ..) hs h
  | .pmbusPoll (some _) _ _, h => upd_sound (fun _ h => Dev.poll_sound (Dev.sample_sound (Dev.atTime_sound h _) _) _) hs h
  | .pmbusPoll none _ _, h => upd_sound (fun _ h => Dev.sample_sound (Dev.atTime_sound h _) _) hs h
  | .oppChangeDone _ _, h => upd_sound (fun _ h => Dev.oppDone_sound h ..) hs h
  | .droop _ _, h => upd_sound (fun _ h => Dev.droop_sound h ..) hs h
  | .stretchEnd _ _, h => upd_sound (fun _ h => Dev.stretchEnd_sound h ..) hs h
  | .thermalWarn _ _ _, h => upd_sound (fun _ h => Dev.thermWarn_sound h ..) hs h
  | .thermCapStep _ _ _, h => upd_sound (fun _ h => Dev.capStep_sound h ..) hs h
  | .pwrAlert _, h => upd_sound (fun _ h => Dev.alert_sound h ..) hs h
  | .thermalTrip _ _ _, h => upd_sound (fun _ h => Dev.trip_sound h ..) hs h
  | .forcingHoldExpiry _ _, h => upd_sound (fun _ h => Dev.holdExpiry_sound h ..) hs h
  | .pwrPartCfgWrite _ _ _, h => upd_sound (fun _ h => sound_of_ite (Dev.partCfg_sound h ..) h) hs h
  | .verify _, h => upd_sound (fun _ h => Dev.verify_sound h ..) hs h
  | .verifyDone, h => upd_sound (fun _ h => Dev.verifyDone_sound h) hs h
  | .updWrite, h => upd_sound (fun _ h => Dev.updWrite_sound h) hs h
  | .writeDone _, h => upd_sound (fun _ h => Dev.writeDone_sound h ..) hs h
  | .activate, h => upd_sound (fun _ h => Dev.activate_sound h) hs h
  | .handover _, h => upd_sound (fun _ h => Dev.handover_sound h ..) hs h
  | .svnCommit, h => upd_sound (fun _ h => Dev.svnCommit_sound h) hs h
  | .svnBlowDone, h => upd_sound (fun _ h => Dev.svnDone_sound h) hs h
  | .fuseGo, h => upd_sound (fun _ h => Dev.fuseGo_sound h) hs h
  | .fuseBlowDone, h => upd_sound (fun _ h => Dev.fuseDone_sound h) hs h
  | .attest, h => upd_sound (fun _ h => Dev.attest_sound h) hs h
  | .attestDone, h => upd_sound (fun _ h => Dev.attestDone_sound h) hs h
  | .sigreqWrite _ _, h => upd_sound (fun _ h => Dev.sigreqWrite_sound h ..) hs h
  | .registerWrite _ _ _ _ _, h => upd_sound (fun _ h => Dev.portWrite_sound (Dev.atTime_sound h _) ..) hs h
  | .lowHalfRead _ _ _, h => upd_sound (fun _ h => Dev.portRead_sound h ..) hs h
  | .mgmtAccess _ _ _ _, h => upd_sound (fun _ h => Dev.mgmtAccess_sound h ..) hs h
  | .jtagAccess _ _, h => updAlways_sound (fun _ h => sound_of_ite (Dev.ret_sound h _) (Dev.jtag_sound h ..)) hs h
  | .csi2LinkTrained _ _, h => upd_sound (fun _ h => Dev.linkUpDown_sound h ..) hs h
  | .hostLinkTrained _ _, h => upd_sound (fun _ h => Dev.linkTrained_sound h ..) hs h
  | .errInRise _, h => upd_sound (fun _ h => Dev.errInRise_sound h ..) hs h
  | .pwrAlertRelease _, h => upd_sound (fun _ h => Dev.alertRelease_sound h ..) hs h
  | .tripCauseEnd _ _ _, h => upd_sound (fun _ h => Dev.tripEnd_sound h ..) hs h
  | .thermWarnClear _ _ _, h => upd_sound (fun _ h => Dev.warnClear_sound h ..) hs h
  | .dieLost _ _, h => upd_sound (fun _ h => Dev.loseDie_sound h ..) hs h
  | .pullRequestArrival _ _ _ _ _ _ _ _, h => upd_sound (fun _ h => Dev.pullRequest_sound h ..) hs h
  | .announceTransmit _ _, h => upd_sound (fun _ h => Dev.announce_sound h ..) hs h

theorem Dev.idle_sound {d : Dev} (h : d.sound) : d.idle.sound := sound_of_ite h h

/-- Settles O3: every command keeps the invariant, and the idle step moves the time alone. -/
theorem everyStepKeepsTheBlockSound : Obligations.EveryStepKeepsTheBlockSound := by
  intro s t hs h
  unfold step at h
  split at h
  case h_1 =>
    cases h
    exact Dev.idle_sound hs
  case h_2 c cs _ => exact exec_sound (s := { s with pending := cs }) hs c h

end Sys2Proof.Machine
end

section
/-!
PROOFS. The fault collector: what FAULT_EVENT reports (O27), and injections, the error pin, snapshots and the end of a block reset (O29).
-/
namespace Sys2Proof.Machine

/-! ## The events of one cycle -/

theorem sortBy_pair_of_lt {α : Type} (key : α → Nat) {x y : α} (h : key y < key x) : sortBy key [x, y] = [y, x] := by
  simp [sortBy, h, Nat.not_le.mpr h]

theorem Dev.event_now (d : Dev) (e : FaultEv) : (d.event e).now = d.now := by
  obtain ⟨_, _, _, _, _, _, _, _, _, _, _, h⟩ := d.event_reactsOnly e
  rw [h]

/-- A second event of the same cycle finds its time reached. -/
theorem Dev.atTime_of_le {d : Dev} {t : Nat} (h : t ≤ d.now) : d.at_ t = d := by
  have hmax : Nat.max d.now t = d.now := Nat.max_eq_left h
  rw [Dev.at_, hmax]

theorem Dev.event_of_master_unknown (d : Dev) {e : FaultEv} (h : masterKnown e.master = false) : d.event e = d := by
  simp [Dev.event, h]

/-- An event that reports no fencing is received and no more. -/
theorem Dev.faultEvent_of_fencedBy_none (d : Dev) {src master : Nat} (addr acc t : Nat) (h : fencedBy src master = none) :
    d.faultEvent src master addr acc t = (d.at_ t).event ⟨src, master, addr, acc, t⟩ := by
  simp only [Dev.faultEvent, h]

/-- One that reports a fencing by another source than a failed test lets the fencing report itself, if there is one. -/
theorem Dev.faultEvent_of_fencedBy_some (d : Dev) {src master u : Nat} (addr acc t : Nat) (h : fencedBy src master = some u)
    (hs : src ≠ 0x045) :
    d.faultEvent src master addr acc t =
      if ((d.at_ t).fence u none).leap = d.leap then (d.at_ t).event ⟨src, master, addr, acc, t⟩ else (d.at_ t).fence u none := by
  simp only [Dev.faultEvent, h, if_neg hs]
  rfl

theorem Dev.faultEvent_of_testFailed (d : Dev) {master u : Nat} (addr acc t : Nat) (h : fencedBy 0x045 master = some u) :
    d.faultEvent 0x045 master addr acc t = ((d.at_ t).event ⟨0x045, master, addr, acc, t⟩).fence u none := by
  simp only [Dev.faultEvent, h, if_true]

theorem does_faultEvents {d : Dev} (evs : List Detection) (t : Nat) (ha : d.awake) : Does (.faultEvent evs t) d (d.faultEvents evs t) :=
  does_upd (f := fun d => d.faultEvents evs t) (fun _ => rfl) ha

/-! ## A one written to a SEVERE bit -/

theorem maskSrcs_two_pow (i : Nat) {j : Nat} (h : j < 32) : maskSrcs i (2 ^ j) = [32 * i + j] := by
  have one : ∀ j < 32, maskList (2 ^ j) 32 = [j] := by decide
  rw [maskSrcs, one j h, List.map_singleton]

theorem does_severeClear {d : Dev} (i : Nat) {j : Nat} (ha : d.awake) (h : j < 32) :
    Does (.severeClear i (2 ^ j)) d { d with
      coll := if d.coll.severe.getLsbD (32 * i + j) = true then
          Coll.setSrc { d.coll with severe := clrBit512 d.coll.severe (32 * i + j) } (32 * i + j)
            { d.coll.src (32 * i + j) with count := 0, winEnd := none }
        else d.coll } :=
  does_upd_eq (fun d => d.severeClear i (2 ^ j)) (fun _ => rfl) ha (by
    simp only [Dev.severeClear, maskSrcs_two_pow i h, List.foldl_cons, List.foldl_nil])

/-- Settles O27: the events of one command are received in the order of source and master, each at the time of the command, and the
clauses are the branches of one event's reception. -/
theorem faultEventsFenceAndKeepOrder : Obligations.FaultEventsFenceAndKeepOrder := by
  unfold Obligations.FaultEventsFenceAndKeepOrder
  refine ⟨?unlisted, ?ordered, ?fencing, ?severe⟩
  case unlisted =>
    intro d src master addr acc t ha hm hf
    have h := does_faultEvents [⟨src, master, addr, acc⟩] t ha
    have he : d.faultEvents [⟨src, master, addr, acc⟩] t = d.at_ t :=
      (Dev.faultEvent_of_fencedBy_none d addr acc t hf).trans (Dev.event_of_master_unknown _ hm)
    rwa [he] at h
  case ordered =>
    intro d a b t ha hlt hfa hfb hab
    have hsort : sortBy (fun e : Detection => e.src * 65536 + e.master) [b, a] = [a, b] :=
      sortBy_pair_of_lt _ (by omega)
    have h := does_faultEvents [b, a] t ha
    have hnow : t ≤ ((d.at_ t).event ⟨a.src, a.master, a.addr, a.acc, t⟩).now := by
      rw [Dev.event_now]
      exact Nat.le_max_right _ _
    rwa [Dev.faultEvents, hsort, List.foldl_cons, List.foldl_cons, List.foldl_nil,
      Dev.faultEvent_of_fencedBy_none _ _ _ _ hfa, Dev.faultEvent_of_fencedBy_none _ _ _ _ hfb, Dev.atTime_of_le hnow] at h
  case fencing =>
    intro d src master addr acc t u ha hf
    have h := does_faultEvents [⟨src, master, addr, acc⟩] t ha
    change Does _ d (d.faultEvent src master addr acc t) at h
    refine ⟨fun hs => ?_, fun hs hl => ?_, fun hs hl => ?_⟩
    · subst hs
      rwa [Dev.faultEvent_of_testFailed _ _ _ _ hf] at h
    · rwa [Dev.faultEvent_of_fencedBy_some _ _ _ _ hf hs, if_neg hl] at h
    · rwa [Dev.faultEvent_of_fencedBy_some _ _ _ _ hf hs, if_pos hl] at h
  case severe =>
    intro d i j ha _ hj
    have h := does_severeClear i ha hj
    refine ⟨fun hs => ?_, fun hs => ?_⟩
    · rwa [hs, if_pos rfl] at h
    · rwa [hs, if_neg (by decide)] at h

/-! ## Injections and the error pin -/

/-- An event of a known source and a hub unit: its source is pending, an empty record takes it, and memory and modules stay. -/
theorem Dev.event_hub_effect (d : Dev) (e : FaultEv) (hr : d.coll.ready = true) (hk : sourceKnown e.src = true)
    (hm : masterKnown e.master = true) (h7 : 7 ≤ unitKind e.master) :
    (d.event e).coll.pending = setBit512 d.coll.pending e.src ∧
    (d.coll.first = none → (d.event e).coll.first.map FirstRec.ev = some e) ∧ sameMemory d (d.event e) ∧ (d.event e).mods = d.mods := by
  obtain ⟨_, _, _, hc⟩ := Dev.event_coll d e hr hk hm
  obtain ⟨_, _, _, _, _, hh⟩ := Dev.event_hub d e h7
  refine ⟨by rw [hc], fun hf => ?_, ?_, by rw [hh]⟩
  · rw [hc]
    exact congrArg (Option.map FirstRec.ev) (Coll.receive_first_none d.coll e hf).1
  · rw [hh]
    exact ⟨rfl, rfl⟩

/-- An injection by a requester that may make one, of a source of Table 1. -/
theorem Dev.inject_of_known {d : Dev} {who : Who} {src : Nat} (t : Nat)
    (hw : (who = .pf ∧ d.on F.FLT_CTRL.LOCK = false) ∨ who = .computus) (hk : sourceKnown src = true) :
    d.inject who src t = ((d.at_ t).set F.FLT_INJECT.SOURCE src).event ⟨src, 0x80FF, 0, 7, t⟩ := by
  rcases hw with ⟨rfl, hl⟩ | rfl
  · simp [Dev.inject, pfOrC, Dev.lockedOut, hl, hk]
  · simp [Dev.inject, pfOrC, Dev.lockedOut, hk]

/-- A falling level while the pin was high and enabled. -/
theorem Dev.errInEdge_of_enabled {d : Dev} (t : Nat) (hp : d.on F.FLT_PIN.ERR_IN = false) (he : d.on F.FLT_PIN.ERR_IN_EN = true) :
    d.errInEdge t = ((d.at_ t).set F.FLT_PIN.ERR_IN 1).event ⟨0x1F8, 0x80A0, 0, 6, t⟩ := by
  have hs : ((d.at_ t).set F.FLT_PIN.ERR_IN 1).on F.FLT_PIN.ERR_IN_EN = true := by
    rw [Dev.on, Dev.f_set_apart _ _ _ _ rfl rfl rfl]
    exact he
  simp only [Dev.errInEdge, hp, hs, Bool.false_eq_true, if_false, if_true]

/-! ## The end of a block reset -/

theorem mfind_map_values {α : Type} (f : Nat × α → Nat × α) (hf : ∀ p, (f p).1 = p.1) (m : List (Nat × α)) (k : Nat) :
    mfind (m.map f) k = (mfind m k).map (fun v => (f (k, v)).2) := by
  induction m with
  | nil => rfl
  | cons p m ih =>
    have hp : f p = (p.1, (f p).2) := Prod.ext (hf p) rfl
    rw [List.map_cons, hp]
    by_cases h : p.1 = k
    · subst h
      simp [mfind]
    · simp only [mfind, if_neg h, ih]

/-- Emptying on-chip memories changes on-chip bytes alone. -/
theorem Dev.emptyMems_shape (d : Dev) (us : List Nat) :
    ∃ sram fresh, d.emptyMems us = { d with mem := { d.mem with sram := sram }, fresh := fresh } := by
  refine foldl_induct (fun e => ∃ sram fresh, e = { d with mem := { d.mem with sram := sram }, fresh := fresh }) Dev.forgetMem ?_ _
    ⟨d.mem.sram, d.fresh, rfl⟩
  rintro _ u ⟨sram, fresh, rfl⟩
  exact ⟨_, _, rfl⟩

/-- What the end of a block reset leaves: the block is out of reset, and what waited for it is a candidate again. -/
theorem Dev.blockResetDone_shape (d : Dev) {unit : Nat} (h : unit ∈ d.coll.blockResets) :
    ∃ sram fresh, d.blockResetDone unit = { d with
      coll := { d.coll with blockResets := d.coll.blockResets.filter (fun b => b != unit) }
      runs := d.runs.map (fun p => if p.2.phase = .blockReset unit then (p.1, { p.2 with phase := .cand }) else p)
      mem := { d.mem with sram := sram }, fresh := fresh } := by
  have hc : d.coll.blockResets.contains unit = true := List.contains_iff_mem.mpr h
  obtain ⟨sram, fresh, he⟩ := Dev.emptyMems_shape
    { d with coll := { d.coll with blockResets := d.coll.blockResets.filter (fun b => b != unit) } }
    ((cluMems (List.range d.nClus) ++ regMems (List.range d.nReg)).filter (blockHolds unit))
  refine ⟨sram, fresh, ?_⟩
  rw [Dev.blockResetDone, hc, if_neg (by decide)]
  exact congrArg (fun e : Dev => ({ e with runs := e.runs.map (fun p =>
    if p.2.phase = .blockReset unit then (p.1, { p.2 with phase := .cand }) else p) } : Dev)) he

/-- A command that waited for the block is a candidate; nothing else of it changes. -/
theorem mfind_released {runs : List (Nat × Run)} {unit id : Nat} {r : Run} (hr : mfind runs id = some r)
    (hp : r.phase = .blockReset unit) :
    mfind (runs.map (fun p => if p.2.phase = .blockReset unit then (p.1, { p.2 with phase := .cand }) else p)) id =
      some { r with phase := .cand } := by
  rw [mfind_map_values _ (fun p => by split <;> rfl), hr, Option.map_some, if_pos hp]

/-- Settles O29: an injection and a falling level are one event of a hub unit, a rising level and a snapshot are one write, and the end of a
block reset changes on-chip bytes and the phase of the commands that waited for it. -/
theorem injectionsPinsSnapshotsAndBlockResets : Obligations.InjectionsPinsSnapshotsAndBlockResets := by
  unfold Obligations.InjectionsPinsSnapshotsAndBlockResets
  refine ⟨?inject, ?falls, ?rises, ?snapPf, ?snapC, ?reset⟩
  case inject =>
    intro d who src t ha hw hk hr
    refine completes_upd (f := fun d => d.inject who src t) (fun _ => rfl) ha ?_
    rw [Dev.inject_of_known t hw hk]
    exact Dev.event_hub_effect ((d.at_ t).set F.FLT_INJECT.SOURCE src) ⟨src, 0x80FF, 0, 7, t⟩ hr hk
      (by decide : masterKnown 0x80FF = true) (by decide : 7 ≤ unitKind 0x80FF)
  case falls =>
    intro d t ha hp he hr
    refine completes_upd (f := fun d => d.errInEdge t) (fun _ => rfl) ha ?_
    rw [Dev.errInEdge_of_enabled t hp he]
    obtain ⟨hpend, hfirst, hmem, -⟩ := Dev.event_hub_effect ((d.at_ t).set F.FLT_PIN.ERR_IN 1) ⟨0x1F8, 0x80A0, 0, 6, t⟩ hr
      (by decide : sourceKnown 0x1F8 = true) (by decide : masterKnown 0x80A0 = true) (by decide : 7 ≤ unitKind 0x80A0)
    exact ⟨hpend, hfirst, hmem⟩
  case rises =>
    intro d t ha
    refine completes_upd (f := fun d => d.errInRise t) (fun _ => rfl) ha ⟨?_, ?_, ?_, rfl, rfl, rfl⟩
    · exact congrArg (fun n : Nat => n != 0) (Dev.f_set_same (d.at_ t) F.FLT_PIN.ERR_IN 0 rfl)
    · exact Dev.f_set_apart (d.at_ t) F.FLT_PIN.ERR_IN F.FLT_PIN.ERR_IN_EN 0 rfl rfl rfl
    · intro o ho
      exact Dev.reg_set_ne (d.at_ t) _ _ _ (List.ne_of_not_mem_cons ho)
  case snapPf =>
    intro d r ha hf
    exact does_upd_eq (fun d => d.recordSnapshot .pf) (fun _ => rfl) ha (by simp only [Dev.recordSnapshot, hf])
  case snapC =>
    intro d r ha hf
    exact does_upd_eq (fun d => d.recordSnapshot .computus) (fun _ => rfl) ha (by simp only [Dev.recordSnapshot, hf])
  case reset =>
    intro d unit id r ha hu hr hp
    refine completes_upd (f := fun d => d.blockResetDone unit) (fun _ => rfl) ha ?_
    obtain ⟨sram, fresh, he⟩ := Dev.blockResetDone_shape d hu
    rw [he]
    exact ⟨by simp, mfind_released hr hp, ⟨rfl, rfl⟩, rfl, rfl⟩

end Sys2Proof.Machine
end

section
/-!
PROOFS. Leap (O24): what a change of one cluster's binding leaves, and the rotation, the switchover and the loan as such changes.
-/
namespace Sys2Proof.Machine

/-! ## The binding of one cluster -/

theorem Dev.clu_modClu_same {d : Dev} {k : Nat} (f : Clu → Clu) (h : k < d.leap.clus.length) : (d.modClu k f).clu k = f (d.clu k) := by
  simp [Dev.clu, Dev.modClu, Dev.setClu, List.getD_eq_getElem?_getD, h]

theorem Dev.clu_modClu_ne (d : Dev) {k j : Nat} (f : Clu → Clu) (h : j ≠ k) : (d.modClu k f).clu j = d.clu j := by
  simp [Dev.clu, Dev.modClu, Dev.setClu, List.getD_eq_getElem?_getD, List.getElem?_set_ne h.symm]

theorem Dev.modClu_clus_length (d : Dev) (k : Nat) (f : Clu → Clu) : (d.modClu k f).leap.clus.length = d.leap.clus.length :=
  List.length_set ..

/-- A cluster in service is one of the part's. -/
theorem Dev.lt_of_cluOut_false {d : Dev} {k : Nat} (h : d.cluOut k = false) : k < 24 := by
  have hn : k < d.nClus := by
    simp only [Dev.cluOut, Bool.or_eq_false_iff, decide_eq_false_iff_not] at h
    omega
  have : d.nClus ≤ 24 := by
    unfold Dev.nClus
    split <;> decide
  omega

/-- A cluster that is not in the map has no loan. -/
theorem Dev.lt_of_loan_isSome {d : Dev} {k : Nat} {l : Loan} (h : (d.clu k).loan = some l) : k < d.leap.clus.length := by
  by_contra hk
  rw [Dev.clu, List.getD_eq_default _ _ (Nat.le_of_not_lt hk)] at h
  cases h

theorem Dev.unitSt_modUnit_same (d : Dev) (u : Nat) (f : UnitSt → UnitSt) : (d.modUnit u f).unitSt u = f (d.unitSt u) :=
  mget_mput_same _ _ _ _

/-- Accounting for service time changes the unit records alone. -/
theorem Dev.track_shape (d : Dev) (us : List Nat) (e : Dev) :
    ∃ units, d.track us e = { e with leap := { e.leap with units := units } } := by
  refine foldl_induct (fun x => ∃ units, x = { e with leap := { e.leap with units := units } }) _ ?_ us ⟨e.leap.units, rfl⟩
  rintro _ u ⟨units, rfl⟩
  simp only
  split
  · exact ⟨_, rfl⟩
  · split
    · exact ⟨_, rfl⟩
    · exact ⟨_, rfl⟩

/-- Row repairs change the redundant rows left, the unit records and the lists of rows due. -/
theorem Dev.applyRows_shape (d : Dev) (p : Nat → Bool) :
    ∃ used units due ready, d.applyRows p = { d with
      leap := { d.leap with macroUsed := used, units := units }
      mem := { d.mem with sramRepairDue := due, rowsReady := ready } } := by
  have hfold : ∀ l : List Nat, ∃ used units, l.foldl (fun (d : Dev) key =>
      let d := { d with leap := { d.leap with macroUsed := mset d.leap.macroUsed (keyMacro key) (mget 0 d.leap.macroUsed (keyMacro key) + 1) } }
      d.modUnit (keyUnit key) (fun s => { s with rowsUsed := Nat.min 255 (s.rowsUsed + 1) })) d =
        { d with leap := { d.leap with macroUsed := used, units := units } } := fun l => by
    refine foldl_induct (fun x => ∃ used units, x = { d with leap := { d.leap with macroUsed := used, units := units } }) _ ?_ l
      ⟨d.leap.macroUsed, d.leap.units, rfl⟩
    rintro _ key ⟨used, units, rfl⟩
    exact ⟨_, _, rfl⟩
  obtain ⟨used, units, h⟩ := hfold (d.mem.sramRepairDue.filter (fun key => p key))
  exact ⟨used, units, _, _, congrArg (fun e : Dev => ({ e with mem := { e.mem with
    sramRepairDue := e.mem.sramRepairDue.filter (fun key => !p key),
    rowsReady := e.mem.rowsReady.filter (fun key => !p key) } } : Dev)) h⟩

/-- What a test and the accounting for service time can change: unit records, redundant rows, microcode, and the rows due for repair. -/
def RecordsOnly (d e : Dev) : Prop :=
  ∃ used units code due ready, e = { d with
    leap := { d.leap with macroUsed := used, units := units, oldCode := code }
    mem := { d.mem with sramRepairDue := due, rowsReady := ready } }

theorem RecordsOnly.trans {a b c : Dev} (h₁ : RecordsOnly a b) (h₂ : RecordsOnly b c) : RecordsOnly a c := by
  obtain ⟨_, _, _, _, _, rfl⟩ := h₁
  obtain ⟨used, units, code, due, ready, rfl⟩ := h₂
  exact ⟨used, units, code, due, ready, rfl⟩

theorem RecordsOnly.clu_eq {d e : Dev} (h : RecordsOnly d e) (j : Nat) : e.clu j = d.clu j := by
  obtain ⟨_, _, _, _, _, rfl⟩ := h
  rfl

theorem RecordsOnly.keeps {d e : Dev} (h : RecordsOnly d e) : sameMemory d e ∧ e.regs = d.regs ∧ e.runs = d.runs := by
  obtain ⟨_, _, _, _, _, rfl⟩ := h
  exact ⟨⟨rfl, rfl⟩, rfl, rfl⟩

theorem Dev.track_recordsOnly (d : Dev) (us : List Nat) (e : Dev) : RecordsOnly e (d.track us e) := by
  obtain ⟨units, h⟩ := d.track_shape us e
  rw [h]
  exact ⟨_, units, _, _, _, rfl⟩

theorem Dev.underTest_recordsOnly (d : Dev) (u : Nat) : RecordsOnly d (d.underTest u) := by
  obtain ⟨used, units, due, ready, h⟩ := d.applyRows_shape (fun key => keyUnit key == u)
  rw [Dev.underTest, h]
  exact ⟨used, _, _, due, ready, rfl⟩

theorem Dev.underTest_testing (d : Dev) (u : Nat) : ((d.underTest u).unitSt u).testing = true := by
  unfold Dev.underTest
  dsimp only
  rw [Dev.unitSt_modUnit_same]

/-- A unit's number binds to another and the unit goes under test: what that leaves. -/
theorem Dev.rebind_effect {d : Dev} {k : Nat} (us : List Nat) (f : Clu → Clu) (u : Nat) (h : k < d.leap.clus.length) :
    let e := ((d.track us (d.modClu k f)).underTest u).journalLeap
    e.clu k = f (d.clu k) ∧ (∀ j, j ≠ k → e.clu j = d.clu j) ∧ (e.unitSt u).testing = true ∧ e.leap.journal = e.leap.clus ∧
      sameMemory d e ∧ e.regs = d.regs ∧ e.runs = d.runs := by
  have hr : RecordsOnly (d.modClu k f) ((d.track us (d.modClu k f)).underTest u) :=
    (d.track_recordsOnly us _).trans (Dev.underTest_recordsOnly _ u)
  exact ⟨(hr.clu_eq k).trans (Dev.clu_modClu_same f h), fun j hj => (hr.clu_eq j).trans (Dev.clu_modClu_ne d f hj),
    Dev.underTest_testing _ u, rfl, hr.keeps⟩

/-! ## Rotation -/

theorem Dev.oldest_atTime (d : Dev) (t : Nat) (unit : Nat → Nat) (l : List Nat) : (d.at_ t).oldest unit l = d.oldest unit l := by
  induction l with
  | nil => rfl
  | cons p l ih =>
    simp only [Dev.oldest, ih]
    rfl

theorem Dev.oldest_eq_none {d : Dev} {unit : Nat → Nat} {l : List Nat} (h : d.oldest unit l = none) : l = [] := by
  cases l with
  | nil => rfl
  | cons p l =>
    unfold Dev.oldest at h
    split at h <;> cases h

/-- The chosen unit is one of the list, and no unit of the list has an older full pass. -/
theorem Dev.oldest_spec (d : Dev) (unit : Nat → Nat) (l : List Nat) (p : Nat) (h : d.oldest unit l = some p) :
    p ∈ l ∧ ∀ q ∈ l, (d.unitSt (unit p)).lastPass ≤ (d.unitSt (unit q)).lastPass := by
  induction l generalizing p with
  | nil => cases h
  | cons x l ih =>
    unfold Dev.oldest at h
    split at h
    · next hn =>
      cases h
      simp [Dev.oldest_eq_none hn]
    · next q hq =>
      obtain ⟨hmem, hmin⟩ := ih q hq
      simp only [Option.some.injEq] at h
      split at h
      · next hlt =>
        subst h
        have hxq : (d.unitSt (unit x)).lastPass ≤ (d.unitSt (unit q)).lastPass := by omega
        refine ⟨List.mem_cons_self, fun y hy => ?_⟩
        rcases List.mem_cons.mp hy with rfl | hy
        · exact le_rfl
        · exact hxq.trans (hmin y hy)
      · next hge =>
        subst h
        refine ⟨List.mem_cons_of_mem _ hmem, fun y hy => ?_⟩
        rcases List.mem_cons.mp hy with rfl | hy
        · omega
        · exact hmin y hy

theorem Dev.rotationDue_engine {d : Dev} {k t : Nat} (hc : d.cluOut k = false) (hd : d.diesOn = true) (hs : (d.clu k).spare ≠ 7)
    (hl : (d.clu k).lent = false) (hn : (d.clu k).engDue = none) (ht : (d.clu k).engPrev + d.rotNs ≤ t) :
    d.rotationDue k false t =
      (d.at_ t).modClu k (fun c => { c with engDue := d.oldest (engUnit k) (c.le.filter (fun p => p != 7)) }) := by
  have hc' : (d.at_ t).cluOut k = false := hc
  have hd' : (d.at_ t).diesOn = true := hd
  have ht' : ¬ t < (d.clu k).engPrev + (d.at_ t).rotNs := Nat.not_lt.mpr ht
  simp [Dev.rotationDue, hc', hd', hs, hl, hn, ht', Dev.oldest_atTime]

theorem Dev.rotationDue_core {d : Dev} {k t : Nat} (hc : d.cluOut k = false) (hd : d.diesOn = true) (hs : (d.clu k).pcSpare ≠ 3)
    (hn : (d.clu k).pcDue = none) (ht : (d.clu k).pcPrev + d.rotNs ≤ t) :
    d.rotationDue k true t =
      (d.at_ t).modClu k (fun c => { c with pcDue := d.oldest (pcUnit k) (c.pc.filter (fun p => p != 3)) }) := by
  have hc' : (d.at_ t).cluOut k = false := hc
  have hd' : (d.at_ t).diesOn = true := hd
  have ht' : ¬ t < (d.clu k).pcPrev + (d.at_ t).rotNs := Nat.not_lt.mpr ht
  simp [Dev.rotationDue, hc', hd', hs, hn, ht', Dev.oldest_atTime]

theorem Dev.rotate_engine {d : Dev} {k p t : Nat} (hc : d.cluOut k = false) (hd : d.diesOn = true) (hp : (d.clu k).engDue = some p)
    (hs : (d.clu k).spare ≠ 7) (hl : (d.clu k).lent = false) (htest : (d.unitSt (engUnit k (d.clu k).spare)).testing = false)
    (hm : p ∈ (d.clu k).le) (hle : d.leHeld (4 * k + (d.clu k).le.idxOf p) = false) (hu : d.unitHeld (engUnit k p) = false)
    (hk : d.unitKept (engUnit k p) = false) (hsp : d.unitHeld (engUnit k (d.clu k).spare) = false) :
    d.rotate k false t = (((d.at_ t).track (cluUnits k) ((d.at_ t).modClu k (fun c => { c with
      le := c.le.map (fun x => if x = p then c.spare else x), spare := p, engDue := none, engPrev := t }))).underTest
        (engUnit k p)).journalLeap := by
  have hc' : (d.at_ t).cluOut k = false := hc
  have hd' : (d.at_ t).diesOn = true := hd
  have free : ¬ ((d.clu k).spare = 7 ∨ (d.clu k).lent ∨ ((d.at_ t).unitSt (engUnit k (d.clu k).spare)).testing ∨
      ¬ (d.clu k).le.contains p ∨ (d.at_ t).leHeld (4 * k + (d.clu k).le.idxOf p) ∨ (d.at_ t).unitHeld (engUnit k p) ∨
      (d.at_ t).unitKept (engUnit k p) ∨ (d.at_ t).unitHeld (engUnit k (d.clu k).spare)) := by
    simp only [not_or, not_not, Bool.not_eq_true, List.contains_iff_mem]
    exact ⟨hs, hl, htest, hm, hle, hu, hk, hsp⟩
  simp only [Dev.rotate, hc', hd', hp, if_neg free]
  rfl

theorem Dev.rotate_core {d : Dev} {k p t : Nat} (hc : d.cluOut k = false) (hd : d.diesOn = true) (hp : (d.clu k).pcDue = some p)
    (hs : (d.clu k).pcSpare ≠ 3) (htest : (d.unitSt (pcUnit k (d.clu k).pcSpare)).testing = false) (hm : p ∈ (d.clu k).pc)
    (hle : d.coreHeld (2 * k + (d.clu k).pc.idxOf p) = false) (hu : d.unitHeld (pcUnit k p) = false)
    (hk : d.unitKept (pcUnit k p) = false) (hsp : d.unitHeld (pcUnit k (d.clu k).pcSpare) = false) :
    d.rotate k true t = (((d.at_ t).track (cluUnits k) ((d.at_ t).modClu k (fun c => { c with
      pc := c.pc.map (fun x => if x = p then c.pcSpare else x), pcSpare := p, pcDue := none, pcPrev := t }))).underTest
        (pcUnit k p)).journalLeap := by
  have hc' : (d.at_ t).cluOut k = false := hc
  have hd' : (d.at_ t).diesOn = true := hd
  have free : ¬ ((d.clu k).pcSpare = 3 ∨ ((d.at_ t).unitSt (pcUnit k (d.clu k).pcSpare)).testing ∨ ¬ (d.clu k).pc.contains p ∨
      (d.at_ t).coreHeld (2 * k + (d.clu k).pc.idxOf p) ∨ (d.at_ t).unitHeld (pcUnit k p) ∨ (d.at_ t).unitKept (pcUnit k p) ∨
      (d.at_ t).unitHeld (pcUnit k (d.clu k).pcSpare)) := by
    simp only [not_or, not_not, Bool.not_eq_true, List.contains_iff_mem]
    exact ⟨hs, htest, hm, hle, hu, hk, hsp⟩
  simp only [Dev.rotate, hc', hd', hp, if_neg free]
  rfl

/-! ## Switchover -/

/-- The block after a switchover, before the report of a lost sequencer. -/
def Dev.switched (d : Dev) (k t : Nat) : Dev :=
  ((d.at_ t).track (cluUnits k) ((d.at_ t).modClu k (fun c => { c with seqActive := 1 - (d.clu k).seqActive }))).journalLeap

theorem Dev.switchover_fenced {d : Dev} {k : Nat} (t : Nat) (hc : d.cluOut k = false) (hf : (d.clu k).seqActive ∈ (d.clu k).seqFenced)
    (hs : 1 - (d.clu k).seqActive ∉ (d.clu k).seqFenced) :
    d.switchover k t = (d.switched k t).raise 0x081 (seqUnit k (1 - (d.clu k).seqActive)) 0 0 := by
  simp only [Dev.switchover, hc, hf, hs, decide_true, decide_false, Bool.or_self, Bool.true_or, Bool.not_true,
    Bool.false_eq_true, if_false, if_true, List.contains_eq_mem]
  rfl

theorem Dev.switchover_code {d : Dev} {k : Nat} (t : Nat) (hc : d.cluOut k = false) (hf : (d.clu k).seqActive ∉ (d.clu k).seqFenced)
    (hs : 1 - (d.clu k).seqActive ∉ (d.clu k).seqFenced) (ht : d.codeTurn k = true) : d.switchover k t = d.switched k t := by
  simp only [Dev.switchover, hc, hf, hs, ht, decide_false, Bool.or_self, Bool.false_or, Bool.not_true, Bool.false_eq_true, if_false,
    List.contains_eq_mem]
  rfl

theorem Dev.switchover_idle {d : Dev} {k : Nat} (t : Nat) (hf : (d.clu k).seqActive ∉ (d.clu k).seqFenced)
    (ht : d.codeTurn k = false) : d.switchover k t = d := by
  simp [Dev.switchover, hf, ht]

theorem Dev.switched_effect {d : Dev} {k : Nat} (t : Nat) (h : k < d.leap.clus.length) :
    (d.switched k t).clu k = { d.clu k with seqActive := 1 - (d.clu k).seqActive } ∧
      (∀ j, j ≠ k → (d.switched k t).clu j = d.clu j) ∧ (d.switched k t).coll = d.coll ∧ (d.switched k t).mem = d.mem ∧
      (d.switched k t).regs = d.regs ∧ (d.switched k t).runs = d.runs := by
  obtain ⟨units, ht⟩ := (d.at_ t).track_shape (cluUnits k) ((d.at_ t).modClu k (fun c => { c with seqActive := 1 - (d.clu k).seqActive }))
  have hclu : ∀ j, (d.switched k t).clu j = ((d.at_ t).modClu k (fun c => { c with seqActive := 1 - (d.clu k).seqActive })).clu j :=
    fun j => by
      rw [Dev.switched, ht]
      rfl
  refine ⟨(hclu k).trans (Dev.clu_modClu_same (d := d.at_ t) _ h), fun j hj => (hclu j).trans (Dev.clu_modClu_ne (d.at_ t) _ hj), ?_⟩
  rw [Dev.switched, ht]
  exact ⟨rfl, rfl, rfl, rfl⟩

/-- A sequencer of a cluster of the part is a unit that may be reported. -/
theorem masterKnown_seqUnit {k s : Nat} (hk : k < 24) (hs : s < 2) : masterKnown (seqUnit k s) = true := by
  revert s
  revert k
  decide

/-- An event changes no binding. -/
theorem Dev.event_clu (d : Dev) (e : FaultEv) (j : Nat) : (d.event e).clu j = d.clu j := by
  obtain ⟨_, _, _, _, _, _, _, _, _, _, _, h⟩ := d.event_reactsOnly e
  rw [h]
  rfl

theorem Dev.event_sameMemory (d : Dev) (e : FaultEv) : sameMemory d (d.event e) := by
  obtain ⟨_, _, _, _, _, _, _, _, _, _, _, h⟩ := d.event_reactsOnly e
  rw [h]
  exact ⟨rfl, rfl⟩

theorem Dev.event_pending {d : Dev} {e : FaultEv} (hr : d.coll.ready = true) (hk : sourceKnown e.src = true)
    (hm : masterKnown e.master = true) : (d.event e).coll.pending = setBit512 d.coll.pending e.src := by
  obtain ⟨_, _, _, h⟩ := Dev.event_coll d e hr hk hm
  rw [h]

/-! ## Loans -/

theorem Dev.lender_spec {d : Dev} {k j : Nat} (h : d.lender k = some j) : j ≠ k ∧ d.cluOut j = false := by
  have := List.find?_some h
  simp only [Bool.and_eq_true, decide_eq_true_eq, Bool.not_eq_true'] at this
  tauto

theorem Dev.loanBegin_eq {d : Dev} {k p j : Nat} (t : Nat) (hc : d.cluOut k = false) (hd : d.diesOn = true)
    (ha : (d.clu k).loanAsk = some p) (hm : p ∈ (d.clu k).le) (hl : (d.clu k).loan = none)
    (hle : d.leHeld (4 * k + (d.clu k).le.idxOf p) = false) (hs : (d.unitSt (engUnit k p)).slicing = false)
    (hk : d.unitKept (engUnit k p) = false) (hj : d.lender k = some j) :
    d.loanBegin k t = ((d.at_ t).track [engUnit k p, engUnit j (d.clu j).spare]
      (((d.at_ t).modClu j (fun c => { c with lent := true, engDue := none })).modClu k (fun c =>
        { c with loan := some ⟨(d.clu k).le.idxOf p, p, j % 4, (d.clu j).spare, t, none⟩, loanAsk := none }))).modUnit
      (engUnit k p) (fun s => { s with testing := true, slices := 0 }) := by
  have hm' : (d.clu k).le.contains p = true := List.contains_iff_mem.mpr hm
  simp only [Dev.loanBegin, ha, hc, hd, hm', hl, hle, hk, hs, hj, Option.isSome_none, Bool.not_true, Bool.or_self, Bool.false_eq_true,
    if_false]
  rfl

theorem Dev.loanEnd_eq {d : Dev} {k t : Nat} {l : Loan} (hd : d.diesOn = true) (hl : (d.clu k).loan = some l)
    (ht : l.tested.isSome = true) (hb : l.began + d.rotNs ≤ t) (hle : d.leHeld (4 * k + l.le) = false)
    (hk : d.unitKept (engUnit (k / 4 * 4 + l.lender) l.phys) = false) :
    d.loanEnd k t = ((d.at_ t).track (cluUnits k ++ cluUnits (k / 4 * 4 + l.lender))
      (((d.at_ t).modClu k (fun c => { c with loan := none })).modClu (k / 4 * 4 + l.lender)
        (fun c => Clu.bringIn { c with lent := false, engPrev := t }))).journalLeap := by
  have hn : l.tested.isNone = false := by
    rw [Option.isNone_eq_false_iff]
    exact ht
  have hb' : decide (t < l.began + d.rotNs) = false := decide_eq_false (Nat.not_lt.mpr hb)
  simp only [Dev.loanEnd, hl, hd, hn, hb', hle, hk, Bool.not_true, Bool.or_self, Bool.false_eq_true, if_false]

/-- Changes of two clusters leave each its own and every other cluster alone. -/
theorem Dev.clu_modClu_modClu {d : Dev} {k j : Nat} (f g : Clu → Clu) (hk : k < d.leap.clus.length) (hj : j < d.leap.clus.length)
    (hne : j ≠ k) :
    ((d.modClu k f).modClu j g).clu k = f (d.clu k) ∧ ((d.modClu k f).modClu j g).clu j = g (d.clu j) ∧
      ∀ i, i ≠ k → i ≠ j → ((d.modClu k f).modClu j g).clu i = d.clu i := by
  refine ⟨?_, ?_, fun i hik hij => ?_⟩
  · rw [Dev.clu_modClu_ne _ _ hne.symm, Dev.clu_modClu_same f hk]
  · rw [Dev.clu_modClu_same g (by rwa [Dev.modClu_clus_length]), Dev.clu_modClu_ne _ _ hne]
  · rw [Dev.clu_modClu_ne _ _ hij, Dev.clu_modClu_ne _ _ hik]

theorem Clu.bringIn_of_no_place {c : Clu} (h : c.spare = 7 ∨ 7 ∉ c.le) : c.bringIn = c := by
  rcases h with h | h <;> simp [Clu.bringIn, h]

theorem Clu.bringIn_of_place {c : Clu} (hs : c.spare ≠ 7) (hm : 7 ∈ c.le) :
    c.bringIn = { c with le := c.le.set (c.le.idxOf 7) c.spare, spare := 7, engDue := none } := by
  simp [Clu.bringIn, hs, hm]

/-- Settles O24: each command of Leap changes the binding of the clusters it names, and beside it unit records, the journal and, for a lost
sequencer, the collector. -/
theorem leapRotatesAndLends : Obligations.LeapRotatesAndLends := by
  unfold Obligations.LeapRotatesAndLends
  refine ⟨?due, Dev.oldest_spec, ?rotation, ?switchover, ?loanBegin, ?loanEnd, ?bringIn⟩
  case due =>
    intro d k t ha hlen hc hd
    have hk : k < (d.at_ t).leap.clus.length := hlen ▸ Dev.lt_of_cluOut_false hc
    refine ⟨fun hs hl hn ht => completes_upd (f := fun d => d.rotationDue k false t) (fun _ => rfl) ha ?_,
      fun hs hn ht => completes_upd (f := fun d => d.rotationDue k true t) (fun _ => rfl) ha ?_⟩
    · rw [Dev.rotationDue_engine hc hd hs hl hn ht]
      exact ⟨Dev.clu_modClu_same _ hk, fun j hj => Dev.clu_modClu_ne (d.at_ t) _ hj, rfl, rfl, rfl⟩
    · rw [Dev.rotationDue_core hc hd hs hn ht]
      exact ⟨Dev.clu_modClu_same _ hk, fun j hj => Dev.clu_modClu_ne (d.at_ t) _ hj, rfl, rfl, rfl⟩
  case rotation =>
    intro d k p t ha hlen hc hd
    have hk : k < (d.at_ t).leap.clus.length := hlen ▸ Dev.lt_of_cluOut_false hc
    refine ⟨fun hp hs hl htest hm hle hu hkept hsp => completes_upd (f := fun d => d.rotate k false t) (fun _ => rfl) ha ?_,
      fun hp hs htest hm hle hu hkept hsp => completes_upd (f := fun d => d.rotate k true t) (fun _ => rfl) ha ?_⟩
    · rw [Dev.rotate_engine hc hd hp hs hl htest hm hle hu hkept hsp]
      exact Dev.rebind_effect (cluUnits k) _ (engUnit k p) hk
    · rw [Dev.rotate_core hc hd hp hs htest hm hle hu hkept hsp]
      exact Dev.rebind_effect (cluUnits k) _ (pcUnit k p) hk
  case switchover =>
    intro d k t ha hlen hc
    have hk : k < 24 := Dev.lt_of_cluOut_false hc
    obtain ⟨hclu, hothers, hcoll, hmem, hregs, hruns⟩ := Dev.switched_effect (d := d) (k := k) t (hlen ▸ hk)
    refine ⟨fun hf hs hr => completes_upd (f := fun d => d.switchover k t) (fun _ => rfl) ha ?_,
      fun hf hs ht => completes_upd (f := fun d => d.switchover k t) (fun _ => rfl) ha ?_,
      fun hf ht => does_upd_eq (fun d => d.switchover k t) (fun _ => rfl) ha (Dev.switchover_idle t hf ht)⟩
    · rw [Dev.switchover_fenced t hc hf hs]
      have hm := masterKnown_seqUnit (s := 1 - (d.clu k).seqActive) hk (by omega)
      obtain ⟨hbm, host⟩ := Dev.event_sameMemory (d.switched k t) ⟨0x081, seqUnit k (1 - (d.clu k).seqActive), 0, 0, (d.switched k t).now⟩
      refine ⟨(Dev.event_clu _ _ _).trans hclu, fun j hj => (Dev.event_clu _ _ _).trans (hothers j hj), ?_, ?_⟩
      · rw [← hcoll]
        exact Dev.event_pending (by rw [hcoll]; exact hr) (by decide : sourceKnown 0x081 = true) hm
      · exact ⟨hbm.trans (by rw [hmem]), host.trans (by rw [hmem])⟩
    · rw [Dev.switchover_code t hc hf hs ht]
      exact ⟨hclu, hothers, hcoll, hmem, hregs, hruns⟩
  case loanBegin =>
    intro d k p j t ha hlen hc hd hask hm hl hle hs hkept hj
    refine completes_upd (f := fun d => d.loanBegin k t) (fun _ => rfl) ha ?_
    rw [Dev.loanBegin_eq t hc hd hask hm hl hle hs hkept hj]
    obtain ⟨hne, hjOut⟩ := Dev.lender_spec hj
    obtain ⟨hcj, hck, hci⟩ := Dev.clu_modClu_modClu (d := d.at_ t) (k := j) (j := k) (fun c => { c with lent := true, engDue := none })
      (fun c => { c with loan := some ⟨(d.clu k).le.idxOf p, p, j % 4, (d.clu j).spare, t, none⟩, loanAsk := none })
      (hlen ▸ Dev.lt_of_cluOut_false hjOut) (hlen ▸ Dev.lt_of_cluOut_false hc) hne.symm
    obtain ⟨units, ht⟩ := (d.at_ t).track_shape [engUnit k p, engUnit j (d.clu j).spare]
      (((d.at_ t).modClu j (fun c => { c with lent := true, engDue := none })).modClu k (fun c =>
        { c with loan := some ⟨(d.clu k).le.idxOf p, p, j % 4, (d.clu j).spare, t, none⟩, loanAsk := none }))
    rw [ht]
    exact ⟨congrArg Clu.loan hck, congrArg Clu.loanAsk hck, congrArg Clu.lent hcj, (congrArg Clu.le hck).trans rfl,
      by rw [Dev.unitSt_modUnit_same], fun i hik hij => hci i hij hik, rfl, rfl, rfl⟩
  case loanEnd =>
    intro d k t l ha hlen hd hl ht hb hle j hne hj hkept
    refine completes_upd (f := fun d => d.loanEnd k t) (fun _ => rfl) ha ?_
    rw [Dev.loanEnd_eq hd hl ht hb hle hkept]
    obtain ⟨hck, hcj, hci⟩ := Dev.clu_modClu_modClu (d := d.at_ t) (k := k) (j := j) (fun c => { c with loan := none })
      (fun c => Clu.bringIn { c with lent := false, engPrev := t }) (Dev.lt_of_loan_isSome hl) (hlen ▸ hj) hne
    obtain ⟨units, htrack⟩ := (d.at_ t).track_shape (cluUnits k ++ cluUnits j) (((d.at_ t).modClu k (fun c =>
      { c with loan := none })).modClu j (fun c => Clu.bringIn { c with lent := false, engPrev := t }))
    rw [htrack]
    exact ⟨hck, hcj, rfl, hci, rfl, rfl, rfl⟩
  case bringIn => exact fun c => ⟨Clu.bringIn_of_no_place, Clu.bringIn_of_place⟩

end Sys2Proof.Machine
end

section
/-!
PROOFS. Dispatch, slices and the assignment (O19): what stops for a re-run leave alone, what the launch of a command makes, and the end of
a slice.
-/
namespace Sys2Proof.Machine

/-! ## What stopping commands leaves alone -/

/-- What charges and stops for a re-run can change: the commands, under the same numbers, the tasks' charges, contexts, and on-chip bytes. -/
def StopsOnly (d e : Dev) : Prop :=
  ∃ runs tasks ctxs sram fresh, runs.map Prod.fst = d.runs.map Prod.fst ∧
    e = { d with runs := runs, frame := { d.frame with tasks := tasks }, ctxs := ctxs, mem := { d.mem with sram := sram }, fresh := fresh }

theorem StopsOnly.refl (d : Dev) : StopsOnly d d := ⟨d.runs, d.frame.tasks, d.ctxs, d.mem.sram, d.fresh, rfl, rfl⟩

theorem StopsOnly.trans {a b c : Dev} (h₁ : StopsOnly a b) (h₂ : StopsOnly b c) : StopsOnly a c := by
  obtain ⟨r₁, _, _, _, _, k₁, rfl⟩ := h₁
  obtain ⟨r₂, t, x, m, n, k₂, rfl⟩ := h₂
  exact ⟨r₂, t, x, m, n, k₂.trans k₁, rfl⟩

theorem foldl_stopsOnly {α : Type} (f : Dev → α → Dev) (h : ∀ d x, StopsOnly d (f d x)) (l : List α) (d : Dev) :
    StopsOnly d (l.foldl f d) :=
  foldl_induct (StopsOnly d) f (fun e x he => he.trans (h e x)) l (StopsOnly.refl d)

theorem Dev.modCtx_stopsOnly (d : Dev) (key : Nat) (f : Ctx → Ctx) : StopsOnly d (d.modCtx key f) :=
  ⟨d.runs, d.frame.tasks, _, d.mem.sram, d.fresh, rfl, rfl⟩

theorem Dev.modRun_stopsOnly (d : Dev) (id : Nat) (f : Run → Run) : StopsOnly d (d.modRun id f) :=
  ⟨_, d.frame.tasks, d.ctxs, d.mem.sram, d.fresh, mmod_keys _ _ _, rfl⟩

theorem Dev.forgetUnits_stopsOnly (d : Dev) (us : List Nat) : StopsOnly d (d.forgetUnits us) := by
  refine foldl_stopsOnly _ (fun d u => ?_) us d
  split
  · exact ⟨d.runs, d.frame.tasks, d.ctxs, _, _, rfl, rfl⟩
  · exact .refl d

theorem Dev.forgetRun_stopsOnly (d : Dev) (r : Run) : StopsOnly d (d.forgetRun r) :=
  (Dev.forgetUnits_stopsOnly d _).trans
    (foldl_stopsOnly _ (fun d _ => ⟨d.runs, d.frame.tasks, d.ctxs, _, _, rfl, rfl⟩) r.wrote _)

theorem Dev.charge_stopsOnly (d : Dev) (id : Nat) (task : Bool) : StopsOnly d (d.charge id task) := by
  unfold Dev.charge
  split
  · exact .refl d
  · split
    · exact .refl d
    · dsimp only
      split_ifs <;> exact ⟨_, _, _, d.mem.sram, d.fresh, mmod_keys _ _ _, rfl⟩

theorem Dev.uncharge_stopsOnly (d : Dev) (r : Run) : StopsOnly d (d.uncharge r) := by
  unfold Dev.uncharge
  split_ifs
  · exact ⟨d.runs, _, d.ctxs, d.mem.sram, d.fresh, rfl, rfl⟩
  · exact .refl d
  · exact ⟨d.runs, d.frame.tasks, _, d.mem.sram, d.fresh, rfl, rfl⟩

theorem Dev.stopRerun_stopsOnly (d : Dev) (id : Nat) (ph : RunPhase) (task : Bool) : StopsOnly d (d.stopRerun id ph task) := by
  unfold Dev.stopRerun
  split
  · exact .refl d
  · next r _ =>
    have h : StopsOnly d (if task then d.charge id true else (d.charge id false).uncharge r) := by
      split
      · exact Dev.charge_stopsOnly d id true
      · exact (Dev.charge_stopsOnly d id false).trans (Dev.uncharge_stopsOnly _ r)
    exact (h.trans (Dev.forgetRun_stopsOnly _ _)).trans (Dev.modRun_stopsOnly _ id _)

theorem Dev.killRerun_stopsOnly (d : Dev) (id : Nat) (ph : RunPhase) (task : Bool) : StopsOnly d (d.killRerun id ph task) := by
  unfold Dev.killRerun
  split
  · exact .refl d
  · split
    · exact .refl d
    · exact Dev.stopRerun_stopsOnly d id ph task

theorem Dev.preempt_stopsOnly (d : Dev) (id : Nat) : StopsOnly d (d.preempt id) := by
  unfold Dev.preempt
  split
  · exact .refl d
  · exact (Dev.modCtx_stopsOnly d _ _).trans (Dev.killRerun_stopsOnly _ _ _ _)

theorem Dev.planPreempt_stopsOnly (d : Dev) : StopsOnly d d.planPreempt :=
  foldl_stopsOnly (fun d (q : Nat × Run) => d.preempt q.1) (fun d q => Dev.preempt_stopsOnly d q.1) _ d

theorem mfind_isSome_iff {α : Type} (m : List (Nat × α)) (k : Nat) : (mfind m k).isSome = true ↔ k ∈ m.map Prod.fst := by
  induction m with
  | nil => simp [mfind]
  | cons p m ih =>
    by_cases h : p.1 = k
    · simp [mfind, h]
    · simp [mfind, h, ih, Ne.symm h]

/-- A command that was there is there still. -/
theorem StopsOnly.mfind_some {d e : Dev} (h : StopsOnly d e) {id : Nat} {r : Run} (hr : mfind d.runs id = some r) :
    ∃ r', mfind e.runs id = some r' := by
  obtain ⟨runs, _, _, _, _, hk, rfl⟩ := h
  have hs : (mfind runs id).isSome = true := by
    rw [mfind_isSome_iff, hk, ← mfind_isSome_iff, hr]
    rfl
  exact Option.isSome_iff_exists.mp hs

/-- What a dispatch reads of the block beside the commands stays. -/
theorem StopsOnly.entryAddr_eq {d e : Dev} (h : StopsOnly d e) (r : Run) : e.entryAddr r = d.entryAddr r := by
  obtain ⟨_, _, _, _, _, _, rfl⟩ := h
  rfl

theorem StopsOnly.poisonIn_eq {d e : Dev} (h : StopsOnly d e) (a n : Nat) : e.poisonIn a n = d.poisonIn a n := by
  obtain ⟨_, _, _, _, _, _, rfl⟩ := h
  rfl

theorem StopsOnly.runEntry_eq {d e : Dev} (h : StopsOnly d e) (r : Run) : e.runEntry r = d.runEntry r := by
  obtain ⟨_, _, _, _, _, _, rfl⟩ := h
  rfl

theorem StopsOnly.units_eq {d e : Dev} (h : StopsOnly d e) (r : Run) :
    e.leapEngs r = d.leapEngs r ∧ e.leapCores r = d.leapCores r ∧ e.attnWanted r = d.attnWanted r := by
  obtain ⟨_, _, _, _, _, _, rfl⟩ := h
  exact ⟨rfl, rfl, rfl⟩

theorem StopsOnly.keeps {d e : Dev} (h : StopsOnly d e) :
    e.mem.hbm = d.mem.hbm ∧ e.mem.host = d.mem.host ∧ e.mods = d.mods ∧ e.flags = d.flags ∧ e.now = d.now := by
  obtain ⟨_, _, _, _, _, _, rfl⟩ := h
  exact ⟨rfl, rfl, rfl, rfl, rfl⟩

/-! ## The launch of a command -/

/-- What the start of a run changes beside its command: on-chip bytes, and whose turn it is on its units. -/
def ChipOnly (d e : Dev) : Prop :=
  ∃ sram fresh units, e = { d with mem := { d.mem with sram := sram }, fresh := fresh, leap := { d.leap with units := units } }

theorem ChipOnly.refl (d : Dev) : ChipOnly d d := ⟨d.mem.sram, d.fresh, d.leap.units, rfl⟩

theorem ChipOnly.trans {a b c : Dev} (h₁ : ChipOnly a b) (h₂ : ChipOnly b c) : ChipOnly a c := by
  obtain ⟨_, _, _, rfl⟩ := h₁
  obtain ⟨m, n, u, rfl⟩ := h₂
  exact ⟨m, n, u, rfl⟩

theorem foldl_chipOnly {α : Type} (f : Dev → α → Dev) (h : ∀ d x, ChipOnly d (f d x)) (l : List α) (d : Dev) : ChipOnly d (l.foldl f d) :=
  foldl_induct (ChipOnly d) f (fun e x he => he.trans (h e x)) l (ChipOnly.refl d)

theorem Dev.forgetMem_chipOnly (d : Dev) (u : Nat) : ChipOnly d (d.forgetMem u) := ⟨_, _, d.leap.units, rfl⟩

theorem Dev.forgetUnits_chipOnly (d : Dev) (us : List Nat) : ChipOnly d (d.forgetUnits us) := by
  refine foldl_chipOnly _ (fun d u => ?_) us d
  split
  · exact ⟨_, _, d.leap.units, rfl⟩
  · exact .refl d

theorem Dev.forgetFor_chipOnly (d : Dev) (id : Nat) (r : Run) : ChipOnly d (d.forgetFor id r) := by
  have clusters : ∀ (l : List Nat) (e : Dev), ChipOnly e (l.foldl (fun d k => d.forgetMem (cspUnit k)) e) :=
    fun l e => foldl_chipOnly _ (fun d k => Dev.forgetMem_chipOnly d _) l e
  unfold Dev.forgetFor
  dsimp only
  split
  · exact (Dev.forgetUnits_chipOnly d _).trans (clusters _ _)
  · exact ((Dev.forgetUnits_chipOnly d _).trans (clusters _ _)).trans (Dev.forgetMem_chipOnly _ _)

/-- A command at the first word of its entry in run `n`, on the units given. -/
def Run.begun (r : Run) (n : Nat) (engs cores : List (Nat × Nat)) (attn : Option Nat) (m : Module) (e : Entry) : Run :=
  let x := { r with
    phase := .run n, members := engs.map (fun (q : Nat × Nat) => mkMember q.1 q.2 e.first), prep := cores,
    prepAt := if m.prep = [] then none else some e.prepEntry, xfers := [], attn := attn, pieces := [], signals := [],
    indexRange := false, scrFail := false, scrUnits := [], keep := [] }
  { x with runPhys := mset x.runPhys n x.units }

theorem Dev.startRun_eq {d : Dev} {id n : Nat} {engs cores : List (Nat × Nat)} {attn : Option Nat} {r : Run} {m : Module} {e : Entry}
    (hr : mfind d.runs id = some r) (he : d.runEntry r = some (m, e)) :
    d.startRun id n engs cores attn =
      let x := r.begun n engs cores attn m e
      let d := x.units.foldl (fun (d : Dev) u => d.modUnit u (fun s => { s with turn := false }))
        ((d.modRun id (fun _ => x)).forgetFor id x)
      if m.prep = [] then d else cores.foldl (fun (d : Dev) q => d.wrSram ⟨q.2, 0⟩ m.prep) d := by
  simp only [Dev.startRun, hr, he, Option.bind_some, Option.map_some]
  rfl

theorem Dev.startRun_chipOnly {d : Dev} {id n : Nat} {engs cores : List (Nat × Nat)} {attn : Option Nat} {r : Run} {m : Module} {e : Entry}
    (hr : mfind d.runs id = some r) (he : d.runEntry r = some (m, e)) :
    ChipOnly (d.modRun id (fun _ => r.begun n engs cores attn m e)) (d.startRun id n engs cores attn) := by
  have units : ∀ (l : List Nat) (x : Dev), ChipOnly x (l.foldl (fun (d : Dev) u => d.modUnit u (fun s => { s with turn := false })) x) :=
    fun l x => foldl_chipOnly _ (fun d u => ⟨d.mem.sram, d.fresh, _, rfl⟩) l x
  have prep : ∀ (l : List (Nat × Nat)) (x : Dev), ChipOnly x (l.foldl (fun (d : Dev) q => d.wrSram ⟨q.2, 0⟩ m.prep) x) :=
    fun l x => foldl_chipOnly _ (fun d u => ⟨_, d.fresh, d.leap.units, rfl⟩) l x
  have started := (Dev.forgetFor_chipOnly (d.modRun id (fun _ => r.begun n engs cores attn m e)) id (r.begun n engs cores attn m e)).trans
    (units (r.begun n engs cores attn m e).units _)
  rw [Dev.startRun_eq hr he]
  dsimp only
  split
  · exact started
  · exact started.trans (prep _ _)

/-- The launch of a command that has been resolved: run 1 on the units that the binding gives. -/
theorem Dev.launch_effect {d : Dev} {id : Nat} {r r₀ : Run} {m : Module} {en : Entry} (hr : mfind d.runs id = some r₀)
    (he : d.runEntry r = some (m, en)) :
    let e := d.launch id r
    (∃ x, mfind e.runs id = some x ∧ x.phase = .run 1 ∧ x.dispatched = r.dispatched ∧
      x.members = (d.leapEngs r).map (fun q => mkMember q.1 q.2 en.first) ∧ x.prep = d.leapCores r ∧ x.attn = d.attnWanted r ∧
      x.dispatchedAt = d.now ∧ x.snap = r.snap ∧ x.pages = r.pages ∧ x.args = r.args ∧ x.pieces = [] ∧ x.signals = []) ∧
    e.mem.hbm = d.mem.hbm ∧ e.mem.host = d.mem.host ∧ e.mods = d.mods ∧ e.flags = d.flags ∧ e.now = d.now := by
  intro e
  obtain ⟨x, hx⟩ : ∃ x : Run, x = { r with
    dispatchedAt := d.now, chargeFrom := some d.now, banked := 0, excluded := 0, exFrom := none, freq := d.regMHz (placeReg r.place),
    guarded := r.guarded || r.slicePre, status := stOk } := ⟨_, rfl⟩
  have hfound : mfind (d.modRun id (fun _ => x)).runs id = some x := by
    rw [Dev.modRun, mfind_mmod_same, hr]
    rfl
  have hentry : (d.modRun id (fun _ => x)).runEntry x = some (m, en) := hx ▸ he
  obtain ⟨sram, fresh, units, hs⟩ := Dev.startRun_chipOnly (n := 1) (engs := d.leapEngs r) (cores := d.leapCores r) (attn := d.attnWanted r)
    hfound hentry
  have hbegun : mfind ((d.modRun id (fun _ => x)).modRun id (fun _ =>
      x.begun 1 (d.leapEngs r) (d.leapCores r) (d.attnWanted r) m en)).runs id =
        some (x.begun 1 (d.leapEngs r) (d.leapCores r) (d.attnWanted r) m en) := by
    rw [Dev.modRun, mfind_mmod_same, hfound]
    rfl
  have hl : e = (d.modRun id (fun _ => x)).startRun id 1 (d.leapEngs r) (d.leapCores r) (d.attnWanted r) := by
    rw [hx]
    rfl
  rw [hl, hs]
  refine ⟨⟨_, hbegun, rfl, ?_, rfl, rfl, rfl, ?_, ?_, ?_, ?_, rfl, rfl⟩, rfl, rfl, rfl, rfl, rfl⟩
  all_goals
    rw [hx]
    rfl

/-! ## Dispatch -/

/-- An operation of the hub that meets no error. -/
theorem Dev.met_nil (d : Dev) (acc : Nat) (ranges : List (Nat × Nat)) (go : Dev → Dev) : d.met acc ranges [] go = go d := rfl

/-- A first dispatch whose task list entry is free of poison reads it. -/
theorem Dev.fetched_of_clean {d : Dev} {r : Run} (id : Nat) (go : Dev → Dev)
    (h : (d.entryAddr r).bind (fun a => (d.poisonIn a 64).head?) = none) : d.fetched id r [] go = go d := by
  rw [Dev.fetched, Dev.met_nil, h]

/-- What a dispatch does with a candidate, once nothing bars every dispatch. -/
theorem Dev.dispatch_cand {d : Dev} {id t : Nat} {mem : List MemErr} {r : Run} (hr : mfind d.runs id = some r) (hc : d.isCand r = true)
    (hw : d.rst.warm = false) (hl : d.rst.low = 0) (he : d.rst.entering = 0) (hh : d.rst.hbmReady = true) (hk : d.rst.refclk = true) :
    d.dispatch id t mem =
      let x := d.reread r
      let st := if x.2 = stOk then d.dispatchCheck x.1 else x.2
      if d.held r.part then (d.at_ t).finish id stInvalidated 10
      else if st ≠ stOk then (d.at_ t).fetched id x.1 mem (fun d => d.finish id st 0)
      else
        let d := (d.at_ t).planPreempt
        if !d.allFree x.1 || d.reserved id x.1 then d
        else if x.1.dispatched then d.launch id x.1
        else d.fetched id x.1 mem (fun d =>
          match d.runEntry x.1 with
          | none => d
          | some (m, e) =>
            match d.snapshot x.1 m e with
            | .error (.status st) => d.finish id st 0
            | .error .staleRef => (d.addSat F.KVU_STALE.COUNT 1).finish id stStale 0
            | .error (.poison g) => d.killUe id g accFetch
            | .ok r => Dev.launch (r.pins.foldl Dev.pin d) id r) := by
  simp only [Dev.dispatch, hr, hc, hw, hl, he, hh, hk, Bool.not_true, Bool.or_self, bne_self_eq_false, Bool.false_eq_true, if_false]
  rfl

theorem Dev.dispatch_barred {d : Dev} {id t : Nat} {mem : List MemErr} {r : Run} (hr : mfind d.runs id = some r)
    (h : d.isCand r = false ∨ d.rst.warm = true ∨ d.rst.low ≠ 0 ∨ d.rst.hbmReady = false ∨ d.rst.refclk = false) :
    d.dispatch id t mem = d := by
  rcases h with h | h | h | h | h <;> simp [Dev.dispatch, hr, h]

theorem Dev.pin_fold_shape (l : List Nat) (d : Dev) : ∃ kv, l.foldl Dev.pin d = { d with kv := kv } := by
  refine foldl_induct (fun e => ∃ kv, e = { d with kv := kv }) Dev.pin ?_ l ⟨d.kv, rfl⟩
  rintro _ i ⟨kv, rfl⟩
  exact ⟨_, rfl⟩

/-- A command after its resolution: what it snapshots is set, and what it names is as it was. -/
def Run.ResolvedFrom (r r' : Run) : Prop :=
  ∃ maps snap pages pins args, r' = { r with maps := maps, snap := snap, pages := pages, pins := pins, args := args, dispatched := true }

theorem Run.resolvedFrom_self {r : Run} (h : r.dispatched = true) : r.ResolvedFrom r :=
  ⟨r.maps, r.snap, r.pages, r.pins, r.args, by rw [← h]⟩

theorem Dev.snapshot_resolvedFrom {d : Dev} {r r' : Run} {m : Module} {e : Entry} (h : d.snapshot r m e = .ok r') : r.ResolvedFrom r' := by
  unfold Dev.snapshot at h
  dsimp only at h
  split at h
  · cases h
  · split at h
    · cases h
    · split at h
      · cases h
      · cases h
        exact ⟨_, _, _, _, _, rfl⟩

/-- A launch after the pre-emptions of a plan and the pins of a resolution, as the dispatch sees it. -/
theorem Dev.launch_resolved {d d₁ : Dev} {id : Nat} {r r₀ r' : Run} {m : Module} {en : Entry} (kv : Kv) (hs : StopsOnly d d₁)
    (hr : mfind d.runs id = some r₀) (he : d.runEntry r = some (m, en)) (hr' : r.ResolvedFrom r') :
    let e := ({ d₁ with kv := kv } : Dev).launch id r'
    ∃ x, mfind e.runs id = some x ∧ x.phase = .run 1 ∧ x.dispatched = true ∧
      x.members = (d.leapEngs r).map (fun q => mkMember q.1 q.2 en.first) ∧ x.prep = d.leapCores r ∧ x.attn = d.attnWanted r ∧
      x.dispatchedAt = d.now ∧ x.snap = r'.snap ∧ x.pages = r'.pages ∧ x.args = r'.args ∧ x.pieces = [] ∧ x.signals = [] ∧
      e.mem.hbm = d.mem.hbm ∧ e.mem.host = d.mem.host ∧ e.mods = d.mods ∧ e.flags = d.flags ∧ e.now = d.now := by
  obtain ⟨maps, snap, pages, pins, args, rfl⟩ := hr'
  obtain ⟨r₁, hr₁⟩ := hs.mfind_some hr
  obtain ⟨hengs, hcores, hattn⟩ := hs.units_eq r
  obtain ⟨hhbm, hhost, hmods, hflags, hnow⟩ := hs.keeps
  have hentry := (hs.runEntry_eq r).trans he
  obtain ⟨⟨x, hx, hphase, hdisp, hmem, hprep, hat, hwhen, hsnap, hpages, hargs, hpieces, hsignals⟩, k₁, k₂, k₃, k₄, k₅⟩ :=
    Dev.launch_effect (d := { d₁ with kv := kv }) (r := { r with
      maps := maps, snap := snap, pages := pages, pins := pins, args := args, dispatched := true }) hr₁ hentry
  exact ⟨x, hx, hphase, hdisp, hmem.trans (congrArg _ hengs), hprep.trans hcores, hat.trans hattn, hwhen.trans hnow, hsnap, hpages, hargs,
    hpieces, hsignals, k₁.trans hhbm, k₂.trans hhost, k₃.trans hmods, k₄.trans hflags, k₅.trans hnow⟩

/-- A dispatch that passes every check and finds its units free. -/
theorem Dev.dispatch_effect {d : Dev} {id t : Nat} {r₀ r r' : Run} {m : Module} {en : Entry} (hr : mfind d.runs id = some r₀)
    (hc : d.isCand r₀ = true) (hw : d.rst.warm = false) (hl : d.rst.low = 0) (he : d.rst.entering = 0) (hh : d.rst.hbmReady = true)
    (hk : d.rst.refclk = true) (hheld : d.held r₀.part = false) (hre : d.reread r₀ = (r, stOk))
    (hclean : (d.entryAddr r).bind (fun a => (d.poisonIn a 64).head?) = none) (hcheck : d.dispatchCheck r = stOk)
    (hentry : d.runEntry r = some (m, en)) (hfree : (d.at_ t).planPreempt.allFree r = true)
    (hres : (d.at_ t).planPreempt.reserved id r = false)
    (hr' : (r.dispatched = true ∧ r' = r) ∨ (r.dispatched = false ∧ (d.at_ t).planPreempt.snapshot r m en = .ok r')) :
    ∃ kv, d.dispatch id t [] = ({ (d.at_ t).planPreempt with kv := kv } : Dev).launch id r' ∧ r.ResolvedFrom r' := by
  have hs : StopsOnly (d.at_ t) (d.at_ t).planPreempt := Dev.planPreempt_stopsOnly _
  have hgo := Dev.dispatch_cand (t := t) (mem := []) hr hc hw hl he hh hk
  simp only [hheld, hre, hcheck, hfree, hres, if_true, ne_eq, not_true_eq_false, if_false, Bool.not_true, Bool.or_self,
    Bool.false_eq_true] at hgo
  rcases hr' with ⟨hd, rfl⟩ | ⟨hd, hsnap⟩
  · rw [hd, if_pos rfl] at hgo
    exact ⟨(d.at_ t).planPreempt.kv, hgo, Run.resolvedFrom_self hd⟩
  · rw [hd, if_neg (by decide), Dev.fetched_of_clean] at hgo
    · obtain ⟨kv, hpins⟩ := Dev.pin_fold_shape r'.pins (d.at_ t).planPreempt
      refine ⟨kv, ?_, Dev.snapshot_resolvedFrom hsnap⟩
      simp only [(hs.runEntry_eq r).trans hentry, hsnap, hpins] at hgo
      exact hgo
    · rw [hs.entryAddr_eq]
      simp only [hs.poisonIn_eq]
      exact hclean

/-- Reading the entry of a task again changes neither where it lies nor what it is. -/
theorem Dev.reread_entryAddr (d : Dev) (r : Run) : d.entryAddr (d.reread r).1 = d.entryAddr r := by
  unfold Dev.reread
  split
  · rfl
  · next a ha =>
    have ho : (r.ordo && !r.dispatched) = true := by
      by_contra h
      rw [Dev.entryAddr, if_neg h] at ha
      cases ha
    rw [Dev.entryAddr, Dev.entryAddr, if_pos ho]
    rfl

/-! ## The end of a slice -/

/-- Command `id` has been charged for all the time up to now. -/
def Dev.Settled (d : Dev) (id : Nat) : Prop := ∀ r, mfind d.runs id = some r → r.chargeFrom = none ∨ r.chargeFrom = some d.now

/-- Context `key` with the parts of `c` that charges and stops leave alone, and what its slice has used. -/
def Dev.CtxLike (d : Dev) (key : Nat) (c : Ctx) (used : Nat → Prop) : Prop :=
  ∃ x, d.ctx key = some x ∧ used x.sliceUsed ∧ x.slice = c.slice ∧ x.prio = c.prio ∧ x.sliceNext = c.sliceNext ∧
    x.prioNext = c.prioNext ∧ x.cmds = c.cmds

/-- Every command of `e` is one of `d` with the same number, of the same context and of the same kind. -/
def SameOwners (d e : Dev) : Prop := ∀ q ∈ e.runs, ∃ p ∈ d.runs, p.1 = q.1 ∧ p.2.key = q.2.key ∧ p.2.ordo = q.2.ordo

theorem SameOwners.refl (d : Dev) : SameOwners d d := fun q hq => ⟨q, hq, rfl, rfl, rfl⟩

theorem SameOwners.trans {a b c : Dev} (h₁ : SameOwners a b) (h₂ : SameOwners b c) : SameOwners a c := by
  intro q hq
  obtain ⟨p, hp, i₁, k₁, o₁⟩ := h₂ q hq
  obtain ⟨p', hp', i₂, k₂, o₂⟩ := h₁ p hp
  exact ⟨p', hp', i₂.trans i₁, k₂.trans k₁, o₂.trans o₁⟩

theorem sameOwners_of_runs {d e : Dev} {id : Nat} {g : Run → Run} (h : e.runs = mmod d.runs id g)
    (hg : ∀ r, (g r).key = r.key ∧ (g r).ordo = r.ordo) : SameOwners d e := by
  intro q hq
  rw [h, mmod, List.mem_map] at hq
  obtain ⟨p, hp, rfl⟩ := hq
  refine ⟨p, hp, ?_⟩
  split
  · exact ⟨rfl, (hg p.2).1.symm, (hg p.2).2.symm⟩
  · exact ⟨rfl, rfl, rfl⟩

/-- A change of one command leaves the others as they are. -/
theorem settled_of_runs {d e : Dev} {i id : Nat} {g : Run → Run} (h : e.runs = mmod d.runs id g) (hn : e.now = d.now)
    (hg : ∀ r, (r.chargeFrom = none ∨ r.chargeFrom = some d.now) → (g r).chargeFrom = none ∨ (g r).chargeFrom = some d.now)
    (hi : d.Settled i) : e.Settled i := by
  intro r hr
  rw [hn]
  rw [h] at hr
  by_cases hid : i = id
  · subst hid
    rw [mfind_mmod_same] at hr
    obtain ⟨r₀, hr₀, rfl⟩ := Option.map_eq_some_iff.mp hr
    exact hg r₀ (hi r₀ hr₀)
  · rw [mfind_mmod_ne _ _ _ _ hid] at hr
    exact hi r hr

/-- Context `key` after a change of one context that leaves the parts in question. -/
theorem ctxLike_of_ctxs {d e : Dev} {key k : Nat} {c : Ctx} {used : Nat → Prop} {g : Ctx → Ctx} (h : e.ctxs = mmod d.ctxs k g)
    (hg : ∀ x, (used x.sliceUsed → used (g x).sliceUsed) ∧ (g x).slice = x.slice ∧ (g x).prio = x.prio ∧
      (g x).sliceNext = x.sliceNext ∧ (g x).prioNext = x.prioNext ∧ (g x).cmds = x.cmds)
    (hc : d.CtxLike key c used) : e.CtxLike key c used := by
  obtain ⟨x, hx, hu, h₁, h₂, h₃, h₄, h₅⟩ := hc
  by_cases hk : key = k
  · subst hk
    obtain ⟨gu, g₁, g₂, g₃, g₄, g₅⟩ := hg x
    refine ⟨g x, ?_, gu hu, g₁.trans h₁, g₂.trans h₂, g₃.trans h₃, g₄.trans h₄, g₅.trans h₅⟩
    rw [Dev.ctx] at hx
    rw [Dev.ctx, h, mfind_mmod_same, hx]
    rfl
  · refine ⟨x, ?_, hu, h₁, h₂, h₃, h₄, h₅⟩
    rw [Dev.ctx] at hx
    rw [Dev.ctx, h, mfind_mmod_ne _ _ _ _ hk, hx]

/-- A charge marks its command as charged up to now, and adds the time since the last one to the slice of a context. -/
theorem Dev.charge_cases (d : Dev) (id : Nat) (task : Bool) :
    (d.charge id task = d ∧ ∀ r, mfind d.runs id = some r → r.chargeFrom = none) ∨
    ∃ r t₀ bank k add, mfind d.runs id = some r ∧ r.chargeFrom = some t₀ ∧ (add = 0 ∨ add = d.now - t₀) ∧
      (d.charge id task).runs = mmod d.runs id (fun r => { r with chargeFrom := some d.now, banked := r.banked + bank }) ∧
      ((d.charge id task).ctxs = d.ctxs ∨
        (d.charge id task).ctxs = mmod d.ctxs k (fun c => { c with sliceUsed := c.sliceUsed + add })) := by
  rcases hr : mfind d.runs id with _ | r
  · left
    simp only [Dev.charge, hr, true_and]
    rintro _ ⟨⟩
  · rcases ht : r.chargeFrom with _ | t₀
    · left
      simp only [Dev.charge, hr, ht, true_and]
      rintro _ ⟨⟩
      exact ht
    · refine .inr ⟨r, t₀, if task then d.now - t₀ else 0, r.part * 4096 + r.ctx, d.now - t₀, rfl, ht, .inr rfl, ?_, ?_⟩
      all_goals
        simp only [Dev.charge, hr, ht]
        split_ifs <;> simp

theorem Dev.charge_sameOwners (d : Dev) (id : Nat) (task : Bool) : SameOwners d (d.charge id task) := by
  rcases Dev.charge_cases d id task with ⟨he, -⟩ | ⟨r, t₀, bank, k, add, -, -, -, hruns, -⟩
  · rw [he]
    exact .refl d
  · exact sameOwners_of_runs hruns (fun _ => ⟨rfl, rfl⟩)

theorem Dev.charge_now (d : Dev) (id : Nat) (task : Bool) : (d.charge id task).now = d.now := (Dev.charge_stopsOnly d id task).keeps.2.2.2.2

theorem Dev.charge_settled_same (d : Dev) (id : Nat) (task : Bool) : (d.charge id task).Settled id := by
  rcases Dev.charge_cases d id task with ⟨he, hn⟩ | ⟨r₀, t₀, bank, k, add, -, -, -, hruns, -⟩
  · rw [he]
    exact fun r hr => .inl (hn r hr)
  · intro r hr
    rw [hruns, mfind_mmod_same] at hr
    obtain ⟨_, -, rfl⟩ := Option.map_eq_some_iff.mp hr
    rw [Dev.charge_now]
    exact .inr rfl

theorem Dev.charge_settled {d : Dev} {i : Nat} (id : Nat) (task : Bool) (hi : d.Settled i) : (d.charge id task).Settled i := by
  rcases Dev.charge_cases d id task with ⟨he, -⟩ | ⟨r₀, t₀, bank, k, add, -, -, -, hruns, -⟩
  · rw [he]
    exact hi
  · exact settled_of_runs hruns (Dev.charge_now d id task) (fun _ _ => .inr rfl) hi

theorem Dev.charge_ctxLike {d : Dev} {key : Nat} {c : Ctx} (id : Nat) (task : Bool) (h : d.CtxLike key c (fun _ => True)) :
    (d.charge id task).CtxLike key c (fun _ => True) := by
  rcases Dev.charge_cases d id task with ⟨he, -⟩ | ⟨r₀, t₀, bank, k, add, -, -, -, -, hctxs | hctxs⟩
  · rw [he]
    exact h
  · rw [Dev.CtxLike, Dev.ctx, hctxs]
    exact h
  · exact ctxLike_of_ctxs hctxs (fun _ => ⟨fun _ => trivial, rfl, rfl, rfl, rfl, rfl⟩) h

/-- The charge of a command that has been charged up to now adds nothing. -/
theorem Dev.charge_ctxLike_settled {d : Dev} {key : Nat} {c : Ctx} {used : Nat → Prop} {i : Nat} (task : Bool) (hi : d.Settled i)
    (h : d.CtxLike key c used) : (d.charge i task).CtxLike key c used := by
  rcases Dev.charge_cases d i task with ⟨he, -⟩ | ⟨r₀, t₀, bank, k, add, hr, ht, hadd, -, hctxs | hctxs⟩
  · rw [he]
    exact h
  · rw [Dev.CtxLike, Dev.ctx, hctxs]
    exact h
  · have hzero : add = 0 := by
      rcases hi r₀ hr with h₀ | h₀ <;> rw [ht] at h₀
      · cases h₀
      · cases h₀
        omega
    exact ctxLike_of_ctxs hctxs (fun x => ⟨by rw [hzero]; exact id, rfl, rfl, rfl, rfl, rfl⟩) h

/-- What the end of a slice does to a command of its context at first: the whole time so far is charged. -/
def Dev.settleRun (d : Dev) (q : Nat × Run) : Dev := (d.charge q.1 true).modRun q.1 (fun r => { r with banked := 0 })

theorem Dev.settleRun_stopsOnly (d : Dev) (q : Nat × Run) : StopsOnly d (d.settleRun q) :=
  (Dev.charge_stopsOnly d _ _).trans (Dev.modRun_stopsOnly _ _ _)

theorem Dev.settleRun_sameOwners (d : Dev) (q : Nat × Run) : SameOwners d (d.settleRun q) :=
  (Dev.charge_sameOwners d _ _).trans 
    (sameOwners_of_runs (e := d.settleRun q) (g := fun r => { r with banked := 0 }) (id := q.1) rfl (fun _ => ⟨rfl, rfl⟩))

theorem Dev.settleRun_settled {d : Dev} {i : Nat} (q : Nat × Run) (h : d.Settled i ∨ q.1 = i) : (d.settleRun q).Settled i := by
  refine settled_of_runs (d := d.charge q.1 true) (e := d.settleRun q) (id := q.1) (g := fun r => { r with banked := 0 }) rfl rfl (fun _ => id) ?_
  rcases h with h | rfl
  · exact Dev.charge_settled _ _ h
  · exact Dev.charge_settled_same d _ _

theorem Dev.settleAll_settled (l : List (Nat × Run)) {d : Dev} {i : Nat} (h : d.Settled i ∨ ∃ q ∈ l, q.1 = i) :
    (l.foldl Dev.settleRun d).Settled i := by
  induction l generalizing d with
  | nil =>
    rcases h with h | ⟨_, hq, -⟩
    · exact h
    · cases hq
  | cons p l ih =>
    refine ih ?_
    rcases h with h | ⟨q, hq, hi⟩
    · exact .inl (Dev.settleRun_settled p (.inl h))
    · rcases List.mem_cons.mp hq with rfl | hq
      · exact .inl (Dev.settleRun_settled q (.inr hi))
      · exact .inr ⟨q, hq, hi⟩

/-- What the end of a slice does to a command that gives way: it stops for a re-run, and is guarded from the next one. -/
def Dev.giveWay (d : Dev) (q : Nat × Run) : Dev := (d.preempt q.1).modRun q.1 (fun r => { r with slicePre := true })

theorem Dev.giveWay_stopsOnly (d : Dev) (q : Nat × Run) : StopsOnly d (d.giveWay q) :=
  (Dev.preempt_stopsOnly d _).trans (Dev.modRun_stopsOnly _ _ _)

theorem Dev.forgetRun_ctxs_runs (d : Dev) (r : Run) : (d.forgetRun r).ctxs = d.ctxs ∧ (d.forgetRun r).runs = d.runs ∧
    (d.forgetRun r).now = d.now := by
  have units : ∀ (us : List Nat) (x : Dev), (x.forgetUnits us).ctxs = x.ctxs ∧ (x.forgetUnits us).runs = x.runs ∧
      (x.forgetUnits us).now = x.now := by
    intro us x
    refine foldl_induct (fun (y : Dev) => y.ctxs = x.ctxs ∧ y.runs = x.runs ∧ y.now = x.now) _ (fun y u hy => ?_) us ⟨rfl, rfl, rfl⟩
    split <;> exact hy
  unfold Dev.forgetRun
  refine foldl_induct (fun (y : Dev) => y.ctxs = d.ctxs ∧ y.runs = d.runs ∧ y.now = d.now) _ (fun y w hy => ?_) r.wrote (units _ d)
  exact hy

/-- A ring command that has been charged up to now, stopped for a re-run: nothing more is charged. -/
theorem Dev.stopRerun_like {d : Dev} {key i j : Nat} {c : Ctx} {used : Nat → Prop} (ph : RunPhase) (hi : d.Settled i)
    (h : d.CtxLike key c used) :
    (d.stopRerun i ph true).CtxLike key c used ∧ (d.Settled j → (d.stopRerun i ph true).Settled j) := by
  rcases hr : mfind d.runs i with _ | r
  · rw [Dev.stopRerun, hr]
    exact ⟨h, id⟩
  · have hstop : d.stopRerun i ph true = ((d.charge i true).forgetRun r).modRun i (fun r => r.requeue ph) := by
      rw [Dev.stopRerun, hr]
      rfl
    obtain ⟨hctxs, hruns, hnow⟩ := Dev.forgetRun_ctxs_runs (d.charge i true) r
    rw [hstop]
    constructor
    · rw [Dev.CtxLike, Dev.ctx, Dev.modRun, hctxs]
      exact Dev.charge_ctxLike_settled true hi h
    · intro hj
      refine settled_of_runs (d := d.charge i true) (id := i) (g := fun r => r.requeue ph) ?_ hnow (fun _ _ => .inl rfl)
        (Dev.charge_settled i true hj)
      rw [Dev.modRun, hruns]

theorem Dev.preempt_like {d : Dev} {key i j : Nat} {c : Ctx} {used : Nat → Prop} (hi : d.Settled i) (h : d.CtxLike key c used) :
    (d.preempt i).CtxLike key c used ∧ (d.Settled j → (d.preempt i).Settled j) := by
  rcases hr : mfind d.runs i with _ | r
  · rw [Dev.preempt, hr]
    exact ⟨h, id⟩
  · have hcounted : (d.modCtx r.key (fun c => { c with preempts := Nat.min (c.preempts + 1) 0xFFFFFFFF })).CtxLike key c used :=
      ctxLike_of_ctxs (k := r.key) (g := fun c => { c with preempts := Nat.min (c.preempts + 1) 0xFFFFFFFF }) rfl
        (fun _ => ⟨id, rfl, rfl, rfl, rfl, rfl⟩) h
    rw [Dev.preempt, hr]
    dsimp only
    rw [Dev.killRerun]
    split
    · exact ⟨hcounted, id⟩
    · split
      · exact ⟨hcounted, id⟩
      · exact Dev.stopRerun_like .cand hi hcounted

theorem Dev.giveWay_like {d : Dev} {key j : Nat} {c : Ctx} {used : Nat → Prop} (q : Nat × Run) (hi : d.Settled q.1)
    (h : d.CtxLike key c used) : (d.giveWay q).CtxLike key c used ∧ (d.Settled j → (d.giveWay q).Settled j) :=
  ⟨(Dev.preempt_like (j := j) hi h).1,
    fun hj => settled_of_runs (d := d.preempt q.1) (e := d.giveWay q) (id := q.1) (g := fun r => { r with slicePre := true }) rfl rfl
      (fun _ => id) ((Dev.preempt_like hi h).2 hj)⟩

theorem Dev.giveWayAll_like (l : List (Nat × Run)) {d : Dev} {key : Nat} {c : Ctx} {used : Nat → Prop} (hl : ∀ q ∈ l, d.Settled q.1)
    (h : d.CtxLike key c used) : (l.foldl Dev.giveWay d).CtxLike key c used := by
  induction l generalizing d with
  | nil => exact h
  | cons p l ih =>
    have hp := hl p (List.mem_cons_self ..)
    exact ih (fun q hq => (Dev.giveWay_like p hp h).2 (hl q (List.mem_cons_of_mem _ hq))) (Dev.giveWay_like (j := p.1) p hp h).1

/-- The commands of the ring of context `key` that are charged when its slice ends. -/
def Dev.sliceRuns (d : Dev) (key : Nat) : List (Nat × Run) := d.runs.filter (fun q => q.2.key == key && !q.2.ordo)

/-- The first part of the end of a slice: every command of the context is charged. -/
def Dev.sliceSettled (d : Dev) (key : Nat) : Dev := (d.sliceRuns key).foldl Dev.settleRun d

/-- The second part: the context has its next slice, at the tail of the queue. -/
def Dev.sliceMoved (d : Dev) (key : Nat) : Dev :=
  { d.modCtx key (fun c => { c with sliceUsed := 0, slice := c.sliceNext, prio := c.prioNext }) with
      turns := d.turns.filter (fun k => k != key) ++ [key] }

/-- The commands of the ring of context `key` that give way when its slice ends. -/
def Dev.sliceYields (d : Dev) (key : Nat) : List (Nat × Run) :=
  d.runs.filter (fun q => q.2.key == key && !q.2.ordo && q.2.holds && !q.2.inCommit && (!q.2.guarded || q.2.stalledWait) && d.slicePreemptor q.2)

theorem Dev.sliceExpiry_eq {d : Dev} {key t : Nat} {c : Ctx} (hc : d.ctx key = some c) (hk : key ∈ d.turns)
    (hs : c.slice * 50000 ≤ (d.at_ t).sliceCharge key) :
    d.sliceExpiry key t =
      let e := ((d.at_ t).sliceSettled key).sliceMoved key
      (e.sliceYields key).foldl Dev.giveWay e := by
  have hin : (d.at_ t).turns.contains key = true := List.contains_iff_mem.mpr hk
  simp only [Dev.sliceExpiry, hc, hin, Nat.not_lt.mpr hs, decide_false, Bool.not_true, Bool.or_self, Bool.false_eq_true, if_false]
  rfl

/-- Every command of the context is settled once the slice has been charged. -/
theorem Dev.sliceMoved_settled (d : Dev) (key : Nat) :
    ∀ q ∈ ((d.sliceSettled key).sliceMoved key).sliceYields key, ((d.sliceSettled key).sliceMoved key).Settled q.1 := by
  intro q hq
  obtain ⟨hmem, hcond⟩ := List.mem_filter.mp hq
  simp only [Bool.and_eq_true] at hcond
  obtain ⟨⟨⟨⟨⟨hkey, hordo⟩, -⟩, -⟩, -⟩, -⟩ := hcond
  have hown : SameOwners d (d.sliceSettled key) :=
    foldl_induct (SameOwners d) Dev.settleRun (fun e x he => he.trans (Dev.settleRun_sameOwners e x)) _ (SameOwners.refl d)
  obtain ⟨p, hp, hid, hk, ho⟩ := hown q hmem
  have hp' : p ∈ d.sliceRuns key := List.mem_filter.mpr ⟨hp, by rw [hk, ho, hkey, hordo]; rfl⟩
  have hsettled : (d.sliceSettled key).Settled q.1 := Dev.settleAll_settled _ (.inr ⟨p, hp', hid⟩)
  exact hsettled

theorem Dev.sliceSettled_ctxLike {d : Dev} {key : Nat} {c : Ctx} (hc : d.ctx key = some c) :
    (d.sliceSettled key).CtxLike key c (fun _ => True) :=
  foldl_induct (fun e => e.CtxLike key c (fun _ => True)) Dev.settleRun (fun _ x he => Dev.charge_ctxLike x.1 true he) _
    ⟨c, hc, trivial, rfl, rfl, rfl, rfl, rfl⟩

theorem Dev.sliceMoved_ctxLike {d : Dev} {key : Nat} {c : Ctx} (hc : d.CtxLike key c (fun _ => True)) :
    (d.sliceMoved key).CtxLike key { c with slice := c.sliceNext, prio := c.prioNext } (fun u => u = 0) := by
  obtain ⟨x, hx, -, -, -, h₃, h₄, h₅⟩ := hc
  refine ⟨{ x with sliceUsed := 0, slice := x.sliceNext, prio := x.prioNext }, ?_, rfl, h₃, h₄, h₃, h₄, h₅⟩
  rw [Dev.ctx] at hx
  rw [Dev.ctx, Dev.sliceMoved, Dev.modCtx, mfind_mmod_same, hx]
  rfl

theorem StopsOnly.keeps_regs {d e : Dev} (h : StopsOnly d e) : e.regs = d.regs ∧ e.turns = d.turns := by
  obtain ⟨_, _, _, _, _, _, rfl⟩ := h
  exact ⟨rfl, rfl⟩

/-- The end of a slice: its context at the tail of the queue with a full slice, and nothing else than commands and charges changed. -/
theorem Dev.sliceExpiry_effect {d : Dev} {key t : Nat} {c : Ctx} (hc : d.ctx key = some c) (hk : key ∈ d.turns)
    (hs : c.slice * 50000 ≤ (d.at_ t).sliceCharge key) :
    let e := d.sliceExpiry key t
    e.turns = d.turns.filter (fun k => k != key) ++ [key] ∧
      (∃ c', e.ctx key = some c' ∧ c'.sliceUsed = 0 ∧ c'.slice = c.sliceNext ∧ c'.prio = c.prioNext ∧ c'.cmds = c.cmds) ∧
      e.mem.hbm = d.mem.hbm ∧ e.mem.host = d.mem.host ∧ e.regs = d.regs ∧ e.flags = d.flags ∧ e.mods = d.mods := by
  have hfirst : StopsOnly (d.at_ t) ((d.at_ t).sliceSettled key) := foldl_stopsOnly _ Dev.settleRun_stopsOnly _ _
  have hlast : StopsOnly (((d.at_ t).sliceSettled key).sliceMoved key) (d.sliceExpiry key t) := by
    rw [Dev.sliceExpiry_eq hc hk hs]
    exact foldl_stopsOnly _ Dev.giveWay_stopsOnly _ _
  obtain ⟨hbm₁, host₁, mods₁, flags₁, -⟩ := hfirst.keeps
  obtain ⟨hbm₂, host₂, mods₂, flags₂, -⟩ := hlast.keeps
  obtain ⟨regs₁, turns₁⟩ := hfirst.keeps_regs
  obtain ⟨regs₂, turns₂⟩ := hlast.keeps_regs
  have hctx : (d.sliceExpiry key t).CtxLike key { c with slice := c.sliceNext, prio := c.prioNext } (fun u => u = 0) := by
    rw [Dev.sliceExpiry_eq hc hk hs]
    exact Dev.giveWayAll_like _ (Dev.sliceMoved_settled _ key) (Dev.sliceMoved_ctxLike (Dev.sliceSettled_ctxLike hc))
  obtain ⟨x, hx, hu, hslice, hprio, -, -, hcmds⟩ := hctx
  refine ⟨turns₂.trans ?_, ⟨x, hx, hu, hslice, hprio, hcmds⟩, hbm₂.trans hbm₁, host₂.trans host₁, regs₂.trans regs₁, flags₂.trans flags₁,
    mods₂.trans mods₁⟩
  rw [Dev.sliceMoved, turns₁]
  rfl

/-! ## The assignment -/

/-- Entries written over a map leave what it holds under any other key. -/
theorem mget_foldl_mset_ne {α : Type} (v₀ : α) (l m : List (Nat × α)) (k : Nat) (h : ∀ p ∈ l, p.1 ≠ k) :
    mget v₀ (l.foldl (fun m p => mset m p.1 p.2) m) k = mget v₀ m k := by
  induction l generalizing m with
  | nil => rfl
  | cons p l ih =>
    rw [List.foldl_cons, ih _ (fun q hq => h q (List.mem_cons_of_mem _ hq)), mget_mset_ne _ _ _ _ _ (h p (List.mem_cons_self ..)).symm]

theorem mget_filter {α : Type} (v₀ : α) (m : List (Nat × α)) (f : Nat × α → Bool) (k : Nat) (h : ∀ p ∈ m, p.1 = k → f p = true) :
    mget v₀ (m.filter f) k = mget v₀ m k := by
  induction m with
  | nil => rfl
  | cons p m ih =>
    have hrest := ih (fun q hq => h q (List.mem_cons_of_mem _ hq))
    by_cases hk : p.1 = k
    · rw [List.filter_cons, if_pos (h p (List.mem_cons_self ..) hk), mget, mget, if_pos hk, if_pos hk]
    · rw [List.filter_cons]
      split <;> simp only [mget, if_neg hk, hrest]

theorem Dev.stage_pend (d : Dev) (lo hi : Nat) : (d.stage lo hi).regs.pend =
    (d.regs.pend.filter (fun p => p.1 < lo ∨ hi ≤ p.1)).foldl (fun m p => mset m p.1 p.2)
      (d.regs.cur.filter (fun p => lo ≤ p.1 ∧ p.1 < hi)) := rfl

/-- Inside the range that is staged, the pending value is the staged one. -/
theorem Dev.pend_stage {d : Dev} {lo hi : Nat} (x : Fld) (h₁ : lo ≤ x.off) (h₂ : x.off < hi) : (d.stage lo hi).pend x = d.f x := by
  have hval : mget (d.rst0 x.off) (d.stage lo hi).regs.pend x.off = d.reg x.off := by
    rw [Dev.stage_pend, Dev.reg, mget_foldl_mset_ne, mget_filter]
    · intro p _ hp
      rw [hp]
      exact decide_eq_true ⟨h₁, h₂⟩
    · intro p hp hk
      have := of_decide_eq_true (List.mem_filter.mp hp).2
      omega
  exact congrArg (getFld x) hval

/-- Every register of the assignment lies in the range that APPLY stages. -/
theorem cluPart_staged {k : Nat} (hk : k < 24) :
    R.SCH_CLU_PART 0 ≤ (F.SCH_CLU_PART.PART (k / 8)).off ∧ (F.SCH_CLU_PART.PART (k / 8)).off < R.SCH_PART_CFG 16 := by
  simp only [F.SCH_CLU_PART.PART, R.SCH_CLU_PART, R.SCH_PART_CFG]
  omega

theorem safety_staged {f : Nat} (hf : f < 16) :
    R.SCH_CLU_PART 0 ≤ (F.SCH_PART_CFG.SAFETY f).off ∧ (F.SCH_PART_CFG.SAFETY f).off < R.SCH_PART_CFG 16 := by
  simp only [F.SCH_PART_CFG.SAFETY, R.SCH_CLU_PART, R.SCH_PART_CFG]
  omega

/-- An assignment that is not refused is pending as a whole, and the one in force stays. -/
theorem Dev.partApply_effect {d : Dev} (hb : d.partBad = false) :
    let e := d.partApply
    e.on F.SCH_PART_CTRL.PENDING = true ∧ (∀ k, k < 24 → e.cluPartPend k = d.cluStaged k) ∧ (∀ k, e.cluPart k = d.cluPart k) ∧
      (∀ f, f < 16 → e.pend (F.SCH_PART_CFG.SAFETY f) = d.f (F.SCH_PART_CFG.SAFETY f)) ∧ e.regs.live = d.regs.live ∧ e.mem = d.mem ∧
      e.runs = d.runs := by
  have he : d.partApply = (d.stage (R.SCH_CLU_PART 0) (R.SCH_PART_CFG 16)).set F.SCH_PART_CTRL.PENDING 1 := by
    rw [Dev.partApply, hb, if_neg Bool.false_ne_true]
  rw [he]
  refine ⟨?_, fun k hk => ?_, fun k => rfl, fun f hf => ?_, rfl, rfl, rfl⟩
  · rw [Dev.on, Dev.f_set_same _ _ _ (by decide)]
    rfl
  · have hreg := Dev.pend_stage (d := d) (F.SCH_CLU_PART.PART (k / 8)) (cluPart_staged hk).1 (cluPart_staged hk).2
    rw [Dev.cluStaged, ← hreg]
    rfl
  · have hreg := Dev.pend_stage (d := d) (F.SCH_PART_CFG.SAFETY f) (safety_staged hf).1 (safety_staged hf).2
    rw [← hreg]
    rfl

/-- A dispatch that a held partition or a failed check ends. -/
theorem Dev.dispatch_ends {d : Dev} {id t : Nat} {r : Run} (hr : mfind d.runs id = some r) (hc : d.isCand r = true)
    (hw : d.rst.warm = false) (hl : d.rst.low = 0) (he : d.rst.entering = 0) (hh : d.rst.hbmReady = true) (hk : d.rst.refclk = true) :
    (∀ mem, d.held r.part = true → d.dispatch id t mem = (d.at_ t).finish id stInvalidated 10) ∧
    (d.held r.part = false → (d.entryAddr r).bind (fun a => (d.poisonIn a 64).head?) = none →
      ∀ st, (if (d.reread r).2 = stOk then d.dispatchCheck (d.reread r).1 else (d.reread r).2) = st → st ≠ stOk →
        d.dispatch id t [] = (d.at_ t).finish id st 0) := by
  constructor
  · intro mem hheld
    rw [Dev.dispatch_cand hr hc hw hl he hh hk]
    simp only [hheld, if_true]
  · intro hheld hclean st hst hne
    rw [Dev.dispatch_cand hr hc hw hl he hh hk]
    simp only [hheld, hst, ne_eq, hne, not_false_eq_true, if_true, Bool.false_eq_true, if_false]
    refine Dev.fetched_of_clean id _ ?_
    have hsame : (d.at_ t).entryAddr (d.reread r).1 = d.entryAddr r := Dev.reread_entryAddr d r
    rw [hsame]
    exact hclean

theorem Dev.ctx_modCtx_same (d : Dev) (key : Nat) (f : Ctx → Ctx) : (d.modCtx key f).ctx key = (d.ctx key).map f :=
  mfind_mmod_same d.ctxs key f

theorem Dev.ctx_modCtx_ne (d : Dev) {key k : Nat} (f : Ctx → Ctx) (h : k ≠ key) : (d.modCtx key f).ctx k = d.ctx k :=
  mfind_mmod_ne d.ctxs key k f h

/-- A write of the settings of a context that exists, with a slice, is taken for that context alone. -/
theorem Dev.ctxSchedWrite_taken {d : Dev} {value : Nat} {c : Ctx}
    (hc : d.ctx (ckey (d.f F.SCH_CTX_SEL.PART) (d.f F.SCH_CTX_SEL.CTX)) = some c) (hv : bits value 9 2 ≠ 0) :
    let key := ckey (d.f F.SCH_CTX_SEL.PART) (d.f F.SCH_CTX_SEL.CTX)
    (d.ctxSchedWrite value).ctx key = some { c with prioNext := bits value 1 0, sliceNext := bits value 9 2 } ∧
      (∀ k, k ≠ key → (d.ctxSchedWrite value).ctx k = d.ctx k) ∧ (d.ctxSchedWrite value).regs = d.regs ∧
      (d.ctxSchedWrite value).mem = d.mem := by
  have he : d.ctxSchedWrite value = d.modCtx (ckey (d.f F.SCH_CTX_SEL.PART) (d.f F.SCH_CTX_SEL.CTX))
      (fun c => { c with prioNext := bits value 1 0, sliceNext := bits value 9 2 }) := by
    simp only [Dev.ctxSchedWrite, hc, Option.isNone_some, Bool.false_or, beq_eq_false_iff_ne.mpr hv, Bool.false_eq_true, if_false]
  rw [he]
  refine ⟨?_, fun k hk => Dev.ctx_modCtx_ne d _ hk, rfl, rfl⟩
  rw [Dev.ctx_modCtx_same, hc]
  rfl

theorem Dev.ctxSchedWrite_refused {d : Dev} {value : Nat}
    (h : d.ctx (ckey (d.f F.SCH_CTX_SEL.PART) (d.f F.SCH_CTX_SEL.CTX)) = none ∨ bits value 9 2 = 0) :
    d.ctxSchedWrite value = d.set F.SCH_CTX_SEL.REFUSED 1 := by
  rw [Dev.ctxSchedWrite]
  rcases h with h | h <;> simp [h]

/-- Settles O19: the dispatch from the launch on the bound units, the end of a slice from what charges and stops leave alone. -/
theorem dispatchSlicesAndAssignment : Obligations.DispatchSlicesAndAssignment := by
  unfold Obligations.DispatchSlicesAndAssignment
  refine ⟨⟨?_, ?_, ?_⟩, ?_, ?_, ?_, ?_, ?_, ?_⟩
  · intro d id t r₀ r r' m en ha hr hc hw hl he hh hk hheld hre hclean hcheck hentry d₁ hfree hres hr'
    obtain ⟨kv, hgo, hfrom⟩ := Dev.dispatch_effect hr hc hw hl he hh hk hheld hre hclean hcheck hentry hfree hres hr'
    refine completes_upd (f := fun d => d.dispatch id t []) (fun _ => rfl) ha ?_
    have := Dev.launch_resolved (id := id) (r₀ := r₀) kv (Dev.planPreempt_stopsOnly (d.at_ t)) hr hentry hfrom
    rw [hgo]
    exact this
  · intro d id t r ha hr hc hw hl he hh hk
    obtain ⟨hheld, hfails⟩ := Dev.dispatch_ends (t := t) hr hc hw hl he hh hk
    refine ⟨fun mem h => does_upd_eq (fun d => d.dispatch id t mem) (fun _ => rfl) ha (hheld mem h), fun h hclean => ⟨fun st hst hne => ?_,
      fun r' st hre hst hne => ?_⟩⟩
    · refine does_upd_eq (fun d => d.dispatch id t []) (fun _ => rfl) ha (hfails h hclean st ?_ hne)
      rw [if_neg (by rw [hst]; exact hne), hst]
    · refine does_upd_eq (fun d => d.dispatch id t []) (fun _ => rfl) ha (hfails h hclean st ?_ hne)
      rw [hre, if_pos rfl, hst]
  · intro d id t r ha hr h mem
    exact does_upd_eq (fun d => d.dispatch id t mem) (fun _ => rfl) ha (Dev.dispatch_barred hr h)
  · intro d fn ctx t c ha hc hk hs
    exact completes_upd (f := fun d => d.sliceExpiry (ckey fn ctx) t) (fun _ => rfl) ha (Dev.sliceExpiry_effect hc hk hs)
  · intro d value c ha hc hv
    exact completes_upd (f := fun d => d.ctxSchedWrite value) (fun _ => rfl) ha (Dev.ctxSchedWrite_taken hc hv)
  · intro d value ha h
    exact does_upd_eq (fun d => d.ctxSchedWrite value) (fun _ => rfl) ha (Dev.ctxSchedWrite_refused h)
  · intro d ha _ hb
    exact completes_upd (f := Dev.partApply) (fun _ => rfl) ha (Dev.partApply_effect hb)
  · intro d ha hb
    refine does_upd_eq Dev.partApply (fun _ => rfl) ha ?_
    rw [Dev.partApply, hb, if_pos rfl]
  · intro d ha h
    refine does_upd_eq Dev.flagClear (fun _ => rfl) ha ?_
    simp only [Dev.flagClear, h, decide_true, Bool.true_or, if_true]

end Sys2Proof.Machine
end

section
/-!
PROOFS. Low power, resets and losses (O35): what the end of commands, contexts and rings leaves alone, one lemma for each operation that
takes part in it, and from it the resets, the end of Doze, the thermal shutdown and the loss of a die.
-/
namespace Sys2Proof.Machine

/-! ## What the end of commands, contexts and streams of events leaves alone -/

/-- What of the collector no event and no end of a command takes back: whether it has started, the reactions of each source, and what is
pending. -/
structure CollKept (K c : Coll) : Prop where
  ready : c.ready = K.ready
  minor : ∀ i, (c.src i).minor = (K.src i).minor
  severe : ∀ i, (c.src i).severe = (K.src i).severe
  pending : ∀ i, K.pending.getLsbD i = true → c.pending.getLsbD i = true

/-- The parts of a block that stay as in `K` while commands, contexts and rings end: fuses, the link, the low-power state and what a bank
holds; a context or command that is gone stays gone; the low-power register stays clear. -/
structure KeptParts (K : Dev) (fuses : Fuses) (linkUp : Bool) (low : Nat) (cur : List (Nat × BitVec 64)) (coll : Coll)
    (banks : List (List (Nat × Variant))) (ctxs : List (Nat × Ctx)) (runs : List (Nat × Run)) (nextRun : Nat)
    (flags : List (Nat × Nat)) (alm : Alm) : Prop where
  fuses : fuses = K.fuses
  linkUp : linkUp = K.rst.linkUp
  low : low = K.rst.low
  ordo : mget (K.rst0 R.SCH_ORDO_CTRL) cur R.SCH_ORDO_CTRL = K.reg R.SCH_ORDO_CTRL
  clear : K.f F.PWR_LP_CTRL.STATE = 0 → K.f F.PWR_LP_CTRL.THERMAL = 0 →
    getFld F.PWR_LP_CTRL.STATE (mget (K.rst0 R.PWR_LP_CTRL) cur R.PWR_LP_CTRL) = 0 ∧
    getFld F.PWR_LP_CTRL.THERMAL (mget (K.rst0 R.PWR_LP_CTRL) cur R.PWR_LP_CTRL) = 0
  coll : CollKept K.coll coll
  banks : banks = K.frame.banks
  ctxs : ∀ key, mfind K.ctxs key = none → mfind ctxs key = none
  runs : ∀ i, i < K.nextRun → mfind K.runs i = none → mfind runs i = none
  nextRun : K.nextRun ≤ nextRun
  flags : flags = K.flags
  alm : alm = K.alm

/-- The block `d` has kept of `K` what ends of commands keep. -/
def Kept (K d : Dev) : Prop :=
  KeptParts K d.fuses d.rst.linkUp d.rst.low d.regs.cur d.coll d.frame.banks d.ctxs d.runs d.nextRun d.flags d.alm

theorem kept_dev (K d : Dev) :
    KeptParts K d.fuses d.rst.linkUp d.rst.low d.regs.cur d.coll d.frame.banks d.ctxs d.runs d.nextRun d.flags d.alm = Kept K d := rfl

theorem kept_mk (K : Dev) (now : Nat) (running : Bool) (fresh : Nat) (fuses : Fuses) (rst : Rst) (cfg : List (Nat × CfgFn)) (regs : Regs)
    (mem : MemSt) (coll : Coll) (safe : Safe) (frame : Frame) (ctxs : List (Nat × Ctx)) (runs : List (Nat × Run)) (nextRun : Nat)
    (turns : List Nat) (flags : List (Nat × Nat)) (mods : List (Nat × Module)) (tdt : List (Nat × TDesc)) (kv : Kv) (lnk : Lnk)
    (leap : Leap) (pwr : Pwr) (lam : List (Nat × Stream)) (alm : Alm) (rpl : Rpl) (sec : Sec) (out : Out) :
    Kept K ⟨now, running, fresh, fuses, rst, cfg, regs, mem, coll, safe, frame, ctxs, runs, nextRun, turns, flags, mods, tdt, kv, lnk,
        leap, pwr, lam, alm, rpl, sec, out⟩ =
      KeptParts K fuses rst.linkUp rst.low regs.cur coll frame.banks ctxs runs nextRun flags alm := rfl

theorem kept_ite (K : Dev) (c : Prop) [Decidable c] (a b : Dev) : Kept K (if c then a else b) = if c then Kept K a else Kept K b :=
  apply_ite ..

theorem CollKept.refl (c : Coll) : CollKept c c := ⟨rfl, fun _ => rfl, fun _ => rfl, fun _ h => h⟩

theorem Kept.refl (K : Dev) : Kept K K :=
  ⟨rfl, rfl, rfl, rfl, fun h₁ h₂ => ⟨h₁, h₂⟩, .refl _, rfl, fun _ h => h, fun _ _ h => h, Nat.le_refl _, rfl, rfl⟩

theorem foldl_kept {K : Dev} {α : Type} (f : Dev → α → Dev) (h : ∀ d x, Kept K d → Kept K (f d x)) (l : List α) {d : Dev}
    (hd : Kept K d) : Kept K (l.foldl f d) :=
  foldl_induct (Kept K) f h l hd

theorem kept_of_ite {K : Dev} {c : Prop} [Decidable c] {a b : Dev} (ha : Kept K a) (hb : Kept K b) : Kept K (if c then a else b) := by
  split
  · exact ha
  · exact hb

/-- A register whose writes are of no concern here. -/
def Fld.Minor (x : Fld) : Prop := x.off ≠ R.SCH_ORDO_CTRL ∧ x.off ≠ R.PWR_LP_CTRL

theorem getLsbD_setBit512 {v : BitVec 512} (n i : Nat) (h : v.getLsbD i = true) : (setBit512 v n).getLsbD i = true := by
  rw [setBit512, BitVec.getLsbD_or, h, Bool.true_or]

theorem Coll.record_ready (c : Coll) (e : FaultEv) (b : Bool) : (c.record e b).ready = c.ready := by
  unfold Coll.record
  dsimp only
  split
  · rfl
  · split <;> rfl

theorem Coll.receive_ready (c : Coll) (e : FaultEv) : (c.receive e).ready = c.ready := by
  unfold Coll.receive
  dsimp only
  rw [Coll.record_ready]
  split <;> rfl

/-- An event in the collector changes the count of its source and what was first, no reaction. -/
theorem Coll.receive_kept {K c : Coll} (h : CollKept K c) (e : FaultEv) : CollKept K (c.receive e) := by
  have hcount : ∀ (s : SrcSt) b t, (countEvent s b t).1.minor = s.minor ∧ (countEvent s b t).1.severe = s.severe := by
    intro s b t
    unfold countEvent
    dsimp only
    split_ifs <;> exact ⟨rfl, rfl⟩
  have hsrc : ∀ i, ((c.receive e).src i).minor = (c.src i).minor ∧ ((c.receive e).src i).severe = (c.src i).severe := by
    intro i
    by_cases hi : i = e.src
    · rw [hi, Coll.receive_src_same]
      exact hcount _ _ _
    · rw [Coll.receive_src_ne c e i hi]
      exact ⟨rfl, rfl⟩
  refine ⟨(Coll.receive_ready c e).trans h.ready, fun i => (hsrc i).1.trans (h.minor i), fun i => (hsrc i).2.trans (h.severe i), fun i hi => ?_⟩
  rw [Coll.receive_pending]
  exact h.pending i hi

/-- The registers of a function, and the error counters, are of no concern here. -/
theorem fnReg_minor {x : Fld} (fn : Nat) {b : Nat} (hx : x.off = b + fn * 4294967296) (hb : b < 0x2000) : x.Minor := by
  constructor <;> rw [hx]
  · simp only [R.SCH_ORDO_CTRL]
    omega
  · simp only [R.PWR_LP_CTRL]
    omega

theorem hbmUe_minor (i : Nat) : (F.MEM_HBM_UE.COUNT i).Minor := by
  constructor
  · simp only [F.MEM_HBM_UE.COUNT, R.MEM_HBM_UE, R.SCH_ORDO_CTRL]
    omega
  · simp only [F.MEM_HBM_UE.COUNT, R.MEM_HBM_UE, R.PWR_LP_CTRL]
    omega

theorem mfind_erased (m : List (Nat × Run)) (id : Nat) : ∀ i, mfind m i = none → mfind (merase m id) i = none := by
  intro i hi
  by_cases hid : i = id
  · rw [hid]
    exact mfind_merase_same _ _
  · exact (mfind_merase_ne _ _ _ hid).trans hi

section
variable {K d : Dev} (h : Kept K d)
include h

/-! ### Updates of one part -/

theorem Dev.ctxs_kept {m : List (Nat × Ctx)} (hm : ∀ key, mfind d.ctxs key = none → mfind m key = none) :
    Kept K { d with ctxs := m } :=
  { h with ctxs := fun key hk => hm key (h.ctxs key hk) }

theorem Dev.mmodCtxs_kept (key : Nat) (f : Ctx → Ctx) : Kept K { d with ctxs := mmod d.ctxs key f } := by
  refine Dev.ctxs_kept h (fun k hk => ?_)
  by_cases hkey : k = key
  · rw [hkey] at hk
    rw [hkey, mfind_mmod_same, hk]
    rfl
  · rw [mfind_mmod_ne _ _ _ _ hkey, hk]

theorem Dev.runs_kept {rs : List (Nat × Run)} (hr : ∀ i, mfind d.runs i = none → mfind rs i = none) : Kept K { d with runs := rs } :=
  { h with runs := fun i hi hk => hr i (h.runs i hi hk) }

theorem Dev.mapRuns_kept (f : Nat × Run → Nat × Run) (hf : ∀ q, (f q).1 = q.1) : Kept K { d with runs := d.runs.map f } := by
  refine Dev.runs_kept h (fun i hi => ?_)
  rw [mfind_map_values f hf, hi]
  rfl

theorem Dev.mmodRuns_kept (id : Nat) (f : Run → Run) : Kept K { d with runs := mmod d.runs id f } := by
  refine Dev.mapRuns_kept h _ (fun q => ?_)
  split <;> rfl

theorem Dev.mem_kept (m : MemSt) : Kept K { d with mem := m } := h

theorem Dev.coll_kept {c : Coll} (hc : CollKept K.coll c) : Kept K { d with coll := c } := { h with coll := hc }

theorem Dev.setReg_kept {off : Nat} (v : BitVec 64) (ho : off ≠ R.SCH_ORDO_CTRL) (hl : off ≠ R.PWR_LP_CTRL) :
    Kept K (d.setReg off v) := by
  have other : ∀ e o, o ≠ off → mget e (d.setReg off v).regs.cur o = mget e d.regs.cur o := fun e o hne =>
    mget_mput_ne (d.rst0 off) e d.regs.cur off o v hne
  have hlp := other (K.rst0 R.PWR_LP_CTRL) R.PWR_LP_CTRL hl.symm
  exact { h with
    ordo := (other (K.rst0 R.SCH_ORDO_CTRL) R.SCH_ORDO_CTRL ho.symm).trans h.ordo
    clear := fun h₁ h₂ => ⟨(congrArg _ hlp).trans (h.clear h₁ h₂).1, (congrArg _ hlp).trans (h.clear h₁ h₂).2⟩ }

theorem Dev.set_kept {x : Fld} (n : Nat) (hx : x.Minor) : Kept K (d.set x n) := Dev.setReg_kept h _ hx.1 hx.2

theorem Dev.addSat_kept {x : Fld} (n : Nat) (hx : x.Minor) : Kept K (d.addSat x n) := Dev.set_kept h _ hx

/-- What a register reads as when it has not been written is a matter of the fuses. -/
theorem Kept.rst0_eq (off : Nat) : d.rst0 off = K.rst0 off := by
  have hf : d.fuses = K.fuses := h.fuses
  simp only [Dev.rst0, Dev.oneDie, Dev.tdp, hf]

theorem Kept.ordo_reg : d.reg R.SCH_ORDO_CTRL = K.reg R.SCH_ORDO_CTRL := by
  rw [Dev.reg, Kept.rst0_eq h]
  exact h.ordo

/-- A write of the low-power register that clears its state leaves the rest. -/
theorem Kept.of_cleared {e : Dev} (he : ∃ cur entering, e = { d with
      regs := { d.regs with cur := cur }, rst := { d.rst with entering := entering } })
    (ho : e.reg R.SCH_ORDO_CTRL = d.reg R.SCH_ORDO_CTRL) (hs : e.f F.PWR_LP_CTRL.STATE = 0) (ht : e.f F.PWR_LP_CTRL.THERMAL = 0) :
    Kept K e := by
  obtain ⟨cur, entering, rfl⟩ := he
  have hk : Kept K { d with regs := { d.regs with cur := d.regs.cur }, rst := { d.rst with entering := entering } } := h
  refine { hk with ordo := ?_, clear := fun _ _ => ?_ }
  · rw [← Kept.rst0_eq h]
    exact ho.trans (Kept.ordo_reg h)
  · rw [← Kept.rst0_eq h]
    exact ⟨hs, ht⟩

/-- An entry to a low-power state that is abandoned leaves its register clear. -/
theorem Dev.abandonEntry_kept : Kept K d.abandonEntry := by
  unfold Dev.abandonEntry
  split
  · exact h
  · refine Kept.of_cleared h ⟨_, 0, rfl⟩ ?_ ?_ ?_
    · exact (Dev.reg_set_ne _ F.PWR_LP_CTRL.THERMAL _ R.SCH_ORDO_CTRL (by decide)).trans
        (Dev.reg_set_ne _ F.PWR_LP_CTRL.STATE _ R.SCH_ORDO_CTRL (by decide))
    · exact (Dev.f_set_apart _ F.PWR_LP_CTRL.THERMAL F.PWR_LP_CTRL.STATE _ (by decide) (by decide) (by decide)).trans
        (Dev.f_set_same _ _ _ (by decide))
    · exact Dev.f_set_same _ _ _ (by decide)

/-! ### The operations of the model -/

theorem Dev.take_kept : Kept K (d.take) := h

theorem Dev.send_kept (m : Tx) : Kept K (d.send m) := h

theorem Dev.countPoison_kept : Kept K d.countPoison :=
  Dev.set_kept (Dev.set_kept h _ ⟨by decide, by decide⟩) _ ⟨by decide, by decide⟩

theorem Dev.setPoison_kept (l : List Nat) : Kept K (d.setPoison l) := by
  unfold Dev.setPoison
  refine Dev.countPoison_kept ?_
  exact h

theorem Dev.wrHbm_kept (a : Nat) (bs : List Nat) : Kept K (d.wrHbm a bs) := by
  unfold Dev.wrHbm
  dsimp only
  split
  · exact h
  · split
    · exact h
    · exact Dev.setPoison_kept h _

theorem Dev.wrHost_kept (a : Nat) (bs : List Nat) : Kept K (d.wrHost a bs) := by
  unfold Dev.wrHost
  split <;> exact h

theorem Dev.forgetUnits_kept (us : List Nat) : Kept K (d.forgetUnits us) := by
  refine foldl_kept _ (fun d u h => ?_) us h
  split <;> exact h

theorem Dev.forgetRun_kept (r : Run) : Kept K (d.forgetRun r) := by
  refine foldl_kept _ (fun e w he => ?_) r.wrote (Dev.forgetUnits_kept h _)
  exact he

theorem Dev.charge_kept (id : Nat) (task : Bool) : Kept K (d.charge id task) := by
  unfold Dev.charge
  split
  · exact h
  · split
    · exact h
    · refine kept_of_ite (kept_of_ite ?_ ?_) (kept_of_ite ?_ ?_)
      · exact Dev.mmodRuns_kept h id _
      · exact Dev.mmodRuns_kept h id _
      · refine Dev.mmodCtxs_kept ?_ _ _
        exact Dev.mmodRuns_kept h id _
      · exact Dev.mmodRuns_kept h id _

theorem Dev.uncharge_kept (r : Run) : Kept K (d.uncharge r) := by
  unfold Dev.uncharge
  split_ifs
  · exact h
  · exact h
  · exact Dev.mmodCtxs_kept h _ _

theorem Dev.stopRerun_kept (id : Nat) (ph : RunPhase) (task : Bool) : Kept K (d.stopRerun id ph task) := by
  unfold Dev.stopRerun
  split
  · exact h
  · have hc : Kept K (if task then d.charge id true else (d.charge id false).uncharge ‹Run›) :=
      kept_of_ite (Dev.charge_kept h _ _) (Dev.uncharge_kept (Dev.charge_kept h _ _) _)
    exact Dev.mmodRuns_kept (Dev.forgetRun_kept hc _) _ _

theorem Dev.killRerun_kept (id : Nat) (ph : RunPhase) (task : Bool) : Kept K (d.killRerun id ph task) := by
  unfold Dev.killRerun
  split <;> simp only [h, Dev.stopRerun_kept, kept_ite, ite_self]

theorem Dev.restartTests_kept (m : Nat) : Kept K (d.restartTests m) := h

theorem Dev.startBlockReset_kept (m : Nat) : Kept K (d.startBlockReset m) := by
  unfold Dev.startBlockReset
  split
  · exact h
  · have hc := (Dev.abandonEntry_kept h).coll
    exact foldl_kept _ (fun _ _ h => Dev.killRerun_kept h _ _ _) _
      (Dev.coll_kept (Dev.restartTests_kept (Dev.abandonEntry_kept h) _) ⟨hc.ready, hc.minor, hc.severe, hc.pending⟩)

theorem Dev.chipReset_kept (n : Option Nat) : Kept K (Dev.abandonEntry { d with rst := { d.rst with chipAt := n } }) := by
  refine Dev.abandonEntry_kept ?_
  exact h

theorem Dev.react_kept (e : FaultEv) (rs : Nat) : Kept K (d.react e rs) := by
  have chip : ∀ {x : Dev} (b : Bool) (n : Option Nat), Kept K x →
      Kept K (if b then Dev.abandonEntry { x with rst := { x.rst with chipAt := n } } else x) := fun b n hx =>
    kept_of_ite (Dev.chipReset_kept hx n) hx
  have block : ∀ {x : Dev} (b : Bool), Kept K x → Kept K (if b then x.startBlockReset e.master else x) := fun b hx =>
    kept_of_ite (Dev.startBlockReset_kept hx _) hx
  have sent : ∀ {x : Dev} (b : Bool) (m : Tx), Kept K x → Kept K (if b then x.send m else x) := fun b m hx =>
    kept_of_ite (Dev.send_kept hx _) hx
  refine chip _ _ (block _ (sent _ _ (Dev.coll_kept h ?_)))
  exact ⟨h.coll.ready, h.coll.minor, h.coll.severe, fun i hi => getLsbD_setBit512 _ _ (h.coll.pending i hi)⟩

theorem Dev.event_kept (e : FaultEv) : Kept K (d.event e) :=
  kept_of_ite h (Dev.react_kept (Dev.coll_kept h (Coll.receive_kept h.coll e)) e _)

theorem Dev.raise_kept (src master addr acc : Nat) : Kept K (d.raise src master addr acc) := by
  simp only [Dev.raise, h, Dev.event_kept]

theorem Dev.fnEvent_kept (fn ev : Nat) : Kept K (d.fnEvent fn ev) := by
  have hset := Dev.set_kept h (x := ⟨R.HIF_FN_EVENT fn, ev, ev⟩) 1 (fnReg_minor fn rfl (by decide))
  exact kept_of_ite hset (Dev.send_kept hset _)

theorem Dev.setWindow_kept (n : Nat) (w : Window) : Kept K (d.setWindow n w) := h

theorem Dev.closeWhere_kept (p : Window → Bool) : Kept K (d.closeWhere p) := foldl_kept _ (fun _ _ h => Dev.setWindow_kept h _ _) _ h

theorem Dev.setBent_kept (i : Nat) (b : Bushel) : Kept K (d.setBent i b) := h

theorem Dev.setFree_kept (f : Nat) (l : List (Nat × Nat)) : Kept K (d.setFree f l) := h

theorem Dev.settleEntry_kept (i : Nat) : Kept K (d.settleEntry i) := by
  simp only [Dev.settleEntry, h, Dev.setBent_kept, Dev.setFree_kept, kept_mk, kept_dev, kept_ite, ite_self]

theorem Dev.unpin_kept (i : Nat) : Kept K (d.unpin i) := by
  simp only [Dev.unpin, h, Dev.setBent_kept, Dev.settleEntry_kept]

theorem Dev.unpinAll_kept (l : List Nat) : Kept K (d.unpinAll l) := foldl_kept _ (fun _ _ h => Dev.unpin_kept h _) _ h

theorem Dev.kvReset_kept (f : Nat) : Kept K (d.kvReset f) := by
  unfold Dev.kvReset
  extract_lets gone e
  have he : Kept K e := by
    refine foldl_kept _ (fun x i hx => ?_) gone h
    exact hx
  exact he

theorem Dev.energyNow_kept : Kept K (d.energyNow) := h

theorem Dev.closePhase_kept : Kept K (d.closePhase) := by
  grind only [Dev.closePhase, = kept_mk, = kept_dev, Dev.energyNow_kept]

theorem Dev.modCtx_kept (key : Nat) (f : Ctx → Ctx) : Kept K (d.modCtx key f) := Dev.mmodCtxs_kept h _ _

theorem Dev.signalRec_kept (key : Nat) (atOnce : Bool) : Kept K (d.signalRec key atOnce) := by
  unfold Dev.signalRec
  split <;> simp only [h, Dev.send_kept, Dev.modCtx_kept, kept_ite, ite_self]

theorem Dev.emit_kept (key : Nat) (r : Rec) : Kept K (d.emit key r) := by
  grind only [Dev.emit, Dev.wrHost_kept, Dev.modCtx_kept, Dev.signalRec_kept]

theorem Dev.emitFree_kept (key : Nat) (r : Rec) : Kept K (d.emitFree key r) := by
  unfold Dev.emitFree
  split
  · exact h
  · refine kept_of_ite h (kept_of_ite (Dev.emit_kept h _ _) (Dev.raise_kept (Dev.fnEvent_kept (Dev.set_kept h _ ?_) _ _) _ _ _ _))
    exact fnReg_minor (key / 4096) rfl (by decide)

theorem Dev.endHead_kept (key status detail slow info : Nat) : Kept K (d.endHead key status detail slow info) := by
  grind only [Dev.endHead, = kept_mk, = kept_dev, Dev.modCtx_kept, Dev.emit_kept]

theorem Dev.kvSettle_kept (f : Nat) : Kept K (d.kvSettle f) := by
  refine kept_of_ite (Dev.kvReset_kept ?_ f) h
  exact h

theorem Dev.kvEnd_kept (f : Nat) : Kept K (d.kvEnd f) := by
  refine Dev.kvSettle_kept ?_ f
  exact h

theorem Dev.dropRun_kept (id : Nat) : Kept K (d.dropRun id) := by
  unfold Dev.dropRun
  split
  · exact h
  · exact Dev.kvSettle_kept (Dev.runs_kept (Dev.forgetRun_kept (Dev.unpinAll_kept (Dev.charge_kept h _ _) _) _) (mfind_erased _ id)) _

theorem Dev.someGranules_kept (n : Nat) (go : Dev → Nat → Dev) (hgo : ∀ d i, Kept K d → Kept K (go d i)) : Kept K (d.someGranules n
    go) := by
  refine foldl_kept _ (fun e i h => ?_) _ h
  split
  · exact hgo _ _ h
  · exact h

theorem Dev.mixHbm_kept (a : Nat) (new : List Nat) : Kept K (d.mixHbm a new) := by
  simp +contextual only [Dev.mixHbm, h, Dev.wrHbm_kept, Dev.someGranules_kept, implies_true]

theorem Dev.copyMix_kept (bs : List Nat) : Kept K (d.copyMix bs) := by
  simp +contextual only [Dev.copyMix, h, Dev.wrHost_kept, Dev.someGranules_kept, Dev.mixHbm_kept, kept_ite, ite_self,
    implies_true]

theorem Dev.pullMix_kept (bs : List Nat) : Kept K (d.pullMix bs) := by
  refine Dev.someGranules_kept h _ _ (fun _ _ hx => Dev.take_kept (Dev.setPoison_kept ?_ _))
  exact hx

theorem Dev.stopHead_kept (k : RingCmd) : Kept K (d.stopHead k) := by
  unfold Dev.stopHead
  split <;> simp only [h, Dev.dropRun_kept, Dev.copyMix_kept, Dev.pullMix_kept]

theorem Dev.countSlow_kept (key x : Nat) : Kept K (d.countSlow key x) := Dev.modCtx_kept h key _

theorem Dev.noteSlow_kept (r : Run) (v : Option Nat) : Kept K (d.noteSlow r v) := by
  unfold Dev.noteSlow
  split <;> simp only [h, Dev.modCtx_kept, Dev.countSlow_kept, kept_mk, kept_dev, kept_ite, ite_self]

theorem Dev.dropCtx_kept (key : Nat) : Kept K (d.dropCtx key) := by
  refine { h with ctxs := fun k hk => ?_ }
  by_cases hkey : k = key
  · rw [hkey]
    exact mfind_merase_same _ _
  · exact (mfind_merase_ne _ _ _ hkey).trans (h.ctxs k hk)

theorem Dev.freeCtx_kept (key : Nat) : Kept K (d.freeCtx key) := by
  simp only [Dev.freeCtx, h, Dev.closeWhere_kept, Dev.dropCtx_kept]

theorem Dev.opDone_kept (fn status : Nat) : Kept K (d.opDone fn status) :=
  Dev.fnEvent_kept (Dev.set_kept (Dev.set_kept h _ (fnReg_minor fn rfl (by decide))) _ (fnReg_minor fn rfl (by decide))) _ _

theorem Dev.cutHead_kept (key : Nat) (k : RingCmd) (status : Nat) : Kept K (d.cutHead key k status) := by
  unfold Dev.cutHead
  split
  · exact Dev.endHead_kept (Dev.noteSlow_kept (Dev.stopHead_kept h _) _ _) _ _ _ _ _
  · exact Dev.endHead_kept (Dev.stopHead_kept h _) _ _ _ _ _

theorem Dev.pump_kept (key n : Nat) : Kept K (d.pump key n) := by
  induction n generalizing d with
  | zero => exact h
  | succ n ih =>
    unfold Dev.pump
    grind only [Dev.endHead_kept, Dev.cutHead_kept, Dev.freeCtx_kept, Dev.opDone_kept, Dev.modCtx_kept,
      Dev.emit_kept]

theorem Dev.leaveTurn_kept (key : Nat) : Kept K (d.leaveTurn key) := by
  simp only [Dev.leaveTurn, h, kept_mk, kept_dev, kept_ite, ite_self]

theorem Dev.pumpCtx_kept (key : Nat) : Kept K (d.pumpCtx key) := by
  unfold Dev.pumpCtx
  split
  · exact h
  · exact Dev.leaveTurn_kept (Dev.pump_kept h _ _) _

theorem Dev.complete_kept (key status detail slow info : Nat) : Kept K (d.complete key status detail slow info) := by
  simp only [Dev.complete, h, Dev.endHead_kept, Dev.pumpCtx_kept]

theorem Dev.modTask_kept (slot : Nat) (f : Task → Task) : Kept K (d.modTask slot f) := h

theorem Dev.modRun_kept (id : Nat) (f : Run → Run) : Kept K (d.modRun id f) := Dev.mmodRuns_kept h _ _

theorem Dev.addRun_kept (r : Run) : Kept K (d.addRun r) := by
  refine { h with runs := fun i hi hk => ?_, nextRun := Nat.le_succ_of_le h.nextRun }
  exact (mfind_mset_ne _ _ _ _ (Nat.ne_of_lt (Nat.lt_of_lt_of_le hi h.nextRun))).trans (h.runs i hi hk)

theorem Dev.pushTask_kept (slot : Nat) : Kept K (d.pushTask slot) := by
  grind only [Dev.pushTask, Dev.addRun_kept]

theorem Dev.phaseDone_kept : Kept K (d.phaseDone) := by
  unfold Dev.phaseDone
  split <;> simp only [h, Dev.closePhase_kept, kept_ite, ite_self]

theorem Dev.endTaskCmd_kept (r : Run) (status cause slow : Nat) : Kept K (d.endTaskCmd r status cause slow) := by
  grind only [Dev.endTaskCmd, Dev.emitFree_kept, Dev.modTask_kept, Dev.pushTask_kept, Dev.phaseDone_kept]

theorem Dev.finish_kept (id status cause : Nat) : Kept K (d.finish id status cause) := by
  grind only [Dev.finish, = kept_mk, = kept_dev, Dev.dropRun_kept, Dev.noteSlow_kept, Dev.complete_kept, Dev.endTaskCmd_kept]

theorem Dev.killFinal_kept (id status cause : Nat) : Kept K (d.killFinal id status cause) := by
  unfold Dev.killFinal
  split <;> simp only [h, Dev.finish_kept, kept_ite, ite_self]

theorem Dev.killHeads_kept (p : Nat → Bool) (status : Nat) : Kept K (d.killHeads p status) := by
  refine foldl_kept _ (fun d q h => ?_) _ h
  split
  · exact h
  · split <;> simp only [h, Dev.complete_kept, Dev.stopHead_kept]

theorem Dev.killWhere_kept (p : Run → Bool) (status cause : Nat) : Kept K (d.killWhere p status cause) :=
  foldl_kept _ (fun _ _ h => Dev.killFinal_kept h _ _ _) _ h

theorem Dev.forgetMem_kept (u : Nat) : Kept K (d.forgetMem u) := h

theorem Dev.emptyMems_kept (us : List Nat) : Kept K (d.emptyMems us) := foldl_kept _ (fun _ _ h => Dev.forgetMem_kept h _) _ h

theorem Dev.patrolTurn_kept : Kept K (d.patrolTurn) := Dev.mem_kept h _

theorem Dev.rowSeen_kept (a n : Nat) : Kept K (d.rowSeen a n) := h

theorem Dev.poisonAt_kept (a : Nat) : Kept K (d.poisonAt a) := by
  simp only [Dev.poisonAt, h, Dev.setPoison_kept, kept_ite, ite_self]

theorem Dev.hbmUeAt_kept (a acc : Nat) : Kept K (d.hbmUeAt a acc) :=
  Dev.raise_kept (Dev.addSat_kept (Dev.rowSeen_kept (Dev.poisonAt_kept (Dev.patrolTurn_kept h) _) _ _) _ (hbmUe_minor _)) _ _ _ _

theorem Dev.killUe_kept (id a acc : Nat) : Kept K (d.killUe id a acc) := by
  simp only [Dev.killUe, h, Dev.killFinal_kept, Dev.hbmUeAt_kept]

theorem Dev.swapOut_kept (key : Nat) : Kept K (d.swapOut key) := by
  unfold Dev.swapOut
  split
  · exact h
  · have hout : ∀ (b : Bool) (m : Tx) (f : Ctx → Ctx), Kept K ((if b then d.send m else d).modCtx key f) := fun b m f =>
      Dev.modCtx_kept (kept_of_ite (Dev.send_kept h m) h) key f
    exact kept_of_ite (Dev.take_kept (Dev.setPoison_kept (Dev.mem_kept (hout _ _ _) _) _)) (hout _ _ _)

theorem Dev.makeRoom_kept : ∀ e, d.makeRoom = some e → Kept K e := by
  grind only [Dev.makeRoom, Dev.swapOut_kept]

theorem Dev.swapTake_kept (key : Nat) : Kept K (d.swapTake key) := by
  grind only [Dev.swapTake, Dev.raise_kept, Dev.modCtx_kept, Dev.freeCtx_kept, Dev.hbmUeAt_kept]

theorem Dev.swapIn_kept (key : Nat) : Kept K (d.swapIn key []) := Dev.swapTake_kept h key

theorem Dev.heldBells_kept (key : Nat) : Kept K (d.heldBells key) := by
  simp only [Dev.heldBells, h, Dev.modCtx_kept, Dev.pumpCtx_kept]

theorem Dev.bellAct_kept (key : Nat) (first : Bool) : Kept K (d.bellAct key [] first) := by
  unfold Dev.bellAct
  split
  · exact h
  · refine kept_of_ite h (kept_of_ite (Dev.heldBells_kept h _) ?_)
    split
    · next hroom => exact Dev.heldBells_kept (Dev.swapIn_kept (Dev.makeRoom_kept h _ hroom) _) _
    · exact kept_of_ite (Dev.fnEvent_kept h _ _) h

theorem Dev.hubUe_kept (key g acc : Nat) : Kept K (d.hubUe key g acc) := by
  simp only [Dev.hubUe, h, Dev.complete_kept, Dev.hbmUeAt_kept]

theorem Dev.kvWrite_kept (bs : List Nat) (i ref : Nat) : Kept K (d.kvWrite bs i ref) := by
  simp only [Dev.kvWrite, h, Dev.wrHbm_kept, Dev.wrHost_kept, kept_ite, ite_self]

theorem Dev.kvDone_kept (key : Nat) (bs : List Nat) (i ref : Nat) : Kept K (d.kvDone key bs i ref) := by
  simp only [Dev.kvDone, h, Dev.complete_kept, Dev.kvWrite_kept]

theorem Dev.cowEnd_kept (key i j : Nat) (bs : List Nat) : Kept K (d.cowEnd key i j bs) := by
  unfold Dev.cowEnd
  dsimp only
  split
  · exact Dev.hubUe_kept (Dev.unpin_kept (Dev.take_kept (Dev.mem_kept h _)) _) _ _ _
  · exact Dev.kvDone_kept (Dev.addSat_kept (Dev.unpin_kept (Dev.wrHbm_kept h _ _) _) _ ⟨by decide, by decide⟩) _ _ _ _

theorem Dev.cowCopyDone_kept (key : Nat) : Kept K (d.cowCopyDone key []) := by
  unfold Dev.cowCopyDone
  split
  · exact h
  · refine kept_of_ite h ?_
    split
    · exact Dev.cowEnd_kept h _ _ _ _
    · exact h

theorem Dev.rplStop_kept : Kept K (d.rplStop) := by
  refine Dev.set_kept ?_ _ ⟨by decide, by decide⟩
  exact h

theorem Dev.cutReplay_kept (key n : Nat) : Kept K (d.cutReplay key n) := by
  refine kept_of_ite (Dev.take_kept ?_) h
  exact h

end

section
variable {K d : Dev} (h : Kept K d)
include h

theorem Kept.pinned_eq (key : Nat) : d.pinned key = K.pinned key := by
  have hbanks : d.frame.banks = K.frame.banks := h.banks
  have hbank : d.f F.SCH_ORDO_CTRL.BANK = K.f F.SCH_ORDO_CTRL.BANK := congrArg (getFld _) (Kept.ordo_reg h)
  have hpend : d.f F.SCH_ORDO_CTRL.PENDING = K.f F.SCH_ORDO_CTRL.PENDING := congrArg (getFld _) (Kept.ordo_reg h)
  rw [Dev.pinned, Dev.pinned, Dev.bankNames, Dev.bankNames, Dev.on, Dev.on, hbanks, hbank, hpend]

theorem Dev.turns_kept (l : List Nat) : Kept K { d with turns := l } := h

theorem Dev.takeOver_kept : Kept K d.takeOver := by
  have hb := Dev.abandonEntry_kept h
  have hc := hb.coll
  have hcoll : Kept K { d.abandonEntry with coll := { d.abandonEntry.coll with blockResets := [] } } :=
    Dev.coll_kept hb ⟨hc.ready, hc.minor, hc.severe, hc.pending⟩
  unfold Dev.takeOver
  refine Dev.mapRuns_kept hcoll _ (fun q => ?_)
  split <;> rfl

end

/-! ## The end of rings -/

/-- The contexts that a reset of the rings for which `p` holds ends. -/
def Dev.ringKeys (d : Dev) (p : Nat → Bool) : List Nat := (d.ctxs.filter (fun q => p q.1)).map Prod.fst

/-- What the end of rings does with their contexts, once their commands have stopped. -/
def Dev.dropRing (d : Dev) (key : Nat) : Dev :=
  let d := d.cutReplay key 0
  if d.pinned key then
    { d.modCtx key (fun c => { c with
        cmds := [], ending := none, fetch := 0, tail := 0, heldTail := none, heldHead := none, unsig := 0, unsigSince := none }) with
      turns := d.turns.filter (fun k => k != key) }
  else d.dropCtx key

theorem Dev.dropRing_kept {K d : Dev} (h : Kept K d) (key : Nat) : Kept K (d.dropRing key) := by
  have hcut := Dev.cutReplay_kept h key 0
  exact kept_of_ite (Dev.turns_kept (Dev.modCtx_kept hcut key _) _) (Dev.dropCtx_kept hcut key)

theorem Dev.dropRing_ctx {K d : Dev} (h : Kept K d) {key : Nat} (hp : K.pinned key = false) : (d.dropRing key).ctx key = none := by
  have hpin : (d.cutReplay key 0).pinned key = false := (Kept.pinned_eq (Dev.cutReplay_kept h key 0) key).trans hp
  rw [Dev.dropRing, hpin]
  exact mfind_merase_same _ _

theorem Dev.endRings_eq (d : Dev) (p : Nat → Bool) (link : Bool) :
    ∃ e, d.endRings p link = (d.ringKeys p).foldl Dev.dropRing e ∧ ∀ K, Kept K d → Kept K e := by
  refine ⟨_, rfl, fun K h => ?_⟩
  refine foldl_kept _ (fun d q h => ?_) _ (foldl_kept _ (fun d key h => ?_) _ (foldl_kept _ (fun d key h => ?_) _ h))
  · exact kept_of_ite (Dev.dropRun_kept h _) (Dev.modCtx_kept (Dev.modRun_kept h _ _) _ _)
  · split
    · exact h
    · split
      · exact Dev.cowCopyDone_kept h _
      · refine Dev.endHead_kept ?_ _ _ _ _ _
        exact h
      · exact Dev.copyMix_kept h _
      · exact Dev.pullMix_kept h _
      · exact h
  · exact Dev.modCtx_kept (Dev.cutReplay_kept h _ _) _ _

theorem Dev.endRings_kept {K d : Dev} (h : Kept K d) (p : Nat → Bool) (link : Bool) : Kept K (d.endRings p link) := by
  obtain ⟨e, he, hk⟩ := Dev.endRings_eq d p link
  rw [he]
  exact foldl_kept _ (fun _ key hx => Dev.dropRing_kept hx key) _ (hk K h)

theorem Dev.dropRings_ctx (keys : List Nat) {K e : Dev} (h : Kept K e) {key : Nat} (hp : K.pinned key = false)
    (hk : key ∈ keys ∨ K.ctx key = none) : (keys.foldl Dev.dropRing e).ctx key = none := by
  induction keys generalizing e K with
  | nil => exact h.ctxs key (hk.resolve_left List.not_mem_nil)
  | cons k keys ih =>
    have hnext := Dev.dropRing_kept h k
    have hself : ∀ x, Kept x x := Kept.refl
    by_cases hkey : key = k
    · subst hkey
      exact ih (hself _) ((Kept.pinned_eq hnext key).trans hp) (.inr (Dev.dropRing_ctx h hp))
    · exact ih hnext hp (hk.imp (fun hm => (List.mem_cons.mp hm).resolve_left hkey) id)

/-- A context of a ring that ends goes, unless a bank pins it. -/
theorem Dev.endRings_ctx {K d : Dev} (h : Kept K d) (p : Nat → Bool) (link : Bool) {key : Nat} (hkey : p key = true)
    (hp : K.pinned key = false) : (d.endRings p link).ctx key = none := by
  obtain ⟨e, he, hk⟩ := Dev.endRings_eq d p link
  rw [he]
  refine Dev.dropRings_ctx _ (hk d (.refl d)) ((Kept.pinned_eq h key).trans hp) ?_
  rcases hc : d.ctx key with _ | c
  · exact .inr rfl
  · left
    have hmem : key ∈ d.ctxs.map Prod.fst := (mfind_isSome_iff _ _).mp (by rw [Dev.ctx] at hc; rw [hc]; rfl)
    obtain ⟨q, hq, rfl⟩ := List.mem_map.mp hmem
    exact List.mem_map.mpr ⟨q, List.mem_filter.mpr ⟨hq, hkey⟩, rfl⟩

/-! ## Link and function resets -/

/-- What the end of rings, memories and streams leaves of the contexts stays with the registers of functions reset. -/
theorem Dev.resetFns_effect (l : List Nat) (d : Dev) :
    ∃ cur, l.foldl Dev.resetFn d = { d with regs := { d.regs with cur := cur } } := by
  refine foldl_induct (fun e => ∃ cur, e = { d with regs := { d.regs with cur := cur } }) Dev.resetFn ?_ l ⟨d.regs.cur, rfl⟩
  rintro _ fn ⟨cur, rfl⟩
  exact ⟨_, rfl⟩

theorem Dev.linkReset_effect {d : Dev} (hw : d.rst.warm = false) (hl : d.rst.low ≠ 2) :
    let e := d.linkReset
    e.rst.linkUp = false ∧ (∀ key, d.pinned key = false → e.ctx key = none) ∧ e.flags = d.flags ∧ (∀ fn, e.cfgOf fn = cfgInit) ∧
      e.alm = d.alm ∧ e.fuses = d.fuses := by
  have htaken := Dev.takeOver_kept (.refl d)
  obtain ⟨us, hus⟩ : ∃ us, us = cluMems (List.range d.nClus) ++ regMems (List.range d.nReg) := ⟨_, rfl⟩
  have hmems : Kept d ((d.takeOver.endRings (fun _ => true) true).emptyMems us) :=
    Dev.emptyMems_kept (Dev.endRings_kept htaken _ _) _
  have hctx : ∀ key, d.pinned key = false → ((d.takeOver.endRings (fun _ => true) true).emptyMems us).ctx key = none := fun key hp =>
    (Dev.emptyMems_kept (.refl _) us).ctxs key (Dev.endRings_ctx htaken _ _ rfl hp)
  have hgo : d.linkReset = (List.range 16).foldl Dev.resetFn
      { ((d.takeOver.endRings (fun _ => true) true).emptyMems us).resetCfg with
        rst := { ((d.takeOver.endRings (fun _ => true) true).emptyMems us).rst with linkUp := false } } := by
    rw [Dev.linkReset, if_neg (by simp [hw, hl]), hus]
    rfl
  obtain ⟨cur, hcur⟩ := Dev.resetFns_effect (List.range 16)
      { ((d.takeOver.endRings (fun _ => true) true).emptyMems us).resetCfg with
        rst := { ((d.takeOver.endRings (fun _ => true) true).emptyMems us).rst with linkUp := false } }
  rw [hgo, hcur]
  exact ⟨rfl, hctx, hmems.flags, fun _ => rfl, hmems.alm, hmems.fuses⟩

/-- What a function reset does once the rings of its function have ended. -/
def Dev.clearFn (d : Dev) (f : Nat) : Dev :=
  let d := { d with mods := d.mods.filter (fun m => m.2.part != f || d.bankNames (fun s => s.modId == m.1)),
                    tdt := d.tdt.map (fun (q : Nat × TDesc) => (q.1, if q.2.part = f then { q.2 with valid := false } else q.2)) }
  let d := (d.kvEnd f).closeWhere (fun w => w.part == f)
  let d := { d with lnk := { d.lnk with maps := d.lnk.maps.filter (fun q => q.2.part != f) } }
  if d.on F.RPL_CTRL.BUSY && d.rplPart == f then d.rplStop else d

theorem Dev.clearFn_kept {K d : Dev} (h : Kept K d) (f : Nat) : Kept K (d.clearFn f) := by
  have hparts : ∀ x : Dev, Kept K x → ∀ m t, Kept K { x with mods := m, tdt := t } := fun _ hx _ _ => hx
  have hlnk : ∀ x : Dev, Kept K x → ∀ l, Kept K { x with lnk := l } := fun _ hx _ => hx
  have hend := fun m t => hlnk _ (Dev.closeWhere_kept (Dev.kvEnd_kept (hparts d h m t) f) (fun w => w.part == f))
  exact kept_of_ite (Dev.rplStop_kept (hend _ _ _)) (hend _ _ _)

theorem mget_filter_out {α : Type} (v₀ : α) (m : List (Nat × α)) (f : Nat → Bool) (k : Nat) (h : f k = false) :
    mget v₀ (m.filter (fun q => f q.1)) k = v₀ := by
  induction m with
  | nil => rfl
  | cons p m ih =>
    rw [List.filter_cons]
    split
    · next hp =>
      rw [mget, if_neg, ih]
      intro hk
      rw [hk, h] at hp
      cases hp
    · exact ih

/-- The registers of a function that is reset read as at a reset. -/
theorem Dev.resetFn_reg (d : Dev) {fn o : Nat} (h : fnReg fn o = true) : (d.resetFn fn).reg o = (d.resetFn fn).rst0 o :=
  mget_filter_out _ d.regs.cur (fun o => !fnReg fn o) o (by rw [h]; rfl)

theorem Dev.cfgOf_modCfg (d : Dev) (fn : Nat) (f : CfgFn → CfgFn) : (d.modCfg fn f).cfgOf fn = f (d.cfgOf fn) :=
  mget_mput_same cfgInit d.cfg fn _

theorem Dev.functionReset_effect {d : Dev} {fn : Nat} (hw : d.rst.warm = false) (hl : d.rst.low ≠ 2) (hr : d.linkResetting = false)
    (hf : fn < 16) :
    let e := d.functionReset fn
    (∀ ctx, ctx < 4096 → d.pinned (ckey fn ctx) = false → e.ctx (ckey fn ctx) = none) ∧ e.flags = d.flags ∧
      e.rst.linkUp = d.rst.linkUp ∧ e.fuses = d.fuses ∧ (∀ o, fnReg fn o = true → e.reg o = e.rst0 o) ∧ e.cfgOf fn = cfgInit := by
  have hkilled := Dev.killWhere_kept (Dev.takeOver_kept (.refl d)) (fun r => r.ordo && r.part == fn) stInvalidated 5
  obtain ⟨x, hx⟩ : ∃ x, x = (d.takeOver.killWhere (fun r => r.ordo && r.part == fn) stInvalidated 5) := ⟨_, rfl⟩
  rw [← hx] at hkilled
  have hgo : d.functionReset fn =
      ((((x.endRings (fun key => key / 4096 == fn) false).emptyMems (x.partMems fn)).clearFn fn).resetFn fn).modCfg fn (fun _ => cfgInit) := by
    rw [Dev.functionReset, if_neg (by simp [hw, hl, hr, hf]), hx]
    rfl
  obtain ⟨y, hy⟩ : ∃ y, y = ((x.endRings (fun key => key / 4096 == fn) false).emptyMems (x.partMems fn)).clearFn fn := ⟨_, rfl⟩
  have hkept : Kept d y := hy ▸ Dev.clearFn_kept (Dev.emptyMems_kept (Dev.endRings_kept hkilled _ _) _) fn
  rw [hgo, ← hy]
  have hreg : ∀ o, fnReg fn o = true → (y.resetFn fn).reg o = (y.resetFn fn).rst0 o := fun o ho => Dev.resetFn_reg y ho
  refine ⟨fun ctx hc hp => ?_, hkept.flags, hkept.linkUp, hkept.fuses, hreg, Dev.cfgOf_modCfg _ _ _⟩
  have hmine : (ckey fn ctx / 4096 == fn) = true := by
    rw [ckey, beq_iff_eq]
    omega
  have hgone := Dev.endRings_ctx hkilled (fun key => key / 4096 == fn) false hmine hp
  have hstay := (Dev.clearFn_kept (Dev.emptyMems_kept (.refl _) (x.partMems fn)) fn).ctxs _ hgone
  rw [← hy] at hstay
  exact hstay

/-! ## Entries to low power, and the way out -/

theorem Dev.lpRequest_refused {d : Dev} (n : Nat) (h : d.lpRefused = true) : d.lpRequest n = d.set F.PWR_LP_CTRL.REFUSED 1 := if_pos h

theorem Dev.lpRequest_taken {d : Dev} (n : Nat) (h : d.lpRefused = false) :
    d.lpRequest n = Dev.set { d with rst := { d.rst with entering := n } } F.PWR_LP_CTRL.STATE 2 := if_neg (by rw [h]; decide)

theorem Dev.lpEntered_doze {d : Dev} (h : d.rst.entering = 1) :
    let e := d.lpEntered
    e.rst.low = 1 ∧ e.rst.entering = 0 ∧ e.f F.PWR_LP_CTRL.STATE = 1 ∧ e.mem.hbm = d.mem.hbm ∧
      (∀ p ∈ e.lam, p.2.frame = none ∧ p.2.sweep = none) ∧ e.frame = d.frame ∧ e.coll = d.coll ∧ e.ctxs = d.ctxs := by
  intro e
  have he : e = Dev.set { d.loseSram.dropSlices with
      rst := { d.rst with entering := 0, low := 1 },
      lam := d.lam.map (fun (q : Nat × Stream) => (q.1, { q.2 with frame := none, sweep := none })) } F.PWR_LP_CTRL.STATE 1 := by
    simp only [e, Dev.lpEntered, h]
    rfl
  rw [he]
  refine ⟨rfl, rfl, Dev.f_set_same _ _ _ (by decide), rfl, fun p hp => ?_, rfl, rfl, rfl⟩
  obtain ⟨q, -, rfl⟩ := List.mem_map.mp hp
  exact ⟨rfl, rfl⟩

/-- A block with no context, command, module or link, and the fuses `F`. -/
def Bare (F : Fuses) (d : Dev) : Prop :=
  d.ctxs = [] ∧ d.runs = [] ∧ d.mods = [] ∧ d.rst.linkUp = false ∧ d.fuses = F

section
variable {F : Fuses} {d : Dev} (h : Bare F d)
include h

theorem Dev.set_bare (x : Fld) (n : Nat) : Bare F (d.set x n) := h

theorem Dev.countPoison_bare : Bare F d.countPoison := h

theorem Dev.loseSram_bare : Bare F d.loseSram := h

theorem Dev.dropSlices_bare : Bare F d.dropSlices := h

theorem Dev.applyRows_bare (p : Nat → Bool) : Bare F (d.applyRows p) := by
  obtain ⟨_, _, _, _, he⟩ := Dev.applyRows_shape d p
  rw [he]
  exact h

theorem Dev.reachOpp_bare (r k : Nat) : Bare F (d.reachOpp r k) := by
  obtain ⟨hc, hr, hm, hl, hf⟩ := h
  refine ⟨hc, ?_, hm, hl, hf⟩
  show d.runs.map _ = []
  rw [hr]
  rfl

theorem Dev.forceLow_bare : Bare F d.forceLow := by
  refine foldl_induct (Bare F) _ (fun _ r hx => Dev.reachOpp_bare hx r 7) _ ?_
  exact h

theorem Dev.hubEvent_bare (src master addr acc : Nat) (hm : 7 ≤ unitKind master) : Bare F (d.raise src master addr acc) := by
  obtain ⟨_, _, _, _, _, he⟩ := Dev.event_hub d ⟨src, master, addr, acc, d.now⟩ hm
  rw [Dev.raise, he]
  exact h

end


theorem Dev.rollBack_fuses (d : Dev) (l : List (Nat × List Nat × Bool)) : (d.rollBack l).fuses = d.fuses := by
  refine foldl_keeps Dev.fuses _ (fun e x => ?_) _ d
  dsimp only
  split <;> rfl

theorem Dev.cutShort_fuses (d : Dev) : d.cutShort.fuses = d.fuses := by
  refine (foldl_keeps Dev.fuses _ (fun e q => Dev.rollBack_fuses e _) _ _).trans (foldl_keeps Dev.fuses _ (fun e q => ?_) _ _)
  split
  · rfl
  · split
    · exact (Dev.copyMix_kept (.refl e) _).fuses
    · exact (Dev.pullMix_kept (.refl e) _).fuses
    · exact (Dev.mixHbm_kept (.refl e) _ _).fuses
    · rfl

theorem Dev.setAll_fuses (l : List Nat) (x : Nat → Fld) (n : Dev → Nat → Nat) (d : Dev) :
    (l.foldl (fun d f => d.set (x f) (n d f)) d).fuses = d.fuses :=
  foldl_keeps Dev.fuses (fun (d : Dev) f => d.set (x f) (n d f)) (fun _ _ => rfl) l d

theorem Dev.keepRegs_fuses (d : Dev) (p : Nat → Bool) : (d.keepRegs p).fuses = d.fuses := rfl

/-- A part that loses everything keeps its fuses alone. -/
theorem Dev.clearPart_bare (d : Dev) (setup : Bool) : Bare d.fuses (d.clearPart setup) := by
  unfold Dev.clearPart
  extract_lets d1 z causes d2 d3
  have hf : d3.fuses = d.fuses := (Dev.setAll_fuses (List.range 16) _ _ d2).trans ((Dev.keepRegs_fuses d1 _).trans (Dev.cutShort_fuses d))
  clear_value d3 causes z
  have final : ∀ e : Dev, Bare d.fuses e → Bare d.fuses (if causes.1 || causes.2 then e.forceLow else e) := fun e he => by
    split
    · exact Dev.forceLow_bare he
    · exact he
  refine final _ (Dev.set_bare (Dev.set_bare (Dev.set_bare (Dev.countPoison_bare (Dev.applyRows_bare (Dev.dropSlices_bare
    (Dev.loseSram_bare ?_)) _)) _ _) _ _) _ _)
  cases d3
  exact ⟨rfl, rfl, rfl, rfl, hf⟩

theorem Dev.allHoldover_bare {F : Fuses} {d : Dev} (h : Bare F d) : Bare F d.allHoldover ∧
    d.allHoldover.rst.low = d.rst.low ∧ d.allHoldover.rst.hbmReady = d.rst.hbmReady := by
  obtain ⟨e, he⟩ : ∃ e, e = (List.range 2).foldl (fun (d : Dev) i =>
    if d.domState i == 2 || d.domState i == 3 then d.setDom i 4 else d) d := ⟨_, rfl⟩
  have hset : Bare F e ∧ e.rst.low = d.rst.low ∧ e.rst.hbmReady = d.rst.hbmReady := by
    rw [he]
    refine foldl_induct (fun x : Dev => Bare F x ∧ x.rst.low = d.rst.low ∧ x.rst.hbmReady = d.rst.hbmReady) _ (fun x i hx => ?_) _
      ⟨h, rfl, rfl⟩
    split
    · exact hx
    · exact hx
  have hgo : d.allHoldover = if !d.noneLocked && e.noneLocked then e.raise 0x181 0x8030 0 0 else e := by
    rw [he]
    rfl
  rw [hgo]
  split
  · obtain ⟨_, _, _, _, _, hev⟩ := Dev.event_hub e ⟨0x181, 0x8030, 0, 0, e.now⟩ (by decide : 7 ≤ unitKind 0x8030)
    refine ⟨Dev.hubEvent_bare hset.1 _ _ _ _ (by decide), ?_⟩
    rw [Dev.raise, hev]
    exact hset.2
  · exact hset

/-- A part that has lost everything, in Keep. -/
def Dev.inKeep (d : Dev) : Dev :=
  { d.clearPart false with rst := { (d.clearPart false).rst with low := 2, hbmReady := false, keepHbm := false } }

theorem Dev.lpEntered_of_keep {d : Dev} (h : d.rst.entering = 2) :
    d.lpEntered = (d.inKeep.allHoldover.set F.PWR_LP_WAKE.TIME (d.f F.PWR_LP_WAKE.TIME)).take.set F.PWR_LP_CTRL.STATE
      (Config.freeNat d.inKeep.fresh 0) := by
  unfold Dev.lpEntered
  rw [h]
  rfl

theorem Dev.inKeep_bare (d : Dev) : Bare d.fuses d.inKeep := Dev.clearPart_bare d false

theorem Dev.keepSet_effect (x : Dev) (G : Fuses) (wake n : Nat) (hb : Bare G x) :
    let e := (x.set F.PWR_LP_WAKE.TIME wake).take.set F.PWR_LP_CTRL.STATE n
    e.rst = x.rst ∧ Bare G e ∧ e.f F.PWR_LP_WAKE.TIME = wake % 2 ^ (F.PWR_LP_WAKE.TIME.hi + 1 - F.PWR_LP_WAKE.TIME.lo) :=
  ⟨rfl, hb, (Dev.f_set_apart _ _ _ _ (by decide) (by decide) (by decide)).trans (Dev.f_set_same x _ _ (by decide))⟩

/-- A field reads as no more than it holds. -/
theorem getFld_mod (x : Fld) (v : BitVec 64) : getFld x v % 2 ^ (x.hi + 1 - x.lo) = getFld x v := Nat.mod_mod _ _

theorem Dev.lpEntered_keep {d : Dev} (h : d.rst.entering = 2) :
    let e := d.lpEntered
    e.rst.low = 2 ∧ e.rst.linkUp = false ∧ e.rst.hbmReady = false ∧ e.ctxs = [] ∧ e.runs = [] ∧ e.mods = [] ∧
      e.f F.PWR_LP_WAKE.TIME = d.f F.PWR_LP_WAKE.TIME ∧ e.fuses = d.fuses := by
  obtain ⟨hbare, hlow, hready⟩ := Dev.allHoldover_bare (Dev.inKeep_bare d)
  obtain ⟨hrst, ⟨hc, hr, hm, hl, hf⟩, htime⟩ := Dev.keepSet_effect _ _ (d.f F.PWR_LP_WAKE.TIME) (Config.freeNat d.inKeep.fresh 0) hbare
  have hlow2 : d.inKeep.rst.low = 2 := rfl
  have hready2 : d.inKeep.rst.hbmReady = false := rfl
  rw [Dev.lpEntered_of_keep h]
  exact ⟨(congrArg Rst.low hrst).trans (hlow.trans hlow2), hl, (congrArg Rst.hbmReady hrst).trans (hready.trans hready2), hc, hr, hm,
    htime.trans (getFld_mod _ _), hf⟩

/-! ## The end of Doze -/

/-- The block at the end of Doze, before the doorbells that were held. -/
def Dev.awoken (d : Dev) : Dev :=
  (((Dev.set { d with rst := { d.rst with low := 0 } } F.PWR_LP_CTRL.STATE 0).set F.PWR_LP_CTRL.THERMAL 0).testAll).rotAfresh

theorem Dev.wake_of_doze {d : Dev} {who : Who} (hl : d.rst.low = 1) (hm : d.mayWake who = true) (ht : d.on F.PWR_LP_CTRL.THERMAL = false)
    (mem : List MemErr) :
    d.wake who mem = (d.awoken.ctxs.map Prod.fst).foldl (fun (d : Dev) key => d.bellAct key mem true) d.awoken := by
  simp only [Dev.wake, hm, hl, ht, Bool.not_true, Bool.false_eq_true, if_false, Bool.false_and]
  rfl

theorem Dev.awoken_effect (d : Dev) :
    d.awoken.rst.low = 0 ∧ d.awoken.f F.PWR_LP_CTRL.STATE = 0 ∧ d.awoken.f F.PWR_LP_CTRL.THERMAL = 0 ∧ d.awoken.flags = d.flags ∧
      d.awoken.fuses = d.fuses := by
  obtain ⟨x, hx⟩ : ∃ x, x = ((Dev.set { d with rst := { d.rst with low := 0 } } F.PWR_LP_CTRL.STATE 0).set F.PWR_LP_CTRL.THERMAL 0) :=
    ⟨_, rfl⟩
  have hstate : x.rst.low = 0 ∧ x.f F.PWR_LP_CTRL.STATE = 0 ∧ x.f F.PWR_LP_CTRL.THERMAL = 0 ∧ x.flags = d.flags ∧ x.fuses = d.fuses := by
    rw [hx]
    exact ⟨rfl, (Dev.f_set_apart _ _ _ _ (by decide) (by decide) (by decide)).trans (Dev.f_set_same _ _ _ (by decide)),
      Dev.f_set_same _ _ _ (by decide), rfl, rfl⟩
  have htest : ∃ units, x.testAll = { x with leap := { x.leap with units := units } } := by
    refine foldl_induct (fun e => ∃ units, e = { x with leap := { x.leap with units := units } }) _ ?_ _ ⟨x.leap.units, rfl⟩
    rintro _ u ⟨units, rfl⟩
    exact ⟨_, rfl⟩
  obtain ⟨units, hu⟩ := htest
  have hgo : d.awoken = x.testAll.rotAfresh := by
    rw [hx]
    rfl
  rw [hgo, hu]
  exact hstate

theorem Dev.wake_effect {d : Dev} {who : Who} (hl : d.rst.low = 1) (hm : d.mayWake who = true) (ht : d.on F.PWR_LP_CTRL.THERMAL = false) :
    let e := d.wake who []
    e.rst.low = 0 ∧ e.f F.PWR_LP_CTRL.STATE = 0 ∧ e.on F.PWR_LP_CTRL.THERMAL = false ∧ e.flags = d.flags ∧ e.fuses = d.fuses := by
  obtain ⟨hlow, hstate, hthermal, hflags, hfuses⟩ := Dev.awoken_effect d
  have hk : Kept d.awoken (d.wake who []) := by
    rw [Dev.wake_of_doze hl hm ht]
    exact foldl_kept _ (fun _ key hx => Dev.bellAct_kept hx key true) _ (.refl _)
  obtain ⟨hs, hth⟩ := hk.clear hstate hthermal
  have hrst : ∀ off, d.awoken.rst0 off = (d.wake who []).rst0 off := fun off => (Kept.rst0_eq hk off).symm
  rw [hrst] at hs hth
  refine ⟨hk.low.trans hlow, hs, ?_, hk.flags.trans hflags, hk.fuses.trans hfuses⟩
  rw [Dev.on, Dev.f, Dev.reg]
  exact bne_eq_false_iff_eq.mpr hth

theorem Dev.wake_refused {d : Dev} {who : Who} {x : Int} (hl : d.rst.low = 1) (hm : d.mayWake who = true)
    (ht : d.on F.PWR_LP_CTRL.THERMAL = true) (hx : x ∈ d.hereJ d.pwr.junction) (hw : d.warnJ ≤ x) (mem : List MemErr) :
    d.wake who mem = d.set F.PWR_LP_CTRL.REFUSED 1 := by
  have hany : (d.hereJ d.pwr.junction).any (fun x => decide (d.warnJ ≤ x)) = true := List.any_eq_true.mpr ⟨x, hx, decide_eq_true hw⟩
  simp only [Dev.wake, hm, hl, ht, hany, Bool.not_true, Bool.false_eq_true, if_false, Bool.and_self, if_true]

/-! ## Thermal shutdown and the loss of a die -/

theorem Dev.sendIf_shape (d : Dev) (b : Bool) (m : Tx) : ∃ out, (if b then d.send m else d) = { d with out := out } := by
  cases b
  · exact ⟨d.out, rfl⟩
  · exact ⟨_, rfl⟩

/-- An event of a hub unit whose source starts no chip reset leaves the state of low power and the registers as they are. -/
theorem Dev.hubEvent_quiet {d : Dev} {e : FaultEv} (h7 : 7 ≤ unitKind e.master) (hm : maskHas (d.coll.src e.src).minor 3 = false)
    (hs : maskHas (d.coll.src e.src).severe 3 = false) :
    ∃ coll out, d.event e = { d with coll := coll, out := out } := by
  have hrs : maskHas (if d.coll.isSevere e then (d.coll.src e.src).severe else (d.coll.src e.src).minor) 3 = false := by
    split
    · exact hs
    · exact hm
  have hblock : decide (unitKind e.master ≥ 7) = true := decide_eq_true h7
  unfold Dev.event
  split
  · exact ⟨d.coll, d.out, rfl⟩
  · generalize (if d.coll.isSevere e then (d.coll.src e.src).severe else (d.coll.src e.src).minor) = rs at hrs ⊢
    unfold Dev.react
    simp only [hrs, hblock, Bool.not_true, Bool.and_false, Bool.false_and, Bool.false_eq_true, if_false]
    obtain ⟨out, hout⟩ := Dev.sendIf_shape { d with coll := { d.coll.receive e with
        pending := setBit512 (d.coll.receive e).pending e.src
        latch := if maskHas rs 4 then setBit512 (d.coll.receive e).latch e.src else (d.coll.receive e).latch
        nmi := if maskHas rs 1 || maskHas rs 2 && true then (d.coll.receive e).nmi ++ [(e, d.scopeOf e.master)] else (d.coll.receive e).nmi } }
      (maskHas rs 0 && d.on F.FLT_CTRL.IRQ_EN) (.msix 0 (d.f F.FLT_CTRL.VECTOR))
    exact ⟨_, out, hout⟩

theorem getLsbD_setBit512_self (v : BitVec 512) {n : Nat} (h : n < 512) : (setBit512 v n).getLsbD n = true := by
  rw [setBit512, BitVec.getLsbD_or, BitVec.getLsbD_ofNat, Nat.testBit_two_pow_self, decide_eq_true h, Bool.and_true, Bool.or_true]

theorem Dev.thermalOff_effect {d : Dev} (t : Nat) (hl : d.rst.low = 0) (hm : maskHas (d.coll.src 0x1E4).minor 3 = false)
    (hs : maskHas (d.coll.src 0x1E4).severe 3 = false) :
    let e := d.thermalOff t
    e.rst.entering = 1 ∧ e.f F.PWR_LP_CTRL.STATE = 2 ∧ e.on F.PWR_LP_CTRL.THERMAL = true ∧ e.diesOn = false ∧ e.fuses = d.fuses ∧
      (d.coll.ready = true → e.coll.pending.getLsbD 0x1E4 = true) := by
  obtain ⟨st, hst⟩ : ∃ st, st = 1 + Config.freeNat (d.at_ t).fresh 0 % 17 := ⟨_, rfl⟩
  obtain ⟨x, hx⟩ : ∃ x, x = ((d.at_ t).take.killWhere (fun _ => true) st 5).killHeads (fun _ => true) st := ⟨_, rfl⟩
  have hk : Kept d x := by
    have htaken : Kept d (d.at_ t).take := Kept.refl d
    rw [hx]
    exact Dev.killHeads_kept (Dev.killWhere_kept htaken _ _ _) _ _
  obtain ⟨y, hy⟩ : ∃ y, y = ((Dev.set { x with rst := { x.rst with entering := 1 } } F.PWR_LP_CTRL.STATE 2).set F.PWR_LP_CTRL.THERMAL 1) :=
    ⟨_, rfl⟩
  have hgo : d.thermalOff t = y.event ⟨0x1E4, hubUnit 0x82, 0, 0, y.now⟩ := by
    have hl' : (d.at_ t).rst.low = 0 := hl
    rw [hy, hx, hst, Dev.thermalOff, hl, if_neg (by decide)]
    dsimp only
    rw [hl', if_neg (by decide)]
    rfl
  have hset : y.rst.entering = 1 ∧ y.f F.PWR_LP_CTRL.STATE = 2 ∧ y.f F.PWR_LP_CTRL.THERMAL = 1 ∧ y.fuses = x.fuses ∧ y.coll = x.coll := by
    rw [hy]
    exact ⟨rfl, (Dev.f_set_apart _ _ _ _ (by decide) (by decide) (by decide)).trans (Dev.f_set_same _ _ _ (by decide)),
      Dev.f_set_same _ _ _ (by decide), rfl, rfl⟩
  obtain ⟨hentering, hstate, hthermal, hfuses, hcoll⟩ := hset
  obtain ⟨coll, out, hev⟩ := Dev.hubEvent_quiet (d := y) (e := ⟨0x1E4, hubUnit 0x82, 0, 0, y.now⟩) (by decide : 7 ≤ unitKind (hubUnit 0x82))
    (by rw [hcoll, hk.coll.minor]; exact hm) (by rw [hcoll, hk.coll.severe]; exact hs)
  have hon : y.on F.PWR_LP_CTRL.THERMAL = true := by
    rw [Dev.on, hthermal]
    rfl
  have hpend : d.coll.ready = true → (y.event ⟨0x1E4, hubUnit 0x82, 0, 0, y.now⟩).coll.pending.getLsbD 0x1E4 = true := fun hr => by
    have hready : y.coll.ready = true := by rw [hcoll, hk.coll.ready, hr]
    rw [Dev.event_pending hready (by decide : sourceKnown 0x1E4 = true) (by decide : masterKnown (hubUnit 0x82) = true)]
    exact getLsbD_setBit512_self _ (by decide : 0x1E4 < 512)
  rw [hgo]
  refine ⟨?_, ?_, ?_, ?_, ?_, hpend⟩
  · rw [hev]
    exact hentering
  · rw [hev]
    exact hstate
  · rw [hev]
    exact hon
  · rw [hev]
    have : y.diesOn = false := by rw [Dev.diesOn, hon, Bool.not_true, Bool.and_false]
    exact this
  · rw [hev]
    exact hfuses.trans hk.fuses

theorem mem_insNat_self (l : List Nat) (k : Nat) : k ∈ insNat l k := by
  induction l with
  | nil => exact List.mem_cons_self
  | cons j l ih =>
    unfold insNat
    split_ifs with h₁ h₂
    · exact List.mem_cons_self
    · exact h₂ ▸ List.mem_cons_self
    · exact List.mem_cons_of_mem _ ih

/-- The die is out of service, and every part of it. -/
theorem Dev.lost_out {d : Dev} {die : Nat} (h : die ∈ d.leap.dieLost) :
    (∀ k, k / 12 = die → d.cluOut k = true) ∧ (∀ r, r / 3 = die → d.regOut r = true) := by
  have hc : d.leap.dieLost.contains die = true := List.contains_iff_mem.mpr h
  refine ⟨fun k hk => ?_, fun r hr => ?_⟩
  · rw [Dev.cluOut, hk, hc, Bool.or_true]
  · rw [Dev.regOut, hr, hc, Bool.or_true]

theorem Dev.dropLoan_kept {K d : Dev} (h : Kept K d) (k : Nat) : Kept K (d.dropLoan k) := by
  unfold Dev.dropLoan
  split <;> exact h

theorem Dev.killClu_kept {K d : Dev} (h : Kept K d) (k : Nat) : Kept K (d.killClu k) :=
  foldl_kept _ (fun _ _ h => Dev.killRerun_kept h _ _ _) _ h

theorem Dev.killOn_kept {K d : Dev} (h : Kept K d) (p : Nat → Bool) (but : Option Nat) : Kept K (d.killOn p but) :=
  foldl_kept _ (fun _ _ h => Dev.killRerun_kept h _ _ _) _ h

theorem Dev.abandon_kept {K d : Dev} (h : Kept K d) (u : Nat) : Kept K (d.abandon u) := h

/-- A die that is lost: its commands have stopped, its loans are gone, and the event is the last thing. -/
theorem Dev.loseDie_cases {d : Dev} {die : Nat} (t : Nat) (hn : 3 * die < d.nReg) (hl : die ∉ d.leap.dieLost) :
    ∃ x : Dev, d.loseDie die t = x.raise 0x085 (hbmUnit die) 0 0 ∧ Kept d x ∧ die ∈ x.leap.dieLost := by
  have hgo : (decide (d.nReg ≤ 3 * die) || d.leap.dieLost.contains die) = false := by simp [hl, hn]
  unfold Dev.loseDie
  rw [hgo, if_neg Bool.false_ne_true]
  extract_lets d' units stopped unlent emptied leap gone mem forgotten
  have hd' : Kept d d' := Kept.refl d
  have hstopped : Kept d stopped := Dev.killOn_kept (foldl_kept _ (fun _ _ h => Dev.killClu_kept h _) _ hd') _ _
  have hunlent : Kept d unlent :=
    foldl_kept _ (fun _ _ h => Dev.dropLoan_kept h _) _ (foldl_kept _ (fun _ _ h => Dev.abandon_kept h _) _ hstopped)
  have hemptied : Kept d emptied := foldl_kept _ (fun _ _ h => Dev.forgetMem_kept h _) _ hunlent
  clear_value emptied
  have hgone : Kept d gone := hemptied
  have hforgotten : Kept d forgotten := Dev.take_kept (Dev.mem_kept hgone _)
  have hlost : die ∈ forgotten.leap.dieLost := mem_insNat_self _ die
  obtain ⟨units', htrack⟩ := Dev.track_shape d' units forgotten
  refine ⟨d'.track units forgotten, rfl, ?_, ?_⟩
  · rw [htrack]
    exact hforgotten
  · rw [htrack]
    exact hlost

theorem Dev.loseDie_effect {d : Dev} {die : Nat} (t : Nat) (hd : die < 2) (hn : 3 * die < d.nReg) (hl : die ∉ d.leap.dieLost) :
    let e := d.loseDie die t
    die ∈ e.leap.dieLost ∧ (∀ k, k / 12 = die → e.cluOut k = true) ∧ (∀ r, r / 3 = die → e.regOut r = true) ∧ e.fuses = d.fuses ∧
      (d.coll.ready = true → e.coll.pending.getLsbD 0x085 = true) := by
  have h7 : 7 ≤ unitKind (hbmUnit die) := by
    rcases (by omega : die = 0 ∨ die = 1) with rfl | rfl <;> decide
  have hknown : masterKnown (hbmUnit die) = true := by
    rcases (by omega : die = 0 ∨ die = 1) with rfl | rfl <;> decide
  obtain ⟨x, hgo, hk, hlost⟩ := Dev.loseDie_cases t hn hl
  obtain ⟨coll, out, chip, regs, entering, hev⟩ := Dev.event_hub x ⟨0x085, hbmUnit die, 0, 0, x.now⟩ h7
  have hin : die ∈ (x.raise 0x085 (hbmUnit die) 0 0).leap.dieLost := by
    rw [Dev.raise, hev]
    exact hlost
  have hf : (x.raise 0x085 (hbmUnit die) 0 0).fuses = d.fuses := by
    rw [Dev.raise, hev]
    exact hk.fuses
  rw [hgo]
  refine ⟨hin, (Dev.lost_out hin).1, (Dev.lost_out hin).2, hf, fun hr => ?_⟩
  rw [Dev.raise, Dev.event_pending (hk.coll.ready.trans hr) (by decide : sourceKnown 0x085 = true) hknown]
  exact getLsbD_setBit512_self _ (by decide : 0x085 < 512)

/-- Settles O35: the entries to low power and the losses from what they leave alone, the resets from what the end of rings keeps. -/
theorem lowPowerResetsAndLosses : Obligations.LowPowerResetsAndLosses := by
  unfold Obligations.LowPowerResetsAndLosses
  refine ⟨⟨?_, ?_, ?_, ?_⟩, ⟨?_, ?_⟩, ⟨?_, ?_, ?_⟩, ?_, ?_⟩
  · intro d ha h
    exact ⟨does_upd_eq (fun d => d.lpRequest 1) (fun _ => rfl) ha (Dev.lpRequest_refused 1 h),
      does_upd_eq (fun d => d.lpRequest 2) (fun _ => rfl) ha (Dev.lpRequest_refused 2 h)⟩
  · intro d ha h
    exact ⟨does_upd_eq (fun d => d.lpRequest 1) (fun _ => rfl) ha (Dev.lpRequest_taken 1 h),
      does_upd_eq (fun d => d.lpRequest 2) (fun _ => rfl) ha (Dev.lpRequest_taken 2 h)⟩
  · intro d ha h
    exact completes_upd (f := Dev.lpEntered) (fun _ => rfl) ha (Dev.lpEntered_doze h)
  · intro d ha h
    exact completes_upd (f := Dev.lpEntered) (fun _ => rfl) ha (Dev.lpEntered_keep h)
  · intro d who ha hl hm ht
    exact completes_upd (f := fun d => d.wake who []) (fun _ => rfl) ha (Dev.wake_effect hl hm ht)
  · intro d who x ha hl hm ht hx hw
    exact does_upd_eq (fun d => d.wake who []) (fun _ => rfl) ha (Dev.wake_refused hl hm ht hx hw [])
  · intro d ha hw hl
    exact completes_upd (f := Dev.linkReset) (fun _ => rfl) ha (Dev.linkReset_effect hw hl)
  · intro d fn ha hw hl hr hf
    exact completes_upd (f := fun d => d.functionReset fn) (fun _ => rfl) ha (Dev.functionReset_effect hw hl hr hf)
  · intro d fn ha hr
    refine does_upd_eq (fun d => d.functionReset fn) (fun _ => rfl) ha ?_
    simp only [Dev.functionReset, hr, Bool.or_true, Bool.true_or, if_true]
  · intro d t ha _ hl _ hm hs
    exact completes_upd (f := fun d => d.thermalOff t) (fun _ => rfl) ha (Dev.thermalOff_effect t hl hm hs)
  · intro d die t ha hd hn hl
    exact completes_upd (f := fun d => d.loseDie die t) (fun _ => rfl) ha (Dev.loseDie_effect t hd hn hl)

end Sys2Proof.Machine
end

section
/-!
PROOFS. Long instructions (O17): refuted. The statement asks of a poisoned granule that an instruction read only that the block lists it,
not that it lies in HBM. One beyond the last stack is reported for a master that Table 4 of R516 does not list, and the collector does not
record an event of such a master (log entry 121), so DATA_POISON does not become pending.
-/
namespace Sys2Proof.Machine

/-- The first granule of a fifth stack, which no part has. -/
def strayGranule : Nat := 4 * 0x600000000

/-- A long instruction that has run its time and read that granule. -/
def strayIns : LongIns :=
  { ord := 0, at_ := 0, idx := 0, iters := [], loops := [], counts := [], started := some 0, ac := none, done := 0, since := 0, reads := [],
    write := none, touched := [⟨true, strayGranule, strayGranule + 64⟩], chk := [] }

def strayMember : Member := { mkMember 0 0 0 with queues := [[strayIns], [], [], []] }

/-- A command of a ring in run 1 with that instruction at the head of its first queue. -/
def strayRun : Run := { mkRun 0 0 false 0 0 [] false with phase := .run 1, members := [strayMember] }

/-- A block that runs that command and lists the granule as poisoned; its collector has started, and poison starts no reaction. -/
def strayDev : Dev :=
  { Dev.reset with
    rst := { Dev.reset.rst with held := false }
    coll := { Dev.reset.coll with
      ready := true, srcs := [(0x004, { thresh := 1, minor := 0, severe := 0, windowMs := 0, count := 0, winEnd := none, total := 0 })] }
    mem := { Dev.reset.mem with poison := [strayGranule] }
    runs := [(0, strayRun)]
    nextRun := 1 }

theorem strayDev_queueHead : strayDev.queueHead 0 0 0 = some (strayRun, strayMember, strayIns) := rfl

theorem strayDev_touchedPoison : strayDev.touchedPoison strayIns.touched = some strayGranule := by decide +kernel

/-- The master of a fifth stack is none that is listed. -/
theorem strayMaster_unknown : masterKnown (hbmUnit (stackOf strayGranule)) = false := by decide +kernel

/-- The command ends, and the collector has recorded nothing. -/
theorem strayDev_pending : (strayDev.insComplete 0 0 0 0 []).coll.pending.getLsbD 0x004 = false := by decide +kernel

/-- What a command leaves is one block. -/
theorem does_unique {c : Instr} {d e e' : Dev} (h : Does c d e) (h' : Does c d e') : e = e' := by
  have hq := (h []).symm.trans (h' [])
  injection hq with hs
  injection hs

/-- Refutes O17: a poisoned granule beyond the last stack of HBM ends the command that read it without DATA_POISON becoming pending. -/
theorem not_longInstructionsStartAndComplete : ¬ Obligations.LongInstructionsStartAndComplete := by
  unfold Obligations.LongInstructionsStartAndComplete
  rintro ⟨⟨-, hcomplete, -⟩, -⟩
  obtain ⟨-, -, hpoison, -⟩ := hcomplete strayDev 0 0 0 0 strayRun strayMember strayIns rfl (by decide) strayDev_queueHead
  have hmild : strayDev.mild 0x004 := ⟨by decide +kernel, by decide +kernel⟩
  obtain ⟨e, hdoes, -, -, hpending⟩ :=
    hpoison strayGranule ⟨0, rfl, Nat.le_refl 0⟩ strayDev_touchedPoison hmild rfl (by decide +kernel)
  have hgo : Does (.instructionComplete 0 0 0 0 []) strayDev (strayDev.insComplete 0 0 0 0 []) :=
    does_upd_eq (fun d => if (0 : Nat) = qPrep ∨ (0 : Nat) = qDma then d.xComplete 0 0 0 0 [] else d.insComplete 0 0 0 0 []) (fun _ => rfl)
      rfl rfl
  rw [does_unique hdoes hgo, strayDev_pending] at hpending
  cases hpending

end Sys2Proof.Machine
end

section
/-!
PROOFS. Ordo images (O45) and the tick (O43): refuted. Both statements speak of every list of memory errors that the hub may meet, and of
every place of the swap records. SCH_SWAP_BASE takes any 64-bit value, and no check keeps an error it reads there inside installed HBM. The
model counts a corrected error of stack `s` in MEM_HBM_CE(s), 8 bytes apart; for a stack far beyond the last one that is the offset of
SCH_ORDO_CTRL, so that corrected errors count up BUSY, PENDING and BANK.
-/
namespace Sys2Proof.Machine

/-- The only block that a command leaves has what the command completes with. -/
theorem Completes.of_does {c : Instr} {d e : Dev} {P : Dev → Prop} (h : Completes c d P) (he : Does c d e) : P e := by
  obtain ⟨e', hd, hp⟩ := h
  exact hd.unique he ▸ hp

/-- The stack, which no part has, whose counter of corrected errors would stand at SCH_ORDO_CTRL. -/
def strayStack : Nat := (R.SCH_ORDO_CTRL - R.MEM_HBM_CE 0) / 8

theorem strayStack_counter : R.MEM_HBM_CE strayStack = R.SCH_ORDO_CTRL := by decide

/-- `n` corrected errors at the first byte of that stack. -/
def strayErrors (n : Nat) : List MemErr := List.replicate n ⟨true, strayStack * 0x600000000, true⟩

/-- The block after reset with context 0 of partition 0 swapped out, its swap record at the start of that stack, and a doorbell held for it. -/
def swapDev : Dev :=
  Dev.set { Dev.reset with ctxs := [(0, { ctxOf [] 0 with resident := false, heldTail := some 0 })] } F.SCH_SWAP_BASE.ADDR
    (strayStack * 0x600000000)

/-! ## The end of a copy -/

/-- An image with one variant, whose one task belongs to that context. -/
def swapBank : List (Nat × Variant) := [(0, ⟨0, 0, [], [⟨0, 0, false, false, 1, 0, 0, [], 0, 0, 0, 0, 0, []⟩]⟩)]

/-- The image is being copied, and BUSY reads 1. -/
def copyDev : Dev := Dev.set { swapDev with frame := { swapDev.frame with copying := some swapBank } } F.SCH_ORDO_CTRL.BUSY 1

/-- The end of the copy leaves PENDING alone set, a 4; the swap-in of the context counts it up to 6, which sets BUSY again. -/
theorem copyDev_copyDone : (copyDev.ordoCopyDone (strayErrors 2)).on F.SCH_ORDO_CTRL.BUSY = true := by decide +kernel

/-- Refutes O45: after the end of a copy BUSY is said to read 0, but the swap-in of a context that the image names, with two corrected errors
in a swap record that SCH_SWAP_BASE has put beyond HBM, sets it again. -/
theorem not_ordoImagesAreCheckedAndCopied : ¬ Obligations.OrdoImagesAreCheckedAndCopied := by
  unfold Obligations.OrdoImagesAreCheckedAndCopied
  rintro ⟨-, -, -, -, copyDone⟩
  have hgo : Does (.ordoCopyDone (strayErrors 2)) copyDev (copyDev.ordoCopyDone (strayErrors 2)) :=
    does_upd (f := fun d => d.ordoCopyDone (strayErrors 2)) (fun _ => rfl) rfl
  obtain ⟨-, hbusy, -⟩ := (copyDone copyDev swapBank (strayErrors 2) rfl rfl rfl).of_does hgo
  rw [copyDev_copyDone] at hbusy
  cases hbusy

/-! ## The tick -/

/-- The sensor domain runs, and the Vigil of the first frame is over; no bank waits, and bank 0 is in use. -/
def tickDev : Dev := { swapDev with running := true, frame := { swapDev.frame with started := true, vigilDone := true } }

theorem tickDev_ordo : tickDev.on F.SCH_ORDO_CTRL.PENDING = false ∧ tickDev.f F.SCH_ORDO_CTRL.BANK = 0 := by decide +kernel

/-- At the tick the held doorbell swaps the context in, and eight corrected errors count SCH_ORDO_CTRL up to 8, the bit of BANK. -/
theorem tickDev_tick : (tickDev.kalendsTick (strayErrors 8)).f F.SCH_ORDO_CTRL.BANK = 1 := by decide +kernel

/-- Refutes O43: where no bank waits, a tick is said to leave BANK alone, but the swap-in for a held doorbell, with eight corrected errors in
a swap record that SCH_SWAP_BASE has put beyond HBM, changes it. -/
theorem not_kalendsFramesAndSettings : ¬ Obligations.KalendsFramesAndSettings := by
  unfold Obligations.KalendsFramesAndSettings
  rintro ⟨-, tick, -⟩
  have hgo : Does (.kalendsTick (strayErrors 8)) tickDev (tickDev.kalendsTick (strayErrors 8)) :=
    does_upd (f := fun d => d.kalendsTick (strayErrors 8)) (fun _ => rfl) rfl
  obtain ⟨hpending, hbank⟩ := tickDev_ordo
  obtain ⟨-, -, -, -, -, -, -, -, hkept, -⟩ :=
    (tick tickDev (strayErrors 8) rfl rfl rfl (by decide) rfl rfl).of_does hgo
  have hsame := hkept hpending
  rw [tickDev_tick, hbank] at hsame
  cases hsame

end Sys2Proof.Machine
end

section
/-!
PROOFS. Vigil, phases, budgets and roster agreement (O44): refuted. A member writes the leader's roster to its ring (R51), and a write over a
whole poisoned granule takes its poison away. MEM_POISONED counts the granules that are poisoned now (R146), so it falls, while the statement
says that the command leaves every register as it was.
-/
namespace Sys2Proof.Machine

/-! ## A write over a poisoned granule -/

/-- An unlisted register reads what the fuses say, so blocks of equal registers and fuses read the same fields. -/
theorem Dev.f_eq_of_regs {d e : Dev} (hr : e.regs = d.regs) (hf : e.fuses = d.fuses) (x : Fld) : e.f x = d.f x := by
  simp only [Dev.f, Dev.reg, Dev.rst0, Dev.oneDie, Dev.tdp, hr, hf]

theorem Dev.sendLg_regs_fuses (d : Dev) (pkg : Nat) (m : Tx) : (d.sendLg pkg m).regs = d.regs ∧ (d.sendLg pkg m).fuses = d.fuses := by
  unfold Dev.sendLg
  split <;> exact ⟨rfl, rfl⟩

theorem Dev.setPoison_count (d : Dev) (l : List Nat) :
    (d.setPoison l).f (F.MEM_POISONED.COUNT 0) = (l.filter (fun g => g < 0x600000000)).length % 2 ^ 32 := by
  rw [Dev.setPoison, Dev.countPoison, Dev.f_set_apart _ _ _ _ (by decide) (by decide) (by decide), Dev.f_set_same _ _ _ (by decide)]
  rfl

/-- A write over the whole of the only poisoned granule leaves none. -/
theorem Dev.wrHbm_only_poisoned {d : Dev} {a : Nat} {bs : List Nat} (hs : d.stackLost a = false) (hp : d.mem.poison = [a])
    (ha : a % 64 = 0) (hn : 64 ≤ bs.length) : ∃ m, d.wrHbm a bs = Dev.setPoison { d with mem := { d.mem with hbm := m } } [] := by
  have hin : d.poisonIn a bs.length = [a] := by
    rw [Dev.poisonIn, hp]
    refine List.filter_eq_self.mpr (fun g hg => ?_)
    rw [List.mem_singleton.mp hg]
    exact decide_eq_true (by omega)
  have hwhole : [a].filter (fun g => decide (a ≤ g ∧ g + 64 ≤ a + bs.length)) = [a] :=
    List.filter_eq_self.mpr (fun g hg => decide_eq_true (by rw [List.mem_singleton.mp hg]; omega))
  unfold Dev.wrHbm
  rw [hin, hp, if_neg (by rw [hs]; decide), if_neg (List.cons_ne_nil _ _)]
  simp only [hwhole, List.filter_cons, List.filter_nil, List.contains_cons, beq_self_eq_true, Bool.true_or, Bool.not_true,
    Bool.false_eq_true, if_false]
  exact ⟨_, rfl⟩

/-! ## The roster ring -/

/-- The slot of the ring that takes the roster of the present frame. -/
def Dev.rosterSlot (d : Dev) : Nat := d.f F.SCH_ROSTER_BASE.ADDR + 2048 * (d.frame.frameNo % 16)

theorem Dev.rosterBytes_length (d : Dev) : 64 ≤ d.rosterBytes.length := by
  simp only [Dev.rosterBytes, leBytes, List.length_append, List.length_cons, List.length_nil, List.length_replicate]
  omega

/-- A roster written over the only poisoned granule leaves none, and MEM_POISONED says so. -/
theorem Dev.ringRoster_only_poisoned {d : Dev} (hb : d.f F.SCH_ROSTER_BASE.ADDR ≠ 0) (hi : d.inHbm d.rosterSlot 1216 = true)
    (hv : d.hbmServes = true) (hs : d.stackLost d.rosterSlot = false) (hp : d.mem.poison = [d.rosterSlot]) (ha : d.rosterSlot % 64 = 0) :
    d.ringRoster.f (F.MEM_POISONED.COUNT 0) = 0 ∧ d.ringRoster.fuses = d.fuses := by
  have hring : d.ringRoster = d.wrHbm d.rosterSlot d.rosterBytes :=
    if_pos (by rw [Bool.and_eq_true, Bool.and_eq_true]; exact ⟨⟨bne_iff_ne.mpr hb, hi⟩, hv⟩)
  obtain ⟨m, hm⟩ := Dev.wrHbm_only_poisoned hs hp ha d.rosterBytes_length
  rw [hring, hm]
  exact ⟨Dev.setPoison_count _ _, rfl⟩

/-- What a member does with a roster whose digest is right: it holds it, and writes it to the ring (R51, R52). -/
def Dev.holdRoster (d : Dev) (bytes : List Nat) : Dev :=
  (Dev.setRosterOf { d with frame := { d.frame with received := some bytes } }
    ((List.range 36).map (fun i => entryOfBytes (((bytes.drop 64).drop (32 * i)).take 32))) (bfield bytes 0 8) (bfield bytes 8 8)).ringRoster

theorem Dev.rosterReceive_taken {d : Dev} {bytes : List Nat} (hm : d.groupMember = true) (hs : d.frame.started = true)
    (ha : d.frame.agreeDone = false) (hf : d.on F.ALM_STAT.FREE_START = false) (hc : crc64 (bytes.drop 64) = bfield bytes 16 8)
    (hl : (bytes.drop 64).length = 1152) : ∃ pkg m, d.rosterReceive bytes = (d.holdRoster bytes).sendLg pkg m := by
  unfold Dev.rosterReceive
  rw [if_neg (by rw [hm, hs, ha, hf]; decide)]
  dsimp only
  rw [if_pos ⟨hc, hl⟩]
  exact ⟨_, _, rfl⟩

/-- To hold a roster changes nothing that says where it goes. -/
theorem Dev.holdRoster_only_poisoned {d : Dev} (bytes : List Nat) (hb : d.f F.SCH_ROSTER_BASE.ADDR ≠ 0)
    (hi : d.inHbm d.rosterSlot 1216 = true) (hv : d.hbmServes = true) (hs : d.stackLost d.rosterSlot = false)
    (hp : d.mem.poison = [d.rosterSlot]) (ha : d.rosterSlot % 64 = 0) :
    (d.holdRoster bytes).f (F.MEM_POISONED.COUNT 0) = 0 ∧ (d.holdRoster bytes).fuses = d.fuses :=
  Dev.ringRoster_only_poisoned (d := Dev.setRosterOf _ _ _ _) hb hi hv hs hp ha

/-! ## A member whose ring holds a poisoned granule -/

/-- A member of a roster group in the agreement of its first frame: its leader is package 7, and port 1 leads to it. -/
def memberDev : Dev :=
  Dev.set (Dev.set (Dev.set (Dev.set { Dev.reset with frame := { Dev.reset.frame with started := true, agreeDone := false } }
    F.LNK_GROUP.EN 1) F.LNK_GROUP_MEM.PKG 7) F.LNK_TOPO.SIZE_X 7) (F.LNK_PORT_STAT.STATE 1) 2

/-- That member with a roster ring in HBM, of which the first granule is poisoned. -/
def ringDev : Dev := (memberDev.set F.SCH_ROSTER_BASE.ADDR 2048).setPoison [2048]

theorem ringDev_member : ringDev.groupMember = true ∧ ringDev.on F.ALM_STAT.FREE_START = false ∧
    (ringDev.route (ringDev.f F.LNK_GROUP_MEM.PKG % 2 ^ 15)).isSome = true := by decide +kernel

theorem ringDev_slot : ringDev.f F.SCH_ROSTER_BASE.ADDR ≠ 0 ∧ ringDev.rosterSlot = 2048 := by decide +kernel

/-- A roster message of zeros; their digest is 0. -/
def zeroRoster : List Nat := List.replicate 1216 0

theorem crc64_replicate_zero (n : Nat) : crc64 (List.replicate n 0) = 0 := by
  induction n with
  | zero => rfl
  | succ n ih => exact ih

theorem zeroRoster_digest : crc64 (zeroRoster.drop 64) = bfield zeroRoster 16 8 := by
  rw [zeroRoster, List.drop_replicate, crc64_replicate_zero]
  decide +kernel

theorem zeroRoster_length : (zeroRoster.drop 64).length = 1152 := by
  rw [zeroRoster, List.drop_replicate, List.length_replicate]

/-- Once the member has taken the roster, it counts no poisoned granule. -/
theorem ringDev_received :
    (ringDev.rosterReceive zeroRoster).f (F.MEM_POISONED.COUNT 0) = 0 ∧ (ringDev.rosterReceive zeroRoster).fuses = ringDev.fuses := by
  obtain ⟨hmember, hfree, -⟩ := ringDev_member
  obtain ⟨hbase, hslot⟩ := ringDev_slot
  obtain ⟨pkg, m, htaken⟩ := Dev.rosterReceive_taken hmember rfl rfl hfree zeroRoster_digest zeroRoster_length
  obtain ⟨hcount, hfuses⟩ := Dev.holdRoster_only_poisoned (d := ringDev) zeroRoster hbase (by rw [hslot]; decide) rfl rfl
    (by rw [hslot]; rfl) (by rw [hslot])
  obtain ⟨hsent, hsentFuses⟩ := Dev.sendLg_regs_fuses (ringDev.holdRoster zeroRoster) pkg m
  rw [htaken]
  exact ⟨(Dev.f_eq_of_regs hsent hsentFuses _).trans hcount, hsentFuses.trans hfuses⟩

/-- Refutes O44: a member that receives the leader's roster is said to leave every register as it was, but where the roster overwrites a
poisoned granule of its ring, MEM_POISONED falls from 1 to 0. -/
theorem not_vigilPhasesBudgetsAndRoster : ¬ Obligations.VigilPhasesBudgetsAndRoster := by
  unfold Obligations.VigilPhasesBudgetsAndRoster
  rintro ⟨-, -, receive, -⟩
  obtain ⟨hmember, hfree, hroute⟩ := ringDev_member
  have hgo : Does (.rosterReceive zeroRoster) ringDev (ringDev.rosterReceive zeroRoster) :=
    does_upd (f := fun d => d.rosterReceive zeroRoster) (fun _ => rfl) rfl
  obtain ⟨-, -, -, -, -, -, -, hregs, -⟩ :=
    (receive ringDev zeroRoster rfl hroute hmember rfl rfl hfree zeroRoster_digest zeroRoster_length).of_does hgo
  obtain ⟨hafter, hfuses⟩ := ringDev_received
  have hbefore : ringDev.f (F.MEM_POISONED.COUNT 0) = 1 := Dev.setPoison_count _ _
  rw [Dev.f_eq_of_regs hregs hfuses, hbefore] at hafter
  cases hafter

end Sys2Proof.Machine
end

section
/-!
PROOFS. What the operations of Lammas do, for O50 to O52: fields and staged values, streams, events of a hub unit, and writes to HBM with their
mirror.
-/
namespace Sys2Proof.Machine

/-! ## Fields -/

theorem Dev.f_of_reg {d e : Dev} {x : Fld} (h : e.reg x.off = d.reg x.off) : e.f x = d.f x := congrArg (getFld x) h

theorem Dev.on_of_reg {d e : Dev} {x : Fld} (h : e.reg x.off = d.reg x.off) : e.on x = d.on x := by
  rw [Dev.on, Dev.f_of_reg h, Dev.on]

/-- Other bits of the register that is set are left alone. -/
theorem Dev.f_set_bits (d : Dev) {x y : Fld} (n : Nat) (hx : x.ok = true) (hy : y.ok = true) (h : y.hi < x.lo ∨ x.hi < y.lo) :
    (d.set x n).f y = d.f y := by
  refine Dev.f_set_apart d x y n hx hy ?_
  simp only [Fld.apart, Bool.or_eq_true, decide_eq_true_eq]
  tauto

/-- So is every other register. -/
theorem Dev.f_set_off (d : Dev) {x y : Fld} (n : Nat) (h : y.off ≠ x.off) : (d.set x n).f y = d.f y :=
  Dev.f_of_reg (Dev.reg_set_ne d x n _ h)

theorem Dev.on_set_zero (d : Dev) {x : Fld} (h : x.ok = true) : (d.set x 0).on x = false := by
  rw [Dev.on, Dev.f_set_same d x 0 h, Nat.zero_mod]
  rfl

/-- A bit that is set from a truth value reads as it. -/
theorem Dev.on_set_b2n (d : Dev) {x : Fld} (h : x.ok = true) (hw : x.hi = x.lo) (b : Bool) : (d.set x (b2n b)).on x = b := by
  rw [Dev.on, Dev.f_set_same d x _ h, hw, Nat.add_sub_cancel_left]
  cases b <;> rfl

theorem Dev.f_addSat_same (d : Dev) {x : Fld} (n : Nat) (h : x.ok = true) :
    (d.addSat x n).f x = Nat.min (d.f x + n) (2 ^ (x.hi + 1 - x.lo) - 1) := by
  have hlt : Nat.min (d.f x + n) (2 ^ (x.hi + 1 - x.lo) - 1) < 2 ^ (x.hi + 1 - x.lo) :=
    lt_of_le_of_lt (Nat.min_le_right _ _) (Nat.sub_lt (Nat.two_pow_pos _) Nat.one_pos)
  rw [Dev.addSat, Dev.f_set_same d x _ h, Nat.mod_eq_of_lt hlt]

theorem Dev.reg_addSat_ne (d : Dev) (x : Fld) (n : Nat) {o : Nat} (h : o ≠ x.off) : (d.addSat x n).reg o = d.reg o :=
  Dev.reg_set_ne d x _ o h

theorem Dev.reg_of_regs {d e : Dev} (hr : e.regs = d.regs) (hf : e.fuses = d.fuses) (o : Nat) : e.reg o = d.reg o := by
  simp only [Dev.reg, Dev.rst0, Dev.oneDie, Dev.tdp, hr, hf]

/-- Values in force are the same where the tables and the fuses are. -/
theorem Dev.live_of_regs {d e : Dev} (hl : e.regs.live = d.regs.live) (hf : e.fuses = d.fuses) : e.live = d.live := by
  funext x
  simp only [Dev.live, Dev.rst0, Dev.oneDie, Dev.tdp, hl, hf]

theorem Dev.reg_stage (d : Dev) (lo hi o : Nat) : (d.stage lo hi).reg o = d.reg o := rfl
theorem Dev.reg_enforce (d : Dev) (lo hi o : Nat) : (d.enforce lo hi).reg o = d.reg o := rfl
theorem Dev.stage_inForce (d : Dev) (lo hi : Nat) : (d.stage lo hi).regs.live = d.regs.live := rfl
theorem Dev.set_inForce (d : Dev) (x : Fld) (n : Nat) : (d.set x n).regs.live = d.regs.live := rfl
theorem Dev.live_set (d : Dev) (x y : Fld) (n : Nat) : (d.set x n).live y = d.live y := rfl

/-! ## Staged values that come into force (R70, R84) -/

/-- Inside the range that comes into force, the value in force is the pending one. -/
theorem Dev.live_enforce {d : Dev} {lo hi : Nat} {x : Fld} (h₁ : lo ≤ x.off) (h₂ : x.off < hi) : (d.enforce lo hi).live x = d.pend x := by
  have hval : mget (d.rst0 x.off) (d.enforce lo hi).regs.live x.off = mget (d.rst0 x.off) d.regs.pend x.off := by
    refine (mget_foldl_mset_ne _ _ _ _ (fun p hp hk => ?_)).trans (mget_filter _ _ _ _ (fun p _ hk => ?_))
    · have hout := of_decide_eq_true (List.mem_filter.mp hp).2
      omega
    · rw [hk]
      exact decide_eq_true ⟨h₁, h₂⟩
  exact congrArg (getFld x) hval

/-- Values that are staged and then come into force are those that the registers hold. -/
theorem Dev.live_stage_enforce {d : Dev} {lo hi : Nat} {x : Fld} (h₁ : lo ≤ x.off) (h₂ : x.off < hi) :
    ((d.stage lo hi).enforce lo hi).live x = d.f x := (Dev.live_enforce h₁ h₂).trans (Dev.pend_stage x h₁ h₂)

/-- Accepted values from `lo` to `hi`, staged with the stride `n` that they need. -/
def Dev.stagedFor (d : Dev) (units : Fld) (n lo hi : Nat) : Dev := (d.set units n).stage lo hi

theorem Dev.stagedFor_keeps (d : Dev) (units : Fld) (n lo hi : Nat) :
    (d.stagedFor units n lo hi).lam = d.lam ∧ (d.stagedFor units n lo hi).mem = d.mem ∧ (d.stagedFor units n lo hi).regs.live = d.regs.live := by
  rw [Dev.stagedFor, Dev.stage_lam, Dev.set_lam, Dev.stage_mem, Dev.set_mem, Dev.stage_inForce, Dev.set_inForce]
  exact ⟨rfl, rfl, rfl⟩

/-- What APPLY leaves where the values take effect at once. -/
theorem Dev.stagedFor_taken (d : Dev) (units : Fld) (n : Nat) {pending : Fld} (lo hi : Nat) (hok : pending.ok = true) :
    let e := ((d.stagedFor units n lo hi).enforce lo hi).set pending 0
    (∀ x : Fld, lo ≤ x.off → x.off < hi → e.live x = (d.set units n).f x) ∧ e.on pending = false ∧ e.lam = d.lam ∧ e.mem = d.mem := by
  obtain ⟨hlam, hmem, -⟩ := d.stagedFor_keeps units n lo hi
  refine ⟨fun x h₁ h₂ => (Dev.live_set _ _ _ _).trans (Dev.live_stage_enforce h₁ h₂), Dev.on_set_zero _ hok, ?lam, ?mem⟩
  case lam => rw [Dev.set_lam, Dev.enforce_lam, hlam]
  case mem => rw [Dev.set_mem, Dev.enforce_mem, hmem]

/-- And where they wait. -/
theorem Dev.stagedFor_waiting (d : Dev) (units : Fld) (n : Nat) {pending : Fld} (lo hi : Nat) (hok : pending.ok = true)
    (hbit : pending.hi = pending.lo) :
    let e := (d.stagedFor units n lo hi).set pending 1
    e.on pending = true ∧ e.regs.live = d.regs.live ∧ e.lam = d.lam ∧ e.mem = d.mem := by
  obtain ⟨hlam, hmem, hlive⟩ := d.stagedFor_keeps units n lo hi
  refine ⟨Dev.on_set_b2n _ hok hbit true, ?inForce, ?lam, ?mem⟩
  case inForce => rw [Dev.set_inForce, hlive]
  case lam => rw [Dev.set_lam, hlam]
  case mem => rw [Dev.set_mem, hmem]

/-! ## Streams -/

theorem Dev.strm_modStrm_same (d : Dev) (s : Nat) (f : Stream → Stream) : (d.modStrm s f).strm s = f (d.strm s) := mget_mput_same _ _ _ _

theorem Dev.strm_modStrm_ne (d : Dev) {s m : Nat} (f : Stream → Stream) (h : m ≠ s) : (d.modStrm s f).strm m = d.strm m :=
  mget_mput_ne _ _ _ _ _ _ h

theorem Dev.strm_of_lam {d e : Dev} (h : e.lam = d.lam) (s : Nat) : e.strm s = d.strm s := congrArg (fun l => mget streamInit l s) h

theorem Dev.strm_set (d : Dev) (x : Fld) (n s : Nat) : (d.set x n).strm s = d.strm s := rfl

theorem Dev.sweep_modSweep_same (d : Dev) (s : Nat) (f : Sweep → Sweep) :
    ((d.modSweep s f).strm s).sweep = (d.strm s).sweep.map f := congrArg Stream.sweep (Dev.strm_modStrm_same d s _)

theorem Dev.strm_modSweep_ne (d : Dev) {s m : Nat} (f : Sweep → Sweep) (h : m ≠ s) : (d.modSweep s f).strm m = d.strm m :=
  Dev.strm_modStrm_ne d _ h

/-- What Lammas works on beside its streams and registers. -/
structure SameInput (d e : Dev) : Prop where
  mem : e.mem = d.mem
  ctxs : e.ctxs = d.ctxs
  runs : e.runs = d.runs
  frame : e.frame = d.frame
  leap : e.leap = d.leap
  fuses : e.fuses = d.fuses
  inForce : e.regs.live = d.regs.live
  takes : e.lamOn = d.lamOn

theorem SameInput.refl (d : Dev) : SameInput d d := ⟨rfl, rfl, rfl, rfl, rfl, rfl, rfl, rfl⟩

theorem SameInput.trans {a b c : Dev} (h₁ : SameInput a b) (h₂ : SameInput b c) : SameInput a c :=
  ⟨h₂.mem.trans h₁.mem, h₂.ctxs.trans h₁.ctxs, h₂.runs.trans h₁.runs, h₂.frame.trans h₁.frame, h₂.leap.trans h₁.leap,
    h₂.fuses.trans h₁.fuses, h₂.inForce.trans h₁.inForce, h₂.takes.trans h₁.takes⟩

theorem Dev.set_sameInput (d : Dev) (x : Fld) (n : Nat) : SameInput d (d.set x n) := ⟨rfl, rfl, rfl, rfl, rfl, rfl, rfl, rfl⟩

theorem Dev.addSat_sameInput (d : Dev) (x : Fld) (n : Nat) : SameInput d (d.addSat x n) := Dev.set_sameInput d x _

theorem Dev.modStrm_sameInput (d : Dev) (s : Nat) (f : Stream → Stream) : SameInput d (d.modStrm s f) :=
  ⟨rfl, rfl, rfl, rfl, rfl, rfl, rfl, rfl⟩

theorem Dev.atTime_sameInput (d : Dev) (t : Nat) : SameInput d (d.at_ t) := ⟨rfl, rfl, rfl, rfl, rfl, rfl, rfl, rfl⟩

theorem SameInput.live {d e : Dev} (h : SameInput d e) : e.live = d.live := Dev.live_of_regs h.inForce h.fuses

/-! ## Events of a hub unit -/

/-- No register but PWR_LP_CTRL, and no value in force, has changed. -/
def LowPowerOnly (d e : Dev) : Prop := e.regs.live = d.regs.live ∧ ∀ o, o ≠ R.PWR_LP_CTRL → e.reg o = d.reg o

theorem LowPowerOnly.trans {a b c : Dev} (h₁ : LowPowerOnly a b) (h₂ : LowPowerOnly b c) : LowPowerOnly a c :=
  ⟨h₂.1.trans h₁.1, fun o ho => (h₂.2 o ho).trans (h₁.2 o ho)⟩

theorem Dev.abandonEntry_lowPowerOnly (d : Dev) : LowPowerOnly d d.abandonEntry := by
  unfold Dev.abandonEntry
  split
  · exact ⟨rfl, fun _ _ => rfl⟩
  · exact ⟨rfl, fun o ho => (Dev.reg_set_ne _ _ _ _ ho).trans (Dev.reg_set_ne _ _ _ _ ho)⟩

/-- An event of a hub unit reaches no register but PWR_LP_CTRL, by the entry to a low-power state that a chip reset abandons. -/
theorem Dev.event_hub_lowPowerOnly (d : Dev) (e : FaultEv) (h : 7 ≤ unitKind e.master) : LowPowerOnly d (d.event e) := by
  have collected : ∀ c : Coll, LowPowerOnly d { d with coll := c } := fun _ => ⟨rfl, fun _ _ => rfl⟩
  have sent : ∀ (x : Dev) (b : Bool) (m : Tx), LowPowerOnly x (if b then x.send m else x) := fun _ b _ => by
    cases b <;> exact ⟨rfl, fun _ _ => rfl⟩
  have abandoned : ∀ (x : Dev) (b : Bool) (n : Option Nat),
      LowPowerOnly x (if b then Dev.abandonEntry { x with rst := { x.rst with chipAt := n } } else x) := fun x b n => by
    cases b
    · exact ⟨rfl, fun _ _ => rfl⟩
    · exact Dev.abandonEntry_lowPowerOnly { x with rst := { x.rst with chipAt := n } }
  have hkind : decide (unitKind e.master ≥ 7) = true := decide_eq_true h
  unfold Dev.event
  split
  · exact ⟨rfl, fun _ _ => rfl⟩
  · unfold Dev.react
    simp only [hkind, Bool.not_true, Bool.and_false, Bool.false_eq_true, if_false]
    exact ((collected _).trans (sent _ _ _)).trans (abandoned _ _ _)

/-- What raising a source at a hub unit leaves alone. -/
theorem Dev.raise_hub_keeps (d : Dev) (src : Nat) {master : Nat} (addr acc : Nat) (h : 7 ≤ unitKind master) :
    SameInput d (d.raise src master addr acc) ∧ (d.raise src master addr acc).lam = d.lam ∧
    ∀ o, o ≠ R.PWR_LP_CTRL → (d.raise src master addr acc).reg o = d.reg o := by
  obtain ⟨hlive, hreg⟩ := Dev.event_hub_lowPowerOnly d ⟨src, master, addr, acc, d.now⟩ h
  obtain ⟨_, _, _, _, _, hshape⟩ := Dev.raise_hub d src master addr acc h
  refine ⟨?_, by rw [hshape], hreg⟩
  constructor
  case inForce => exact hlive
  all_goals rw [hshape]
  rfl

/-! ## Failing (R90) -/

/-- The registers that a stream counts in are not PWR_LP_CTRL. -/
theorem strStat_ne_lowPower (s : Nat) {k : Nat} (hk : k < 16) : strStat s + k ≠ R.PWR_LP_CTRL := by
  unfold strStat
  split <;> simp only [R.LAM_STR_STAT, R.LAM_LID_STAT, R.PWR_LP_CTRL] <;> omega

/-- Stream `s` without its frame or sweep; a lidar link waits for the next sweep start. -/
def Stream.failed (s : Nat) (r : Stream) : Stream := { r with frame := none, sweep := none, skip := decide (32 ≤ s) }

/-- The frame or sweep of stream `s` has failed for a reason, which unit `master` reports. -/
structure FailedFor (s reason master : Nat) (d e : Dev) : Prop where
  input : SameInput d e
  own : e.strm s = (d.strm s).failed s
  others : ∀ m, m ≠ s → e.strm m = d.strm m
  lastErr : e.f ⟨strStat s, 7, 4⟩ = reason % 16
  count : e.f ⟨strStat s + 8, 31, 0⟩ = Nat.min (d.f ⟨strStat s + 8, 31, 0⟩ + 1) 0xFFFFFFFF
  regs : ∀ o, o ∉ [strStat s, strStat s + 8, R.PWR_LP_CTRL] → e.reg o = d.reg o
  reported : d.coll.ready = true → masterKnown master = true → e.coll.pending = setBit512 d.coll.pending 0x140

theorem Dev.lamFail_failedFor (d : Dev) (s reason : Nat) {master : Nat} (h : 7 ≤ unitKind master) :
    FailedFor s reason master d (d.lamFail s reason master) := by
  have hstat := strStat_ne_lowPower s (k := 0) (by omega)
  have hfail := strStat_ne_lowPower s (k := 8) (by omega)
  obtain ⟨hin, hlam, hreg⟩ := Dev.raise_hub_keeps
    (((d.modStrm s (Stream.failed s)).set ⟨strStat s, 7, 4⟩ reason).addSat
      ⟨strStat s + 8, 31, 0⟩ 1) 0x140 s 6 h
  have hin₀ := (Dev.modStrm_sameInput d s (Stream.failed s)).trans
    ((Dev.set_sameInput _ ⟨strStat s, 7, 4⟩ reason).trans (Dev.addSat_sameInput _ ⟨strStat s + 8, 31, 0⟩ 1))
  refine ⟨hin₀.trans hin, ?own, fun m hm => ?others, ?lastErr, ?count, fun o ho => ?regs, fun hr hm => ?reported⟩
  case own => exact (Dev.strm_of_lam hlam s).trans (Dev.strm_modStrm_same d s (Stream.failed s))
  case others => exact (Dev.strm_of_lam hlam m).trans (Dev.strm_modStrm_ne d (Stream.failed s) hm)
  case lastErr =>
    refine (Dev.f_of_reg (hreg _ hstat)).trans ((Dev.f_of_reg (Dev.reg_addSat_ne _ _ _ ?_)).trans (Dev.f_set_same _ _ _ rfl))
    exact Nat.ne_of_lt (Nat.lt_add_of_pos_right (by decide))
  case count =>
    refine (Dev.f_of_reg (hreg _ hfail)).trans ((Dev.f_addSat_same _ 1 rfl).trans ?_)
    rw [Dev.f_set_off _ _ (Nat.ne_of_gt (Nat.lt_add_of_pos_right (by decide)))]
    rfl
  case regs =>
    simp only [List.mem_cons, List.not_mem_nil, or_false, not_or] at ho
    obtain ⟨h₁, h₂, h₃⟩ := ho
    exact (hreg o h₃).trans ((Dev.reg_addSat_ne _ _ _ h₂).trans (Dev.reg_set_ne _ _ _ _ h₁))
  case reported => exact Dev.event_pending hr (by decide : sourceKnown 0x140 = true) hm

/-! ## Writes to HBM, and their mirror (R141, R444) -/

theorem Dev.sendLg_shape (d : Dev) (pkg : Nat) (m : Tx) : ∃ lnk out, d.sendLg pkg m = { d with lnk := lnk, out := out } := by
  unfold Dev.sendLg
  split
  · exact ⟨d.lnk, d.out, rfl⟩
  · exact ⟨_, _, rfl⟩

theorem Dev.lamMirror_shape (d : Dev) (a : Nat) (bs : List Nat) : ∃ lnk out, d.lamMirror a bs = { d with lnk := lnk, out := out } := by
  have sent : ∀ l : List Nat, ∃ lnk out, l.foldl (fun d p => d.sendLg p (.mirror p a bs)) d = { d with lnk := lnk, out := out } := by
    intro l
    refine foldl_induct (fun e => ∃ lnk out, e = { d with lnk := lnk, out := out }) _ ?_ l ⟨d.lnk, d.out, rfl⟩
    rintro _ p ⟨lnk, out, rfl⟩
    obtain ⟨lnk', out', h⟩ := Dev.sendLg_shape { d with lnk := lnk, out := out } p (.mirror p a bs)
    exact ⟨lnk', out', h⟩
  unfold Dev.lamMirror
  split
  · exact ⟨d.lnk, d.out, rfl⟩
  · obtain ⟨lnk, out, h⟩ := sent d.groupPkgs
    simp only [h]
    exact ⟨_, _, rfl⟩

/-- Lammas has written bytes among the `n` from `base` on. Registers count poisoned granules, so they stay where none is poisoned there. -/
structure WrittenIn (base n : Nat) (d e : Dev) : Prop where
  outside : ∀ i, i < base ∨ base + n ≤ i → e.mem.hbm.read i = d.mem.hbm.read i
  clean : d.poisonIn base n = [] → e.mem.poison = d.mem.poison ∧ e.regs = d.regs
  lam : e.lam = d.lam
  coll : e.coll = d.coll
  ctxs : e.ctxs = d.ctxs
  runs : e.runs = d.runs
  fuses : e.fuses = d.fuses
  inForce : e.regs.live = d.regs.live
  leap : e.leap = d.leap

theorem WrittenIn.refl (base n : Nat) (d : Dev) : WrittenIn base n d d :=
  ⟨fun _ _ => rfl, fun _ => ⟨rfl, rfl⟩, rfl, rfl, rfl, rfl, rfl, rfl, rfl⟩

theorem Dev.poisonIn_of_poison {d e : Dev} (h : e.mem.poison = d.mem.poison) (a n : Nat) : e.poisonIn a n = d.poisonIn a n := by
  rw [Dev.poisonIn, h, Dev.poisonIn]

theorem WrittenIn.trans {base n : Nat} {a b c : Dev} (h₁ : WrittenIn base n a b) (h₂ : WrittenIn base n b c) : WrittenIn base n a c where
  outside i hi := (h₂.outside i hi).trans (h₁.outside i hi)
  clean hp := by
    obtain ⟨hpoison, hregs⟩ := h₁.clean hp
    obtain ⟨hpoison', hregs'⟩ := h₂.clean ((Dev.poisonIn_of_poison hpoison base n).trans hp)
    exact ⟨hpoison'.trans hpoison, hregs'.trans hregs⟩
  lam := h₂.lam.trans h₁.lam
  coll := h₂.coll.trans h₁.coll
  ctxs := h₂.ctxs.trans h₁.ctxs
  runs := h₂.runs.trans h₁.runs
  fuses := h₂.fuses.trans h₁.fuses
  inForce := h₂.inForce.trans h₁.inForce
  leap := h₂.leap.trans h₁.leap

/-- A part of a range without poison has none. -/
theorem Dev.poisonIn_part {d : Dev} {base n a k : Nat} (h : d.poisonIn base n = []) (hlo : base ≤ a) (hhi : a + k ≤ base + n) :
    d.poisonIn a k = [] := by
  rw [Dev.poisonIn, List.filter_eq_nil_iff] at h ⊢
  intro g hg hin
  have hout := h g hg
  simp only [decide_eq_true_eq, not_and, not_lt] at hin hout
  omega

theorem WrittenIn.mono {base n a k : Nat} {d e : Dev} (h : WrittenIn a k d e) (hlo : base ≤ a) (hhi : a + k ≤ base + n) :
    WrittenIn base n d e :=
  { h with
    outside := fun i hi => h.outside i (by omega)
    clean := fun hp => h.clean (Dev.poisonIn_part hp hlo hhi) }

theorem SameInput.poisonIn {d e : Dev} (h : SameInput d e) (a n : Nat) : e.poisonIn a n = d.poisonIn a n :=
  Dev.poisonIn_of_poison (congrArg MemSt.poison h.mem) a n

theorem SameInput.stackLost {d e : Dev} (h : SameInput d e) (a : Nat) : e.stackLost a = d.stackLost a := by
  rw [Dev.stackLost, h.leap, Dev.stackLost]

theorem WrittenIn.stackLost {base n : Nat} {d e : Dev} (h : WrittenIn base n d e) (a : Nat) : e.stackLost a = d.stackLost a := by
  rw [Dev.stackLost, h.leap, Dev.stackLost]

theorem WrittenIn.poisonIn {base n : Nat} {d e : Dev} (h : WrittenIn base n d e) (hp : d.poisonIn base n = []) (a k : Nat) :
    e.poisonIn a k = d.poisonIn a k := Dev.poisonIn_of_poison (h.clean hp).1 a k

theorem WrittenIn.live {base n : Nat} {d e : Dev} (h : WrittenIn base n d e) : e.live = d.live := Dev.live_of_regs h.inForce h.fuses

theorem Dev.lamMirror_writtenIn (d : Dev) (a : Nat) (bs : List Nat) (base n : Nat) : WrittenIn base n d (d.lamMirror a bs) := by
  obtain ⟨lnk, out, h⟩ := d.lamMirror_shape a bs
  rw [h]
  exact ⟨fun _ _ => rfl, fun _ => ⟨rfl, rfl⟩, rfl, rfl, rfl, rfl, rfl, rfl, rfl⟩

/-- Bytes written one by one, but for those of some granules, leave the bytes around them alone. -/
theorem Mem.read_foldl_write_out (m : Mem) (a : Nat) (bs : List Nat) (skip : Nat → Bool) {j : Nat} (h : j < a ∨ a + bs.length ≤ j) :
    ((List.range bs.length).foldl (fun (m : Mem) i => if skip i then m else m.write (a + i) (BitVec.ofNat 8 (bs.getD i 0))) m).read j =
      m.read j := by
  refine List.foldlRecOn (motive := fun e : Mem => e.read j = m.read j) _ _ rfl (fun e he i hi => ?_)
  have hlt := List.mem_range.mp hi
  split
  · exact he
  · exact (Mem.read_write_ne _ _ _ _ (by omega)).trans he

theorem Dev.wrHbm_writtenIn (d : Dev) (a : Nat) (bs : List Nat) : WrittenIn a bs.length d (d.wrHbm a bs) := by
  unfold Dev.wrHbm
  simp only
  split
  · exact .refl _ _ d
  · split
    · exact ⟨fun i hi => Mem.read_writeBytes_out _ _ _ _ hi, fun _ => ⟨rfl, rfl⟩, rfl, rfl, rfl, rfl, rfl, rfl, rfl⟩
    · next hp =>
      exact ⟨fun i hi => Mem.read_foldl_write_out _ _ _ _ hi, fun h => absurd h hp, rfl, rfl, rfl, rfl, rfl, rfl, rfl⟩

theorem Dev.lamWrite_writtenIn (d : Dev) (a : Nat) (bs : List Nat) : WrittenIn a bs.length d (d.lamWrite a bs) :=
  (Dev.wrHbm_writtenIn d a bs).trans (Dev.lamMirror_writtenIn _ _ _ _ _)

/-- A write that stays within a range. -/
theorem Dev.lamWrite_within (d : Dev) {base n a : Nat} {bs : List Nat} (hlo : base ≤ a) (hhi : a + bs.length ≤ base + n) :
    WrittenIn base n d (d.lamWrite a bs) := (Dev.lamWrite_writtenIn d a bs).mono hlo hhi

/-- Where no granule is poisoned and the stack is there, the bytes are written. -/
theorem Dev.lamWrite_hbm {d : Dev} {a : Nat} {bs : List Nat} (hs : d.stackLost a = false) (hp : d.poisonIn a bs.length = []) :
    (d.lamWrite a bs).mem.hbm = d.mem.hbm.writeBytes a bs := by
  obtain ⟨lnk, out, h⟩ := (d.wrHbm a bs).lamMirror_shape a bs
  rw [Dev.lamWrite, h]
  simp only [Dev.wrHbm, hs, hp, Bool.false_eq_true, if_false, if_true]

theorem findUndef_uncovered {u : List (Nat × Nat × Nat)} {i : Nat} (h : ∀ r ∈ u, i < r.1 ∨ r.2.1 ≤ i) : findUndef u i = none := by
  induction u with
  | nil => rfl
  | cons r u ih =>
    obtain ⟨a, b, c⟩ := r
    have hr : i < a ∨ b ≤ i := h (a, b, c) List.mem_cons_self
    rw [findUndef, if_neg (by omega)]
    exact ih (fun q hq => h q (List.mem_cons_of_mem _ hq))

/-- What is left of a range that is cut lies before or after the cut. -/
theorem cutRange_outside {lo hi : Nat} {q r : Nat × Nat × Nat} (h : r ∈ cutRange lo hi q) : hi ≤ r.1 ∨ r.2.1 ≤ lo := by
  unfold cutRange at h
  split at h
  · next hq =>
    rwa [List.mem_singleton.mp h]
  · rcases List.mem_append.mp h with h | h <;> split at h
    · exact .inr (le_of_eq (congrArg (fun r => r.2.1) (List.mem_singleton.mp h)))
    · exact absurd h List.not_mem_nil
    · exact .inl (le_of_eq (congrArg Prod.fst (List.mem_singleton.mp h)).symm)
    · exact absurd h List.not_mem_nil

theorem findUndef_cut_inside (u : List (Nat × Nat × Nat)) {lo hi i : Nat} (h : lo ≤ i ∧ i < hi) :
    findUndef (u.flatMap (cutRange lo hi)) i = none := by
  refine findUndef_uncovered (fun r hr => ?_)
  obtain ⟨q, -, hq⟩ := List.mem_flatMap.mp hr
  have hout := cutRange_outside hq
  omega

theorem Mem.read_zero_in (m : Mem) {lo hi i : Nat} (h : lo ≤ i ∧ i < hi) : (m.zero lo hi).read i = 0 := by
  have hcell : findCell (m.zero lo hi).cells i = none := by
    rw [Mem.zero, findCell_filter m.cells (fun k => !(decide (lo ≤ k) && decide (k < hi)))]
    simp [h.1, h.2]
  have hundef : findUndef (m.zero lo hi).undef i = none := findUndef_cut_inside _ h
  simp only [Mem.read, Mem.blank, hcell, hundef]

theorem Mem.read_zero_out (m : Mem) {lo hi i : Nat} (h : i < lo ∨ hi ≤ i) : (m.zero lo hi).read i = m.read i := by
  have hcell : findCell (m.zero lo hi).cells i = findCell m.cells i := by
    rw [Mem.zero, findCell_filter m.cells (fun k => !(decide (lo ≤ k) && decide (k < hi)))]
    refine if_pos ?_
    simp only [Bool.not_eq_true', Bool.and_eq_false_iff, decide_eq_false_iff_not]
    omega
  have hundef : findUndef (m.zero lo hi).undef i = findUndef m.undef i := findUndef_cut _ _ _ _ h
  simp only [Mem.read, Mem.blank, hcell, hundef]

theorem Dev.lamZero_writtenIn (d : Dev) (a n : Nat) : WrittenIn a n d (d.lamZero a n) := by
  have hzero : WrittenIn a n d { d with mem := { d.mem with hbm := d.mem.hbm.zero a (a + n) } } :=
    ⟨fun i hi => Mem.read_zero_out _ hi, fun _ => ⟨rfl, rfl⟩, rfl, rfl, rfl, rfl, rfl, rfl, rfl⟩
  refine WrittenIn.trans ?_ (Dev.lamMirror_writtenIn _ _ _ _ _)
  by_cases hs : d.stackLost a = true
  · simp only [hs, Bool.true_or, if_true]
    exact .refl _ _ d
  · by_cases hp : d.poisonIn a n = []
    · simp only [hs, hp, beq_self_eq_true, Bool.or_true, Bool.false_eq_true, if_false, if_true]
      exact hzero
    · simp only [hs, Bool.false_or, beq_iff_eq, hp, Bool.false_eq_true, if_false]
      exact ⟨hzero.outside, fun h => absurd h hp, rfl, rfl, rfl, rfl, rfl, rfl, rfl⟩

/-- The bytes zeroed read 0. -/
theorem Dev.lamZero_read {d : Dev} {a n i : Nat} (hs : d.stackLost a = false) (h : a ≤ i ∧ i < a + n) : (d.lamZero a n).mem.hbm.read i = 0 := by
  obtain ⟨lnk, out, hm⟩ := Dev.lamMirror_shape (if d.stackLost a || d.poisonIn a n == [] then
      { d with mem := { d.mem with hbm := d.mem.hbm.zero a (a + n) } }
    else ({ d with mem := { d.mem with hbm := d.mem.hbm.zero a (a + n) } } : Dev).setPoison
      (d.mem.poison.filter (fun g => decide (g < a) || decide (a + n ≤ g)))) a (List.replicate n 0)
  rw [Dev.lamZero]
  simp only [hs, Bool.false_eq_true, if_false] at hm ⊢
  rw [hm]
  split <;> exact Mem.read_zero_in _ h

end Sys2Proof.Machine
end

section
/-!
PROOFS. Camera ports, streams and frame starts (O50).
-/
namespace Sys2Proof.Machine

/-! ## Ports (R68, R69) -/

/-- LAM_PORT_CFG with every field of a value written while EN is 0. -/
def Dev.portSet (d : Dev) (p value : Nat) : Dev :=
  (((d.set (F.LAM_PORT_CFG.PHY p) (bits value 1 1)).set (F.LAM_PORT_CFG.LANES p) (bits value 4 2)).set (F.LAM_PORT_CFG.MAXRATE p)
    (bits value 15 8)).set (F.LAM_PORT_CFG.EN p) (bits value 0 0)

theorem Dev.portSet_keeps (d : Dev) (p value : Nat) :
    (d.portSet p value).lam = d.lam ∧ (d.portSet p value).mem = d.mem ∧ (d.portSet p value).ctxs = d.ctxs := by
  simp only [Dev.portSet, Dev.set_lam, Dev.set_mem, Dev.set_ctxs, and_self]

theorem Dev.portCfgWrite_disabled {d : Dev} {p value : Nat} (hen : d.on (F.LAM_PORT_CFG.EN p) = false) (h0 : bits value 15 8 ≠ 0)
    (hmax : bits value 15 8 ≤ if bits value 1 1 = 0 then 45 else 60) :
    d.portCfgWrite p value =
      if bits value 0 0 = 1 then ((d.portSet p value).stage (R.LAM_PORT_CFG p) (R.LAM_PORT_LAT p)).enforce (R.LAM_PORT_CFG p) (R.LAM_PORT_LAT p)
      else (d.portSet p value).set (F.LAM_PORT_STAT.TRAINED p) 0 := by
  have hbit : bits value 0 0 = 0 ∨ bits value 0 0 = 1 := Nat.mod_two_eq_zero_or_one _
  have hrate : (bits value 15 8 == 0 || decide ((if bits value 1 1 = 0 then 45 else 60) < bits value 15 8)) = false := by
    rw [Bool.or_eq_false_iff]
    exact ⟨beq_eq_false_iff_ne.mpr h0, decide_eq_false (Nat.not_lt.mpr hmax)⟩
  rcases hbit with h | h <;>
    simp only [Dev.portCfgWrite, hen, hrate, h, Bool.not_false, Bool.and_false, Bool.true_and, Bool.false_eq_true, if_false, beq_self_eq_true,
      if_true, Nat.reduceBEq, Dev.portSet, zero_ne_one]

/-- Whether EN rises or not, the write sets LAM_PORT_CFG, and leaves the registers but LAM_PORT_STAT at that. -/
theorem Dev.portCfgWrite_disabled_effect {d : Dev} {p value : Nat} (hen : d.on (F.LAM_PORT_CFG.EN p) = false) (h0 : bits value 15 8 ≠ 0)
    (hmax : bits value 15 8 ≤ if bits value 1 1 = 0 then 45 else 60) :
    (∀ o, o ≠ R.LAM_PORT_STAT p → (d.portCfgWrite p value).reg o = (d.portSet p value).reg o) ∧ (d.portCfgWrite p value).lam = d.lam ∧
      (d.portCfgWrite p value).mem = d.mem ∧ (d.portCfgWrite p value).ctxs = d.ctxs := by
  obtain ⟨hlam, hmem, hctxs⟩ := d.portSet_keeps p value
  rw [Dev.portCfgWrite_disabled hen h0 hmax]
  split
  · refine ⟨fun o _ => (Dev.reg_enforce _ _ _ o).trans (Dev.reg_stage _ _ _ o), ?_⟩
    simp only [Dev.enforce_lam, Dev.stage_lam, Dev.enforce_mem, Dev.stage_mem, Dev.enforce_ctxs, Dev.stage_ctxs]
    exact ⟨hlam, hmem, hctxs⟩
  · refine ⟨fun o ho => Dev.reg_set_ne _ _ _ _ ho, ?_⟩
    simp only [Dev.set_lam, Dev.set_mem, Dev.set_ctxs]
    exact ⟨hlam, hmem, hctxs⟩

theorem Dev.portSet_fields (d : Dev) (p value : Nat) :
    (d.portSet p value).f (F.LAM_PORT_CFG.EN p) = bits value 0 0 ∧ (d.portSet p value).f (F.LAM_PORT_CFG.PHY p) = bits value 1 1 ∧
      (d.portSet p value).f (F.LAM_PORT_CFG.LANES p) = bits value 4 2 ∧
      (d.portSet p value).f (F.LAM_PORT_CFG.MAXRATE p) = bits value 15 8 := by
  refine ⟨?en, ?phy, ?lanes, ?rate⟩
  case en => exact (Dev.f_set_same _ _ _ rfl).trans (Nat.mod_mod _ _)
  case phy =>
    rw [Dev.portSet, Dev.f_set_bits _ _ rfl rfl (by decide : 1 < 0 ∨ 0 < 1), Dev.f_set_bits _ _ rfl rfl (by decide : 1 < 8 ∨ 15 < 1),
      Dev.f_set_bits _ _ rfl rfl (by decide : 1 < 2 ∨ 4 < 1), Dev.f_set_same _ _ _ rfl]
    exact Nat.mod_mod _ _
  case lanes =>
    rw [Dev.portSet, Dev.f_set_bits _ _ rfl rfl (by decide : 4 < 0 ∨ 0 < 2), Dev.f_set_bits _ _ rfl rfl (by decide : 4 < 8 ∨ 15 < 2),
      Dev.f_set_same _ _ _ rfl]
    exact Nat.mod_mod _ _
  case rate =>
    rw [Dev.portSet, Dev.f_set_bits _ _ rfl rfl (by decide : 15 < 0 ∨ 0 < 8), Dev.f_set_same _ _ _ rfl]
    exact Nat.mod_mod _ _

theorem Dev.portSet_reg (d : Dev) (p value : Nat) {o : Nat} (h : o ≠ R.LAM_PORT_CFG p) : (d.portSet p value).reg o = d.reg o := by
  rw [Dev.portSet, Dev.reg_set_ne _ _ _ _ h, Dev.reg_set_ne _ _ _ _ h, Dev.reg_set_ne _ _ _ _ h, Dev.reg_set_ne _ _ _ _ h]

theorem portStat_ne_portCfg (p : Nat) : R.LAM_PORT_CFG p ≠ R.LAM_PORT_STAT p := by
  simp only [R.LAM_PORT_CFG, R.LAM_PORT_STAT]
  omega

/-- A write while EN is 1 that clears EN takes nothing else. -/
theorem Dev.portCfgWrite_disables {d : Dev} {p value : Nat} (hen : d.on (F.LAM_PORT_CFG.EN p) = true) (h0 : bits value 0 0 = 0) :
    d.portCfgWrite p value = (d.set (F.LAM_PORT_CFG.EN p) 0).set (F.LAM_PORT_STAT.TRAINED p) 0 := by
  simp only [Dev.portCfgWrite, hen, h0, Bool.not_true, Bool.false_and, Bool.false_eq_true, if_false, if_true, beq_self_eq_true]

theorem Dev.linkUpDown_enabled {d : Dev} {p : Nat} (up : Bool) (hp : p < 16) (hen : d.on (F.LAM_PORT_CFG.EN p) = true) :
    d.linkUpDown p up = d.set (F.LAM_PORT_STAT.TRAINED p) (b2n (up && d.lanesOk p)) := by
  simp only [Dev.linkUpDown, hen, Nat.not_le.mpr hp, decide_false, Bool.not_true, Bool.or_self, Bool.false_eq_true, if_false]

/-! ## APPLY (R70, R71) -/

theorem Dev.strApply_refused {d : Dev} {s : Nat} (h : d.camOk (camCfg d.f s) = false) : d.strApply s = d.set (F.LAM_STR_CFG.BAD_CFG s) 1 := by
  simp only [Dev.strApply, h, Bool.not_false, if_true]

/-- The accepted values of a stream, staged. -/
def Dev.strStaged (d : Dev) (s : Nat) : Dev := d.stagedFor (F.LAM_STR_BUFS.UNITS s) (camCfg d.f s).units (R.LAM_STR_CFG s) (R.LAM_STR_STAT s)

/-- Accepted values take effect at once, or wait where a frame is open. -/
theorem Dev.strApply_accepted {d : Dev} {s : Nat} (h : d.camOk (camCfg d.f s) = true) :
    d.strApply s = if (d.strm s).frame.isNone then (d.strStaged s).strTake s else (d.strStaged s).set (F.LAM_STR_CFG.PENDING s) 1 := by
  rw [← Dev.strm_of_lam (e := d.strStaged s) (d.stagedFor_keeps _ _ _ _).1 s, Dev.strApply, h]
  rfl

/-! ## Packets that a port delivers (R68, R69, R72) -/

theorem Dev.csiLive_lt {d : Dev} {p : Nat} (h : d.csiLive p = true) : p < 16 := by
  simp only [Dev.csiLive, Bool.and_eq_true, decide_eq_true_eq] at h
  exact h.1.1

/-- The count of headers that their ECC corrected, after one more header. -/
def Dev.eccCount (d : Dev) (p : Nat) (ecc : Bool) : Nat :=
  if ecc then Nat.min (d.f (F.LAM_PORT_ECC_CORR.COUNT p) + 1) 0xFFFFFFFF else d.f (F.LAM_PORT_ECC_CORR.COUNT p)

theorem Dev.eccNote_keeps (d : Dev) (p : Nat) (ecc : Bool) :
    SameInput d (d.eccNote p ecc) ∧ (d.eccNote p ecc).lam = d.lam ∧ (d.eccNote p ecc).coll = d.coll ∧
      ∀ o, o ≠ R.LAM_PORT_ECC_CORR p → (d.eccNote p ecc).reg o = d.reg o := by
  unfold Dev.eccNote
  split
  · exact ⟨Dev.addSat_sameInput _ _ _, rfl, rfl, fun o ho => Dev.reg_addSat_ne _ _ _ ho⟩
  · exact ⟨.refl d, rfl, rfl, fun _ _ => rfl⟩

theorem Dev.eccNote_count {d : Dev} (p : Nat) (ecc : Bool) (h : d.lamOn = true) :
    (d.eccNote p ecc).f (F.LAM_PORT_ECC_CORR.COUNT p) = d.eccCount p ecc := by
  cases ecc
  · rfl
  · rw [Dev.eccNote, h]
    exact Dev.f_addSat_same d 1 rfl

theorem Dev.eccNote_false (d : Dev) (p : Nat) : d.eccNote p false = d := rfl

theorem portHdrErr_ne_eccCorr (p : Nat) : R.LAM_PORT_HDR_ERR p ≠ R.LAM_PORT_ECC_CORR p := by
  simp only [R.LAM_PORT_HDR_ERR, R.LAM_PORT_ECC_CORR]
  omega

/-- A frame start or end of virtual channel 4 or above is counted, and no more. -/
theorem Dev.vcxPacket_effect {d : Dev} (p t : Nat) (ecc : Bool) (h : d.lamOn = true) :
    let e := (d.eccNote p ecc).vcxPacket p t
    e.f (F.LAM_PORT_ECC_CORR.COUNT p) = d.eccCount p ecc ∧
      e.f (F.LAM_PORT_HDR_ERR.COUNT p) = Nat.min (d.f (F.LAM_PORT_HDR_ERR.COUNT p) + 1) 0xFFFFFFFF ∧
      e.lam = d.lam ∧ e.mem = d.mem ∧ e.coll = d.coll := by
  obtain ⟨hin, hlam, hcoll, hreg⟩ := d.eccNote_keeps p ecc
  have he : (d.eccNote p ecc).vcxPacket p t = ((d.eccNote p ecc).at_ t).addSat (F.LAM_PORT_HDR_ERR.COUNT p) 1 := by
    rw [Dev.vcxPacket, hin.takes, h, if_pos rfl]
  rw [he]
  refine ⟨?ecc, ?hdr, hlam, hin.mem, hcoll⟩
  case ecc => exact (Dev.f_of_reg (Dev.reg_addSat_ne _ _ _ (portHdrErr_ne_eccCorr p).symm)).trans (Dev.eccNote_count p ecc h)
  case hdr =>
    refine (Dev.f_addSat_same _ 1 rfl).trans ?_
    have hf : ((d.eccNote p ecc).at_ t).f (F.LAM_PORT_HDR_ERR.COUNT p) = d.f (F.LAM_PORT_HDR_ERR.COUNT p) :=
      Dev.f_of_reg (hreg _ (portHdrErr_ne_eccCorr p))
    rw [hf]
    rfl

theorem Dev.mem_strsOf {d : Dev} {p vc : Nat} {q : Nat × CamCfg} (h : q ∈ d.strsOf p vc) :
    q.1 < 32 ∧ q.2 = camCfg d.live q.1 := by
  obtain ⟨s, hs, rfl⟩ := List.mem_map.mp (List.mem_filter.mp h).1
  exact ⟨List.mem_range.mp hs, rfl⟩

theorem Dev.mem_strsOf_of_openable {d : Dev} {p vc : Nat} {q : Nat × CamCfg} (h : q ∈ d.openable p vc) : q ∈ d.strsOf p vc :=
  (List.mem_filter.mp h).1

/-- Each stream is listed once. -/
theorem Dev.strsOf_pairwise (d : Dev) (p vc : Nat) : (d.strsOf p vc).Pairwise (fun q r => q.1 ≠ r.1) := by
  refine List.Pairwise.filter _ (List.pairwise_map.mpr ?_)
  exact List.nodup_range

theorem Dev.openable_pairwise (d : Dev) (p vc : Nat) : (d.openable p vc).Pairwise (fun q r => q.1 ≠ r.1) :=
  List.Pairwise.filter _ (d.strsOf_pairwise p vc)

/-- The streams of a port and channel are those that the values in force and EN name. -/
theorem Dev.strsOf_congr {d e : Dev} (h : e.live = d.live) (hen : ∀ s, e.reg (R.LAM_STR_CFG s) = d.reg (R.LAM_STR_CFG s)) (p vc : Nat) :
    e.strsOf p vc = d.strsOf p vc := by
  have hon : ∀ s, e.on (F.LAM_STR_CFG.EN s) = d.on (F.LAM_STR_CFG.EN s) := fun s => Dev.on_of_reg (hen s)
  simp only [Dev.strsOf, h, hon]

theorem strCfg_ne_eccCorr (s p : Nat) : R.LAM_STR_CFG s ≠ R.LAM_PORT_ECC_CORR p := by
  simp only [R.LAM_STR_CFG, R.LAM_PORT_ECC_CORR]
  omega

/-- The block as the streams of port `p` find it at a packet's header. -/
def Dev.atHeader (d : Dev) (p : Nat) (ecc : Bool) (t : Nat) : Dev := (d.eccNote p ecc).at_ t

theorem Dev.atHeader_keeps (d : Dev) (p : Nat) (ecc : Bool) (t : Nat) :
    SameInput d (d.atHeader p ecc t) ∧ (d.atHeader p ecc t).lam = d.lam ∧ (d.atHeader p ecc t).coll = d.coll ∧
      ∀ o, o ≠ R.LAM_PORT_ECC_CORR p → (d.atHeader p ecc t).reg o = d.reg o := by
  obtain ⟨hin, hlam, hcoll, hreg⟩ := d.eccNote_keeps p ecc
  exact ⟨hin.trans (Dev.atTime_sameInput _ t), hlam, hcoll, hreg⟩

theorem Dev.atHeader_strsOf (d : Dev) (p vc : Nat) (ecc : Bool) (t : Nat) : (d.atHeader p ecc t).strsOf p vc = d.strsOf p vc := by
  obtain ⟨hin, -, -, hreg⟩ := d.atHeader_keeps p ecc t
  exact Dev.strsOf_congr hin.live (fun s => hreg _ (strCfg_ne_eccCorr s p)) p vc

theorem Dev.atHeader_openable (d : Dev) (p vc : Nat) (ecc : Bool) (t : Nat) : (d.atHeader p ecc t).openable p vc = d.openable p vc := by
  rw [Dev.openable, Dev.atHeader_strsOf, Dev.openable]

/-! ## Frame starts (R50, R73, R76) -/

/-- FS on one stream: its next sequence number, and a frame in a free buffer. -/
def Dev.openFrame (t : Nat) (d : Dev) (q : Nat × CamCfg) : Dev :=
  let s := q.1
  let seq := (d.strm s).nextSeq
  let d := d.seqStart s
  if !d.lamOn then d else
  match d.freeBuf s with
  | none => d.lamDrop s
  | some (i, a) => d.modStrm s (fun r => { r with frame := some ⟨i, a, seq, t, t, 0, 0, 0, 0, []⟩ })

/-- Before FS opens a frame on a stream, one that is open fails, and values that wait take effect. -/
def Dev.settleStream (p : Nat) (d : Dev) (q : Nat × CamCfg) : Dev :=
  let d := if (d.strm q.1).frame.isSome then d.camFail q.1 p 6 else d
  if d.on (F.LAM_STR_CFG.PENDING q.1) then d.strTake q.1 else d

theorem Dev.frameStart_eq {d : Dev} {p vc : Nat} (ecc : Bool) (t : Nat) (hl : d.csiLive p = true) (hvc : vc < 4) :
    d.frameStart p vc ecc t =
      let e := ((d.atHeader p ecc t).strsOf p vc).foldl (Dev.settleStream p) (d.atHeader p ecc t)
      (e.openable p vc).foldl (Dev.openFrame t) e := by
  rw [Dev.frameStart, hl, if_neg (by decide)]
  exact if_neg (Nat.not_le.mpr hvc)

/-- FS where no stream of the port and channel has an open frame or values that wait. -/
theorem Dev.frameStart_quiet {d : Dev} {p vc : Nat} (ecc : Bool) (t : Nat) (hl : d.csiLive p = true) (hvc : vc < 4)
    (hq : ∀ q ∈ d.strsOf p vc, (d.strm q.1).frame = none ∧ d.on (F.LAM_STR_CFG.PENDING q.1) = false) :
    d.frameStart p vc ecc t = (d.openable p vc).foldl (Dev.openFrame t) (d.atHeader p ecc t) := by
  obtain ⟨-, hlam, -, hreg⟩ := d.atHeader_keeps p ecc t
  have hidle : ((d.atHeader p ecc t).strsOf p vc).foldl (Dev.settleStream p) (d.atHeader p ecc t) = d.atHeader p ecc t := by
    rw [Dev.atHeader_strsOf]
    refine List.foldlRecOn (motive := fun e => e = d.atHeader p ecc t) _ _ rfl ?_
    rintro e rfl q hqm
    obtain ⟨hframe, hpend⟩ := hq q hqm
    have hframe' : ((d.atHeader p ecc t).strm q.1).frame = none := (congrArg Stream.frame (Dev.strm_of_lam hlam q.1)).trans hframe
    have hpend' : (d.atHeader p ecc t).on (F.LAM_STR_CFG.PENDING q.1) = false :=
      (Dev.on_of_reg (hreg _ (strCfg_ne_eccCorr q.1 p))).trans hpend
    simp only [Dev.settleStream, hframe', Option.isSome_none, Bool.false_eq_true, if_false, hpend']
  rw [Dev.frameStart_eq ecc t hl hvc]
  simp only [hidle, Dev.atHeader_openable]

/-- What FS on other streams leaves of stream `s`. -/
structure OpensAside (s : Nat) (d e : Dev) : Prop where
  input : SameInput d e
  strm : e.strm s = d.strm s
  regs : ∀ o, o < R.LAM_STR_CFG 0 ∨ (R.LAM_STR_CFG s ≤ o ∧ o < R.LAM_STR_CFG (s + 1)) → e.reg o = d.reg o

theorem OpensAside.trans {s : Nat} {a b c : Dev} (h₁ : OpensAside s a b) (h₂ : OpensAside s b c) : OpensAside s a c :=
  ⟨h₁.input.trans h₂.input, h₂.strm.trans h₁.strm, fun o ho => (h₂.regs o ho).trans (h₁.regs o ho)⟩

theorem strStat_of_cam {s : Nat} (h : s < 32) : strStat s = R.LAM_STR_STAT s := if_pos h

theorem Dev.seqStart_sameInput (d : Dev) (s : Nat) : SameInput d (d.seqStart s) :=
  (Dev.set_sameInput d _ _).trans (Dev.modStrm_sameInput _ s _)

theorem Dev.strm_seqStart (d : Dev) (s : Nat) :
    (d.seqStart s).strm s = { d.strm s with nextSeq := ((d.strm s).nextSeq + 1) % 2 ^ 32 } := Dev.strm_modStrm_same _ _ _

theorem Dev.reg_seqStart_ne (d : Dev) {s o : Nat} (h : o ≠ strStat s + 4) : (d.seqStart s).reg o = d.reg o := Dev.reg_set_ne d _ _ o h

/-- A frame that finds every buffer pinned is counted and reported. -/
theorem Dev.lamDrop_keeps (d : Dev) (s : Nat) :
    SameInput d (d.lamDrop s) ∧ (d.lamDrop s).lam = d.lam ∧ (∀ o, o ≠ strStat s + 12 → o ≠ R.PWR_LP_CTRL → (d.lamDrop s).reg o = d.reg o) ∧
      (d.lamDrop s).f ⟨strStat s + 12, 31, 0⟩ = Nat.min (d.f ⟨strStat s + 12, 31, 0⟩ + 1) 0xFFFFFFFF := by
  obtain ⟨hin, hlam, hreg⟩ := Dev.raise_hub_keeps (d.addSat ⟨strStat s + 12, 31, 0⟩ 1) 0x141 s 6 (by decide : 7 ≤ unitKind 0x8024)
  refine ⟨(Dev.addSat_sameInput _ _ _).trans hin, hlam, fun o h₁ h₂ => (hreg o h₂).trans (Dev.reg_addSat_ne _ _ _ h₁), ?_⟩
  exact (Dev.f_of_reg (hreg _ (strStat_ne_lowPower s (by decide)))).trans (Dev.f_addSat_same _ 1 rfl)

theorem Dev.openFrame_sameInput (t : Nat) (d : Dev) (q : Nat × CamCfg) : SameInput d (d.openFrame t q) := by
  have hseq := d.seqStart_sameInput q.1
  unfold Dev.openFrame
  simp only
  split
  · exact hseq
  · split
    · exact hseq.trans (Dev.lamDrop_keeps _ _).1
    · exact hseq.trans (Dev.modStrm_sameInput _ _ _)

theorem Dev.openFrame_strm_ne (t : Nat) (d : Dev) (q : Nat × CamCfg) {s : Nat} (h : s ≠ q.1) : (d.openFrame t q).strm s = d.strm s := by
  have hseq : (d.seqStart q.1).strm s = d.strm s := Dev.strm_modStrm_ne _ _ h
  unfold Dev.openFrame
  simp only
  split
  · exact hseq
  · split
    · exact (Dev.strm_of_lam (Dev.lamDrop_keeps _ _).2.1 s).trans hseq
    · exact (Dev.strm_modStrm_ne _ _ h).trans hseq

theorem Dev.openFrame_reg_ne (t : Nat) (d : Dev) (q : Nat × CamCfg) {o : Nat} (h : o ∉ [strStat q.1 + 4, strStat q.1 + 12, R.PWR_LP_CTRL]) :
    (d.openFrame t q).reg o = d.reg o := by
  simp only [List.mem_cons, List.not_mem_nil, or_false, not_or] at h
  obtain ⟨h₁, h₂, h₃⟩ := h
  have hseq := Dev.reg_seqStart_ne d h₁
  unfold Dev.openFrame
  simp only
  split
  · exact hseq
  · split
    · exact ((Dev.lamDrop_keeps _ _).2.2.1 o h₂ h₃).trans hseq
    · exact hseq

theorem Dev.openFrame_aside (t : Nat) (d : Dev) {q : Nat × CamCfg} {s : Nat} (hq : q.1 < 32) (hs : s < 32) (h : q.1 ≠ s) :
    OpensAside s d (d.openFrame t q) := by
  refine ⟨Dev.openFrame_sameInput t d q, Dev.openFrame_strm_ne t d q h.symm, fun o ho => Dev.openFrame_reg_ne t d q ?_⟩
  rw [strStat_of_cam hq]
  simp only [R.LAM_STR_CFG, R.LAM_STR_STAT, R.PWR_LP_CTRL, List.mem_cons, List.not_mem_nil, or_false, not_or] at ho ⊢
  omega

/-- The buffer chosen depends on the ring, its buffers that are taken, and the roster. -/
theorem Dev.freeBuf_congr {d e : Dev} {s : Nat} (hs : s < 32) (hin : SameInput d e) (hdr : (e.strm s).hdr = (d.strm s).hdr)
    (hlate : (e.strm s).late = (d.strm s).late) (hlast : (e.strm s).last = (d.strm s).last)
    (hreg : e.reg (R.LAM_STR_BUFS s) = d.reg (R.LAM_STR_BUFS s)) : e.freeBuf s = d.freeBuf s := by
  have hunits : e.f (F.LAM_STR_BUFS.UNITS s) = d.f (F.LAM_STR_BUFS.UNITS s) := Dev.f_of_reg hreg
  have hpin : e.pinnedBuf = d.pinnedBuf := by
    funext a
    simp only [Dev.pinnedBuf, hin.frame]
  simp only [Dev.freeBuf, Dev.ringOf, if_pos hs, hin.live, hunits, hdr, hlate, hlast, hpin]

/-- What FS does to its stream. -/
theorem Dev.openFrame_own (t : Nat) {d : Dev} {s : Nat} (c : CamCfg) (hs : s < 32) (hon : d.lamOn = true) :
    let e := d.openFrame t (s, c)
    (∀ i a, d.freeBuf s = some (i, a) → (e.strm s).frame = some ⟨i, a, (d.strm s).nextSeq, t, t, 0, 0, 0, 0, []⟩) ∧
      (d.freeBuf s = none → (e.strm s).frame = (d.strm s).frame ∧
        e.f ⟨strStat s + 12, 31, 0⟩ = Nat.min (d.f ⟨strStat s + 12, 31, 0⟩ + 1) 0xFFFFFFFF) ∧
      (e.strm s).nextSeq = ((d.strm s).nextSeq + 1) % 2 ^ 32 ∧ e.f ⟨strStat s + 4, 31, 0⟩ = (d.strm s).nextSeq % 2 ^ 32 := by
  have hstrm := d.strm_seqStart s
  have hbuf : (d.seqStart s).freeBuf s = d.freeBuf s := by
    refine Dev.freeBuf_congr hs (d.seqStart_sameInput s) (by rw [hstrm]) (by rw [hstrm]) (by rw [hstrm]) (Dev.reg_seqStart_ne d ?_)
    rw [strStat_of_cam hs]
    simp only [R.LAM_STR_BUFS, R.LAM_STR_STAT]
    omega
  have hseq : (d.seqStart s).f ⟨strStat s + 4, 31, 0⟩ = (d.strm s).nextSeq % 2 ^ 32 :=
    Dev.f_set_same d ⟨strStat s + 4, 31, 0⟩ (d.strm s).nextSeq rfl
  have hon' : (d.seqStart s).lamOn = true := (d.seqStart_sameInput s).takes.trans hon
  simp only [Dev.openFrame, hon', Bool.not_true, Bool.false_eq_true, if_false, hbuf]
  cases hfree : d.freeBuf s with
  | none =>
    obtain ⟨-, hlam, hreg, hcount⟩ := (d.seqStart s).lamDrop_keeps s
    have hstrm' := (Dev.strm_of_lam hlam s).trans hstrm
    refine ⟨fun _ _ h => (Option.some_ne_none _ h.symm).elim, fun _ => ⟨by rw [hstrm'], hcount.trans ?_⟩, by rw [hstrm'], ?_⟩
    · rw [Dev.f_of_reg (Dev.reg_seqStart_ne d (s := s) (by simp))]
    · exact (Dev.f_of_reg (hreg _ (by simp) (strStat_ne_lowPower s (by decide)))).trans hseq
  | some b =>
    obtain ⟨i, a⟩ := b
    have hstrm' := Dev.strm_modStrm_same (d.seqStart s) s (fun r => { r with frame := some ⟨i, a, (d.strm s).nextSeq, t, t, 0, 0, 0, 0, []⟩ })
    refine ⟨?_, fun h => (Option.some_ne_none _ h).elim, by rw [hstrm', hstrm], hseq⟩
    rintro _ _ ⟨rfl, rfl⟩
    rw [hstrm']

/-- Of the streams that FS opens, each is opened once, whatever happens to the others. -/
theorem Dev.openFrames_split {d : Dev} {p vc s : Nat} {c : CamCfg} (e : Dev) (t : Nat) (h : (s, c) ∈ d.openable p vc) :
    ∃ before, OpensAside s e before ∧ OpensAside s (before.openFrame t (s, c)) ((d.openable p vc).foldl (Dev.openFrame t) e) := by
  have hlt : ∀ q ∈ d.openable p vc, q.1 < 32 := fun q hq => (Dev.mem_strsOf (Dev.mem_strsOf_of_openable hq)).1
  have hs : s < 32 := hlt _ h
  obtain ⟨l₁, l₂, hl⟩ := List.mem_iff_append.mp h
  have hpair := d.openable_pairwise p vc
  rw [hl] at hpair hlt ⊢
  obtain ⟨-, htail, hcross⟩ := List.pairwise_append.mp hpair
  have aside : ∀ (l : List (Nat × CamCfg)) (b : Dev), (∀ q ∈ l, q.1 < 32 ∧ q.1 ≠ s) → OpensAside s b (l.foldl (Dev.openFrame t) b) := by
    intro l b hq
    refine List.foldlRecOn (motive := fun e => OpensAside s b e) _ _ ⟨.refl b, rfl, fun _ _ => rfl⟩ (fun e he q hm => ?_)
    exact he.trans (Dev.openFrame_aside t e (hq q hm).1 hs (hq q hm).2)
  rw [List.foldl_append, List.foldl_cons]
  refine ⟨_, aside l₁ e (fun q hq => ⟨hlt q (by simp [hq]), hcross q hq _ (List.mem_cons_self ..)⟩),
    aside l₂ _ (fun q hq => ⟨hlt q (by simp [hq]), ?_⟩)⟩
  exact ((List.pairwise_cons.mp htail).1 q hq).symm


/-- What STREAM_DISABLE leaves: the stream without its frame or sweep, and its EN at 0. -/
theorem Dev.strDisable_effect (d : Dev) {s : Nat} {x : Fld} (hx : (if s < 32 then F.LAM_STR_CFG.EN s else F.LAM_LID_CFG.EN (s - 32)) = x)
    (hok : x.ok = true) :
    let e := d.strDisable s
    e.on x = false ∧ e.strm s = { d.strm s with frame := none, sweep := none, skip := false, prevAz := none } ∧
      (∀ m, m ≠ s → e.strm m = d.strm m) ∧ sameRegsBut [x.off] d e ∧ e.mem = d.mem ∧ e.coll = d.coll := by
  have he : d.strDisable s =
      (d.set x 0).modStrm s (fun r => { r with frame := none, sweep := none, skip := false, prevAz := none }) := by
    rw [Dev.strDisable, hx]
  rw [he]
  refine ⟨Dev.on_set_zero d hok, Dev.strm_modStrm_same _ _ _, fun m hm => Dev.strm_modStrm_ne _ _ hm, fun o ho => ?_, rfl, rfl⟩
  exact Dev.reg_set_ne d x 0 o (fun h => ho (List.mem_singleton.mpr h))

/-- APPLY on a stream without a frame. -/
theorem Dev.strApply_idle_effect {d : Dev} {n : Nat} (h : d.camOk (camCfg d.f n) = true) (hf : (d.strm n).frame = none) :
    let e := d.strApply n
    (∀ x : Fld, R.LAM_STR_CFG n ≤ x.off → x.off < R.LAM_STR_STAT n → x.off ≠ R.LAM_STR_BUFS n → e.live x = d.f x) ∧
      e.live (F.LAM_STR_BUFS.COUNT n) = d.f (F.LAM_STR_BUFS.COUNT n) ∧ e.on (F.LAM_STR_CFG.PENDING n) = false ∧ e.lam = d.lam ∧
      e.mem = d.mem := by
  have hlo : R.LAM_STR_CFG n ≤ R.LAM_STR_BUFS n := by simp only [R.LAM_STR_CFG, R.LAM_STR_BUFS]; omega
  have hhi : R.LAM_STR_BUFS n < R.LAM_STR_STAT n := by simp only [R.LAM_STR_STAT, R.LAM_STR_BUFS]; omega
  obtain ⟨hlive, hpend, hlam, hmem⟩ := d.stagedFor_taken (F.LAM_STR_BUFS.UNITS n) (camCfg d.f n).units (pending := F.LAM_STR_CFG.PENDING n)
    (R.LAM_STR_CFG n) (R.LAM_STR_STAT n) rfl
  rw [Dev.strApply_accepted h, hf, if_pos Option.isNone_none]
  exact ⟨fun x h₁ h₂ hne => (hlive x h₁ h₂).trans (Dev.f_set_off d _ hne),
    (hlive (F.LAM_STR_BUFS.COUNT n) hlo hhi).trans (Dev.f_set_bits d _ rfl rfl (by decide : 4 < 16 ∨ 31 < 0)), hpend, hlam, hmem⟩

/-- APPLY on a stream with an open frame. -/
theorem Dev.strApply_busy_effect {d : Dev} {n : Nat} (h : d.camOk (camCfg d.f n) = true) (hf : (d.strm n).frame ≠ none) :
    let e := d.strApply n
    e.on (F.LAM_STR_CFG.PENDING n) = true ∧ e.regs.live = d.regs.live ∧ e.lam = d.lam ∧ e.mem = d.mem := by
  rw [Dev.strApply_accepted h, if_neg (by rwa [Option.isNone_iff_eq_none])]
  exact d.stagedFor_waiting (F.LAM_STR_BUFS.UNITS n) (camCfg d.f n).units (R.LAM_STR_CFG n) (R.LAM_STR_STAT n) rfl rfl

/-- FS on a quiet port and channel, as one of the streams that it opens sees it. -/
theorem Dev.frameStart_effect {d : Dev} {p vc s : Nat} {c : CamCfg} (ecc : Bool) (t : Nat) (hl : d.csiLive p = true) (hon : d.lamOn = true)
    (hvc : vc < 4) (hq : ∀ q ∈ d.strsOf p vc, (d.strm q.1).frame = none ∧ d.on (F.LAM_STR_CFG.PENDING q.1) = false)
    (hm : (s, c) ∈ d.openable p vc) :
    let e := d.frameStart p vc ecc t
    e.f (F.LAM_PORT_ECC_CORR.COUNT p) = d.eccCount p ecc ∧
      (∀ i a, d.freeBuf s = some (i, a) → (e.strm s).frame = some ⟨i, a, (d.strm s).nextSeq, t, t, 0, 0, 0, 0, []⟩) ∧
      (d.freeBuf s = none → (e.strm s).frame = none ∧ e.f (F.LAM_STR_DROP.COUNT s) = Nat.min (d.f (F.LAM_STR_DROP.COUNT s) + 1) 0xFFFFFFFF) ∧
      (e.strm s).nextSeq = ((d.strm s).nextSeq + 1) % 2 ^ 32 ∧ e.f (F.LAM_STR_SEQ.SEQ s) = (d.strm s).nextSeq % 2 ^ 32 ∧
      e.mem = d.mem ∧ e.ctxs = d.ctxs ∧ e.runs = d.runs := by
  have hp := Dev.csiLive_lt hl
  obtain ⟨hs, -⟩ := Dev.mem_strsOf (Dev.mem_strsOf_of_openable hm)
  obtain ⟨hin, hlam, -, hreg⟩ := d.atHeader_keeps p ecc t
  obtain ⟨before, hbefore, hafter⟩ := Dev.openFrames_split (d.atHeader p ecc t) t hm
  have hstrm : before.strm s = d.strm s := hbefore.strm.trans (Dev.strm_of_lam hlam s)
  have hinput : SameInput d before := hin.trans hbefore.input
  have hpage : ∀ o, R.LAM_STR_CFG s ≤ o → o < R.LAM_STR_CFG (s + 1) → before.reg o = d.reg o := fun o h₁ h₂ => by
    refine (hbefore.regs o (.inr ⟨h₁, h₂⟩)).trans (hreg o ?_)
    simp only [R.LAM_STR_CFG, R.LAM_PORT_ECC_CORR] at h₁ ⊢
    omega
  have hbuf : before.freeBuf s = d.freeBuf s := by
    refine Dev.freeBuf_congr hs hinput (by rw [hstrm]) (by rw [hstrm]) (by rw [hstrm]) (hpage _ ?_ ?_) <;>
      simp only [R.LAM_STR_CFG, R.LAM_STR_BUFS] <;> omega
  have hdrop : F.LAM_STR_DROP.COUNT s = ⟨strStat s + 12, 31, 0⟩ := by
    rw [strStat_of_cam hs, F.LAM_STR_DROP.COUNT]
    simp only [R.LAM_STR_DROP, R.LAM_STR_STAT, Fld.mk.injEq, and_true]
    omega
  have hseq : F.LAM_STR_SEQ.SEQ s = ⟨strStat s + 4, 31, 0⟩ := by
    rw [strStat_of_cam hs, F.LAM_STR_SEQ.SEQ]
    simp only [R.LAM_STR_SEQ, R.LAM_STR_STAT, Fld.mk.injEq, and_true]
    omega
  have hown : ∀ k, k < 16 → R.LAM_STR_CFG s ≤ strStat s + k ∧ strStat s + k < R.LAM_STR_CFG (s + 1) := fun k hk => by
    rw [strStat_of_cam hs]
    simp only [R.LAM_STR_CFG, R.LAM_STR_STAT]
    omega
  obtain ⟨hopen, hpinned, hnext, hnum⟩ := before.openFrame_own t c hs (hinput.takes.trans hon)
  rw [hbuf, hstrm] at hopen hpinned
  rw [hstrm] at hnext hnum
  rw [Dev.frameStart_quiet ecc t hl hvc hq]
  have hall : SameInput d _ := hinput.trans ((Dev.openFrame_sameInput t before (s, c)).trans hafter.input)
  refine ⟨?ecc, fun i a hb => ?opened, fun hb => ⟨?dropped, ?count⟩, ?next, ?seq, hall.mem, hall.ctxs, hall.runs⟩
  case ecc =>
    have hlow : R.LAM_PORT_ECC_CORR p < R.LAM_STR_CFG 0 := by simp only [R.LAM_PORT_ECC_CORR, R.LAM_STR_CFG]; omega
    have hne : R.LAM_PORT_ECC_CORR p ∉ [strStat s + 4, strStat s + 12, R.PWR_LP_CTRL] := by
      rw [strStat_of_cam hs]
      simp only [R.LAM_PORT_ECC_CORR, R.LAM_STR_STAT, R.PWR_LP_CTRL, List.mem_cons, List.not_mem_nil, or_false, not_or]
      omega
    exact (Dev.f_of_reg (hafter.regs _ (.inl hlow))).trans ((Dev.f_of_reg (Dev.openFrame_reg_ne t before (s, c) hne)).trans
      ((Dev.f_of_reg (hbefore.regs _ (.inl hlow))).trans (Dev.eccNote_count p ecc hon)))
  case opened => rw [hafter.strm, hopen i a hb]
  case dropped => rw [hafter.strm, (hpinned hb).1, (hq _ (Dev.mem_strsOf_of_openable hm)).1]
  case count =>
    obtain ⟨h₁, h₂⟩ := hown 12 (by decide)
    have hsame : before.f ⟨strStat s + 12, 31, 0⟩ = d.f ⟨strStat s + 12, 31, 0⟩ := Dev.f_of_reg (hpage _ h₁ h₂)
    rw [hdrop, Dev.f_of_reg (hafter.regs _ (.inr ⟨h₁, h₂⟩)), (hpinned hb).2, hsame]
  case next => rw [hafter.strm, hnext]
  case seq =>
    obtain ⟨h₁, h₂⟩ := hown 4 (by decide)
    rw [hseq, Dev.f_of_reg (hafter.regs _ (.inr ⟨h₁, h₂⟩)), hnum]

/-- Settles O50: each command is a few writes of fields, and FS opens the streams of its port and channel one after the other, where what it
does to one leaves the others alone. -/
theorem cameraPortsStreamsAndFrameStart : Obligations.CameraPortsStreamsAndFrameStart := by
  unfold Obligations.CameraPortsStreamsAndFrameStart
  refine ⟨?write, ?disables, ?trained, ?idle, ?busy, ?refused, ?vcx, ?start, ?camera, ?lidar⟩
  case write =>
    intro d p value ha hp hen h0 hmax
    obtain ⟨hreg, hlam, hmem, hctxs⟩ := Dev.portCfgWrite_disabled_effect hen h0 hmax
    obtain ⟨hon, hphy, hlanes, hrate⟩ := d.portSet_fields p value
    have hcfg := hreg _ (portStat_ne_portCfg p)
    refine completes_upd (f := fun d => if p < 16 then d.portCfgWrite p value else d) (fun _ => rfl) ha ?_
    rw [if_pos hp]
    refine ⟨(Dev.f_of_reg hcfg).trans hon, (Dev.f_of_reg hcfg).trans hphy, (Dev.f_of_reg hcfg).trans hlanes,
      (Dev.f_of_reg hcfg).trans hrate, fun o ho => ?_, hlam, hmem, hctxs⟩
    simp only [List.mem_cons, List.not_mem_nil, or_false, not_or] at ho
    exact (hreg o ho.2).trans (d.portSet_reg p value ho.1)
  case disables =>
    intro d p value ha hp hen h0
    have hne := portStat_ne_portCfg p
    refine completes_upd (f := fun d => if p < 16 then d.portCfgWrite p value else d) (fun _ => rfl) ha ?_
    rw [if_pos hp, Dev.portCfgWrite_disables hen h0]
    refine ⟨?_, ?_, ?_, ?_, Dev.on_set_zero _ rfl, rfl, rfl⟩
    · exact (Dev.on_of_reg (Dev.reg_set_ne _ _ _ _ hne)).trans (Dev.on_set_zero d rfl)
    · exact (Dev.f_set_off _ _ hne).trans (Dev.f_set_bits d 0 rfl rfl (by decide : 1 < 0 ∨ 0 < 1))
    · exact (Dev.f_set_off _ _ hne).trans (Dev.f_set_bits d 0 rfl rfl (by decide : 4 < 0 ∨ 0 < 2))
    · exact (Dev.f_set_off _ _ hne).trans (Dev.f_set_bits d 0 rfl rfl (by decide : 15 < 0 ∨ 0 < 8))
  case trained =>
    intro d p up ha hp hen
    refine completes_upd (f := fun d => d.linkUpDown p up) (fun _ => rfl) ha ?_
    rw [Dev.linkUpDown_enabled up hp hen]
    exact ⟨Dev.on_set_b2n d rfl rfl _, fun o ho => Dev.reg_set_ne d _ _ o (fun h => ho (List.mem_singleton.mpr h)), rfl, rfl⟩
  case idle =>
    intro d n ha hn _ hok hf
    refine completes_upd (f := fun d => if n < 32 then d.strApply n else d) (fun _ => rfl) ha ?_
    rw [if_pos hn]
    exact Dev.strApply_idle_effect hok hf
  case busy =>
    intro d n ha hn hok hf
    refine completes_upd (f := fun d => if n < 32 then d.strApply n else d) (fun _ => rfl) ha ?_
    rw [if_pos hn]
    exact Dev.strApply_busy_effect hok hf
  case refused =>
    intro d n ha hn hok
    exact does_upd_eq (fun d => if n < 32 then d.strApply n else d) (fun _ => rfl) ha ((if_pos hn).trans (Dev.strApply_refused hok))
  case vcx =>
    intro d p vc t ecc ha hl hon hvc
    refine ⟨completes_upd (f := fun d => d.frameStart p vc ecc t) (fun _ => rfl) ha ?_,
      completes_upd (f := fun d => d.frameEnd p vc ecc t) (fun _ => rfl) ha ?_⟩
    · rw [Dev.frameStart, hl, if_neg (by decide), if_pos hvc]
      exact Dev.vcxPacket_effect p t ecc hon
    · rw [Dev.frameEnd, hl, hon, if_neg (by decide), if_pos hvc]
      exact Dev.vcxPacket_effect p t ecc hon
  case start =>
    intro d p vc t s ecc c ha hl hon hvc hq hm
    exact completes_upd (f := fun d => d.frameStart p vc ecc t) (fun _ => rfl) ha (Dev.frameStart_effect ecc t hl hon hvc hq hm)
  case camera =>
    intro d n ha hn
    obtain ⟨hen, hown, hother, hregs, hmem, hcoll⟩ := d.strDisable_effect (x := F.LAM_STR_CFG.EN n) (if_pos hn) rfl
    refine completes_upd (f := fun d => if n < 36 then d.strDisable n else d) (fun _ => rfl) ha ?_
    rw [if_pos (by omega)]
    exact ⟨hen, by rw [hown], by rw [hown], by rw [hown], hother, hregs, hmem, hcoll⟩
  case lidar =>
    intro d l ha hl
    have hx : (if 32 + l < 32 then F.LAM_STR_CFG.EN (32 + l) else F.LAM_LID_CFG.EN (32 + l - 32)) = F.LAM_LID_CFG.EN l := by
      rw [if_neg (by omega), Nat.add_sub_cancel_left]
    obtain ⟨hen, hown, hother, hregs, hmem, hcoll⟩ := d.strDisable_effect hx rfl
    refine completes_upd (f := fun d => if 32 + l < 36 then d.strDisable (32 + l) else d) (fun _ => rfl) ha ?_
    rw [if_pos (by omega)]
    exact ⟨hen, by rw [hown], hother, hregs, hmem, hcoll⟩

end Sys2Proof.Machine
end

section
/-!
PROOFS. Camera lines and frame ends (O51).
-/
namespace Sys2Proof.Machine

/-! ## Byte strings -/

theorem length_leBytes (n v : Nat) : (leBytes n v).length = n := by
  induction n generalizing v with
  | zero => rfl
  | succ n ih => rw [leBytes, List.length_cons, ih]

theorem length_padTo {n : Nat} {l : List Nat} (h : l.length ≤ n) : (padTo n l).length = n := by
  rw [padTo, List.length_append, List.length_replicate, Nat.add_sub_cancel' h]

theorem length_flatMap_of_const {α β : Type} {l : List α} {f : α → List β} {k : Nat} (h : ∀ x ∈ l, (f x).length = k) :
    (l.flatMap f).length = l.length * k := by
  rw [List.length_flatMap, List.map_congr_left h, List.map_const', List.sum_replicate, smul_eq_mul]

theorem le_up64 (n : Nat) : n ≤ up64 n := by
  simp only [up64, ceilDiv]
  omega

/-! ## The layout of a buffer (R74, R75) -/

theorem CamCfg.length_le_stride (c : CamCfg) : c.length ≤ c.units * 65536 := by
  simp only [CamCfg.units, ceilDiv]
  omega

theorem CamCfg.table_le_dataOfs (c : CamCfg) : 64 + 8 * c.h ≤ c.dataOfs := le_up64 _

theorem CamCfg.planes_pos (c : CamCfg) : 1 ≤ c.planes := by
  unfold CamCfg.planes CamCfg.chans
  split_ifs <;> decide

/-- Row `y` of plane `i` lies in the planes. -/
theorem CamCfg.row_within (c : CamCfg) {i y : Nat} (hi : i < c.planes) (hy : y < c.h) :
    i * c.pitch * c.h + y * c.pitch + c.pitch ≤ c.planes * c.pitch * c.h := by
  have hrow : y * c.pitch + c.pitch ≤ c.pitch * c.h := by
    rw [← Nat.succ_mul, Nat.mul_comm]
    exact Nat.mul_le_mul_left _ hy
  calc i * c.pitch * c.h + y * c.pitch + c.pitch ≤ i * c.pitch * c.h + c.pitch * c.h := by omega
    _ = (i + 1) * c.pitch * c.h := by ring
    _ ≤ c.planes * c.pitch * c.h := Nat.mul_le_mul_right _ (Nat.mul_le_mul_right _ hi)

/-- The fields of a configuration that are read from registers have their widths. -/
theorem camCfg_fmt_lt (d : Dev) (s : Nat) : (camCfg d.live s).fmt < 8 := Nat.mod_lt _ (Nat.two_pow_pos _)

theorem camCfg_port_lt (d : Dev) (s : Nat) : (camCfg d.live s).port < 16 := Nat.mod_lt _ (Nat.two_pow_pos _)

theorem CamCfg.norm_length {c : CamCfg} (hp : c.path ≠ 0) (hf : c.fmt < 7) (i v : Nat) : (c.norm i v).length = c.el := by
  have hcases : c.fmt = 0 ∨ c.fmt = 1 ∨ c.fmt = 2 ∨ c.fmt = 3 ∨ c.fmt = 4 ∨ c.fmt = 5 ∨ c.fmt = 6 := by omega
  rcases hcases with h | h | h | h | h | h | h <;> simp [CamCfg.norm, CamCfg.el, hp, h, length_leBytes]

/-- The pixels of a row, each normalised to three elements. -/
def CamCfg.normRow (c : CamCfg) (depth : Nat) (px : List (List Nat)) : List (List (List Nat)) :=
  px.map (fun x => (List.range 3).map (fun i => c.norm i ((c.mix depth x).getD i 0)))

theorem CamCfg.plane_length {c : CamCfg} (hp : c.path ≠ 0) (hf : c.fmt < 7) (depth : Nat) (px : List (List Nat)) {i : Nat} (hi : i < 3) :
    ((c.normRow depth px).flatMap (fun x => x.getD i [])).length = px.length * c.el := by
  rw [length_flatMap_of_const (k := c.el), CamCfg.normRow, List.length_map]
  intro x hx
  obtain ⟨v, -, rfl⟩ := List.mem_map.mp hx
  simp [List.getD_eq_getElem?_getD, hi, CamCfg.norm_length hp hf]

theorem CamCfg.interleaved_length {c : CamCfg} (hp : c.path ≠ 0) (hf : c.fmt < 7) (depth : Nat) (px : List (List Nat)) :
    ((c.normRow depth px).flatMap (fun x => x.flatten)).length = px.length * (3 * c.el) := by
  rw [length_flatMap_of_const (k := 3 * c.el), CamCfg.normRow, List.length_map]
  intro x hx
  obtain ⟨v, -, rfl⟩ := List.mem_map.mp hx
  simp only [List.length_flatten, List.range_succ, List.range_zero, List.nil_append, List.map_append, List.map_cons, List.map_nil,
    CamCfg.norm_length hp hf, List.sum_append, List.sum_cons, List.sum_nil]
  omega

/-- A row of processed pixels stays in the planes of its buffer. -/
theorem Dev.wrPixels_writtenIn (d : Dev) {c : CamCfg} (a depth : Nat) {y : Nat} {px : List (List Nat)} (hp : c.path ≠ 0) (hf : c.fmt < 7)
    (hy : y < c.h) (hpx : px.length = c.w) : WrittenIn (a + c.dataOfs) (c.planes * c.pitch * c.h) d (d.wrPixels c a y depth px) := by
  have hchans : c.chans = 3 := if_neg hp
  by_cases hpl : c.planar = true
  · have heq : d.wrPixels c a y depth px = (List.range 3).foldl (fun d i => d.lamWrite (a + c.dataOfs + i * c.pitch * c.h + y * c.pitch)
        (padTo c.pitch ((c.normRow depth px).flatMap (fun x => x.getD i [])))) d := by
      rw [Dev.wrPixels, hpl]
      rfl
    rw [heq]
    refine List.foldlRecOn (motive := fun e => WrittenIn (a + c.dataOfs) (c.planes * c.pitch * c.h) d e) _ _ (.refl _ _ d) (fun e he i hi => ?_)
    have hi3 := List.mem_range.mp hi
    have hfit : ((c.normRow depth px).flatMap (fun x => x.getD i [])).length ≤ c.pitch := by
      rw [CamCfg.plane_length hp hf depth px hi3, hpx, CamCfg.pitch, hpl, if_pos rfl, Nat.mul_one]
      exact le_up64 _
    have hin := c.row_within (i := i) (by rwa [CamCfg.planes, hpl, if_pos rfl, hchans]) hy
    refine he.trans (Dev.lamWrite_within e (by omega) ?_)
    rw [length_padTo hfit]
    omega
  · have heq : d.wrPixels c a y depth px =
        d.lamWrite (a + c.dataOfs + y * c.pitch) (padTo c.pitch ((c.normRow depth px).flatMap (fun x => x.flatten))) := by
      rw [Dev.wrPixels, if_neg hpl]
      rfl
    have hfit : ((c.normRow depth px).flatMap (fun x => x.flatten)).length ≤ c.pitch := by
      rw [CamCfg.interleaved_length hp hf, hpx, CamCfg.pitch, if_neg hpl, hchans, ← Nat.mul_assoc]
      exact le_up64 _
    have hin := c.row_within (i := 0) c.planes_pos hy
    rw [heq]
    refine Dev.lamWrite_within d (by omega) ?_
    rw [length_padTo hfit]
    omega

theorem Dev.wrBayer_writtenIn (d : Dev) {c : CamCfg} (a : Nat) {y : Nat} (up row dn : List Nat) (hp : c.path ≠ 0) (hf : c.fmt < 7)
    (hy : y < c.h) : WrittenIn (a + c.dataOfs) (c.planes * c.pitch * c.h) d (d.wrBayer c a y up row dn) :=
  Dev.wrPixels_writtenIn d a _ hp hf hy (by rw [List.length_map, List.length_range])

/-! ## A line that passes its checks (R74, R77, R90) -/

theorem csiBits_cases {dt : Nat} (h : csiBits dt ≠ 0) :
    dt = 0x2A ∨ dt = 0x2B ∨ dt = 0x2C ∨ dt = 0x2D ∨ dt = 0x2E ∨ dt = 0x1E ∨ dt = 0x24 := by
  unfold csiBits at h
  split at h <;> simp_all

/-- A line that passes comes before the frame has all of them, and has the size of its data type. -/
theorem CamCfg.of_lineReason_zero {c : CamCfg} {f : CamFrame} {dt n t : Nat} (h : c.lineReason f dt true n t = 0) :
    f.lines < c.h ∧ ((c.any || c.dt == dt) = true →
      (c.path = 0 → c.any = true → n ≤ c.w) ∧ (c.any = false → n = ceilDiv (c.w * csiBits c.dt) 8)) := by
  unfold CamCfg.lineReason at h
  simp only [Bool.not_true, Bool.false_eq_true, if_false] at h
  split_ifs at h with _ _ hsize hlines <;> simp_all

/-- The stored form of a RAW line fits its elements. -/
theorem CamCfg.rawBytes_length_le {c : CamCfg} {payload : List Nat} (hp : c.path = 0) (hany : c.any = true → payload.length ≤ c.w)
    (hone : c.any = false → csiBits c.dt ≠ 0 ∧ payload.length = ceilDiv (c.w * csiBits c.dt) 8) :
    (c.rawBytes payload).length ≤ c.w * c.el := by
  have hpacked : ∀ dt, ((rawRow dt c.w payload).flatMap (leBytes 2)).length ≤ c.w * 2 := fun dt => by
    rw [length_flatMap_of_const (fun x _ => length_leBytes 2 x), rawRow, List.length_take]
    exact Nat.mul_le_mul_right _ (Nat.min_le_left _ _)
  cases ha : c.any with
  | true => simpa [CamCfg.rawBytes, CamCfg.el, hp, ha] using hany ha
  | false =>
    obtain ⟨hbits, hlen⟩ := hone ha
    have hpk := hpacked c.dt
    rcases csiBits_cases hbits with h | h | h | h | h | h | h <;>
      simp only [h, csiBits, ceilDiv] at hlen hpk <;> simp [CamCfg.rawBytes, CamCfg.el, hp, ha, h, -List.length_flatMap] <;> omega

theorem CamCfg.rawBytes_fits {c : CamCfg} {payload : List Nat} (hp : c.path = 0) (hany : c.any = true → payload.length ≤ c.w)
    (hone : c.any = false → csiBits c.dt ≠ 0 ∧ payload.length = ceilDiv (c.w * csiBits c.dt) 8) :
    (c.rawBytes payload).length ≤ c.pitch := by
  refine (CamCfg.rawBytes_length_le hp hany hone).trans ?_
  rw [CamCfg.pitch, CamCfg.chans, if_pos hp, ite_self, Nat.mul_one]
  exact le_up64 _

/-- The rows that a line completes: its own, or for a demosaic the one before it. -/
def Dev.lineRows (d : Dev) (c : CamCfg) (f : CamFrame) (payload : List Nat) : Dev :=
  match c.path with
  | 0 => d.lamWrite (f.addr + c.dataOfs + f.lines * c.pitch) (padTo c.pitch (c.rawBytes payload))
  | 1 =>
    if f.lines = 0 then d else
    d.wrBayer c f.addr (f.lines - 1) (f.rows.getD 1 (f.rows.getD 0 [])) (f.rows.getD 0 []) (rawRow c.dt c.w payload)
  | 2 => d.wrPixels c f.addr f.lines 8 (yuvRow c.w payload)
  | _ => d.wrPixels c f.addr f.lines 8 (rgbRow c.w payload)

theorem Dev.lineRows_writtenIn (d : Dev) {c : CamCfg} {f : CamFrame} {payload : List Nat} (hf : c.fmt < 7) (hy : f.lines < c.h)
    (hraw : c.path = 0 → (c.rawBytes payload).length ≤ c.pitch) :
    WrittenIn (f.addr + c.dataOfs) (c.planes * c.pitch * c.h) d (d.lineRows c f payload) := by
  unfold Dev.lineRows
  split
  · next hp =>
    have hin := c.row_within (i := 0) c.planes_pos hy
    refine Dev.lamWrite_within d (by omega) ?_
    rw [length_padTo (hraw hp)]
    omega
  · next hp =>
    split
    · exact .refl _ _ d
    · exact Dev.wrBayer_writtenIn d _ _ _ _ (by rw [hp]; decide) hf (by omega)
  · next hp => exact Dev.wrPixels_writtenIn d _ _ (by rw [hp]; decide) hf hy (by rw [yuvRow, List.length_map, List.length_range])
  · next hp _ _ => exact Dev.wrPixels_writtenIn d _ _ hp hf hy (by rw [rgbRow, List.length_map, List.length_range])

/-- The first line of a frame also zeroes what is left of the timestamp table. -/
def Dev.tableEnd (d : Dev) (c : CamCfg) (f : CamFrame) : Dev :=
  if f.lines = 0 then d.lamWrite (f.addr + 64 + 8 * c.h) (List.replicate (c.dataOfs - 64 - 8 * c.h) 0) else d

/-- The frame once a line has been stored at time `t`, with stamp `ts`. -/
def CamFrame.stored (f : CamFrame) (c : CamCfg) (dt ts t : Nat) (payload : List Nat) : CamFrame :=
  { f with
    lastT := t, lines := f.lines + 1, dt := dt, firstTs := if f.lines = 0 then ts else f.firstTs, lastTs := ts,
    rows := if c.path = 1 then rawRow c.dt c.w payload :: f.rows.take 1 else [] }

theorem Dev.tableEnd_writtenIn (d : Dev) (c : CamCfg) (f : CamFrame) : WrittenIn f.addr c.dataOfs d (d.tableEnd c f) := by
  have hle := c.table_le_dataOfs
  unfold Dev.tableEnd
  split
  · refine Dev.lamWrite_within d (by omega) ?_
    rw [List.length_replicate]
    omega
  · exact .refl _ _ d

/-- The stamp of a line, in the timestamp table. -/
def Dev.stamped (d : Dev) (c : CamCfg) (f : CamFrame) (ts : Nat) : Dev := (d.tableEnd c f).lamWrite (f.addr + 64 + 8 * f.lines) (leBytes 8 ts)

theorem Dev.stamped_writtenIn (d : Dev) {c : CamCfg} {f : CamFrame} (ts : Nat) (hy : f.lines < c.h) :
    WrittenIn f.addr c.dataOfs d (d.stamped c f ts) := by
  have htable := c.table_le_dataOfs
  refine (d.tableEnd_writtenIn c f).trans (Dev.lamWrite_within _ (by omega) ?_)
  rw [length_leBytes]
  omega

/-- The block with a line stored in the buffer of its frame. -/
def Dev.lineWritten (d : Dev) (c : CamCfg) (f : CamFrame) (payload : List Nat) (ts : Nat) : Dev := (d.stamped c f ts).lineRows c f payload

theorem Dev.storeLine_eq (d : Dev) (s : Nat) (c : CamCfg) (f : CamFrame) (dt : Nat) (payload : List Nat) (t : Nat) :
    d.storeLine s c f dt payload t =
      (d.lineWritten c f payload (t - d.f (F.LAM_PORT_LAT.LAT_NS c.port))).modStrm s
        (fun r => { r with frame := some (f.stored c dt (t - d.f (F.LAM_PORT_LAT.LAT_NS c.port)) t payload) }) := rfl

theorem CamCfg.dataOfs_le_length (c : CamCfg) : c.dataOfs ≤ c.length := Nat.le_add_right _ _

theorem Dev.lineWritten_writtenIn (d : Dev) {c : CamCfg} {f : CamFrame} {payload : List Nat} (ts : Nat) (hf : c.fmt < 7) (hy : f.lines < c.h)
    (hraw : c.path = 0 → (c.rawBytes payload).length ≤ c.pitch) : WrittenIn f.addr c.length d (d.lineWritten c f payload ts) := by
  have hofs := c.dataOfs_le_length
  have hlen : c.length = c.dataOfs + c.planes * c.pitch * c.h := rfl
  exact ((d.stamped_writtenIn ts hy).mono le_rfl (by omega)).trans (((d.stamped c f ts).lineRows_writtenIn hf hy hraw).mono (by omega) (by omega))

/-- The stamp reads back: the rows that follow it lie beyond the table. -/
theorem Dev.lineWritten_stamp {d : Dev} {c : CamCfg} {f : CamFrame} {payload : List Nat} (ts : Nat) (hf : c.fmt < 7) (hy : f.lines < c.h)
    (hraw : c.path = 0 → (c.rawBytes payload).length ≤ c.pitch) (hdie : d.leap.dieLost = []) (hclean : d.poisonIn f.addr c.length = [])
    {i : Nat} (hi : i < 8) :
    (d.lineWritten c f payload ts).mem.hbm.read (f.addr + 64 + 8 * f.lines + i) = BitVec.ofNat 8 ((leBytes 8 ts).getD i 0) := by
  have htable := c.table_le_dataOfs
  have hofs := c.dataOfs_le_length
  have hend := d.tableEnd_writtenIn c f
  have hbuf : d.poisonIn f.addr c.dataOfs = [] := Dev.poisonIn_part hclean le_rfl (by omega)
  have hhere : (d.tableEnd c f).stackLost (f.addr + 64 + 8 * f.lines) = false := by
    rw [hend.stackLost, Dev.stackLost, hdie]
    rfl
  have hfree : (d.tableEnd c f).poisonIn (f.addr + 64 + 8 * f.lines) (leBytes 8 ts).length = [] := by
    rw [hend.poisonIn hbuf, length_leBytes]
    exact Dev.poisonIn_part hclean (by omega) (by omega)
  rw [Dev.lineWritten, ((d.stamped c f ts).lineRows_writtenIn hf hy hraw).outside _ (.inl (by omega)), Dev.stamped, Dev.lamWrite_hbm hhere hfree]
  exact Mem.read_writeBytes_in _ _ _ _ (by rw [length_leBytes]; exact hi)

/-- So does the row of a RAW line. -/
theorem Dev.lineWritten_raw {d : Dev} {c : CamCfg} {f : CamFrame} {payload : List Nat} (ts : Nat) (hp : c.path = 0) (hy : f.lines < c.h)
    (hraw : (c.rawBytes payload).length ≤ c.pitch) (hdie : d.leap.dieLost = []) (hclean : d.poisonIn f.addr c.length = [])
    {i : Nat} (hi : i < c.pitch) :
    (d.lineWritten c f payload ts).mem.hbm.read (f.addr + c.dataOfs + f.lines * c.pitch + i) =
      BitVec.ofNat 8 ((padTo c.pitch (c.rawBytes payload)).getD i 0) := by
  have hofs := c.dataOfs_le_length
  have hlen : c.length = c.dataOfs + c.planes * c.pitch * c.h := rfl
  have hin := c.row_within (i := 0) c.planes_pos hy
  have hst := d.stamped_writtenIn (c := c) (f := f) ts hy
  have hbuf : d.poisonIn f.addr c.dataOfs = [] := Dev.poisonIn_part hclean le_rfl (by omega)
  have hhere : (d.stamped c f ts).stackLost (f.addr + c.dataOfs + f.lines * c.pitch) = false := by
    rw [hst.stackLost, Dev.stackLost, hdie]
    rfl
  have hfree : (d.stamped c f ts).poisonIn (f.addr + c.dataOfs + f.lines * c.pitch) (padTo c.pitch (c.rawBytes payload)).length = [] := by
    rw [hst.poisonIn hbuf, length_padTo hraw]
    exact Dev.poisonIn_part hclean (by omega) (by omega)
  have hrows : (d.stamped c f ts).lineRows c f payload =
      (d.stamped c f ts).lamWrite (f.addr + c.dataOfs + f.lines * c.pitch) (padTo c.pitch (c.rawBytes payload)) := by
    simp only [Dev.lineRows, hp]
  rw [Dev.lineWritten, hrows, Dev.lamWrite_hbm hhere hfree]
  exact Mem.read_writeBytes_in _ _ _ _ (by rw [length_padTo hraw]; exact hi)

/-! ## The packets of a port (R68, R72) -/

theorem Dev.eccNote_atTime (d : Dev) (p : Nat) (ecc : Bool) (t : Nat) : (d.at_ t).eccNote p ecc = d.atHeader p ecc t := by
  have hon : (d.at_ t).lamOn = d.lamOn := rfl
  unfold Dev.atHeader Dev.eccNote
  rw [hon]
  split <;> rfl

/-- The block once the checksum of a line has been noted. -/
def Dev.crcNoted (d : Dev) (p : Nat) (crcOk : Bool) : Dev := if crcOk then d else d.addSat (F.LAM_PORT_CRC_ERR.COUNT p) 1

theorem Dev.crcNoted_true (d : Dev) (p : Nat) : d.crcNoted p true = d := rfl

theorem Dev.crcNoted_keeps (d : Dev) (p : Nat) (crcOk : Bool) :
    SameInput d (d.crcNoted p crcOk) ∧ (d.crcNoted p crcOk).lam = d.lam ∧ (d.crcNoted p crcOk).coll = d.coll ∧
      (∀ o, o ≠ R.LAM_PORT_CRC_ERR p → (d.crcNoted p crcOk).reg o = d.reg o) ∧
      (d.crcNoted p crcOk).f (F.LAM_PORT_CRC_ERR.COUNT p) =
        if crcOk then d.f (F.LAM_PORT_CRC_ERR.COUNT p) else Nat.min (d.f (F.LAM_PORT_CRC_ERR.COUNT p) + 1) 0xFFFFFFFF := by
  cases crcOk
  · exact ⟨Dev.addSat_sameInput _ _ _, rfl, rfl, fun o ho => Dev.reg_addSat_ne _ _ _ ho, Dev.f_addSat_same _ 1 rfl⟩
  · exact ⟨.refl d, rfl, rfl, fun _ _ => rfl, rfl⟩

/-- What one stream does with a line. -/
def Dev.lineTo (p dt : Nat) (crcOk : Bool) (payload : List Nat) (t : Nat) (d : Dev) (q : Nat × CamCfg) : Dev :=
  match (d.strm q.1).frame with
  | none => d
  | some f =>
    let r := q.2.lineReason f dt crcOk payload.length t
    if r = 0 then d.storeLine q.1 q.2 f dt payload t else d.camFail q.1 p r

/-- Of the streams of a port and channel, the first that takes the data type; where none does, all of them. -/
def lineTargets (l : List (Nat × CamCfg)) (dt : Nat) : List (Nat × CamCfg) :=
  match l.find? (fun q => q.2.any || q.2.dt == dt) with
  | some q => [q]
  | none => l

/-- What a port does with a line that it can read. -/
theorem Dev.line_eq {d : Dev} {p vc dt : Nat} (ecc crcOk : Bool) (payload : List Nat) (t : Nat) (hl : d.csiLive p = true) (hon : d.lamOn = true)
    (hvc : vc < 4) (hdt : dt = 0x12 ∨ csiBits dt ≠ 0) :
    d.line p vc dt ecc crcOk true payload t =
      let e := (d.atHeader p ecc t).crcNoted p crcOk
      if dt = 0x12 then e else (lineTargets (d.openable p vc) dt).foldl (Dev.lineTo p dt crcOk payload t) e := by
  have hvc' : decide (4 ≤ vc) = false := decide_eq_false (Nat.not_le.mpr hvc)
  have htaken : (dt != 0x12 && csiBits dt == 0) = false := by
    rcases hdt with h | h
    · simp [h]
    · simp [h]
  rw [Dev.line, hl, hon]
  simp only [Bool.not_true, Bool.or_self, Bool.false_eq_true, if_false, hvc', htaken, Dev.eccNote_atTime, beq_iff_eq]
  rfl

/-- A line for a stream with an open frame. -/
theorem Dev.line_hit {d : Dev} {p vc dt s : Nat} {c : CamCfg} {f : CamFrame} (ecc crcOk : Bool) (payload : List Nat) (t : Nat)
    (hl : d.csiLive p = true) (hon : d.lamOn = true) (hvc : vc < 4) (hemb : dt ≠ 0x12) (hbits : csiBits dt ≠ 0)
    (hfind : (d.openable p vc).find? (fun q => q.2.any || q.2.dt == dt) = some (s, c)) (hf : (d.strm s).frame = some f) :
    d.line p vc dt ecc crcOk true payload t =
      let e := (d.atHeader p ecc t).crcNoted p crcOk
      if c.lineReason f dt crcOk payload.length t = 0 then e.storeLine s c f dt payload t
      else e.camFail s p (c.lineReason f dt crcOk payload.length t) := by
  obtain ⟨-, hlam, -, -⟩ := d.atHeader_keeps p ecc t
  obtain ⟨-, hlam', -, -, -⟩ := (d.atHeader p ecc t).crcNoted_keeps p crcOk
  have hframe : (((d.atHeader p ecc t).crcNoted p crcOk).strm s).frame = some f := by
    rw [Dev.strm_of_lam (hlam'.trans hlam), hf]
  rw [Dev.line_eq ecc crcOk payload t hl hon hvc (.inr hbits)]
  simp only [hemb, if_false, lineTargets, hfind, List.foldl_cons, List.foldl_nil, Dev.lineTo, hframe]

/-- The stream that a line is found to be for has the values in force, and takes the data type. -/
theorem Dev.of_find_line {d : Dev} {p vc dt s : Nat} {c : CamCfg}
    (h : (d.openable p vc).find? (fun q => q.2.any || q.2.dt == dt) = some (s, c)) :
    s < 32 ∧ c = camCfg d.live s ∧ (c.any || c.dt == dt) = true := by
  obtain ⟨hs, hc⟩ := Dev.mem_strsOf (Dev.mem_strsOf_of_openable (List.mem_of_find?_eq_some h))
  exact ⟨hs, hc, List.find?_some (p := fun q : Nat × CamCfg => q.2.any || q.2.dt == dt) h⟩

/-! ## Frames that fail (R90) -/

theorem masterKnown_cameraPort {p : Nat} (h : p < 16) : masterKnown (0x8010 + p) = true := by
  have all : ∀ p < 16, masterKnown (0x8010 + p) = true := by decide
  exact all p h

theorem Dev.camFail_failedFor (d : Dev) (s p reason : Nat) : FailedFor s reason (0x8010 + p) d (d.camFail s p reason) := by
  refine Dev.lamFail_failedFor d s reason ?_
  simp only [unitKind]
  omega

theorem failCount_of_cam {s : Nat} (h : s < 32) : F.LAM_STR_FAIL.COUNT s = ⟨strStat s + 8, 31, 0⟩ := by
  rw [strStat_of_cam h, F.LAM_STR_FAIL.COUNT]
  simp only [R.LAM_STR_FAIL, R.LAM_STR_STAT, Fld.mk.injEq, and_true]
  omega

/-- The failure of a camera stream, in the terms of its registers. -/
theorem FailedFor.camera {s reason master : Nat} {d e : Dev} (h : FailedFor s reason master d e) (hs : s < 32) (hr : reason < 16) :
    (e.strm s).frame = none ∧ (e.strm s).hdr = (d.strm s).hdr ∧ e.f (F.LAM_STR_STAT.LAST_ERR s) = reason ∧
      e.f (F.LAM_STR_FAIL.COUNT s) = Nat.min (d.f (F.LAM_STR_FAIL.COUNT s) + 1) 0xFFFFFFFF := by
  have herr : F.LAM_STR_STAT.LAST_ERR s = ⟨strStat s, 7, 4⟩ := by rw [strStat_of_cam hs, F.LAM_STR_STAT.LAST_ERR]
  refine ⟨by rw [h.own]; rfl, by rw [h.own]; rfl, ?_, by rw [failCount_of_cam hs, h.count]⟩
  rw [herr, h.lastErr, Nat.mod_eq_of_lt hr]

theorem CamCfg.lineReason_lt (c : CamCfg) (f : CamFrame) (dt : Nat) (crcOk : Bool) (n t : Nat) : c.lineReason f dt crcOk n t < 16 := by
  unfold CamCfg.lineReason
  split_ifs <;> decide

/-- The registers below those of the streams are left alone by a failure. -/
theorem FailedFor.reg_below {s reason master o : Nat} {d e : Dev} (h : FailedFor s reason master d e) (ho : o < R.LAM_STR_CFG 0) :
    e.reg o = d.reg o := by
  refine h.regs o ?_
  unfold strStat
  simp only [R.LAM_STR_CFG, R.LAM_STR_STAT, R.LAM_LID_STAT, R.PWR_LP_CTRL, List.mem_cons, List.not_mem_nil, or_false, not_or] at ho ⊢
  split <;> omega

/-- The frames of a list of streams fail, one after the other. -/
theorem Dev.camFails_effect (p reason : Nat) (l : List (Nat × CamCfg)) (d : Dev) :
    let e := l.foldl (fun d q => d.camFail q.1 p reason) d
    (∀ m, (d.strm m).frame = none ∨ (∃ q ∈ l, q.1 = m) → (e.strm m).frame = none) ∧ e.mem = d.mem ∧
      ∀ o, o < R.LAM_STR_CFG 0 → e.reg o = d.reg o := by
  induction l generalizing d with
  | nil => exact ⟨fun m h => h.elim id (fun ⟨_, hq, _⟩ => absurd hq List.not_mem_nil), rfl, fun _ _ => rfl⟩
  | cons q l ih =>
    have hfail := d.camFail_failedFor q.1 p reason
    obtain ⟨hframes, hmem, hregs⟩ := ih (d.camFail q.1 p reason)
    refine ⟨fun m h => hframes m ?_, hmem.trans hfail.input.mem, fun o ho => (hregs o ho).trans (hfail.reg_below ho)⟩
    by_cases hm : m = q.1
    · exact .inl (by rw [hm, hfail.own]; rfl)
    · rw [hfail.others m hm]
      refine h.imp id (fun ⟨r, hr, hrm⟩ => ⟨r, ?_, hrm⟩)
      exact (List.mem_cons.mp hr).resolve_left (fun hq => hm (by rw [← hrm, hq]))


/-! ## Frames that end (R74, R75, R90) -/

/-- What FE does to one stream. -/
def Dev.endFrame (p t : Nat) (d : Dev) (q : Nat × CamCfg) : Dev :=
  match (d.strm q.1).frame with
  | none => d
  | some f =>
    if f.startT + q.2.frameTmo * 100000 < t then d.camFail q.1 p 2
    else if f.lines < q.2.h then d.camFail q.1 p 4
    else
      let d := if q.2.path = 1 then
          d.wrBayer q.2 f.addr (q.2.h - 1) (f.rows.getD 1 (f.rows.getD 0 [])) (f.rows.getD 0 []) (f.rows.getD 0 [])
        else d
      (d.lamZero (f.addr + q.2.length) (q.2.units * 65536 - q.2.length)).lamPass q.1 f.idx f.addr f.seq f.firstTs q.2.length (q.2.header q.1 f)

theorem Dev.frameEnd_eq {d : Dev} {p vc : Nat} (ecc : Bool) (t : Nat) (hl : d.csiLive p = true) (hon : d.lamOn = true) (hvc : vc < 4) :
    d.frameEnd p vc ecc t = (d.strsOf p vc).foldl (Dev.endFrame p t) (d.atHeader p ecc t) := by
  rw [← d.atHeader_strsOf p vc ecc t, Dev.frameEnd, hl, hon, if_neg (by decide)]
  exact if_neg (Nat.not_le.mpr hvc)

theorem Dev.endFrame_idle {p t : Nat} {d : Dev} {q : Nat × CamCfg} (h : (d.strm q.1).frame = none) : d.endFrame p t q = d := by
  rw [Dev.endFrame, h]

theorem Dev.foldl_endFrame_idle {p t : Nat} {d : Dev} {l : List (Nat × CamCfg)} (h : ∀ q ∈ l, (d.strm q.1).frame = none) :
    l.foldl (Dev.endFrame p t) d = d := by
  refine List.foldlRecOn (motive := fun e => e = d) _ _ rfl ?_
  rintro e rfl q hq
  exact Dev.endFrame_idle (h q hq)

/-- FE where one stream of the port and channel has an open frame. -/
theorem Dev.frameEnd_single {d : Dev} {p vc s : Nat} {c : CamCfg} (ecc : Bool) (t : Nat) (hl : d.csiLive p = true) (hon : d.lamOn = true)
    (hvc : vc < 4) (hone : (d.strsOf p vc).filter (fun q => (d.strm q.1).frame.isSome) = [(s, c)])
    (hdone : (((d.atHeader p ecc t).endFrame p t (s, c)).strm s).frame = none)
    (hothers : ∀ m, m ≠ s → ((d.atHeader p ecc t).endFrame p t (s, c)).strm m = d.strm m) :
    d.frameEnd p vc ecc t = (d.atHeader p ecc t).endFrame p t (s, c) := by
  obtain ⟨-, hlam, -, -⟩ := d.atHeader_keeps p ecc t
  obtain ⟨l₁, l₂, hsplit, hbefore, -, hrest⟩ := List.filter_eq_cons_iff.mp hone
  have hafter := List.filter_eq_nil_iff.mp hrest
  have hfirst : ∀ q ∈ l₁, ((d.atHeader p ecc t).strm q.1).frame = none := fun q hq => by
    rw [Dev.strm_of_lam hlam]
    simpa using hbefore q hq
  have hlast : ∀ q ∈ l₂, (((d.atHeader p ecc t).endFrame p t (s, c)).strm q.1).frame = none := fun q hq => by
    by_cases hqs : q.1 = s
    · rw [hqs, hdone]
    · rw [hothers q.1 hqs]
      simpa using hafter q hq
  rw [Dev.frameEnd_eq ecc t hl hon hvc, hsplit, List.foldl_append, List.foldl_cons, Dev.foldl_endFrame_idle hfirst,
    Dev.foldl_endFrame_idle hlast]

theorem CamCfg.header_length (c : CamCfg) (s : Nat) (f : CamFrame) : (c.header s f).length = 64 := by
  simp only [CamCfg.header, List.length_append, length_leBytes, List.length_cons, List.length_nil, List.length_replicate]

/-- The block with the last rows and the padding of a frame written, but not its header. -/
def Dev.frameFilled (d : Dev) (c : CamCfg) (f : CamFrame) : Dev :=
  (if c.path = 1 then d.wrBayer c f.addr (c.h - 1) (f.rows.getD 1 (f.rows.getD 0 [])) (f.rows.getD 0 []) (f.rows.getD 0 []) else d).lamZero
    (f.addr + c.length) (c.units * 65536 - c.length)

theorem Dev.endFrame_passes {p t s : Nat} {d : Dev} {c : CamCfg} {f : CamFrame} (hf : (d.strm s).frame = some f)
    (ht : t ≤ f.startT + c.frameTmo * 100000) (hh : c.h ≤ f.lines) :
    d.endFrame p t (s, c) = (d.frameFilled c f).lamPass s f.idx f.addr f.seq f.firstTs c.length (c.header s f) := by
  simp only [Dev.endFrame, hf, Nat.not_lt.mpr ht, Nat.not_lt.mpr hh, if_false, Dev.frameFilled]

theorem Dev.frameFilled_writtenIn (d : Dev) {c : CamCfg} {f : CamFrame} (hf : c.fmt < 7) (hh : 1 ≤ c.h) :
    WrittenIn f.addr (c.units * 65536) d (d.frameFilled c f) := by
  have hstride := c.length_le_stride
  have hlen : c.length = c.dataOfs + c.planes * c.pitch * c.h := rfl
  refine WrittenIn.trans ?_ ((Dev.lamZero_writtenIn _ _ _).mono (by omega) (by omega))
  split
  · next hp => exact (Dev.wrBayer_writtenIn d _ _ _ _ (by rw [hp]; decide) hf (by omega)).mono (by omega) (by omega)
  · exact .refl _ _ d

/-- The padding reads 0. -/
theorem Dev.frameFilled_padding {d : Dev} {c : CamCfg} {f : CamFrame} (hf : c.fmt < 7) (hh : 1 ≤ c.h) (hdie : d.leap.dieLost = []) {i : Nat}
    (hlo : c.length ≤ i) (hhi : i < c.units * 65536) : (d.frameFilled c f).mem.hbm.read (f.addr + i) = 0 := by
  have hrow : ∀ e : Dev, e.leap = d.leap → (e.lamZero (f.addr + c.length) (c.units * 65536 - c.length)).mem.hbm.read (f.addr + i) = 0 := by
    intro e he
    refine Dev.lamZero_read ?_ (by omega)
    rw [Dev.stackLost, he, hdie]
    rfl
  refine hrow _ ?_
  split
  · next hp => exact (Dev.wrBayer_writtenIn d _ _ _ _ (by rw [hp]; decide) hf (by omega)).leap
  · rfl

/-- A frame that passes: its header is written over the buffer, and waits to be eligible. -/
theorem Dev.lamPass_effect (d : Dev) (s idx addr seq firstTs length : Nat) (hdr : List Nat) :
    let e := d.lamPass s idx addr seq firstTs length hdr
    (e.strm s).frame = none ∧
      (∃ b, (e.strm s).hdr = (d.strm s).hdr ++ [b] ∧ b.idx = idx ∧ b.addr = addr ∧ b.firstTs = firstTs ∧ b.length = length ∧ b.seq = seq ∧
        b.digest = crc64 (e.rdHbm addr length)) ∧
      (∀ m, m ≠ s → e.strm m = d.strm m) ∧ e.mem = (d.lamWrite addr hdr).mem ∧ e.regs = (d.lamWrite addr hdr).regs ∧ e.coll = d.coll ∧
      e.runs = d.runs ∧ e.fuses = d.fuses := by
  have hw := d.lamWrite_writtenIn addr hdr
  have hown : (d.lamPass s idx addr seq firstTs length hdr).strm s = { (d.lamWrite addr hdr).strm s with
      frame := none, sweep := none,
      hdr := ((d.lamWrite addr hdr).strm s).hdr ++
        [⟨idx, addr, firstTs, crc64 ((d.lamWrite addr hdr).rdHbm addr length), length, seq, (d.lamWrite addr hdr).lnk.mirrorSent⟩] } :=
    Dev.strm_modStrm_same _ _ _
  refine ⟨by rw [hown], ?_, fun m hm => (Dev.strm_modStrm_ne _ _ hm).trans (Dev.strm_of_lam hw.lam m), rfl, rfl, hw.coll, hw.runs, hw.fuses⟩
  rw [hown, Dev.strm_of_lam hw.lam s]
  exact ⟨_, rfl, rfl, rfl, rfl, rfl, rfl, rfl⟩

/-- The stream of an open frame has the values in force. -/
theorem Dev.of_open_single {d : Dev} {p vc s : Nat} {c : CamCfg}
    (hone : (d.strsOf p vc).filter (fun q => (d.strm q.1).frame.isSome) = [(s, c)]) : s < 32 ∧ c.fmt < 8 := by
  obtain ⟨hs, hc⟩ := Dev.mem_strsOf (List.mem_filter.mp (hone ▸ List.mem_singleton_self (s, c))).1
  refine ⟨hs, ?_⟩
  rw [show c = camCfg d.live s from hc]
  exact camCfg_fmt_lt d s

/-- The end of a frame that has all its lines, in time. -/
theorem Dev.frameEnd_passes {d : Dev} {p vc s : Nat} {c : CamCfg} {f : CamFrame} (ecc : Bool) {t : Nat} (hl : d.csiLive p = true)
    (hon : d.lamOn = true) (hvc : vc < 4) (hone : (d.strsOf p vc).filter (fun q => (d.strm q.1).frame.isSome) = [(s, c)])
    (hf : (d.strm s).frame = some f) (ht : t ≤ f.startT + c.frameTmo * 100000) (hh : c.h ≤ f.lines) (hfmt : c.fmt < 7) (hh1 : 1 ≤ c.h) :
    d.frameEnd p vc ecc t =
      ((d.atHeader p ecc t).frameFilled c f).lamPass s f.idx f.addr f.seq f.firstTs c.length (c.header s f) := by
  obtain ⟨-, hlam, -, -⟩ := d.atHeader_keeps p ecc t
  have hfill := (d.atHeader p ecc t).frameFilled_writtenIn (f := f) hfmt hh1
  have hpass := Dev.endFrame_passes (p := p) ((congrArg Stream.frame (Dev.strm_of_lam hlam s)).trans hf) ht hh
  obtain ⟨hdone, -, hothers, -⟩ :=
    ((d.atHeader p ecc t).frameFilled c f).lamPass_effect s f.idx f.addr f.seq f.firstTs c.length (c.header s f)
  rw [← hpass]
  refine Dev.frameEnd_single ecc t hl hon hvc hone (by rw [hpass]; exact hdone) (fun m hm => ?_)
  rw [hpass]
  exact (hothers m hm).trans (Dev.strm_of_lam (hfill.lam.trans hlam) m)

/-- What such an end leaves in the buffer. -/
theorem Dev.framePassed_buffer {d : Dev} {s : Nat} {c : CamCfg} {f : CamFrame} (hfmt : c.fmt < 7) (hh1 : 1 ≤ c.h) :
    WrittenIn f.addr (c.units * 65536) d ((d.frameFilled c f).lamWrite f.addr (c.header s f)) ∧
      (d.leap.dieLost = [] → d.poisonIn f.addr (c.units * 65536) = [] →
        (∀ i, i < 64 → ((d.frameFilled c f).lamWrite f.addr (c.header s f)).mem.hbm.read (f.addr + i) =
          BitVec.ofNat 8 ((c.header s f).getD i 0)) ∧
        ∀ i, c.length ≤ i → i < c.units * 65536 →
          ((d.frameFilled c f).lamWrite f.addr (c.header s f)).mem.hbm.read (f.addr + i) = 0) := by
  have hstride := c.length_le_stride
  have htable := c.table_le_dataOfs
  have hofs := c.dataOfs_le_length
  have hlen := c.header_length s f
  have hfill := d.frameFilled_writtenIn (f := f) hfmt hh1
  refine ⟨hfill.trans (Dev.lamWrite_within _ le_rfl (by omega)), fun hdie hclean => ⟨fun i hi => ?_, fun i hlo hhi => ?_⟩⟩
  · have hhere : (d.frameFilled c f).stackLost f.addr = false := by
      rw [hfill.stackLost, Dev.stackLost, hdie]
      rfl
    have hfree : (d.frameFilled c f).poisonIn f.addr (c.header s f).length = [] := by
      rw [hfill.poisonIn hclean, hlen]
      exact Dev.poisonIn_part hclean le_rfl (by omega)
    rw [Dev.lamWrite_hbm hhere hfree]
    exact Mem.read_writeBytes_in _ _ _ _ (by rw [hlen]; exact hi)
  · rw [(Dev.lamWrite_writtenIn _ _ _).outside _ (.inr (by omega))]
    exact Dev.frameFilled_padding hfmt hh1 hdie hlo hhi

/-- The end of a frame that comes in time but lacks lines. -/
theorem Dev.frameEnd_short {d : Dev} {p vc s : Nat} {c : CamCfg} {f : CamFrame} (ecc : Bool) {t : Nat} (hl : d.csiLive p = true)
    (hon : d.lamOn = true) (hvc : vc < 4) (hone : (d.strsOf p vc).filter (fun q => (d.strm q.1).frame.isSome) = [(s, c)])
    (hf : (d.strm s).frame = some f) (ht : t ≤ f.startT + c.frameTmo * 100000) (hh : f.lines < c.h) :
    d.frameEnd p vc ecc t = (d.atHeader p ecc t).camFail s p 4 := by
  obtain ⟨-, hlam, -, -⟩ := d.atHeader_keeps p ecc t
  have hfail := (d.atHeader p ecc t).camFail_failedFor s p 4
  have hend : (d.atHeader p ecc t).endFrame p t (s, c) = (d.atHeader p ecc t).camFail s p 4 := by
    have hf' : ((d.atHeader p ecc t).strm s).frame = some f := (congrArg Stream.frame (Dev.strm_of_lam hlam s)).trans hf
    simp only [Dev.endFrame, hf', Nat.not_lt.mpr ht, hh, if_false, if_true]
  rw [← hend]
  refine Dev.frameEnd_single ecc t hl hon hvc hone (by rw [hend, hfail.own]; rfl) (fun m hm => ?_)
  rw [hend, hfail.others m hm, Dev.strm_of_lam hlam]

/-! ## Headers that are written (R48, R78) -/

/-- A stream whose oldest pending header `b` has been written: at the tick to come or after it, or before. -/
def Stream.headerDone (late : Bool) (b : LamBuf) (bs : List LamBuf) (r : Stream) : Stream :=
  if late then { r with hdr := bs, late := some b } else { r with hdr := bs, last := some b, rostered := false, age := 0 }

theorem Dev.headerWritten_eq {d : Dev} {n : Nat} (t : Nat) {b : LamBuf} {bs : List LamBuf} (hb : (d.strm n).hdr = b :: bs)
    (hm : d.mirrored b.mirror = true) :
    d.headerWritten n t =
      (((d.at_ t).modStrm n (Stream.headerDone (d.running && decide (d.frame.nextTick ≤ Nat.max d.now t)) b bs)).set ⟨strStat n, 3, 0⟩
        b.idx).set ⟨strStat n, 8, 8⟩ 1 := by
  have hlate : ((d.at_ t).running && decide ((d.at_ t).frame.nextTick ≤ (d.at_ t).now)) =
      (d.running && decide (d.frame.nextTick ≤ Nat.max d.now t)) := rfl
  simp only [Dev.headerWritten, hb, hm, Bool.not_true, Bool.false_eq_true, if_false, hlate]
  cases d.running && decide (d.frame.nextTick ≤ Nat.max d.now t) <;> rfl

theorem Dev.headerWritten_effect {d : Dev} {n : Nat} (t : Nat) {b : LamBuf} {bs : List LamBuf} (hb : (d.strm n).hdr = b :: bs)
    (hm : d.mirrored b.mirror = true) :
    let e := d.headerWritten n t
    e.strm n = Stream.headerDone (d.running && decide (d.frame.nextTick ≤ Nat.max d.now t)) b bs (d.strm n) ∧
      e.f ⟨strStat n, 3, 0⟩ = b.idx % 16 ∧ e.f ⟨strStat n, 8, 8⟩ = 1 ∧ e.f ⟨strStat n, 7, 4⟩ = d.f ⟨strStat n, 7, 4⟩ ∧
      (∀ m, m ≠ n → e.strm m = d.strm m) ∧ sameRegsBut [strStat n] d e ∧ e.mem = d.mem := by
  rw [Dev.headerWritten_eq t hb hm]
  refine ⟨?own, ?buf, Dev.f_set_same _ _ _ rfl, ?err, fun m hm => ?others, fun o ho => ?regs, ?mem⟩
  case own =>
    rw [Dev.strm_set, Dev.strm_set]
    exact Dev.strm_modStrm_same (d.at_ t) n _
  case others =>
    rw [Dev.strm_set, Dev.strm_set]
    exact Dev.strm_modStrm_ne (d.at_ t) _ hm
  case mem => rw [Dev.set_mem, Dev.set_mem, (Dev.modStrm_sameInput _ _ _).mem, Dev.atTime_mem]
  case buf => exact (Dev.f_set_bits _ _ rfl rfl (by decide : 3 < 8 ∨ 8 < 0)).trans (Dev.f_set_same _ _ _ rfl)
  case err =>
    exact (Dev.f_set_bits _ _ rfl rfl (by decide : 7 < 8 ∨ 8 < 4)).trans (Dev.f_set_bits _ _ rfl rfl (by decide : 7 < 0 ∨ 3 < 4))
  case regs =>
    have hne : o ≠ strStat n := fun h => ho (List.mem_singleton.mpr h)
    exact (Dev.reg_set_ne _ _ _ _ hne).trans (Dev.reg_set_ne _ _ _ _ hne)

/-! ## Timers (R90, R91) -/

theorem Dev.lineTimeout_late {d : Dev} {n t : Nat} {f : CamFrame} (hf : (d.strm n).frame = some f)
    (ht : f.lastT + (camCfg d.live n).lineTmo * 1000 < t) (hh : f.lines < (camCfg d.live n).h) :
    d.lineTimeout n t = (d.at_ t).camFail n (camCfg d.live n).port 1 := by
  simp only [Dev.lineTimeout, hf, ht, hh, and_self, if_true]

theorem Dev.frameTimeout_late {d : Dev} {n t : Nat} {f : CamFrame} (hf : (d.strm n).frame = some f)
    (ht : f.startT + (camCfg d.live n).frameTmo * 100000 < t) :
    d.frameTimeout n t = (d.at_ t).camFail n (camCfg d.live n).port 2 := by
  simp only [Dev.frameTimeout, hf, ht, if_true]

/-- A frame whose timer has run out. -/
theorem Dev.timedOut_effect (d : Dev) {n reason : Nat} (t : Nat) (hn : n < 32) (hr : reason < 16) (hready : d.coll.ready = true) :
    let e := (d.at_ t).camFail n (camCfg d.live n).port reason
    (e.strm n).frame = none ∧ e.f (F.LAM_STR_STAT.LAST_ERR n) = reason ∧
      e.f (F.LAM_STR_FAIL.COUNT n) = Nat.min (d.f (F.LAM_STR_FAIL.COUNT n) + 1) 0xFFFFFFFF ∧
      e.coll.pending = setBit512 d.coll.pending 0x140 ∧ (∀ m, m ≠ n → e.strm m = d.strm m) ∧ e.mem = d.mem := by
  have hfail := (d.at_ t).camFail_failedFor n (camCfg d.live n).port reason
  obtain ⟨hframe, -, herr, hcount⟩ := hfail.camera hn hr
  exact ⟨hframe, herr, hcount, hfail.reported hready (masterKnown_cameraPort (camCfg_port_lt d n)), hfail.others, hfail.input.mem⟩


/-- A line that passes its checks. -/
theorem Dev.line_stored {d : Dev} {p vc dt s : Nat} {c : CamCfg} {f : CamFrame} (ecc : Bool) (payload : List Nat) (t : Nat)
    (hl : d.csiLive p = true) (hon : d.lamOn = true) (hvc : vc < 4) (hemb : dt ≠ 0x12) (hbits : csiBits dt ≠ 0)
    (hfind : (d.openable p vc).find? (fun q => q.2.any || q.2.dt == dt) = some (s, c)) (hf : (d.strm s).frame = some f)
    (hok : c.lineReason f dt true payload.length t = 0) (h7 : c.fmt ≠ 7) (hdie : d.leap.dieLost = []) :
    let ts := t - d.f (F.LAM_PORT_LAT.LAT_NS c.port)
    let e := d.line p vc dt ecc true true payload t
    (∃ f', (e.strm s).frame = some f' ∧ f'.lines = f.lines + 1 ∧ f'.idx = f.idx ∧ f'.addr = f.addr ∧ f'.seq = f.seq ∧ f'.lastTs = ts ∧
        f'.lastT = t) ∧
      (∀ m, m ≠ s → e.strm m = d.strm m) ∧
      (∀ a, a < f.addr ∨ f.addr + c.length ≤ a → e.mem.hbm.read a = d.mem.hbm.read a) ∧
      (d.poisonIn f.addr c.length = [] → ∀ i, i < 8 →
        e.mem.hbm.read (f.addr + 64 + 8 * f.lines + i) = BitVec.ofNat 8 ((leBytes 8 ts).getD i 0)) ∧
      (c.path = 0 → d.poisonIn f.addr c.length = [] → ∀ i, i < c.pitch →
        e.mem.hbm.read (f.addr + c.dataOfs + f.lines * c.pitch + i) = BitVec.ofNat 8 ((padTo c.pitch (c.rawBytes payload)).getD i 0)) ∧
      e.coll = d.coll ∧ e.ctxs = d.ctxs ∧ e.runs = d.runs := by
  intro ts e
  obtain ⟨-, hc, htakes⟩ := Dev.of_find_line hfind
  obtain ⟨hy, hsize⟩ := CamCfg.of_lineReason_zero hok
  obtain ⟨hany, hone⟩ := hsize htakes
  have hfmt : c.fmt < 7 := by
    have h8 := camCfg_fmt_lt d s
    rw [← hc] at h8
    omega
  have hraw : c.path = 0 → (c.rawBytes payload).length ≤ c.pitch := fun hp =>
    CamCfg.rawBytes_fits hp (hany hp) (fun ha => by
      have hdt : c.dt = dt := by simpa [ha] using htakes
      exact ⟨hdt ▸ hbits, hone ha⟩)
  obtain ⟨hin, hlam, hcoll, hreg⟩ := d.atHeader_keeps p ecc t
  have hlat : (d.atHeader p ecc t).f (F.LAM_PORT_LAT.LAT_NS c.port) = d.f (F.LAM_PORT_LAT.LAT_NS c.port) := by
    refine Dev.f_of_reg (hreg _ ?_)
    simp only [F.LAM_PORT_LAT.LAT_NS, R.LAM_PORT_LAT, R.LAM_PORT_ECC_CORR]
    omega
  have he : e = ((d.atHeader p ecc t).lineWritten c f payload ts).modStrm s (fun r => { r with frame := some (f.stored c dt ts t payload) }) := by
    have hhit := Dev.line_hit ecc true payload t hl hon hvc hemb hbits hfind hf
    have hstore := Dev.storeLine_eq (d.atHeader p ecc t) s c f dt payload t
    simp only [hok, if_true, Dev.crcNoted_true] at hhit
    rw [hlat] at hstore
    exact hhit.trans hstore
  have hw := (d.atHeader p ecc t).lineWritten_writtenIn ts hfmt hy hraw
  have hdie' : (d.atHeader p ecc t).leap.dieLost = [] := hin.leap ▸ hdie
  have hclean : d.poisonIn f.addr c.length = [] → (d.atHeader p ecc t).poisonIn f.addr c.length = [] := (hin.poisonIn _ _).trans
  have hown : e.strm s = { ((d.atHeader p ecc t).lineWritten c f payload ts).strm s with frame := some (f.stored c dt ts t payload) } := by
    rw [he]
    exact Dev.strm_modStrm_same _ _ _
  have hmem : e.mem = ((d.atHeader p ecc t).lineWritten c f payload ts).mem := by rw [he, (Dev.modStrm_sameInput _ _ _).mem]
  refine ⟨⟨f.stored c dt ts t payload, by rw [hown], rfl, rfl, rfl, rfl, rfl, rfl⟩, fun m hm => ?others, fun a ha => ?outside,
    fun hp i hi => ?stamp, fun h0 hp i hi => ?row, ?coll, ?ctxs, ?runs⟩
  case others => rw [he, Dev.strm_modStrm_ne _ _ hm, Dev.strm_of_lam (hw.lam.trans hlam)]
  case outside => rw [hmem, hw.outside a ha, hin.mem]
  case stamp => rw [hmem, Dev.lineWritten_stamp ts hfmt hy hraw hdie' (hclean hp) hi]
  case row => rw [hmem, Dev.lineWritten_raw ts h0 hy (hraw h0) hdie' (hclean hp) hi]
  case coll => rw [he]; exact hw.coll.trans hcoll
  case ctxs => rw [he]; exact hw.ctxs.trans hin.ctxs
  case runs => rw [he]; exact hw.runs.trans hin.runs

/-- A line that fails a check ends its frame. -/
theorem Dev.line_fails {d : Dev} {p vc dt s : Nat} {c : CamCfg} {f : CamFrame} (ecc crcOk : Bool) (payload : List Nat) (t : Nat)
    (hl : d.csiLive p = true) (hon : d.lamOn = true) (hvc : vc < 4) (hemb : dt ≠ 0x12) (hbits : csiBits dt ≠ 0)
    (hfind : (d.openable p vc).find? (fun q => q.2.any || q.2.dt == dt) = some (s, c)) (hf : (d.strm s).frame = some f)
    (hbad : c.lineReason f dt crcOk payload.length t ≠ 0) (hready : d.coll.ready = true) :
    let e := d.line p vc dt ecc crcOk true payload t
    (e.strm s).frame = none ∧ (∀ m, m ≠ s → e.strm m = d.strm m) ∧
      e.f (F.LAM_STR_STAT.LAST_ERR s) = c.lineReason f dt crcOk payload.length t ∧
      e.f (F.LAM_STR_FAIL.COUNT s) = Nat.min (d.f (F.LAM_STR_FAIL.COUNT s) + 1) 0xFFFFFFFF ∧
      e.f (F.LAM_PORT_CRC_ERR.COUNT p) = (if crcOk then d.f (F.LAM_PORT_CRC_ERR.COUNT p) else
        Nat.min (d.f (F.LAM_PORT_CRC_ERR.COUNT p) + 1) 0xFFFFFFFF) ∧
      e.coll.pending = setBit512 d.coll.pending 0x140 ∧ e.mem = d.mem ∧ e.runs = d.runs := by
  have hp := Dev.csiLive_lt hl
  obtain ⟨hs, -, -⟩ := Dev.of_find_line hfind
  obtain ⟨hin, hlam, hcoll, hreg⟩ := d.atHeader_keeps p ecc t
  obtain ⟨hin', hlam', hcoll', hreg', hcrc⟩ := (d.atHeader p ecc t).crcNoted_keeps p crcOk
  have hfail := ((d.atHeader p ecc t).crcNoted p crcOk).camFail_failedFor s p (c.lineReason f dt crcOk payload.length t)
  obtain ⟨hframe, -, herr, hcount⟩ := hfail.camera hs (c.lineReason_lt f dt crcOk payload.length t)
  have hfails : ((d.atHeader p ecc t).crcNoted p crcOk).f (F.LAM_STR_FAIL.COUNT s) = d.f (F.LAM_STR_FAIL.COUNT s) := by
    refine (Dev.f_of_reg (hreg' _ ?_)).trans (Dev.f_of_reg (hreg _ ?_)) <;>
      simp only [F.LAM_STR_FAIL.COUNT, R.LAM_STR_FAIL, R.LAM_PORT_CRC_ERR, R.LAM_PORT_ECC_CORR] <;> omega
  have hcrcs : (d.atHeader p ecc t).f (F.LAM_PORT_CRC_ERR.COUNT p) = d.f (F.LAM_PORT_CRC_ERR.COUNT p) := by
    refine Dev.f_of_reg (hreg _ ?_)
    simp only [F.LAM_PORT_CRC_ERR.COUNT, R.LAM_PORT_CRC_ERR, R.LAM_PORT_ECC_CORR]
    omega
  have hbelow : (F.LAM_PORT_CRC_ERR.COUNT p).off < R.LAM_STR_CFG 0 := by
    simp only [F.LAM_PORT_CRC_ERR.COUNT, R.LAM_PORT_CRC_ERR, R.LAM_STR_CFG]
    omega
  rw [Dev.line_hit ecc crcOk payload t hl hon hvc hemb hbits hfind hf]
  simp only [hbad, if_false]
  refine ⟨hframe, fun m hm => ?others, herr, hcount.trans (by rw [hfails]), ?crc, ?pending, ?mem, ?runs⟩
  case others => rw [hfail.others m hm, Dev.strm_of_lam (hlam'.trans hlam)]
  case crc => rw [Dev.f_of_reg (hfail.reg_below hbelow), hcrc, hcrcs]
  case pending =>
    rw [hfail.reported (by rw [hcoll', hcoll, hready]) (masterKnown_cameraPort hp), hcoll', hcoll]
  case mem => rw [hfail.input.mem, hin'.mem, hin.mem]
  case runs => rw [hfail.input.runs, hin'.runs, hin.runs]

/-- A line whose header cannot be read ends every open frame of its port and channel. -/
theorem Dev.line_unreadable {d : Dev} {p vc dt : Nat} (ecc crcOk : Bool) (payload : List Nat) (t : Nat)
    (hl : d.csiLive p = true) (hon : d.lamOn = true) :
    let e := d.line p vc dt ecc crcOk false payload t
    (∀ s c, (s, c) ∈ d.openable p vc → (e.strm s).frame = none) ∧
      e.f (F.LAM_PORT_HDR_ERR.COUNT p) = Nat.min (d.f (F.LAM_PORT_HDR_ERR.COUNT p) + 1) 0xFFFFFFFF ∧ e.mem = d.mem := by
  have hp := Dev.csiLive_lt hl
  have he : d.line p vc dt ecc crcOk false payload t =
      ((d.openable p vc).filter (fun q => (d.strm q.1).frame.isSome)).foldl (fun d q => d.camFail q.1 p 3)
        ((d.at_ t).addSat (F.LAM_PORT_HDR_ERR.COUNT p) 1) := by
    rw [Dev.line, hl, hon]
    rfl
  obtain ⟨hframes, hmem, hregs⟩ := Dev.camFails_effect p 3 ((d.openable p vc).filter (fun q => (d.strm q.1).frame.isSome))
    ((d.at_ t).addSat (F.LAM_PORT_HDR_ERR.COUNT p) 1)
  rw [he]
  refine ⟨fun s c hsc => hframes s ?_, ?hdr, hmem⟩
  case hdr =>
    refine (Dev.f_of_reg (hregs _ ?_)).trans (Dev.f_addSat_same (d.at_ t) 1 rfl)
    simp only [F.LAM_PORT_HDR_ERR.COUNT, R.LAM_PORT_HDR_ERR, R.LAM_STR_CFG]
    omega
  · by_cases hopen : (d.strm s).frame.isSome = true
    · exact .inr ⟨(s, c), List.mem_filter.mpr ⟨hsc, hopen⟩, rfl⟩
    · exact .inl (Option.not_isSome_iff_eq_none.mp hopen)

/-- The end of a frame that passes. -/
theorem Dev.frameEnd_passes_effect {d : Dev} {p vc s : Nat} {c : CamCfg} {f : CamFrame} (ecc : Bool) {t : Nat} (hl : d.csiLive p = true)
    (hon : d.lamOn = true) (hvc : vc < 4) (hone : (d.strsOf p vc).filter (fun q => (d.strm q.1).frame.isSome) = [(s, c)])
    (hf : (d.strm s).frame = some f) (ht : t ≤ f.startT + c.frameTmo * 100000) (hh : c.h ≤ f.lines) (h7 : c.fmt ≠ 7) (hh1 : 1 ≤ c.h)
    (hdie : d.leap.dieLost = []) :
    let whole := Nat.max c.length (c.units * 65536)
    let e := d.frameEnd p vc ecc t
    (e.strm s).frame = none ∧ (∀ m, m ≠ s → e.strm m = d.strm m) ∧
      (∃ b, (e.strm s).hdr = (d.strm s).hdr ++ [b] ∧ b.idx = f.idx ∧ b.addr = f.addr ∧ b.firstTs = f.firstTs ∧ b.length = c.length ∧
        b.seq = f.seq ∧ b.digest = crc64 (e.rdHbm f.addr c.length)) ∧
      (∀ a, a < f.addr ∨ f.addr + whole ≤ a → e.mem.hbm.read a = d.mem.hbm.read a) ∧
      (d.poisonIn f.addr whole = [] → sameRegsBut [R.LAM_PORT_ECC_CORR p] d e ∧ (ecc = false → e.regs = d.regs) ∧
        (∀ i, i < 64 → e.mem.hbm.read (f.addr + i) = BitVec.ofNat 8 ((c.header s f).getD i 0)) ∧
        ∀ i, c.length ≤ i → i < c.units * 65536 → e.mem.hbm.read (f.addr + i) = 0) ∧
      e.coll = d.coll ∧ e.runs = d.runs := by
  have hfmt : c.fmt < 7 := by
    have h8 := (Dev.of_open_single hone).2
    omega
  have hwhole : Nat.max c.length (c.units * 65536) = c.units * 65536 := Nat.max_eq_right c.length_le_stride
  obtain ⟨hin, hlam, hcoll, hreg⟩ := d.atHeader_keeps p ecc t
  have hfill := (d.atHeader p ecc t).frameFilled_writtenIn (f := f) hfmt hh1
  obtain ⟨hbuf, hcontent⟩ := Dev.framePassed_buffer (d := d.atHeader p ecc t) (s := s) (f := f) hfmt hh1
  obtain ⟨hdone, ⟨b, hhdr, hb⟩, hothers, hmem, hregs, hcoll', hruns', hfuses⟩ :=
    ((d.atHeader p ecc t).frameFilled c f).lamPass_effect s f.idx f.addr f.seq f.firstTs c.length (c.header s f)
  have hstrm : ∀ m, ((d.atHeader p ecc t).frameFilled c f).strm m = d.strm m := Dev.strm_of_lam (hfill.lam.trans hlam)
  rw [Dev.frameEnd_passes ecc hl hon hvc hone hf ht hh hfmt hh1]
  simp only [hwhole]
  refine ⟨hdone, fun m hm => (hothers m hm).trans (hstrm m), ⟨b, by rw [hhdr, hstrm], hb⟩, fun a ha => ?outside, fun hclean => ?clean,
    hcoll'.trans (hfill.coll.trans hcoll), hruns'.trans (hfill.runs.trans hin.runs)⟩
  case outside => rw [hmem, hbuf.outside a ha, hin.mem]
  case clean =>
    have hclean' := (hin.poisonIn f.addr (c.units * 65536)).trans hclean
    obtain ⟨hheader, hpadding⟩ := hcontent (hin.leap ▸ hdie) hclean'
    have hsame := hregs.trans (hbuf.clean hclean').2
    refine ⟨fun o ho => ?_, ?_, fun i hi => by rw [hmem, hheader i hi], fun i hlo hhi => by rw [hmem, hpadding i hlo hhi]⟩
    · rw [Dev.reg_of_regs hsame (hfuses.trans hfill.fuses)]
      exact hreg o (fun h => ho (List.mem_singleton.mpr h))
    · rintro rfl
      exact hsame

/-- Settles O51: a line and the end of a frame write in the buffer of the frame alone, and a check that fails ends the frame without a write. -/
theorem cameraLinesAndFrameEnds : Obligations.CameraLinesAndFrameEnds := by
  unfold Obligations.CameraLinesAndFrameEnds
  refine ⟨?stored, ?fails, ?unreadable, ?passes, ?short, ?embedded, ?header, ?lineTimer, ?frameTimer⟩
  case stored =>
    intro d p vc dt ecc payload t s c f ha hl hon hvc hemb hbits hfind hf hok h7 hdie
    exact completes_upd (f := fun d => d.line p vc dt ecc true true payload t) (fun _ => rfl) ha
      (Dev.line_stored ecc payload t hl hon hvc hemb hbits hfind hf hok h7 hdie)
  case fails =>
    intro d p vc dt ecc crcOk payload t s c f ha hl hon hvc hemb hbits hfind hf hbad hready
    exact completes_upd (f := fun d => d.line p vc dt ecc crcOk true payload t) (fun _ => rfl) ha
      (Dev.line_fails ecc crcOk payload t hl hon hvc hemb hbits hfind hf hbad hready)
  case unreadable =>
    intro d p vc dt ecc crcOk payload t ha hl hon
    exact completes_upd (f := fun d => d.line p vc dt ecc crcOk false payload t) (fun _ => rfl) ha
      (Dev.line_unreadable ecc crcOk payload t hl hon)
  case passes =>
    intro d p vc t s ecc c f ha hl hon hvc hone hf ht hh h7 hh1 hdie
    exact completes_upd (f := fun d => d.frameEnd p vc ecc t) (fun _ => rfl) ha
      (Dev.frameEnd_passes_effect ecc hl hon hvc hone hf ht hh h7 hh1 hdie)
  case short =>
    intro d p vc t s ecc c f ha hl hon hvc hone hf ht hh
    obtain ⟨hin, hlam, -, -⟩ := d.atHeader_keeps p ecc t
    have hfail := (d.atHeader p ecc t).camFail_failedFor s p 4
    obtain ⟨hframe, hhdr, herr, -⟩ := hfail.camera (Dev.of_open_single hone).1 (by decide)
    refine completes_upd (f := fun d => d.frameEnd p vc ecc t) (fun _ => rfl) ha ?_
    rw [Dev.frameEnd_short ecc hl hon hvc hone hf ht hh]
    exact ⟨hframe, by rw [hhdr, Dev.strm_of_lam hlam], herr, hfail.input.mem.trans hin.mem⟩
  case embedded =>
    intro d p vc t ecc crcOk payload ha hl hon hvc
    obtain ⟨hin, hlam, hcoll, hreg⟩ := d.atHeader_keeps p ecc t
    obtain ⟨hin', hlam', hcoll', -, hcrc⟩ := (d.atHeader p ecc t).crcNoted_keeps p crcOk
    have hcrcs : (d.atHeader p ecc t).f (F.LAM_PORT_CRC_ERR.COUNT p) = d.f (F.LAM_PORT_CRC_ERR.COUNT p) := by
      refine Dev.f_of_reg (hreg _ ?_)
      simp only [F.LAM_PORT_CRC_ERR.COUNT, R.LAM_PORT_CRC_ERR, R.LAM_PORT_ECC_CORR]
      omega
    refine completes_upd (f := fun d => d.line p vc 0x12 ecc crcOk true payload t) (fun _ => rfl) ha ?_
    rw [Dev.line_eq ecc crcOk payload t hl hon hvc (.inl rfl)]
    exact ⟨hcrc.trans (by rw [hcrcs]), hlam'.trans hlam, hin'.mem.trans hin.mem, hcoll'.trans hcoll⟩
  case header =>
    intro d n t b bs ha hn hb hm
    obtain ⟨hown, hbuf, hvalid, herr, hothers, hregs, hmem⟩ := Dev.headerWritten_effect t hb hm
    refine completes_upd (f := fun d => d.headerWritten n t) (fun _ => rfl) ha ⟨?_, fun hearly => ?_, fun hlate => ?_, hbuf, hvalid, herr, hothers,
      hregs, hmem⟩
    · rw [hown, Stream.headerDone]
      split <;> rfl
    · have hb : (d.running && decide (d.frame.nextTick ≤ Nat.max d.now t)) = false := by
        rw [Bool.and_eq_false_iff, decide_eq_false_iff_not, Nat.not_le]
        exact hearly
      rw [hown, hb]
      exact ⟨rfl, rfl, rfl, rfl⟩
    · have hb : (d.running && decide (d.frame.nextTick ≤ Nat.max d.now t)) = true := by
        rw [← Bool.not_eq_false, Bool.and_eq_false_iff, decide_eq_false_iff_not, Nat.not_le]
        exact hlate
      rw [hown, hb]
      exact ⟨rfl, rfl, rfl⟩
  case lineTimer =>
    intro d n t f ha hn hf hready ht hh
    refine completes_upd (f := fun d => if n < 32 then d.lineTimeout n t else d) (fun _ => rfl) ha ?_
    rw [if_pos hn, Dev.lineTimeout_late hf ht hh]
    exact d.timedOut_effect t hn (by decide) hready
  case frameTimer =>
    intro d n t f ha hn hf hready ht
    refine completes_upd (f := fun d => if n < 32 then d.frameTimeout n t else d) (fun _ => rfl) ha ?_
    rw [if_pos hn, Dev.frameTimeout_late hf ht]
    exact d.timedOut_effect t hn (by decide) hready

end Sys2Proof.Machine
end

section
/-!
PROOFS. Lidar sweeps (O52).
-/
namespace Sys2Proof.Machine

/-! ## APPLY (R84) -/

theorem Dev.lidApply_refused {d : Dev} {l : Nat} (h : d.lidOk (lidCfg d.f l) = false) : d.lidApply l = d.set (F.LAM_LID_CFG.BAD_CFG l) 1 := by
  simp only [Dev.lidApply, h, Bool.not_false, if_true]

/-- The accepted values of a link, staged. -/
def Dev.lidStaged (d : Dev) (l : Nat) : Dev :=
  d.stagedFor (F.LAM_LID_BUFS.UNITS l) (lidCfg d.f l).units (R.LAM_LID_CFG l) (R.LAM_LID_CFG l + 0x400)

/-- Accepted values take effect at once, or wait where a sweep is in progress. -/
theorem Dev.lidApply_accepted {d : Dev} {l : Nat} (h : d.lidOk (lidCfg d.f l) = true) :
    d.lidApply l = if (d.strm (32 + l)).sweep.isNone then (d.lidStaged l).lidTake l else (d.lidStaged l).set (F.LAM_LID_CFG.PENDING l) 1 := by
  rw [← Dev.strm_of_lam (e := d.lidStaged l) (d.stagedFor_keeps _ _ _ _).1 (32 + l), Dev.lidApply, h]
  rfl

/-- APPLY on a link without a sweep. -/
theorem Dev.lidApply_idle_effect {d : Dev} {l : Nat} (h : d.lidOk (lidCfg d.f l) = true) (hw : (d.strm (32 + l)).sweep = none) :
    let e := d.lidApply l
    (∀ x : Fld, R.LAM_LID_CFG l ≤ x.off → x.off < R.LAM_LID_CFG l + 0x400 → x.off ≠ R.LAM_LID_BUFS l → e.live x = d.f x) ∧
      e.on (F.LAM_LID_CFG.PENDING l) = false ∧ e.lam = d.lam ∧ e.mem = d.mem := by
  obtain ⟨hlive, hrest⟩ := d.stagedFor_taken (F.LAM_LID_BUFS.UNITS l) (lidCfg d.f l).units (pending := F.LAM_LID_CFG.PENDING l)
    (R.LAM_LID_CFG l) (R.LAM_LID_CFG l + 0x400) rfl
  rw [Dev.lidApply_accepted h, hw, if_pos Option.isNone_none]
  exact ⟨fun x h₁ h₂ hne => (hlive x h₁ h₂).trans (Dev.f_set_off d _ hne), hrest⟩

/-- APPLY on a link with a sweep in progress. -/
theorem Dev.lidApply_busy_effect {d : Dev} {l : Nat} (h : d.lidOk (lidCfg d.f l) = true) (hw : (d.strm (32 + l)).sweep ≠ none) :
    let e := d.lidApply l
    e.on (F.LAM_LID_CFG.PENDING l) = true ∧ e.regs.live = d.regs.live ∧ e.lam = d.lam ∧ e.mem = d.mem := by
  rw [Dev.lidApply_accepted h, if_neg (by rwa [Option.isNone_iff_eq_none])]
  exact d.stagedFor_waiting (F.LAM_LID_BUFS.UNITS l) (lidCfg d.f l).units (R.LAM_LID_CFG l) (R.LAM_LID_CFG l + 0x400) rfl rfl

/-! ## Sweeps that fail (R90) -/

theorem masterKnown_lidarLink {l : Nat} (h : l < 4) : masterKnown (0x8020 + l) = true := by
  have all : ∀ l < 4, masterKnown (0x8020 + l) = true := by decide
  exact all l h

theorem Dev.lidFail_failedFor (d : Dev) (l reason : Nat) : FailedFor (32 + l) reason (0x8020 + l) d (d.lidFail l reason) := by
  refine Dev.lamFail_failedFor d (32 + l) reason ?_
  simp only [unitKind]
  omega

/-- The failure of a link, in the terms of its registers. -/
theorem FailedFor.lidar {l reason master : Nat} {d e : Dev} (h : FailedFor (32 + l) reason master d e) (hr : reason < 16) :
    (e.strm (32 + l)).sweep = none ∧ (e.strm (32 + l)).skip = true ∧ e.f (F.LAM_LID_STAT.LAST_ERR l) = reason := by
  have herr : F.LAM_LID_STAT.LAST_ERR l = ⟨strStat (32 + l), 7, 4⟩ := by
    rw [strStat, if_neg (by omega), Nat.add_sub_cancel_left, F.LAM_LID_STAT.LAST_ERR]
  refine ⟨by rw [h.own]; rfl, ?_, by rw [herr, h.lastErr, Nat.mod_eq_of_lt hr]⟩
  rw [h.own]
  exact decide_eq_true (Nat.le_add_right 32 l)

/-- A sweep whose timer has run out. -/
theorem Dev.sweepTimedOut_effect (d : Dev) {l reason : Nat} (t : Nat) (hl : l < 4) (hr : reason < 16) (hready : d.coll.ready = true) :
    let e := (d.at_ t).lidFail l reason
    (e.strm (32 + l)).sweep = none ∧ e.f (F.LAM_LID_STAT.LAST_ERR l) = reason ∧
      e.coll.pending = setBit512 d.coll.pending 0x140 ∧ (∀ m, m ≠ 32 + l → e.strm m = d.strm m) ∧ e.mem = d.mem := by
  have hfail := (d.at_ t).lidFail_failedFor l reason
  obtain ⟨hsweep, -, herr⟩ := hfail.lidar hr
  exact ⟨hsweep, herr, hfail.reported hready (masterKnown_lidarLink hl), hfail.others, hfail.input.mem⟩

theorem Dev.gapTimeout_late {d : Dev} {l t : Nat} (h : d.sweepLate l t = 1) : d.gapTimeout l t = (d.at_ t).lidFail l 1 := if_pos h

theorem Dev.sweepTimeout_late {d : Dev} {l t : Nat} {w : Sweep} (hw : (d.strm (32 + l)).sweep = some w)
    (ht : w.startT + (lidCfg d.live l).sweep * 100000 < t) : d.sweepTimeout l t = (d.at_ t).lidFail l 2 := by
  simp only [Dev.sweepTimeout, hw, ht, if_true]

/-! ## Datagrams (R83 to R85, R88) -/

/-- A frame of the link's own that carries a datagram which its filter takes. -/
theorem Dev.ethFrame_taken {d : Dev} {mac src port : Nat} {bytes p : List Nat} {bad : Bool} (t : Nat) (hmac : mac < 4) (hlen : bytes.length ≤ 9014)
    (hon : d.lamOn = true) (hen : d.on (F.LAM_LID_CFG.EN mac) = true) (hudp : udpOf bytes = some (src, port, p, bad))
    (hport : d.live (F.LAM_LID_UDP.DST_PORT mac) = 0 ∨ d.live (F.LAM_LID_UDP.DST_PORT mac) = port)
    (hsrc : d.live (F.LAM_LID_SRC_IP.SRC_IP mac) = 0 ∨ d.live (F.LAM_LID_SRC_IP.SRC_IP mac) = src) :
    d.ethFrame mac bytes true t = (d.at_ t).datagram mac p bad t := by
  simp only [Dev.ethFrame, decide_eq_false (Nat.not_le.mpr hmac), decide_eq_false (Nat.not_lt.mpr hlen), hon, hen, hudp, hport, hsrc, Bool.not_true,
    Bool.or_self, Bool.false_eq_true, if_false, and_self, if_true]

/-- The block under whose values in force a datagram is read: pending ones take effect with the sweep that it starts (R84). -/
def Dev.readUnder (d : Dev) (l : Nat) : Dev :=
  if (d.strm (32 + l)).sweep.isNone = true ∧ (d.strm (32 + l)).skip = false ∧ d.on (F.LAM_LID_CFG.PENDING l) = true then d.lidTake l else d

theorem Dev.readUnder_sweeping {d : Dev} {l : Nat} {w : Sweep} (hw : (d.strm (32 + l)).sweep = some w) : d.readUnder l = d := by
  refine if_neg (fun h => ?_)
  rw [hw] at h
  exact Bool.false_ne_true h.1

/-- The block once a datagram has been lost, of which a sweep may lose `lossMax`. -/
def Dev.datagramLost (d : Dev) (l lossMax : Nat) : Dev :=
  let e := d.modSweep (32 + l) (fun w => { w with lost := w.lost + 1 })
  match (e.strm (32 + l)).sweep with
  | some w => if lossMax < w.lost then e.lidFail l 3 else e
  | none => e

/-- A datagram that comes in time. -/
theorem Dev.datagram_inTime {d : Dev} {l t : Nat} (p : List Nat) (bad : Bool) (hlate : d.sweepLate l t = 0) :
    d.datagram l p bad t =
      let c := lidCfg (d.readUnder l).live l
      if bad = true ∨ p.length < c.need then d.datagramLost l c.lossMax
      else
        let e := (d.readUnder l).modSweep (32 + l) (fun w => { w with lastT := t })
        (if c.points then e.allPoints l p t else e.storePacket l p t).modSweep (32 + l) (fun w => { w with packets := w.packets + 1 }) := by
  have hunder : (if ((d.strm (32 + l)).sweep.isNone && !(d.strm (32 + l)).skip && d.on (F.LAM_LID_CFG.PENDING l)) = true then d.lidTake l else d) =
      d.readUnder l := by
    simp only [Dev.readUnder, Bool.and_eq_true, Bool.not_eq_true', and_assoc]
  simp only [Dev.datagram, hlate, if_true, hunder, Bool.or_eq_true, decide_eq_true_eq]
  rfl

theorem Dev.datagram_read {d : Dev} {l t : Nat} {p : List Nat} (hlate : d.sweepLate l t = 0)
    (hlen : (lidCfg (d.readUnder l).live l).need ≤ p.length) :
    d.datagram l p false t =
      let e := (d.readUnder l).modSweep (32 + l) (fun w => { w with lastT := t })
      (if (lidCfg (d.readUnder l).live l).points then e.allPoints l p t else e.storePacket l p t).modSweep (32 + l)
        (fun w => { w with packets := w.packets + 1 }) := by
  rw [Dev.datagram_inTime p false hlate]
  exact if_neg (by simp only [Bool.false_eq_true, false_or, Nat.not_lt]; exact hlen)

/-- A datagram that is lost counts in the sweep in progress, which fails when it has lost too many. -/
theorem Dev.datagram_lost {d : Dev} {l t : Nat} {p : List Nat} {bad : Bool} {w : Sweep} (hlate : d.sweepLate l t = 0)
    (hw : (d.strm (32 + l)).sweep = some w) (hbad : bad = true ∨ p.length < (lidCfg d.live l).need) :
    d.datagram l p bad t =
      let e := d.modSweep (32 + l) (fun w => { w with lost := w.lost + 1 })
      if (lidCfg d.live l).lossMax < w.lost + 1 then e.lidFail l 3 else e := by
  rw [Dev.datagram_inTime p bad hlate, Dev.readUnder_sweeping hw]
  simp only [hbad, if_true, Dev.datagramLost, Dev.sweep_modSweep_same, hw, Option.map_some]

theorem Dev.modSweep_sameInput (d : Dev) (s : Nat) (f : Sweep → Sweep) : SameInput d (d.modSweep s f) := d.modStrm_sameInput s _

theorem Dev.modSweep_regs (d : Dev) (s : Nat) (f : Sweep → Sweep) : (d.modSweep s f).regs = d.regs := rfl

theorem Dev.modSweep_coll (d : Dev) (s : Nat) (f : Sweep → Sweep) : (d.modSweep s f).coll = d.coll := rfl

theorem Dev.modSweep_mem (d : Dev) (s : Nat) (f : Sweep → Sweep) : (d.modSweep s f).mem = d.mem := rfl

/-! ## Datagrams that are stored whole (R88) -/

/-- What a PACKET link stores of a datagram. -/
def packetRec (t : Nat) (p : List Nat) : List Nat :=
  padTo (up64 (16 + p.length)) (leBytes 8 t ++ leBytes 2 p.length ++ List.replicate 6 0 ++ p)

theorem length_packetRec (t : Nat) (p : List Nat) : (packetRec t p).length = up64 (16 + p.length) := by
  refine length_padTo (le_trans (le_of_eq ?_) (le_up64 _))
  simp only [List.length_append, length_leBytes, List.length_replicate]

/-- The sweep once a datagram has been stored in it. -/
def Sweep.packetStored (w : Sweep) (ts n : Nat) : Sweep :=
  { w with firstTs := some (w.firstTs.getD ts), lastTs := ts, count := w.count + 1, used := w.used + n }

/-- On a link whose sweeps end with the frame, a datagram for which its sweep has room is stored, and nothing else happens. -/
theorem Dev.storePacket_fits {d : Dev} {l t : Nat} {p : List Nat} {w : Sweep} (hw : (d.strm (32 + l)).sweep = some w)
    (hpts : (lidCfg d.live l).points = false) (hsplit : (lidCfg d.live l).split = 2)
    (hroom : w.used + up64 (16 + p.length) ≤ (lidCfg d.live l).cap * 65536) :
    d.storePacket l p t = (d.lamWrite (w.addr + 64 + w.used) (packetRec t p)).modSweep (32 + l)
      (fun w => w.packetStored (t - (lidCfg d.live l).lat) (up64 (16 + p.length))) := by
  have hflag : ((lidCfg d.live l).split == 1) = false := by rw [hsplit]; rfl
  have hneed : d.needSweep l t = d := by
    rw [Dev.needSweep, hw]
    rfl
  simp only [Dev.storePacket, hsplit, if_true, Bool.false_eq_true, if_false, hw, Nat.not_lt.mpr hroom, hneed, hpts, Nat.reduceBEq, Bool.false_and,
    Dev.storeRec]
  rfl

/-- What such a datagram changes, where nothing is poisoned. -/
theorem Dev.packet_effect {d : Dev} {l t : Nat} {p : List Nat} {w : Sweep} (hlate : d.sweepLate l t = 0) (hw : (d.strm (32 + l)).sweep = some w)
    (hlen : (lidCfg d.live l).need ≤ p.length) (hpts : (lidCfg d.live l).points = false) (hsplit : (lidCfg d.live l).split = 2)
    (hroom : w.used + up64 (16 + p.length) ≤ (lidCfg d.live l).cap * 65536)
    (hclean : d.poisonIn (w.addr + 64 + w.used) (up64 (16 + p.length)) = []) (hthere : d.stackLost (w.addr + 64 + w.used) = false) :
    let e := d.datagram l p false t
    (e.strm (32 + l)).sweep = some { ({ w with lastT := t } : Sweep).packetStored (t - (lidCfg d.live l).lat) (up64 (16 + p.length)) with
        packets := w.packets + 1 } ∧
      e.mem.hbm = d.mem.hbm.writeBytes (w.addr + 64 + w.used) (packetRec t p) ∧ (∀ m, m ≠ 32 + l → e.strm m = d.strm m) ∧
      e.regs = d.regs ∧ e.coll = d.coll := by
  have hnoted := d.modSweep_sameInput (32 + l) (fun w => { w with lastT := t })
  have hw' : ((d.modSweep (32 + l) (fun w => { w with lastT := t })).strm (32 + l)).sweep = some { w with lastT := t } := by
    rw [Dev.sweep_modSweep_same, hw, Option.map_some]
  have hstore := Dev.storePacket_fits (t := t) (p := p) hw' (by rw [hnoted.live, hpts]) (by rw [hnoted.live, hsplit])
    (by rw [hnoted.live]; exact hroom)
  rw [hnoted.live] at hstore
  have hfree := (hnoted.poisonIn (w.addr + 64 + w.used) (packetRec t p).length).trans (by rw [length_packetRec, hclean])
  have hwr := (d.modSweep (32 + l) (fun w => { w with lastT := t })).lamWrite_writtenIn (w.addr + 64 + w.used) (packetRec t p)
  rw [Dev.datagram_read hlate (by rw [Dev.readUnder_sweeping hw]; exact hlen), Dev.readUnder_sweeping hw]
  simp only [hpts, Bool.false_eq_true, if_false, hstore]
  refine ⟨?own, ?hbm, fun m hm => ?others, ?regs, ?coll⟩
  case own =>
    rw [Dev.sweep_modSweep_same, Dev.sweep_modSweep_same, Dev.strm_of_lam hwr.lam, hw']
    rfl
  case hbm =>
    rw [Dev.modSweep_mem, Dev.modSweep_mem, Dev.lamWrite_hbm ((hnoted.stackLost _).trans hthere) hfree, Dev.modSweep_mem]
  case regs => rw [Dev.modSweep_regs, Dev.modSweep_regs, (hwr.clean hfree).2, Dev.modSweep_regs]
  case coll => rw [Dev.modSweep_coll, Dev.modSweep_coll, hwr.coll, Dev.modSweep_coll]
  case others => rw [Dev.strm_modSweep_ne _ _ hm, Dev.strm_modSweep_ne _ _ hm, Dev.strm_of_lam hwr.lam, Dev.strm_modSweep_ne _ _ hm]

/-! ## Points (R86 to R88) -/

theorem leBytes_lt (n v : Nat) : ∀ b ∈ leBytes n v, b < 256 := by
  induction n generalizing v with
  | zero => exact fun b hb => absurd hb List.not_mem_nil
  | succ n ih =>
    intro b hb
    rcases List.mem_cons.mp hb with rfl | hb
    · exact Nat.mod_lt _ (by decide)
    · exact ih _ b hb

/-- A part of what has been written reads back. -/
theorem Mem.readBytes_writeBytes_part (m : Mem) (a : Nat) (pre mid post : List Nat) (h : ∀ b ∈ mid, b < 256) :
    (m.writeBytes a (pre ++ (mid ++ post))).readBytes (a + pre.length) mid.length = mid := by
  refine List.ext_getElem (by rw [Mem.readBytes, List.length_map, List.length_range]) (fun i h₁ h₂ => ?_)
  have hin : pre.length + i < (pre ++ (mid ++ post)).length := by
    simp only [List.length_append]
    omega
  have hval : (pre ++ (mid ++ post)).getD (pre.length + i) 0 = mid[i] := by
    rw [List.getD_append_right _ _ _ _ (Nat.le_add_right _ _), Nat.add_sub_cancel_left, List.getD_append _ _ _ _ h₂,
      List.getD_eq_getElem _ _ h₂]
  simp only [Mem.readBytes, List.getElem_map, List.getElem_range, Nat.add_assoc]
  rw [Mem.read_writeBytes_in _ _ _ _ hin, hval, BitVec.toNat_ofNat]
  exact Nat.mod_eq_of_lt (h _ (List.getElem_mem h₂))

/-- A point record (Table 5). -/
def LidCfg.pointRec (c : LidCfg) (b j : Nat) (p : List Nat) (xyz : List Num) (since : Int) (packets : Nat) : List Nat :=
  let q := fun k => (c.quantity k b j p).whole
  xyz.flatMap (fun x => leBytes 4 x.toBits32) ++ leBytes 2 (max 0 (min (q 4) 65535)).toNat ++ [((q 5) % 256).toNat, ((q 6) % 256).toNat] ++
    leBytes 4 (ofSigned 32 since) ++ leBytes 4 packets

theorem LidCfg.length_pointRec (c : LidCfg) (b j : Nat) (p : List Nat) {xyz : List Num} (since : Int) (packets : Nat) (h : xyz.length = 3) :
    (c.pointRec b j p xyz since packets).length = 24 := by
  simp only [LidCfg.pointRec, List.length_append, length_flatMap_of_const (fun x _ => length_leBytes 4 (Num.toBits32 x)), h, length_leBytes,
    List.length_cons, List.length_nil]

/-- Its words are the coordinates. -/
theorem LidCfg.pointRec_word (c : LidCfg) (b j : Nat) (p : List Nat) {xyz : List Num} (since : Int) (packets : Nat) {i : Nat} (h : i < xyz.length) :
    ∃ pre post, c.pointRec b j p xyz since packets = pre ++ (leBytes 4 (xyz.getD i numZero).toBits32 ++ post) ∧ pre.length = 4 * i := by
  have hsplit : xyz = xyz.take i ++ xyz.getD i numZero :: xyz.drop (i + 1) := by
    rw [List.getD_eq_getElem _ _ h, List.getElem_cons_drop, List.take_append_drop]
  have hwords : xyz.flatMap (fun x => leBytes 4 x.toBits32) = (xyz.take i).flatMap (fun x => leBytes 4 x.toBits32) ++
      (leBytes 4 (xyz.getD i numZero).toBits32 ++ (xyz.drop (i + 1)).flatMap (fun x => leBytes 4 x.toBits32)) := by
    conv_lhs => rw [hsplit]
    rw [List.flatMap_append, List.flatMap_cons]
  refine ⟨(xyz.take i).flatMap (fun x => leBytes 4 x.toBits32), ?_, ?post, ?length⟩
  case post =>
    rw [LidCfg.pointRec, hwords]
    simp only [List.append_assoc]
    rfl
  case length =>
    rw [length_flatMap_of_const (fun x _ => length_leBytes 4 x.toBits32), List.length_take, Nat.min_eq_left (le_of_lt h), Nat.mul_comm]

theorem Dev.length_coords (d : Dev) (l : Nat) (c : LidCfg) (b j : Nat) (p : List Nat) : (d.coords l c b j p).length = 3 := by
  simp only [Dev.coords]
  split <;> rfl

/-- The block once a point has been counted. -/
def Dev.pointParsed (d : Dev) (l : Nat) : Dev := d.modSweep (32 + l) (fun w => { w with parsed := w.parsed + 1 })

/-- The sweep once a point of time `ts` has been stored in it. -/
def Sweep.pointStored (w : Sweep) (ts : Nat) : Sweep :=
  { w with firstTs := some (w.firstTs.getD ts), lastTs := ts, count := w.count + 1, used := w.used + 24 }

/-- The time from the first point of a sweep to a point at `ts`. -/
def Sweep.since (w : Sweep) (ts : Int) : Int := ts - (w.firstTs.map (fun n => (n : Int))).getD ts

/-- A point within its limits is stored. -/
theorem Dev.takePoint_stored {d : Dev} {l b j t : Nat} {c : LidCfg} {p : List Nat} {w : Sweep} (hw : (d.strm (32 + l)).sweep = some w)
    (hvalid : c.field 8 = none) (hin : (d.coords l c b j p).all (fun x => x.finite && !x.abs.gt (ofBits32 c.limit)) = true)
    (h0 : 0 ≤ c.timeOf b j p t) (hpast : c.timeOf b j p t ≤ t) (hwin : (t : Int) ≤ c.timeOf b j p t + c.timeWin)
    (hsince : (w.since (c.timeOf b j p t)).natAbs ≤ 2147483647) (hroom : w.count ≠ c.maxPts) :
    d.takePoint l c b j p t =
      ((d.pointParsed l).lamWrite (w.addr + 64 + 24 * w.count)
        (c.pointRec b j p (d.coords l c b j p) (w.since (c.timeOf b j p t)) w.packets)).modSweep (32 + l)
          (fun w => w.pointStored (c.timeOf b j p t).toNat) := by
  have hlimits : (d.coords l c b j p).any (fun x => !x.finite || x.abs.gt (ofBits32 c.limit)) = false := by
    rw [List.any_eq_false]
    intro x hx
    have hok := List.all_eq_true.mp hin x hx
    revert hok
    cases x.finite <;> cases x.abs.gt (ofBits32 c.limit) <;> decide
  have hcoords : (d.pointParsed l).coords l c b j p = d.coords l c b j p := rfl
  have hcheck : (((d.pointParsed l).coords l c b j p).any (fun x => !x.finite || x.abs.gt (ofBits32 c.limit)) || decide ((t : Int) < c.timeOf b j p t) ||
      decide (c.timeOf b j p t + c.timeWin < t) || decide (c.timeOf b j p t < 0) || decide (2147483647 < (w.since (c.timeOf b j p t)).natAbs)) =
        false := by
    rw [hcoords, hlimits, decide_eq_false (Int.not_lt.mpr hpast), decide_eq_false (Int.not_lt.mpr hwin), decide_eq_false (Int.not_lt.mpr h0),
      decide_eq_false (Nat.not_lt.mpr hsince)]
    rfl
  unfold Dev.takePoint
  simp only [hw, hvalid, Option.isSome_none, Bool.false_and, Bool.false_eq_true, if_false]
  rw [if_neg (by rw [Bool.not_eq_true]; exact hcheck), if_neg hroom]
  rw [Dev.pointParsed] at hcoords
  rw [hcoords]
  rfl

/-- What a stored point leaves in its sweep and in the buffer. -/
theorem Dev.takePoint_stored_effect {d : Dev} {l b j t : Nat} {c : LidCfg} {p : List Nat} {w : Sweep} (hw : (d.strm (32 + l)).sweep = some w)
    (hvalid : c.field 8 = none) (hin : (d.coords l c b j p).all (fun x => x.finite && !x.abs.gt (ofBits32 c.limit)) = true)
    (h0 : 0 ≤ c.timeOf b j p t) (hpast : c.timeOf b j p t ≤ t) (hwin : (t : Int) ≤ c.timeOf b j p t + c.timeWin)
    (hsince : (w.since (c.timeOf b j p t)).natAbs ≤ 2147483647) (hroom : w.count ≠ c.maxPts)
    (hclean : d.poisonIn (w.addr + 64 + 24 * w.count) 24 = []) (hthere : d.stackLost (w.addr + 64 + 24 * w.count) = false) :
    let e := d.takePoint l c b j p t
    (e.strm (32 + l)).sweep = some (({ w with parsed := w.parsed + 1 } : Sweep).pointStored (c.timeOf b j p t).toNat) ∧
      (∀ a, a < w.addr + 64 + 24 * w.count ∨ w.addr + 64 + 24 * w.count + 24 ≤ a → e.mem.hbm.read a = d.mem.hbm.read a) ∧
      ∀ i, i < 3 → e.rdHbm (w.addr + 64 + 24 * w.count + 4 * i) 4 = leBytes 4 (((d.coords l c b j p).getD i numZero).toBits32) := by
  have hparsed : SameInput d (d.pointParsed l) := d.modSweep_sameInput _ _
  have hsweep : ((d.pointParsed l).strm (32 + l)).sweep = some { w with parsed := w.parsed + 1 } := by
    rw [Dev.pointParsed, Dev.sweep_modSweep_same, hw, Option.map_some]
  have hlen : (c.pointRec b j p (d.coords l c b j p) (w.since (c.timeOf b j p t)) w.packets).length = 24 :=
    c.length_pointRec b j p _ _ (d.length_coords l c b j p)
  have hwr := (d.pointParsed l).lamWrite_writtenIn (w.addr + 64 + 24 * w.count)
    (c.pointRec b j p (d.coords l c b j p) (w.since (c.timeOf b j p t)) w.packets)
  have hfree : (d.pointParsed l).poisonIn (w.addr + 64 + 24 * w.count)
      (c.pointRec b j p (d.coords l c b j p) (w.since (c.timeOf b j p t)) w.packets).length = [] := by
    rw [hlen, hparsed.poisonIn, hclean]
  rw [Dev.takePoint_stored hw hvalid hin h0 hpast hwin hsince hroom]
  refine ⟨?own, fun a ha => ?outside, fun i hi => ?words⟩
  case own => rw [Dev.sweep_modSweep_same, Dev.strm_of_lam hwr.lam, hsweep, Option.map_some]
  case outside => rw [Dev.modSweep_mem, hwr.outside a (by rw [hlen]; exact ha), hparsed.mem]
  case words =>
    obtain ⟨pre, post, hrec, hpre⟩ := c.pointRec_word b j p (xyz := d.coords l c b j p) (w.since (c.timeOf b j p t)) w.packets
      (by rw [d.length_coords l c b j p]; exact hi)
    have hword := Mem.readBytes_writeBytes_part (d.pointParsed l).mem.hbm (w.addr + 64 + 24 * w.count) pre
      (leBytes 4 ((d.coords l c b j p).getD i numZero).toBits32) post (leBytes_lt _ _)
    rw [Dev.rdHbm, Dev.modSweep_mem, Dev.lamWrite_hbm ((hparsed.stackLost _).trans hthere) hfree, hrec, ← hpre]
    rw [length_leBytes] at hword
    exact hword

/-! ## The points of a datagram, in order (R84, R88) -/

/-- Link `l` starts no sweep for a point: one is in progress, or it waits for the next sweep start. -/
def Dev.sweepSettled (d : Dev) (l : Nat) : Prop := (d.strm (32 + l)).sweep.isSome = true ∨ (d.strm (32 + l)).skip = true

theorem Dev.needSweep_settled {d : Dev} {l t : Nat} (h : d.sweepSettled l) : d.needSweep l t = d := by
  refine if_neg ?_
  rcases h with h | h
  · obtain ⟨w, hw⟩ := Option.isSome_iff_exists.mp h
    rw [hw]
    exact Bool.false_ne_true
  · rw [h, Bool.not_true, Bool.and_false]
    exact Bool.false_ne_true

theorem Dev.modSweep_settled {d : Dev} {l s : Nat} (f : Sweep → Sweep) (h : d.sweepSettled l) : (d.modSweep s f).sweepSettled l := by
  by_cases hs : 32 + l = s
  · subst hs
    rw [Dev.sweepSettled, Dev.sweep_modSweep_same, Option.isSome_map, Dev.modSweep, Dev.strm_modStrm_same]
    exact h
  · rw [Dev.sweepSettled, Dev.strm_modSweep_ne _ _ hs]
    exact h

theorem Dev.sweepSettled_of_lam {d e : Dev} {l : Nat} (he : e.lam = d.lam) (h : d.sweepSettled l) : e.sweepSettled l := by
  rw [Dev.sweepSettled, Dev.strm_of_lam he]
  exact h

/-- A point that is taken leaves the values in force and a settled sweep. -/
theorem Dev.takePoint_keeps {d : Dev} {l : Nat} (c : LidCfg) (b j : Nat) (p : List Nat) (t : Nat) (h : d.sweepSettled l) :
    (d.takePoint l c b j p t).sweepSettled l ∧ (d.takePoint l c b j p t).live = d.live := by
  have hparsed := (d.modSweep_sameInput (32 + l) (fun w => { w with parsed := w.parsed + 1 })).live
  have hsettled := Dev.modSweep_settled (s := 32 + l) (fun w => { w with parsed := w.parsed + 1 }) h
  unfold Dev.takePoint
  dsimp only
  split
  · exact ⟨h, rfl⟩
  · split
    · exact ⟨h, rfl⟩
    · split
      · exact ⟨Dev.modSweep_settled _ hsettled, (Dev.modSweep_sameInput _ _ _).live.trans hparsed⟩
      · split
        · have hfail := (d.pointParsed l).lidFail_failedFor l 5
          obtain ⟨-, hskip, -⟩ := hfail.lidar (by decide)
          exact ⟨.inr hskip, hfail.input.live.trans hparsed⟩
        · have hw := Dev.lamWrite_writtenIn (d.pointParsed l)
          exact ⟨Dev.modSweep_settled _ (Dev.sweepSettled_of_lam (hw _ _).lam hsettled),
            (Dev.modSweep_sameInput _ _ _).live.trans ((hw _ _).live.trans hparsed)⟩

/-- Link `l` has points of configuration `c` in force, whose sweeps end with the frame, and starts no sweep for a point. -/
structure PointsInForce (l : Nat) (c : LidCfg) (d : Dev) : Prop where
  cfg : lidCfg d.live l = c
  points : c.points = true
  split : c.split = 2
  settled : d.sweepSettled l

theorem PointsInForce.takePoint {l : Nat} {c : LidCfg} {d : Dev} (h : PointsInForce l c d) (b j : Nat) (p : List Nat) (t : Nat) :
    PointsInForce l c (d.takePoint l c b j p t) := by
  obtain ⟨hsettled, hlive⟩ := Dev.takePoint_keeps c b j p t h.settled
  exact { h with cfg := by rw [hlive, h.cfg], settled := hsettled }

/-- The next point of a datagram. -/
theorem PointsInForce.step {l : Nat} {c : LidCfg} {d : Dev} (h : PointsInForce l c d) (p : List Nat) (t n : Nat) {b : Nat} (j : Nat)
    (hb : b < c.blocks) :
    Dev.points l p t (n + 1) d b j =
      if j + 1 < c.ppb then Dev.points l p t n (d.takePoint l c b j p t) b (j + 1)
      else Dev.points l p t n (d.takePoint l c b j p t) (b + 1) 0 := by
  have haz : d.azimuth (32 + l) c b j p = (d, false) := by
    rw [Dev.azimuth, h.split]
    rfl
  have hflag : c.flagAfter b j p = false := by
    rw [LidCfg.flagAfter, h.split]
    rfl
  simp only [Dev.points, h.cfg, Nat.not_le.mpr hb, if_false, haz, Bool.false_eq_true, Dev.needSweep_settled h.settled, h.points, Bool.not_true, hflag]

/-- The points of block `b` from point `j` on. -/
theorem PointsInForce.block {l : Nat} {c : LidCfg} (p : List Nat) (t n : Nat) {b : Nat} (hb : b < c.blocks) {m : Nat} :
    ∀ {d : Dev} {j : Nat}, PointsInForce l c d → j + (m + 1) = c.ppb →
      ∃ e, (List.range' j (m + 1)).foldl (fun d j => d.takePoint l c b j p t) d = e ∧ PointsInForce l c e ∧
        Dev.points l p t (n + (m + 1)) d b j = Dev.points l p t n e (b + 1) 0 := by
  induction m with
  | zero =>
    intro d j h hj
    refine ⟨_, rfl, h.takePoint b j p t, ?_⟩
    rw [← Nat.add_assoc, Nat.add_zero, h.step p t n j hb, if_neg (by omega)]
    rfl
  | succ m ih =>
    intro d j h hj
    obtain ⟨e, he, hin, hpoints⟩ := ih (h.takePoint b j p t) (show j + 1 + (m + 1) = c.ppb by omega)
    refine ⟨e, he, hin, ?_⟩
    rw [← Nat.add_assoc n (m + 1) 1, h.step p t _ j hb, if_pos (by omega), hpoints]

/-- The blocks of a datagram from block `b` on. -/
theorem PointsInForce.blocks {l : Nat} {c : LidCfg} (p : List Nat) (t n : Nat) (hppb : 1 ≤ c.ppb) {k : Nat} :
    ∀ {d : Dev} {b : Nat}, PointsInForce l c d → b + k = c.blocks →
      Dev.points l p t (n + k * c.ppb) d b 0 =
        (List.range' b k).foldl (fun d b => (List.range c.ppb).foldl (fun d j => d.takePoint l c b j p t) d) d := by
  obtain ⟨m, hm⟩ : ∃ m, m + 1 = c.ppb := ⟨c.ppb - 1, Nat.sub_add_cancel hppb⟩
  induction k with
  | zero =>
    intro d b h hb
    rw [Nat.zero_mul, Nat.add_zero]
    cases n with
    | zero => rfl
    | succ n => simp only [Dev.points, h.cfg, show c.blocks ≤ b by omega, if_true, List.range'_zero, List.foldl_nil]
  | succ k ih =>
    intro d b h hb
    obtain ⟨e, he, hin, hpoints⟩ := PointsInForce.block p t (n + k * c.ppb) (show b < c.blocks by omega) h (show 0 + (m + 1) = c.ppb by omega)
    rw [hm, ← List.range_eq_range'] at he
    rw [hm] at hpoints
    rw [Nat.succ_mul, ← Nat.add_assoc, hpoints, ih hin (by omega), List.range'_succ, List.foldl_cons, he]

theorem Dev.allPoints_inOrder {d : Dev} {l : Nat} (p : List Nat) (t : Nat) (hpts : (lidCfg d.live l).points = true)
    (hsplit : (lidCfg d.live l).split = 2) (hppb : 1 ≤ (lidCfg d.live l).ppb) (hw : (d.strm (32 + l)).sweep.isSome = true) :
    d.allPoints l p t =
      (lidCfg d.live l).pointList.foldl (fun (e : Dev) q => e.takePoint l (lidCfg d.live l) q.1 q.2 p t) d := by
  have hin : PointsInForce l (lidCfg d.live l) d := ⟨rfl, hpts, hsplit, .inl hw⟩
  rw [LidCfg.pointList, List.foldl_flatMap, List.range_eq_range' (n := (lidCfg d.live l).blocks)]
  simp only [List.foldl_map]
  rw [Dev.allPoints, Nat.add_comm]
  exact hin.blocks p t _ hppb (Nat.zero_add _)

/-! ## The statement -/

/-- An Ethernet frame whose datagram is lost, in a sweep that may lose one more. -/
theorem Dev.lost_counted_effect {d : Dev} {l t : Nat} {p : List Nat} {bad : Bool} {w : Sweep} (hlate : d.sweepLate l t = 0)
    (hw : (d.strm (32 + l)).sweep = some w) (hbad : bad = true ∨ p.length < (lidCfg d.live l).need) (hless : w.lost < (lidCfg d.live l).lossMax) :
    let e := d.datagram l p bad t
    (e.strm (32 + l)).sweep = some { w with lost := w.lost + 1 } ∧ (∀ m, m ≠ 32 + l → e.strm m = d.strm m) ∧ e.mem = d.mem ∧
      e.regs = d.regs := by
  rw [Dev.datagram_lost hlate hw hbad]
  simp only [Nat.not_lt.mpr (Nat.succ_le_of_lt hless), if_false]
  exact ⟨by rw [Dev.sweep_modSweep_same, hw, Option.map_some], fun m hm => Dev.strm_modSweep_ne d _ hm, Dev.modSweep_mem _ _ _,
    Dev.modSweep_regs _ _ _⟩

/-- And in one that may not. -/
theorem Dev.lost_fails_effect {d : Dev} {l t : Nat} {p : List Nat} {bad : Bool} {w : Sweep} (hlate : d.sweepLate l t = 0)
    (hw : (d.strm (32 + l)).sweep = some w) (hbad : bad = true ∨ p.length < (lidCfg d.live l).need) (hmax : (lidCfg d.live l).lossMax ≤ w.lost) :
    let e := d.datagram l p bad t
    (e.strm (32 + l)).sweep = none ∧ e.f (F.LAM_LID_STAT.LAST_ERR l) = 3 ∧ (∀ m, m ≠ 32 + l → e.strm m = d.strm m) ∧ e.mem = d.mem := by
  have hfail := (d.modSweep (32 + l) (fun w => { w with lost := w.lost + 1 })).lidFail_failedFor l 3
  obtain ⟨hsweep, -, herr⟩ := hfail.lidar (by decide)
  rw [Dev.datagram_lost hlate hw hbad]
  simp only [Nat.lt_succ_of_le hmax, if_true]
  exact ⟨hsweep, herr, fun m hm => (hfail.others m hm).trans (Dev.strm_modSweep_ne d _ hm), hfail.input.mem.trans (Dev.modSweep_mem _ _ _)⟩

/-- Settles O52: a datagram is lost, stored whole or read point by point, and what is stored goes to the next place of its sweep's buffer. -/
theorem lidarSweeps : Obligations.LidarSweeps := by
  unfold Obligations.LidarSweeps
  refine ⟨?idle, ?busy, ?refused, ?frame, ?point, ?inOrder, ?gap, ?sweep⟩
  case idle =>
    intro d l ha hl _ hok hw
    refine completes_upd (f := fun d => if l < 4 then d.lidApply l else d) (fun _ => rfl) ha ?_
    rw [if_pos hl]
    exact Dev.lidApply_idle_effect hok hw
  case busy =>
    intro d l ha hl hok hw
    refine completes_upd (f := fun d => if l < 4 then d.lidApply l else d) (fun _ => rfl) ha ?_
    rw [if_pos hl]
    exact Dev.lidApply_busy_effect hok hw
  case refused =>
    intro d l ha hl hok
    exact does_upd_eq (fun d => if l < 4 then d.lidApply l else d) (fun _ => rfl) ha ((if_pos hl).trans (Dev.lidApply_refused hok))
  case frame =>
    intro d mac t src port bytes p bad ha hmac hlen hon hen hudp hport hsrc now start x c
    have htaken := Dev.ethFrame_taken t hmac hlen hon hen hudp hport hsrc
    have hx : x = now.readUnder mac := rfl
    have hnow : SameInput d now := d.atTime_sameInput t
    have hkeep : ∀ w, (d.strm (32 + mac)).sweep = some w → c = lidCfg now.live mac := fun w hw => by
      rw [show c = lidCfg (now.readUnder mac).live mac from rfl, Dev.readUnder_sweeping (d := now) hw]
    refine ⟨fun hpts hbad hneed hlate => ?points, fun w hbad hw hlate hless => ?counted, fun w hbad hw hlate hmax => ?fails,
      fun w hbad hneed hpts hsplit hw hlate hroom hclean hthere => ?packet⟩
    case points =>
      subst hbad
      refine does_upd_eq (fun d => d.ethFrame mac bytes true t) (fun _ => rfl) ha (htaken.trans ?_)
      have hread := Dev.datagram_read (d := now) hlate hneed
      rw [← hx] at hread
      rw [hread]
      simp only [show (lidCfg x.live mac).points = true from hpts, if_true]
    case counted =>
      refine completes_upd (f := fun d => d.ethFrame mac bytes true t) (fun _ => rfl) ha ?_
      rw [hkeep w hw] at hbad hless
      rw [htaken]
      exact Dev.lost_counted_effect (d := now) hlate hw hbad hless
    case fails =>
      refine completes_upd (f := fun d => d.ethFrame mac bytes true t) (fun _ => rfl) ha ?_
      rw [hkeep w hw] at hbad hmax
      rw [htaken]
      exact Dev.lost_fails_effect (d := now) hlate hw hbad hmax
    case packet =>
      subst hbad
      refine completes_upd (f := fun d => d.ethFrame mac bytes true t) (fun _ => rfl) ha ?_
      rw [hkeep w hw] at hneed hpts hsplit hroom ⊢
      rw [htaken]
      exact Dev.packet_effect (d := now) hlate hw hneed hpts hsplit hroom ((hnow.poisonIn _ _).trans hclean)
        ((hnow.stackLost _).trans hthere)
  case point =>
    intro d l b j t p w hw c xyz ts first hvalid hin h0 hpast hwin hsince hroom hclean hthere
    exact Dev.takePoint_stored_effect hw hvalid hin h0 hpast hwin hsince hroom hclean hthere
  case inOrder =>
    intro d l t p c hpts hsplit hppb hw
    exact Dev.allPoints_inOrder p t hpts hsplit hppb hw
  case gap =>
    intro d l t ha hl hlate hready
    refine completes_upd (f := fun d => d.gapTimeout l t) (fun _ => rfl) ha ?_
    rw [Dev.gapTimeout_late hlate]
    exact d.sweepTimedOut_effect t hl (by decide) hready
  case sweep =>
    intro d l t w ha hl hw hready ht
    refine completes_upd (f := fun d => d.sweepTimeout l t) (fun _ => rfl) ha ?_
    rw [Dev.sweepTimeout_late hw ht]
    exact d.sweepTimedOut_effect t hl (by decide) hready

end Sys2Proof.Machine
end

section
/-!
PROOFS. What the operations of rings do, for O36 to O39: context commands and their end (R103), the record of a ring command (R113, R117), and
the ring going on behind it.
-/
namespace Sys2Proof.Machine

/-! ## Keys of contexts (R101) -/

theorem ckey_div (fn : Nat) {ctx : Nat} (h : ctx < 4096) : ckey fn ctx / 4096 = fn := by
  rw [ckey, Nat.add_comm, Nat.add_mul_div_right _ _ (by decide), Nat.div_eq_of_lt h, Nat.zero_add]

/-! ## The end of a context command (R103) -/

theorem Dev.reg_send (d : Dev) (m : Tx) (o : Nat) : (d.send m).reg o = d.reg o := rfl

/-- A function event sets its bit, and beside it only sends a message. -/
theorem Dev.fnEvent_cases (d : Dev) (fn ev : Nat) :
    d.fnEvent fn ev = d.set ⟨R.HIF_FN_EVENT fn, ev, ev⟩ 1 ∨
    d.fnEvent fn ev = (d.set ⟨R.HIF_FN_EVENT fn, ev, ev⟩ 1).send (.msix fn 0) := by
  rw [Dev.fnEvent]
  split
  · exact .inl rfl
  · exact .inr rfl

theorem Dev.fnEvent_keeps (d : Dev) (fn ev : Nat) :
    (∀ o, (d.fnEvent fn ev).reg o = (d.set ⟨R.HIF_FN_EVENT fn, ev, ev⟩ 1).reg o) ∧ (d.fnEvent fn ev).ctxs = d.ctxs ∧
    (d.fnEvent fn ev).mem = d.mem ∧ (d.fnEvent fn ev).runs = d.runs := by
  rcases d.fnEvent_cases fn ev with h | h
  · rw [h, Dev.set_ctxs, Dev.set_mem, Dev.set_runs]
    exact ⟨fun _ => rfl, rfl, rfl, rfl⟩
  · rw [h, Dev.send_ctxs, Dev.send_mem, Dev.send_runs, Dev.set_ctxs, Dev.set_mem, Dev.set_runs]
    exact ⟨fun _ => Dev.reg_send _ _ _, rfl, rfl, rfl⟩

/-- An operation of HIF_FN_CTX_CMD of function `fn` has ended with a status, and done nothing else to contexts, commands and memory. -/
structure OpEnded (fn status : Nat) (d e : Dev) : Prop where
  status : e.f (F.HIF_FN_CTX_CMD.STATUS fn) = status
  busy : e.on (F.HIF_FN_CTX_CMD.BUSY fn) = false
  opDone : e.on (F.HIF_FN_EVENT.OP_DONE fn) = true
  ctxs : e.ctxs = d.ctxs
  mem : e.mem = d.mem
  runs : e.runs = d.runs

theorem ctxCmd_ne_event (fn : Nat) : R.HIF_FN_CTX_CMD fn ≠ R.HIF_FN_EVENT fn := by
  unfold R.HIF_FN_CTX_CMD R.HIF_FN_EVENT
  omega

theorem Dev.opDone_ended (d : Dev) (fn : Nat) {status : Nat} (h : status < 256) : OpEnded fn status d (d.opDone fn status) := by
  obtain ⟨hreg, hctxs, hmem, hruns⟩ :=
    Dev.fnEvent_keeps ((d.set (F.HIF_FN_CTX_CMD.STATUS fn) status).set (F.HIF_FN_CTX_CMD.BUSY fn) 0) fn 3
  rw [← Dev.opDone] at hreg hctxs hmem hruns
  have hcmd := (hreg (R.HIF_FN_CTX_CMD fn)).trans (Dev.reg_set_ne _ _ _ _ (ctxCmd_ne_event fn))
  constructor
  case status =>
    have hset := (Dev.f_set_same d (F.HIF_FN_CTX_CMD.STATUS fn) status rfl).trans (Nat.mod_eq_of_lt h)
    have hbusy := Dev.f_set_bits (d.set (F.HIF_FN_CTX_CMD.STATUS fn) status) (x := F.HIF_FN_CTX_CMD.BUSY fn)
      (y := F.HIF_FN_CTX_CMD.STATUS fn) 0 rfl rfl (.inr (Nat.lt_succ_self 15))
    exact (Dev.f_of_reg (x := F.HIF_FN_CTX_CMD.STATUS fn) hcmd).trans (hbusy.trans hset)
  case busy => exact (Dev.on_of_reg (x := F.HIF_FN_CTX_CMD.BUSY fn) hcmd).trans (Dev.on_set_zero _ rfl)
  case opDone =>
    exact (Dev.on_of_reg (x := F.HIF_FN_EVENT.OP_DONE fn) (hreg _)).trans (Dev.on_set_b2n _ (x := F.HIF_FN_EVENT.OP_DONE fn) rfl rfl true)
  case ctxs => rw [hctxs, Dev.set_ctxs, Dev.set_ctxs]
  case mem => rw [hmem, Dev.set_mem, Dev.set_mem]
  case runs => rw [hruns, Dev.set_runs, Dev.set_runs]

/-- An operation of HIF_FN_CTX_CMD of function `fn` has been written to `d`, and starts on `e` (Table 3 of R103). -/
structure CmdStarted (fn : Nat) (d e : Dev) : Prop where
  addr : e.f (F.HIF_FN_CTX_ADDR.ADDR fn) = d.f (F.HIF_FN_CTX_ADDR.ADDR fn)
  ctxs : e.ctxs = d.ctxs
  mem : e.mem = d.mem
  runs : e.runs = d.runs
  now : e.now = d.now
  pinned : ∀ key, e.pinned key = d.pinned key

theorem CmdStarted.ctx {fn : Nat} {d e : Dev} (h : CmdStarted fn d e) (key : Nat) : e.ctx key = d.ctx key := by
  rw [Dev.ctx, h.ctxs, Dev.ctx]

theorem ctxAddr_ne_ctxCmd (fn : Nat) : R.HIF_FN_CTX_ADDR fn ≠ R.HIF_FN_CTX_CMD fn := by
  unfold R.HIF_FN_CTX_ADDR R.HIF_FN_CTX_CMD
  omega

/-- A field of HIF_FN_CTX_CMD is set. -/
theorem Dev.set_cmdStarted (d : Dev) {x : Fld} {fn : Nat} (n : Nat) (h : x.off = R.HIF_FN_CTX_CMD fn) : CmdStarted fn d (d.set x n) where
  addr := Dev.f_set_off _ _ (h ▸ ctxAddr_ne_ctxCmd fn)
  ctxs := rfl
  mem := rfl
  runs := rfl
  now := rfl
  pinned := Kept.pinned_eq (Dev.set_kept (.refl d) n (fnReg_minor fn h (by decide)))

theorem CmdStarted.trans {fn : Nat} {a b c : Dev} (h₁ : CmdStarted fn a b) (h₂ : CmdStarted fn b c) : CmdStarted fn a c where
  addr := h₂.addr.trans h₁.addr
  ctxs := h₂.ctxs.trans h₁.ctxs
  mem := h₂.mem.trans h₁.mem
  runs := h₂.runs.trans h₁.runs
  now := h₂.now.trans h₁.now
  pinned key := (h₂.pinned key).trans (h₁.pinned key)

/-- Where BUSY is 0, the operation starts. -/
theorem Dev.ctxCmd_idle {d : Dev} {fn : Nat} (ctx op : Nat) (go : Dev → Dev) (hw : d.rst.warm = false) (hl : d.sec.overLink = false)
    (hb : d.on (F.HIF_FN_CTX_CMD.BUSY fn) = false) : ∃ e, d.ctxCmd fn ctx op go = go e ∧ CmdStarted fn d e := by
  refine ⟨(d.set (F.HIF_FN_CTX_CMD.CTX fn) ctx).set (F.HIF_FN_CTX_CMD.OP fn) op, ?_, ?_⟩
  · simp only [Dev.ctxCmd, hw, hl, hb, Bool.or_self, Bool.false_eq_true, if_false]
  · exact (d.set_cmdStarted (x := F.HIF_FN_CTX_CMD.CTX fn) ctx rfl).trans (Dev.set_cmdStarted _ (x := F.HIF_FN_CTX_CMD.OP fn) op rfl)

/-! ## The ring goes on -/

theorem Dev.leaveTurn_shape (d : Dev) (key : Nat) : ∃ turns, d.leaveTurn key = { d with turns := turns } := by
  unfold Dev.leaveTurn
  dsimp only
  split_ifs
  · exact ⟨d.turns, rfl⟩
  · exact ⟨_, rfl⟩

theorem Dev.pumpCtx_eq {d : Dev} {key : Nat} {c : Ctx} (h : d.ctx key = some c) :
    d.pumpCtx key = (d.pump key (c.cmds.length + 2 ^ c.sqLog2 + 2)).leaveTurn key := by
  rw [Dev.pumpCtx, h]

/-- A ring that has no command goes on with nothing. -/
theorem Dev.pump_empty {d : Dev} {key : Nat} {c : Ctx} (h : d.ctx key = some c) (he : c.ending = none) (hk : c.cmds = []) (n : Nat) :
    d.pump key n = d := by
  cases n with
  | zero => rfl
  | succ n => simp only [Dev.pump, h, he, hk]

/-- Nor does one whose oldest command waits for its dispatch. -/
theorem Dev.pump_fetched {d : Dev} {key : Nat} {c : Ctx} {k : RingCmd} {ks : List RingCmd} (h : d.ctx key = some c) (he : c.ending = none)
    (hk : c.cmds = k :: ks) (hs : k.st = .fetched) (n : Nat) : d.pump key n = d := by
  cases n with
  | zero => rfl
  | succ n => simp only [Dev.pump, h, he, hk, hs]

/-- A descriptor that failed its check completes in its turn (R113). -/
theorem Dev.pump_failed {d : Dev} {key s : Nat} {c : Ctx} {k : RingCmd} {ks : List RingCmd} (h : d.ctx key = some c) (he : c.ending = none)
    (hk : c.cmds = k :: ks) (hs : k.st = .failed s) (n : Nat) : d.pump key (n + 1) = (d.endHead key s 0 0 0).pump key n := by
  simp only [Dev.pump, h, he, hk, hs]

/-- DESTROY ends with a ring that has no command (R107). -/
theorem Dev.pump_destroyed {d : Dev} {key t : Nat} {c : Ctx} (h : d.ctx key = some c) (he : c.ending = some (true, t)) (hk : c.cmds = [])
    (n : Nat) : d.pump key (n + 1) = (d.freeCtx key).opDone (key / 4096) stOk := by
  simp only [Dev.pump, h, he, hk]

/-- ABORT ends with a ring that has no command, fetched or not (R107). -/
theorem Dev.pump_aborted {d : Dev} {key t : Nat} {c : Ctx} (h : d.ctx key = some c) (he : c.ending = some (false, t)) (hk : c.cmds = [])
    (hf : c.fetch = t) (n : Nat) :
    d.pump key (n + 1) = (d.modCtx key (fun c => { c with ending := none })).opDone (key / 4096) stOk := by
  simp only [Dev.pump, h, he, hk, hf, if_true]

/-- What a ring that goes on with nothing leaves. -/
theorem Dev.pumpCtx_of_pump_self {d : Dev} {key : Nat} {c : Ctx} (h : d.ctx key = some c) (hp : ∀ n, d.pump key n = d) :
    ∃ turns, d.pumpCtx key = { d with turns := turns } := by
  rw [Dev.pumpCtx_eq h, hp]
  exact d.leaveTurn_shape key

theorem Dev.closeWhere_shape (d : Dev) (p : Window → Bool) : ∃ lnk, d.closeWhere p = { d with lnk := lnk } := by
  unfold Dev.closeWhere
  generalize d.lnk.windows.filter (fun q => q.2.opened && p q.2) = l
  induction l generalizing d with
  | nil => exact ⟨d.lnk, rfl⟩
  | cons q l ih =>
    obtain ⟨lnk, h⟩ := ih (d.setWindow q.1 (closeWindow q.2))
    exact ⟨lnk, by rw [List.foldl_cons, h]; rfl⟩

/-- DESTROY frees the number of its context, and closes its windows (R107, R437). -/
theorem Dev.freeCtx_shape (d : Dev) (key : Nat) :
    ∃ lnk turns, d.freeCtx key = { d with ctxs := merase d.ctxs key, lnk := lnk, turns := turns } := by
  obtain ⟨lnk, h⟩ := d.closeWhere_shape (fun w => ckey w.part w.ctx == key)
  exact ⟨lnk, d.turns.filter (fun k => k != key), by rw [Dev.freeCtx, h]; rfl⟩

/-! ## Records (R117 to R120) -/

/-- A context whose ring is as it was, but for commands that have ended and records that have been written. -/
structure SameRing (c c' : Ctx) : Prop where
  sqBase : c'.sqBase = c.sqBase
  tail : c'.tail = c.tail
  heldTail : c'.heldTail = c.heldTail
  fetch : c'.fetch = c.fetch
  ending : c'.ending = c.ending

theorem SameRing.refl (c : Ctx) : SameRing c c := ⟨rfl, rfl, rfl, rfl, rfl⟩

theorem SameRing.trans {a b c : Ctx} (h₁ : SameRing a b) (h₂ : SameRing b c) : SameRing a c :=
  ⟨h₂.sqBase.trans h₁.sqBase, h₂.tail.trans h₁.tail, h₂.heldTail.trans h₁.heldTail, h₂.fetch.trans h₁.fetch, h₂.ending.trans h₁.ending⟩

theorem Dev.ctx_modCtx_some {d : Dev} {key : Nat} {c : Ctx} (f : Ctx → Ctx) (h : d.ctx key = some c) :
    (d.modCtx key f).ctx key = some (f c) := by
  rw [Dev.ctx_modCtx_same, h, Option.map_some]

/-- The interrupt of a record reaches contexts and messages only, and of its own context only what is unsignalled. -/
theorem Dev.signalRec_effect {d : Dev} {key : Nat} {c : Ctx} (b : Bool) (h : d.ctx key = some c) :
    (∃ ctxs out, d.signalRec key b = { d with ctxs := ctxs, out := out }) ∧
    ∃ u us, (d.signalRec key b).ctx key = some { c with unsig := u, unsigSince := us } := by
  unfold Dev.signalRec
  simp only [h]
  split_ifs
  · exact ⟨⟨d.ctxs, d.out, rfl⟩, c.unsig, c.unsigSince, h⟩
  · exact ⟨⟨_, _, rfl⟩, _, _, Dev.ctx_modCtx_some (fun c => { c with unsig := 0, unsigSince := none }) h⟩
  · exact ⟨⟨_, d.out, rfl⟩, _, _,
      Dev.ctx_modCtx_some (fun c => { c with unsig := c.unsig + 1, unsigSince := c.unsigSince.or (some d.now) }) h⟩

theorem Dev.wrHost_shape (d : Dev) (a : Nat) (bs : List Nat) : ∃ host, d.wrHost a bs = { d with mem := { d.mem with host := host } } := by
  unfold Dev.wrHost
  split
  · exact ⟨_, rfl⟩
  · exact ⟨d.mem.host, rfl⟩

theorem Dev.wrHost_linkUp {d : Dev} (a : Nat) (bs : List Nat) (h : d.rst.linkUp = true) :
    d.wrHost a bs = { d with mem := { d.mem with host := d.mem.host.writeBytes a bs } } := if_pos h

/-- The block with a record in host memory, at its place in the completion ring of a context (R117). -/
def Dev.recordWritten (d : Dev) (c : Ctx) (r : Rec) : Dev :=
  d.wrHost (c.cqBase + 32 * (c.written % c.size)) (d.recBytes r (c.written / c.size % 2 == 0))

/-- A record is written at its place in the completion ring, and counted there; beside it only messages are sent. -/
theorem Dev.emit_effect {d : Dev} {key : Nat} {c : Ctx} (r : Rec) (h : d.ctx key = some c) (ha : c.attached = true) :
    (∃ ctxs out, d.emit key r = { d.recordWritten c r with ctxs := ctxs, out := out }) ∧
    ∃ u us, (d.emit key r).ctx key =
      some { c with written := c.written + 1, unread := c.unread + 1, unsig := u, unsigSince := us } := by
  have hmid : ((d.recordWritten c r).modCtx key (fun c => { c with written := c.written + 1, unread := c.unread + 1 })).ctx key =
      some { c with written := c.written + 1, unread := c.unread + 1 } := by
    refine Dev.ctx_modCtx_some (fun c => { c with written := c.written + 1, unread := c.unread + 1 }) ?_
    obtain ⟨host, hw⟩ := d.wrHost_shape (c.cqBase + 32 * (c.written % c.size)) (d.recBytes r (c.written / c.size % 2 == 0))
    rw [Dev.recordWritten, hw]
    exact h
  obtain ⟨⟨ctxs, out, hs⟩, u, us, hc⟩ := Dev.signalRec_effect (r.irq || r.status != 0 || r.kind == 2) hmid
  have he : d.emit key r = ((d.recordWritten c r).modCtx key
      (fun c => { c with written := c.written + 1, unread := c.unread + 1 })).signalRec key (r.irq || r.status != 0 || r.kind == 2) := by
    simp only [Dev.emit, h, ha, Bool.not_true, Bool.false_eq_true, if_false, Dev.recordWritten]
  rw [he]
  exact ⟨⟨ctxs, out, hs⟩, u, us, hc⟩

theorem Dev.emit_detached {d : Dev} {key : Nat} {c : Ctx} (r : Rec) (h : d.ctx key = some c) (ha : c.attached = false) : d.emit key r = d := by
  simp only [Dev.emit, h, ha, Bool.not_false, if_true]

/-- The end of the oldest ring command, of a ring that goes on and with a record due (R118). -/
theorem Dev.endHead_recorded {d : Dev} {key status : Nat} {c : Ctx} {k : RingCmd} {ks : List RingCmd} (detail slow info : Nat)
    (h : d.ctx key = some c) (he : c.ending = none) (hk : c.cmds = k :: ks) (hi : k.idx < 65536)
    (hq : (maskHas (k.bytes.getD 1 0) 1 && status == 0) = false) :
    d.endHead key status detail slow info = (d.modCtx key (fun c => { c with cmds := ks })).emit key
      ⟨0, bfield k.bytes 8 8, k.idx, status, detail, slow, info, maskHas (k.bytes.getD 1 0) 0⟩ := by
  have hr : k.replays = false := decide_eq_false (Nat.not_le.mpr hi)
  simp only [Dev.endHead, h, hk, he, hr, hq, Bool.or_self, Bool.false_eq_true, if_false]

/-- Whatever ends, the ring is as it was. -/
theorem Dev.endHead_sameRing {d : Dev} {key : Nat} {c : Ctx} (status detail slow info : Nat) (h : d.ctx key = some c) :
    ∃ c', (d.endHead key status detail slow info).ctx key = some c' ∧ SameRing c c' := by
  unfold Dev.endHead
  simp only [h]
  cases hk : c.cmds with
  | nil => exact ⟨c, h, .refl c⟩
  | cons k ks =>
    have hmod : (d.modCtx key (fun c => { c with cmds := ks })).ctx key = some { c with cmds := ks } :=
      Dev.ctx_modCtx_some (fun c => { c with cmds := ks }) h
    dsimp only
    split_ifs
    · exact ⟨_, hmod, ⟨rfl, rfl, rfl, rfl, rfl⟩⟩
    · exact ⟨_, hmod, ⟨rfl, rfl, rfl, rfl, rfl⟩⟩
    · exact ⟨_, hmod, ⟨rfl, rfl, rfl, rfl, rfl⟩⟩
    · cases ha : c.attached with
      | false =>
        rw [Dev.emit_detached _ hmod ha]
        exact ⟨_, hmod, ⟨rfl, rfl, rfl, rfl, rfl⟩⟩
      | true =>
        obtain ⟨-, u, us, hc⟩ := Dev.emit_effect ⟨0, bfield k.bytes 8 8, k.idx, status, detail, slow, info, maskHas (k.bytes.getD 1 0) 0⟩
          hmod ha
        exact ⟨_, hc, ⟨rfl, rfl, rfl, rfl, rfl⟩⟩

/-- A ring that no ABORT or DESTROY ends stays as it was while it goes on. -/
theorem Dev.pump_sameRing (key n : Nat) {d : Dev} {c : Ctx} (h : d.ctx key = some c) (he : c.ending = none) :
    ∃ c', (d.pump key n).ctx key = some c' ∧ SameRing c c' := by
  induction n generalizing d c with
  | zero => exact ⟨c, h, .refl c⟩
  | succ n ih =>
    cases hk : c.cmds with
    | nil =>
      rw [Dev.pump_empty h he hk]
      exact ⟨c, h, .refl c⟩
    | cons k ks =>
      by_cases hf : ∃ s, k.st = .failed s
      · obtain ⟨s, hs⟩ := hf
        obtain ⟨c₁, h₁, hr₁⟩ := Dev.endHead_sameRing s 0 0 0 h
        obtain ⟨c₂, h₂, hr₂⟩ := ih h₁ (hr₁.ending.trans he)
        rw [Dev.pump_failed h he hk hs]
        exact ⟨c₂, h₂, hr₁.trans hr₂⟩
      · have hp : d.pump key (n + 1) = d := by
          simp only [Dev.pump, h, he, hk]
          split
          · next s hs => exact absurd ⟨s, hs⟩ hf
          · rfl
        rw [hp]
        exact ⟨c, h, .refl c⟩

theorem Dev.pumpCtx_sameRing {d : Dev} {key : Nat} {c : Ctx} (h : d.ctx key = some c) (he : c.ending = none) :
    ∃ c', (d.pumpCtx key).ctx key = some c' ∧ SameRing c c' := by
  obtain ⟨c', hc, hr⟩ := Dev.pump_sameRing key (c.cmds.length + 2 ^ c.sqLog2 + 2) h he
  obtain ⟨turns, ht⟩ := (d.pump key (c.cmds.length + 2 ^ c.sqLog2 + 2)).leaveTurn_shape key
  rw [Dev.pumpCtx_eq h, ht]
  exact ⟨c', hc, hr⟩

end Sys2Proof.Machine
end

section
/-!
PROOFS. CREATE (O36): the checks of a set-up block in their order, and the context that a block in order makes.
-/
namespace Sys2Proof.Machine

/-! ## The checks of a set-up block (R106, R114) -/

/-- The bytes that are reserved are zero; no size is zero; sizes and vector are in range and the context is free; the rings are aligned. -/
def setupClean (b : List Nat) : Prop := b.getD 21 0 < 4 ∧ zeroBytes b 22 64 = true
def setupSized (b : List Nat) : Prop := b.getD 16 0 ≠ 0 ∧ b.getD 17 0 ≠ 0
def setupBound (b : List Nat) (inUse : Bool) : Prop := b.getD 16 0 ≤ 16 ∧ b.getD 17 0 ≤ 16 ∧ b.getD 18 0 ≤ 127 ∧ inUse = false
def setupAligned (b : List Nat) : Prop := bfield b 0 8 % 4096 = 0 ∧ bfield b 8 8 % 4096 = 0

theorem setupStatus_unclean {b : List Nat} (inUse : Bool) (h : ¬ setupClean b) : setupStatus b inUse = stReserved := by
  refine if_pos ?_
  rw [setupClean, not_and_or, Nat.not_lt, Bool.not_eq_true] at h
  rw [Bool.or_eq_true, decide_eq_true_eq, Bool.not_eq_true']
  exact h

theorem setupStatus_clean {b : List Nat} (inUse : Bool) (h : setupClean b) : setupStatus b inUse =
    (if b.getD 16 0 == 0 || b.getD 17 0 == 0 then stZero
    else if 16 < b.getD 16 0 || 16 < b.getD 17 0 || 127 < b.getD 18 0 || inUse then stBounds
    else if bfield b 0 8 % 4096 != 0 || bfield b 8 8 % 4096 != 0 then stAlign else stOk) := by
  refine if_neg ?_
  rw [Bool.or_eq_true, decide_eq_true_eq, Bool.not_eq_true', not_or, Nat.not_le, Bool.not_eq_false]
  exact h

theorem setupStatus_unsized {b : List Nat} (inUse : Bool) (hc : setupClean b) (h : ¬ setupSized b) : setupStatus b inUse = stZero := by
  rw [setupStatus_clean inUse hc]
  refine if_pos ?_
  rw [setupSized, not_and_or, not_not, not_not] at h
  rw [Bool.or_eq_true, beq_iff_eq, beq_iff_eq]
  exact h

theorem setupStatus_sized {b : List Nat} (inUse : Bool) (hc : setupClean b) (h : setupSized b) : setupStatus b inUse =
    (if 16 < b.getD 16 0 || 16 < b.getD 17 0 || 127 < b.getD 18 0 || inUse then stBounds
    else if bfield b 0 8 % 4096 != 0 || bfield b 8 8 % 4096 != 0 then stAlign else stOk) := by
  rw [setupStatus_clean inUse hc]
  refine if_neg ?_
  rw [Bool.or_eq_true, beq_iff_eq, beq_iff_eq, not_or]
  exact h

/-- The operands are in range just where the third check passes. -/
theorem setupBound_iff (b : List Nat) (inUse : Bool) : setupBound b inUse ↔
    ¬ (decide (16 < b.getD 16 0) || decide (16 < b.getD 17 0) || decide (127 < b.getD 18 0) || inUse) = true := by
  simp only [setupBound, Bool.or_eq_true, decide_eq_true_eq, not_or, Nat.not_lt, Bool.not_eq_true, and_assoc]

theorem setupStatus_unbound {b : List Nat} {inUse : Bool} (hc : setupClean b) (hs : setupSized b) (h : ¬ setupBound b inUse) :
    setupStatus b inUse = stBounds := by
  rw [setupStatus_sized inUse hc hs]
  exact if_pos (not_not.mp (mt (setupBound_iff b inUse).mpr h))

theorem setupStatus_bound {b : List Nat} {inUse : Bool} (hc : setupClean b) (hs : setupSized b) (h : setupBound b inUse) :
    setupStatus b inUse = if bfield b 0 8 % 4096 != 0 || bfield b 8 8 % 4096 != 0 then stAlign else stOk := by
  rw [setupStatus_sized inUse hc hs]
  exact if_neg ((setupBound_iff b inUse).mp h)

theorem setupStatus_unaligned {b : List Nat} {inUse : Bool} (hc : setupClean b) (hs : setupSized b) (hb : setupBound b inUse)
    (h : ¬ setupAligned b) : setupStatus b inUse = stAlign := by
  rw [setupStatus_bound hc hs hb]
  refine if_pos ?_
  rw [setupAligned, not_and_or] at h
  rw [Bool.or_eq_true, bne_iff_ne, bne_iff_ne]
  exact h

theorem setupStatus_ok {b : List Nat} {inUse : Bool} (hc : setupClean b) (hs : setupSized b) (hb : setupBound b inUse)
    (h : setupAligned b) : setupStatus b inUse = stOk := by
  rw [setupStatus_bound hc hs hb]
  refine if_neg ?_
  rw [Bool.or_eq_true, bne_iff_ne, bne_iff_ne, not_or, not_not, not_not]
  exact h

/-- The status names the first check that fails. -/
theorem setupStatus_cases (b : List Nat) (inUse : Bool) :
    (¬ setupClean b ∧ setupStatus b inUse = stReserved) ∨
    (setupClean b ∧ ¬ setupSized b ∧ setupStatus b inUse = stZero) ∨
    (setupClean b ∧ setupSized b ∧ ¬ setupBound b inUse ∧ setupStatus b inUse = stBounds) ∨
    (setupClean b ∧ setupSized b ∧ setupBound b inUse ∧ ¬ setupAligned b ∧ setupStatus b inUse = stAlign) ∨
    (setupClean b ∧ setupSized b ∧ setupBound b inUse ∧ setupAligned b ∧ setupStatus b inUse = stOk) := by
  by_cases hc : setupClean b
  · by_cases hs : setupSized b
    · by_cases hb : setupBound b inUse
      · by_cases ha : setupAligned b
        · exact .inr (.inr (.inr (.inr ⟨hc, hs, hb, ha, setupStatus_ok hc hs hb ha⟩)))
        · exact .inr (.inr (.inr (.inl ⟨hc, hs, hb, ha, setupStatus_unaligned hc hs hb ha⟩)))
      · exact .inr (.inr (.inl ⟨hc, hs, hb, setupStatus_unbound hc hs hb⟩))
    · exact .inr (.inl ⟨hc, hs, setupStatus_unsized inUse hc hs⟩)
  · exact .inl ⟨hc, setupStatus_unclean inUse hc⟩

theorem setupStatus_lt (b : List Nat) (inUse : Bool) : setupStatus b inUse < 256 := by
  rcases setupStatus_cases b inUse with ⟨-, h⟩ | ⟨-, -, h⟩ | ⟨-, -, -, h⟩ | ⟨-, -, -, -, h⟩ | ⟨-, -, -, -, h⟩ <;> rw [h] <;> decide

/-- Each status, and the checks that it tells of. -/
theorem setupStatus_iff (b : List Nat) (inUse : Bool) :
    (setupStatus b inUse = stReserved ↔ ¬ setupClean b) ∧
    (setupStatus b inUse = stZero ↔ setupClean b ∧ ¬ setupSized b) ∧
    (setupStatus b inUse = stBounds ↔ setupClean b ∧ setupSized b ∧ ¬ setupBound b inUse) ∧
    (setupStatus b inUse = stAlign ↔ setupClean b ∧ setupSized b ∧ setupBound b inUse ∧ ¬ setupAligned b) ∧
    (setupStatus b inUse = stOk ↔ setupClean b ∧ setupSized b ∧ setupBound b inUse ∧ setupAligned b) := by
  rcases setupStatus_cases b inUse with ⟨hc, h⟩ | ⟨hc, hs, h⟩ | ⟨hc, hs, hb, h⟩ | ⟨hc, hs, hb, ha, h⟩ | ⟨hc, hs, hb, ha, h⟩
  all_goals rw [h]
  all_goals simp [*, stReserved, stZero, stBounds, stAlign, stOk]

/-! ## CREATE (R106, R108) -/

theorem Dev.createCtx_refused {d : Dev} {key : Nat} {b : List Nat} (hn : d.ctx key = none) (h : setupStatus b false ≠ stOk) :
    d.createCtx key b = (d, setupStatus b false) := by
  simp only [Dev.createCtx, hn, Option.map_none, Option.getD_none, bne_iff_ne, ne_eq, h, not_false_eq_true, if_true]

theorem Dev.createCtx_full {d : Dev} {key : Nat} {b : List Nat} (hn : d.ctx key = none) (h : setupStatus b false = stOk)
    (hr : d.makeRoom = none) : d.createCtx key b = (d, stCtxExhausted) := by
  simp only [Dev.createCtx, hn, Option.map_none, Option.getD_none, h, bne_self_eq_false, Bool.false_eq_true, if_false, hr]

theorem Dev.makeRoom_of_room {d : Dev} (h : d.residents < 4096) : d.makeRoom = some d := if_pos h

/-- The block with the context that a set-up block describes. -/
def Dev.withCtx (d : Dev) (key : Nat) (b : List Nat) : Dev := { d with ctxs := mset d.ctxs key (ctxOf b d.now) }

theorem Dev.createCtx_made {d : Dev} {key : Nat} {b : List Nat} (hn : d.ctx key = none) (h : setupStatus b false = stOk)
    (hr : d.residents < 4096) : d.createCtx key b = (d.withCtx key b, stOk) := by
  simp only [Dev.createCtx, hn, Option.map_none, Option.getD_none, h, bne_self_eq_false, Bool.false_eq_true, if_false,
    Dev.makeRoom_of_room hr, Dev.withCtx]

/-- A context that a reset left without rings is made anew where it is (R504). -/
theorem Dev.createCtx_remade {d : Dev} {key : Nat} {b : List Nat} {c : Ctx} (hc : d.ctx key = some c) (ha : c.attached = false)
    (hr : c.resident = true) (h : setupStatus b false = stOk) : d.createCtx key b = (d.withCtx key b, stOk) := by
  simp only [Dev.createCtx, hc, Option.map_some, Option.getD_some, ha, hr, h, bne_self_eq_false, Bool.false_eq_true, if_false, if_true,
    Dev.withCtx]

theorem Dev.ctx_withCtx_same (d : Dev) (key : Nat) (b : List Nat) : (d.withCtx key b).ctx key = some (ctxOf b d.now) :=
  mfind_mset_same _ _ _

theorem Dev.ctx_withCtx_ne (d : Dev) {key k : Nat} (b : List Nat) (h : k ≠ key) : (d.withCtx key b).ctx k = d.ctx k :=
  mfind_mset_ne _ _ _ _ h

/-- Room is looked for by contexts, commands and banks, which a write of HIF_FN_CTX_CMD leaves alone. -/
theorem CmdStarted.makeRoom_none {fn : Nat} {d e : Dev} (hs : CmdStarted fn d e) (h : d.makeRoom = none) : e.makeRoom = none := by
  have hres : e.residents = d.residents := by rw [Dev.residents, hs.ctxs, Dev.residents]
  have hbusy : ∀ key, e.ctxBusy key = d.ctxBusy key := fun key => by rw [Dev.ctxBusy, hs.runs, hs.ctx, Dev.ctxBusy]
  have hidle : e.idleRes = d.idleRes := by simp only [Dev.idleRes, hs.ctxs, hs.pinned, hbusy]
  unfold Dev.makeRoom at h ⊢
  rw [hres, hidle]
  split_ifs at h ⊢
  cases ho : oldestFetch d.idleRes with
  | none => rfl
  | some p =>
    rw [ho] at h
    exact absurd h (Option.some_ne_none _)

/-- CREATE ends at once, with what `createCtx` answers for the set-up block. -/
theorem Dev.create_ended {d e x : Dev} {fn ctx st : Nat} (hs : CmdStarted fn d e) (hst : st < 256)
    (h : e.createCtx (ckey fn ctx) (d.rdHost (d.f (F.HIF_FN_CTX_ADDR.ADDR fn)) 64) = (x, st)) : OpEnded fn st x (e.create fn ctx) := by
  rw [Dev.create, hs.addr, Dev.rdHost, hs.mem, ← Dev.rdHost, h]
  exact x.opDone_ended fn hst

/-- Settles O36: the checks of the set-up block, one by one, and CREATE by the answer of `createCtx` in each case. -/
theorem createChecksAndMakesAContext : Obligations.CreateChecksAndMakesAContext := by
  unfold Obligations.CreateChecksAndMakesAContext
  refine ⟨⟨?made, ?remade, ?refused, ?full⟩, fun b inUse _ => setupStatus_iff b inUse⟩
  case made =>
    intro d fn ctx ha _ _ hw hl hbusy hn hres hok
    obtain ⟨x, hgo, hs⟩ := Dev.ctxCmd_idle ctx 0 (fun d => d.create fn ctx) hw hl hbusy
    have hroom : x.residents < 4096 := by rwa [Dev.residents, hs.ctxs]
    have he := Dev.create_ended hs (by decide) (Dev.createCtx_made ((hs.ctx _).trans hn) hok hroom)
    refine completes_upd (f := fun d => d.ctxCmd fn ctx 0 (fun d => d.create fn ctx)) (fun _ => rfl) ha ?_
    rw [hgo]
    refine ⟨?_, fun k hk => ?_, he.status, he.busy, he.opDone, he.mem.trans hs.mem, he.runs.trans hs.runs⟩
    · rw [Dev.ctx, he.ctxs, ← hs.now]
      exact Dev.ctx_withCtx_same _ _ _
    · rw [Dev.ctx, he.ctxs, ← hs.ctx]
      exact Dev.ctx_withCtx_ne _ _ hk
  case remade =>
    intro d fn ctx c ha _ _ hw hl hbusy hc hatt hres hok
    obtain ⟨x, hgo, hs⟩ := Dev.ctxCmd_idle ctx 0 (fun d => d.create fn ctx) hw hl hbusy
    have he := Dev.create_ended hs (by decide) (Dev.createCtx_remade ((hs.ctx _).trans hc) hatt hres hok)
    refine completes_upd (f := fun d => d.ctxCmd fn ctx 0 (fun d => d.create fn ctx)) (fun _ => rfl) ha ?_
    rw [hgo]
    refine ⟨?_, he.status, he.opDone⟩
    rw [Dev.ctx, he.ctxs, ← hs.now]
    exact Dev.ctx_withCtx_same _ _ _
  case refused =>
    intro d fn ctx ha _ _ hw hl hbusy hn hbad
    obtain ⟨x, hgo, hs⟩ := Dev.ctxCmd_idle ctx 0 (fun d => d.create fn ctx) hw hl hbusy
    have he := Dev.create_ended hs (setupStatus_lt _ _) (Dev.createCtx_refused ((hs.ctx _).trans hn) hbad)
    refine completes_upd (f := fun d => d.ctxCmd fn ctx 0 (fun d => d.create fn ctx)) (fun _ => rfl) ha ?_
    rw [hgo]
    exact ⟨he.ctxs.trans hs.ctxs, he.status, he.busy, he.opDone, he.mem.trans hs.mem⟩
  case full =>
    intro d fn ctx ha _ _ hw hl hbusy hn hroom hok
    obtain ⟨x, hgo, hs⟩ := Dev.ctxCmd_idle ctx 0 (fun d => d.create fn ctx) hw hl hbusy
    have he := Dev.create_ended hs (by decide) (Dev.createCtx_full ((hs.ctx _).trans hn) hok (hs.makeRoom_none hroom))
    refine completes_upd (f := fun d => d.ctxCmd fn ctx 0 (fun d => d.create fn ctx)) (fun _ => rfl) ha ?_
    rw [hgo]
    exact ⟨he.ctxs.trans hs.ctxs, he.status, he.busy, he.opDone, he.mem.trans hs.mem⟩

end Sys2Proof.Machine
end

section
/-!
PROOFS. DESTROY, ABORT and doorbells (O37): how a context command ends on a ring that runs nothing, and what a doorbell does to a ring.
-/
namespace Sys2Proof.Machine

/-! ## DESTROY and ABORT (R107) -/

/-- An operation that ends what a context runs: the context is marked, and its ring goes on to the end. -/
def Ctx.ended (destroy : Bool) (c : Ctx) : Ctx :=
  { c with ending := some (destroy, c.heldTail.getD c.tail), tail := c.heldTail.getD c.tail, heldTail := none }

theorem Dev.endCtx_marked {d : Dev} {fn key : Nat} {c : Ctx} {destroy : Bool} (hc : d.ctx key = some c)
    (hp : (destroy && d.pinned key) = false) :
    ∃ e, d.endCtx fn key destroy = Dev.pumpCtx e key ∧ e.ctx key = some (c.ended destroy) ∧ (∀ k, k ≠ key → e.ctx k = d.ctx k) ∧
      e.mem = d.mem ∧ e.runs = d.runs := by
  obtain ⟨x, hx, hs⟩ : ∃ x, d.set (F.HIF_FN_CTX_CMD.BUSY fn) 1 = x ∧ CmdStarted fn d x := ⟨_, rfl, d.set_cmdStarted 1 rfl⟩
  refine ⟨x.modCtx key (Ctx.ended destroy), ?_, Dev.ctx_modCtx_some _ ((hs.ctx key).trans hc),
    fun k hk => (Dev.ctx_modCtx_ne _ _ hk).trans (hs.ctx k), hs.mem, hs.runs⟩
  simp only [Dev.endCtx, hc, hp, Bool.false_eq_true, if_false, hx]
  rfl

/-- A context that leaves its queue is no matter of the operation. -/
theorem OpEnded.leaveTurn {fn status : Nat} {d e : Dev} (h : OpEnded fn status d e) (key : Nat) : OpEnded fn status d (e.leaveTurn key) := by
  obtain ⟨turns, ht⟩ := e.leaveTurn_shape key
  have hreg : ∀ o, (e.leaveTurn key).reg o = e.reg o := Dev.reg_of_regs (by rw [ht]) (by rw [ht])
  exact ⟨(Dev.f_of_reg (hreg _)).trans h.status, (Dev.on_of_reg (hreg _)).trans h.busy, (Dev.on_of_reg (hreg _)).trans h.opDone,
    .trans (by rw [ht]) h.ctxs, .trans (by rw [ht]) h.mem, .trans (by rw [ht]) h.runs⟩

/-- DESTROY of a ring that runs nothing. -/
theorem Dev.pumpCtx_destroyed {d : Dev} {fn ctx t : Nat} {c : Ctx} (hctx : ctx < 4096) (h : d.ctx (ckey fn ctx) = some c)
    (he : c.ending = some (true, t)) (hk : c.cmds = []) :
    OpEnded fn stOk { d with ctxs := merase d.ctxs (ckey fn ctx) } (d.pumpCtx (ckey fn ctx)) := by
  obtain ⟨lnk, turns, hfree⟩ := d.freeCtx_shape (ckey fn ctx)
  rw [Dev.pumpCtx_eq h, Dev.pump_destroyed h he hk, ckey_div fn hctx]
  obtain ⟨hst, hb, hod, hctxs, hm, hr⟩ :=
    ((d.freeCtx (ckey fn ctx)).opDone_ended fn (status := stOk) (by decide)).leaveTurn (ckey fn ctx)
  exact ⟨hst, hb, hod, hctxs.trans (by rw [hfree]), hm.trans (by rw [hfree]), hr.trans (by rw [hfree])⟩

/-- ABORT of a ring that runs nothing and has nothing to fetch. -/
theorem Dev.pumpCtx_aborted {d : Dev} {fn ctx : Nat} {c : Ctx} (hctx : ctx < 4096) (h : d.ctx (ckey fn ctx) = some c)
    (he : c.ending = some (false, c.fetch)) (hk : c.cmds = []) :
    OpEnded fn stOk (d.modCtx (ckey fn ctx) (fun c => { c with ending := none })) (d.pumpCtx (ckey fn ctx)) := by
  rw [Dev.pumpCtx_eq h, Dev.pump_aborted h he hk rfl, ckey_div fn hctx]
  exact (Dev.opDone_ended _ fn (by decide)).leaveTurn _

/-! ## Doorbells (R109, R111) -/

/-- A context whose held doorbells have been acted on. -/
def Ctx.belled (c : Ctx) : Ctx :=
  { c with
    tail := c.heldTail.getD c.tail, heldTail := none, cqHead := c.heldHead.getD c.cqHead, unread := c.unreadNow, heldHead := none }

theorem Dev.heldBells_eq (d : Dev) (key : Nat) : d.heldBells key = (d.modCtx key Ctx.belled).pumpCtx key := rfl

/-- Held doorbells of a resident context are acted on. -/
theorem Dev.bellAct_resident {d : Dev} {key : Nat} {c : Ctx} (mem : List MemErr) (first : Bool) (hc : d.ctx key = some c)
    (hl : d.rst.low = 0) (hh : c.heldTail.isSome = true ∨ c.heldHead.isSome = true) (hr : c.resident = true) :
    d.bellAct key mem first = d.heldBells key := by
  have hheld : (c.heldTail.isNone && c.heldHead.isNone) = false := by
    rw [← Option.not_isSome, ← Option.not_isSome, ← Bool.not_or]
    rcases hh with h | h <;> simp [h]
  simp only [Dev.bellAct, hc, hl, hheld, hr, bne_self_eq_false, Bool.or_self, Bool.false_eq_true, if_false, if_true]

/-- In a low-power state they stay held (R506). -/
theorem Dev.bellAct_low {d : Dev} {key : Nat} {c : Ctx} (mem : List MemErr) (first : Bool) (hc : d.ctx key = some c) (hl : d.rst.low ≠ 0) :
    d.bellAct key mem first = d := by
  simp only [Dev.bellAct, hc, bne_iff_ne, ne_eq, hl, not_false_eq_true, if_true, Bool.or_eq_true, true_or]

/-- Doorbells that are acted on where no command waits reach the ring's pointers alone. -/
theorem Dev.heldBells_idle {d : Dev} {key : Nat} {c : Ctx} (hc : d.ctx key = some c) (he : c.ending = none) (hk : c.cmds = []) :
    (d.heldBells key).ctx key = some c.belled ∧ (d.heldBells key).mem = d.mem ∧ (d.heldBells key).regs = d.regs := by
  have hb : (d.modCtx key Ctx.belled).ctx key = some c.belled := Dev.ctx_modCtx_some _ hc
  obtain ⟨turns, ht⟩ := Dev.pumpCtx_of_pump_self hb (Dev.pump_empty hb he hk)
  rw [Dev.heldBells_eq, ht]
  exact ⟨hb, rfl, rfl⟩

/-- A context that is swapped in, its record being sound, has a full slice (R331). -/
theorem Dev.swapIn_clean {d : Dev} {key : Nat} (hp : d.mem.poison.contains (d.swapAddr key) = false) :
    d.swapIn key [] = d.modCtx key (fun c => { c with resident := true, sliceUsed := 0 }) := by
  rw [Dev.swapIn, List.filter_nil, Dev.met_nil, Dev.swapTake, hp]
  rfl

/-- Held doorbells of a context that was swapped out are acted on behind its swap-in, where there is room. -/
theorem Dev.bellAct_swapped {d : Dev} {key : Nat} {c : Ctx} (first : Bool) (hc : d.ctx key = some c) (hl : d.rst.low = 0)
    (hh : c.heldTail.isSome = true) (hr : c.resident = false) (hroom : d.residents < 4096)
    (hp : d.mem.poison.contains (d.swapAddr key) = false) :
    d.bellAct key [] first = (d.modCtx key (fun c => { c with resident := true, sliceUsed := 0 })).heldBells key := by
  have hheld : c.heldTail.isNone = false := by rw [← Option.not_isSome, hh, Bool.not_true]
  simp only [Dev.bellAct, hc, hl, hheld, hr, bne_self_eq_false, Bool.false_and, Bool.or_self, Bool.false_eq_true, if_false,
    Dev.makeRoom_of_room hroom, Dev.swapIn_clean hp]

/-- A write of SQ_TAIL that passes its checks. -/
theorem Dev.sqTail_taken {d : Dev} {fn page value : Nat} {c : Ctx} (mem : List MemErr) (hc : d.ctx (ckey fn page) = some c)
    (ha : c.attached = true) (h16 : value < 65536) (hv : value < 2 ^ c.sqLog2) :
    d.sqTail fn page 0 4 value mem =
      (d.modCtx (ckey fn page) (fun c => { c with heldTail := some value })).bellAct (ckey fn page) mem true := by
  simp only [Dev.sqTail, hc, bne_self_eq_false, Nat.not_le.mpr h16, Nat.not_le.mpr hv, decide_false, ha, Bool.not_true, Bool.or_self,
    Bool.false_eq_true, if_false, Dev.ringBell]

theorem Dev.sqTail_refused {d : Dev} {fn page off width value : Nat} {c : Ctx} (mem : List MemErr) (hc : d.ctx (ckey fn page) = some c)
    (h : width ≠ 4 ∨ 2 ^ c.sqLog2 ≤ value) : d.sqTail fn page off width value mem = d.dbErr fn page := by
  simp only [Dev.sqTail, hc]
  refine if_pos ?_
  rcases h with h | h <;> simp [h]

/-- A write of CQ_HEAD that passes its checks, while none is held. -/
theorem Dev.cqHead_taken {d : Dev} {fn page value : Nat} {c : Ctx} (mem : List MemErr) (hc : d.ctx (ckey fn page) = some c)
    (ha : c.attached = true) (hh : c.heldHead = none) (h16 : value < 65536) (hv : value < c.size)
    (hu : (value + c.size - c.cqHead) % c.size ≤ c.unread) :
    d.cqHead fn page 8 4 value mem =
      (d.modCtx (ckey fn page) (fun c => { c with heldHead := some value })).bellAct (ckey fn page) mem true := by
  have hnow : c.unreadNow = c.unread := by rw [Ctx.unreadNow, hh]
  have hhead : c.headNow = c.cqHead := by rw [Ctx.headNow, hh, Option.getD_none]
  simp only [Dev.cqHead, hc, hnow, hhead, bne_self_eq_false, Nat.not_le.mpr h16, Nat.not_le.mpr hv, Nat.not_lt.mpr hu, decide_false, ha,
    Bool.not_true, Bool.or_self, Bool.false_eq_true, if_false, Dev.ringBell]

theorem Dev.cqHead_refused {d : Dev} {fn page off width value : Nat} {c : Ctx} (mem : List MemErr) (hc : d.ctx (ckey fn page) = some c)
    (h : width ≠ 4 ∨ c.size ≤ value) : d.cqHead fn page off width value mem = d.dbErr fn page := by
  simp only [Dev.cqHead, hc]
  refine if_pos ?_
  rcases h with h | h <;> simp [h]

theorem does_sqTail {d : Dev} {fn : Nat} (page off width value : Nat) (mem : List MemErr) (ha : d.awake) (hb : d.bar4 fn = true) :
    Does (.sqTail fn page off width value mem) d (d.sqTail fn page off width value mem) :=
  does_upd_eq (fun d => if d.bar4 fn then d.sqTail fn page off width value mem else d) (fun _ => rfl) ha (if_pos hb)

theorem does_cqHead {d : Dev} {fn : Nat} (page off width value : Nat) (mem : List MemErr) (ha : d.awake) (hb : d.bar4 fn = true) :
    Does (.cqHead fn page off width value mem) d (d.cqHead fn page off width value mem) :=
  does_upd_eq (fun d => if d.bar4 fn then d.cqHead fn page off width value mem else d) (fun _ => rfl) ha (if_pos hb)

theorem does_heldDoorbellResume {d : Dev} (fn ctx : Nat) (mem : List MemErr) (ha : d.awake) :
    Does (.heldDoorbellResume fn ctx mem) d (d.bellResume (ckey fn ctx) mem) :=
  does_upd (f := fun d => d.bellResume (ckey fn ctx) mem) (fun _ => rfl) ha

/-- HELD_DOORBELL_RESUME of a resident context. -/
theorem Dev.bellResume_resident {d : Dev} {key : Nat} {c : Ctx} (mem : List MemErr) (hc : d.ctx key = some c) (hr : c.resident = true) :
    d.bellResume key mem = d.bellAct key mem false := by
  simp only [Dev.bellResume, hc, Option.map_some, Option.getD_some, hr, Bool.true_or, if_true]

theorem Dev.bellResume_swapped {d : Dev} {key : Nat} {c : Ctx} (mem : List MemErr) (hc : d.ctx key = some c) (hr : c.resident = false) :
    d.bellResume key mem = if d.atTick then d.bellAct key mem false else d := by
  simp only [Dev.bellResume, hc, Option.map_some, Option.getD_some, hr, Bool.false_or]

/-- Settles O37: a ring that runs nothing ends at once, and the doorbells from what acting on them does to a ring. -/
theorem destroyAbortAndDoorbells : Obligations.DestroyAbortAndDoorbells := by
  unfold Obligations.DestroyAbortAndDoorbells
  refine ⟨⟨?destroy, ?abort⟩, ?tail, ?head, ?low, ?resume, ?swapped, ?tailRefused, ?headRefused⟩
  case destroy =>
    intro d fn ctx c ha _ hctx hw hl hbusy hc hk hp
    obtain ⟨x, hgo, hs⟩ := Dev.ctxCmd_idle ctx 1 (fun d => d.endCtx fn (ckey fn ctx) true) hw hl hbusy
    obtain ⟨y, hy, hyc, hyo, hym, hyr⟩ := Dev.endCtx_marked (d := x) (fn := fn) (destroy := true) ((hs.ctx _).trans hc)
      ((Bool.true_and _).trans ((hs.pinned _).trans hp))
    have he := Dev.pumpCtx_destroyed hctx hyc rfl hk
    refine completes_upd (f := fun d => d.ctxCmd fn ctx 1 (fun d => d.endCtx fn (ckey fn ctx) true)) (fun _ => rfl) ha ?_
    rw [hgo, hy]
    refine ⟨?_, he.status, he.busy, he.opDone, fun k hne => ?_, he.mem.trans (hym.trans hs.mem), he.runs.trans (hyr.trans hs.runs)⟩
    · rw [Dev.ctx, he.ctxs]
      exact mfind_merase_same _ _
    · rw [Dev.ctx, he.ctxs, mfind_merase_ne _ _ _ hne]
      exact (hyo k hne).trans (hs.ctx k)
  case abort =>
    intro d fn ctx c ha _ hctx hw hl hbusy hc hk hheld hf
    obtain ⟨x, hgo, hs⟩ := Dev.ctxCmd_idle ctx 2 (fun d => d.endCtx fn (ckey fn ctx) false) hw hl hbusy
    obtain ⟨y, hy, hyc, hyo, hym, hyr⟩ := Dev.endCtx_marked (d := x) (fn := fn) (destroy := false) ((hs.ctx _).trans hc) (Bool.false_and _)
    have hmark : c.ended false = { c with ending := some (false, c.fetch) } := by
      rw [Ctx.ended, hheld, Option.getD_none, hf, ← hheld]
    rw [hmark] at hyc
    have he := Dev.pumpCtx_aborted hctx hyc rfl hk
    refine completes_upd (f := fun d => d.ctxCmd fn ctx 2 (fun d => d.endCtx fn (ckey fn ctx) false)) (fun _ => rfl) ha ?_
    rw [hgo, hy]
    refine ⟨?_, he.status, he.busy, he.opDone, fun k hne => ?_, he.mem.trans (hym.trans hs.mem), he.runs.trans (hyr.trans hs.runs)⟩
    · rw [Dev.ctx, he.ctxs]
      exact (Dev.ctx_modCtx_same y _ _).trans (congrArg (Option.map _) hyc)
    · rw [Dev.ctx, he.ctxs]
      exact (Dev.ctx_modCtx_ne y _ hne).trans ((hyo k hne).trans (hs.ctx k))
  case tail =>
    intro d fn page value c mem ha hbar hc hatt hres hend hl h16 hv
    refine ⟨_, does_sqTail page 0 4 value mem ha hbar, ?_⟩
    have hc₁ : (d.modCtx (ckey fn page) (fun c => { c with heldTail := some value })).ctx (ckey fn page) =
      some { c with heldTail := some value } := Dev.ctx_modCtx_some (fun c => { c with heldTail := some value }) hc
    rw [Dev.sqTail_taken mem hc hatt h16 hv, Dev.bellAct_resident mem true hc₁ hl (.inl rfl) hres, Dev.heldBells_eq]
    obtain ⟨c', hc', hring⟩ := Dev.pumpCtx_sameRing (Dev.ctx_modCtx_some Ctx.belled hc₁) hend
    exact ⟨c', hc', hring.tail, hring.heldTail, hring.sqBase, hring.fetch⟩
  case head =>
    intro d fn page value c mem ha hbar hc hatt hres hend hk hht hhh hl h16 hv hu
    refine ⟨_, does_cqHead page 8 4 value mem ha hbar, ?_⟩
    have hc₁ : (d.modCtx (ckey fn page) (fun c => { c with heldHead := some value })).ctx (ckey fn page) =
      some { c with heldHead := some value } := Dev.ctx_modCtx_some (fun c => { c with heldHead := some value }) hc
    rw [Dev.cqHead_taken mem hc hatt hhh h16 hv hu, Dev.bellAct_resident mem true hc₁ hl (.inr rfl) hres]
    obtain ⟨hself, hm, hr⟩ := Dev.heldBells_idle hc₁ hend hk
    refine ⟨hself.trans (congrArg some ?_), hm, hr⟩
    simp only [Ctx.belled, Ctx.unreadNow, Ctx.size, hht, hhh, Option.getD_none, Option.getD_some]
  case low =>
    intro d fn page value c mem ha hbar hc hatt hl h16 hv
    have hdoes := does_sqTail page 0 4 value mem ha hbar
    rw [Dev.sqTail_taken mem hc hatt h16 hv, Dev.bellAct_low mem true
      (Dev.ctx_modCtx_some (fun c => { c with heldTail := some value }) hc) (by rw [Dev.modCtx_rst, hl]; decide)] at hdoes
    exact hdoes
  case resume =>
    intro d fn ctx v c mem ha hc hres hend hk hht hhh hl
    refine ⟨_, does_heldDoorbellResume fn ctx mem ha, ?_⟩
    rw [Dev.bellResume_resident mem hc hres, Dev.bellAct_resident mem false hc hl (.inl (by rw [hht]; rfl)) hres]
    obtain ⟨hself, hm, hr⟩ := Dev.heldBells_idle hc hend hk
    refine ⟨hself.trans (congrArg some ?_), hm, hr⟩
    simp only [Ctx.belled, Ctx.unreadNow, hht, hhh, Option.getD_none, Option.getD_some]
  case swapped =>
    intro d fn ctx v c mem ha hc hres
    refine ⟨fun ht => ?_, fun ht hend hk hht hhh hl hroom hclean => ?_⟩
    · have hdoes := does_heldDoorbellResume fn ctx mem ha
      rwa [Dev.bellResume_swapped mem hc hres, ht, if_neg Bool.false_ne_true] at hdoes
    · refine ⟨_, does_heldDoorbellResume fn ctx [] ha, ?_⟩
      rw [Dev.bellResume_swapped [] hc hres, if_pos ht, Dev.bellAct_swapped false hc hl (by rw [hht]; rfl) hres hroom hclean]
      obtain ⟨hself, -, -⟩ := Dev.heldBells_idle (Dev.ctx_modCtx_some (fun c => { c with resident := true, sliceUsed := 0 }) hc) hend hk
      refine hself.trans (congrArg some ?_)
      simp only [Ctx.belled, Ctx.unreadNow, hht, hhh, Option.getD_none, Option.getD_some]
  case tailRefused =>
    intro d fn page off width value c mem ha hbar hc h
    have hdoes := does_sqTail page off width value mem ha hbar
    rwa [Dev.sqTail_refused mem hc h] at hdoes
  case headRefused =>
    intro d fn page off width value c mem ha hbar hc h
    have hdoes := does_cqHead page off width value mem ha hbar
    rwa [Dev.cqHead_refused mem hc h] at hdoes

end Sys2Proof.Machine
end

section
/-!
PROOFS. Descriptors and completion records (O38) and the ring commands (O39): a fetched descriptor joins its ring or completes with the status
of its check, NOP writes its record, and RUN, COPY, SIGNAL and WAIT take effect.
-/
namespace Sys2Proof.Machine

/-! ## DESCRIPTOR_FETCH (R113, R114) -/

/-- The command that the descriptor at a ring index becomes, by the status of its check. -/
def Dev.nextCmd (d : Dev) (key : Nat) (c : Ctx) : RingCmd :=
  let b := d.rdHost (c.sqBase + 64 * c.fetch) 64
  let st := d.validate (key / 4096) b
  ⟨c.fetch, b, if st = stOk then .fetched else .failed st, d.partRange (key / 4096)⟩

/-- A context whose next descriptor has been fetched. -/
def Ctx.fetchedAt (c : Ctx) (k : RingCmd) (now : Nat) : Ctx :=
  { c with cmds := c.cmds ++ [k], fetch := (c.fetch + 1) % 2 ^ c.sqLog2, lastFetch := now }

theorem Dev.fetchDesc_taken {d : Dev} {key : Nat} {c : Ctx} (hc : d.ctx key = some c) (hr : c.resident = true) (ha : c.attached = true)
    (he : c.ending = none) (hl : d.rst.low = 0) (hw : d.rst.warm = false) (hup : d.rst.linkUp = true) (hf : c.fetch ≠ c.tail)
    (hrec : 2 ≤ c.freeRecs) :
    d.fetchDesc key = (d.modCtx key (fun x => x.fetchedAt (d.nextCmd key c) d.now)).pumpCtx key := by
  simp only [Dev.fetchDesc, hc, hr, ha, he, hl, hw, hup, beq_eq_false_iff_ne.mpr hf, Nat.not_lt.mpr hrec, Bool.not_true, Option.isSome_none,
    bne_self_eq_false, decide_false, Bool.or_self, Bool.false_eq_true, if_false]
  rfl

/-- A fetched descriptor that waits for its dispatch stays at the head of its ring. -/
theorem Dev.pumpCtx_fetched {d : Dev} {key : Nat} {c : Ctx} {k : RingCmd} {ks : List RingCmd} (h : d.ctx key = some c)
    (he : c.ending = none) (hk : c.cmds = k :: ks) (hs : k.st = .fetched) : ∃ turns, d.pumpCtx key = { d with turns := turns } :=
  Dev.pumpCtx_of_pump_self h (Dev.pump_fetched h he hk hs)

/-- The record of a ring command that ends with a status and nothing to tell beside it (R117). -/
def RingCmd.record (k : RingCmd) (status : Nat) : Rec := ⟨0, bfield k.bytes 8 8, k.idx, status, 0, 0, 0, maskHas (k.bytes.getD 1 0) 0⟩

/-- The only command of the ring of `c` has ended with record `r`: the record is in the completion ring and counted, and the ring is empty. -/
structure RingEmptied (key : Nat) (c : Ctx) (r : Rec) (d e : Dev) : Prop where
  ctx : ∃ u us, e.ctx key = some { c with cmds := [], written := c.written + 1, unread := c.unread + 1, unsig := u, unsigSince := us }
  mem : e.mem = (d.recordWritten c r).mem
  runs : e.runs = d.runs
  regs : e.regs = d.regs
  flags : e.flags = d.flags

/-- A record goes to host memory. -/
theorem Dev.recordWritten_hbm (d : Dev) (c : Ctx) (r : Rec) : (d.recordWritten c r).mem.hbm = d.mem.hbm := by
  obtain ⟨host, h⟩ := d.wrHost_shape (c.cqBase + 32 * (c.written % c.size)) (d.recBytes r (c.written / c.size % 2 == 0))
  rw [Dev.recordWritten, h]

theorem Dev.endHead_single {d : Dev} {key status : Nat} {c : Ctx} {k : RingCmd} (h : d.ctx key = some c) (ha : c.attached = true)
    (he : c.ending = none) (hk : c.cmds = [k]) (hi : k.idx < 65536) (hq : (maskHas (k.bytes.getD 1 0) 1 && status == 0) = false) :
    RingEmptied key c (k.record status) d (d.endHead key status 0 0 0) := by
  have hmod : (d.modCtx key (fun c => { c with cmds := [] })).ctx key = some { c with cmds := [] } :=
    Dev.ctx_modCtx_some (fun c => { c with cmds := [] }) h
  obtain ⟨⟨ctxs, out, hshape⟩, u, us, hself⟩ := Dev.emit_effect (k.record status) hmod ha
  obtain ⟨host, hhost⟩ := Dev.wrHost_shape (d.modCtx key (fun c => { c with cmds := [] })) (c.cqBase + 32 * (c.written % c.size))
    (d.recBytes (k.record status) (c.written / c.size % 2 == 0))
  have hrec : (d.modCtx key (fun c => { c with cmds := [] })).recordWritten { c with cmds := [] } (k.record status) =
      { d.modCtx key (fun c => { c with cmds := [] }) with mem := { d.mem with host := host } } := hhost
  have hmem : (d.recordWritten c (k.record status)).mem =
      ((d.modCtx key (fun c => { c with cmds := [] })).recordWritten { c with cmds := [] } (k.record status)).mem := by
    unfold Dev.recordWritten Dev.wrHost
    rw [Dev.modCtx_rst]
    split <;> rfl
  rw [Dev.endHead_recorded 0 0 0 h he hk hi hq, ← RingCmd.record]
  exact ⟨⟨u, us, hself⟩, (congrArg Dev.mem hshape).trans hmem.symm, by rw [hshape, hrec]; rfl, by rw [hshape, hrec]; rfl,
    by rw [hshape, hrec]; rfl⟩

/-- The ring goes on with nothing behind its only command. -/
theorem RingEmptied.goesOn {key : Nat} {c : Ctx} {r : Rec} {d x e : Dev} (h : RingEmptied key c r d x)
    (he : ∃ turns, e = { x with turns := turns }) : RingEmptied key c r d e := by
  obtain ⟨turns, rfl⟩ := he
  exact ⟨h.ctx, h.mem, h.runs, h.regs, h.flags⟩

theorem RingEmptied.pump_self {key : Nat} {c : Ctx} {r : Rec} {d x : Dev} (h : RingEmptied key c r d x) (he : c.ending = none) (n : Nat) :
    x.pump key n = x := by
  obtain ⟨u, us, hc⟩ := h.ctx
  exact Dev.pump_empty hc he rfl n

/-- The only command of a ring completes. -/
theorem Dev.complete_single {d : Dev} {key status : Nat} {c : Ctx} {k : RingCmd} (h : d.ctx key = some c) (ha : c.attached = true)
    (he : c.ending = none) (hk : c.cmds = [k]) (hi : k.idx < 65536) (hq : (maskHas (k.bytes.getD 1 0) 1 && status == 0) = false) :
    RingEmptied key c (k.record status) d (d.complete key status 0 0 0) := by
  have hend := Dev.endHead_single h ha he hk hi hq
  obtain ⟨u, us, hc⟩ := hend.ctx
  exact hend.goesOn (Dev.pumpCtx_of_pump_self hc (hend.pump_self he))

/-- The only command of a ring, whose descriptor failed its check, completes in its turn. -/
theorem Dev.pumpCtx_failed_single {d : Dev} {key s : Nat} {c : Ctx} {k : RingCmd} (h : d.ctx key = some c) (ha : c.attached = true)
    (he : c.ending = none) (hk : c.cmds = [k]) (hi : k.idx < 65536) (hs : k.st = .failed s) (hbad : s ≠ stOk) :
    RingEmptied key c (k.record s) d (d.pumpCtx key) := by
  have hend := Dev.endHead_single h ha he hk hi (status := s) (by rw [beq_eq_false_iff_ne.mpr (show s ≠ 0 from hbad), Bool.and_false])
  refine hend.goesOn ?_
  rw [Dev.pumpCtx_eq h, Dev.pump_failed h he hk hs, hend.pump_self he]
  exact Dev.leaveTurn_shape _ _

/-! ## Ring commands (R114, R115, R235, R238, R239) -/

/-- The oldest command of a ring waits for its dispatch with an opcode. -/
theorem Dev.headOp_of_head {d : Dev} {key op : Nat} {c : Ctx} {k : RingCmd} {ks : List RingCmd} (hc : d.ctx key = some c)
    (hk : c.cmds = k :: ks) (hs : k.st = .fetched) (ho : k.bytes.getD 0 0 = op) (he : c.ending = none) (hr : c.resident = true) :
    d.headOp key op = some k.bytes := by
  simp only [Dev.headOp, hc, hk, hs, ho, he, hr, and_self, if_true]

/-- The command that a RUN descriptor of a context makes. -/
def Dev.runOf (d : Dev) (key : Nat) (c : Ctx) (b : List Nat) : Run :=
  mkRun (key / 4096) (key % 4096) false 0 0 b (c.safety && d.safetyPart (key / 4096))

theorem Dev.ringRun_shape {d : Dev} {key : Nat} {c : Ctx} {b : List Nat} (hb : d.headOp key 1 = some b) (hc : d.ctx key = some c)
    (hh : d.held (key / 4096) = false) :
    ∃ ctxs turns, d.ringRun key = { d.addRun (d.runOf key c b) with ctxs := ctxs, turns := turns } := by
  simp only [Dev.ringRun, hb, hc, hh, Bool.false_eq_true, if_false]
  split_ifs
  · exact ⟨_, d.turns, rfl⟩
  · exact ⟨_, _, rfl⟩

theorem Dev.ringCopy_starts {d : Dev} {key : Nat} {b : List Nat} (hb : d.headOp key 2 = some b) (hn : bfield b 32 4 ≠ 0) :
    d.ringCopy key = d.setHead key .copying := by
  simp only [Dev.ringCopy, hb, hn, if_false]

theorem Dev.copyDone_waits {d : Dev} {key : Nat} {k : RingCmd} (t : Nat) (mem : List MemErr) (hk : d.head key = some k)
    (hr : d.rst.hbmReady = false) : d.copyDone key t mem = d := by
  simp only [Dev.copyDone, hk, hr, Bool.not_false, Bool.or_true, if_true]

theorem Dev.copyDone_served {d : Dev} {key : Nat} {k : RingCmd} (t : Nat) (mem : List MemErr) (hk : d.head key = some k)
    (hs : k.st = .copying) (hr : d.rst.hbmReady = true) :
    d.copyDone key t mem = (d.at_ t).met accRead (copyReads k.bytes) mem (fun d => d.copyEnd key k.bytes) := by
  simp only [Dev.copyDone, hk, hs, hr, ne_eq, not_true_eq_false, decide_false, Bool.not_true, Bool.or_self, Bool.false_eq_true, if_false]

theorem Dev.copyEnd_poisoned {d : Dev} {key g : Nat} {l b : List Nat} (h : (copyReads b).flatMap (fun r => d.poisonIn r.1 r.2) = g :: l) :
    d.copyEnd key b = (d.copyMix b).hubUe key g accRead := by
  simp only [Dev.copyEnd, h]

theorem Dev.copyEnd_clean {d : Dev} {key : Nat} {b : List Nat} (h : (copyReads b).flatMap (fun r => d.poisonIn r.1 r.2) = []) :
    let data := if maskHas (b.getD 36 0) 0 then d.rdHost (bfield b 16 8) (bfield b 32 4) else d.rdHbm (bfield b 16 8) (bfield b 32 4)
    d.copyEnd key b = Dev.complete
      (if maskHas (b.getD 36 0) 1 then d.wrHost (bfield b 24 8) data else d.wrHbm (bfield b 24 8) data) key stOk 0 0 0 := by
  simp only [Dev.copyEnd, h]

theorem Dev.ringSignal_adds {d : Dev} {key n : Nat} {b : List Nat} (hb : d.headOp key 3 = some b)
    (hf : d.hwFlag (key / 4096) (bfield b 16 2) = some n) :
    d.ringSignal key = (d.flagAdd n (bfield b 20 4)).complete key stOk 0 0 0 := by
  simp only [Dev.ringSignal, hb, hf]

/-- WAIT looks at its flag, and then at its deadline. -/
theorem Dev.ringWait_eq {d : Dev} {key n : Nat} {b : List Nat} (t : Nat) (hb : d.headOp key 4 = some b)
    (hf : d.hwFlag (key / 4096) (bfield b 16 2) = some n) :
    d.ringWait key t = if bfield b 20 4 ≤ d.flag n then (d.at_ t).complete key stOk (d.flag n) 0 0 else
      if duePast (bfield b 24 8) (Nat.max d.now t) then (d.at_ t).expireHead key n (bfield b 24 8)
      else (d.at_ t).setHead key (.waiting n (bfield b 20 4) (bfield b 24 8)) := by
  have hf' : (d.at_ t).hwFlag (key / 4096) (bfield b 16 2) = some n := hf
  simp only [Dev.ringWait, hb, hf']
  rfl

theorem duePast_iff (dl t : Nat) : duePast dl t = true ↔ 0 < dl ∧ dl ≤ t := by
  rw [duePast, Bool.and_eq_true, bne_iff_ne, decide_eq_true_eq, Nat.pos_iff_ne_zero]

theorem Dev.waitRelease_reached {d : Dev} {key n v dl : Nat} {k : RingCmd} (hk : d.head key = some k) (hs : k.st = .waiting n v dl)
    (hv : v ≤ d.flag n) : d.waitRelease key = d.complete key stOk (d.flag n) 0 0 := by
  simp only [Dev.waitRelease, hk, hs, hv, if_true]

theorem Dev.waitExpired_due {d : Dev} {key t n v dl : Nat} {k : RingCmd} (hk : d.head key = some k) (hs : k.st = .waiting n v dl)
    (hv : d.flag n < v) (hdue : duePast dl t = true) : d.waitExpired key t = (d.at_ t).expireHead key n dl := by
  simp only [Dev.waitExpired, hk, hs, Nat.not_le.mpr hv, hdue, decide_false, Bool.not_true, Bool.or_self, Bool.false_eq_true, if_false]

/-! ## The statements -/

/-- Settles O38: the fetched descriptor heads its ring or ends with its status; NOP from the record that its end writes. -/
theorem descriptorsAndCompletionRecords : Obligations.DescriptorsAndCompletionRecords := by
  unfold Obligations.DescriptorsAndCompletionRecords
  refine ⟨fun d fn ctx c ha hc hr hatt he hl hw hup hf h16 hrec hk => ?fetch, ?nop⟩
  case fetch =>
    have hnew : (d.modCtx (ckey fn ctx) (fun x => x.fetchedAt (d.nextCmd (ckey fn ctx) c) d.now)).ctx (ckey fn ctx) =
        some (c.fetchedAt (d.nextCmd (ckey fn ctx) c) d.now) := Dev.ctx_modCtx_some (fun x => x.fetchedAt (d.nextCmd (ckey fn ctx) c) d.now) hc
    have hcmds : (c.fetchedAt (d.nextCmd (ckey fn ctx) c) d.now).cmds = [d.nextCmd (ckey fn ctx) c] := by
      rw [Ctx.fetchedAt, hk, List.nil_append]
    have hdoes : Does (.descriptorFetch fn ctx) d (d.fetchDesc (ckey fn ctx)) :=
      does_upd (f := fun d => d.fetchDesc (ckey fn ctx)) (fun _ => rfl) ha
    rw [Dev.fetchDesc_taken hc hr hatt he hl hw hup hf hrec] at hdoes
    refine ⟨fun hok => ⟨_, hdoes, ?_⟩, fun hbad => ⟨_, hdoes, ?_⟩⟩
    · obtain ⟨turns, ht⟩ := Dev.pumpCtx_fetched hnew he hcmds (if_pos hok)
      rw [ht]
      refine ⟨hnew.trans (congrArg some ?_), rfl, rfl, rfl⟩
      rw [Ctx.fetchedAt, hk, List.nil_append, Dev.nextCmd, if_pos hok]
    · obtain ⟨⟨u, us, hself⟩, hm, hruns, -, -⟩ := Dev.pumpCtx_failed_single hnew hatt he hcmds h16 (if_neg hbad) hbad
      exact ⟨_, hself, rfl, rfl, rfl, hruns, (congrArg MemSt.hbm hm).trans (Dev.recordWritten_hbm _ _ _)⟩
  case nop =>
    intro d fn ctx c k ha hc hatt hr he hk hi hs hop hq hup
    have hnop : d.ringNop (ckey fn ctx) = d.complete (ckey fn ctx) stOk 0 0 0 := by
      rw [Dev.ringNop, Dev.headOp_of_head hc hk hs hop he hr]
    refine completes_upd (f := fun d => d.ringNop (ckey fn ctx)) (fun _ => rfl) ha ?_
    rw [hnop]
    obtain ⟨⟨u, us, hself⟩, hm, hruns, hregs, hflags⟩ :=
      Dev.complete_single (status := stOk) hc hatt he hk hi (by rw [hq, Bool.false_and])
    refine ⟨(congrArg MemSt.host hm).trans ?_, ⟨_, hself, rfl, rfl, rfl⟩, (congrArg MemSt.hbm hm).trans (Dev.recordWritten_hbm _ _ _), hruns,
      hregs, hflags⟩
    rw [Dev.recordWritten, Dev.wrHost_linkUp _ _ hup, RingCmd.record]

/-- Settles O39: each ring command by the equation of its meaning. -/
theorem ringCommandsTakeEffect : Obligations.RingCommandsTakeEffect := by
  unfold Obligations.RingCommandsTakeEffect
  refine ⟨?run, ?copy, ?copied, ?copyCases, ?signal, ?waitOver, ?waits, ?released, ?expired⟩
  case run =>
    intro d fn ctx c b ha hb hc hh
    obtain ⟨ctxs, turns, hrun⟩ := Dev.ringRun_shape hb hc hh
    refine completes_upd (f := fun d => d.ringRun (ckey fn ctx)) (fun _ => rfl) ha ?_
    rw [hrun]
    exact ⟨mfind_mset_same _ _ _, rfl, fun i hi => mfind_mset_ne _ _ _ _ hi, rfl, rfl⟩
  case copy =>
    intro d fn ctx b ha hb hn
    exact does_upd_eq (fun d => d.ringCopy (ckey fn ctx)) (fun _ => rfl) ha (Dev.ringCopy_starts hb hn)
  case copied =>
    intro d fn ctx t k ha hk hs hr hclean
    refine does_upd_eq (fun d => d.copyDone (ckey fn ctx) t []) (fun _ => rfl) ha ?_
    exact (Dev.copyDone_served t [] hk hs hr).trans (Dev.copyEnd_clean (d := d.at_ t) hclean)
  case copyCases =>
    intro d fn ctx t k mem ha hk hs
    have hdoes : ∀ l e, d.copyDone (ckey fn ctx) t l = e → Does (.copyDone fn ctx t l) d e := fun l _ =>
      does_upd_eq (fun d => d.copyDone (ckey fn ctx) t l) (fun _ => rfl) ha
    refine ⟨fun hr => ?_, fun hr => ?_, fun g l hr hg => ?_⟩
    · exact hdoes mem _ (Dev.copyDone_waits t mem hk hr)
    · exact hdoes mem _ (Dev.copyDone_served t mem hk hs hr)
    · exact hdoes [] _ ((Dev.copyDone_served t [] hk hs hr).trans (Dev.copyEnd_poisoned (d := d.at_ t) hg))
  case signal =>
    intro d fn ctx b n ha hb hf
    exact does_upd_eq (fun d => d.ringSignal (ckey fn ctx)) (fun _ => rfl) ha (Dev.ringSignal_adds hb hf)
  case waitOver =>
    intro d fn ctx t b n ha hb hf hv
    exact does_upd_eq (fun d => d.ringWait (ckey fn ctx) t) (fun _ => rfl) ha ((Dev.ringWait_eq t hb hf).trans (if_pos hv))
  case waits =>
    intro d fn ctx t b n ha hb hf hv
    have hwait := (Dev.ringWait_eq t hb hf).trans (if_neg (Nat.not_le.mpr hv))
    refine ⟨fun hdl => ?_, fun hpos hdl => ?_⟩
    · refine does_upd_eq (fun d => d.ringWait (ckey fn ctx) t) (fun _ => rfl) ha (hwait.trans (if_neg ?_))
      rw [duePast_iff]
      omega
    · exact does_upd_eq (fun d => d.ringWait (ckey fn ctx) t) (fun _ => rfl) ha (hwait.trans (if_pos ((duePast_iff _ _).mpr ⟨hpos, hdl⟩)))
  case released =>
    intro d fn ctx k n v dl ha hk hs hv
    exact does_upd_eq (fun d => d.waitRelease (ckey fn ctx)) (fun _ => rfl) ha (Dev.waitRelease_reached hk hs hv)
  case expired =>
    intro d fn ctx t k n v dl ha hk hs hv hpos hdl
    exact does_upd_eq (fun d => d.waitExpired (ckey fn ctx) t) (fun _ => rfl) ha
      (Dev.waitExpired_due hk hs hv ((duePast_iff _ _).mpr ⟨hpos, hdl⟩))

end Sys2Proof.Machine
end

section
/-!
PROOFS. Coalescing, the host link and BAR2 (O40): a signal that is due, a link that narrows or trains, and the bytes of HBM that the host's
aperture reads and writes.
-/
namespace Sys2Proof.Machine

/-! ## COAL_TIMER (R120) -/

theorem Dev.coalTimer_due {d : Dev} {key t t0 : Nat} {c : Ctx} (hc : d.ctx key = some c) (h0 : c.unsigSince = some t0) (hu : c.coalUs ≠ 0)
    (hv : c.vector ≠ 0) (ht : t0 + c.coalUs * 1000 ≤ t) :
    d.coalTimer key t =
      Dev.send ((d.at_ t).modCtx key (fun c => { c with unsig := 0, unsigSince := none })) (.msix (key / 4096) c.vector) := by
  simp only [Dev.coalTimer, hc, h0, bne_iff_ne.mpr hu, bne_iff_ne.mpr hv, ht, decide_true, Bool.and_self, if_true]

/-! ## The host link (R96, R98) -/

theorem Dev.laneDown_narrows {d : Dev} {width : Nat} (hup : d.rst.linkUp = true) (hw : width < d.rst.linkWidth)
    (h : width = 1 ∨ width = 2 ∨ width = 4) :
    d.laneDown width = Dev.raise { d with rst := { d.rst with linkWidth := width } } 0x100 0x8000 0 6 := by
  have hmem : [1, 2, 4].contains width = true := by
    rcases h with rfl | rfl | rfl <;> rfl
  simp only [Dev.laneDown, hup, hw, hmem, decide_true, Bool.and_self, if_true]

/-- What raising a source of Table 1 at the host link does (R361, R516). -/
theorem Dev.raise_hostLink {d : Dev} {src : Nat} (addr acc : Nat) (hr : d.coll.ready = true) (hk : sourceKnown src = true) :
    let e := d.raise src 0x8000 addr acc
    (e.rst.linkWidth = d.rst.linkWidth ∧ e.rst.linkUp = d.rst.linkUp) ∧ e.coll.pending = setBit512 d.coll.pending src ∧
      SameInput d e ∧ sameRegsBut [R.PWR_LP_CTRL] d e := by
  obtain ⟨hsame, -, hreg⟩ := d.raise_hub_keeps src addr acc (master := 0x8000) (by decide)
  obtain ⟨_, _, _, _, _, hshape⟩ := Dev.raise_hub d src 0x8000 addr acc (by decide)
  refine ⟨by rw [hshape]; exact ⟨rfl, rfl⟩, Dev.event_pending hr hk (show masterKnown 0x8000 = true by decide), hsame, fun o ho => hreg o ?_⟩
  exact fun heq => ho (List.mem_singleton.mpr heq)

theorem Dev.linkTrained_up {d : Dev} {width rate : Nat} (hc : d.rst.refclk = true) (hl : d.rst.low ≠ 2) (hw : width ∈ [1, 2, 4, 8])
    (h1 : 1 ≤ rate) (h5 : rate ≤ 5) :
    d.linkTrained width rate = if d.rst.linkUp = true ∧ width ≠ d.rst.linkWidth then d else
      { d with rst := { d.rst with linkUp := true, linkWidth := width, linkRate := rate } } := by
  have hmem : [1, 2, 4, 8].contains width = true := List.contains_iff_mem.mpr hw
  have hrate : (rate == 0) = false := beq_eq_false_iff_ne.mpr (Nat.ne_of_gt h1)
  simp only [Dev.linkTrained, hc, beq_eq_false_iff_ne.mpr hl, hmem, hrate, Nat.not_lt.mpr h5, decide_false, Bool.not_true, Bool.false_or,
    Bool.and_eq_true, bne_iff_ne]

/-! ## What an event leaves of an answer -/

/-- The data that an access has returned. -/
def SameAnswer (d e : Dev) : Prop := e.out.rdata = d.out.rdata ∧ e.out.poisoned = d.out.poisoned

theorem SameAnswer.trans {a b c : Dev} (h₁ : SameAnswer a b) (h₂ : SameAnswer b c) : SameAnswer a c :=
  ⟨h₂.1.trans h₁.1, h₂.2.trans h₁.2⟩

theorem Dev.abandonEntry_sameAnswer (d : Dev) : SameAnswer d d.abandonEntry := by
  obtain ⟨_, _, h⟩ := d.abandonEntry_shape
  rw [h]
  exact ⟨rfl, rfl⟩

theorem Dev.startBlockReset_sameAnswer (d : Dev) (m : Nat) : SameAnswer d (d.startBlockReset m) := by
  obtain ⟨_, _, _, _, _, _, _, _, _, h⟩ := d.startBlockReset_shape m
  rw [h]
  exact ⟨rfl, rfl⟩

/-- An event may send messages, but returns nothing. -/
theorem Dev.event_sameAnswer (d : Dev) (e : FaultEv) : SameAnswer d (d.event e) := by
  have collected : ∀ c : Coll, SameAnswer d { d with coll := c } := fun _ => ⟨rfl, rfl⟩
  have sent : ∀ (x : Dev) (b : Bool) (m : Tx), SameAnswer x (if b then x.send m else x) := fun _ b _ => by
    cases b <;> exact ⟨rfl, rfl⟩
  have reset : ∀ (x : Dev) (b : Bool) (m : Nat), SameAnswer x (if b then x.startBlockReset m else x) := fun x b m => by
    cases b
    · exact ⟨rfl, rfl⟩
    · exact x.startBlockReset_sameAnswer m
  have abandoned : ∀ (x : Dev) (b : Bool) (n : Option Nat),
      SameAnswer x (if b then Dev.abandonEntry { x with rst := { x.rst with chipAt := n } } else x) := fun x b n => by
    cases b
    · exact ⟨rfl, rfl⟩
    · exact Dev.abandonEntry_sameAnswer { x with rst := { x.rst with chipAt := n } }
  unfold Dev.event
  split
  · exact ⟨rfl, rfl⟩
  · exact (((collected _).trans (sent _ _ _)).trans (reset _ _ _)).trans (abandoned _ _ _)

/-! ## An uncorrectable granule of HBM (R141) -/

/-- The end of a patrol period changes no byte, and sends nothing. -/
theorem Dev.patrolTurn_keeps (d : Dev) : d.patrolTurn.coll = d.coll ∧ d.patrolTurn.mem.hbm = d.mem.hbm ∧ d.patrolTurn.out = d.out := by
  obtain ⟨lanes, rows, start, h⟩ : ∃ lanes rows start, d.patrolTurn =
      { d with mem := { d.mem with hbmLanes := lanes, hbmRows := rows, patrolFrom := start } } := ⟨_, _, _, rfl⟩
  rw [h]
  exact ⟨rfl, rfl, rfl⟩

/-- Nor does poisoning a granule. -/
theorem Dev.poisonAt_keeps (d : Dev) (a : Nat) :
    (d.poisonAt a).coll = d.coll ∧ (d.poisonAt a).mem.hbm = d.mem.hbm ∧ (d.poisonAt a).out = d.out := by
  unfold Dev.poisonAt
  split <;> exact ⟨rfl, rfl, rfl⟩

/-- And counting the events of a row. -/
theorem Dev.rowSeen_keeps (d : Dev) (a n : Nat) :
    (d.rowSeen a n).coll = d.coll ∧ (d.rowSeen a n).mem.hbm = d.mem.hbm ∧ (d.rowSeen a n).out = d.out := ⟨rfl, rfl, rfl⟩

theorem masterKnown_hbm {s : Nat} (h : s < 2) : masterKnown (hbmUnit s) = true := by
  interval_cases s <;> decide

/-- An uncorrectable granule of an installed stack is counted and reported; no byte of HBM changes, and nothing is returned. -/
theorem Dev.hbmUeAt_effect {d : Dev} {a : Nat} (acc : Nat) (hr : d.coll.ready = true) (hs : stackOf (a / 64 * 64) < 2) :
    (d.hbmUeAt a acc).coll.pending = setBit512 d.coll.pending 0x004 ∧ (d.hbmUeAt a acc).mem.hbm = d.mem.hbm ∧
      SameAnswer d (d.hbmUeAt a acc) := by
  obtain ⟨y, hy, hcoll, hhbm, hout⟩ : ∃ y, (d.patrolTurn.poisonAt (a / 64 * 64)).rowSeen (a / 64 * 64) 3 = y ∧
      y.coll = d.coll ∧ y.mem.hbm = d.mem.hbm ∧ y.out = d.out := by
    obtain ⟨hcoll, hhbm, hout⟩ := d.patrolTurn_keeps
    obtain ⟨hcoll', hhbm', hout'⟩ := d.patrolTurn.poisonAt_keeps (a / 64 * 64)
    obtain ⟨hcoll'', hhbm'', hout''⟩ := Dev.rowSeen_keeps (d.patrolTurn.poisonAt (a / 64 * 64)) (a / 64 * 64) 3
    exact ⟨_, rfl, hcoll''.trans (hcoll'.trans hcoll), hhbm''.trans (hhbm'.trans hhbm), hout''.trans (hout'.trans hout)⟩
  obtain ⟨x, hx, hxcoll, hxmem, hxout⟩ : ∃ x, y.addSat (F.MEM_HBM_UE.COUNT (stackOf (a / 64 * 64))) 1 = x ∧
      x.coll = y.coll ∧ x.mem = y.mem ∧ x.out = y.out := ⟨_, rfl, Dev.addSat_coll _ _ _, Dev.addSat_mem _ _ _, Dev.addSat_out _ _ _⟩
  have hue : d.hbmUeAt a acc = x.raise 0x004 (hbmUnit (stackOf (a / 64 * 64))) (a / 64 * 64) acc := by
    rw [← hx, ← hy]
    rfl
  have hready : x.coll.ready = true := by rw [hxcoll, hcoll, hr]
  rw [hue]
  refine ⟨?_, ?_, ?_⟩
  · rw [← hcoll, ← hxcoll]
    exact Dev.event_pending hready (show sourceKnown 0x004 = true by decide) (masterKnown_hbm hs)
  · exact (Dev.event_sameMemory x _).1.trans ((congrArg MemSt.hbm hxmem).trans hhbm)
  · have hsame : SameAnswer x (x.raise 0x004 (hbmUnit (stackOf (a / 64 * 64))) (a / 64 * 64) acc) := Dev.event_sameAnswer x _
    rwa [SameAnswer, hxout, hout] at hsame

/-! ## BAR2 (R100) -/

theorem Dev.bar2Read_served {d : Dev} (addr len : Nat) (mem : List MemErr) (hs : d.hbmServes = true) (hb : d.barsOpen 0 = true) :
    d.bar2Read addr len mem = (d.ret []).met accRead [(addr, len)] (mem.filter (fun e => !e.hbm || d.bar2Byte e.addr))
      (fun x => x.bar2Data addr len) := by
  simp only [Dev.bar2Read, hs, hb, Bool.not_true, Bool.false_eq_true, if_false]

theorem Dev.bar2Read_unserved {d : Dev} (addr len : Nat) (mem : List MemErr) (hs : d.hbmServes = false) (hb : d.barsOpen 0 = true) :
    d.bar2Read addr len mem = d.ret (List.replicate len 0) := by
  simp only [Dev.bar2Read, hs, hb, Bool.not_true, Bool.not_false, Bool.false_eq_true, if_false, if_true]

theorem Dev.bar2Write_unserved {d : Dev} (addr : Nat) (bytes : List Nat) (mem : List MemErr) (hs : d.hbmServes = false) :
    d.bar2Write addr bytes mem = d := by
  simp only [Dev.bar2Write, hs, Bool.not_false, Bool.true_or, if_true]

/-- A read that no error meets. -/
theorem Dev.bar2Read_errorless {d : Dev} (addr len : Nat) (hs : d.hbmServes = true) (hb : d.barsOpen 0 = true) :
    d.bar2Read addr len [] = (d.ret []).bar2Data addr len := by
  rw [Dev.bar2Read_served addr len [] hs hb, List.filter_nil, Dev.met_nil]

theorem Dev.bar2Data_clean {d : Dev} {addr len : Nat} (h : d.poisonIn addr len = []) : d.bar2Data addr len =
    d.ret ((List.range len).map (fun i => if d.bar2Byte (addr + i) then (d.mem.hbm.read (addr + i)).toNat else 0)) := by
  simp only [Dev.bar2Data, h, List.filter_nil]

/-- A poisoned granule that BAR2 reaches, the first of the range, makes the completion poisoned. -/
theorem Dev.bar2Data_poisoned {d : Dev} {addr len g : Nat} (hg : g ∈ d.poisonIn addr len) (hb : d.bar2Byte g = true) :
    ∃ g', d.bar2Byte g' = true ∧
      d.bar2Data addr len = Dev.hbmUeAt { d with out := { d.out with rdata := [], poisoned := true } } g' accRead := by
  have hmem : g ∈ (d.poisonIn addr len).filter d.bar2Byte := List.mem_filter.mpr ⟨hg, hb⟩
  cases hl : (d.poisonIn addr len).filter d.bar2Byte with
  | nil =>
    rw [hl] at hmem
    exact absurd hmem List.not_mem_nil
  | cons g' l =>
    have hg' : g' ∈ (d.poisonIn addr len).filter d.bar2Byte := hl ▸ List.mem_cons_self
    refine ⟨g', (List.mem_filter.mp hg').2, ?_⟩
    simp only [Dev.bar2Data, hl]

theorem Dev.bar2Byte_iff (d : Dev) (a : Nat) : d.bar2Byte a = true ↔ a < d.bar2Size ∧ d.inHoldSlot a = false := by
  rw [Dev.bar2Byte, Bool.and_eq_true, decide_eq_true_eq, Bool.not_eq_true']

/-- BAR2 maps two stacks at most. -/
theorem Dev.stackOf_lt_of_bar2Byte {d : Dev} {g : Nat} (h : d.bar2Byte g = true) : stackOf (g / 64 * 64) < 2 := by
  have hsize : d.bar2Size ≤ 2 * 0x600000000 := by
    unfold Dev.bar2Size Dev.hbmSize Dev.nStacks
    split_ifs <;> decide
  have hg := ((d.bar2Byte_iff g).mp h).1
  rw [stackOf, Nat.div_lt_iff_lt_mul (by decide)]
  exact lt_of_le_of_lt (Nat.div_mul_le_self g 64) (lt_of_lt_of_le hg hsize)

/-- A write without poison or hold slot in its range, of a part that has lost no die, stores its bytes. -/
theorem Dev.bar2Write_clean {d : Dev} {addr : Nat} {bytes : List Nat} (hs : d.hbmServes = true) (hb : d.barsOpen 0 = true)
    (hsize : addr + bytes.length ≤ d.bar2Size) (hdie : d.leap.dieLost = []) (hp : d.poisonIn addr bytes.length = [])
    (hhold : ∀ i, i < bytes.length → d.inHoldSlot (addr + i) = false) :
    d.bar2Write addr bytes [] = { d with mem := { d.mem with hbm := d.mem.hbm.writeBytes addr bytes } } := by
  have hn : Nat.min bytes.length (d.bar2Size - addr) = bytes.length := Nat.min_eq_left (Nat.le_sub_of_add_le' hsize)
  have hslots : (List.range bytes.length).any (fun i => d.inHoldSlot (addr + i)) = false := by
    rw [List.any_eq_false]
    exact fun i hi => Bool.eq_false_iff.mp (hhold i (List.mem_range.mp hi))
  have hlost : d.stackLost addr = false := by rw [Dev.stackLost, hdie]; rfl
  simp only [Dev.bar2Write, hs, hb, Bool.not_true, Bool.or_self, Bool.false_eq_true, if_false, List.filter_nil, Dev.met_nil, Dev.bar2Store, hn,
    hslots, List.take_length, hp, List.foldl_nil, Dev.wrHbm, hlost, if_true]

/-- Settles O40: each command by the equation of its meaning; a poisoned granule that BAR2 reads lies in an installed stack. -/
theorem linkCoalescingAndBar2 : Obligations.LinkCoalescingAndBar2 := by
  unfold Obligations.LinkCoalescingAndBar2
  refine ⟨⟨?coal, ?lane, ?trained⟩, ?reads, ?writes, ?unserved, ?readEq, ?poisoned⟩
  case coal =>
    intro d fn ctx t t0 c ha hc h0 hu hv ht
    refine completes_upd (f := fun d => d.coalTimer (ckey fn ctx) t) (fun _ => rfl) ha ?_
    rw [Dev.coalTimer_due hc h0 hu hv ht]
    exact ⟨rfl, Dev.ctx_modCtx_some (d := d.at_ t) (fun c => { c with unsig := 0, unsigSince := none }) hc, rfl, rfl, rfl⟩
  case lane =>
    intro d width ha hup hw h hr
    refine completes_upd (f := fun d => d.laneDown width) (fun _ => rfl) ha ?_
    rw [Dev.laneDown_narrows hup hw h]
    obtain ⟨⟨hwidth, hlink⟩, hpend, hsame, hregs⟩ :=
      Dev.raise_hostLink (d := { d with rst := { d.rst with linkWidth := width } }) (src := 0x100) 0 6 hr (by decide)
    exact ⟨hwidth, hlink.trans hup, hpend, hsame.mem, hregs, hsame.ctxs⟩
  case trained =>
    intro d width rate ha hc hl hw h1 h5
    have htrained := Dev.linkTrained_up hc hl hw h1 h5
    refine ⟨fun h => ?_, fun hup hne => ?_⟩
    · refine does_upd_eq (fun d => d.linkTrained width rate) (fun _ => rfl) ha (htrained.trans (if_neg ?_))
      rintro ⟨hup, hne⟩
      exact h.elim (fun hdown => Bool.false_ne_true (hdown.symm.trans hup)) hne
    · exact does_upd_eq (fun d => d.linkTrained width rate) (fun _ => rfl) ha (htrained.trans (if_pos ⟨hup, hne⟩))
  case reads =>
    intro d addr len ha hs hb hp
    refine completes_upd (f := fun d => d.bar2Read addr len []) (fun _ => rfl) ha ?_
    rw [Dev.bar2Read_errorless addr len hs hb, Dev.bar2Data_clean (d := d.ret []) hp]
    refine ⟨rfl, by rw [Dev.ret_rdata, List.length_map, List.length_range], fun i hi => ?_, rfl, rfl, rfl⟩
    rw [Dev.ret_rdata, List.getElem?_map, List.getElem?_range hi, Option.map_some]
    refine congrArg some (if_congr ?_ rfl rfl)
    exact d.bar2Byte_iff (addr + i)
  case writes =>
    intro d addr bytes ha hs hb hsize hdie hp hhold
    refine completes_upd (f := fun d => d.bar2Write addr bytes []) (fun _ => rfl) ha ?_
    rw [Dev.bar2Write_clean hs hb hsize hdie hp hhold]
    exact ⟨fun i hi => Mem.read_writeBytes_in _ _ _ _ hi, fun a h => Mem.read_writeBytes_out _ _ _ _ h, rfl, rfl, rfl, rfl, rfl⟩
  case unserved =>
    intro d addr len bytes mem ha hs
    exact ⟨fun hb => does_upd_eq (fun d => d.bar2Read addr len mem) (fun _ => rfl) ha (Dev.bar2Read_unserved addr len mem hs hb),
      does_upd_eq (fun d => d.bar2Write addr bytes mem) (fun _ => rfl) ha (Dev.bar2Write_unserved addr bytes mem hs)⟩
  case readEq =>
    intro d addr len mem ha hs hb
    exact does_upd_eq (fun d => d.bar2Read addr len mem) (fun _ => rfl) ha (Dev.bar2Read_served addr len mem hs hb)
  case poisoned =>
    intro d addr len g ha hs hb hg hslot hsize hr
    obtain ⟨g', hbyte, hdata⟩ := Dev.bar2Data_poisoned (d := d.ret []) hg ((d.bar2Byte_iff g).mpr ⟨hsize, hslot⟩)
    refine completes_upd (f := fun d => d.bar2Read addr len []) (fun _ => rfl) ha ?_
    rw [Dev.bar2Read_errorless addr len hs hb, hdata]
    obtain ⟨hpend, hhbm, hanswer⟩ := Dev.hbmUeAt_effect
      (d := { d.ret [] with out := { (d.ret []).out with rdata := [], poisoned := true } }) accRead hr (Dev.stackOf_lt_of_bar2Byte hbyte)
    exact ⟨hanswer.2, hanswer.1, hpend, hhbm⟩

end Sys2Proof.Machine
end

section
/-!
PROOFS. Memory errors and repairs (O23): refuted. The statement takes whatever word the block holds as the next one of a memory's scrub
pass, not one that lies in that memory. Hub memory fills the 2^24 bytes that a key has for an offset (log entry 13), so the word past its
end has the key of the next hub unit number, which Table 4 of R516 does not list; the collector does not record an event of such a master
(log entry 121), and the corrected word does not become pending. A scrub pass itself ends at the end of its memory and never leaves the
next word there.
-/
namespace Sys2Proof.Machine

theorem Dev.rowDue_coll (d : Dev) (key : Nat) : (d.rowDue key).coll = d.coll := by
  unfold Dev.rowDue
  dsimp only
  split <;> rfl

theorem Dev.raise_of_master_unknown (d : Dev) {master : Nat} (src addr acc : Nat) (h : masterKnown master = false) :
    d.raise src master addr acc = d := Dev.event_of_master_unknown _ h

/-- A corrected word of an owner that may not be reported (R516) leaves the collector alone. -/
theorem Dev.sramCe_coll_of_master_unknown (d : Dev) {key : Nat} (acc : Nat) (h : masterKnown (keyUnit key) = false) :
    (d.sramCe key acc).coll = d.coll := by
  simp only [Dev.sramCe, Dev.raise_of_master_unknown _ _ _ _ h, apply_ite Dev.coll, Dev.rowDue_coll, ite_self, Dev.modUnit_coll,
    Dev.addSat_coll]

/-- The scrubber's read of a corrected word of such an owner leaves the collector alone. -/
theorem Dev.scrubRead_coll_of_master_unknown (d : Dev) {mem off : Nat} (t : Nat) (h : masterKnown (keyUnit (mem * 0x1000000 + off)) = false) :
    (d.scrubRead mem off 1 t).coll = d.coll := by
  unfold Dev.scrubRead
  split
  · rfl
  · refine (Dev.sramCe_coll_of_master_unknown _ accRead h).trans ?_
    dsimp only
    split <;> rfl

/-- The owner that the word past the end of hub memory names is not listed. -/
theorem hubMem_end_master_unknown : masterKnown (keyUnit (hubMem * 0x1000000 + memSize hubMem)) = false := by decide

/-- The block after reset, but the next word to scrub in hub memory is the one past its end. -/
def scrubEndDev : Dev := { Dev.reset with mem := { Dev.reset.mem with scrubAt := [(hubMem, memSize hubMem)] } }

/-- It meets what the statement asks of a block whose scrubber reads that word. -/
theorem scrubEndDev_scrubs : scrubEndDev.awake ∧ scrubEndDev.memOn hubMem = true ∧
    memSize hubMem = mget 0 scrubEndDev.mem.scrubAt hubMem ∧ scrubEndDev.coll.ready = true :=
  ⟨rfl, by decide, rfl, rfl⟩

/-- Refutes O23: a corrected word that the scrubber finds is said to become pending as source 0x000, but in a block whose next word to scrub
in hub memory is the one past its end, its owner is none that is reported, and nothing becomes pending. -/
theorem not_memoryErrorsAndRepairs : ¬ Obligations.MemoryErrorsAndRepairs := by
  unfold Obligations.MemoryErrorsAndRepairs
  rintro ⟨scrub, -⟩
  obtain ⟨awake, memOn, next, ready⟩ := scrubEndDev_scrubs
  obtain ⟨corrected, -⟩ := scrub scrubEndDev hubMem (memSize hubMem) 1 0 awake memOn next ready
  have hgo : Does (.scrubRead hubMem (memSize hubMem) 1 0) scrubEndDev (scrubEndDev.scrubRead hubMem (memSize hubMem) 1 0) :=
    does_upd (f := fun d => d.scrubRead hubMem (memSize hubMem) 1 0) (fun _ => rfl) awake
  obtain ⟨hpending, -⟩ := (corrected rfl).of_does hgo
  rw [Dev.scrubRead_coll_of_master_unknown _ _ hubMem_end_master_unknown] at hpending
  exact absurd hpending (by decide +kernel)

end Sys2Proof.Machine
end

section
/-!
PROOFS. Tensors and operands on chip (O7): an element has a place of its own in its run, and the runs of a writable tensor are apart, so
elements that are written read back and bytes outside the runs stay.
-/
namespace Sys2Proof.Machine

/-! ## Where an element lies (R149 to R154) -/

theorem dtBits_cases (dt : Nat) : dtBits dt = 4 ∨ dtBits dt = 8 ∨ dtBits dt = 16 ∨ dtBits dt = 32 := by
  by_cases h : dt < 10
  · interval_cases dt <;> decide
  · exact .inr (.inl (List.getD_eq_default _ _ (Nat.le_of_not_lt h)))

/-- An element takes one half byte, or whole bytes. -/
theorem TDesc.nibs_cases (t : TDesc) : t.nibs = 1 ∨ (0 < t.nibs ∧ t.nibs % 2 = 0) := by
  unfold TDesc.nibs
  rcases dtBits_cases t.dtype with h | h | h | h <;> rw [h] <;> decide

theorem TDesc.nibs_pos (t : TDesc) : 0 < t.nibs := by
  have := t.nibs_cases
  omega

/-- A line of a Bolt layout has 128 bytes (R151). -/
theorem TDesc.ke_mul_nibs (t : TDesc) : t.ke * t.nibs = 256 := by
  unfold TDesc.ke TDesc.nibs
  rcases dtBits_cases t.dtype with h | h | h | h <;> rw [h]

theorem TDesc.ke_pos (t : TDesc) : 0 < t.ke := Nat.pos_of_mul_pos_right (t.ke_mul_nibs ▸ by decide : 0 < t.ke * t.nibs)

/-- The rows and the columns of a tile of a layout other than LINEAR (R151 to R154). -/
def TDesc.tile (t : TDesc) : Nat × Nat :=
  match t.layout with
  | 1 => (64, t.ke)
  | 2 => (128, t.ke)
  | _ => (64, 128)

theorem TDesc.tile_pos (t : TDesc) : 0 < t.tile.1 ∧ 0 < t.tile.2 := by
  unfold TDesc.tile
  split
  · exact ⟨Nat.succ_pos _, t.ke_pos⟩
  · exact ⟨Nat.succ_pos _, t.ke_pos⟩
  · decide

/-- The number of element (i0, i1) of a matrix in tiles of `r` rows and `c` columns, `w` tiles in a row of tiles. -/
def tileIndex (w r c i0 i1 : Nat) : Nat := ((i1 / r * w + i0 / c) * r + i1 % r) * c + i0 % c

/-- The number of element (i0, i1) among the elements of its run. -/
def TDesc.index (t : TDesc) (i0 i1 : Nat) : Nat :=
  if t.layout = 0 then i0 else tileIndex (ceilDiv (t.dim 0) t.tile.2) t.tile.1 t.tile.2 i0 i1
/-- The offset of the run that holds the elements (·, i1, i2, i3): a row of a LINEAR tensor, a whole block of another. -/
def TDesc.runAt (t : TDesc) (i1 i2 i3 : Nat) : Nat := i2 * t.stride 2 + i3 * t.stride 3 + if t.layout = 0 then i1 * t.stride 1 else 0
/-- The length of a run. -/
def TDesc.runLen (t : TDesc) : Nat := if t.layout = 0 then ceilDiv (t.dim 0 * t.nibs) 2 else t.block

/-- An element lies in its run by its number there. -/
theorem TDesc.at_eq (t : TDesc) (i0 i1 i2 i3 : Nat) : t.at_ i0 i1 i2 i3 = 2 * t.runAt i1 i2 i3 + t.index i0 i1 * t.nibs := by
  have hk := t.ke_mul_nibs
  unfold TDesc.at_ TDesc.runAt TDesc.index TDesc.tile tileIndex
  split
  · next h => simp only [h, if_true]; ring
  · next h =>
    simp only [h, Nat.one_ne_zero, if_false, Nat.add_mul, Nat.mul_assoc, hk]
    ring
  · next h =>
    simp only [h, (by decide : (2 : Nat) ≠ 0), if_false, Nat.add_mul, Nat.mul_assoc, hk]
    ring
  · next h0 h1 h2 =>
    simp only [if_neg h0]
    ring

theorem mul_add_inj {c a a' b b' : Nat} (hb : b < c) (hb' : b' < c) (h : a * c + b = a' * c + b') : a = a' ∧ b = b' := by
  have hdiv := congrArg (· / c) h
  have hmod := congrArg (· % c) h
  have hc : 0 < c := Nat.zero_lt_of_lt hb
  simp only [Nat.mul_comm _ c, Nat.mul_add_div hc, Nat.mul_add_mod, Nat.mod_eq_of_lt hb, Nat.mod_eq_of_lt hb', Nat.div_eq_of_lt hb,
    Nat.div_eq_of_lt hb', Nat.add_zero] at hdiv hmod
  exact ⟨hdiv, hmod⟩

theorem mul_add_lt {c n a b : Nat} (ha : a < n) (hb : b < c) : a * c + b < n * c :=
  calc a * c + b < (a + 1) * c := by rw [Nat.succ_mul]; omega
    _ ≤ n * c := Nat.mul_le_mul_right _ ha

theorem div_lt_ceilDiv {i n c : Nat} (hc : 0 < c) (hi : i < n) : i / c < ceilDiv n c := by
  rw [ceilDiv, Nat.div_lt_iff_lt_mul hc]
  have h := Nat.div_add_mod (n + c - 1) c
  have hm := Nat.mod_lt (n + c - 1) hc
  rw [Nat.mul_comm] at h
  omega

/-- Elements of one matrix in tiles have numbers of their own. -/
theorem tileIndex_inj {w r c i0 i1 j0 j1 : Nat} (hr : 0 < r) (hc : 0 < c) (hi : i0 / c < w) (hj : j0 / c < w)
    (h : tileIndex w r c i0 i1 = tileIndex w r c j0 j1) : i0 = j0 ∧ i1 = j1 := by
  obtain ⟨h, hcol⟩ := mul_add_inj (Nat.mod_lt _ hc) (Nat.mod_lt _ hc) h
  obtain ⟨h, hrow⟩ := mul_add_inj (Nat.mod_lt _ hr) (Nat.mod_lt _ hr) h
  obtain ⟨hdown, hright⟩ := mul_add_inj hi hj h
  constructor
  · rw [← Nat.div_add_mod i0 c, ← Nat.div_add_mod j0 c, hright, hcol]
  · rw [← Nat.div_add_mod i1 r, ← Nat.div_add_mod j1 r, hdown, hrow]

theorem tileIndex_lt {w r c i0 i1 n : Nat} (hr : 0 < r) (hc : 0 < c) (hi : i0 / c < w) (hn : i1 / r < n) :
    tileIndex w r c i0 i1 < n * w * r * c :=
  mul_add_lt (mul_add_lt (mul_add_lt hn hi) (Nat.mod_lt _ hr)) (Nat.mod_lt _ hc)

/-- Elements of one run have numbers of their own. -/
theorem TDesc.index_inj {t : TDesc} {i0 i1 j0 j1 : Nat} (hi : i0 < t.dim 0) (hj : j0 < t.dim 0) (h : t.index i0 i1 = t.index j0 j1) :
    i0 = j0 ∧ (t.layout ≠ 0 → i1 = j1) := by
  unfold TDesc.index at h
  split at h
  · next h0 => exact ⟨h, fun hne => absurd h0 hne⟩
  · obtain ⟨hr, hc⟩ := t.tile_pos
    obtain ⟨h₀, h₁⟩ := tileIndex_inj hr hc (div_lt_ceilDiv hc hi) (div_lt_ceilDiv hc hj) h
    exact ⟨h₀, fun _ => h₁⟩

/-- A block of tiles holds whole tiles. -/
theorem TDesc.block_tiled {t : TDesc} (h : t.layout ≠ 0) :
    2 * t.block = ceilDiv (t.dim 1) t.tile.1 * ceilDiv (t.dim 0) t.tile.2 * t.tile.1 * t.tile.2 * t.nibs := by
  have hk := t.ke_mul_nibs
  unfold TDesc.block
  split
  · exact absurd ‹_› h
  · next h1 =>
    simp only [TDesc.tile, h1, Nat.mul_assoc, hk]
    ring
  · next h2 =>
    simp only [TDesc.tile, h2, Nat.mul_assoc, hk]
    ring
  · next h0 h1 h2 =>
    have htile : t.tile = (64, 128) := by
      unfold TDesc.tile
      split
      · exact absurd ‹_› h1
      · exact absurd ‹_› h2
      · rfl
    rw [htile]
    ring

/-- An element ends within its run. -/
theorem TDesc.index_fits {t : TDesc} {i0 i1 : Nat} (h0 : i0 < t.dim 0) (h1 : i1 < t.dim 1) :
    t.index i0 i1 * t.nibs + t.nibs ≤ 2 * t.runLen := by
  rw [← Nat.succ_mul]
  unfold TDesc.index TDesc.runLen
  split
  · have hle : (i0 + 1) * t.nibs ≤ t.dim 0 * t.nibs := Nat.mul_le_mul_right _ h0
    simp only [ceilDiv, Nat.succ_eq_add_one]
    omega
  · next h =>
    obtain ⟨hr, hc⟩ := t.tile_pos
    rw [TDesc.block_tiled h]
    exact Nat.mul_le_mul_right _ (tileIndex_lt hr hc (div_lt_ceilDiv hc h0) (div_lt_ceilDiv hr h1))

/-! ## The runs of a writable tensor are apart (R156) -/

theorem mul_add_le_of_lt {i j n s : Nat} (h : i < j) (hs : n ≤ s) : i * s + n ≤ j * s :=
  calc i * s + n ≤ (i + 1) * s := by rw [Nat.succ_mul]; omega
    _ ≤ j * s := Nat.mul_le_mul_right _ h

/-- What makes a tensor writable, dimension by dimension. -/
theorem TDesc.writable_iff (t : TDesc) : t.writable = true ↔ (t.layout = 0 → 1 < t.dim 1 → t.runLen ≤ t.stride 1) ∧
    (1 < t.dim 2 → t.block ≤ t.stride 2) ∧ (1 < t.dim 3 → t.block + (t.dim 2 - 1) * t.stride 2 ≤ t.stride 3) := by
  unfold TDesc.writable TDesc.runLen
  by_cases h0 : t.layout = 0 <;> simp [h0, imp_iff_not_or, and_assoc]

/-- A run lies within its block. -/
theorem TDesc.run_in_block (t : TDesc) {i1 : Nat} (h : t.layout = 0 → i1 < t.dim 1) :
    (if t.layout = 0 then i1 * t.stride 1 else 0) + t.runLen ≤ t.block := by
  unfold TDesc.runLen
  split
  · next h0 =>
    have hle : i1 * t.stride 1 ≤ (t.dim 1 - 1) * t.stride 1 := Nat.mul_le_mul_right _ (Nat.le_pred_of_lt (h h0))
    simp only [TDesc.block, h0]
    omega
  · omega

/-- A run that comes before another in the order of the coordinates ends before it. -/
theorem TDesc.run_before {t : TDesc} (hw : t.writable = true) {i1 i2 i3 j1 j2 j3 : Nat} (hi1 : t.layout = 0 → i1 < t.dim 1)
    (hi2 : i2 < t.dim 2) (hj1 : t.layout = 0 → j1 < t.dim 1) (hj2 : j2 < t.dim 2) (hj3 : j3 < t.dim 3)
    (h : i3 < j3 ∨ i3 = j3 ∧ (i2 < j2 ∨ i2 = j2 ∧ t.layout = 0 ∧ i1 < j1)) : t.runAt i1 i2 i3 + t.runLen ≤ t.runAt j1 j2 j3 := by
  obtain ⟨hrow, hplane, hvolume⟩ := t.writable_iff.mp hw
  have hin := t.run_in_block hi1
  unfold TDesc.runAt
  rcases h with h | ⟨rfl, h | ⟨rfl, h0, h⟩⟩
  · have hle := mul_add_le_of_lt h (hvolume (by omega))
    have hlast : i2 * t.stride 2 ≤ (t.dim 2 - 1) * t.stride 2 := Nat.mul_le_mul_right _ (Nat.le_pred_of_lt hi2)
    omega
  · have hle := mul_add_le_of_lt h (hplane (by omega))
    omega
  · have hle := mul_add_le_of_lt h (hrow h0 (by have := hj1 h0; omega))
    simp only [h0, if_true]
    omega

/-- The runs of a block. -/
def TDesc.rows (t : TDesc) : Nat := if t.layout = 0 then t.dim 1 else 1

/-- The runs of a tensor, block by block. -/
theorem TDesc.segs_eq (t : TDesc) : t.segs = (List.range (t.dim 3)).flatMap (fun i3 => (List.range (t.dim 2)).flatMap (fun i2 =>
    (List.range t.rows).map (fun i1 => (t.runAt i1 i2 i3, t.runLen)))) := by
  unfold TDesc.segs TDesc.rows TDesc.runAt TDesc.runLen
  by_cases h0 : t.layout = 0
  · simp only [h0, if_true]
  · simp only [h0, if_false, List.range_one, List.map_cons, List.map_nil, Nat.add_zero]

theorem TDesc.mem_segs {t : TDesc} {s : Nat × Nat} :
    s ∈ t.segs ↔ ∃ i1 i2 i3, i1 < t.rows ∧ i2 < t.dim 2 ∧ i3 < t.dim 3 ∧ s = (t.runAt i1 i2 i3, t.runLen) := by
  simp only [TDesc.segs_eq, List.mem_flatMap, List.mem_map, List.mem_range]
  constructor
  · rintro ⟨i3, h3, i2, h2, i1, h1, rfl⟩
    exact ⟨i1, i2, i3, h1, h2, h3, rfl⟩
  · rintro ⟨i1, i2, i3, h1, h2, h3, rfl⟩
    exact ⟨i3, h3, i2, h2, i1, h1, rfl⟩

/-- All runs of a tensor have one length. -/
theorem TDesc.segs_len {t : TDesc} {s : Nat × Nat} (h : s ∈ t.segs) : s.2 = t.runLen := by
  obtain ⟨i1, i2, i3, -, -, -, rfl⟩ := TDesc.mem_segs.mp h
  rfl

theorem TDesc.lt_dim_of_rows {t : TDesc} {i1 : Nat} (h : i1 < t.rows) (h0 : t.layout = 0) : i1 < t.dim 1 := by
  rwa [TDesc.rows, if_pos h0] at h

/-- The runs of a writable tensor come one after the other. -/
theorem TDesc.segs_pairwise {t : TDesc} (hw : t.writable = true) : t.segs.Pairwise (fun s q => s.1 + s.2 ≤ q.1) := by
  have rising := fun n => (List.pairwise_lt_range (n := n)).imp_of_mem
    (S := fun i j => i < n ∧ j < n ∧ i < j) (fun hi hj h => ⟨List.mem_range.mp hi, List.mem_range.mp hj, h⟩)
  simp only [TDesc.segs_eq, List.pairwise_flatMap, List.pairwise_map, List.mem_flatMap, List.mem_map, List.mem_range]
  refine ⟨fun i3 h3 => ⟨fun i2 h2 => (rising _).imp ?_, (rising _).imp ?_⟩, (rising _).imp ?_⟩
  · rintro i1 j1 ⟨hi1, hj1, h⟩
    have h0 : t.layout = 0 := by
      by_contra h0
      rw [TDesc.rows, if_neg h0] at hj1
      omega
    exact TDesc.run_before hw (TDesc.lt_dim_of_rows hi1) h2 (TDesc.lt_dim_of_rows hj1) h2 h3 (.inr ⟨rfl, .inr ⟨rfl, h0, h⟩⟩)
  · rintro i2 j2 ⟨hi2, hj2, h⟩ _ ⟨i1, hi1, rfl⟩ _ ⟨j1, hj1, rfl⟩
    exact TDesc.run_before hw (TDesc.lt_dim_of_rows hi1) hi2 (TDesc.lt_dim_of_rows hj1) hj2 h3 (.inr ⟨rfl, .inl h⟩)
  · rintro i3 j3 ⟨-, hj3, h⟩ _ ⟨i2, hi2, i1, hi1, rfl⟩ _ ⟨j2, hj2, j1, hj1, rfl⟩
    exact TDesc.run_before hw (TDesc.lt_dim_of_rows hi1) hi2 (TDesc.lt_dim_of_rows hj1) hj2 hj3 (.inl h)

/-! ## The elements of a writable tensor are apart -/

/-- The half-byte offset of an element from the base, by its coordinates. -/
def TDesc.atq (t : TDesc) (q : Nat × Nat × Nat × Nat) : Nat := t.at_ q.1 q.2.1 q.2.2.1 q.2.2.2

theorem TDesc.mem_coords {t : TDesc} {q : Nat × Nat × Nat × Nat} :
    q ∈ t.coords ↔ q.1 < t.dim 0 ∧ q.2.1 < t.dim 1 ∧ q.2.2.1 < t.dim 2 ∧ q.2.2.2 < t.dim 3 := by
  simp only [TDesc.coords, List.mem_flatMap, List.mem_map, List.mem_range]
  constructor
  · rintro ⟨i3, h3, i2, h2, i1, h1, i0, h0, rfl⟩
    exact ⟨h0, h1, h2, h3⟩
  · rintro ⟨h0, h1, h2, h3⟩
    exact ⟨q.2.2.2, h3, q.2.2.1, h2, q.2.1, h1, q.1, h0, rfl⟩

/-- Two elements that differ lie in runs of which one ends before the other, or in one run with numbers that differ. -/
theorem TDesc.coords_apart {t : TDesc} (hw : t.writable = true) {x y : Nat × Nat × Nat × Nat} (hx : x ∈ t.coords) (hy : y ∈ t.coords)
    (hne : x ≠ y) :
    t.runAt x.2.1 x.2.2.1 x.2.2.2 + t.runLen ≤ t.runAt y.2.1 y.2.2.1 y.2.2.2 ∨
    t.runAt y.2.1 y.2.2.1 y.2.2.2 + t.runLen ≤ t.runAt x.2.1 x.2.2.1 x.2.2.2 ∨
    t.runAt x.2.1 x.2.2.1 x.2.2.2 = t.runAt y.2.1 y.2.2.1 y.2.2.2 ∧ t.index x.1 x.2.1 ≠ t.index y.1 y.2.1 := by
  obtain ⟨i0, i1, i2, i3⟩ := x
  obtain ⟨j0, j1, j2, j3⟩ := y
  obtain ⟨hi0, hi1, hi2, hi3⟩ : i0 < _ ∧ i1 < _ ∧ i2 < _ ∧ i3 < _ := TDesc.mem_coords.mp hx
  obtain ⟨hj0, hj1, hj2, hj3⟩ : j0 < _ ∧ j1 < _ ∧ j2 < _ ∧ j3 < _ := TDesc.mem_coords.mp hy
  dsimp only
  have before := TDesc.run_before hw (i3 := i3) (fun _ => hi1) hi2 (fun _ => hj1) hj2 hj3
  have after := TDesc.run_before hw (i3 := j3) (fun _ => hj1) hj2 (fun _ => hi1) hi2 hi3
  by_cases hrun : i3 = j3 ∧ i2 = j2 ∧ (t.layout = 0 → i1 = j1)
  · obtain ⟨rfl, rfl, h1⟩ := hrun
    refine .inr (.inr ⟨?_, fun hidx => hne ?_⟩)
    · unfold TDesc.runAt
      split
      · rw [h1 ‹_›]
      · rfl
    · obtain ⟨h0, h1'⟩ := TDesc.index_inj hi0 hj0 hidx
      have : i1 = j1 := by by_cases hl : t.layout = 0 <;> [exact h1 hl; exact h1' hl]
      rw [h0, this]
  · by_cases hl : i3 < j3 ∨ i3 = j3 ∧ (i2 < j2 ∨ i2 = j2 ∧ t.layout = 0 ∧ i1 < j1)
    · exact .inl (before hl)
    · exact .inr (.inl (after (by omega)))

theorem TDesc.atq_eq (t : TDesc) (q : Nat × Nat × Nat × Nat) :
    t.atq q = 2 * t.runAt q.2.1 q.2.2.1 q.2.2.2 + t.index q.1 q.2.1 * t.nibs := t.at_eq ..

/-- An element lies in one of the tensor's runs. -/
theorem TDesc.atq_in_run {t : TDesc} {q : Nat × Nat × Nat × Nat} (h : q ∈ t.coords) :
    ∃ s ∈ t.segs, 2 * s.1 ≤ t.atq q ∧ t.atq q + t.nibs ≤ 2 * (s.1 + s.2) := by
  obtain ⟨h0, h1, h2, h3⟩ := TDesc.mem_coords.mp h
  have hfit := TDesc.index_fits h0 h1
  refine ⟨(t.runAt q.2.1 q.2.2.1 q.2.2.2, t.runLen), TDesc.mem_segs.mpr ?_, ?_, ?_⟩
  · by_cases hl : t.layout = 0
    · exact ⟨q.2.1, q.2.2.1, q.2.2.2, by rwa [TDesc.rows, if_pos hl], h2, h3, rfl⟩
    · refine ⟨0, q.2.2.1, q.2.2.2, by rw [TDesc.rows, if_neg hl]; decide, h2, h3, ?_⟩
      simp only [TDesc.runAt, hl, if_false]
  · rw [TDesc.atq_eq]
    omega
  · rw [TDesc.atq_eq]
    omega

theorem mul_apart {n i j : Nat} (h : i ≠ j) : i * n + n ≤ j * n ∨ j * n + n ≤ i * n := by
  rcases Nat.lt_or_gt_of_ne h with h | h
  · exact .inl (mul_add_le_of_lt h le_rfl)
  · exact .inr (mul_add_le_of_lt h le_rfl)

/-- Two elements of a writable tensor share no half byte. -/
theorem TDesc.atq_apart {t : TDesc} (hw : t.writable = true) {x y : Nat × Nat × Nat × Nat} (hx : x ∈ t.coords) (hy : y ∈ t.coords)
    (hne : x ≠ y) : t.atq x + t.nibs ≤ t.atq y ∨ t.atq y + t.nibs ≤ t.atq x := by
  obtain ⟨hx0, hx1, -, -⟩ := TDesc.mem_coords.mp hx
  obtain ⟨hy0, hy1, -, -⟩ := TDesc.mem_coords.mp hy
  have hxfit := TDesc.index_fits hx0 hx1
  have hyfit := TDesc.index_fits hy0 hy1
  rw [TDesc.atq_eq, TDesc.atq_eq]
  rcases TDesc.coords_apart hw hx hy hne with h | h | ⟨h, hidx⟩
  · omega
  · omega
  · have := mul_apart (n := t.nibs) hidx
    omega

/-- Behind the last element of a row of half bytes, what is left of its byte belongs to no element (R149). -/
theorem TDesc.atq_ne_behind_last {t : TDesc} (hw : t.writable = true) (hn : t.nibs = 1) {x y : Nat × Nat × Nat × Nat} (hx : x ∈ t.coords)
    (hy : y ∈ t.coords) (hl : t.layout = 0) (hlast : y.1 + 1 = t.dim 0) (heven : t.atq y % 2 = 0) : t.atq x ≠ t.atq y + 1 := by
  intro heq
  obtain ⟨hx0, hx1, -, -⟩ := TDesc.mem_coords.mp hx
  have hfit := TDesc.index_fits hx0 hx1
  have hne : x ≠ y := fun h => by rw [h] at heq; omega
  have hindex : ∀ i j, t.index i j = i := fun i j => if_pos hl
  have hlen : t.runLen = (t.dim 0 + 2 - 1) / 2 := by rw [TDesc.runLen, if_pos hl, hn, Nat.mul_one, ceilDiv]
  have hruns := TDesc.coords_apart hw hx hy hne
  rw [hindex, hn] at hfit
  rw [hindex, hindex] at hruns
  rw [TDesc.atq_eq t y, hindex, hn] at heven
  rw [TDesc.atq_eq, TDesc.atq_eq, hindex, hindex, hn] at heq
  omega

/-! ## Operations that change on-chip bytes alone -/

/-- The blocks `d` and `e` differ in on-chip bytes alone. -/
def OnChip (d e : Dev) : Prop := e = { d with mem := { d.mem with sram := e.mem.sram } }

theorem OnChip.refl (d : Dev) : OnChip d d := rfl

theorem OnChip.trans {a b c : Dev} (h₁ : OnChip a b) (h₂ : OnChip b c) : OnChip a c := by
  unfold OnChip at *
  rw [h₁] at h₂
  exact h₂

theorem foldl_onChip {α : Type} {f : Dev → α → Dev} (h : ∀ d x, OnChip d (f d x)) (l : List α) (d : Dev) : OnChip d (l.foldl f d) := by
  induction l generalizing d with
  | nil => exact .refl d
  | cons x l ih => exact (h d x).trans (ih _)

/-! ## Reading and writing an element -/

theorem leNat_leBytes (n v : Nat) : leNat (leBytes n v) = v % 256 ^ n := by
  induction n generalizing v with
  | zero => rw [leBytes, leNat, pow_zero, Nat.mod_one]
  | succ n ih => rw [leBytes, leNat, ih, pow_succ', Nat.mod_mul]

/-- The on-chip byte that holds the first half byte of an element. -/
def Acc2.keyOf (a : Acc2) (q : Nat × Nat × Nat × Nat) : Nat := a.pl.key + a.t.atq q / 2

section
variable {a : Acc2} {q : Nat × Nat × Nat × Nat}

theorem Acc2.get_half (d : Dev) (hn : a.t.nibs = 1) : Acc2.get d a q =
    if a.t.atq q % 2 = 0 then (d.mem.sram.read (a.keyOf q)).toNat % 16 else (d.mem.sram.read (a.keyOf q)).toNat / 16 := if_pos hn

theorem Acc2.get_bytes (d : Dev) (hn : a.t.nibs ≠ 1) : Acc2.get d a q = leNat (d.mem.sram.readBytes (a.keyOf q) (a.t.nibs / 2)) := if_neg hn

/-- The byte that a write of a half byte leaves (R149). -/
def Acc2.halfByte (a : Acc2) (q : Nat × Nat × Nat × Nat) (b v : Nat) : Nat :=
  if a.t.atq q % 2 = 0 then v % 16 + (if a.t.layout == 0 && q.1 + 1 == a.t.dim 0 then 0 else b / 16 * 16) else b % 16 + v % 16 * 16

theorem Acc2.put_half_sram (d : Dev) (v : Nat) (hn : a.t.nibs = 1) : (Acc2.put d a q v).mem.sram =
    d.mem.sram.write (a.keyOf q) (BitVec.ofNat 8 (a.halfByte q (d.mem.sram.read (a.keyOf q)).toNat v)) := by
  unfold Acc2.put Dev.wrEl
  exact congrArg (fun e : Dev => e.mem.sram) (if_pos hn)

theorem Acc2.put_bytes_sram (d : Dev) (v : Nat) (hn : a.t.nibs ≠ 1) :
    (Acc2.put d a q v).mem.sram = d.mem.sram.writeBytes (a.keyOf q) (leBytes (a.t.nibs / 2) v) := by
  unfold Acc2.put Dev.wrEl
  exact congrArg (fun e : Dev => e.mem.sram) (if_neg hn)

theorem Acc2.put_onChip (d : Dev) (a : Acc2) (q : Nat × Nat × Nat × Nat) (v : Nat) : OnChip d (Acc2.put d a q v) := by
  unfold OnChip Acc2.put Dev.wrEl
  dsimp only
  split <;> rfl

/-- The offset of an element of whole bytes is even. -/
theorem TDesc.atq_even {t : TDesc} (hn : t.nibs ≠ 1) (q : Nat × Nat × Nat × Nat) : t.atq q % 2 = 0 := by
  have hn' : t.nibs % 2 = 0 := (t.nibs_cases.resolve_left hn).2
  rw [TDesc.atq_eq, Nat.mul_add_mod, Nat.mul_mod, hn', Nat.mul_zero, Nat.zero_mod]

/-- A write of an element leaves the bytes that hold nothing of it alone. -/
theorem Acc2.read_put_out (d : Dev) (a : Acc2) (q : Nat × Nat × Nat × Nat) (v : Nat) {key : Nat}
    (h : key < a.pl.key + a.t.atq q / 2 ∨ a.pl.key + (a.t.atq q + a.t.nibs - 1) / 2 < key) :
    (Acc2.put d a q v).mem.sram.read key = d.mem.sram.read key := by
  rcases a.t.nibs_cases with hn | ⟨-, hn⟩
  · rw [Acc2.put_half_sram d v hn, Mem.read_write_ne]
    unfold Acc2.keyOf
    omega
  · have hne : a.t.nibs ≠ 1 := by omega
    have heven := TDesc.atq_even hne q
    have hpos := a.t.nibs_pos
    rw [Acc2.put_bytes_sram d v hne, Mem.read_writeBytes_out]
    rw [length_leBytes, Acc2.keyOf]
    omega

/-- An element reads back as it was written. -/
theorem Acc2.get_put_same (d : Dev) (a : Acc2) (q : Nat × Nat × Nat × Nat) (v : Nat) :
    Acc2.get (Acc2.put d a q v) a q = v % 2 ^ (4 * a.t.nibs) := by
  by_cases hn : a.t.nibs = 1
  · rw [Acc2.get_half _ hn, Acc2.put_half_sram d v hn, Mem.read_write_same, hn]
    have hb := (d.mem.sram.read (a.keyOf q)).isLt
    simp only [Acc2.halfByte, BitVec.toNat_ofNat]
    split_ifs <;> omega
  · have hlen : (leBytes (a.t.nibs / 2) v).length = a.t.nibs / 2 := length_leBytes _ _
    have hback := Mem.readBytes_writeBytes d.mem.sram (a.keyOf q) _ (leBytes_lt (a.t.nibs / 2) v)
    have hn' : a.t.nibs % 2 = 0 := (a.t.nibs_cases.resolve_left hn).2
    rw [hlen] at hback
    rw [Acc2.get_bytes _ hn, Acc2.put_bytes_sram d v hn, hback, leNat_leBytes, (by decide : 256 = 2 ^ 8), ← pow_mul]
    congr 2
    omega

/-- Elements that share no byte, or that share one but no half of it, do not disturb each other. -/
theorem Acc2.get_put_ne (d : Dev) (v : Nat) (hw : a.t.writable = true) {x y : Nat × Nat × Nat × Nat} (hx : x ∈ a.t.coords)
    (hy : y ∈ a.t.coords) (hne : x ≠ y) : Acc2.get (Acc2.put d a y v) a x = Acc2.get d a x := by
  have hapart := TDesc.atq_apart hw hx hy hne
  by_cases hn : a.t.nibs = 1
  · rw [hn] at hapart
    rw [Acc2.get_half _ hn, Acc2.get_half _ hn]
    by_cases hbyte : a.t.atq x / 2 = a.t.atq y / 2
    · have hkey : a.keyOf x = a.keyOf y := by rw [Acc2.keyOf, hbyte, Acc2.keyOf]
      have hb := (d.mem.sram.read (a.keyOf y)).isLt
      rw [Acc2.put_half_sram d v hn, hkey, Mem.read_write_same]
      simp only [Acc2.halfByte, BitVec.toNat_ofNat, Bool.and_eq_true, beq_iff_eq]
      by_cases hlast : a.t.layout = 0 ∧ y.1 + 1 = a.t.dim 0
      · have halone := TDesc.atq_ne_behind_last hw hn hx hy hlast.1 hlast.2
        split_ifs <;> omega
      · split_ifs <;> omega
    · rw [Acc2.read_put_out d a y v]
      rw [hn, Acc2.keyOf]
      omega
  · have hx2 := TDesc.atq_even hn x
    have hy2 := TDesc.atq_even hn y
    rw [Acc2.get_bytes _ hn, Acc2.get_bytes _ hn]
    congr 1
    refine List.map_congr_left (fun i hi => congrArg BitVec.toNat (Acc2.read_put_out d a y v ?_))
    have hi' := List.mem_range.mp hi
    rw [Acc2.keyOf]
    omega

end

/-! ## Writing the elements of an operand -/

/-- The elements `l` of an operand, written from a function of their coordinates. -/
def Acc2.putAll (d : Dev) (a : Acc2) (val : Nat × Nat × Nat × Nat → Nat) (l : List (Nat × Nat × Nat × Nat)) : Dev :=
  l.foldl (fun s x => Acc2.put s a x (val x)) d

section
variable {a : Acc2} {val : Nat × Nat × Nat × Nat → Nat}

theorem Acc2.putAll_append_one (d : Dev) (l : List (Nat × Nat × Nat × Nat)) (y : Nat × Nat × Nat × Nat) :
    Acc2.putAll d a val (l ++ [y]) = Acc2.put (Acc2.putAll d a val l) a y (val y) := by
  rw [Acc2.putAll, List.foldl_append]
  rfl

theorem Acc2.putAll_onChip (d : Dev) (l : List (Nat × Nat × Nat × Nat)) : OnChip d (Acc2.putAll d a val l) :=
  foldl_onChip (fun s x => Acc2.put_onChip s a x (val x)) l d

/-- Each element that is written reads back its own value, in whatever order they are written. -/
theorem Acc2.get_putAll (d : Dev) (hw : a.t.writable = true) {l : List (Nat × Nat × Nat × Nat)} (hl : ∀ x ∈ l, x ∈ a.t.coords)
    {x : Nat × Nat × Nat × Nat} (hx : x ∈ l) : Acc2.get (Acc2.putAll d a val l) a x = val x % 2 ^ (4 * a.t.nibs) := by
  induction l using List.reverseRecOn with
  | nil => exact absurd hx List.not_mem_nil
  | append_singleton l y ih =>
    rw [Acc2.putAll_append_one]
    by_cases hxy : x = y
    · rw [hxy]
      exact Acc2.get_put_same ..
    · have hxl : x ∈ l := by simpa [hxy] using hx
      rw [Acc2.get_put_ne _ _ hw (hl x hx) (hl y (by simp)) hxy]
      exact ih (fun z hz => hl z (List.mem_append_left _ hz)) hxl

/-- The bytes that hold nothing of the elements stay. -/
theorem Acc2.read_putAll_out (d : Dev) {l : List (Nat × Nat × Nat × Nat)} {key : Nat}
    (h : ∀ x ∈ l, key < a.pl.key + a.t.atq x / 2 ∨ a.pl.key + (a.t.atq x + a.t.nibs - 1) / 2 < key) :
    (Acc2.putAll d a val l).mem.sram.read key = d.mem.sram.read key := by
  induction l using List.reverseRecOn with
  | nil => rfl
  | append_singleton l y ih =>
    rw [Acc2.putAll_append_one, Acc2.read_put_out _ _ _ _ (h y (by simp))]
    exact ih (fun z hz => h z (List.mem_append_left _ hz))

/-- A byte outside the runs holds nothing of an element. -/
theorem Acc2.outside_of_not_covers {key : Nat} (h : ¬ a.covers key) {x : Nat × Nat × Nat × Nat} (hx : x ∈ a.t.coords) :
    key < a.pl.key + a.t.atq x / 2 ∨ a.pl.key + (a.t.atq x + a.t.nibs - 1) / 2 < key := by
  obtain ⟨s, hs, hlo, hhi⟩ := TDesc.atq_in_run hx
  have hpos := a.t.nibs_pos
  have hout : ¬ (a.pl.key + s.1 ≤ key ∧ key < a.pl.key + s.1 + s.2) := fun hin => h ⟨s, hs, hin⟩
  omega

theorem Acc2.read_putAll_not_covers (d : Dev) {l : List (Nat × Nat × Nat × Nat)} (hl : ∀ x ∈ l, x ∈ a.t.coords) {key : Nat}
    (h : ¬ a.covers key) : (Acc2.putAll d a val l).mem.sram.read key = d.mem.sram.read key :=
  Acc2.read_putAll_out d (fun x hx => Acc2.outside_of_not_covers h (hl x hx))

end

/-! ## Alignment (R157) -/

theorem stIf_eq_nil {c : Bool} {st : Nat} : stIf c st = [] ↔ c = false := by
  cases c <;> simp [stIf]

/-- An operand is aligned when its base, its gang stride and the strides of its dimensions above 1 are multiples of the width. -/
theorem Acc2.unaligned_eq_nil (a : Acc2) (w gs : Nat) : a.unaligned w gs = [] ↔
    a.addr % w = 0 ∧ gs % w = 0 ∧ ∀ n ∈ [1, 2, 3], 1 < a.t.dim n → a.t.stride n % w = 0 := by
  have haligned : a.t.aligned w = true ↔ ∀ n ∈ [1, 2, 3], 1 < a.t.dim n → a.t.stride n % w = 0 := by
    simp only [TDesc.aligned, List.all_eq_true, Bool.or_eq_true, decide_eq_true_eq, beq_iff_eq, ← Nat.not_lt, imp_iff_not_or]
  rw [Acc2.unaligned, stIf_eq_nil, ← haligned]
  simp only [Bool.or_eq_false_iff, bne_eq_false_iff_eq, Bool.not_eq_false', and_assoc, and_comm (a := gs % w = 0)]

/-- Settles O7: elements of a writable tensor have places of their own, within the tensor's runs. -/
theorem writtenElementsReadBack : Obligations.WrittenElementsReadBack := by
  refine ⟨fun d a val hw => ⟨?_, ?_⟩, fun a w gs => a.unaligned_eq_nil w gs⟩
  · exact fun x hx => Acc2.get_putAll d hw (fun _ h => h) hx
  · exact fun key hkey => Acc2.read_putAll_not_covers d (fun _ h => h) hkey

end Sys2Proof.Machine
end

section
/-!
PROOFS. MOVE, PUBLISH, REBOLT and WINDOW (O11), with what every engine instruction shares: the operand that a slot names, the issue into a
queue, and the start of an instruction at the head of one.
-/
namespace Sys2Proof.Machine

/-! ## The operand that a slot names (R201, R202) -/

theorem Cur.form_desc {c : Cur} {g n : Nat} {o : Operand} (h : c.form g n = .ok o) : o.desc = c.desc n := by
  unfold Cur.form at h
  split at h
  · cases h
  · next x hx =>
    have hdesc : c.desc n = x.desc := by rw [Cur.desc, Cur.descAt, hx, Option.map_some, Option.getD_some]
    rw [hdesc]
    rcases ite_eq_iff.mp h with ⟨-, h⟩ | ⟨-, h⟩
    · cases h
    rcases ite_eq_iff.mp h with ⟨-, h⟩ | ⟨-, h⟩
    · cases h
    rcases ite_eq_iff.mp h with ⟨-, h⟩ | ⟨-, h⟩
    · cases h
    · injection h with h
      rw [← h]

theorem Cur.formIn_desc {c : Cur} {g n sp : Nat} {ok : Nat → Bool} {o : Operand} (h : c.formIn g n ok sp = .ok o) : o.desc = c.desc n := by
  unfold Cur.formIn at h
  split at h
  · cases h
  · split_ifs at h
    exact Cur.form_desc h

/-- A located operand has the descriptor that was named, and may be written if it is to be. -/
theorem Dev.locate_ok {d : Dev} {c : Cur} {o : Operand} {wr : Bool} {sp : Nat} {a : Acc2} (h : d.locate c o wr sp = .ok a) :
    a.t = o.desc ∧ (wr = true → a.t.writable = true) := by
  unfold Dev.locate at h
  split at h
  · cases h
  split at h
  · cases h
  split at h
  · cases h
  · next hwr =>
    cases h
    refine ⟨rfl, fun hw => ?_⟩
    simp only [hw, Bool.true_and, Bool.or_eq_true, Bool.not_eq_true', not_or, Bool.not_eq_false] at hwr
    exact hwr.2

theorem Dev.opd_ok {d : Dev} {c : Cur} {g n : Nat} {wr : Bool} {sp : Nat} {a : Acc2} (h : d.opd c g n wr sp = .ok a) :
    a.t = c.desc n ∧ (wr = true → a.t.writable = true) := by
  unfold Dev.opd at h
  split at h
  · cases h
  · next o ho =>
    obtain ⟨ht, hw⟩ := Dev.locate_ok h
    exact ⟨ht.trans (Cur.formIn_desc ho), hw⟩

/-- Where an operand lies is no matter of the time. -/
theorem Dev.opd_atTime (d : Dev) (t : Nat) (c : Cur) (g n : Nat) (wr : Bool) (sp : Nat) : (d.at_ t).opd c g n wr sp = d.opd c g n wr sp := rfl
theorem Dev.mvSrc_atTime (d : Dev) (t : Nat) (c : Cur) (g : Nat) : (d.at_ t).mvSrc c g = d.mvSrc c g := rfl
theorem Dev.pubDst_atTime (d : Dev) (t : Nat) (c : Cur) (g : Nat) : (d.at_ t).pubDst c g = d.pubDst c g := rfl
theorem Dev.pubLimits_atTime (d : Dev) (t : Nat) (r : Run) (p : Piece) : (d.at_ t).pubLimits r p = d.pubLimits r p := rfl

/-! ## The issue into a queue (R223, R227) -/

theorem Dev.enqueue_issued (d : Dev) (id g t : Nat) (c : Cur) (q : Nat) (ac : Option Nat) (regs : List (Nat × Extent)) :
    Issued q id g t c ac regs d ((d.at_ t).enqueue id g c q ac regs) := ⟨rfl, rfl⟩

/-! ## The start of an instruction (R223, R227) -/

theorem Dev.insStart_eq {d : Dev} {id g q : Nat} {c : Cur} (h : MayBegin d id g q c) (hq : q ≠ qAttend) (t : Nat) (ups : List Upset) :
    d.insStart id g q t [] ups = (d.at_ t).begun id g q ((d.at_ t).runIns g c ups) [] := by
  obtain ⟨m, l, hhead, hmay, -, hissued⟩ := h
  have hissued' : (d.at_ t).issued c.r m l = some c := hissued
  simp only [Dev.insStart, hhead, hmay, hissued', beq_eq_false_iff_ne.mpr hq, Bool.not_true, Bool.false_and, Bool.or_self, Bool.false_eq_true,
    if_false]

/-- A meaning of instructions that ends no command and only writes on chip, outside of nothing but the runs of `outs`. -/
structure Done.Within (x : Done) (d : Dev) (accs outs : List Acc2) : Prop where
  stop : x.stop = none
  onChip : OnChip d x.d
  touched : ∀ a ∈ accs, a.keys ∈ x.touched
  outside : ∀ key, (∀ a ∈ outs, ¬ a.covers key) → x.d.mem.sram.read key = d.mem.sram.read key

/-- What the start leaves of an instruction that ends no command and meets no error. -/
theorem Dev.begun_eq {d : Dev} {x : Done} (h : x.stop = none) (id g q : Nat) : d.begun id g q x [] =
    (x.d.modMember id g (fun m => { m with
      aflags := m.aflags ||| x.flags,
      queues := m.queues.mapIdx (fun i l => if i = q then l.mapIdx (fun j o => if j = 0 then
        { o with started := some d.now, since := d.now, touched := x.touched, chk := x.chk } else o) else l) })).modRun id
      (fun r => { r with indexRange := r.indexRange || x.range, wrote := r.wrote ++ sharedOnly x.wrote }) := by
  simp only [Dev.begun, h, Dev.modHead, Dev.modMember_modMember]
  rfl

theorem Dev.begun_of_within {d : Dev} {x : Done} {accs outs : List Acc2} {t : Nat} (h : x.Within (d.at_ t) accs outs) (id g q : Nat) :
    Begun q id g t x.flags x.range x.chk accs outs d ((d.at_ t).begun id g q x []) ∧
    ((d.at_ t).begun id g q x []).mem.sram = x.d.mem.sram := by
  have hx : x.d = { d.at_ t with mem := { d.mem with sram := x.d.mem.sram } } := h.onChip
  have hruns : x.d.runs = d.runs := by rw [hx]; rfl
  rw [Dev.begun_eq h.stop]
  refine ⟨⟨⟨x.touched, sharedOnly x.wrote, h.touched, ?_⟩, ?_, h.outside⟩, rfl⟩
  · simp only [Dev.modRun, Dev.modMember, hruns]
    rfl
  · simp only [Dev.modRun, Dev.modMember]
    rw [hx]
    rfl

/-- An instruction that heads its queue starts with what it does. -/
theorem does_start {d : Dev} {id g q : Nat} {c : Cur} (t : Nat) (ups : List Upset) (ha : d.awake) (h : MayBegin d id g q c)
    (hq : q ≠ qAttend) :
    Does (.instructionStart id g q t [] ups none) d ((d.at_ t).begun id g q ((d.at_ t).runIns g c ups) []) :=
  does_upd_eq (fun d => d.insStart id g q t [] ups) (fun _ => rfl) ha (Dev.insStart_eq h hq t ups)

/-! ## The first failed check (R202) -/

theorem eq_of_mem_stIf {c : Bool} {st x : Nat} (h : x ∈ stIf c st) : x = st := by
  unfold stIf at h
  split at h
  · exact List.mem_singleton.mp h
  · exact absurd h List.not_mem_nil

/-- Where only operands overlap or lie astray, or are not aligned, the first status is BOUNDS. -/
theorem firstStatus_of_bounds {l : List Nat} (hmem : stBounds ∈ l) (h : ∀ s ∈ l, s = stBounds ∨ s = stAlign) : firstStatus l = stBounds := by
  have absent : ∀ st, st ≠ stBounds → st ≠ stAlign → st ∉ l := fun st hb ha hst => (h st hst).elim hb ha
  simp only [firstStatus, List.contains_eq_mem, decide_eq_true_eq, absent stReserved (by decide) (by decide),
    absent stFormat (by decide) (by decide), absent stZero (by decide) (by decide), absent stStale (by decide) (by decide), hmem, if_false,
    if_true]

theorem firstStatus_of_aligned {l : List Nat} (hne : l ≠ []) (h : ∀ s ∈ l, s = stAlign) : firstStatus l = stAlign := by
  have absent : ∀ st, st ≠ stAlign → st ∉ l := fun st ha hst => ha (h st hst)
  obtain ⟨x, hx⟩ := List.exists_mem_of_ne_nil l hne
  simp only [firstStatus, List.contains_eq_mem, decide_eq_true_eq, absent stReserved (by decide), absent stFormat (by decide),
    absent stZero (by decide), absent stStale (by decide), absent stBounds (by decide), h x hx ▸ hx, if_false, if_true]

/-! ## The runs of a source in HBM (R165, R209) -/

theorem forall₂_of_mapM {α β : Type} {f : α → Option β} {l : List α} {l' : List β} (h : l.mapM f = some l') :
    List.Forall₂ (fun a b => f a = some b) l l' := by
  induction l generalizing l' with
  | nil =>
    cases h
    exact .nil
  | cons a l ih =>
    rw [List.mapM_cons] at h
    obtain ⟨b, hb, h⟩ := Option.bind_eq_some_iff.mp h
    obtain ⟨bs, hbs, h⟩ := Option.bind_eq_some_iff.mp h
    cases h
    exact .cons hb (ih hbs)

theorem sum_map_eq_of_forall₂ {α β : Type} {R : α → β → Prop} {f : α → Nat} {g : β → Nat} (hR : ∀ a b, R a b → g b = f a) {l : List α}
    {l' : List β} (h : List.Forall₂ R l l') : (l'.map g).sum = (l.map f).sum := by
  induction h with
  | nil => rfl
  | cons hab _ ih => rw [List.map_cons, List.map_cons, List.sum_cons, List.sum_cons, hR _ _ hab, ih]

/-- The pieces of a range of bytes up to the end of block `lo / b + j` of `b` bytes hold its bytes up to there. -/
theorem sum_blocks (lo n b j : Nat) :
    ((List.range j).map (fun i => Nat.min (lo + n) ((lo / b + i + 1) * b) - Nat.max lo ((lo / b + i) * b))).sum =
      Nat.min (lo + n) ((lo / b + j) * b) - lo := by
  induction j with
  | zero =>
    have h : lo / b * b ≤ lo := Nat.div_mul_le_self lo b
    simp only [List.range_zero, List.map_nil, List.sum_nil, Nat.add_zero, Nat.min_def]
    split <;> omega
  | succ j ih =>
    rw [List.range_succ, List.map_append, List.sum_append, ih, List.map_singleton, List.sum_singleton]
    have hnext : (lo / b + (j + 1)) * b = (lo / b + j) * b + b := by ring
    have hnext' : (lo / b + j + 1) * b = (lo / b + j) * b + b := by ring
    rw [hnext, hnext']
    simp only [Nat.min_def, Nat.max_def]
    split_ifs <;> omega

/-- The blocks of an owner table share out every byte of a range. -/
theorem ownerPieces_sum (owners : List Owner) (lg lo n : Nat) : ((ownerPieces owners lg lo n).map (fun q => q.2.2)).sum = n := by
  unfold ownerPieces
  split
  · next h => rw [h]; rfl
  · next h =>
    have hb : 0 < 2 ^ lg := Nat.two_pow_pos lg
    have hsum := sum_blocks lo n (2 ^ lg) ((lo + n - 1) / 2 ^ lg + 1 - lo / 2 ^ lg)
    have hle : lo / 2 ^ lg ≤ (lo + n - 1) / 2 ^ lg := Nat.div_le_div_right (by omega)
    have hend : lo + n ≤ ((lo + n - 1) / 2 ^ lg + 1) * 2 ^ lg := by
      have := Nat.lt_div_mul_add hb (a := lo + n - 1)
      rw [Nat.succ_mul]
      omega
    have hlast : lo / 2 ^ lg + ((lo + n - 1) / 2 ^ lg + 1 - lo / 2 ^ lg) = (lo + n - 1) / 2 ^ lg + 1 := by omega
    have hmin : Nat.min (lo + n) (((lo + n - 1) / 2 ^ lg + 1) * 2 ^ lg) = lo + n := Nat.min_eq_left hend
    rw [hlast, hmin, Nat.add_sub_cancel_left] at hsum
    rw [List.map_map]
    exact hsum

/-- The destinations of a run hold all its bytes. -/
theorem Dev.dests_sum {d : Dev} {r : Run} {o : Operand} {off n : Nat} {l : List Dest} (h : d.dests r o off n = some l) :
    (l.map Dest.len).sum = n := by
  unfold Dev.dests at h
  dsimp only at h
  split at h
  · rw [← ownerPieces_sum o.owners o.desc.blockLog2 (o.base + off) n]
    refine sum_map_eq_of_forall₂ (fun q x hq => ?_) (forall₂_of_mapM h)
    split at hq
    · cases hq
    · split at hq
      · split at hq <;> cases hq
        rfl
      · split at hq
        · split at hq <;> cases hq
          rfl
        · cases hq
  · split at h
    · split at h <;> cases h
      exact Nat.add_zero n
    · split at h <;> cases h
      exact Nat.add_zero n

/-- The pieces of each run of a source in local HBM hold all its bytes. -/
theorem Dev.hbmRuns_sum {d : Dev} {r : Run} {o : Operand} {l : List (List (Nat × Nat))} (h : d.hbmRuns r o = some l) :
    ∀ ps ∈ l, (ps.map Prod.snd).sum = o.desc.runLen := by
  obtain ⟨dss, hdss, hl⟩ := Option.bind_eq_some_iff.mp h
  intro ps hps
  obtain ⟨i, hi, rfl⟩ := List.getElem_of_mem hps
  have hlocal := forall₂_of_mapM hl
  have hdests := forall₂_of_mapM hdss
  have hi' : i < dss.length := hlocal.length_eq ▸ hi
  have hi'' : i < o.desc.segs.length := hdests.length_eq ▸ hi'
  have hps := forall₂_of_mapM (hlocal.get hi' hi)
  have hds := Dev.dests_sum (hdests.get hi'' hi')
  rw [← TDesc.segs_len (List.getElem_mem hi'')]
  refine (sum_map_eq_of_forall₂ (f := Dest.len) (fun x p hp => ?_) hps).trans hds
  cases x <;> cases hp
  rfl

/-! ## Strings of bytes written one after the other -/

section
variable {α : Type} {pos : α → Nat} {str : α → List Nat}

theorem read_foldl_writeBytes_out {l : List α} {m : Mem} {key : Nat} (h : ∀ x ∈ l, key < pos x ∨ pos x + (str x).length ≤ key) :
    (l.foldl (fun m x => m.writeBytes (pos x) (str x)) m).read key = m.read key := by
  induction l generalizing m with
  | nil => rfl
  | cons x l ih =>
    rw [List.foldl_cons, ih (fun y hy => h y (List.mem_cons_of_mem _ hy)), Mem.read_writeBytes_out _ _ _ _ (h x (List.mem_cons_self ..))]

/-- Strings that lie one behind the other all read as written. -/
theorem read_foldl_writeBytes_in {l : List α} {m : Mem} (hl : l.Pairwise (fun x y => pos x + (str x).length ≤ pos y)) {x : α} (hx : x ∈ l)
    {j : Nat} (hj : j < (str x).length) :
    (l.foldl (fun m x => m.writeBytes (pos x) (str x)) m).read (pos x + j) = BitVec.ofNat 8 ((str x).getD j 0) := by
  induction l generalizing m with
  | nil => exact absurd hx List.not_mem_nil
  | cons y l ih =>
    obtain ⟨hy, hl⟩ := List.pairwise_cons.mp hl
    rw [List.foldl_cons]
    rcases List.mem_cons.mp hx with rfl | hx
    · rw [read_foldl_writeBytes_out, Mem.read_writeBytes_in _ _ _ _ hj]
      intro z hz
      have := hy z hz
      omega
    · exact ih hl hx

end

theorem pairwise_zip {α β : Type} {R : α → α → Prop} {l : List α} (h : l.Pairwise R) (l' : List β) :
    (l.zip l').Pairwise (fun p q => R p.1 q.1) := by
  rw [List.pairwise_iff_getElem] at h ⊢
  intro i j hi hj hij
  simp only [List.getElem_zip]
  exact h i j _ _ hij

/-! ## The runs of an operand, written (R209) -/

theorem runBytes_length (t : TDesc) (b : List Nat) : (runBytes t b).length = b.length := by
  unfold runBytes
  split
  · rw [List.length_append, List.length_map, ← List.length_append, List.take_append_drop]
  · rfl

theorem Dev.wrRuns_onChip (d : Dev) (a : Acc2) (l : List (List Nat)) : OnChip d (d.wrRuns a l) := by
  unfold Dev.wrRuns
  refine foldl_onChip (fun _ _ => ?_) _ d
  rfl

theorem Dev.wrRuns_sram (d : Dev) (a : Acc2) (l : List (List Nat)) : (d.wrRuns a l).mem.sram =
    (a.t.segs.zip l).foldl (fun m q => m.writeBytes (a.pl.key + q.1.1) (runBytes a.t q.2)) d.mem.sram :=
  (List.foldl_hom (fun e : Dev => e.mem.sram) (fun _ _ => rfl)).symm

section
variable {a : Acc2} {l : List (List Nat)} (hl : ∀ bs ∈ l, bs.length = a.t.runLen)
include hl

/-- Bytes for a run fill it. -/
theorem Acc2.string_fills {q : (Nat × Nat) × List Nat} (h : q ∈ a.t.segs.zip l) : q.1 ∈ a.t.segs ∧ (runBytes a.t q.2).length = q.1.2 := by
  obtain ⟨hseg, hbs⟩ := List.of_mem_zip h
  exact ⟨hseg, by rw [runBytes_length, hl _ hbs, TDesc.segs_len hseg]⟩

/-- Each run of a writable operand holds the bytes that were written for it. -/
theorem Dev.read_wrRuns (d : Dev) (hw : a.t.writable = true) {i : Nat} {seg : Nat × Nat} {bs : List Nat} (hseg : a.t.segs[i]? = some seg)
    (hbs : l[i]? = some bs) {j : Nat} (hj : j < seg.2) :
    (d.wrRuns a l).mem.sram.read (a.pl.key + seg.1 + j) = BitVec.ofNat 8 ((runBytes a.t bs).getD j 0) := by
  have hmem : (seg, bs) ∈ a.t.segs.zip l := List.mem_of_getElem? (List.getElem?_zip_eq_some.mpr ⟨hseg, hbs⟩)
  rw [Dev.wrRuns_sram]
  refine read_foldl_writeBytes_in (pos := fun q : (Nat × Nat) × List Nat => a.pl.key + q.1.1) (str := fun q => runBytes a.t q.2) ?_ hmem ?_
  · refine (pairwise_zip (TDesc.segs_pairwise hw) l).imp_of_mem (fun {p q} hp _ hpq => ?_)
    rw [(Acc2.string_fills hl hp).2]
    omega
  · exact (Acc2.string_fills hl hmem).2.symm ▸ hj

theorem Dev.read_wrRuns_not_covers (d : Dev) {key : Nat} (h : ¬ a.covers key) : (d.wrRuns a l).mem.sram.read key = d.mem.sram.read key := by
  rw [Dev.wrRuns_sram]
  refine read_foldl_writeBytes_out (pos := fun q : (Nat × Nat) × List Nat => a.pl.key + q.1.1) (str := fun q => runBytes a.t q.2) (fun q hq => ?_)
  obtain ⟨hseg, hlen⟩ := Acc2.string_fills hl hq
  have hout : ¬ (a.pl.key + q.1.1 ≤ key ∧ key < a.pl.key + q.1.1 + q.1.2) := fun hin => h ⟨q.1, hseg, hin⟩
  omega

end

/-! ## MOVE (R209) -/

/-- Equal element formats, layouts and dimensions make equal runs. -/
theorem TDesc.runLen_eq {t u : TDesc} (hdtype : t.dtype = u.dtype) (hlayout : t.layout = u.layout)
    (hdims : ∀ n ∈ [0, 1, 2, 3], t.dim n = u.dim n) : t.runLen = u.runLen := by
  have h0 := hdims 0 (by decide)
  have h1 := hdims 1 (by decide)
  have hn : t.nibs = u.nibs := by rw [TDesc.nibs, hdtype, TDesc.nibs]
  have hk : t.ke = u.ke := by rw [TDesc.ke, hdtype, TDesc.ke]
  unfold TDesc.runLen TDesc.block
  rw [hlayout, h0, h1, hn, hk]
  split
  · rfl
  · next hne =>
    split
    · exact absurd ‹_› hne
    · rfl
    · rfl
    · rfl

/-- Each run of the source of a MOVE has the length of the runs of its descriptor. -/
theorem Dev.mvBytes_length {d : Dev} {c : Cur} {g : Nat} {s : MvSrc} (h : d.mvSrc c g = .ok s) :
    ∀ bs ∈ d.mvBytes s, bs.length = (c.desc 0).runLen := by
  unfold Dev.mvSrc at h
  split at h
  · cases h
  · next o ho =>
    rw [← Cur.form_desc ho]
    split at h
    · obtain ⟨a, ha, rfl⟩ : ∃ a, d.locate c o false stBounds = .ok a ∧ s = .chip a := by
        cases hloc : d.locate c o false stBounds with
        | error _ => rw [hloc] at h; cases h
        | ok a => rw [hloc] at h; cases h; exact ⟨a, rfl, rfl⟩
      intro bs hbs
      obtain ⟨seg, hseg, rfl⟩ := List.mem_map.mp hbs
      rw [Mem.readBytes, List.length_map, List.length_range, TDesc.segs_len hseg, (Dev.locate_ok ha).1]
    · split at h
      · cases h
      · next l hl =>
        cases h
        intro bs hbs
        obtain ⟨ps, hps, rfl⟩ := List.mem_map.mp hbs
        have hlen : ∀ x : Nat × Nat, (d.rdHbm x.1 x.2).length = x.2 := fun x => by
          rw [Dev.rdHbm, Mem.readBytes, List.length_map, List.length_range]
        rw [List.length_flatMap, List.map_congr_left (fun x _ => hlen x)]
        exact Dev.hbmRuns_sum hl ps hps

theorem mvEqual_eq_nil {c : Cur} (hdtype : (c.desc 0).dtype = (c.desc 1).dtype) (hlayout : (c.desc 0).layout = (c.desc 1).layout)
    (hdims : ∀ n ∈ [0, 1, 2, 3], (c.desc 0).dim n = (c.desc 1).dim n) : mvEqual c = [] := by
  have hsame : (c.desc 0).sameDims (c.desc 1) = true := List.all_eq_true.mpr (fun n hn => beq_iff_eq.mpr (hdims n hn))
  simp only [mvEqual, hdtype, hlayout, hsame, bne_self_eq_false, Bool.or_self, Bool.not_true, stIf, Bool.false_eq_true, if_false,
    List.append_nil]

theorem mvOverlap_eq_false {o : Acc2} {s : MvSrc} (h : ∀ a, s = .chip a → o.overlaps a = false) : mvOverlap o s = false := by
  cases s with
  | chip a => exact h a rfl
  | hbm _ _ => rfl

theorem mvUnaligned_align {c : Cur} {s : MvSrc} : ∀ x ∈ mvUnaligned c s, x = stAlign := by
  cases s <;> exact fun x hx => eq_of_mem_stIf hx

section
variable {d : Dev} {id g : Nat} {c : Cur} {s : MvSrc} {o : Acc2}

/-- The checks of a MOVE whose operands are located. -/
def mvChecks (c : Cur) (s : MvSrc) (o : Acc2) : List Nat :=
  mvEqual c ++ stIf (mvOverlap o s) stBounds ++ mvUnaligned c s ++ o.unaligned 64 (c.gstride 1)

variable (hc : d.curOp id g 2 0 = some c) (hstall : c.stalls qMove = false) (hs : d.mvSrc c g = .ok s)
  (ho : d.opd c g 1 true stBounds = .ok o)
include hc hstall hs ho

theorem Dev.mvMove_passed (t : Nat) (hchk : mvChecks c s o = []) :
    d.mvMove id g t = (d.at_ t).enqueue id g c qMove (mvTime c o s) [(0, s.region), (1, o.region)] := by
  have hfirst : firstStatus (mvChecks c s o) = 0 := by rw [hchk]; rfl
  rw [mvChecks] at hfirst
  simp only [Dev.mvMove, hc, hstall, Bool.false_eq_true, if_false, Dev.mvSrc_atTime, Dev.opd_atTime, hs, ho, hfirst]

theorem Dev.mvMove_failed (t : Nat) {st : Nat} (hchk : firstStatus (mvChecks c s o) = st) (hst : st ≠ 0) :
    d.mvMove id g t = (d.at_ t).endOwn id st := by
  rw [mvChecks] at hchk
  simp only [Dev.mvMove, hc, hstall, Bool.false_eq_true, if_false, Dev.mvSrc_atTime, Dev.opd_atTime, hs, ho, hchk]

/-- A MOVE between equal descriptors that share no byte enters the MOVE queue, or ends its command with ALIGN. -/
theorem Dev.mvMove_outcomes (t : Nat) (hequal : mvEqual c = []) (hapart : mvOverlap o s = false) :
    (mvUnaligned c s = [] → o.unaligned 64 (c.gstride 1) = [] →
      d.mvMove id g t = (d.at_ t).enqueue id g c qMove (mvTime c o s) [(0, s.region), (1, o.region)]) ∧
    (mvUnaligned c s ≠ [] ∨ o.unaligned 64 (c.gstride 1) ≠ [] → d.mvMove id g t = (d.at_ t).endOwn id stAlign) := by
  have hchk : mvChecks c s o = mvUnaligned c s ++ o.unaligned 64 (c.gstride 1) := by
    rw [mvChecks, hequal, hapart]
    rfl
  refine ⟨fun h₀ h₁ => ?_, fun hunaligned => ?_⟩
  · exact Dev.mvMove_passed hc hstall hs ho t (by rw [hchk, h₀, h₁]; rfl)
  · refine Dev.mvMove_failed hc hstall hs ho t ?_ (by decide)
    rw [hchk]
    refine firstStatus_of_aligned (fun h => ?_) (fun x hx => ?_)
    · obtain ⟨h₀, h₁⟩ := List.append_eq_nil_iff.mp h
      exact hunaligned.elim (fun h => h h₀) (fun h => h h₁)
    · exact (List.mem_append.mp hx).elim (mvUnaligned_align x) eq_of_mem_stIf

end

/-- What a MOVE does when it starts. -/
theorem Dev.mvDo_within {d : Dev} {c : Cur} {g : Nat} {s : MvSrc} {o : Acc2} (hs : d.mvSrc c g = .ok s)
    (ho : d.opd c g 1 true stBounds = .ok o) (hlen : ∀ bs ∈ d.mvBytes s, bs.length = o.t.runLen) :
    (d.mvDo g c).d = d.wrRuns o (d.mvBytes s) ∧ (d.mvDo g c).flags = 0 ∧ (d.mvDo g c).range = false ∧ (d.mvDo g c).chk = [] ∧
    (d.mvDo g c).Within d [o] [o] := by
  have hdo : d.mvDo g c = { Done.idle (d.wrRuns o (d.mvBytes s)) with touched := s.touched ++ [o.keys], wrote := [o.keys] } := by
    simp only [Dev.mvDo, hs, ho]
  rw [hdo]
  refine ⟨rfl, rfl, rfl, rfl, ⟨rfl, Dev.wrRuns_onChip .., fun a ha => ?_, fun key hkey => ?_⟩⟩
  · rw [List.mem_singleton.mp ha]
    exact List.mem_append_right _ (List.mem_singleton_self _)
  · exact Dev.read_wrRuns_not_covers hlen d (hkey o (List.mem_singleton_self o))

/-! ## PUBLISH (R210) -/

section
variable {d : Dev} {id g : Nat} {c : Cur} {o q : Operand} {a : Acc2}

/-- The checks of a PUBLISH whose operands are located. -/
def Dev.pubChecks (d : Dev) (g : Nat) (c : Cur) (o q : Operand) (a : Acc2) : List Nat :=
  mvEqual c ++ d.pubLimits c.r ⟨g, o, q⟩ ++ a.unaligned 64 (c.gstride 0) ++ stIf (!devAligned q (c.gstride 1)) stAlign

theorem Dev.mvPublish_passed (t : Nat) (hc : d.curOp id g 2 1 = some c) (ho : c.form g 0 = .ok o) (ha : d.opd c g 0 false stFormat = .ok a)
    (hq : d.pubDst c g = .ok q) (hchk : d.pubChecks g c o q a = []) : d.mvPublish id g t =
      Dev.advance ((d.at_ t).modRun id (fun r => { r with pieces := r.pieces ++ [⟨g, o, q⟩] })) id g c.i := by
  have hfirst : firstStatus (d.pubChecks g c o q a) = 0 := by rw [hchk]; rfl
  rw [Dev.pubChecks] at hfirst
  simp only [Dev.mvPublish, hc, Dev.pubDst_atTime, Dev.opd_atTime, Dev.pubLimits_atTime, ho, ha, hq, hfirst]

theorem Dev.mvPublish_failed (t : Nat) {st : Nat} (hc : d.curOp id g 2 1 = some c) (ho : c.form g 0 = .ok o)
    (ha : d.opd c g 0 false stFormat = .ok a) (hq : d.pubDst c g = .ok q) (hchk : firstStatus (d.pubChecks g c o q a) = st) (hst : st ≠ 0) :
    d.mvPublish id g t = (d.at_ t).endOwn id st := by
  rw [Dev.pubChecks] at hchk
  simp only [Dev.mvPublish, hc, Dev.pubDst_atTime, Dev.opd_atTime, Dev.pubLimits_atTime, ho, ha, hq, hchk]

/-- A commit list that passes one of its limits ends the command with BOUNDS. -/
theorem Dev.pubChecks_bounds (hequal : mvEqual c = []) (hlimits : d.pubLimits c.r ⟨g, o, q⟩ = [stBounds]) :
    firstStatus (d.pubChecks g c o q a) = stBounds := by
  rw [Dev.pubChecks, hequal, hlimits]
  refine firstStatus_of_bounds (by simp) (fun s hs => ?_)
  simp only [List.nil_append, List.mem_append, List.mem_singleton] at hs
  rcases hs with (hs | hs) | hs
  · exact .inl hs
  · exact .inr (eq_of_mem_stIf hs)
  · exact .inr (eq_of_mem_stIf hs)

theorem Dev.pubLimits_of_many {r : Run} {p : Piece} (h : 64 ≤ r.pieces.length) : d.pubLimits r p = [stBounds] := by
  have hlen : 64 < (r.pieces ++ [p]).length := by simp only [List.length_append, List.length_singleton]; omega
  simp only [Dev.pubLimits, hlen, decide_true, Bool.true_or, stIf, if_true]

theorem Dev.pubLimits_of_large {r : Run} {p : Piece} (hs : r.safety = true)
    (h : 0x1000000 < sumNat ((r.pieces ++ [p]).map (fun x => x.src.desc.bytes))) : d.pubLimits r p = [stBounds] := by
  simp only [Dev.pubLimits, hs, h, decide_true, Bool.and_true, Bool.or_true, stIf, if_true]

end

/-! ## REBOLT and WINDOW at issue (R190, R211, R253 to R256) -/

/-- Where the operands of a CV instruction must lie: apart, and for REBOLT in the engine's own scratchpad. -/
def cvPlaced (own : Bool) (s o : Acc2) : Prop := s.overlaps o = false ∧ (own = true → s.own = true ∧ o.own = true)

section
variable {own : Bool} {c : Cur} {s o : Acc2}

/-- The checks of the places of the operands. -/
def cvPlaceChecks (own : Bool) (c : Cur) (s o : Acc2) : List Nat :=
  stIf (s.overlaps o || (own && !(s.own && o.own))) stBounds ++ c.unaligned 0 s ++ c.unaligned 1 o

theorem cvPlaced_iff : cvPlaced own s o ↔ (s.overlaps o || (own && !(s.own && o.own))) = false := by
  cases own <;> simp [cvPlaced]

theorem cvPlaceChecks_of_placed (h : cvPlaced own s o) : cvPlaceChecks own c s o = c.unaligned 0 s ++ c.unaligned 1 o := by
  rw [cvPlaceChecks, cvPlaced_iff.mp h]
  rfl

theorem cvPlaceChecks_of_astray (h : ¬ cvPlaced own s o) : firstStatus (cvPlaceChecks own c s o) = stBounds := by
  rw [cvPlaced_iff, Bool.not_eq_false] at h
  rw [cvPlaceChecks, h]
  refine firstStatus_of_bounds (by simp [stIf]) (fun x hx => ?_)
  simp only [List.mem_append] at hx
  rcases hx with (hx | hx) | hx
  · exact .inl (eq_of_mem_stIf hx)
  · exact .inr (eq_of_mem_stIf hx)
  · exact .inr (eq_of_mem_stIf hx)

theorem cvPlaceChecks_of_unaligned (h : cvPlaced own s o) (ha : ¬ (c.unaligned 0 s = [] ∧ c.unaligned 1 o = [])) :
    firstStatus (cvPlaceChecks own c s o) = stAlign := by
  rw [cvPlaceChecks_of_placed h]
  refine firstStatus_of_aligned (mt List.append_eq_nil_iff.mp ha) (fun x hx => ?_)
  exact (List.mem_append.mp hx).elim eq_of_mem_stIf eq_of_mem_stIf

end

section
variable {d : Dev} {id g op : Nat} {own : Bool} {chk : Cur → List Nat} {time : Cur → Acc2 → Acc2 → Nat} {c : Cur} {s o : Acc2}
  (hc : d.curOp id g 3 op = some c) (hstall : c.stalls qMove = false) (hs : d.opd c g 0 false stBounds = .ok s)
  (ho : d.opd c g 1 true stBounds = .ok o) (hchk : chk c = [])
include hc hstall hs ho hchk

theorem Dev.cvIssue_failed (t : Nat) {st : Nat} (h : firstStatus (cvPlaceChecks own c s o) = st) (hst : st ≠ 0) :
    d.cvIssue id g t op own chk time = (d.at_ t).endOwn id st := by
  have hfirst : firstStatus (chk c ++ cvPlaceChecks own c s o) = st := by rw [hchk]; exact h
  rw [cvPlaceChecks, ← List.append_assoc, ← List.append_assoc] at hfirst
  simp only [Dev.cvIssue, hc, hstall, Bool.false_eq_true, if_false, Dev.opd_atTime, hs, ho, hfirst]

/-- A CV instruction whose fields and descriptors pass enters the MOVE queue, or ends its command with BOUNDS or ALIGN (R202). -/
theorem Dev.cvIssue_outcomes (t : Nat) :
    (cvPlaced own s o → c.unaligned 0 s = [] ∧ c.unaligned 1 o = [] →
      d.cvIssue id g t op own chk time = (d.at_ t).enqueue id g c qMove (some (time c s o)) [(0, s.region), (1, o.region)]) ∧
    (¬ cvPlaced own s o → d.cvIssue id g t op own chk time = (d.at_ t).endOwn id stBounds) ∧
    (cvPlaced own s o → ¬ (c.unaligned 0 s = [] ∧ c.unaligned 1 o = []) →
      d.cvIssue id g t op own chk time = (d.at_ t).endOwn id stAlign) := by
  refine ⟨fun hplaced ⟨h₀, h₁⟩ => ?_, fun hastray => ?_, fun hplaced hunaligned => ?_⟩
  · have hfirst : firstStatus (chk c ++ cvPlaceChecks own c s o) = 0 := by
      rw [hchk, cvPlaceChecks_of_placed hplaced, h₀, h₁]
      rfl
    rw [cvPlaceChecks, ← List.append_assoc, ← List.append_assoc] at hfirst
    simp only [Dev.cvIssue, hc, hstall, Bool.false_eq_true, if_false, Dev.opd_atTime, hs, ho, hfirst]
  · exact Dev.cvIssue_failed hc hstall hs ho hchk t (cvPlaceChecks_of_astray hastray) (by decide)
  · exact Dev.cvIssue_failed hc hstall hs ho hchk t (cvPlaceChecks_of_unaligned hplaced hunaligned) (by decide)

end

/-- The dilated window fits into the padded input in both directions (R253). -/
theorem winDims_eq {f : WinF} {s : TDesc} {ow oh : Nat} (hw : f.dw * (f.kw - 1) + 1 ≤ s.dim 1 + f.pl + f.pr)
    (how : ow = (s.dim 1 + f.pl + f.pr - f.dw * (f.kw - 1) - 1) / f.sw + 1) (hh : f.dh * (f.kh - 1) + 1 ≤ s.dim 2 + f.pt + f.pb)
    (hoh : oh = (s.dim 2 + f.pt + f.pb - f.dh * (f.kh - 1) - 1) / f.sh + 1) : winDims f s = some (ow, oh) := by
  simp only [winDims, winOut, Nat.not_lt.mpr hw, Nat.not_lt.mpr hh, if_false, ← how, ← hoh]

theorem padFails_eq_nil {f : WinF} {dt slot : Nat} (h : f.const = true → dtBits dt ≤ 16 → bits slot 23 16 = 0) : padFails f dt slot = [] := by
  rw [padFails, stIf_eq_nil, Bool.and_eq_false_imp]
  intro hc
  rw [Bool.and_eq_true, decide_eq_true_eq] at hc
  rw [h hc.1 hc.2]
  rfl

section
variable {d : Dev} {id g : Nat} {c : Cur} {s o : Acc2}

theorem Dev.rebolt_outcomes (t : Nat) (hc : d.curOp id g 3 0 = some c) (hstall : c.stalls qMove = false)
    (hs : d.opd c g 0 false stBounds = .ok s) (ho : d.opd c g 1 true stBounds = .ok o) (hdtype : s.t.dtype = o.t.dtype)
    (h01 : if cvTransposed c then o.t.dim 0 = s.t.dim 1 ∧ o.t.dim 1 = s.t.dim 0 else o.t.dim 0 = s.t.dim 0 ∧ o.t.dim 1 = s.t.dim 1)
    (h2 : o.t.dim 2 = s.t.dim 2) (h3 : o.t.dim 3 = s.t.dim 3) :
    (cvPlaced true s o → c.unaligned 0 s = [] ∧ c.unaligned 1 o = [] → d.rebolt id g t =
      (d.at_ t).enqueue id g c qMove (some (12 + 2 * ceilDiv o.t.bytes 128)) [(0, s.region), (1, o.region)]) ∧
    (¬ cvPlaced true s o → d.rebolt id g t = (d.at_ t).endOwn id stBounds) ∧
    (cvPlaced true s o → ¬ (c.unaligned 0 s = [] ∧ c.unaligned 1 o = []) → d.rebolt id g t = (d.at_ t).endOwn id stAlign) := by
  refine Dev.cvIssue_outcomes hc hstall hs ho ?_ t
  dsimp only
  rw [← (Dev.opd_ok hs).1, ← (Dev.opd_ok ho).1, hdtype, h2, h3]
  split at h01
  · next hT => simp [stIf, hT, h01.1, h01.2]
  · next hT => simp [stIf, hT, h01.1, h01.2]

theorem Dev.window_outcomes (t : Nat) {ow oh : Nat} (hc : d.curOp id g 3 1 = some c) (hstall : c.stalls qMove = false)
    (hs : d.opd c g 0 false stBounds = .ok s) (ho : d.opd c g 1 true stBounds = .ok o)
    (hpad : padFails (winFields c.i) s.t.dtype (c.i.slot 2) = []) (hdtype : s.t.dtype = o.t.dtype) (hslayout : s.t.layout = 0)
    (holayout : o.t.layout = 0 ∨ o.t.layout = 1) (heven : s.t.dtype = 0 → s.t.dim 0 % 2 = 0)
    (hdims : winDims (winFields c.i) s.t = some (ow, oh)) (h0 : o.t.dim 0 = (winFields c.i).kh * (winFields c.i).kw * s.t.dim 0)
    (h1 : o.t.dim 1 = oh * ow) (h2 : o.t.dim 2 = s.t.dim 3) (h3 : o.t.dim 3 = 1) :
    (cvPlaced false s o → c.unaligned 0 s = [] ∧ c.unaligned 1 o = [] → d.window' id g t = (d.at_ t).enqueue id g c qMove
      (some (16 + (engLat c.m.home s.pl).1 + Nat.max
        (s.t.dim 3 * ow * oh * (winFields c.i).kh * (winFields c.i).kw * ceilDiv (ceilDiv (s.t.dim 0 * s.t.nibs) 2) s.width *
          (engLat c.m.home s.pl).2)
        (ceilDiv o.t.bytes o.width * (engLat c.m.home o.pl).2))) [(0, s.region), (1, o.region)]) ∧
    (¬ cvPlaced false s o → d.window' id g t = (d.at_ t).endOwn id stBounds) ∧
    (cvPlaced false s o → ¬ (c.unaligned 0 s = [] ∧ c.unaligned 1 o = []) → d.window' id g t = (d.at_ t).endOwn id stAlign) := by
  obtain ⟨hpass, hfailed⟩ : (_ → _ → d.window' id g t = _) ∧ (_ → d.window' id g t = _) ∧ (_ → _ → d.window' id g t = _) := by
    refine Dev.cvIssue_outcomes hc hstall hs ho ?_ t
    have hlinear : decide (1 < o.t.layout) = false := by rcases holayout with h | h <;> rw [h] <;> rfl
    have hwhole : (s.t.dtype == 0 && s.t.dim 0 % 2 == 1) = false := by
      simp only [Bool.and_eq_false_imp, beq_iff_eq, beq_eq_false_iff_ne]
      intro h
      rw [heven h]
      decide
    dsimp only
    rw [← (Dev.opd_ok hs).1, ← (Dev.opd_ok ho).1, hdims, hpad, hslayout, hdtype.symm, hlinear, hwhole, h0, h1, h2, h3]
    simp only [bne_self_eq_false]
    rfl
  dsimp only at hpass
  rw [hdims] at hpass
  exact ⟨hpass, hfailed⟩

end

/-! ## REBOLT and WINDOW as they run (R190, R254) -/

section
variable {d : Dev} {a : Acc2}

theorem read_foldl_zero_out {l : List (Nat × Nat)} {m : Mem} {base key : Nat} (h : ∀ s ∈ l, key < base + s.1 ∨ base + s.1 + s.2 ≤ key) :
    (l.foldl (fun m s => m.zero (base + s.1) (base + s.1 + s.2)) m).read key = m.read key := by
  induction l generalizing m with
  | nil => rfl
  | cons s l ih => rw [List.foldl_cons, ih (fun q hq => h q (List.mem_cons_of_mem _ hq)), Mem.read_zero_out _ (h s (List.mem_cons_self ..))]

theorem read_foldl_zero_in {l : List (Nat × Nat)} {m : Mem} {base key : Nat} (h : ∃ s ∈ l, base + s.1 ≤ key ∧ key < base + s.1 + s.2) :
    (l.foldl (fun m s => m.zero (base + s.1) (base + s.1 + s.2)) m).read key = 0 := by
  induction l using List.reverseRecOn with
  | nil => exact absurd h (by simp)
  | append_singleton l q ih =>
    rw [List.foldl_append, List.foldl_cons, List.foldl_nil]
    by_cases hq : base + q.1 ≤ key ∧ key < base + q.1 + q.2
    · exact Mem.read_zero_in _ hq
    · rw [Mem.read_zero_out _ (by omega)]
      obtain ⟨s, hs, hin⟩ := h
      rcases List.mem_append.mp hs with hs | hs
      · exact ih ⟨s, hs, hin⟩
      · exact absurd (List.mem_singleton.mp hs ▸ hin) hq

theorem Dev.zeroRuns_onChip (d : Dev) (a : Acc2) : OnChip d (d.zeroRuns a) := by
  unfold Dev.zeroRuns
  refine foldl_onChip (fun _ _ => ?_) _ d
  rfl

theorem Dev.zeroRuns_sram (d : Dev) (a : Acc2) :
    (d.zeroRuns a).mem.sram = a.t.segs.foldl (fun m s => m.zero (a.pl.key + s.1) (a.pl.key + s.1 + s.2)) d.mem.sram :=
  (List.foldl_hom (fun e : Dev => e.mem.sram) (fun _ _ => rfl)).symm

theorem Dev.read_zeroRuns {key : Nat} (h : a.covers key) : (d.zeroRuns a).mem.sram.read key = 0 := by
  rw [Dev.zeroRuns_sram]
  exact read_foldl_zero_in h

theorem Dev.read_zeroRuns_not_covers {key : Nat} (h : ¬ a.covers key) : (d.zeroRuns a).mem.sram.read key = d.mem.sram.read key := by
  rw [Dev.zeroRuns_sram]
  refine read_foldl_zero_out (fun s hs => ?_)
  have hout : ¬ (a.pl.key + s.1 ≤ key ∧ key < a.pl.key + s.1 + s.2) := fun hin => h ⟨s, hs, hin⟩
  omega

/-- A filled output is zero but for its elements. -/
theorem Dev.fillWhole_eq (d : Dev) (a : Acc2) (val : Nat × Nat × Nat × Nat → Nat) :
    d.fillWhole a val = Acc2.putAll (d.zeroRuns a) a val a.t.coords := rfl

end

/-- What an element is depends on the bytes on chip alone. -/
theorem Acc2.get_of_sram {d e : Dev} (h : e.mem.sram = d.mem.sram) (a : Acc2) (q : Nat × Nat × Nat × Nat) : Acc2.get e a q = Acc2.get d a q := by
  simp only [Acc2.get, Dev.rdEl, h]

/-- What REBOLT and WINDOW do when they start. -/
theorem Dev.cvFill_within {d : Dev} {c : Cur} {g : Nat} {s o : Acc2} (hs : d.opd c g 0 false stBounds = .ok s)
    (ho : d.opd c g 1 true stBounds = .ok o) (val : Acc2 → Nat × Nat × Nat × Nat → Nat) :
    (d.cvFill g c val).d = d.fillWhole o (val s) ∧ (d.cvFill g c val).flags = 0 ∧ (d.cvFill g c val).range = false ∧
    (d.cvFill g c val).chk = [] ∧ (d.cvFill g c val).Within d [s, o] [o] := by
  have hdo : d.cvFill g c val = { Done.idle (d.fillWhole o (val s)) with touched := [s.keys, o.keys], wrote := [o.keys] } := by
    simp only [Dev.cvFill, hs, ho]
  rw [hdo]
  refine ⟨rfl, rfl, rfl, rfl, ⟨rfl, ?_, fun a ha => List.mem_map_of_mem ha, fun key hkey => ?_⟩⟩
  · exact (Dev.zeroRuns_onChip d o).trans (Acc2.putAll_onChip _ _)
  · have hout := hkey o (List.mem_singleton_self o)
    exact (Acc2.read_putAll_not_covers _ (fun _ h => h) hout).trans (Dev.read_zeroRuns_not_covers hout)

/-- A filled output of REBOLT or WINDOW: its elements, and zero in the bytes of its runs that hold nothing of them. -/
theorem Dev.cvFill_begun {d : Dev} {c : Cur} {id g t : Nat} {s o : Acc2} (hs : d.opd c g 0 false stBounds = .ok s)
    (ho : d.opd c g 1 true stBounds = .ok o) (val : Acc2 → Nat × Nat × Nat × Nat → Nat) :
    let e := (d.at_ t).begun id g qMove ((d.at_ t).cvFill g c val) []
    Begun qMove id g t 0 false [] [s, o] [o] d e ∧
    (∀ key, o.covers key → (∀ x ∈ o.t.coords, key < o.pl.key + o.t.atq x / 2 ∨ o.pl.key + (o.t.atq x + o.t.nibs - 1) / 2 < key) →
      e.mem.sram.read key = 0) ∧ Filled o (val s) e := by
  obtain ⟨hfill, hflags, hrange, hchk, hwithin⟩ := Dev.cvFill_within (d := d.at_ t) hs ho val
  obtain ⟨hbegun, hsram⟩ := Dev.begun_of_within hwithin id g qMove
  rw [hflags, hrange, hchk] at hbegun
  rw [hfill, Dev.fillWhole_eq] at hsram
  refine ⟨hbegun, fun key hkey hout => ?_, fun x hx => ?_⟩
  · rw [hsram, Acc2.read_putAll_out _ hout, Dev.read_zeroRuns hkey]
  · rw [Acc2.get_of_sram hsram]
    exact Acc2.get_putAll _ ((Dev.opd_ok ho).2 rfl) (fun _ h => h) hx

/-- Settles O11: each instruction by its checks at issue, and at its start by what its writes leave in the runs of its output. -/
theorem movesPublishesAndLayouts : Obligations.MovesPublishesAndLayouts := by
  unfold Obligations.MovesPublishesAndLayouts
  refine ⟨⟨?move, ?moveStart, ?publish⟩, ?rebolt, ?window, ?start⟩
  case move =>
    intro d id g t c s o ha hc hstall hs ho hdtype hlayout hdims hapart
    obtain ⟨hpass, hunaligned⟩ :=
      Dev.mvMove_outcomes hc hstall hs ho t (mvEqual_eq_nil hdtype hlayout hdims) (mvOverlap_eq_false hapart)
    refine ⟨fun h₀ h₁ => ?_, fun h => does_upd_eq (fun d => d.mvMove id g t) (fun _ => rfl) ha (hunaligned h)⟩
    refine ⟨_, does_upd_eq (fun d => d.mvMove id g t) (fun _ => rfl) ha (hpass h₀ h₁), ?_⟩
    exact Dev.enqueue_issued ..
  case moveStart =>
    intro d id g t c s o ups ha hbegin hcls hs ho hdtype hlayout hdims
    have hlen : ∀ bs ∈ d.mvBytes s, bs.length = o.t.runLen := by
      rw [(Dev.opd_ok ho).1, ← TDesc.runLen_eq hdtype hlayout hdims]
      exact Dev.mvBytes_length hs
    obtain ⟨hdone, hflags, hrange, hchk, hwithin⟩ := Dev.mvDo_within (d := d.at_ t) hs ho hlen
    obtain ⟨hbegun, hsram⟩ := Dev.begun_of_within hwithin id g qMove
    rw [hflags, hrange, hchk] at hbegun
    have hdoes := does_start t ups ha hbegin (by decide)
    simp only [Dev.runIns, hcls] at hdoes
    refine ⟨_, hdoes, hbegun, fun i seg bs hseg hbs j hj => ?_⟩
    rw [hsram, hdone]
    exact Dev.read_wrRuns hlen _ ((Dev.opd_ok ho).2 rfl) hseg hbs hj
  case publish =>
    intro d id g t c o q a ha hc ho hopd hq hequal
    refine ⟨fun hlimits h₀ h₁ => ?_, fun hmany => ?_, fun hsafety hlarge => ?_⟩
    · refine does_upd_eq (fun d => d.mvPublish id g t) (fun _ => rfl) ha (Dev.mvPublish_passed t hc ho hopd hq ?_)
      rw [Dev.pubChecks, hequal, hlimits, h₀, h₁]
      rfl
    · exact does_upd_eq (fun d => d.mvPublish id g t) (fun _ => rfl) ha
        (Dev.mvPublish_failed t hc ho hopd hq (Dev.pubChecks_bounds hequal (Dev.pubLimits_of_many hmany)) (by decide))
    · exact does_upd_eq (fun d => d.mvPublish id g t) (fun _ => rfl) ha
        (Dev.mvPublish_failed t hc ho hopd hq (Dev.pubChecks_bounds hequal (Dev.pubLimits_of_large hsafety hlarge)) (by decide))
  case rebolt =>
    intro d id g t c s o ha hc hstall hs ho hdtype h01 h2 h3
    obtain ⟨hpass, hastray, hunaligned⟩ := Dev.rebolt_outcomes t hc hstall hs ho hdtype h01 h2 h3
    have hplaced : cvPlaced true s o ↔ s.overlaps o = false ∧ s.own = true ∧ o.own = true := by simp [cvPlaced]
    rw [hplaced] at hpass hastray hunaligned
    refine ⟨fun h₁ h₂ => ?_, fun h => ?_, fun h₁ h₂ => ?_⟩
    · exact ⟨_, does_upd_eq (fun d => d.rebolt id g t) (fun _ => rfl) ha (hpass h₁ h₂), Dev.enqueue_issued ..⟩
    · exact does_upd_eq (fun d => d.rebolt id g t) (fun _ => rfl) ha (hastray h)
    · exact does_upd_eq (fun d => d.rebolt id g t) (fun _ => rfl) ha (hunaligned h₁ h₂)
  case window =>
    intro d id g t ow oh c s o ha hc hstall hs ho f hpad hdtype hslayout holayout heven hw how hh hoh hshape
    obtain ⟨h0, h1, h2, h3⟩ := hshape
    obtain ⟨hpass, hastray, hunaligned⟩ := Dev.window_outcomes t hc hstall hs ho (padFails_eq_nil hpad) hdtype hslayout holayout heven
      (winDims_eq hw how hh hoh) h0 h1 h2 h3
    have hplaced : cvPlaced false s o ↔ s.overlaps o = false := by simp [cvPlaced]
    rw [hplaced] at hpass hastray hunaligned
    refine ⟨fun h₁ h₂ => ?_, fun h => ?_, fun h₁ h₂ => ?_⟩
    · exact ⟨_, does_upd_eq (fun d => d.window' id g t) (fun _ => rfl) ha (hpass h₁ h₂), Dev.enqueue_issued ..⟩
    · exact does_upd_eq (fun d => d.window' id g t) (fun _ => rfl) ha (hastray (by rw [h]; decide))
    · exact does_upd_eq (fun d => d.window' id g t) (fun _ => rfl) ha (hunaligned h₁ h₂)
  case start =>
    intro d id g t c s o ups ha hbegin hcls hs ho f cc
    have hdoes := does_start t ups ha hbegin (by decide)
    simp only [Dev.runIns, hcls] at hdoes
    refine ⟨fun hop => ?_, fun ow oh hop hdims => ?_⟩
    · simp only [Dev.cvDo, hop, if_true] at hdoes
      obtain ⟨hbegun, hblank, hfilled⟩ := Dev.cvFill_begun (id := id) (t := t) hs ho ((d.at_ t).reboltVal c)
      refine ⟨_, hdoes, hbegun, hblank, fun x hx => (hfilled x hx).trans ?_⟩
      simp only [Dev.reboltVal]
      split <;> rfl
    · simp only [Dev.cvDo, hop, Nat.one_ne_zero, if_false] at hdoes
      obtain ⟨hbegun, hblank, hfilled⟩ := Dev.cvFill_begun (id := id) (t := t) hs ho (fun s => (d.at_ t).winVal (winFields c.i)
        (padValue (winFields c.i) s.t.dtype (c.i.slot 2)) (((winDims (winFields c.i) s.t).map Prod.fst).getD 1) s)
      refine ⟨_, hdoes, hbegun, hblank, fun x hx => (hfilled x hx).trans ?_⟩
      rw [hdims]
      rfl

end Sys2Proof.Machine
end

section
/-!
PROOFS. Modules and the tensor descriptor table (O18): what the end of a ring command leaves alone, the load, the translation and the unload
of a module, and a write of the descriptor table.
-/
namespace Sys2Proof.Machine

/-! ## The end of a ring command leaves modules alone (R107, R222) -/

theorem KillsOnly.mods_eq {d e : Dev} (h : KillsOnly d e) : e.mods = d.mods := by
  obtain ⟨runs, frame, ctxs, sram, fresh, rfl⟩ := h
  rfl

section
variable (d : Dev)

theorem Dev.signalRec_mods (key : Nat) (b : Bool) : (d.signalRec key b).mods = d.mods := by
  unfold Dev.signalRec
  split
  · rfl
  · split_ifs <;> rfl

theorem Dev.wrHost_mods (a : Nat) (bs : List Nat) : (d.wrHost a bs).mods = d.mods := by
  unfold Dev.wrHost
  split <;> rfl

theorem Dev.wrHbm_mods (a : Nat) (bs : List Nat) : (d.wrHbm a bs).mods = d.mods := by
  unfold Dev.wrHbm
  dsimp only
  split_ifs <;> rfl

theorem Dev.emit_mods (key : Nat) (r : Rec) : (d.emit key r).mods = d.mods := by
  unfold Dev.emit
  split
  · rfl
  · split
    · rfl
    · rw [Dev.signalRec_mods, Dev.modCtx_mods, Dev.wrHost_mods]

theorem Dev.endHead_mods (key status detail slow info : Nat) : (d.endHead key status detail slow info).mods = d.mods := by
  unfold Dev.endHead
  split
  · rfl
  · split
    · rfl
    · dsimp only
      split_ifs
      · rfl
      · rfl
      · rfl
      · rw [Dev.emit_mods, Dev.modCtx_mods]

theorem Dev.settleEntry_mods (i : Nat) : (d.settleEntry i).mods = d.mods := by
  unfold Dev.settleEntry
  dsimp only
  split <;> rfl

theorem Dev.unpinAll_mods (l : List Nat) : (d.unpinAll l).mods = d.mods :=
  foldl_keeps Dev.mods Dev.unpin (fun _ i => Dev.settleEntry_mods _ i) l d

theorem Dev.kvReset_mods (f : Nat) : (d.kvReset f).mods = d.mods := by
  unfold Dev.kvReset
  refine foldl_keeps Dev.mods _ (fun _ _ => ?_) _ d
  rfl

theorem Dev.kvSettle_mods (f : Nat) : (d.kvSettle f).mods = d.mods := by
  unfold Dev.kvSettle
  split
  · rw [Dev.kvReset_mods]
  · rfl

theorem Dev.dropRun_mods (id : Nat) : (d.dropRun id).mods = d.mods := by
  unfold Dev.dropRun
  split
  · rfl
  · next r _ =>
    rw [Dev.kvSettle_mods]
    exact (Dev.forgetRun_killsOnly _ r).mods_eq.trans ((Dev.unpinAll_mods _ _).trans (Dev.charge_killsOnly d id true).mods_eq)

theorem Dev.someGranules_mods (n : Nat) {go : Dev → Nat → Dev} (h : ∀ e i, (go e i).mods = e.mods) :
    (d.someGranules n go).mods = d.mods := by
  unfold Dev.someGranules
  refine foldl_keeps Dev.mods _ (fun e i => ?_) _ _
  split
  · exact h e i
  · rfl

theorem Dev.stopHead_mods (k : RingCmd) : (d.stopHead k).mods = d.mods := by
  unfold Dev.stopHead
  split
  · exact Dev.dropRun_mods d _
  · unfold Dev.copyMix
    dsimp only
    split
    · exact Dev.someGranules_mods d _ (fun e i => Dev.wrHost_mods e _ _)
    · exact Dev.someGranules_mods d _ (fun e i => Dev.wrHbm_mods e _ _)
  · exact Dev.someGranules_mods d _ (fun _ _ => rfl)
  · rfl

theorem Dev.noteSlow_mods (r : Run) (v : Option Nat) : (d.noteSlow r v).mods = d.mods := by
  unfold Dev.noteSlow
  split
  · rfl
  · dsimp only
    split <;> rfl

theorem Dev.cutHead_mods (key : Nat) (k : RingCmd) (status : Nat) : (d.cutHead key k status).mods = d.mods := by
  unfold Dev.cutHead
  split
  · rw [Dev.endHead_mods, Dev.noteSlow_mods, Dev.stopHead_mods]
  · rw [Dev.endHead_mods, Dev.stopHead_mods]

theorem Dev.fnEvent_mods (fn ev : Nat) : (d.fnEvent fn ev).mods = d.mods := by
  rcases d.fnEvent_cases fn ev with h | h
  · rw [h, Dev.set_mods]
  · rw [h, Dev.send_mods, Dev.set_mods]

theorem Dev.opDone_mods (fn status : Nat) : (d.opDone fn status).mods = d.mods := by
  rw [Dev.opDone, Dev.fnEvent_mods, Dev.set_mods, Dev.set_mods]

theorem Dev.freeCtx_mods (key : Nat) : (d.freeCtx key).mods = d.mods := by
  obtain ⟨lnk, turns, h⟩ := d.freeCtx_shape key
  rw [h]

theorem Dev.pump_mods (key n : Nat) : (d.pump key n).mods = d.mods := by
  induction n generalizing d with
  | zero => rfl
  | succ n ih =>
    unfold Dev.pump
    split
    · rfl
    · split
      · split
        · rw [ih, Dev.endHead_mods]
        · rfl
      · rfl
      · split
        · rw [ih, Dev.cutHead_mods]
        · rfl
      · rw [Dev.opDone_mods, Dev.freeCtx_mods]
      · split
        · rw [ih, Dev.cutHead_mods]
        · rfl
      · split
        · rw [Dev.opDone_mods, Dev.modCtx_mods]
        · split
          · rw [ih, Dev.emit_mods, Dev.modCtx_mods]
          · rfl

theorem Dev.complete_mods (key status detail slow info : Nat) : (d.complete key status detail slow info).mods = d.mods := by
  unfold Dev.complete Dev.pumpCtx
  split
  · rw [Dev.endHead_mods]
  · obtain ⟨turns, h⟩ := Dev.leaveTurn_shape (Dev.pump (d.endHead key status detail slow info) key _) key
    rw [h]
    exact (Dev.pump_mods ..).trans (Dev.endHead_mods ..)

end

/-! ## A ring that goes on changes contexts, queues, messages and host memory alone -/

/-- The blocks `d` and `e` differ in what the end of commands that hold nothing can change. -/
def RingOnly (d e : Dev) : Prop :=
  e = { d with ctxs := e.ctxs, turns := e.turns, out := e.out, safe := e.safe, mem := { d.mem with host := e.mem.host } }

theorem RingOnly.refl (d : Dev) : RingOnly d d := rfl

theorem RingOnly.trans {a b c : Dev} (h₁ : RingOnly a b) (h₂ : RingOnly b c) : RingOnly a c := by
  unfold RingOnly at *
  rw [h₁] at h₂
  exact h₂

/-- What is no part of a ring stays. -/
theorem RingOnly.keeps {d e : Dev} (h : RingOnly d e) :
    e.mods = d.mods ∧ e.tdt = d.tdt ∧ e.runs = d.runs ∧ e.flags = d.flags ∧ e.mem.hbm = d.mem.hbm := by
  rw [h]
  exact ⟨rfl, rfl, rfl, rfl, rfl⟩

section
variable (d : Dev)

theorem Dev.modCtx_ringOnly (key : Nat) (f : Ctx → Ctx) : RingOnly d (d.modCtx key f) := rfl

theorem Dev.wrHost_ringOnly (a : Nat) (bs : List Nat) : RingOnly d (d.wrHost a bs) := by
  obtain ⟨host, h⟩ := d.wrHost_shape a bs
  rw [h]
  rfl

theorem Dev.signalRec_ringOnly (key : Nat) (b : Bool) : RingOnly d (d.signalRec key b) := by
  unfold Dev.signalRec
  split
  · exact .refl d
  · split_ifs <;> rfl

theorem Dev.emit_ringOnly (key : Nat) (r : Rec) : RingOnly d (d.emit key r) := by
  unfold Dev.emit
  split
  · exact .refl d
  · split
    · exact .refl d
    · exact ((Dev.wrHost_ringOnly d _ _).trans (Dev.modCtx_ringOnly _ _ _)).trans (Dev.signalRec_ringOnly _ _ _)

theorem Dev.endHead_ringOnly (key status detail slow info : Nat) : RingOnly d (d.endHead key status detail slow info) := by
  unfold Dev.endHead
  split
  · exact .refl d
  · split
    · exact .refl d
    · dsimp only
      split_ifs
      · rfl
      · rfl
      · rfl
      · exact (Dev.modCtx_ringOnly d _ _).trans (Dev.emit_ringOnly _ _ _)

end

theorem Dev.pump_ringOnly (key n : Nat) {d : Dev} {c : Ctx} (h : d.ctx key = some c) (he : c.ending = none) : RingOnly d (d.pump key n) := by
  induction n generalizing d c with
  | zero => exact .refl d
  | succ n ih =>
    unfold Dev.pump
    simp only [h, he]
    split
    · split
      · next s _ =>
        obtain ⟨c', hc', hring⟩ := Dev.endHead_sameRing s 0 0 0 h
        exact (Dev.endHead_ringOnly d key s 0 0 0).trans (ih hc' (hring.ending.trans he))
      · exact .refl d
    · exact .refl d
    all_goals contradiction

/-- The oldest command of a ring that no ABORT or DESTROY ends completes. -/
theorem Dev.complete_ringOnly {d : Dev} {key : Nat} {c : Ctx} (h : d.ctx key = some c) (he : c.ending = none)
    (status detail slow info : Nat) : RingOnly d (d.complete key status detail slow info) := by
  obtain ⟨c', hc', hring⟩ := Dev.endHead_sameRing status detail slow info h
  have hpump := Dev.pump_ringOnly key (c'.cmds.length + 2 ^ c'.sqLog2 + 2) hc' (hring.ending.trans he)
  obtain ⟨turns, hturns⟩ := Dev.leaveTurn_shape ((d.endHead key status detail slow info).pump key (c'.cmds.length + 2 ^ c'.sqLog2 + 2)) key
  rw [Dev.complete, Dev.pumpCtx_eq hc', hturns]
  exact ((Dev.endHead_ringOnly d key status detail slow info).trans hpump).trans rfl

/-- A command that waits for its dispatch heads a ring that no ABORT or DESTROY ends. -/
theorem Dev.ctx_of_headOp {d : Dev} {key op : Nat} {b : List Nat} (h : d.headOp key op = some b) :
    ∃ c k ks, d.ctx key = some c ∧ c.ending = none ∧ c.cmds = k :: ks := by
  unfold Dev.headOp at h
  split at h
  · cases h
  · next c hc =>
    split at h
    · cases h
    · next k ks hk =>
      split at h
      · next hcond => exact ⟨c, k, ks, hc, hcond.2.2.1, hk⟩
      · cases h

/-! ## The bytes that a native image leaves alone (R220) -/

theorem findUndef_insRange_out (u : List (Nat × Nat × Nat)) (r : Nat × Nat × Nat) {i : Nat} (h : i < r.1 ∨ r.2.1 ≤ i) :
    findUndef (insRange u r) i = findUndef u i := by
  obtain ⟨lo, hi, id⟩ := r
  have hout : ¬ (lo ≤ i ∧ i < hi) := by
    dsimp only at h
    omega
  induction u with
  | nil => simp only [insRange, findUndef, hout, if_false]
  | cons q u ih =>
    obtain ⟨a, b, n⟩ := q
    unfold insRange
    split
    · simp only [findUndef, hout, if_false]
    · simp only [findUndef, ih]

theorem Mem.read_forget_out (m : Mem) {lo hi i : Nat} (id : Nat) (h : i < lo ∨ hi ≤ i) : (m.forget lo hi id).read i = m.read i := by
  unfold Mem.forget
  split
  · have hcell : findCell (m.cells.filter (fun c => !(decide (lo ≤ c.1) && decide (c.1 < hi)))) i = findCell m.cells i := by
      rw [findCell_filter m.cells (fun k => !(decide (lo ≤ k) && decide (k < hi)))]
      refine if_pos ?_
      simp only [Bool.not_eq_true', Bool.and_eq_false_iff, decide_eq_false_iff_not]
      omega
    have hundef : findUndef (insRange (m.undef.flatMap (cutRange lo hi)) (lo, hi, id)) i = findUndef m.undef i :=
      (findUndef_insRange_out _ (lo, hi, id) h).trans (findUndef_cut _ _ _ _ h)
    simp only [Mem.read, Mem.blank, hcell, hundef]
  · rfl

/-! ## MODULE_LOAD (R216, R219, R220) -/

/-- The header as it is measured and signed: with the address of the native image left out (R219). -/
def signedPart (b : List Nat) : List Nat := b.take 32 ++ List.replicate 8 0 ++ b.drop 40

theorem Dev.moduleLoad_of_headOp {d : Dev} {key : Nat} {c : List Nat} (h : d.headOp key 5 = some c) (mem : List MemErr) :
    d.moduleLoad key mem = d.met accFetch [(bfield c 16 8, bfield c 24 4)] mem (fun x => x.loadAt key (bfield c 16 8) (bfield c 24 4)) := by
  simp only [Dev.moduleLoad, h]

section
variable {d : Dev} {key src len f : Nat} (hf : key / 4096 = f) (hclean : d.poisonIn src len = [])
include hf hclean

theorem Dev.loadAt_failed {p : Nat × Nat} (h : d.loadFail f (d.headRange key) src len (d.rdHbm src len) = some p) :
    d.loadAt key src len = d.complete key (catStatus p.1) p.2 0 0 := by
  simp only [Dev.loadAt, hclean, hf, h]

theorem Dev.loadAt_unsigned (h : d.loadFail f (d.headRange key) src len (d.rdHbm src len) = none)
    (hofs : (hdrOf (d.rdHbm src len)).sigOfs ≠ 0)
    (hsig : d.moduleSigOk (signedPart (d.rdHbm src len)) (hdrOf (d.rdHbm src len)).sigOfs = false) :
    d.loadAt key src len = d.complete key stFormat (hdrOf (d.rdHbm src len)).sigOfs 0 0 := by
  rw [signedPart] at hsig
  simp only [Dev.loadAt, hclean, hf, h, hofs, hsig, ne_eq, not_false_eq_true, Bool.false_eq_true, and_self, if_true]

theorem Dev.loadAt_passed (h : d.loadFail f (d.headRange key) src len (d.rdHbm src len) = none)
    (hsig : (hdrOf (d.rdHbm src len)).sigOfs = 0 ∨ d.moduleSigOk (signedPart (d.rdHbm src len)) (hdrOf (d.rdHbm src len)).sigOfs = true) :
    d.loadAt key src len = d.translate key f (d.rdHbm src len) := by
  rw [signedPart] at hsig
  have hpass : ¬ ((hdrOf (d.rdHbm src len)).sigOfs ≠ 0 ∧ ¬ d.moduleSigOk
      ((d.rdHbm src len).take 32 ++ List.replicate 8 0 ++ (d.rdHbm src len).drop 40) (hdrOf (d.rdHbm src len)).sigOfs = true) := by
    rintro ⟨hofs, hbad⟩
    exact hsig.elim hofs hbad
  simp only [Dev.loadAt, hclean, hf, h, if_neg hpass]

end

/-- The block with module `m` under an identifier, and the range of its native image free for it, before the command completes. -/
def Dev.placed (d : Dev) (m : Module) (id : Nat) : Dev :=
  let d := { d with mods := mset d.mods id m,
                    mem := { d.mem with hbm := d.mem.hbm.forget m.nativeAddr (m.nativeAddr + m.nativeSize) d.fresh } }
  d.take.setPoison (d.mem.poison.filter (fun g => !(decide (m.nativeAddr ≤ g) && decide (g < m.nativeAddr + m.nativeSize))))

theorem Dev.translate_eq (d : Dev) (key f : Nat) (b : List Nat) : d.translate key f b =
    (d.placed (moduleOf f b) (freeId d.mods 65535 1)).complete key stOk (freeId d.mods 65535 1) 0 0 := by
  unfold Dev.translate Dev.placed
  rfl

/-- What a placed module leaves of the block. -/
theorem Dev.placed_keeps (d : Dev) (m : Module) (id : Nat) : (d.placed m id).mods = mset d.mods id m ∧
    (d.placed m id).mem.hbm = d.mem.hbm.forget m.nativeAddr (m.nativeAddr + m.nativeSize) d.fresh ∧
    (d.placed m id).ctxs = d.ctxs ∧ (d.placed m id).tdt = d.tdt ∧ (d.placed m id).runs = d.runs ∧ (d.placed m id).flags = d.flags := by
  exact ⟨rfl, rfl, rfl, rfl, rfl, rfl⟩

/-- A translated container is module `id`, and of HBM only its native range changes. -/
theorem Dev.translate_effect {d : Dev} {key id : Nat} {c : Ctx} (f : Nat) (b : List Nat) (hc : d.ctx key = some c) (he : c.ending = none)
    (hid : freeId d.mods 65535 1 = id) : mfind (d.translate key f b).mods id = some (moduleOf f b) ∧
      (∀ i, i ≠ id → mfind (d.translate key f b).mods i = mfind d.mods i) ∧
      (∀ a, a < (moduleOf f b).nativeAddr ∨ (moduleOf f b).nativeAddr + (moduleOf f b).nativeSize ≤ a →
        (d.translate key f b).mem.hbm.read a = d.mem.hbm.read a) ∧
      (d.translate key f b).tdt = d.tdt ∧ (d.translate key f b).runs = d.runs ∧ (d.translate key f b).flags = d.flags := by
  rw [Dev.translate_eq, hid]
  generalize moduleOf f b = m
  obtain ⟨hmods, hhbm, hctxs, htdt, hruns, hflags⟩ := d.placed_keeps m id
  have hc' : (d.placed m id).ctx key = some c := by rw [Dev.ctx, hctxs]; exact hc
  obtain ⟨kmods, ktdt, kruns, kflags, khbm⟩ := (Dev.complete_ringOnly hc' he stOk id 0 0).keeps
  refine ⟨?_, fun i hi => ?_, fun a hout => ?_, ktdt.trans htdt, kruns.trans hruns, kflags.trans hflags⟩
  · rw [kmods, hmods]
    exact mfind_mset_same ..
  · rw [kmods, hmods]
    exact mfind_mset_ne _ _ _ _ hi
  · rw [khbm, hhbm]
    exact Mem.read_forget_out _ _ hout

/-! ## MODULE_UNLOAD (R222) -/

theorem Dev.setHead_effect {d : Dev} {key : Nat} {c : Ctx} {k : RingCmd} {ks : List RingCmd} (h : d.ctx key = some c) (hk : c.cmds = k :: ks)
    (st : CmdSt) : ((d.setHead key st).head key).map RingCmd.st = some st := by
  have hctx : (d.setHead key st).ctx key = some { c with cmds := { k with st := st } :: ks } := by
    rw [Dev.setHead, Dev.ctx_modCtx_some _ h, hk]
  rw [Dev.head, hctx]
  rfl

theorem Dev.moduleUnload_started {d : Dev} {key : Nat} {b : List Nat} (h : d.headOp key 6 = some b)
    (hmod : (d.modOf (key / 4096) (bfield b 16 2)).isSome = true) (hbank : d.modInBank (bfield b 16 2) = false) :
    d.moduleUnload key = Dev.setHead { d with mods := mmod d.mods (bfield b 16 2) (fun m => { m with unloading := true }) } key
      (.unloading (bfield b 16 2)) := by
  have hnone : (d.modOf (key / 4096) (bfield b 16 2)).isNone = false := by rw [Option.isNone_eq_false_iff]; exact hmod
  simp only [Dev.moduleUnload, h, hnone, hbank, Bool.or_self, Bool.false_eq_true, if_false]

/-- A module that is being unloaded admits no dispatch. -/
theorem Dev.modOf_unloading {d e : Dev} {part id : Nat} (h : e.mods = mmod d.mods id (fun m => { m with unloading := true })) :
    e.modOf part id = none := by
  rw [Dev.modOf, h, mfind_mmod_same]
  cases mfind d.mods id with
  | none => rfl
  | some m => simp

theorem Dev.unloadComplete_waits {d : Dev} {key id : Nat} {k : RingCmd} (hk : d.head key = some k) (hs : k.st = .unloading id)
    (h : d.runs.any (fun p => p.2.modId == id && p.2.dispatched) = true) : d.unloadComplete key = d := by
  simp only [Dev.unloadComplete, hk, hs, h, if_true]

theorem Dev.unloadComplete_done {d : Dev} {key id : Nat} {k : RingCmd} (hk : d.head key = some k) (hs : k.st = .unloading id)
    (h : d.runs.any (fun p => p.2.modId == id && p.2.dispatched) = false) :
    d.unloadComplete key = Dev.complete { d with mods := merase d.mods id } key stOk 0 0 0 := by
  simp only [Dev.unloadComplete, hk, hs, h, Bool.false_eq_true, if_false]

/-! ## TDT_WRITE (R160) -/

theorem firstFail_eq_none {l : List (Nat × Nat)} : firstFail l = none ↔ l = [] := by
  constructor
  · intro h
    induction l using List.reverseRecOn with
    | nil => rfl
    | append_singleton l p _ =>
      rw [firstFail, List.foldl_append, List.foldl_cons, List.foldl_nil] at h
      split at h
      · cases h
      · split at h <;> cases h
  · rintro rfl
    rfl

/-- Entries `first` and following of a table, from a function of their numbers. -/
def setEntries (m : List (Nat × TDesc)) (first : Nat) (val : Nat → TDesc) (n : Nat) : List (Nat × TDesc) :=
  (List.range n).foldl (fun m i => mset m (first + i) (val i)) m

theorem setEntries_succ (m : List (Nat × TDesc)) (first : Nat) (val : Nat → TDesc) (n : Nat) :
    setEntries m first val (n + 1) = mset (setEntries m first val n) (first + n) (val n) := by
  rw [setEntries, List.range_succ, List.foldl_append]
  rfl

theorem mfind_setEntries_in (m : List (Nat × TDesc)) (first : Nat) (val : Nat → TDesc) {n i : Nat} (h : i < n) :
    mfind (setEntries m first val n) (first + i) = some (val i) := by
  induction n with
  | zero => exact absurd h (Nat.not_lt_zero i)
  | succ n ih =>
    rw [setEntries_succ]
    by_cases hi : i = n
    · rw [hi]
      exact mfind_mset_same ..
    · rw [mfind_mset_ne _ _ _ _ (by omega)]
      exact ih (by omega)

theorem mfind_setEntries_out (m : List (Nat × TDesc)) (first : Nat) (val : Nat → TDesc) {n k : Nat} (h : k < first ∨ first + n ≤ k) :
    mfind (setEntries m first val n) k = mfind m k := by
  induction n with
  | zero => rfl
  | succ n ih =>
    rw [setEntries_succ, mfind_mset_ne _ _ _ _ (by omega)]
    exact ih (by omega)

/-- Handle `h` has an entry of another partition than `f`, which the entry that the bytes `b` spell would replace. -/
def Dev.foreignAt (d : Dev) (f h : Nat) (b : List Nat) : Prop :=
  bitOf (b.getD 11 0) 0 = true ∧ ∃ t, mfind d.tdt h = some t ∧ t.valid = true ∧ t.part ≠ f

/-- The bytes of entry `i` of a write of `n` entries. -/
def Dev.tdtRow (d : Dev) (src n i : Nat) : List Nat := ((List.range n).map (fun i => d.rdHbm (src + 64 * i) 64)).getD i []

theorem Dev.tdtRow_eq (d : Dev) (src : Nat) {n i : Nat} (h : i < n) : d.tdtRow src n i = d.rdHbm (src + 64 * i) 64 := by
  simp [Dev.tdtRow, h]

theorem failIf_eq_nil {c : Bool} {cat off : Nat} : failIf c cat off = [] ↔ c = false := by
  cases c <;> simp [failIf]

section
variable {d : Dev} {key first n src : Nat} (hclean : d.poisonIn src (64 * n) = [])
include hclean

/-- A write of the table ends with a status and no more, for some entry that fails, or with every entry visible. -/
theorem Dev.tdtStore_cases :
    (∃ i st, i < n ∧ (descFails (d.tdtRow src n i) 0 false ≠ [] ∨ d.foreignAt (key / 4096) (first + i) (d.tdtRow src n i)) ∧
      d.tdtStore key first n src = d.complete key st 0 0 0) ∨
    (∀ i, i < n → descFails (d.tdtRow src n i) 0 false = [] ∧ ¬ d.foreignAt (key / 4096) (first + i) (d.tdtRow src n i)) ∧
      d.tdtStore key first n src =
        Dev.complete { d with tdt := setEntries d.tdt first (fun i => descOf (d.tdtRow src n i) (key / 4096)) n } key stOk 0 0 0 := by
  unfold Dev.tdtStore
  simp only [hclean]
  split
  · next p hp =>
    obtain ⟨i, hi, hfail⟩ := List.exists_of_findSome?_eq_some hp
    refine .inl ⟨i, _, List.mem_range.mp hi, ?_, rfl⟩
    by_contra hpass
    rw [not_or, not_not] at hpass
    obtain ⟨hdesc, hforeign⟩ := hpass
    have hne := mt firstFail_eq_none.mpr (Option.ne_none_iff_exists'.mpr ⟨p, hfail⟩)
    refine hne (List.append_eq_nil_iff.mpr ⟨hdesc, failIf_eq_nil.mpr ?_⟩)
    rw [Bool.and_eq_false_imp]
    intro hvalid
    split
    · next t ht =>
      by_contra hother
      rw [Bool.not_eq_false, Bool.and_eq_true, bne_iff_ne] at hother
      exact hforeign ⟨hvalid, t, ht, hother⟩
    · rfl
  · next hnone =>
    refine .inr ⟨fun i hi => ?_, rfl⟩
    have hfail := firstFail_eq_none.mp (List.findSome?_eq_none_iff.mp hnone i (List.mem_range.mpr hi))
    obtain ⟨hdesc, hforeign⟩ := List.append_eq_nil_iff.mp hfail
    refine ⟨hdesc, ?_⟩
    rintro ⟨hvalid, t, ht, htv, htp⟩
    have hfree := Bool.and_eq_false_imp.mp (failIf_eq_nil.mp hforeign) hvalid
    rw [ht] at hfree
    simp only [htv, Bool.true_and, bne_eq_false_iff_eq] at hfree
    exact htp hfree

end

/-- A ring command that completes with a new table changes nothing else beside its ring. -/
theorem Dev.complete_table {d : Dev} {key : Nat} {c : Ctx} (hc : d.ctx key = some c) (he : c.ending = none) (m : List (Nat × TDesc))
    (status : Nat) :
    (Dev.complete { d with tdt := m } key status 0 0 0).tdt = m ∧ (Dev.complete { d with tdt := m } key status 0 0 0).mem.hbm = d.mem.hbm ∧
    (Dev.complete { d with tdt := m } key status 0 0 0).mods = d.mods ∧ (Dev.complete { d with tdt := m } key status 0 0 0).runs = d.runs := by
  have hc' : Dev.ctx { d with tdt := m } key = some c := hc
  obtain ⟨kmods, ktdt, kruns, -, khbm⟩ := (Dev.complete_ringOnly hc' he status 0 0 0).keeps
  exact ⟨ktdt, khbm, kmods, kruns⟩

theorem Dev.tdtWrite_of_headOp {d : Dev} {key : Nat} {c : List Nat} (h : d.headOp key 7 = some c) (hn : bfield c 20 4 ≠ 0)
    (mem : List MemErr) : d.tdtWrite key mem = d.met accFetch [(bfield c 24 8, 64 * bfield c 20 4)] mem
      (fun x => x.tdtStore key (bfield c 16 2) (bfield c 20 4) (bfield c 24 8)) := by
  simp only [Dev.tdtWrite, h, hn, if_false]

/-- A write of the table that meets no error; one of no entry completes as one whose entries all pass. -/
theorem Dev.tdtWrite_clean {d : Dev} {key : Nat} {c : List Nat} (h : d.headOp key 7 = some c)
    (hclean : d.poisonIn (bfield c 24 8) (64 * bfield c 20 4) = []) :
    d.tdtWrite key [] = d.tdtStore key (bfield c 16 2) (bfield c 20 4) (bfield c 24 8) := by
  by_cases hn : bfield c 20 4 = 0
  · have hcases := Dev.tdtStore_cases (key := key) (first := bfield c 16 2) hclean
    rw [hn] at hcases ⊢
    rcases hcases with ⟨i, -, hi, -⟩ | ⟨-, hall⟩
    · exact absurd hi (Nat.not_lt_zero i)
    · rw [hall]
      simp only [Dev.tdtWrite, h, hn, if_true]
      rfl
  · rw [Dev.tdtWrite_of_headOp h hn, Dev.met_nil]

/-- Settles O18: each command by what it makes of modules and table, and by what the end of a ring command leaves alone. -/
theorem modulesAndDescriptorTable : Obligations.ModulesAndDescriptorTable := by
  unfold Obligations.ModulesAndDescriptorTable
  refine ⟨?load, ?loadErrors, ?unload, ?unloadDone, ?write, ?writeErrors⟩
  case load =>
    intro d fn ctx c ha hfn hctx hop hclean src len b m rng
    obtain ⟨x, k, ks, hx, hending, -⟩ := Dev.ctx_of_headOp hop
    have hpart := ckey_div fn hctx
    have hgo : d.moduleLoad (ckey fn ctx) [] = d.loadAt (ckey fn ctx) src len := by
      rw [Dev.moduleLoad_of_headOp hop, Dev.met_nil]
    refine ⟨fun hfail hsig => ?_, fun p hfail => ?_, fun hfail hofs hsig => ?_⟩
    · refine completes_upd (f := fun d => d.moduleLoad (ckey fn ctx) []) (fun _ => rfl) ha ?_
      rw [hgo, Dev.loadAt_passed hpart hclean hfail hsig]
      exact Dev.translate_effect fn b hx hending rfl
    · exact does_upd_eq (fun d => d.moduleLoad (ckey fn ctx) []) (fun _ => rfl) ha (hgo.trans (Dev.loadAt_failed hpart hclean hfail))
    · exact does_upd_eq (fun d => d.moduleLoad (ckey fn ctx) []) (fun _ => rfl) ha
        (hgo.trans (Dev.loadAt_unsigned hpart hclean hfail hofs hsig))
  case loadErrors =>
    intro d fn ctx c mem ha hop
    exact does_upd_eq (fun d => d.moduleLoad (ckey fn ctx) mem) (fun _ => rfl) ha (Dev.moduleLoad_of_headOp hop mem)
  case unload =>
    intro d fn ctx c ha hfn hctx hop hmod hbank
    obtain ⟨x, k, ks, hx, -, hk⟩ := Dev.ctx_of_headOp hop
    refine completes_upd (f := fun d => d.moduleUnload (ckey fn ctx)) (fun _ => rfl) ha ?_
    rw [Dev.moduleUnload_started hop ((ckey_div fn hctx).symm ▸ hmod) hbank]
    exact ⟨Dev.modOf_unloading rfl, fun i hi => mfind_mmod_ne d.mods _ i (fun m => { m with unloading := true }) hi,
      Dev.setHead_effect hx hk _, rfl, rfl, rfl⟩
  case unloadDone =>
    intro d fn ctx id k ha hk hs
    refine ⟨fun hfree => ?_, fun hbusy => ?_⟩
    · refine completes_upd (f := fun d => d.unloadComplete (ckey fn ctx)) (fun _ => rfl) ha ?_
      rw [Dev.unloadComplete_done hk hs hfree, Dev.complete_mods]
      refine ⟨mfind_merase_same _ _, fun i hi => mfind_merase_ne _ _ _ hi, fun c hc hending => ?_⟩
      have hc' : Dev.ctx { d with mods := merase d.mods id } (ckey fn ctx) = some c := hc
      obtain ⟨-, -, kruns, -, khbm⟩ := (Dev.complete_ringOnly hc' hending stOk 0 0 0).keeps
      exact ⟨khbm, kruns⟩
    · exact does_upd_eq (fun d => d.unloadComplete (ckey fn ctx)) (fun _ => rfl) ha (Dev.unloadComplete_waits hk hs hbusy)
  case write =>
    intro d fn ctx c ha hfn hctx hop hclean first n entry foreign
    obtain ⟨x, k, ks, hx, hending, -⟩ := Dev.ctx_of_headOp hop
    have hpart := ckey_div fn hctx
    have hrow : ∀ i, i < n → d.tdtRow (bfield c 24 8) n i = entry i := fun i hi => d.tdtRow_eq (bfield c 24 8) hi
    have hcases := Dev.tdtStore_cases (key := ckey fn ctx) (first := first) hclean
    rw [← Dev.tdtWrite_clean hop hclean, hpart] at hcases
    refine ⟨fun hall => ?_, fun ⟨j, hj, hfail⟩ => ?_⟩
    · refine completes_upd (f := fun d => d.tdtWrite (ckey fn ctx) []) (fun _ => rfl) ha ?_
      rcases hcases with ⟨i, st, hi, hbad, -⟩ | ⟨-, hgo⟩
      · obtain ⟨hdesc, hforeign⟩ := hall i hi
        rw [hrow i hi] at hbad
        exact absurd hbad (not_or.mpr ⟨not_not.mpr hdesc, hforeign⟩)
      · rw [hgo]
        obtain ⟨ktdt, khbm, kmods, kruns⟩ := Dev.complete_table hx hending
          (setEntries d.tdt first (fun i => descOf (d.tdtRow (bfield c 24 8) n i) fn) n) stOk
        refine ⟨fun i hi => ?_, fun h hout => ?_, khbm, kmods, kruns⟩
        · rw [ktdt, ← hrow i hi]
          exact mfind_setEntries_in d.tdt first (fun i => descOf (d.tdtRow (bfield c 24 8) n i) fn) hi
        · rw [ktdt]
          exact mfind_setEntries_out d.tdt first _ hout
    · refine completes_upd (f := fun d => d.tdtWrite (ckey fn ctx) []) (fun _ => rfl) ha ?_
      rcases hcases with ⟨i, st, -, -, hgo⟩ | ⟨hall, -⟩
      · rw [hgo]
        exact Dev.complete_table hx hending d.tdt st
      · obtain ⟨hdesc, hforeign⟩ := hall j hj
        rw [hrow j hj] at hdesc hforeign
        exact absurd hfail (not_or.mpr ⟨not_not.mpr hdesc, hforeign⟩)
  case writeErrors =>
    intro d fn ctx c mem ha hop hn
    exact does_upd_eq (fun d => d.tdtWrite (ckey fn ctx) mem) (fun _ => rfl) ha (Dev.tdtWrite_of_headOp hop hn mem)

end Sys2Proof.Machine
end

section
/-!
PROOFS. Element-wise instructions, REQUANT and the reductions (O8): the checks at issue by the statuses that they can give, and a run that
computes every element of its output from the block as it stood at the start, in whatever order it visits them.
-/
namespace Sys2Proof.Machine

/-! ## The first failed check, by what the checks can give (R202) -/

theorem firstStatus_of_reserved {l : List Nat} (h : stReserved ∈ l) : firstStatus l = stReserved := by
  simp only [firstStatus, List.contains_eq_mem, decide_eq_true_eq, h, if_true]

theorem firstStatus_of_format {l : List Nat} (h : stFormat ∈ l) (hr : stReserved ∉ l) : firstStatus l = stFormat := by
  simp only [firstStatus, List.contains_eq_mem, decide_eq_true_eq, hr, h, if_false, if_true]

/-- The statuses with which an operand can fail, in the order of R202. -/
def operandStatuses : List Nat := [stFormat, stStale, stBounds]

theorem firstStatus_mem_operandStatuses {l : List Nat} (hne : l ≠ []) (h : ∀ x ∈ l, x ∈ operandStatuses) :
    firstStatus l ∈ operandStatuses := by
  have absent : ∀ st, st ∉ operandStatuses → st ∉ l := fun st hst hmem => hst (h st hmem)
  have hr := absent stReserved (by decide)
  by_cases hf : stFormat ∈ l
  · rw [firstStatus_of_format hf hr]
    decide
  by_cases ht : stStale ∈ l
  · simp only [firstStatus, List.contains_eq_mem, decide_eq_true_eq, hr, hf, absent stZero (by decide), ht, if_false, if_true]
    decide
  · have hbounds : ∀ x ∈ l, x = stBounds := fun x hx => by
      have hmem := h x hx
      simp only [operandStatuses, List.mem_cons, List.not_mem_nil, or_false] at hmem
      rcases hmem with rfl | rfl | rfl
      · exact absurd hx hf
      · exact absurd hx ht
      · rfl
    obtain ⟨x, hx⟩ := List.exists_mem_of_ne_nil l hne
    rw [firstStatus_of_bounds (hbounds x hx ▸ hx) (fun y hy => .inl (hbounds y hy))]
    decide

/-- The status of an operand comes before those of shapes that do not fit, or is theirs. -/
theorem firstStatus_cons_operand {s : Nat} {l : List Nat} (hs : s ∈ operandStatuses) (hl : ∀ x ∈ l, x = stBounds) :
    firstStatus (s :: l) = s := by
  have absent : ∀ st, st ≠ s → st ≠ stBounds → st ∉ s :: l := fun st hne hb hst => (List.mem_cons.mp hst).elim hne (fun h => hb (hl st h))
  simp only [operandStatuses, List.mem_cons, List.not_mem_nil, or_false] at hs
  rcases hs with rfl | rfl | rfl
  · exact firstStatus_of_format (List.mem_cons_self ..) (absent _ (by decide) (by decide))
  · simp only [firstStatus, List.contains_eq_mem, decide_eq_true_eq, absent stReserved (by decide) (by decide),
      absent stFormat (by decide) (by decide), absent stZero (by decide) (by decide), List.mem_cons_self, if_false, if_true]
  · exact firstStatus_of_bounds (List.mem_cons_self ..) (fun x hx => .inl ((List.mem_cons.mp hx).elim id (hl x)))

/-! ## How an operand fails (R201, R202) -/

section
variable {d : Dev} {c : Cur} {g n s : Nat} {wr : Bool}

theorem Cur.form_error (h : c.form g n = .error s) : s ∈ operandStatuses := by
  unfold Cur.form at h
  split at h
  · cases h
    decide
  rcases ite_eq_iff.mp h with ⟨-, h⟩ | ⟨-, h⟩
  · cases h
    decide
  rcases ite_eq_iff.mp h with ⟨-, h⟩ | ⟨-, h⟩
  · cases h
    decide
  rcases ite_eq_iff.mp h with ⟨-, h⟩ | ⟨-, h⟩
  · cases h
    decide
  · cases h

theorem Dev.locate_error {o : Operand} (h : d.locate c o wr stFormat = .error s) : s ∈ operandStatuses := by
  unfold Dev.locate at h
  split at h
  · cases h
    decide
  split at h
  · cases h
    decide
  split at h
  · cases h
    decide
  · cases h

theorem Dev.opd_error (h : d.opd c g n wr stFormat = .error s) : s ∈ operandStatuses := by
  unfold Dev.opd at h
  split at h
  · next hform =>
    cases h
    unfold Cur.formIn at hform
    split at hform
    · cases hform
      decide
    · split at hform
      · cases hform
        decide
      · exact Cur.form_error hform
  · exact Dev.locate_error h

end

theorem exStatus_eq_nil {α : Type} {x : Except Nat α} (h : exStatus x = []) : ∃ v, x = .ok v := by
  cases x with
  | ok v => exact ⟨v, rfl⟩
  | error s => cases h

theorem mem_exStatus {α : Type} {x : Except Nat α} {s : Nat} : s ∈ exStatus x ↔ x = .error s := by
  cases x with
  | ok v => simp [exStatus]
  | error u => simp [exStatus, eq_comm]

/-! ## The operands of an element-wise instruction (R187) -/

/-- An operand that only some operations have. -/
def Dev.opdIf (d : Dev) (c : Cur) (g n : Nat) (present : Bool) : Except Nat (Option Acc2) :=
  if present then (d.opd c g n false stFormat).map some else .ok none

section
variable {d : Dev} {c : Cur} {g n op : Nat} {present : Bool}

theorem Dev.opdIf_error {s : Nat} (h : d.opdIf c g n present = .error s) : s ∈ operandStatuses := by
  unfold Dev.opdIf at h
  split at h
  · cases hopd : d.opd c g n false stFormat with
    | ok a => rw [hopd] at h; cases h
    | error u => rw [hopd] at h; cases h; exact Dev.opd_error hopd
  · cases h

theorem Dev.opdIf_ok {b : Option Acc2} (h : d.opdIf c g n present = .ok b) :
    b.toList.map (fun a => a.t) = if present then [c.desc n] else [] := by
  unfold Dev.opdIf at h
  split at h
  · cases hopd : d.opd c g n false stFormat with
    | ok a => rw [hopd] at h; cases h; simp [(Dev.opd_ok hopd).1, *]
    | error u => rw [hopd] at h; cases h
  · cases h
    simp [*]

theorem Dev.ewOps_error {s : Nat} (h : d.ewOps c g op = .error s) : s ∈ operandStatuses := by
  unfold Dev.ewOps at h
  dsimp only at h
  rw [← Dev.opdIf, ← Dev.opdIf] at h
  split at h
  · cases h
  · next hfails =>
    cases h
    refine firstStatus_mem_operandStatuses (fun hnil => ?_) (fun x hx => ?_)
    · simp only [List.append_eq_nil_iff, and_assoc] at hnil
      obtain ⟨ha, hb, hx, ho⟩ := hnil
      obtain ⟨_, ha⟩ := exStatus_eq_nil ha
      obtain ⟨_, hb⟩ := exStatus_eq_nil hb
      obtain ⟨_, hx⟩ := exStatus_eq_nil hx
      obtain ⟨_, ho⟩ := exStatus_eq_nil ho
      exact hfails _ _ _ _ ha hb hx ho
    · simp only [List.mem_append, mem_exStatus] at hx
      rcases hx with ((hx | hx) | hx) | hx
      · exact Dev.opd_error hx
      · exact Dev.opdIf_error hx
      · exact Dev.opdIf_error hx
      · exact Dev.opd_error hx

/-- The located operands have the descriptors that their slots name, and the output may be written. -/
theorem Dev.ewOps_ok {o : EwOp} (h : d.ewOps c g op = .ok o) :
    o.ins.map (fun a => a.t) = ewIns c op ∧ o.a.t = c.desc 0 ∧ o.out.t = c.desc 2 ∧ o.out.t.writable = true := by
  unfold Dev.ewOps at h
  dsimp only at h
  rw [← Dev.opdIf, ← Dev.opdIf] at h
  split at h
  · next ha hb hx ho =>
    cases h
    obtain ⟨hout, hw⟩ := Dev.opd_ok ho
    refine ⟨?_, (Dev.opd_ok ha).1, hout, hw rfl⟩
    rw [EwOp.ins, ewIns, List.map_append, List.map_cons, Dev.opdIf_ok hb, Dev.opdIf_ok hx, (Dev.opd_ok ha).1]
  · cases h

/-- An operation of one input has no other. -/
theorem Dev.ewOps_unary {o : EwOp} (h : d.ewOps c g op = .ok o) (hb : opB op = false) (hc : opC op = false) : o.ins = [o.a] := by
  obtain ⟨hins, -⟩ := Dev.ewOps_ok h
  simp only [EwOp.ins, ewIns, hb, hc, Bool.false_eq_true, if_false, List.append_nil, List.map_append, List.map_cons, List.cons_append,
    List.cons.injEq, List.append_eq_nil_iff, List.map_eq_nil_iff] at hins
  rw [EwOp.ins, hins.2.1, hins.2.2]
  rfl

theorem Dev.ewOps_atTime (d : Dev) (t : Nat) : (d.at_ t).ewOps c g op = d.ewOps c g op := rfl

end

/-! ## The checks of an element-wise instruction (R186 to R188) -/

/-- The domain and the layouts that the operation admits. -/
def EwAdmitted (c : Cur) (op : Nat) : Prop :=
  (if (ewFields c.i).int then opInt op = true ∧ ∀ a ∈ ewIns c op, isInt a.dtype = true else opFp op = true) ∧
  ∀ a ∈ c.desc 2 :: ewIns c op, a.layout = 0 ∨ a.layout = 3

/-- The output overlaps at most one input, and that one coincides with it. -/
def EwApart (o : EwOp) : Prop :=
  (o.ins.filter o.out.overlaps).length ≤ 1 ∧ ∀ a ∈ o.ins, o.out.overlaps a = true → o.out.same a = true

/-- The checks of the domain and of the layouts. -/
def ewFormChecks (c : Cur) (op : Nat) : List Nat :=
  stIf (!(if (ewFields c.i).int then opInt op else opFp op)) stFormat ++ ewForm (ewFields c.i) (ewIns c op) (c.desc 2)

section
variable {c : Cur} {op : Nat}

theorem ewFormChecks_eq_nil : ewFormChecks c op = [] ↔ EwAdmitted c op := by
  have hlayout : ((c.desc 2 :: ewIns c op).any (fun a => a.layout != 0 && a.layout != 3)) = false ↔
      ∀ a ∈ c.desc 2 :: ewIns c op, a.layout = 0 ∨ a.layout = 3 := by
    simp only [List.any_eq_false, Bool.and_eq_true, bne_iff_ne, ne_eq, not_and_or, not_not]
  unfold ewFormChecks ewForm EwAdmitted
  rw [List.append_eq_nil_iff, List.append_eq_nil_iff, stIf_eq_nil, stIf_eq_nil, stIf_eq_nil, hlayout]
  cases (ewFields c.i).int
  · simp
  · simp [and_assoc, and_comm]

theorem eq_format_of_mem_ewFormChecks {x : Nat} (h : x ∈ ewFormChecks c op) : x = stFormat := by
  simp only [ewFormChecks, ewForm, List.mem_append] at h
  rcases h with h | h | h
  · exact eq_of_mem_stIf h
  · exact eq_of_mem_stIf h
  · exact eq_of_mem_stIf h

theorem ewOverlap_eq_nil {o : EwOp} : ewOverlap o.ins o.out = [] ↔ EwApart o := by
  simp [ewOverlap, stIf_eq_nil, EwApart]

theorem ewShape_eq_nil {ins : List TDesc} {out : TDesc} :
    ewShape ins out = [] ↔ ∀ a ∈ ins, ∀ n ∈ [0, 1, 2, 3], a.dim n = 1 ∨ a.dim n = out.dim n := by
  simp only [ewShape, stIf_eq_nil, List.any_eq_false, List.any_eq_true, Bool.and_eq_true, bne_iff_ne, ne_eq, not_exists, not_and, not_not,
    or_iff_not_imp_left]

theorem redShape_eq_nil {axis : Nat} {ins : List TDesc} {out : TDesc} :
    redShape axis ins out = [] ↔ ∀ a ∈ ins, ∀ n ∈ [0, 1, 2, 3], out.dim n = if n = axis then 1 else a.dim n := by
  simp only [redShape, stIf_eq_nil, List.any_eq_false, List.any_eq_true, bne_iff_ne, ne_eq, not_exists, not_and, not_not]

theorem eq_align_of_mem_ewUnaligned {o : EwOp} {x : Nat} (h : x ∈ ewUnaligned c o) : x = stAlign := by
  simp only [ewUnaligned, List.mem_append, List.mem_flatMap, Cur.unaligned, Acc2.unaligned] at h
  rcases h with ((h | ⟨a, -, h⟩) | ⟨a, -, h⟩) | h <;> exact eq_of_mem_stIf h

end

section
variable {d : Dev} {id g op : Nat} {c : Cur} {extra : EwF → TDesc → List Nat} {shape : EwF → List TDesc → TDesc → List Nat} {o : EwOp}

/-- The checks that rest on the fields and descriptors of the instruction. -/
def ewChecks (c : Cur) (op : Nat) (extra : EwF → TDesc → List Nat) (shape : EwF → List TDesc → TDesc → List Nat) : List Nat :=
  ewFormChecks c op ++ extra (ewFields c.i) (c.desc 2) ++ shape (ewFields c.i) (ewIns c op) (c.desc 2)

variable (hc : d.curOp id g 1 op = some c) (hstall : c.stalls qArray = false)
include hc hstall

theorem Dev.ewIssue_unlocated (t : Nat) {s : Nat} (ho : d.ewOps c g op = .error s) :
    d.ewIssue id g t op extra shape = (d.at_ t).endOwn id (firstStatus (s :: ewChecks c op extra shape)) := by
  simp only [Dev.ewIssue, hc, hstall, Bool.false_eq_true, if_false, Dev.ewOps_atTime, ho, ewChecks, ewFormChecks]

theorem Dev.ewIssue_passed (t : Nat) (ho : d.ewOps c g op = .ok o) (hchk : ewChecks c op extra shape = []) (hapart : EwApart o)
    (haligned : ewUnaligned c o = []) : d.ewIssue id g t op extra shape =
      (d.at_ t).enqueue id g c qArray (some (ewTime ((o.out :: o.ins).map (fun a => a.t)) o.nibs)) o.regs := by
  have hfirst : firstStatus (ewChecks c op extra shape ++ ewOverlap o.ins o.out ++ ewUnaligned c o) = 0 := by
    rw [hchk, ewOverlap_eq_nil.mpr hapart, haligned]
    rfl
  simp only [ewChecks, ewFormChecks] at hfirst
  simp only [Dev.ewIssue, hc, hstall, Bool.false_eq_true, if_false, Dev.ewOps_atTime, ho, hfirst]

theorem Dev.ewIssue_failed (t : Nat) {st : Nat} (ho : d.ewOps c g op = .ok o)
    (h : firstStatus (ewChecks c op extra shape ++ ewOverlap o.ins o.out ++ ewUnaligned c o) = st) (hst : st ≠ 0) :
    d.ewIssue id g t op extra shape = (d.at_ t).endOwn id st := by
  simp only [ewChecks, ewFormChecks] at h
  simp only [Dev.ewIssue, hc, hstall, Bool.false_eq_true, if_false, Dev.ewOps_atTime, ho, h]

/-- A check that gives RESERVED_FIELD comes before all others. -/
theorem Dev.ewIssue_reserved (t : Nat) (h : stReserved ∈ ewChecks c op extra shape) :
    d.ewIssue id g t op extra shape = (d.at_ t).endOwn id stReserved := by
  cases ho : d.ewOps c g op with
  | error s => rw [Dev.ewIssue_unlocated hc hstall t ho, firstStatus_of_reserved (List.mem_cons_of_mem _ h)]
  | ok o =>
    refine Dev.ewIssue_failed hc hstall t ho (firstStatus_of_reserved ?_) (by decide)
    exact List.mem_append_left _ (List.mem_append_left _ h)

end

/-! ## The operations of codes 0x00 to 0x10 at issue -/

/-- The instructions of Table 3 of R187 that act element by element, with their codes. -/
def ewMapInstrs : List ((Nat → Nat → Nat → Instr) × Nat) :=
  [(.ewCvt, 0x00), (.ewAdd, 0x01), (.ewSub, 0x02), (.ewMul, 0x03), (.ewFma, 0x04), (.ewMax, 0x05), (.ewMin, 0x06), (.ewAbs, 0x07),
    (.ewNeg, 0x08), (.ewRelu, 0x09), (.ewClamp, 0x0A), (.ewAffine, 0x0B), (.ewExp, 0x0C), (.ewRecip, 0x0D), (.ewSqrt, 0x0E),
    (.ewRsqrt, 0x0F), (.ewReluGrad, 0x10)]

theorem exec_ewMap {p : (Nat → Nat → Nat → Instr) × Nat} (hp : p ∈ ewMapInstrs) (id g t : Nat) :
    ∀ s, exec (p.1 id g t) s = .next (s.upd (fun d => d.ewMap id g t p.2)) := by
  revert p
  simp only [ewMapInstrs, List.forall_mem_cons, List.not_mem_nil, false_implies, implies_true, and_true]
  and_intros <;> exact fun _ => rfl

/-- The limits of a CLAMP are in order (R187). -/
def EwOrdered (c : Cur) (op : Nat) : Prop :=
  op = 0x0A → if (ewFields c.i).int then toSigned 32 (ewFields c.i).s0 ≤ toSigned 32 (ewFields c.i).s1 else
    (ofBits32 (ewFields c.i).s0).gt (ofBits32 (ewFields c.i).s1) = false ∨
      ((ofBits32 (ewFields c.i).s0).isZero = true ∧ (ofBits32 (ewFields c.i).s1).isZero = true)

/-- The shapes of the operands fit, and so do the limits of a CLAMP. -/
def EwShaped (c : Cur) (op : Nat) : Prop :=
  (∀ a ∈ ewIns c op, ∀ n ∈ [0, 1, 2, 3], a.dim n = 1 ∨ a.dim n = (c.desc 2).dim n) ∧ EwOrdered c op

/-- The check of the limits of a CLAMP. -/
def ewLimitChecks (op : Nat) (f : EwF) : List Nat :=
  stIf (op == 0x0A && (if f.int then decide (toSigned 32 f.s1 < toSigned 32 f.s0) else
    (ofBits32 f.s0).gt (ofBits32 f.s1) && !((ofBits32 f.s0).isZero && (ofBits32 f.s1).isZero))) stBounds

section
variable {d : Dev} {id g op : Nat} {c : Cur} {o : EwOp}

theorem ewLimitChecks_eq_nil : ewLimitChecks op (ewFields c.i) = [] ↔ EwOrdered c op := by
  unfold ewLimitChecks EwOrdered
  rw [stIf_eq_nil]
  cases (ewFields c.i).int <;> simp [imp_iff_not_or]

theorem Dev.ewMap_eq (d : Dev) (id g t op : Nat) :
    d.ewMap id g t op = d.ewIssue id g t op (fun f _ => ewLimitChecks op f) (fun _ ins out => ewShape ins out) := rfl

/-- The checks of shapes and limits. -/
def ewMapShapeChecks (c : Cur) (op : Nat) : List Nat := ewLimitChecks op (ewFields c.i) ++ ewShape (ewIns c op) (c.desc 2)

theorem ewMapShapeChecks_eq_nil : ewMapShapeChecks c op = [] ↔ EwShaped c op := by
  rw [ewMapShapeChecks, List.append_eq_nil_iff, ewLimitChecks_eq_nil, ewShape_eq_nil, EwShaped, and_comm]

theorem eq_bounds_of_mem_ewMapShapeChecks {x : Nat} (h : x ∈ ewMapShapeChecks c op) : x = stBounds :=
  (List.mem_append.mp h).elim eq_of_mem_stIf eq_of_mem_stIf

theorem ewChecks_map : ewChecks c op (fun f _ => ewLimitChecks op f) (fun _ ins out => ewShape ins out) =
    ewFormChecks c op ++ ewMapShapeChecks c op := List.append_assoc ..

variable (hc : d.curOp id g 1 op = some c) (hstall : c.stalls qArray = false)
include hc hstall

theorem Dev.ewMap_not_admitted (t : Nat) (h : ¬ EwAdmitted c op) : d.ewMap id g t op = (d.at_ t).endOwn id stFormat := by
  have hform : stFormat ∈ ewFormChecks c op := by
    obtain ⟨x, hx⟩ := List.exists_mem_of_ne_nil _ (mt ewFormChecks_eq_nil.mp h)
    exact eq_format_of_mem_ewFormChecks hx ▸ hx
  have habsent : stReserved ∉ ewFormChecks c op ++ ewMapShapeChecks c op := fun hx =>
    (List.mem_append.mp hx).elim (fun hx => absurd (eq_format_of_mem_ewFormChecks hx) (by decide))
      (fun hx => absurd (eq_bounds_of_mem_ewMapShapeChecks hx) (by decide))
  rw [Dev.ewMap_eq]
  cases ho : d.ewOps c g op with
  | error s =>
    have hs : stReserved ≠ s := fun he => absurd (he ▸ Dev.ewOps_error ho) (by decide)
    rw [Dev.ewIssue_unlocated hc hstall t ho, ewChecks_map, firstStatus_of_format]
    · exact List.mem_cons_of_mem _ (List.mem_append_left _ hform)
    · exact fun hx => (List.mem_cons.mp hx).elim hs habsent
  | ok o =>
    refine Dev.ewIssue_failed hc hstall t ho (firstStatus_of_format ?_ fun hx => ?_) (by decide)
    · exact List.mem_append_left _ (List.mem_append_left _ (List.mem_append_left _ (List.mem_append_left _ hform)))
    · rw [ewChecks_map] at hx
      rcases List.mem_append.mp hx with hx | hx
      · exact (List.mem_append.mp hx).elim habsent (fun hx => absurd (eq_of_mem_stIf hx) (by decide))
      · exact absurd (eq_align_of_mem_ewUnaligned hx) (by decide)

theorem Dev.ewMap_unlocated (t : Nat) {s : Nat} (hform : EwAdmitted c op) (ho : d.ewOps c g op = .error s) :
    d.ewMap id g t op = (d.at_ t).endOwn id s := by
  rw [Dev.ewMap_eq, Dev.ewIssue_unlocated hc hstall t ho, ewChecks_map, ewFormChecks_eq_nil.mpr hform, List.nil_append,
    firstStatus_cons_operand (Dev.ewOps_error ho) (fun x hx => eq_bounds_of_mem_ewMapShapeChecks hx)]

variable (hform : EwAdmitted c op) (ho : d.ewOps c g op = .ok o)
include hform ho

theorem Dev.ewMap_passed (t : Nat) (hshaped : EwShaped c op) (hapart : EwApart o) (haligned : ewUnaligned c o = []) :
    d.ewMap id g t op = (d.at_ t).enqueue id g c qArray (some (ewTime ((o.out :: o.ins).map (fun a => a.t)) o.nibs)) o.regs := by
  refine Dev.ewIssue_passed hc hstall t ho ?_ hapart haligned
  exact ewChecks_map.trans (by rw [ewFormChecks_eq_nil.mpr hform, ewMapShapeChecks_eq_nil.mpr hshaped]; rfl)

theorem Dev.ewMap_misfit (t : Nat) (h : ¬ (EwShaped c op ∧ EwApart o)) : d.ewMap id g t op = (d.at_ t).endOwn id stBounds := by
  have hbounds : ∀ x ∈ ewMapShapeChecks c op ++ ewOverlap o.ins o.out, x = stBounds := fun x hx =>
    (List.mem_append.mp hx).elim eq_bounds_of_mem_ewMapShapeChecks eq_of_mem_stIf
  have hne : ewMapShapeChecks c op ++ ewOverlap o.ins o.out ≠ [] := by
    rwa [ne_eq, List.append_eq_nil_iff, ewMapShapeChecks_eq_nil, ewOverlap_eq_nil]
  obtain ⟨x, hx⟩ := List.exists_mem_of_ne_nil _ hne
  rw [Dev.ewMap_eq]
  refine Dev.ewIssue_failed hc hstall t ho ?_ (by decide)
  rw [ewChecks_map, ewFormChecks_eq_nil.mpr hform, List.nil_append]
  refine firstStatus_of_bounds (List.mem_append_left _ (hbounds x hx ▸ hx)) (fun y hy => ?_)
  exact (List.mem_append.mp hy).imp (hbounds y) eq_align_of_mem_ewUnaligned

theorem Dev.ewMap_unaligned (t : Nat) (hshaped : EwShaped c op) (hapart : EwApart o) (h : ewUnaligned c o ≠ []) :
    d.ewMap id g t op = (d.at_ t).endOwn id stAlign := by
  rw [Dev.ewMap_eq]
  refine Dev.ewIssue_failed hc hstall t ho ?_ (by decide)
  rw [ewChecks_map, ewFormChecks_eq_nil.mpr hform, ewMapShapeChecks_eq_nil.mpr hshaped, ewOverlap_eq_nil.mpr hapart]
  exact firstStatus_of_aligned h (fun x hx => eq_align_of_mem_ewUnaligned hx)

end

/-! ## REQUANT and the reductions at issue (R191, R532) -/

/-- The checks of the fields of REQUANT (R532). -/
def ewRequantChecks (f : EwF) (out : TDesc) : List Nat :=
  stIf (bits f.s1 7 6 != 0 || bits f.s1 31 16 != 0) stReserved ++ stIf (!([0, 1, 7].contains out.dtype)) stFormat ++
  stIf (bits f.s1 5 0 == 63 ||
    (out.dtype == 0 && (decide (toSigned 8 (bits f.s1 15 8) < -8) || decide (7 < toSigned 8 (bits f.s1 15 8))))) stBounds

theorem Dev.ewRequant_eq (d : Dev) (id g t : Nat) :
    d.ewRequant id g t = d.ewIssue id g t 0x11 ewRequantChecks (fun _ ins out => ewShape ins out) := rfl

theorem ewRequantChecks_eq_nil {f : EwF} {out : TDesc} (h6 : bits f.s1 7 6 = 0) (h16 : bits f.s1 31 16 = 0) (hdtype : out.dtype ∈ [0, 1, 7])
    (hshift : bits f.s1 5 0 ≠ 63) (hzero : out.dtype = 0 → -8 ≤ toSigned 8 (bits f.s1 15 8) ∧ toSigned 8 (bits f.s1 15 8) ≤ 7) :
    ewRequantChecks f out = [] := by
  have hrange : (out.dtype == 0 && (decide (toSigned 8 (bits f.s1 15 8) < -8) || decide (7 < toSigned 8 (bits f.s1 15 8)))) = false := by
    simp only [Bool.and_eq_false_imp, beq_iff_eq, Bool.or_eq_false_iff, decide_eq_false_iff_not, Int.not_lt]
    exact hzero
  have hout : [0, 1, 7].contains out.dtype = true := List.contains_iff_mem.mpr hdtype
  rw [ewRequantChecks, h6, h16, hout, hrange, beq_eq_false_iff_ne.mpr hshift]
  rfl

section
variable {d : Dev} {id g op : Nat} {c : Cur} {extra : EwF → TDesc → List Nat} {shape : EwF → List TDesc → TDesc → List Nat} {o : EwOp}

/-- An instruction of one input that passes its checks enters the ARRAY queue. -/
theorem Dev.ewIssue_unary (t : Nat) (hc : d.curOp id g 1 op = some c) (hstall : c.stalls qArray = false) (ho : d.ewOps c g op = .ok o)
    (hb : opB op = false) (hx : opC op = false)
    (hdomain : if (ewFields c.i).int then opInt op = true ∧ isInt o.a.t.dtype = true else opFp op = true)
    (ha : o.a.t.layout = 0 ∨ o.a.t.layout = 3) (hout : o.out.t.layout = 0 ∨ o.out.t.layout = 3)
    (hextra : extra (ewFields c.i) o.out.t = []) (hshape : shape (ewFields c.i) [o.a.t] o.out.t = [])
    (hover : o.out.overlaps o.a = true → o.out.same o.a = true) (haligned : ewUnaligned c o = []) :
    d.ewIssue id g t op extra shape = (d.at_ t).enqueue id g c qArray (some (ewTime [o.out.t, o.a.t] o.nibs)) o.regs := by
  have hunary := Dev.ewOps_unary ho hb hx
  obtain ⟨hins, -, houtd, -⟩ := Dev.ewOps_ok ho
  rw [hunary, List.map_cons, List.map_nil] at hins
  have hform : EwAdmitted c op := by
    rw [EwAdmitted, ← hins, ← houtd]
    simp only [List.forall_mem_cons, List.not_mem_nil, false_implies, implies_true, and_true]
    exact ⟨hdomain, hout, ha⟩
  have hapart : EwApart o := by
    rw [EwApart, hunary]
    exact ⟨List.length_filter_le _ _, fun a hmem => List.mem_singleton.mp hmem ▸ hover⟩
  have hchk : ewChecks c op extra shape = [] := by
    rw [ewChecks, ewFormChecks_eq_nil.mpr hform, ← hins, ← houtd, hextra, hshape]
    rfl
  rw [Dev.ewIssue_passed hc hstall t ho hchk hapart haligned, hunary]
  rfl

end

/-! ## The elements of an output, in the order of their visits (R340) -/

theorem mem_visits {α : Type} {oct : Bool} {l : List α} {x : α} : x ∈ visits oct l ↔ x ∈ l := by
  cases oct <;> simp [visits]

/-- The blocks hold every element, and nothing else. -/
theorem mem_flatten_ewBlocks {α : Type} {oct : Bool} {l : List α} {x : α} : x ∈ (ewBlocks oct l).flatten ↔ x ∈ l := by
  simp only [ewBlocks, List.mem_flatten, mem_visits, List.mem_map, List.mem_range]
  constructor
  · rintro ⟨_, ⟨b, -, rfl⟩, hx⟩
    exact List.mem_of_mem_drop (List.mem_of_mem_take hx)
  · intro hx
    obtain ⟨i, hi, rfl⟩ := List.mem_iff_getElem.mp hx
    refine ⟨_, ⟨i / 256, div_lt_ceilDiv (by decide) hi, rfl⟩, List.mem_of_getElem? (i := i % 256) ?_⟩
    rw [List.getElem?_take_of_lt (Nat.mod_lt _ (by decide)), List.getElem?_drop, Nat.div_add_mod, List.getElem?_eq_getElem hi]

theorem testBit_orAll {α : Type} (l : List α) (fl : α → Nat) (i : Nat) : (orAll l fl).testBit i = l.any (fun x => (fl x).testBit i) := by
  induction l using List.reverseRecOn with
  | nil => simp [orAll]
  | append_singleton l x ih =>
    rw [orAll, List.foldl_append, List.foldl_cons, List.foldl_nil, Nat.testBit_or, ← orAll, ih, List.any_append]
    simp only [List.any_cons, List.any_nil, Bool.or_false]

/-- The flags of elements do not depend on the order of their visits. -/
theorem orAll_congr {α : Type} {l l' : List α} (h : ∀ x, x ∈ l ↔ x ∈ l') (fl : α → Nat) : orAll l fl = orAll l' fl := by
  refine Nat.eq_of_testBit_eq (fun i => ?_)
  rw [testBit_orAll, testBit_orAll, Bool.eq_iff_iff, List.any_eq_true, List.any_eq_true]
  simp only [h]

/-- A run over blocks that writes elements and gathers their flags does each of the two by itself. -/
theorem foldl_ewBlocks {α : Type} (put : Dev → α → Dev) (fl : α → Nat) (oct : Bool) (l : List α) (d : Dev) :
    (ewBlocks oct l).foldl (fun s b => b.foldl (fun (s : Dev × Nat) x => (put s.1 x, s.2 ||| fl x)) s) (d, 0) =
      ((ewBlocks oct l).flatten.foldl put d, orAll l fl) := by
  have happ : ∀ m : List α, m.foldl (fun (s : Dev × Nat) x => (put s.1 x, s.2 ||| fl x)) (d, 0) = (m.foldl put d, orAll m fl) := fun m => by
    induction m using List.reverseRecOn with
    | nil => rfl
    | append_singleton m x ih => simp only [List.foldl_append, List.foldl_cons, List.foldl_nil, ih, orAll]
  rw [← List.foldl_flatten, happ, orAll_congr (fun x => mem_flatten_ewBlocks)]

/-! ## An element-wise instruction as it runs -/

section
variable {d : Dev} {c : Cur} {g : Nat} {o : EwOp} {ups : List Upset}

theorem Dev.ewFill_eq (d : Dev) (oct : Bool) (ups : List Upset) (out : Acc2) (val : Nat × Nat × Nat × Nat → Nat × Nat) :
    d.ewFill oct ups out val = (Acc2.putAll d out (fun q => ewElement oct ups out.t q (val q).1) (ewBlocks oct out.t.coords).flatten,
      orAll out.t.coords (fun q => (val q).2)) :=
  foldl_ewBlocks (fun s q => Acc2.put s out q (ewElement oct ups out.t q (val q).1)) (fun q => (val q).2) oct out.t.coords d

theorem Dev.ewDo_eq (ho : d.ewOps c g c.i.op = .ok o) (hop : ¬ (c.i.op = 0x14 ∨ c.i.op = 0x15)) : d.ewDo g c ups =
    { Done.idle (Acc2.putAll d o.out (fun q => ewElement c.oct ups o.out.t q (d.ewVal g c o q).1)
        (ewBlocks c.oct o.out.t.coords).flatten) with
      flags := orAll o.out.t.coords (fun q => (d.ewVal g c o q).2)
      touched := (o.out :: o.ins).map Acc2.keys
      wrote := [o.out.keys] } := by
  simp only [Dev.ewDo, hop, if_false, ho, Dev.ewFill_eq]

theorem Dev.ewDo_within (ho : d.ewOps c g c.i.op = .ok o) (hop : ¬ (c.i.op = 0x14 ∨ c.i.op = 0x15)) :
    (d.ewDo g c ups).Within d (o.out :: o.ins) [o.out] := by
  rw [Dev.ewDo_eq ho hop]
  refine ⟨rfl, Acc2.putAll_onChip _ _, fun a ha => List.mem_map_of_mem ha, fun key hkey => ?_⟩
  exact Acc2.read_putAll_not_covers _ (fun _ h => mem_flatten_ewBlocks.mp h) (hkey o.out (List.mem_singleton_self _))

/-- An element-wise instruction that starts fills its output from the block as it stands. -/
theorem Dev.ewStart_completes {id t : Nat} (ha : d.awake) (hbegin : MayBegin d id g qArray c) (hcls : c.i.cls = 1)
    (hop : ¬ (c.i.op = 0x14 ∨ c.i.op = 0x15)) (ho : d.ewOps c g c.i.op = .ok o) {val : Nat × Nat × Nat × Nat → Nat × Nat}
    (hval : d.ewVal g c o = val) : Completes (.instructionStart id g qArray t [] ups none) d (fun e =>
      Filled o.out (fun q => ewElement c.oct ups o.out.t q (val q).1) e ∧
      Begun qArray id g t (orAll o.out.t.coords (fun q => (val q).2)) false [] (o.out :: o.ins) [o.out] d e) := by
  have hdoes := does_start t ups ha hbegin (by decide)
  simp only [Dev.runIns, hcls] at hdoes
  obtain ⟨hbegun, hsram⟩ := Dev.begun_of_within (Dev.ewDo_within (d := d.at_ t) (ups := ups) ho hop) id g qArray
  have hvalt : (d.at_ t).ewVal g c o = val := hval
  rw [Dev.ewDo_eq (d := d.at_ t) ho hop, hvalt] at hbegun hsram hdoes
  refine ⟨_, hdoes, fun x hx => ?_, hbegun⟩
  rw [Acc2.get_of_sram hsram]
  exact Acc2.get_putAll _ (Dev.ewOps_ok ho).2.2.2 (fun _ h => mem_flatten_ewBlocks.mp h) (mem_flatten_ewBlocks.mpr hx)

theorem Dev.ewVal_map (h : c.i.op ≤ 0x10) : d.ewVal g c o = d.ewMapVal g c.i.op c (ewFields c.i) o := by
  funext q
  unfold Dev.ewVal
  dsimp only
  split
  · omega
  · omega
  · omega
  · rfl

theorem Dev.ewVal_requant (h : c.i.op = 0x11) : d.ewVal g c o = d.ewRequantVal (ewFields c.i) o := by
  funext q
  simp only [Dev.ewVal, h]

theorem Dev.ewVal_reduce {mx : Bool} (h : c.i.op = if mx then 0x13 else 0x12) :
    d.ewVal g c o = d.ewReduceVal g mx c (ewFields c.i) o := by
  funext q
  cases mx <;> simp only [Dev.ewVal, h, if_true, Bool.false_eq_true, if_false]

end

/-- Settles O8: at issue by the statuses that the checks can give, and at its start by the elements that the run writes, whose order and
flags do not depend on the order of the visits. -/
theorem elementWiseInstructions : Obligations.ElementWiseInstructions := by
  unfold Obligations.ElementWiseInstructions
  refine ⟨⟨?map, ?requant, ?reduce⟩, ?mapStart, ?requantStart, ?reduceStart⟩
  case map =>
    intro p hp d id g t c ha hc hstall f ins out admitted shaped
    have hexec := exec_ewMap hp id g t
    refine ⟨fun h => ?_, fun s hform ho => ?_, fun o hform ho =>
      ⟨fun hshaped hapart haligned => ?_, fun h => ?_, fun hshaped hapart h => ?_⟩⟩
    · exact does_upd_eq _ hexec ha (Dev.ewMap_not_admitted hc hstall t h)
    · exact does_upd_eq _ hexec ha (Dev.ewMap_unlocated hc hstall t hform ho)
    · exact ⟨_, does_upd_eq _ hexec ha (Dev.ewMap_passed hc hstall hform ho t hshaped hapart haligned), Dev.enqueue_issued ..⟩
    · exact does_upd_eq _ hexec ha (Dev.ewMap_misfit hc hstall hform ho t h)
    · exact does_upd_eq _ hexec ha (Dev.ewMap_unaligned hc hstall hform ho t hshaped hapart h)
  case requant =>
    intro d id g t c ha hc hstall f s z
    refine ⟨fun h => ?_, fun o ho h6 h16 hdtype hshift hzero hint hisint halayout houtlayout hshape hover haligned => ?_⟩
    · refine does_upd_eq (fun d => d.ewRequant id g t) (fun _ => rfl) ha (Dev.ewIssue_reserved hc hstall t ?_)
      have hres : stReserved ∈ ewRequantChecks f (c.desc 2) := by
        have hfails : (bits f.s1 7 6 != 0 || bits f.s1 31 16 != 0) = true := by simpa using h
        rw [ewRequantChecks, hfails]
        exact List.mem_cons_self ..
      exact List.mem_append_left _ (List.mem_append_right _ hres)
    · refine ⟨_, does_upd_eq (fun d => d.ewRequant id g t) (fun _ => rfl) ha ?_, Dev.enqueue_issued ..⟩
      have hextra := ewRequantChecks_eq_nil h6 h16 hdtype hshift hzero
      refine Dev.ewIssue_unary t hc hstall ho rfl rfl ?_ halayout houtlayout hextra ?_ hover haligned
      · rw [if_pos hint]
        exact ⟨rfl, hisint⟩
      · exact ewShape_eq_nil.mpr (fun a hmem => List.mem_singleton.mp hmem ▸ hshape)
  case reduce =>
    intro d id g t mx c o ha hc hstall ho f hint halayout houtlayout hshape hover haligned
    refine ⟨_, does_upd_eq (fun d => d.ewReduce id g t (if mx then 0x13 else 0x12)) (fun _ => by cases mx <;> rfl) ha ?_,
      Dev.enqueue_issued ..⟩
    refine Dev.ewIssue_unary t hc hstall ho (by cases mx <;> rfl) (by cases mx <;> rfl) ?_ halayout houtlayout rfl ?_ hover haligned
    · split
      · exact ⟨by cases mx <;> rfl, hint ‹_›⟩
      · cases mx <;> rfl
    · exact redShape_eq_nil.mpr (fun a hmem => List.mem_singleton.mp hmem ▸ hshape)
  case mapStart =>
    intro d id g t c o ups ha hbegin hcls hop ho f val
    exact Dev.ewStart_completes ha hbegin hcls (by omega) ho (Dev.ewVal_map hop)
  case requantStart =>
    intro d id g t c o ups ha hbegin hcls hop ho f s z a r
    have hstart := Dev.ewStart_completes (t := t) (ups := ups) ha hbegin hcls (by omega) (hop ▸ ho) (Dev.ewVal_requant hop)
    rw [Dev.ewOps_unary ho rfl rfl] at hstart
    exact hstart
  case reduceStart =>
    intro d id g t mx c o ups ha hbegin hcls hop ho f x js si sf res
    have hunary : o.ins = [o.a] := Dev.ewOps_unary ho (by rw [hop]; cases mx <;> rfl) (by rw [hop]; cases mx <;> rfl)
    have hstart := Dev.ewStart_completes (t := t) (ups := ups) ha hbegin hcls (by rw [hop]; cases mx <;> decide) ho (Dev.ewVal_reduce hop)
    rw [hunary] at hstart
    exact hstart

end Sys2Proof.Machine
end

section
/-!
PROOFS. SGD_MOM and ADAMW (O9): operands that share no byte do not disturb each other, so elements that a step writes in several operands
all read back.
-/
namespace Sys2Proof.Machine

/-! ## Operands that share no byte (R188) -/

/-- The offset in the memory that a scratchpad address selects. -/
def Sel.off : Sel → Nat
  | .eng _ _ o => o
  | .clu _ o => o
  | .reg _ o => o

theorem spDecode_off_lt {a : Nat} {s : Sel} (h : spDecode a = some s) : s.off < 0x800000 := by
  unfold spDecode at h
  dsimp only at h
  split_ifs at h <;> cases h <;> exact Nat.mod_lt _ (by decide)

theorem Sel.room_le (s : Sel) : s.room ≤ 0x800000 := by
  cases s <;> simp only [Sel.room] <;> omega

/-- A place that is reached lies with its bytes in the 2^24 bytes that a unit's keys have for offsets. -/
theorem Dev.reach_fits {d : Dev} {r : Run} {k e a n : Nat} {any : Bool} {p : Place} (h : d.reach r k e a n any = some p) :
    p.off + n ≤ 0x1000000 := by
  obtain ⟨h, -⟩ := Option.filter_eq_some_iff.mp h
  unfold Dev.placeAt at h
  split at h
  · cases h
  · next s hs =>
    have hoff := spDecode_off_lt hs
    have hroom := s.room_le
    split at h
    · cases h
    · have hp : p.off = s.off := by
        split at h
        · split at h
          · obtain ⟨_, -, rfl⟩ := Option.map_eq_some_iff.mp h
            rfl
          · cases h
        · split at h <;> cases h
          rfl
        · split at h <;> cases h
          rfl
      omega

/-- The bytes of an operand lie where the keys of its memory are. -/
def Acc2.Fits (a : Acc2) : Prop := a.pl.off + a.t.extent ≤ 0x1000000

theorem Dev.opd_fits {d : Dev} {c : Cur} {g n : Nat} {wr : Bool} {sp : Nat} {a : Acc2} (h : d.opd c g n wr sp = .ok a) : a.Fits := by
  unfold Dev.opd at h
  split at h
  · cases h
  unfold Dev.locate at h
  split at h
  · cases h
  split at h
  · cases h
  · next hreach =>
    split at h <;> cases h
    exact Dev.reach_fits hreach

/-- A run ends within the extent of its tensor. -/
theorem TDesc.seg_in_extent {t : TDesc} {s : Nat × Nat} (h : s ∈ t.segs) : s.1 + s.2 ≤ t.extent := by
  obtain ⟨i1, i2, i3, h1, h2, h3, rfl⟩ := TDesc.mem_segs.mp h
  have hin := t.run_in_block (fun h0 => TDesc.lt_dim_of_rows h1 h0)
  have hplane : i2 * t.stride 2 ≤ (t.dim 2 - 1) * t.stride 2 := Nat.mul_le_mul_right _ (Nat.le_pred_of_lt h2)
  have hvolume : i3 * t.stride 3 ≤ (t.dim 3 - 1) * t.stride 3 := Nat.mul_le_mul_right _ (Nat.le_pred_of_lt h3)
  unfold TDesc.runAt TDesc.extent
  dsimp only
  omega

/-- No byte belongs to both of two operands. -/
def Acc2.Apart (a b : Acc2) : Prop := ∀ key, ¬ (a.covers key ∧ b.covers key)

theorem Acc2.Apart.symm {a b : Acc2} (h : a.Apart b) : b.Apart a := fun key hk => h key hk.symm

theorem Acc2.apart_of_overlaps {a b : Acc2} (ha : a.Fits) (hb : b.Fits) (h : a.overlaps b = false) : a.Apart b := by
  rintro key ⟨⟨s, hs, hslo, hshi⟩, ⟨q, hq, hqlo, hqhi⟩⟩
  have hsext := TDesc.seg_in_extent hs
  have hqext := TDesc.seg_in_extent hq
  unfold Acc2.Fits at ha hb
  unfold Place.key at hslo hshi hqlo hqhi
  have hunit : a.pl.unit = b.pl.unit := by omega
  have hmeet : a.overlaps b = true := by
    simp only [Acc2.overlaps, Bool.and_eq_true, beq_iff_eq, decide_eq_true_eq, List.any_eq_true]
    exact ⟨⟨⟨hunit, by omega⟩, by omega⟩, s, hs, q, hq, by omega, by omega⟩
  rw [h] at hmeet
  cases hmeet

section
variable {a b : Acc2} {x y : Nat × Nat × Nat × Nat}

/-- The bytes of an element are its operand's. -/
theorem Acc2.covers_of_element (hx : x ∈ a.t.coords) {key : Nat} (hlo : a.pl.key + a.t.atq x / 2 ≤ key)
    (hhi : key ≤ a.pl.key + (a.t.atq x + a.t.nibs - 1) / 2) : a.covers key := by
  by_contra h
  have := Acc2.outside_of_not_covers h hx
  omega

/-- An element is what the bytes of its operand are. -/
theorem Acc2.get_congr {d e : Dev} (h : ∀ key, a.covers key → e.mem.sram.read key = d.mem.sram.read key) (hx : x ∈ a.t.coords) :
    Acc2.get e a x = Acc2.get d a x := by
  have hpos := a.t.nibs_pos
  by_cases hn : a.t.nibs = 1
  · rw [Acc2.get_half _ hn, Acc2.get_half _ hn, h (a.keyOf x) (Acc2.covers_of_element hx le_rfl ?_)]
    unfold Acc2.keyOf
    omega
  · rw [Acc2.get_bytes _ hn, Acc2.get_bytes _ hn]
    congr 1
    refine List.map_congr_left (fun i hi => congrArg BitVec.toNat (h _ (Acc2.covers_of_element hx ?_ ?_)))
    · unfold Acc2.keyOf
      omega
    · have hi' := List.mem_range.mp hi
      have heven := TDesc.atq_even hn x
      unfold Acc2.keyOf
      omega

theorem Acc2.get_put_apart (d : Dev) (v : Nat) (hapart : a.Apart b) (hx : x ∈ a.t.coords) (hy : y ∈ b.t.coords) :
    Acc2.get (Acc2.put d b y v) a x = Acc2.get d a x :=
  Acc2.get_congr (fun key hkey => Acc2.read_put_out d b y v (Acc2.outside_of_not_covers (fun hb => hapart key ⟨hkey, hb⟩) hy)) hx

end

theorem TDesc.coords_of_sameDims {t u : TDesc} (h : t.sameDims u = true) : u.coords = t.coords := by
  simp only [TDesc.sameDims, List.all_cons, List.all_nil, Bool.and_true, Bool.and_eq_true, beq_iff_eq] at h
  obtain ⟨h0, h1, h2, h3⟩ := h
  simp only [TDesc.coords, h0, h1, h2, h3]

/-! ## Elements of several operands, written in turn -/

/-- An operand that is written, with the value of each of its elements. -/
abbrev OperandWrite := Acc2 × (Nat × Nat × Nat × Nat → Nat)

/-- One element of each operand is written. -/
def putEach (ws : List OperandWrite) (d : Dev) (q : Nat × Nat × Nat × Nat) : Dev := ws.foldl (fun s p => Acc2.put s p.1 q (p.2 q)) d

section
variable {ws : List OperandWrite} {C : List (Nat × Nat × Nat × Nat)}

theorem putEach_onChip (ws : List OperandWrite) (d : Dev) (q : Nat × Nat × Nat × Nat) : OnChip d (putEach ws d q) :=
  foldl_onChip (f := fun s (p : OperandWrite) => Acc2.put s p.1 q (p.2 q)) (fun s p => Acc2.put_onChip s p.1 q (p.2 q)) ws d

variable (hcoords : ∀ p ∈ ws, p.1.t.coords = C)
include hcoords

theorem read_putEach_out (d : Dev) {q : Nat × Nat × Nat × Nat} (hq : q ∈ C) {key : Nat} (h : ∀ p ∈ ws, ¬ p.1.covers key) :
    (putEach ws d q).mem.sram.read key = d.mem.sram.read key := by
  induction ws generalizing d with
  | nil => rfl
  | cons p ws ih =>
    refine (ih (fun r hr => hcoords r (List.mem_cons_of_mem _ hr)) _ (fun r hr => h r (List.mem_cons_of_mem _ hr))).trans ?_
    have hp := hcoords p (List.mem_cons_self ..)
    exact Acc2.read_put_out d p.1 q _ (Acc2.outside_of_not_covers (h p (List.mem_cons_self ..)) (hp ▸ hq))

theorem read_foldl_putEach_out (d : Dev) {l : List (Nat × Nat × Nat × Nat)} (hl : ∀ q ∈ l, q ∈ C) {key : Nat}
    (h : ∀ p ∈ ws, ¬ p.1.covers key) : (l.foldl (putEach ws) d).mem.sram.read key = d.mem.sram.read key := by
  induction l using List.reverseRecOn with
  | nil => rfl
  | append_singleton l q ih =>
    rw [List.foldl_append, List.foldl_cons, List.foldl_nil, read_putEach_out hcoords _ (hl q (by simp)) h]
    exact ih (fun z hz => hl z (List.mem_append_left _ hz))

theorem get_putEach_apart (d : Dev) {a : Acc2} (hapart : ∀ p ∈ ws, a.Apart p.1) {q x : Nat × Nat × Nat × Nat} (hq : q ∈ C)
    (hx : x ∈ a.t.coords) : Acc2.get (putEach ws d q) a x = Acc2.get d a x :=
  Acc2.get_congr (fun key hkey => read_putEach_out hcoords d hq (fun p hp hcov => hapart p hp key ⟨hkey, hcov⟩)) hx

variable (hwritable : ∀ p ∈ ws, p.1.t.writable = true) (hapart : ws.Pairwise (fun p r => p.1.Apart r.1)) {p : OperandWrite} (hp : p ∈ ws)
include hwritable hapart hp

/-- A step writes its element of each operand, and leaves the others alone. -/
theorem get_putEach (d : Dev) {q x : Nat × Nat × Nat × Nat} (hq : q ∈ C) (hx : x ∈ C) :
    Acc2.get (putEach ws d q) p.1 x = if x = q then p.2 q % 2 ^ (4 * p.1.t.nibs) else Acc2.get d p.1 x := by
  have hpC := hcoords p hp
  have hw := hwritable p hp
  obtain ⟨before, after, rfl⟩ := List.append_of_mem hp
  obtain ⟨-, hafter, hcross⟩ := List.pairwise_append.mp hapart
  have hstep : putEach (before ++ p :: after) d q = putEach after (Acc2.put (putEach before d q) p.1 q (p.2 q)) q := by
    simp only [putEach, List.foldl_append, List.foldl_cons]
  rw [hstep, get_putEach_apart (fun r hr => hcoords r (by simp [hr])) _ (List.pairwise_cons.mp hafter).1 hq (hpC ▸ hx)]
  split
  · next hxq =>
    rw [hxq]
    exact Acc2.get_put_same ..
  · next hxq =>
    rw [Acc2.get_put_ne _ _ hw (hpC ▸ hx) (hpC ▸ hq) hxq]
    exact get_putEach_apart (fun r hr => hcoords r (by simp [hr])) _
      (fun r hr => (hcross r hr p (List.mem_cons_self ..)).symm) hq (hpC ▸ hx)

/-- When every element has been written, each operand holds its values. -/
theorem filled_foldl_putEach (d : Dev) {l : List (Nat × Nat × Nat × Nat)} (hl : ∀ x, x ∈ l ↔ x ∈ C) :
    Filled p.1 p.2 (l.foldl (putEach ws) d) := by
  have hin : ∀ m : List (Nat × Nat × Nat × Nat), (∀ x ∈ m, x ∈ C) → ∀ x ∈ m,
      Acc2.get (m.foldl (putEach ws) d) p.1 x = p.2 x % 2 ^ (4 * p.1.t.nibs) := fun m => by
    induction m using List.reverseRecOn with
    | nil => exact fun _ x hx => absurd hx List.not_mem_nil
    | append_singleton m q ih =>
      intro hm x hx
      rw [List.foldl_append, List.foldl_cons, List.foldl_nil,
        get_putEach hcoords hwritable hapart hp _ (hm q (by simp)) (hm x hx)]
      split
      · next hxq => rw [hxq]
      · next hxq => exact ih (fun z hz => hm z (List.mem_append_left _ hz)) x (by simpa [hxq] using hx)
  exact fun x hx => hin l (fun z hz => (hl z).mp hz) x ((hl x).mpr (hcoords p hp ▸ hx))

end

/-! ## The operands of an optimiser (R192, R193) -/

theorem forall₂_of_exStatus_nil {α β : Type} {f : α → Except Nat β} {l : List α} (h : (l.map f).flatMap exStatus = []) :
    List.Forall₂ (fun x b => f x = .ok b) l ((l.map f).flatMap (fun o => o.toOption.toList)) := by
  induction l with
  | nil => exact .nil
  | cons x l ih =>
    rw [List.map_cons, List.flatMap_cons, List.append_eq_nil_iff] at h
    obtain ⟨b, hb⟩ := exStatus_eq_nil h.1
    rw [List.map_cons, List.flatMap_cons, hb]
    exact .cons hb (ih h.2)

section
variable {d : Dev} {c : Cur} {id g op : Nat} {accs : List Acc2}

/-- Each slot of an optimiser names its located operand. -/
theorem Dev.optOps_ok (h : d.optOps c g op = .ok accs) :
    List.Forall₂ (fun s a => d.opd c g s.1 s.2 stFormat = .ok a) (optSlots op) accs := by
  unfold Dev.optOps at h
  dsimp only at h
  split at h
  · next hnil =>
    cases h
    exact forall₂_of_exStatus_nil hnil
  · cases h

theorem Dev.optOps_descs (h : d.optOps c g op = .ok accs) : (optSlots op).map (fun s => c.desc s.1) = accs.map (fun a => a.t) := by
  have hops := Dev.optOps_ok h
  refine List.forall₂_eq_eq_eq ▸ List.forall₂_map_left_iff.mpr (List.forall₂_map_right_iff.mpr (hops.imp fun s a hopd => ?_))
  exact (Dev.opd_ok hopd).1.symm

theorem Dev.optOps_atTime (d : Dev) (t : Nat) : (d.at_ t).optOps c g op = d.optOps c g op := rfl

/-- An optimiser whose checks pass enters the ARRAY queue. -/
theorem Dev.optIssue_passed (t : Nat) (hc : d.curOp id g 1 op = some c) (hstall : c.stalls qArray = false) (ho : d.optOps c g op = .ok accs)
    (hint : (ewFields c.i).int = false) (hform : optForm (accs.map (fun a => a.t)) = []) (hapart : optApart accs = [])
    (haligned : ((optSlots op).zip accs).flatMap (fun p => c.unaligned p.1.1 p.2) = []) : d.optIssue id g t op =
      (d.at_ t).enqueue id g c qArray (some (ewTime (accs.map (fun a => a.t)) (2 * optBeta op)))
        (((optSlots op).zip accs).map (fun p => (p.1.1, p.2.region))) := by
  have hfirst : firstStatus (stIf (ewFields c.i).int stFormat ++ optForm ((optSlots op).map (fun s => c.desc s.1)) ++ optApart accs ++
      ((optSlots op).zip accs).flatMap (fun p => c.unaligned p.1.1 p.2)) = 0 := by
    rw [hint, Dev.optOps_descs ho, hform, hapart, haligned]
    rfl
  simp only [Dev.optIssue, hc, hstall, Bool.false_eq_true, if_false, Dev.optOps_atTime, ho, hfirst]

theorem optForm_eq_nil {a : TDesc} {l : List TDesc} (hform : ∀ b ∈ a :: l, (b.layout = 0 ∨ b.layout = 3) ∧ b.dtype = 8)
    (hdims : ∀ b ∈ l, a.sameDims b = true) : optForm (a :: l) = [] := by
  have hany : (a :: l).any (fun b => (b.layout != 0 && b.layout != 3) || b.dtype != 8) = false := by
    rw [List.any_eq_false]
    intro b hb
    obtain ⟨hlayout, hdtype⟩ := hform b hb
    rcases hlayout with h | h <;> simp [h, hdtype]
  have hshape : l.any (fun b => !a.sameDims b) = false := by
    rw [List.any_eq_false]
    intro b hb
    simp [hdims b hb]
  rw [optForm, hany, hshape]
  rfl

end

/-! ## An optimiser as it runs -/

/-- What is done by a run that touches `accs`, writes at `wrote` and leaves the block and the flags of `r`. -/
def doneWith (accs : List Acc2) (wrote : List Extent) (r : Dev × Nat) : Done :=
  { Done.idle r.1 with flags := r.2, touched := accs.map Acc2.keys, wrote := wrote }

/-- The block and the flags that a run leaves that writes `ws` element by element. -/
def Dev.runEach (d : Dev) (oct : Bool) (C : List (Nat × Nat × Nat × Nat)) (ws : List OperandWrite)
    (fl : Nat × Nat × Nat × Nat → Nat) : Dev × Nat :=
  ((ewBlocks oct C).flatten.foldl (putEach ws) d, orAll C fl)

section
variable {d : Dev} {c : Cur} {id g t : Nat} {ups : List Upset} {accs : List Acc2} {ws : List OperandWrite}
  {C : List (Nat × Nat × Nat × Nat)} {wrote : List Extent} {fl : Nat × Nat × Nat × Nat → Nat}

theorem Dev.runEach_within (hcoords : ∀ p ∈ ws, p.1.t.coords = C) (oct : Bool) :
    (doneWith accs wrote (d.runEach oct C ws fl)).Within d accs (ws.map Prod.fst) := by
  refine ⟨rfl, foldl_onChip (putEach_onChip ws) _ d, fun a ha => List.mem_map_of_mem ha, fun key hkey => ?_⟩
  exact read_foldl_putEach_out hcoords d (fun q hq => mem_flatten_ewBlocks.mp hq) (fun p hp => hkey p.1 (List.mem_map_of_mem hp))

/-- An optimiser that starts writes each of its operands from the block as it stands. -/
theorem Dev.optStart_completes (ha : d.awake) (hbegin : MayBegin d id g qArray c) (hcls : c.i.cls = 1) (hop : c.i.op = 0x14 ∨ c.i.op = 0x15)
    (hdo : (d.at_ t).optDo g c ups = doneWith accs wrote ((d.at_ t).runEach c.oct C ws fl)) (hcoords : ∀ p ∈ ws, p.1.t.coords = C)
    (hwritable : ∀ p ∈ ws, p.1.t.writable = true) (hapart : ws.Pairwise (fun p r => p.1.Apart r.1)) :
    Completes (.instructionStart id g qArray t [] ups none) d (fun e => (∀ p ∈ ws, Filled p.1 p.2 e) ∧
      Begun qArray id g t (orAll C fl) false [] accs (ws.map Prod.fst) d e) := by
  have hdoes := does_start t ups ha hbegin (by decide)
  simp only [Dev.runIns, hcls, Dev.ewDo, hop, if_true, hdo] at hdoes
  have hwithin := Dev.runEach_within (d := d.at_ t) (accs := accs) (wrote := wrote) (fl := fl) hcoords c.oct
  obtain ⟨hbegun, hsram⟩ := Dev.begun_of_within hwithin id g qArray
  refine ⟨_, hdoes, fun p hp x hx => ?_, hbegun⟩
  rw [Acc2.get_of_sram hsram]
  exact filled_foldl_putEach hcoords hwritable hapart hp _ (fun x => mem_flatten_ewBlocks) x hx

end

section
variable {d : Dev} {c : Cur} {g : Nat} {w gr m v : Acc2}

/-- What SGD_MOM makes of the elements at `q`. -/
def Dev.sgdAt (d : Dev) (c : Cur) (w gr m : Acc2) (q : Nat × Nat × Nat × Nat) : Machine.Num × Machine.Num × Nat :=
  sgdPoint (ofBits32 (ewFields c.i).s0) (ofBits32 (ewFields c.i).s1) (ofBits32 (Acc2.get d w q)) (ofBits32 (Acc2.get d gr q))
    (ofBits32 (Acc2.get d m q))

def Dev.sgdWrites (d : Dev) (c : Cur) (ups : List Upset) (w gr m : Acc2) : List OperandWrite :=
  [(w, fun q => ewElement c.oct ups w.t q (d.sgdAt c w gr m q).1.toBits32),
   (m, fun q => ewElement c.oct ups w.t q (d.sgdAt c w gr m q).2.1.toBits32)]

theorem Dev.optDo_sgd (ups : List Upset) (hop : c.i.op = 0x14) (ho : d.optOps c g 0x14 = .ok [w, gr, m]) :
    ∃ wrote, d.optDo g c ups = doneWith [w, gr, m] wrote
      (d.runEach c.oct w.t.coords (d.sgdWrites c ups w gr m) (fun q => (d.sgdAt c w gr m q).2.2)) := by
  simp only [Dev.optDo, hop, ho, optPoint, if_true]
  exact ⟨_, congrArg (doneWith [w, gr, m] _) (foldl_ewBlocks (putEach (d.sgdWrites c ups w gr m)) _ c.oct w.t.coords d)⟩

/-- What ADAMW makes of the elements at `q`. -/
def Dev.adamAt (d : Dev) (c : Cur) (w gr m v : Acc2) (q : Nat × Nat × Nat × Nat) : Machine.Num × Machine.Num × Machine.Num × Nat :=
  adamPoint (adamScalars c.i) (ofBits32 (Acc2.get d w q)) (ofBits32 (Acc2.get d gr q)) (ofBits32 (Acc2.get d m q))
    (ofBits32 (Acc2.get d v q))

def Dev.adamWrites (d : Dev) (c : Cur) (ups : List Upset) (w gr m v : Acc2) : List OperandWrite :=
  [(w, fun q => ewElement c.oct ups w.t q (d.adamAt c w gr m v q).1.toBits32),
   (m, fun q => ewElement c.oct ups w.t q (d.adamAt c w gr m v q).2.1.toBits32),
   (v, fun q => ewElement c.oct ups w.t q (d.adamAt c w gr m v q).2.2.1.toBits32)]

theorem Dev.optDo_adam (ups : List Upset) (hop : c.i.op = 0x15) (ho : d.optOps c g 0x15 = .ok [w, gr, m, v]) :
    ∃ wrote, d.optDo g c ups = doneWith [w, gr, m, v] wrote
      (d.runEach c.oct w.t.coords (d.adamWrites c ups w gr m v) (fun q => (d.adamAt c w gr m v q).2.2.2)) := by
  have hne : ¬ (0x15 = 0x14) := by decide
  simp only [Dev.optDo, hop, ho, optPoint, hne, if_false]
  exact ⟨_, congrArg (doneWith [w, gr, m, v] _) (foldl_ewBlocks (putEach (d.adamWrites c ups w gr m v)) _ c.oct w.t.coords d)⟩

/-- The operands of SGD_MOM: w and m may be written, and all lie where the keys of their memories are. -/
theorem Dev.optOps_sgd (ho : d.optOps c g 0x14 = .ok [w, gr, m]) :
    (w.t.writable = true ∧ m.t.writable = true) ∧ (w.Fits ∧ m.Fits) := by
  have hops := Dev.optOps_ok ho
  simp only [optSlots, if_true, List.forall₂_cons, List.Forall₂.nil, and_true] at hops
  obtain ⟨hw, -, hm⟩ := hops
  exact ⟨⟨(Dev.opd_ok hw).2 rfl, (Dev.opd_ok hm).2 rfl⟩, Dev.opd_fits hw, Dev.opd_fits hm⟩

theorem Dev.optOps_adam (ho : d.optOps c g 0x15 = .ok [w, gr, m, v]) :
    (w.t.writable = true ∧ m.t.writable = true ∧ v.t.writable = true) ∧ (w.Fits ∧ m.Fits ∧ v.Fits) := by
  have hne : ¬ (0x15 = 0x14) := by decide
  have hops := Dev.optOps_ok ho
  simp only [optSlots, hne, if_false, List.forall₂_cons, List.Forall₂.nil, and_true] at hops
  obtain ⟨hw, -, hm, hv⟩ := hops
  exact ⟨⟨(Dev.opd_ok hw).2 rfl, (Dev.opd_ok hm).2 rfl, (Dev.opd_ok hv).2 rfl⟩, Dev.opd_fits hw, Dev.opd_fits hm, Dev.opd_fits hv⟩

end

/-- Settles O9: at issue every check passes, and at the start each written operand is filled although the writes of its elements alternate
with those of the others. -/
theorem optimisersUpdateInPlace : Obligations.OptimisersUpdateInPlace := by
  unfold Obligations.OptimisersUpdateInPlace
  refine ⟨?sgd, ?adam, ?sgdStart, ?adamStart⟩
  case sgd =>
    intro d id g t c w gr m ha hc hstall ho hint hform hdims hover hw hgr hm
    obtain ⟨hgw, hmw, hmg⟩ := hover
    refine ⟨_, does_upd_eq (fun d => d.sgdMom id g t) (fun _ => rfl) ha (Dev.optIssue_passed t hc hstall ho hint ?_ ?_ ?_),
      Dev.enqueue_issued ..⟩
    · exact optForm_eq_nil hform (by simpa using hdims)
    · simp [optApart, List.range_succ, hgw, hmw, hmg, stIf]
    · simp [optSlots, hw, hgr, hm]
  case adam =>
    intro d id g t c w gr m v ha hc hstall ho hint hform hdims hover hw hgr hm hv
    obtain ⟨hgw, hmw, hmg, hvw, hvg, hvm⟩ := hover
    refine ⟨_, does_upd_eq (fun d => d.adamw id g t) (fun _ => rfl) ha (Dev.optIssue_passed t hc hstall ho hint ?_ ?_ ?_),
      Dev.enqueue_issued ..⟩
    · exact optForm_eq_nil hform (by simpa using hdims)
    · simp [optApart, List.range_succ, hgw, hmw, hmg, hvw, hvg, hvm, stIf]
    · simp [optSlots, hw, hgr, hm, hv]
  case sgdStart =>
    intro d id g t c w gr m ups ha hbegin hcls hop ho hdims hover f el r out
    obtain ⟨⟨hw, hm⟩, hfw, hfm⟩ := Dev.optOps_sgd ho
    obtain ⟨wrote, hdo⟩ := Dev.optDo_sgd (d := d.at_ t) ups hop ho
    have hcm := TDesc.coords_of_sameDims hdims.2
    obtain ⟨e, hdoes, hfilled, hbegun⟩ := Dev.optStart_completes ha hbegin hcls (.inl hop) hdo (by simp [Dev.sgdWrites, hcm])
      (by simp [Dev.sgdWrites, hw, hm]) (by simp [Dev.sgdWrites, (Acc2.apart_of_overlaps hfm hfw hover).symm])
    obtain ⟨hfilledw, hfilled⟩ := List.forall_mem_cons.mp hfilled
    have hfilledm := List.forall_mem_singleton.mp hfilled
    exact ⟨e, hdoes, hfilledw, hfilledm, hbegun⟩
  case adamStart =>
    intro d id g t c w gr m v ups ha hbegin hcls hop ho hdims hover el r out
    obtain ⟨⟨hw, hm, hv⟩, hfw, hfm, hfv⟩ := Dev.optOps_adam ho
    obtain ⟨wrote, hdo⟩ := Dev.optDo_adam (d := d.at_ t) ups hop ho
    obtain ⟨-, hdm, hdv⟩ := hdims
    obtain ⟨hmw, hvw, hvm⟩ := hover
    have hcm := TDesc.coords_of_sameDims hdm
    have hcv := TDesc.coords_of_sameDims hdv
    obtain ⟨e, hdoes, hfilled, hbegun⟩ := Dev.optStart_completes ha hbegin hcls (.inr hop) hdo (by simp [Dev.adamWrites, hcm, hcv])
      (by simp [Dev.adamWrites, hw, hm, hv])
      (by simp [Dev.adamWrites, (Acc2.apart_of_overlaps hfm hfw hmw).symm, (Acc2.apart_of_overlaps hfv hfw hvw).symm,
        (Acc2.apart_of_overlaps hfv hfm hvm).symm])
    obtain ⟨hfilledw, hfilled⟩ := List.forall_mem_cons.mp hfilled
    obtain ⟨hfilledm, hfilled⟩ := List.forall_mem_cons.mp hfilled
    have hfilledv := List.forall_mem_singleton.mp hfilled
    exact ⟨e, hdoes, hfilledw, hfilledm, hfilledv, hbegun⟩

end Sys2Proof.Machine
end

section
/-!
PROOFS. MATMUL and the Scruple checks (O10): refuted. The statement takes whatever unit a member names as its physical engine, not one that
exists. A failed check is reported for that unit, and the collector does not record an event of a hub unit that Table 4 of R516 does not
list (log entry 121), so SCRUPLE_MISMATCH does not become pending although the check is counted. Dispatch gives no member such a unit.
-/
namespace Sys2Proof.Machine

/-- A MATMUL that has run its time and found one failed check. -/
def failedMatmul : LongIns := { strayIns with touched := [], chk := [1] }

/-- A member whose physical engine is hub unit 3, which Table 4 of R516 does not list. -/
def unlistedMember : Member := { mkMember 0 (hubUnit 3) 0 with queues := [[failedMatmul], [], [], []] }

theorem unlistedMember_unknown : masterKnown unlistedMember.phys = false := by decide +kernel

/-- A command of a ring in run 1 with that member alone. -/
def unlistedRun : Run := { mkRun 0 0 false 0 0 [] false with phase := .run 1, members := [unlistedMember] }

/-- The block after reset, but it runs that command. -/
def unlistedDev : Dev := { Dev.reset with runs := [(0, unlistedRun)], nextRun := 1 }

/-- It meets what the statement asks of a MATMUL that completes with a failed check. -/
theorem unlistedDev_completes : unlistedDev.awake ∧ unlistedDev.queueHead 0 0 0 = some (unlistedRun, unlistedMember, failedMatmul) ∧
    failedMatmul.ripe (unlistedDev.acRate (unitRegion unlistedMember.phys)) 0 = true ∧ unlistedDev.touchedPoison failedMatmul.touched = none ∧
    unlistedDev.mild 0x040 ∧ unlistedDev.coll.ready = true ∧ 1 ∈ failedMatmul.chk :=
  ⟨rfl, rfl, by decide +kernel, rfl, ⟨by decide +kernel, by decide +kernel⟩, rfl, List.mem_cons_self ..⟩

/-- The failed check of such a member leaves the collector alone. -/
theorem Dev.scruple_coll_of_master_unknown (d : Dev) (id addr : Nat) {phys : Nat} (h : masterKnown phys = false) :
    (d.scruple id phys addr [1]).coll = d.coll := by
  simp only [Dev.scruple, List.foldl_cons, List.foldl_nil, if_true, Dev.raise_of_master_unknown _ _ _ _ h, Dev.modRun_coll, Dev.addSat_coll]

/-- An instruction that has run its time and met no error leaves its queue, and the outcomes of its checks are reported. -/
theorem Dev.insComplete_eq {d : Dev} {id g q t : Nat} {r : Run} {m : Member} {l : LongIns} (hhead : d.queueHead id g q = some (r, m, l))
    (hripe : l.ripe (d.acRate (unitRegion m.phys)) t = true) (hpoison : d.touchedPoison l.touched = none) :
    d.insComplete id g q t [] = ((d.at_ t).modMember id g (fun m => { m with
      queues := m.queues.mapIdx (fun i x => if i = q then x.drop 1 else x) })).scruple id m.phys r.addr l.chk := by
  have hpoison' : (d.at_ t).touchedPoison l.touched = none := hpoison
  simp only [Dev.insComplete, hhead, hripe, Bool.not_true, Bool.false_eq_true, if_false, hpoison']
  rfl

theorem unlistedDev_coll : (unlistedDev.insComplete 0 0 0 0 []).coll = unlistedDev.coll := by
  obtain ⟨-, hhead, hripe, hpoison, -⟩ := unlistedDev_completes
  rw [Dev.insComplete_eq hhead hripe hpoison]
  exact Dev.scruple_coll_of_master_unknown _ _ _ unlistedMember_unknown

/-- Refutes O10: the failed check of a MATMUL on a unit that is not listed does not become pending. -/
theorem not_matmulAndScruple : ¬ Obligations.MatmulAndScruple := by
  unfold Obligations.MatmulAndScruple
  rintro ⟨-, -, -, -, complete⟩
  obtain ⟨awake, head, ripe, poison, mild, ready, failed⟩ := unlistedDev_completes
  have hgo : Does (.instructionComplete 0 0 0 0 []) unlistedDev (unlistedDev.insComplete 0 0 0 0 []) :=
    does_upd_eq (fun d => if (0 : Nat) = qPrep ∨ (0 : Nat) = qDma then d.xComplete 0 0 0 0 [] else d.insComplete 0 0 0 0 []) (fun _ => rfl)
      awake rfl
  obtain ⟨-, -, -, pending, -⟩ :=
    (complete unlistedDev 0 0 0 0 unlistedRun unlistedMember failedMatmul awake (by decide) head ripe poison mild ready failed).of_does hgo
  rw [unlistedDev_coll] at pending
  exact absurd pending (by decide +kernel)

end Sys2Proof.Machine
end

section
/-!
PROOFS. Counts, loops and NOP (O14): each instruction is one change of its own member. LOOP_END reads the counters of the member that it
changes, so its change is the one of the statement once no two commands have the same number.
-/
namespace Sys2Proof.Machine

/-! ## Changes of one member -/

/-- Two changes of the value of a key are one when they agree on that value, in a table that lists no key twice. -/
theorem mmod_congr {α : Type} {m : List (Nat × α)} {k : Nat} {v : α} {f h : α → α} (hm : keysRise m = true) (hv : mfind m k = some v)
    (hfh : f v = h v) : mmod m k f = mmod m k h := by
  rw [keysRise_iff_pairwise] at hm
  refine List.map_congr_left (fun p hp => ?_)
  split
  · next hpk =>
    suffices hpv : p.2 = v by rw [hpv, hfh]
    induction m with
    | nil => cases hp
    | cons q m ih =>
      obtain ⟨hq, hm⟩ := List.pairwise_cons.mp hm
      rcases List.mem_cons.mp hp with rfl | hp
      · rw [mfind, if_pos hpk] at hv
        exact Option.some.inj hv
      · rw [mfind, if_neg (Nat.ne_of_lt (hpk ▸ hq p hp))] at hv
        exact ih hm hv hp
  · rfl

/-- The instruction found at a word of a code section stands at that word. -/
theorem insAt_idx {code : List Nat} {p : Nat} {b : Ins} (h : insAt code p = some b) : b.idx = p := by
  unfold insAt at h
  split at h
  · cases h
  · rw [← Option.some.inj h]

section
variable {d : Dev} {id g : Nat}

/-- Two changes of a member are one when they agree on that member. -/
theorem Dev.modMember_congr {r : Run} {m : Member} {f h : Member → Member} (hd : keysRise d.runs = true) (hr : mfind d.runs id = some r)
    (hm : r.members[g]? = some m) (hfh : f m = h m) : d.modMember id g f = d.modMember id g h := by
  have hmembers : r.members.mapIdx (fun i m => if i = g then f m else m) = r.members.mapIdx (fun i m => if i = g then h m else m) := by
    refine List.mapIdx_eq_mapIdx_iff.mpr (fun i hi => ?_)
    split
    · next hig => rw [Option.some.inj ((List.getElem?_eq_getElem hi).symm.trans (hig ▸ hm)), hfh]
    · rfl
  unfold Dev.modMember Dev.modRun
  rw [mmod_congr hd hr]
  rw [hmembers]

/-! ## What each instruction changes -/

variable {c : Cur} (t : Nat)

theorem Dev.setCount_eq (e : Dev) (i : Ins) (v : Nat) : e.setCount id g i v =
    e.modMember id g (fun m => { m with counts := m.counts.set (iLevel i.w) v, pc := i.idx + i.len }) :=
  Dev.modMember_modMember ..

theorem Dev.ctNop_eq (hc : d.curOp id g 8 0 = some c) : d.ctNop id g t = (d.at_ t).advance id g c.i := by
  rw [Dev.ctNop, hc]

theorem Dev.ctSetcount_eq (hc : d.curOp id g 7 2 = some c) : d.ctSetcount id g t = (d.at_ t).setCount id g c.i (bits c.i.w 82 51) := by
  rw [Dev.ctSetcount, hc]

theorem Dev.ldarg_eq (hc : d.curOp id g 8 3 = some c) :
    d.ldarg id g t = (d.at_ t).setCount id g c.i (c.r.args.getD (bits c.i.w 55 50) 0) := by
  rw [Dev.ldarg, hc]

theorem Dev.rdflags_eq (hc : d.curOp id g 8 2 = some c) :
    d.rdflags id g t = if c.m.drained then (d.at_ t).setCount id g c.i (c.m.aflags &&& bits c.i.w 57 50) else d := by
  rw [Dev.rdflags, hc]

/-- The count that a LOOP_BEGIN latches (R231): its own, or that of the count register of its level. -/
def Cur.loopCount (c : Cur) : Nat := if bitOf c.i.w 50 then c.m.counts.getD (iLevel c.i.w) 0 else bits c.i.w 82 51

theorem Dev.loopBegin_skips {md : Module} {en : Entry} (hc : d.curOp id g 7 0 = some c) (he : d.runEntry c.r = some (md, en))
    (hn : c.loopCount = 0) : d.loopBegin id g t = (d.at_ t).modMember id g (fun m => { m with
      latched := m.latched.set (iLevel c.i.w) 0, iters := m.iters.set (iLevel c.i.w) 0,
      pc := loopExit (md.insOf en) c.i.idx (iLevel c.i.w) }) := by
  obtain ⟨-, hr, -⟩ := Dev.curOp_some hc
  rw [Cur.loopCount] at hn
  simp only [Dev.loopBegin, hc, hr, Option.bind_some, he, hn, if_true]

theorem Dev.loopBegin_enters {md : Module} {en : Entry} (hc : d.curOp id g 7 0 = some c) (he : d.runEntry c.r = some (md, en))
    (hn : c.loopCount ≠ 0) : d.loopBegin id g t = (d.at_ t).modMember id g (fun m => { m with
      latched := m.latched.set (iLevel c.i.w) c.loopCount, iters := m.iters.set (iLevel c.i.w) 0,
      pc := c.i.idx + c.i.len, loops := m.loops.take (iLevel c.i.w) ++ [c.i.idx] }) := by
  obtain ⟨-, hr, -⟩ := Dev.curOp_some hc
  rw [Cur.loopCount] at hn
  simp only [Dev.loopBegin, hc, hr, Option.bind_some, he, hn, if_false, Cur.loopCount]

/-- The passes through the loop that its LOOP_END has counted, with this one (R231). -/
def Cur.passes (c : Cur) : Nat := c.m.iters.getD (iLevel c.i.w) 0 + 1

theorem Dev.loopEnd_repeats {b : Ins} (hd : keysRise d.runs = true) (hc : d.curOp id g 7 1 = some c)
    (hn : c.passes < c.m.latched.getD (iLevel c.i.w) 0) (hb : insAt c.code (c.m.loops.getD (iLevel c.i.w) 0) = some b) :
    d.loopEnd id g t = (d.at_ t).modMember id g (fun m => { m with
      iters := m.iters.set (iLevel c.i.w) c.passes, pc := b.idx + b.len }) := by
  obtain ⟨-, hr, -, hm, -⟩ := Dev.curOp_some hc
  rw [Dev.loopEnd, hc]
  refine Dev.modMember_congr (d := d.at_ t) hd hr hm ?_
  rw [Cur.passes] at hn
  simp only [hn, hb, insAt_idx hb, Option.map_some, Option.getD_some, if_true, Cur.passes]

theorem Dev.loopEnd_leaves (hd : keysRise d.runs = true) (hc : d.curOp id g 7 1 = some c)
    (hn : c.m.latched.getD (iLevel c.i.w) 0 ≤ c.passes) : d.loopEnd id g t = (d.at_ t).modMember id g (fun m => { m with
      iters := m.iters.set (iLevel c.i.w) c.passes, pc := c.i.idx + c.i.len, loops := m.loops.take (iLevel c.i.w) }) := by
  obtain ⟨-, hr, -, hm, -⟩ := Dev.curOp_some hc
  rw [Dev.loopEnd, hc]
  refine Dev.modMember_congr (d := d.at_ t) hd hr hm ?_
  rw [Cur.passes] at hn
  simp only [Nat.not_lt.mpr hn, if_false, Cur.passes]

end

/-- Settles O14: each instruction has one equation for the change of its member, and those of the loops split at their count. -/
theorem countsAndLoops : Obligations.CountsAndLoops := by
  intro d id g t c ha go after l
  refine ⟨fun hc => ?nop, fun hc => ?setcount, fun hc => ?ldarg, fun hc => ?rdflags, fun md en hc he => ?begin, fun hd hc => ?done⟩
  case nop => exact does_upd_eq (fun d => d.ctNop id g t) (fun _ => rfl) ha (Dev.ctNop_eq t hc)
  case setcount =>
    exact does_upd_eq (fun d => d.ctSetcount id g t) (fun _ => rfl) ha ((Dev.ctSetcount_eq t hc).trans (Dev.setCount_eq ..))
  case ldarg => exact does_upd_eq (fun d => d.ldarg id g t) (fun _ => rfl) ha ((Dev.ldarg_eq t hc).trans (Dev.setCount_eq ..))
  case rdflags =>
    refine ⟨fun hdrained => ?_, fun hdrained => ?_⟩ <;> refine does_upd_eq (fun d => d.rdflags id g t) (fun _ => rfl) ha ?_
    · rw [Dev.rdflags_eq t hc, if_pos hdrained, Dev.setCount_eq]
    · rw [Dev.rdflags_eq t hc, hdrained, if_neg Bool.false_ne_true]
  case begin =>
    refine ⟨fun hzero => ?_, fun hpos => ?_⟩ <;> refine does_upd_eq (fun d => d.loopBegin id g t) (fun _ => rfl) ha ?_
    · exact Dev.loopBegin_skips t hc he hzero
    · exact Dev.loopBegin_enters t hc he hpos
  case done =>
    refine ⟨fun hless b hb => ?_, fun hall => ?_⟩ <;> refine does_upd_eq (fun d => d.loopEnd id g t) (fun _ => rfl) ha ?_
    · exact Dev.loopEnd_repeats t hd hc hless hb
    · exact Dev.loopEnd_leaves t hd hc hall

end Sys2Proof.Machine
end

section
/-!
PROOFS. Signals and waits (O15). SIGNAL and WAIT have one equation per outcome. The end of a command at a wait that has expired is followed
in three parts: the diagnosis of a mutual wait leaves the commands alone, the end of a command takes it out for good and changes no flag,
and it takes no time.
-/
namespace Sys2Proof.Machine

/-! ## The end of a command takes no time -/

/-- The time of a block, as a predicate: two blocks are then compared by the operations that made them, not by their parts. -/
def Dev.IsAt (n : Nat) (d : Dev) : Prop := d.now = n

theorem isAt_of_ite {n : Nat} {c : Prop} [Decidable c] {a b : Dev} (ha : a.IsAt n) (hb : b.IsAt n) : (if c then a else b).IsAt n := by
  split
  · exact ha
  · exact hb

theorem foldl_isAt {n : Nat} {α : Type} (f : Dev → α → Dev) (hf : ∀ d x, d.IsAt n → (f d x).IsAt n) (l : List α) {d : Dev}
    (h : d.IsAt n) : (l.foldl f d).IsAt n :=
  foldl_induct (Dev.IsAt n) f hf l h

section
variable {n : Nat} {d : Dev} (h : d.IsAt n)
include h

theorem Dev.set_isAt (x : Fld) (v : Nat) : (d.set x v).IsAt n := (Dev.set_now ..).trans h

theorem Dev.raise_isAt (src master addr acc : Nat) : (d.raise src master addr acc).IsAt n := (Dev.event_now ..).trans h

theorem Dev.modCtx_isAt (key : Nat) (f : Ctx → Ctx) : (d.modCtx key f).IsAt n := h

theorem Dev.fnEvent_isAt (fn ev : Nat) : (d.fnEvent fn ev).IsAt n :=
  have hset := Dev.set_isAt h ⟨R.HIF_FN_EVENT fn, ev, ev⟩ 1
  isAt_of_ite hset ((Dev.send_now ..).trans hset)

theorem Dev.settleEntry_isAt (i : Nat) : (d.settleEntry i).IsAt n := by
  refine isAt_of_ite ?_ h
  exact (show d.now = n from h)

theorem Dev.unpinAll_isAt (l : List Nat) : (d.unpinAll l).IsAt n := by
  refine foldl_isAt _ (fun e i he => Dev.settleEntry_isAt ?_ i) l h
  exact he

theorem Dev.kvSettle_isAt (f : Nat) : (d.kvSettle f).IsAt n := by
  refine isAt_of_ite ?_ h
  refine foldl_isAt _ (fun e i he => ?_) _ ?_
  · exact he
  · exact h

theorem Dev.dropRun_isAt (id : Nat) : (d.dropRun id).IsAt n := by
  unfold Dev.dropRun
  split
  · exact h
  · next r _ =>
    refine Dev.kvSettle_isAt ?_ _
    have hpins := Dev.unpinAll_isAt ((Dev.charge_now d id true).trans h) r.pins
    exact (Dev.forgetRun_ctxs_runs _ r).2.2.trans hpins

theorem Dev.wrHost_isAt (a : Nat) (bs : List Nat) : (d.wrHost a bs).IsAt n := by
  refine isAt_of_ite ?_ h
  exact h

theorem Dev.setPoison_isAt (l : List Nat) : (d.setPoison l).IsAt n := by
  refine Dev.set_isAt (Dev.set_isAt ?_ _ _) _ _
  exact h

theorem Dev.wrHbm_isAt (a : Nat) (bs : List Nat) : (d.wrHbm a bs).IsAt n := by
  refine isAt_of_ite h (isAt_of_ite ?_ (Dev.setPoison_isAt ?_ _))
  · exact h
  · exact h

theorem Dev.someGranules_isAt (k : Nat) {go : Dev → Nat → Dev} (hgo : ∀ e i, e.IsAt n → (go e i).IsAt n) :
    (d.someGranules k go).IsAt n := by
  refine foldl_isAt _ (fun e i he => isAt_of_ite (hgo e _ he) he) _ ?_
  exact h

theorem Dev.copyMix_isAt (bs : List Nat) : (d.copyMix bs).IsAt n :=
  isAt_of_ite (Dev.someGranules_isAt h _ (fun _ _ he => Dev.wrHost_isAt he _ _))
    (Dev.someGranules_isAt h _ (fun _ _ he => Dev.wrHbm_isAt he _ _))

theorem Dev.pullMix_isAt (bs : List Nat) : (d.pullMix bs).IsAt n := by
  refine Dev.someGranules_isAt h _ (fun e i he => (Dev.take_now _).trans (Dev.setPoison_isAt ?_ _))
  exact he

theorem Dev.stopHead_isAt (k : RingCmd) : (d.stopHead k).IsAt n := by
  unfold Dev.stopHead
  split
  · exact Dev.dropRun_isAt h _
  · exact Dev.copyMix_isAt h _
  · exact Dev.pullMix_isAt h _
  · exact h

theorem Dev.noteSlow_isAt (r : Run) (v : Option Nat) : (d.noteSlow r v).IsAt n := by
  unfold Dev.noteSlow
  split
  · exact h
  · refine isAt_of_ite ?_ ?_ <;> exact h

theorem Dev.signalRec_isAt (key : Nat) (atOnce : Bool) : (d.signalRec key atOnce).IsAt n := by
  unfold Dev.signalRec
  split
  · exact h
  · refine isAt_of_ite h (isAt_of_ite ?_ ?_) <;> exact h

theorem Dev.emit_isAt (key : Nat) (r : Rec) : (d.emit key r).IsAt n := by
  unfold Dev.emit
  split
  · exact h
  · exact isAt_of_ite h (Dev.signalRec_isAt (Dev.modCtx_isAt (Dev.wrHost_isAt h _ _) _ _) _ _)

theorem Dev.emitFree_isAt (key : Nat) (r : Rec) : (d.emitFree key r).IsAt n := by
  unfold Dev.emitFree
  split
  · exact h
  · exact isAt_of_ite h (isAt_of_ite (Dev.emit_isAt h _ _) (Dev.raise_isAt (Dev.fnEvent_isAt (Dev.set_isAt h _ _) _ _) _ _ _ _))

theorem Dev.endHead_isAt (key status detail slow info : Nat) : (d.endHead key status detail slow info).IsAt n := by
  unfold Dev.endHead
  split
  · exact h
  · split
    · exact h
    · have hnext := fun f => Dev.modCtx_isAt h key f
      refine isAt_of_ite ?_ (isAt_of_ite (hnext _) (Dev.emit_isAt (hnext _) _ _))
      exact h

theorem Dev.freeCtx_isAt (key : Nat) : (d.freeCtx key).IsAt n := by
  refine foldl_isAt _ (fun e q he => ?_) _ h
  exact he

theorem Dev.opDone_isAt (fn status : Nat) : (d.opDone fn status).IsAt n :=
  Dev.fnEvent_isAt (Dev.set_isAt (Dev.set_isAt h _ _) _ _) _ _

theorem Dev.cutHead_isAt (key : Nat) (k : RingCmd) (status : Nat) : (d.cutHead key k status).IsAt n := by
  unfold Dev.cutHead
  split
  · exact Dev.endHead_isAt (Dev.noteSlow_isAt (Dev.stopHead_isAt h _) _ _) _ _ _ _ _
  · exact Dev.endHead_isAt (Dev.stopHead_isAt h _) _ _ _ _ _

theorem Dev.pump_isAt (key k : Nat) : (d.pump key k).IsAt n := by
  induction k generalizing d with
  | zero => exact h
  | succ k ih =>
    unfold Dev.pump
    split
    · exact h
    split
    · split
      · exact ih (Dev.endHead_isAt h _ _ _ _ _)
      · exact h
    · exact h
    · exact isAt_of_ite (ih (Dev.cutHead_isAt h _ _ _)) h
    · exact Dev.opDone_isAt (Dev.freeCtx_isAt h _) _ _
    · exact isAt_of_ite (ih (Dev.cutHead_isAt h _ _ _)) h
    · exact isAt_of_ite (Dev.opDone_isAt (Dev.modCtx_isAt h _ _) _ _)
        (isAt_of_ite (ih (Dev.emit_isAt (Dev.modCtx_isAt h _ _) _ _)) h)

theorem Dev.complete_isAt (key status detail slow info : Nat) : (d.complete key status detail slow info).IsAt n := by
  have hend := Dev.endHead_isAt h key status detail slow info
  unfold Dev.complete Dev.pumpCtx
  split
  · exact hend
  · exact isAt_of_ite (Dev.pump_isAt hend _ _) (Dev.pump_isAt hend _ _)

theorem Dev.closePhase_isAt : d.closePhase.IsAt n := by
  unfold Dev.closePhase
  dsimp only
  split <;> exact h

theorem Dev.pushTask_isAt (slot : Nat) : (d.pushTask slot).IsAt n := by
  unfold Dev.pushTask
  split
  · refine isAt_of_ite ?_ h
    split <;> exact h
  · exact h

theorem Dev.phaseDone_isAt : d.phaseDone.IsAt n := by
  unfold Dev.phaseDone
  split
  · exact isAt_of_ite (Dev.closePhase_isAt h) h
  · exact h

theorem Dev.endTaskCmd_isAt (r : Run) (status cause slow : Nat) : (d.endTaskCmd r status cause slow).IsAt n := by
  unfold Dev.endTaskCmd
  extract_lets key e len goes
  have hrec : e.IsAt n := by
    unfold e
    split
    · exact isAt_of_ite (Dev.emitFree_isAt h _ _) h
    · exact h
  have htask : ∀ f, (e.modTask r.task f).IsAt n := fun _ => hrec
  exact isAt_of_ite hrec (Dev.phaseDone_isAt (isAt_of_ite (Dev.pushTask_isAt (htask _) _) (htask _)))

theorem Dev.finish_isAt (id status cause : Nat) : (d.finish id status cause).IsAt n := by
  unfold Dev.finish
  split
  · exact h
  · have hslow := fun r v => Dev.noteSlow_isAt (Dev.dropRun_isAt h id) r v
    refine isAt_of_ite (Dev.endTaskCmd_isAt (hslow _ _) _ _ _ _) (isAt_of_ite ?_ (Dev.complete_isAt (hslow _ _) _ _ _ _ _))
    exact hslow _ _

end

/-! ## The end of a command takes it out for good (R250) -/

theorem Dev.dropRun_gone (d : Dev) (id : Nat) (hid : id < d.nextRun) : mfind (d.dropRun id).runs id = none := by
  unfold Dev.dropRun
  split
  · next hr => exact hr
  · next r _ =>
    extract_lets charged dropped
    have hdropped : Kept d dropped := Dev.forgetRun_kept (Dev.unpinAll_kept (Dev.charge_kept (.refl d) _ _) _) _
    have herased := Dev.kvSettle_kept (.refl { dropped with runs := merase dropped.runs id }) r.part
    exact herased.runs id (Nat.lt_of_lt_of_le hid hdropped.nextRun) (mfind_merase_same _ _)

theorem Kept.gone {K d : Dev} (h : Kept K d) {id : Nat} (hid : id < K.nextRun) (hgone : mfind K.runs id = none) : mfind d.runs id = none :=
  h.runs id hid hgone

/-- A command that has ended does not come back with what follows its end: the next command of its task has a number of its own. -/
theorem Dev.finish_gone (d : Dev) {id : Nat} (status cause : Nat) (hid : id < d.nextRun) :
    mfind (d.finish id status cause).runs id = none := by
  unfold Dev.finish
  split
  · next hr => exact hr
  · next r _ =>
    extract_lets sl slow e
    have he : Kept (d.dropRun id) e := Dev.noteSlow_kept (.refl _) _ _
    have hlt := Nat.lt_of_lt_of_le hid (Dev.dropRun_kept (.refl d) id).nextRun
    refine Kept.gone (kept_of_ite (Dev.endTaskCmd_kept he _ _ _ _) (kept_of_ite ?_ (Dev.complete_kept he _ _ _ _ _))) hlt (d.dropRun_gone id hid)
    exact he

/-! ## A wait that expires in run 1 -/

/-- What a command ended by its own status leaves of `K`: the command is gone, and neither flags nor time have moved. -/
structure Ended (K : Dev) (id : Nat) (e : Dev) : Prop where
  gone : mfind e.runs id = none
  flags : e.flags = K.flags
  now : e.now = K.now

theorem Dev.finish_ended {K d : Dev} (hk : Kept K d) (hn : d.IsAt K.now) {id : Nat} (status cause : Nat) (hid : id < K.nextRun) :
    Ended K id (d.finish id status cause) :=
  ⟨d.finish_gone status cause (Nat.lt_of_lt_of_le hid hk.nextRun), (Dev.finish_kept hk _ _ _).flags, Dev.finish_isAt hn _ _ _⟩

/-- Run 1 is the one whose own status is final (R158, R339). -/
theorem Dev.endOwn_run1 {d : Dev} {id : Nat} {r : Run} (hr : mfind d.runs id = some r) (hphase : r.phase = .run 1) (status : Nat) :
    d.endOwn id status =
      if r.qmRerun then (d.addSat F.SAF_ARB_REJECTED.COUNT 1).finish id stInvalidated 6 else d.finish id status 0 := by
  simp only [Dev.endOwn, hr, hphase]

theorem Dev.endOwn_ended {K d : Dev} (hk : Kept K d) (hn : d.IsAt K.now) {id : Nat} {r : Run} (hr : mfind d.runs id = some r)
    (hphase : r.phase = .run 1) (status : Nat) (hid : id < K.nextRun) : Ended K id (d.endOwn id status) := by
  rw [Dev.endOwn_run1 hr hphase]
  split
  · exact Dev.finish_ended (Dev.addSat_kept hk _ ⟨by decide, by decide⟩) ((Dev.addSat_now ..).trans hn) _ _ hid
  · exact Dev.finish_ended hk hn _ _ hid

theorem Dev.abandonEntry_runs (d : Dev) : d.abandonEntry.runs = d.runs := by
  obtain ⟨regs, entering, h⟩ := d.abandonEntry_shape
  rw [h]

/-- Of the reactions to an event the block reset alone changes commands. -/
theorem Dev.react_runs {rs : Nat} (h : maskHas rs 2 = false) (d : Dev) (e : FaultEv) : (d.react e rs).runs = d.runs := by
  unfold Dev.react
  extract_lets noBlock nmi _ counted sent reset
  have hsent : sent.runs = d.runs := by
    unfold sent
    split <;> rfl
  have hreset : reset = sent := by
    unfold reset
    rw [h, Bool.false_and, if_neg Bool.false_ne_true]
  clear_value reset
  subst hreset
  split
  · rw [Dev.abandonEntry_runs, hsent]
  · exact hsent

theorem Dev.raise_runs {d : Dev} {src : Nat} (hmild : d.mild src) (master addr acc : Nat) : (d.raise src master addr acc).runs = d.runs := by
  unfold Dev.raise Dev.event
  split
  · rfl
  · rw [Dev.react_runs]
    split
    · exact hmild.2
    · exact hmild.1

/-- `e` is `d` but for registers that the end of commands does not mind. -/
structure Noted (d e : Dev) : Prop where
  kept : Kept d e
  now : e.now = d.now
  runs : e.runs = d.runs
  coll : e.coll = d.coll

theorem Noted.refl (d : Dev) : Noted d d := ⟨.refl d, rfl, rfl, rfl⟩

theorem Noted.setReg {d e : Dev} (h : Noted d e) {off : Nat} (v : BitVec 64) (ho : off ≠ R.SCH_ORDO_CTRL) (hl : off ≠ R.PWR_LP_CTRL) :
    Noted d (e.setReg off v) :=
  ⟨Dev.setReg_kept h.kept v ho hl, (Dev.setReg_now ..).trans h.now, (Dev.setReg_runs ..).trans h.runs, (Dev.setReg_coll ..).trans h.coll⟩

theorem Noted.set {d e : Dev} (h : Noted d e) {x : Fld} (v : Nat) (hx : x.Minor) : Noted d (e.set x v) := h.setReg _ hx.1 hx.2

/-- The diagnosis of a mutual wait writes its registers and raises its source (R241, R242), or finds none. -/
theorem Dev.diagnose_cases (d : Dev) (x : Waiting) :
    d.diagnose x = d ∨ ∃ e master addr, d.diagnose x = e.raise 0x0C3 master addr 0 ∧ Noted d e := by
  unfold Dev.diagnose
  split
  · exact .inl rfl
  · extract_lets a b put e
    refine .inr ⟨e, _, _, rfl, ?_⟩
    unfold e
    split
    · exact (Noted.refl d).set _ ⟨by decide, by decide⟩
    · have hput : Noted d (put (put d R.SCH_MUTUAL_A a) R.SCH_MUTUAL_B b) :=
        ((Noted.refl d).setReg _ (by decide) (by decide)).setReg _ (by decide) (by decide)
      exact (hput.set _ ⟨by decide, by decide⟩).set _ ⟨by decide, by decide⟩

theorem Noted.mild {d e : Dev} (h : Noted d e) {src : Nat} (hmild : d.mild src) : e.mild src := by
  unfold Dev.mild
  rw [h.coll]
  exact hmild

/-- A wait that expires in run 1 ends its command, whether or not it was a mutual one (R239, R241). -/
theorem Dev.syExpire_ended {d : Dev} {id : Nat} {r : Run} (hr : mfind d.runs id = some r) (hphase : r.phase = .run 1)
    (hmild : d.mild 0x0C3) (w : WaitSt) (hid : id < d.nextRun) : Ended d id (d.syExpire id w) := by
  have hend := fun (e : Dev) hk hn (he : e.runs = d.runs) =>
    Dev.endOwn_ended (K := d) (d := e) hk hn (he.symm ▸ hr) hphase stWaitExpired hid
  unfold Dev.syExpire
  rw [hr]
  dsimp only
  split
  · next x _ =>
    obtain hx | ⟨e, master, addr, hx, he⟩ := d.diagnose_cases x <;> rw [hx]
    · exact hend d (.refl d) rfl rfl
    · exact hend _ (Dev.raise_kept he.kept _ _ _ _) (Dev.raise_isAt he.now _ _ _ _) ((Dev.raise_runs (he.mild hmild) ..).trans he.runs)
  · exact hend d (.refl d) rfl rfl

/-! ## What each instruction does -/

section
variable {d : Dev} {id g : Nat} {c : Cur} (t : Nat)

/-- The VALUE of a SIGNAL or a WAIT (R234). -/
def Cur.syValue (c : Cur) : Nat := bits c.i.w 93 62

theorem Dev.sySignal_bounds (hc : d.curOp id g 6 0 = some c) (hn : d.syFlag c.r.part g c.i.w = none) :
    d.sySignal id g t = (d.at_ t).endOwn id stBounds := by
  have hn' : (d.at_ t).syFlag c.r.part g c.i.w = none := hn
  simp only [Dev.sySignal, hc, hn']

/-- The member has issued the SIGNAL (R241), whatever comes of it. -/
def Dev.sent (d : Dev) (id g : Nat) (i : Ins) : Dev := d.modMember id g (fun m => { m with sent := insNat m.sent i.idx })

/-- A SIGNAL in the command's deferred-signal list (R235). -/
def Dev.deferred (d : Dev) (id : Nat) (c : Cur) (n : Nat) : Dev :=
  d.modRun id (fun r => { r with signals := mset r.signals n (mget 0 r.signals n + c.syValue) })

theorem Dev.sySignal_eq (hc : d.curOp id g 6 0 = some c) {n : Nat} (hn : d.syFlag c.r.part g c.i.w = some n) : d.sySignal id g t =
    if c.syValue = 0 then ((d.at_ t).sent id g c.i).advance id g c.i
    else if (mfind c.r.signals n).isNone ∧ 64 ≤ c.r.signals.length then ((d.at_ t).sent id g c.i).endOwn id stBounds
    else (((d.at_ t).sent id g c.i).deferred id c n).advance id g c.i := by
  have hn' : (d.at_ t).syFlag c.r.part g c.i.w = some n := hn
  simp only [Dev.sySignal, hc, hn']
  rfl

theorem Dev.syWait_bounds (hc : d.curOp id g 6 1 = some c) (hn : d.syFlag c.r.part g c.i.w = none) :
    d.syWait id g t = (d.at_ t).endOwn id stBounds := by
  have hn' : (d.at_ t).syFlag c.r.part g c.i.w = none := hn
  simp only [Dev.syWait, hc, hn']

/-- The wait of a WAIT on hardware flag `n`. -/
def Cur.syWait (c : Cur) (n : Nat) : WaitSt := ⟨n, c.syValue, bits (c.i.x 0) 63 0⟩

/-- The member waits. -/
def Dev.stalled (d : Dev) (id g : Nat) (w : WaitSt) : Dev := d.modMember id g (fun m => { m with stall := .wait w })

theorem Dev.syWait_eq (hc : d.curOp id g 6 1 = some c) {n : Nat} (hn : d.syFlag c.r.part g c.i.w = some n) : d.syWait id g t =
    if c.syValue ≤ d.flag n then (d.at_ t).advance id g c.i
    else if duePast (c.syWait n).deadline (Nat.max d.now t) && !d.vigilFirst c.r (c.syWait n).deadline then
      ((d.at_ t).stalled id g (c.syWait n)).syExpire id (c.syWait n)
    else (d.at_ t).stalled id g (c.syWait n) := by
  have hn' : (d.at_ t).syFlag c.r.part g c.i.w = some n := hn
  simp only [Dev.syWait, hc, hn']
  rfl

theorem Dev.syStall_run {r : Run} {w : WaitSt} {i : Ins} (h : d.syStall id g = some (r, w, i)) : mfind d.runs id = some r := by
  unfold Dev.syStall at h
  split at h
  · cases h
  · next r' hr =>
    have hrun : r' = r := by
      split at h
      · cases h
      · split at h
        · split at h
          · obtain ⟨i', -, hi⟩ := Option.map_eq_some_iff.mp h
            exact congrArg Prod.fst hi
          · cases h
        · cases h
    rw [hr, hrun]

theorem Dev.syRelease_eq {r : Run} {w : WaitSt} {i : Ins} (h : d.syStall id g = some (r, w, i)) : d.syRelease id g t =
    if w.value ≤ d.flag w.flag then (d.at_ t).modMember id g (fun m => { m with stall := .none, pc := i.idx + i.len }) else d := by
  simp only [Dev.syRelease, h, Dev.advance, Dev.modMember_modMember]

theorem Dev.syExpired_eq {r : Run} {w : WaitSt} {i : Ins} (h : d.syStall id g = some (r, w, i)) : d.syExpired id g t =
    if w.value ≤ d.flag w.flag ∨ ¬ duePast w.deadline t ∨ d.vigilFirst r w.deadline = true then d else (d.at_ t).syExpire id w := by
  simp only [Dev.syExpired, h, Bool.or_eq_true, decide_eq_true_iff, Bool.not_eq_true', Bool.not_eq_true, or_assoc]

end

/-! ## The statement -/

section
variable {d : Dev} {id g t : Nat}

theorem does_sySignal {e : Dev} (ha : d.awake) (he : d.sySignal id g t = e) : Does (.sySignal id g t) d e :=
  does_upd_eq (fun d => d.sySignal id g t) (fun _ => rfl) ha he

theorem does_syWait {e : Dev} (ha : d.awake) (he : d.syWait id g t = e) : Does (.syWait id g t) d e :=
  does_upd_eq (fun d => d.syWait id g t) (fun _ => rfl) ha he

theorem does_syWaitRelease {e : Dev} (ha : d.awake) (he : d.syRelease id g t = e) : Does (.syWaitRelease id g t) d e :=
  does_upd_eq (fun d => d.syRelease id g t) (fun _ => rfl) ha he

theorem does_syWaitExpired {e : Dev} (ha : d.awake) (he : d.syExpired id g t = e) : Does (.syWaitExpired id g t) d e :=
  does_upd_eq (fun d => d.syExpired id g t) (fun _ => rfl) ha he

theorem Dev.modMember_phase {r : Run} (g : Nat) (f : Member → Member) (hr : mfind d.runs id = some r) :
    ∃ r', mfind (d.modMember id g f).runs id = some r' ∧ r'.phase = r.phase := by
  unfold Dev.modMember Dev.modRun
  rw [mfind_mmod_same, hr]
  exact ⟨_, rfl, rfl⟩

/-- A WAIT whose deadline has passed as it issues ends its command as a wait that has stalled does. -/
theorem Dev.stalled_syExpire_ended {c : Cur} {op : Nat} (hc : d.curOp id g 6 op = some c) (hphase : c.r.phase = .run 1)
    (hmild : d.mild 0x0C3) (w : WaitSt) (hid : id < d.nextRun) :
    Ended ((d.at_ t).stalled id g w) id (((d.at_ t).stalled id g w).syExpire id w) := by
  obtain ⟨-, hr, -⟩ := Dev.curOp_some hc
  obtain ⟨r, hstalled, hsame⟩ := Dev.modMember_phase (d := d.at_ t) g (fun m => { m with stall := .wait w }) hr
  exact Dev.syExpire_ended hstalled (hsame.trans hphase) hmild w hid

end

/-- Settles O15: SIGNAL and WAIT by the case that their equation takes, the end of an expired wait from what the end of a command keeps. -/
theorem signalsAndWaits : Obligations.SignalsAndWaits := by
  unfold Obligations.SignalsAndWaits
  refine ⟨fun d id g t c ha hc => ?signal, fun d id g t c ha hc => ?wait, fun d id g t r w i ha hs => ?stalled⟩
  case signal =>
    refine ⟨fun hn => does_sySignal ha (Dev.sySignal_bounds t hc hn), fun n hn => ?_⟩
    have hgo := Dev.sySignal_eq t hc hn
    refine ⟨fun hzero => does_sySignal ha (hgo.trans (if_pos hzero)), fun hpos hroom => ?_, fun hpos hnew hfull => ?_⟩
    · refine does_sySignal ha (hgo.trans ((if_neg hpos).trans (if_neg ?_)))
      rintro ⟨hnew, hfull⟩
      rcases hroom with hlisted | hroom
      · rw [Option.isNone_iff_eq_none.mp hnew] at hlisted
        cases hlisted
      · exact Nat.not_le.mpr hroom hfull
    · exact does_sySignal ha (hgo.trans ((if_neg hpos).trans (if_pos ⟨Option.isNone_iff_eq_none.mpr hnew, hfull⟩)))
  case wait =>
    intro v x due
    refine ⟨fun hn => does_syWait ha (Dev.syWait_bounds t hc hn), fun n hn => ?_⟩
    have hgo := Dev.syWait_eq t hc hn
    have hdue : (duePast x (Nat.max d.now t) && !d.vigilFirst c.r x) = true ↔ due := by
      rw [Bool.and_eq_true, duePast_iff, Bool.not_eq_true', Nat.pos_iff_ne_zero, and_assoc]
    refine ⟨fun hover => does_syWait ha (hgo.trans (if_pos hover)), fun hbelow hnot => ?_, fun hbelow hpast hmild hphase hid => ?_⟩
    · exact does_syWait ha (hgo.trans ((if_neg (Nat.not_le.mpr hbelow)).trans (if_neg (fun h => hnot (hdue.mp h)))))
    · have hended := Dev.stalled_syExpire_ended (t := t) hc hphase hmild (c.syWait n) hid
      exact ⟨_, does_syWait ha (hgo.trans ((if_neg (Nat.not_le.mpr hbelow)).trans (if_pos (hdue.mpr hpast)))), hended.gone, hended.flags⟩
  case stalled =>
    refine ⟨fun hover => ?_, fun hbelow => ?_, fun hkeeps => ?_, fun hbelow hset hpast hvigil hmild hphase hid => ?_⟩
    · exact does_syWaitRelease ha ((Dev.syRelease_eq t hs).trans (if_pos hover))
    · exact does_syWaitRelease ha ((Dev.syRelease_eq t hs).trans (if_neg (Nat.not_le.mpr hbelow)))
    · refine does_syWaitExpired ha ((Dev.syExpired_eq t hs).trans (if_pos ?_))
      rcases hkeeps with hover | hnone | hearly | hvigil
      · exact .inl hover
      · exact .inr (.inl (fun hpast => Nat.ne_of_gt ((duePast_iff _ _).mp hpast).1 hnone))
      · exact .inr (.inl (fun hpast => Nat.not_le.mpr hearly ((duePast_iff _ _).mp hpast).2))
      · exact .inr (.inr hvigil)
    · have hended := Dev.syExpire_ended (d := d.at_ t) (Dev.syStall_run hs) hphase hmild w hid
      refine ⟨_, does_syWaitExpired ha ((Dev.syExpired_eq t hs).trans (if_neg ?_)), hended.gone, hended.flags, hended.now⟩
      rintro (hover | hearly | hfirst)
      · exact Nat.not_le.mpr hbelow hover
      · exact hearly ((duePast_iff _ _).mpr ⟨Nat.pos_of_ne_zero hset, hpast⟩)
      · exact Bool.false_ne_true (hvigil.symm.trans hfirst)

end Sys2Proof.Machine
end
